-- ==== Sys2Proof/Word.lean ====
section
/-! DEFINITION. The word types of the module: the 64-bit register and instruction word of the
register tables and of R238, the byte of R15, and the sticky flag byte of R94. -/

namespace Sys2Proof

/-- A 64-bit register, instruction word or descriptor word. -/
abbrev Word := BitVec 64

/-- A 32-bit scalar register or counter of a command queue (R244). -/
abbrev Word32 := BitVec 32

/-- One byte of memory or of a frame payload. -/
abbrev Byte := BitVec 8

/-- The eight sticky floating-point flags in the bit order of FPFLAGS (R94). -/
abbrev FpFlags := BitVec 8

end Sys2Proof
end

