-- ==== Sys2Proof/Machine/Bits.lean ====
section
/-! DEFINITION. Bit fields, byte order, sign extension and small list helpers that every family
shares. Byte order is decided here once: tensor data is little-endian (R15), frame headers and
management datagrams are big-endian (R16). -/

namespace Sys2Proof.Machine

/-- The unsigned value of bits [hi:lo] of a word, both ends included (R14). -/
def field {n : Nat} (w : BitVec n) (hi lo : Nat) : Nat :=
  (w.toNat >>> lo) % 2 ^ (hi + 1 - lo)

/-- Bits [hi:lo] of a natural number. -/
def natField (w : Nat) (hi lo : Nat) : Nat := (w >>> lo) % 2 ^ (hi + 1 - lo)

/-- Bit `i` of a natural number. -/
def natBit (w : Nat) (i : Nat) : Bool := (w >>> i) % 2 == 1

/-- The two's complement value of the low `n` bits of `w`. -/
def signExt (n w : Nat) : Int :=
  let v := w % 2 ^ n
  if 2 * v < 2 ^ n then (v : Int) else (v : Int) - (2 ^ n : Nat)

/-- The low `n` bits of an integer in two's complement. -/
def wrapInt (n : Nat) (x : Int) : Nat := (x % ((2 ^ n : Nat) : Int)).toNat

/-- `w` with bits [hi:lo] replaced by the low bits of `v`. -/
def setField (w hi lo v : Nat) : Nat :=
  let m := 2 ^ (hi + 1 - lo)
  w - ((w >>> lo) % m) <<< lo + (v % m) <<< lo

/-- `n` bytes of `v`, lowest first (R15). -/
def leBytes : Nat → Nat → List Byte
  | 0, _ => []
  | n + 1, v => BitVec.ofNat 8 v :: leBytes n (v / 256)

/-- The value of bytes held lowest first (R15). -/
def leVal : List Byte → Nat
  | [] => 0
  | b :: bs => b.toNat + 256 * leVal bs

/-- `n` bytes of `v`, highest first (R16). -/
def beBytes (n v : Nat) : List Byte := (leBytes n v).reverse

/-- The value of bytes held highest first (R16). -/
def beVal (bs : List Byte) : Nat := leVal bs.reverse

/-- `off`, `len`: a slice of a list. -/
def slice {α : Type} (xs : List α) (off len : Nat) : List α := (xs.drop off).take len

/-- The quotient rounded up. -/
def ceilDiv (a b : Nat) : Nat := (a + b - 1) / b

/-- The value under a key of a key and value list, `d` where the key is not listed. -/
def lookupD {α : Type} (xs : List (Nat × α)) (k : Nat) (d : α) : α :=
  match xs with
  | [] => d
  | (j, v) :: rest => if j = k then v else lookupD rest k d

/-- The key and value list with `k` holding `v`. -/
def insertKey {α : Type} (xs : List (Nat × α)) (k : Nat) (v : α) : List (Nat × α) :=
  match xs with
  | [] => [(k, v)]
  | (j, w) :: rest =>
    if k < j then (k, v) :: (j, w) :: rest
    else if k = j then (k, v) :: rest
    else (j, w) :: insertKey rest k v

/-- The key and value list without `k`. -/
def eraseKey {α : Type} (xs : List (Nat × α)) (k : Nat) : List (Nat × α) :=
  xs.filter (fun p => p.1 != k)

/-- The list with position `i` replaced. -/
def setAt {α : Type} (xs : List α) (i : Nat) (v : α) : List α := xs.set i v

/-- The element at `i`, `d` past the end. -/
def getAt {α : Type} (xs : List α) (i : Nat) (d : α) : α := xs.getD i d

/-- Apply `f` to position `i`. -/
def modifyAt {α : Type} (xs : List α) (i : Nat) (f : α → α) : List α := xs.modify i f

/-- Replace the first element that satisfies `p`. -/
def updateFirst {α : Type} (p : α → Bool) (f : α → α) : List α → List α
  | [] => []
  | x :: xs => if p x then f x :: xs else x :: updateFirst p f xs

/-- The floor of the square root of `x`, bit by bit from bit `n` down. -/
def isqrtFrom (x : Nat) : Nat → Nat → Nat
  | 0, r => if (r + 1) * (r + 1) ≤ x then r + 1 else r
  | n + 1, r =>
    let c := r + 2 ^ (n + 1)
    isqrtFrom x n (if c * c ≤ x then c else r)

/-- The floor of the square root. -/
def isqrt (x : Nat) : Nat := isqrtFrom x (x.log2 / 2 + 1) 0

/-- A quotient rounded to the nearest integer, ties to even. -/
def rneDiv (a b : Nat) : Nat :=
  let q := a / b
  let r := a % b
  if 2 * r > b then q + 1 else if 2 * r = b then q + q % 2 else q

/-- A CRC step over one bit, most significant bit first, of a `width`-bit CRC. -/
def crcBit (width poly crc : Nat) (b : Bool) : Nat :=
  let top := natBit crc (width - 1)
  let sh := (crc <<< 1) % 2 ^ width
  if top != b then sh ^^^ poly else sh

/-- The CRC over the bits of one byte, most significant bit first. -/
def crcByteMsb (width poly crc : Nat) (b : Byte) : Nat :=
  [7, 6, 5, 4, 3, 2, 1, 0].foldl (fun c i => crcBit width poly c (natBit b.toNat i)) crc

/-- A non-reflected CRC over bytes. -/
def crcMsb (width poly init : Nat) (bs : List Byte) : Nat :=
  bs.foldl (crcByteMsb width poly) init

/-- A reflected CRC step over one byte; `poly` is the reflected polynomial. -/
def crcByteLsb (poly crc : Nat) (b : Byte) : Nat :=
  [0, 1, 2, 3, 4, 5, 6, 7].foldl
    (fun c _ => if natBit c 0 then (c >>> 1) ^^^ poly else c >>> 1) (crc ^^^ b.toNat)

/-- A reflected CRC over bytes. -/
def crcLsb (poly init : Nat) (bs : List Byte) : Nat := bs.foldl (crcByteLsb poly) init

end Sys2Proof.Machine
end

