-- ==== Sys2Proof/Machine/Float.lean ====
section
/-! DEFINITION. Exact values and the one rounding of the module (R79 to R84): a value is a NaN, an
infinity or a sign, a mantissa and a power of two; every operation is exact and rounds once, to
nearest with ties to even. -/

namespace Sys2Proof.Machine

/-- An exact numeric value: NaN, an infinity, or (-1)^neg × man × 2^ex. A zero keeps its sign. -/
inductive FVal where
  | nan
  | inf (neg : Bool)
  | fin (neg : Bool) (man : Nat) (ex : Int)
  deriving DecidableEq, Repr, Inhabited

/-- FPFLAGS bit 0 (R94). -/
def fInexact : FpFlags := 0x01
/-- FPFLAGS bit 1. -/
def fUnderflow : FpFlags := 0x02
/-- FPFLAGS bit 2. -/
def fOverflow : FpFlags := 0x04
/-- FPFLAGS bit 3. -/
def fDivZero : FpFlags := 0x08
/-- FPFLAGS bit 4. -/
def fInvalid : FpFlags := 0x10
/-- FPFLAGS bit 5. -/
def fNanIn : FpFlags := 0x20
/-- FPFLAGS bit 6. -/
def fSaturate : FpFlags := 0x40
/-- FPFLAGS bit 7. -/
def fFlush : FpFlags := 0x80

/-- The flag `f` when `b` holds. -/
def flagIf (b : Bool) (f : FpFlags) : FpFlags := if b then f else 0

/-- +0. -/
def FVal.zero : FVal := .fin false 0 0

/-- The exact value of an integer. -/
def FVal.ofInt (x : Int) : FVal := .fin (x < 0) x.natAbs 0

/-- Whether the value is a NaN. -/
def FVal.isNan : FVal → Bool
  | .nan => true
  | _ => false

/-- Whether the value is an infinity. -/
def FVal.isInf : FVal → Bool
  | .inf _ => true
  | _ => false

/-- Whether the value is a zero of either sign. -/
def FVal.isZero : FVal → Bool
  | .fin _ 0 _ => true
  | _ => false

/-- The sign bit; a NaN has sign 0 (R84). -/
def FVal.signBit : FVal → Bool
  | .nan => false
  | .inf n => n
  | .fin n _ _ => n

/-- The value with its sign bit set to `n`. -/
def FVal.withSign (n : Bool) : FVal → FVal
  | .nan => .nan
  | .inf _ => .inf n
  | .fin _ m e => .fin n m e

/-- Negation. -/
def FVal.neg (a : FVal) : FVal := a.withSign (!a.signBit)

/-- The value multiplied by 2^k. -/
def FVal.scale (k : Int) : FVal → FVal
  | .fin n m e => .fin n m (e + k)
  | v => v

/-- The signed mantissa. -/
def signed (n : Bool) (m : Nat) : Int := if n then -(m : Int) else m

/-- The integer m × 2^s for s ≥ 0. -/
def shiftUp (x : Int) (s : Int) : Int := x * (2 ^ s.toNat : Nat)

/-- The exact sum of two finite values (sign of a zero sum by R83). -/
def finAdd (n1 : Bool) (m1 : Nat) (e1 : Int) (n2 : Bool) (m2 : Nat) (e2 : Int) : FVal :=
  let e := min e1 e2
  let x := shiftUp (signed n1 m1) (e1 - e) + shiftUp (signed n2 m2) (e2 - e)
  if x = 0 then .fin (n1 && n2 && m1 == 0 && m2 == 0) 0 0 else .fin (x < 0) x.natAbs e

/-- The flag of a NaN operand (R84). -/
def nanIn (a b : FVal) : FpFlags := flagIf (a.isNan || b.isNan) fNanIn

/-- The exact sum, with the special values of R83 and R84. -/
def addV (a b : FVal) : FVal × FpFlags :=
  match a, b with
  | .nan, _ => (.nan, fNanIn)
  | _, .nan => (.nan, fNanIn)
  | .inf x, .inf y => if x = y then (.inf x, 0) else (.nan, fInvalid)
  | .inf x, _ => (.inf x, 0)
  | _, .inf y => (.inf y, 0)
  | .fin n1 m1 e1, .fin n2 m2 e2 => (finAdd n1 m1 e1 n2 m2 e2, 0)

/-- The exact difference. -/
def subV (a b : FVal) : FVal × FpFlags := addV a b.neg

/-- The exact product (R83, R84). -/
def mulV (a b : FVal) : FVal × FpFlags :=
  let s := xor a.signBit b.signBit
  match a, b with
  | .nan, _ => (.nan, fNanIn)
  | _, .nan => (.nan, fNanIn)
  | .inf _, y => if y.isZero then (.nan, fInvalid) else (.inf s, 0)
  | x, .inf _ => if x.isZero then (.nan, fInvalid) else (.inf s, 0)
  | .fin _ m1 e1, .fin _ m2 e2 => (.fin s (m1 * m2) (e1 + e2), 0)

/-- A quotient or root is held to this many bits with the last bit set when bits were cut off, so
that one rounding of it to any format of R71 is the rounding of the exact value. -/
def jamBits : Nat := 400

/-- A finite quotient, jammed. -/
def finDiv (s : Bool) (m1 : Nat) (e1 : Int) (m2 : Nat) (e2 : Int) : FVal :=
  let k := jamBits + m2.log2
  let num := m1 <<< k
  let q := num / m2
  .fin s (if num % m2 = 0 then 2 * q else 2 * q + 1) (e1 - e2 - k - 1)

/-- The quotient (R83, R84, R88). -/
def divV (a b : FVal) : FVal × FpFlags :=
  let s := xor a.signBit b.signBit
  match a, b with
  | .nan, _ => (.nan, fNanIn)
  | _, .nan => (.nan, fNanIn)
  | .inf _, .inf _ => (.nan, fInvalid)
  | .inf _, _ => (.inf s, 0)
  | _, .inf _ => (.fin s 0 0, 0)
  | .fin _ m1 e1, .fin _ m2 e2 =>
    if m2 = 0 then (if m1 = 0 then (.nan, fInvalid) else (.inf s, fDivZero))
    else if m1 = 0 then (.fin s 0 0, 0) else (finDiv s m1 e1 m2 e2, 0)

/-- The square root (R84, R88). -/
def sqrtV (a : FVal) : FVal × FpFlags :=
  match a with
  | .nan => (.nan, fNanIn)
  | .inf n => if n then (.nan, fInvalid) else (.inf false, 0)
  | .fin n m e =>
    if m = 0 then (.fin n 0 0, 0)
    else if n then (.nan, fInvalid)
    else
      let odd : Nat := (e % 2).toNat
      let x := (m <<< odd) <<< (2 * jamBits)
      let r := isqrt x
      (.fin false (if r * r = x then 2 * r else 2 * r + 1) ((e - odd) / 2 - jamBits - 1), 0)

/-- Comparison of two values that are no NaN, zeros equal: `none` for a NaN operand. -/
def cmpV (a b : FVal) : Option Ordering :=
  match a, b with
  | .nan, _ => none
  | _, .nan => none
  | .inf x, .inf y => some (if x = y then .eq else if x then .lt else .gt)
  | .inf x, _ => some (if x then .lt else .gt)
  | _, .inf y => some (if y then .gt else .lt)
  | .fin n1 m1 e1, .fin n2 m2 e2 =>
    let e := min e1 e2
    some (compare (shiftUp (signed n1 m1) (e1 - e)) (shiftUp (signed n2 m2) (e2 - e)))

/-- Numeric max (R86): a NaN gives NaN; max(+0, −0) is +0. -/
def maxV (a b : FVal) : FVal × FpFlags :=
  match cmpV a b with
  | none => (.nan, nanIn a b)
  | some .lt => (b, 0)
  | some .gt => (a, 0)
  | some .eq => (if a.signBit then b else a, 0)

/-- Numeric min (R86): a NaN gives NaN; min(+0, −0) is −0. -/
def minV (a b : FVal) : FVal × FpFlags :=
  match cmpV a b with
  | none => (.nan, nanIn a b)
  | some .lt => (a, 0)
  | some .gt => (b, 0)
  | some .eq => (if a.signBit then a else b, 0)

/-- A magnitude m × 2^e rounded to a multiple of 2^u, to nearest with ties to even (R79): the
multiple, and whether the value changed. -/
def roundAt (m : Nat) (e u : Int) : Nat × Bool :=
  if u ≤ e then (m <<< (e - u).toNat, false)
  else
    let s := (u - e).toNat
    let q := m >>> s
    let r := m % 2 ^ s
    let half := 2 ^ (s - 1)
    let up := half < r || (r == half && q % 2 == 1)
    (if up then q + 1 else q, r != 0)

/-- The shape of a floating-point encoding (R72): fraction bits, bias, the encoding of the largest
finite magnitude, the sign bit's place, and whether the encoding above the largest finite is an
infinity. -/
structure FmtSpec where
  mbits : Nat
  bias : Nat
  maxMag : Nat
  signAt : Nat
  ebits : Nat
  hasInf : Bool
  canonNan : Nat
  deriving DecidableEq, Repr

/-- FP32 (R72). -/
def fp32Spec : FmtSpec := ⟨23, 127, 0x7F7FFFFF, 31, 8, true, 0x7FC00000⟩
/-- BF16 (R72). -/
def bf16Spec : FmtSpec := ⟨7, 127, 0x7F7F, 15, 8, true, 0x7FC0⟩
/-- FP16 (R72). -/
def fp16Spec : FmtSpec := ⟨10, 15, 0x7BFF, 15, 5, true, 0x7E00⟩
/-- FP8 E4M3 (R72, R73). -/
def e4m3Spec : FmtSpec := ⟨3, 7, 0x7E, 7, 4, false, 0x7F⟩
/-- FP8 E5M2 (R72, R73). -/
def e5m2Spec : FmtSpec := ⟨2, 15, 0x7B, 7, 5, true, 0x7E⟩
/-- E2M3, an MX element type (R72). -/
def e2m3Spec : FmtSpec := ⟨3, 1, 0x1F, 5, 2, false, 0⟩
/-- E3M2, an MX element type (R72). -/
def e3m2Spec : FmtSpec := ⟨2, 3, 0x1F, 5, 3, false, 0⟩
/-- E2M1, an MX element type (R72). -/
def e2m1Spec : FmtSpec := ⟨1, 1, 0x7, 3, 2, false, 0⟩

/-- The exponent of the unit of the smallest subnormal. -/
def FmtSpec.minUnit (f : FmtSpec) : Int := 1 - (f.bias : Int) - f.mbits

/-- The value of an encoding; whatever lies above the largest finite is an infinity or a NaN as the
format has them (R72, R73). -/
def FmtSpec.decode (f : FmtSpec) (b : Nat) : FVal :=
  let neg := natBit b f.signAt
  let mag := b % 2 ^ f.signAt
  let e := mag >>> f.mbits
  let m := mag % 2 ^ f.mbits
  if f.maxMag < mag then
    (if f.hasInf && mag == f.maxMag + 1 then .inf neg else .nan)
  else if e = 0 then .fin neg m f.minUnit
  else .fin neg (2 ^ f.mbits + m) ((e : Int) - f.bias - f.mbits)

/-- The magnitude encoding of m × 2^e rounded into the format with unbounded exponent above, and
whether rounding changed the value. -/
def FmtSpec.roundMag (f : FmtSpec) (m : Nat) (e : Int) : Nat × Bool :=
  if m = 0 then (0, false)
  else
    let u := max ((m.log2 : Int) + e - f.mbits) f.minUnit
    let (q, ix) := roundAt m e u
    -- q counts units of 2^u; each binade above the subnormals adds 2^mbits encodings
    (q + ((u - f.minUnit).toNat <<< f.mbits), ix)

/-- Whether a magnitude is below the smallest normal (R82). -/
def FmtSpec.isTiny (f : FmtSpec) (m : Nat) (e : Int) : Bool :=
  m != 0 && (m.log2 : Int) + e < 1 - (f.bias : Int)

/-- Encode a value, rounding once (R79, R80, R82, R83, R84). NAN_IN and INVALID belong to the
operation that found the NaN; this sets the flags of the rounding alone. -/
def FmtSpec.encode (f : FmtSpec) (v : FVal) : Nat × FpFlags :=
  match v with
  | .nan => (f.canonNan, 0)
  | .inf n =>
    let s := if n then 2 ^ f.signAt else 0
    if f.hasInf then (s + f.maxMag + 1, 0) else (s + f.maxMag, fSaturate ||| fInexact)
  | .fin n m e =>
    let s := if n then 2 ^ f.signAt else 0
    let (mag, ix) := f.roundMag m e
    if f.maxMag < mag then
      (if f.hasInf then (s + f.maxMag + 1, fOverflow ||| fInexact)
       else (s + f.maxMag, fSaturate ||| fInexact))
    else (s + mag, flagIf ix fInexact ||| flagIf (ix && f.isTiny m e) fUnderflow)

/-- Round a value to an integer, ties to even. -/
def roundInt (n : Bool) (m : Nat) (e : Int) : Int × Bool :=
  let (q, ix) := roundAt m e 0
  (signed n q, ix)

/-- Encode a value into an integer of `w` bits by R80 and R81: round, then saturate; NaN gives 0
with INVALID. -/
def encodeInt (w : Nat) (isSigned : Bool) (v : FVal) : Nat × FpFlags :=
  let lo : Int := if isSigned then -((2 ^ (w - 1) : Nat) : Int) else 0
  let hi : Int := if isSigned then ((2 ^ (w - 1) : Nat) : Int) - 1 else ((2 ^ w : Nat) : Int) - 1
  match v with
  | .nan => (0, fInvalid)
  | .inf n => (wrapInt w (if n then lo else hi), fSaturate ||| fInexact)
  | .fin n m e =>
    let (x, ix) := roundInt n m e
    if x < lo then (wrapInt w lo, fSaturate ||| fInexact)
    else if hi < x then (wrapInt w hi, fSaturate ||| fInexact)
    else (wrapInt w x, flagIf ix fInexact)

/-- The FP32 value of 32 bits. -/
def dec32 (b : Nat) : FVal := fp32Spec.decode b

/-- A value rounded once to FP32: fl(x). -/
def enc32 (v : FVal) : Nat × FpFlags := fp32Spec.encode v

/-- An FP32 operation: its exact result, rounded once. -/
def fl2 (op : FVal → FVal → FVal × FpFlags) (a b : Nat) : Nat × FpFlags :=
  let (v, f) := op (dec32 a) (dec32 b)
  let (r, g) := enc32 v
  (r, f ||| g)

/-- fl(a + b). -/
def fadd (a b : Nat) : Nat × FpFlags := fl2 addV a b
/-- fl(a − b). -/
def fsub (a b : Nat) : Nat × FpFlags := fl2 subV a b
/-- fl(a × b). -/
def fmul (a b : Nat) : Nat × FpFlags := fl2 mulV a b
/-- fl(a ÷ b), correctly rounded (R88). -/
def fdiv (a b : Nat) : Nat × FpFlags := fl2 divV a b
/-- The square root, correctly rounded (R88). -/
def fsqrt (a : Nat) : Nat × FpFlags :=
  let (v, f) := sqrtV (dec32 a)
  let (r, g) := enc32 v
  (r, f ||| g)

/-- A binary operation on values followed by one rounding to `enc`, with the flags of both. -/
def rounded (enc : FVal → Nat × FpFlags) (r : FVal × FpFlags) : Nat × FpFlags :=
  let (b, g) := enc r.1
  (b, r.2 ||| g)

end Sys2Proof.Machine
end

