-- ==== Sys2Proof/Machine/Formats.lean ====
section
/-! DEFINITION. The format codes of R71, the microscaling blocks of R74 to R76, PAIR (R78) and the
conversions between formats (R79 to R85). -/

namespace Sys2Proof.Machine

/-- The nineteen element formats of R71. -/
inductive Fmt where
  | fp32 | bf16 | fp16 | e4m3 | e5m2
  | mxE4m3 | mxE5m2 | mxE2m3 | mxE3m2 | mxE2m1 | mxInt8
  | int8 | uint8 | int16 | uint16 | int32 | uint32 | int64 | pair
  deriving DecidableEq, Repr, Inhabited

/-- The 5-bit format code; 0x13 to 0x1F are reserved (R71). -/
def Fmt.ofCode : Nat → Option Fmt
  | 0x00 => some .fp32 | 0x01 => some .bf16 | 0x02 => some .fp16
  | 0x03 => some .e4m3 | 0x04 => some .e5m2
  | 0x05 => some .mxE4m3 | 0x06 => some .mxE5m2 | 0x07 => some .mxE2m3
  | 0x08 => some .mxE3m2 | 0x09 => some .mxE2m1 | 0x0A => some .mxInt8
  | 0x0B => some .int8 | 0x0C => some .uint8 | 0x0D => some .int16
  | 0x0E => some .uint16 | 0x0F => some .int32 | 0x10 => some .uint32
  | 0x11 => some .int64 | 0x12 => some .pair
  | _ => none

/-- The code of a format (R71). -/
def Fmt.code : Fmt → Nat
  | .fp32 => 0 | .bf16 => 1 | .fp16 => 2 | .e4m3 => 3 | .e5m2 => 4
  | .mxE4m3 => 5 | .mxE5m2 => 6 | .mxE2m3 => 7 | .mxE3m2 => 8 | .mxE2m1 => 9 | .mxInt8 => 10
  | .int8 => 11 | .uint8 => 12 | .int16 => 13 | .uint16 => 14 | .int32 => 15 | .uint32 => 16
  | .int64 => 17 | .pair => 18

/-- Element bits (R71). -/
def Fmt.bits : Fmt → Nat
  | .fp32 => 32 | .bf16 => 16 | .fp16 => 16 | .e4m3 => 8 | .e5m2 => 8
  | .mxE4m3 => 8 | .mxE5m2 => 8 | .mxE2m3 => 6 | .mxE3m2 => 6 | .mxE2m1 => 4 | .mxInt8 => 8
  | .int8 => 8 | .uint8 => 8 | .int16 => 16 | .uint16 => 16 | .int32 => 32 | .uint32 => 32
  | .int64 => 64 | .pair => 64

/-- Whether the format is one of 0x05 to 0x0A. -/
def Fmt.isMx : Fmt → Bool
  | .mxE4m3 | .mxE5m2 | .mxE2m3 | .mxE3m2 | .mxE2m1 | .mxInt8 => true
  | _ => false

/-- Whether the format is an integer format of 0x0B to 0x11. -/
def Fmt.isInt : Fmt → Bool
  | .int8 | .uint8 | .int16 | .uint16 | .int32 | .uint32 | .int64 => true
  | _ => false

/-- Whether the format is two's complement. -/
def Fmt.isSigned : Fmt → Bool
  | .int8 | .int16 | .int32 | .int64 => true
  | _ => false

/-- Whether the format is a scalar floating-point format of 0x00 to 0x04. -/
def Fmt.isFloat : Fmt → Bool
  | .fp32 | .bf16 | .fp16 | .e4m3 | .e5m2 => true
  | _ => false

/-- The floating-point shape of a format or of an MX format's elements (R72). -/
def Fmt.spec : Fmt → FmtSpec
  | .bf16 => bf16Spec
  | .fp16 => fp16Spec
  | .e4m3 | .mxE4m3 => e4m3Spec
  | .e5m2 | .mxE5m2 => e5m2Spec
  | .mxE2m3 => e2m3Spec
  | .mxE3m2 => e3m2Spec
  | .mxE2m1 => e2m1Spec
  | _ => fp32Spec

/-- Bytes that `n` consecutive elements occupy (R74, R77, R78). -/
def Fmt.bytes (f : Fmt) (n : Nat) : Nat := ceilDiv (n * f.bits) 8

/-- The exact value of a PAIR: hi + lo, with hi's sign on a zero (R78). -/
def pairVal (b : Nat) : FVal :=
  let hi := dec32 (b % 2 ^ 32)
  match hi with
  | .fin n 0 e => match (addV (.fin n 0 e) (dec32 (b >>> 32))).1 with
    | .fin _ 0 _ => .fin n 0 e
    | v => v
  | h => (addV h (dec32 (b >>> 32))).1

/-- The bits of a PAIR. -/
def mkPair (hi lo : Nat) : Nat := hi + lo <<< 32

/-- A value as a PAIR: hi is the value rounded to FP32 and lo what remains (R78). Where the rest has more than 24 bits
(an INT64), lo is the rest rounded to FP32. (DESIGN CHOICE, assumption 125). -/
def encPair (v : FVal) : Nat × FpFlags :=
  let (hi, f) := enc32 v
  match dec32 hi with
  | .fin n m e =>
    if m = 0 then (mkPair hi 0, f)
    else
      let (lo, g) := enc32 (subV v (.fin n m e)).1
      (mkPair hi (if lo = 0x80000000 then 0 else lo), g)
  | _ => (mkPair hi 0, f)

/-- The value of one element; `scale` is the E8M0 byte of its block, read for MX formats only
(R75, R77, R78). -/
def Fmt.decode (f : Fmt) (scale b : Nat) : FVal :=
  match f with
  | .pair => pairVal b
  | .int8 | .int16 | .int32 | .int64 => .ofInt (signExt f.bits b)
  | .uint8 | .uint16 | .uint32 => .ofInt (b % 2 ^ f.bits : Nat)
  | .mxInt8 => if scale = 0xFF then .nan else (FVal.ofInt (signExt 8 b)).scale ((scale : Int) - 133)
  | .mxE4m3 | .mxE5m2 | .mxE2m3 | .mxE3m2 | .mxE2m1 =>
    if scale = 0xFF then .nan else (f.spec.decode (b % 2 ^ f.bits)).scale ((scale : Int) - 127)
  | _ => f.spec.decode (b % 2 ^ f.bits)

/-- Encode one value into a format that has no block scale (R79 to R84). -/
def Fmt.encode (f : Fmt) (v : FVal) : Nat × FpFlags :=
  match f with
  | .pair => encPair v
  | .int8 | .int16 | .int32 | .int64 => encodeInt f.bits true v
  | .uint8 | .uint16 | .uint32 => encodeInt f.bits false v
  | _ => f.spec.encode v

/-- EMAX of R76. -/
def Fmt.emax : Fmt → Int
  | .mxE4m3 => 8 | .mxE5m2 => 15 | .mxE2m3 => 2 | .mxE3m2 => 4 | .mxE2m1 => 2 | _ => 0

/-- One MX element from its scaled value (R76): round to nearest even, saturate. (DEDUCED, assumption 14). -/
def mxElem (f : Fmt) (w : FVal) : Nat × FpFlags :=
  match w with
  | .fin n m e =>
    match f with
    | .mxInt8 =>
      let (x, ix) := roundInt n m (e + 6)
      if x < -127 then (wrapInt 8 (-127), fSaturate ||| fInexact)
      else if 127 < x then (127, fSaturate ||| fInexact)
      else (wrapInt 8 x, flagIf ix fInexact)
    | _ =>
      let s := if n then 2 ^ f.spec.signAt else 0
      let (mag, ix) := f.spec.roundMag m e
      if f.spec.maxMag < mag then (s + f.spec.maxMag, fSaturate ||| fInexact)
      else (s + mag, flagIf ix fInexact ||| flagIf (ix && f.spec.isTiny m e) fUnderflow)
  | _ => (0, 0)

/-- The exponent floor(log2 |v|) of a finite non-zero value. -/
def FVal.log2? : FVal → Option Int
  | .fin _ m e => if m = 0 then none else some (m.log2 + e)
  | _ => none

/-- The largest of the exponents listed. -/
def maxExp (vs : List FVal) : Option Int :=
  vs.foldl (fun acc v =>
    match v.log2?, acc with
    | none, a => a
    | some x, none => some x
    | some x, some a => some (max a x)) none

/-- Encode a block into an MX format (R76): the scale byte, the element codes, the flags.
(DEDUCED, assumption 14). -/
def encodeBlock (f : Fmt) (vs : List FVal) : Nat × List Nat × FpFlags :=
  if vs.any FVal.isNan then (0xFF, vs.map (fun _ => 0), fNanIn)
  else if vs.any FVal.isInf then (0xFF, vs.map (fun _ => 0), fInvalid)
  else
    let e : Int := match maxExp vs with
      | none => 0
      | some x => min 127 (max (-127) (x - f.emax))
    let els := vs.map (fun v => mxElem f (v.scale (-e)))
    ((e + 127).toNat, els.map Prod.fst, els.foldl (fun a p => a ||| p.2) 0)

/-- The flags an operand's decode sets when it enters FP32 or PAIR (R75). -/
def enterFlags (f : Fmt) (v : FVal) : FpFlags :=
  if f.isMx then (enc32 v).2 &&& (fOverflow ||| fInexact) else 0

/-- An operand as it enters FP32 or PAIR arithmetic: an MX value beyond the FP32 range is an
infinity (R75); every other value is itself. -/
def enterVal (f : Fmt) (v : FVal) : FVal :=
  if f.isMx then dec32 (enc32 v).1 else v

/-- One conversion between formats without a block scale on the result (R79 to R84). -/
def convertTo (d : Fmt) (v : FVal) : Nat × FpFlags :=
  let (b, f) := d.encode v
  (b, f ||| flagIf v.isNan fNanIn)

/-- The totalOrder key of an n-bit floating-point pattern (R87). -/
def totalKey (n b : Nat) : Nat :=
  if natBit b (n - 1) then b ^^^ (2 ^ n - 1) else b ||| 2 ^ (n - 1)

/-- The sort key of an element, as an integer that orders as R87 says. -/
def Fmt.sortKey (f : Fmt) (b : Nat) : Int :=
  if f.isInt then (if f.isSigned then signExt f.bits b else (b : Int)) else (totalKey f.bits b : Int)

/-- Whether R87 admits a sort key of this format. -/
def Fmt.keyOk (f : Fmt) : Bool := f.isFloat || (f.isInt && f != .int64)

end Sys2Proof.Machine
end

