-- ==== Sys2Proof/Machine/Reduce.lean ====
section
/-! DEFINITION. Reduction arithmetic: the operators and formats of R100, the node operations (R102
to R109), the canonical tree (R97) and the final rounding (R106). -/

namespace Sys2Proof.Machine

/-- The reduction operators; codes 6 and 7 are reserved (R100). -/
inductive RedOp where
  | sum | max | min | and | or | xor
  deriving DecidableEq, Repr, Inhabited

/-- The 3-bit operator code (R100). -/
def RedOp.ofCode : Nat → Option RedOp
  | 0 => some .sum | 1 => some .max | 2 => some .min
  | 3 => some .and | 4 => some .or | 5 => some .xor
  | _ => none

/-- The code of an operator. -/
def RedOp.code : RedOp → Nat
  | .sum => 0 | .max => 1 | .min => 2 | .and => 3 | .or => 4 | .xor => 5

/-- The combinations of the table "Reduction operators and formats" (R100). -/
def comboOk (op : RedOp) (i acc o : Fmt) : Bool :=
  match op with
  | .sum =>
    (acc == .fp32 && (i.isFloat || i.isMx) && (o.isFloat || o.isMx))
    || (acc == .pair && (i.isFloat || i.isMx || (i.isInt && i != .int64))
        && (o.isFloat || o.isMx || o == .pair))
    || (acc == .int64 && i.isInt && i != .int64 && (o.isFloat || o.isInt))
  | .max | .min =>
    i != .int64 && i != .pair && acc == (if i.isMx then .fp32 else i)
    && (o == i || ((i.isFloat || i.isMx) && o.isFloat))
  | .and | .or | .xor =>
    (i.isFloat || (i.isInt && i != .int64)) && acc == i && o == i

/-- enter() of R98: a contribution in the accumulation format. -/
def enterAcc (op : RedOp) (i acc : Fmt) (scale b : Nat) : Nat × FpFlags :=
  match op with
  | .sum =>
    match acc with
    | .int64 => (wrapInt 64 (if i.isSigned then signExt i.bits b else (b : Int)), 0)
    | .pair =>
      let v := enterVal i (i.decode scale b)
      ((encPair v).1, enterFlags i (i.decode scale b))
    | _ =>
      if i = .fp32 then (b, 0) else
      ((enc32 (i.decode scale b)).1, enterFlags i (i.decode scale b))
  | _ => if i.isMx then ((enc32 (i.decode scale b)).1, enterFlags i (i.decode scale b)) else (b, 0)

/-- two_sum of R103 on FP32 patterns: the sum, the error and the flags of its steps. -/
def twoSum (u w : Nat) : Nat × Nat × FpFlags :=
  let (s, f1) := fadd u w
  let (v, f2) := fsub s u
  let (a, f3) := fsub s v
  let (b, f4) := fsub u a
  let (c, f5) := fsub w v
  let (e, f6) := fadd b c
  (s, e, f1 ||| f2 ||| f3 ||| f4 ||| f5 ||| f6)

/-- The negative zero of FP32. -/
def negZero32 : Nat := 0x80000000

/-- The canonical NaN of FP32. -/
def nan32 : Nat := 0x7FC00000

/-- The infinity of FP32 with a sign. -/
def inf32 (neg : Bool) : Nat := if neg then 0xFF800000 else 0x7F800000

/-- The exact sum of four FP32 values. -/
def sum4 (a b c d : Nat) : FVal :=
  (addV (addV (dec32 a) (dec32 b)).1 (addV (dec32 c) (dec32 d)).1).1

/-- The result cases of R104 applied to the sequence's (hi, lo). (DEDUCED, assumption 25). -/
def pairResult (ah bh hi lo : Nat) : Nat :=
  match dec32 hi with
  | .nan => mkPair nan32 0
  | .inf n => mkPair (inf32 n) 0
  | .fin _ 0 _ => if ah = negZero32 ∧ bh = negZero32 then mkPair negZero32 0 else mkPair 0 0
  | _ => if (dec32 lo).isZero then mkPair hi 0 else mkPair hi lo

/-- pair_add of R103 to R105. (DEDUCED, assumption 25). -/
def pairAdd (a b : Nat) : Nat × FpFlags :=
  let ah := a % 2 ^ 32
  let al := a >>> 32
  let bh := b % 2 ^ 32
  let bl := b >>> 32
  match dec32 ah, dec32 bh with
  | .nan, _ => (mkPair nan32 0, fNanIn)
  | _, .nan => (mkPair nan32 0, fNanIn)
  | .inf x, .inf y => if x = y then (mkPair (inf32 x) 0, 0) else (mkPair nan32 0, fInvalid)
  | .inf x, _ => (mkPair (inf32 x) 0, 0)
  | _, .inf y => (mkPair (inf32 y) 0, 0)
  | _, _ =>
    let (s1, e1, f1) := twoSum ah bh
    let (t, f, f2) := twoSum al bl
    let (e2, g1) := fadd e1 t
    let (s2, e3, f3) := twoSum s1 e2
    let (e4, g2) := fadd e3 f
    let (hi, lo, f4) := twoSum s2 e4
    if (f1 ||| f2 ||| g1 ||| f3 ||| g2 ||| f4) &&& fOverflow ≠ 0 then
      (mkPair (inf32 (sum4 ah al bh bl).signBit) 0, fOverflow ||| fInexact)
    else (pairResult ah bh hi lo, (g1 ||| g2) &&& fInexact)

/-- One node: the left child's value, the operator, the right child's value (R102 to R109). -/
def nodeOp (op : RedOp) (acc : Fmt) (a b : Nat) : Nat × FpFlags :=
  match op with
  | .sum =>
    match acc with
    | .pair => pairAdd a b
    | .int64 => ((a + b) % 2 ^ 64, 0)
    | _ => fadd a b
  | .max => rounded acc.encode (maxV (acc.decode 0 a) (acc.decode 0 b))
  | .min => rounded acc.encode (minV (acc.decode 0 a) (acc.decode 0 b))
  | .and => (a &&& b, 0)
  | .or => (a ||| b, 0)
  | .xor => (a ^^^ b, 0)

/-- The largest power of two strictly below n, for n ≥ 2 (R97). -/
def splitOf (n : Nat) : Nat := 2 ^ (n - 1).log2

/-- T(0, N) of R97 over the entered contributions in rank order; the fuel bounds the tree's depth,
16 for the 32 768 ranks of a domain. -/
def treeFold (op : RedOp) (acc : Fmt) : Nat → List Nat → Nat × FpFlags
  | _, [] => (0, 0)
  | _, [x] => (x, 0)
  | 0, x :: _ => (x, 0)
  | fuel + 1, xs =>
    let d := splitOf xs.length
    let (a, f) := treeFold op acc fuel (xs.take d)
    let (b, g) := treeFold op acc fuel (xs.drop d)
    let (r, h) := nodeOp op acc a b
    (r, f ||| g ||| h)

/-- T(0, N) with fuel for every legal N. -/
def canonicalTree (op : RedOp) (acc : Fmt) (xs : List Nat) : Nat × FpFlags := treeFold op acc 16 xs

/-- Whether (lo, hi) is a node of the recursion of R97 for N members. -/
def isNodeFrom (lo hi : Nat) : Nat → Nat → Nat → Bool
  | 0, a, b => lo == a && hi == b
  | fuel + 1, a, b =>
    if lo = a ∧ hi = b then true
    else if b ≤ a + 1 then false
    else
      let mid := a + splitOf (b - a)
      if hi ≤ mid then isNodeFrom lo hi fuel a mid
      else if mid ≤ lo then isNodeFrom lo hi fuel mid b
      else false

/-- Whether (lo, hi) is a node of the canonical tree of N members (R97, R111). -/
def isNode (n lo hi : Nat) : Bool := isNodeFrom lo hi 16 0 n

/-- The exact value that the root holds (R106): hi + lo of a PAIR is never rounded first. -/
def accVal (acc : Fmt) (b : Nat) : FVal := acc.decode 0 b

/-- The final rounding of one root value to an output format without block scale (R106 to R109).
(DEDUCED, assumption 20). -/
def rootRound (op : RedOp) (acc o : Fmt) (b : Nat) : Nat × FpFlags :=
  match op with
  | .sum =>
    if o = .pair then (b, 0)
    else if acc = .int64 ∧ o = .int64 then (b, 0)
    else convertTo o (accVal acc b)
  | .max | .min => if o = acc then (b, 0) else convertTo o (accVal acc b)
  | _ => (b, 0)

end Sys2Proof.Machine
end

