-- ==== Sys2Proof/Machine/StateCompute.lean ====
section
/-! DEFINITION. The compute half of the state: command queues and their scalar state (R244, R291 to
R299), resolved tensors (R249 to R253), memory and translation (R407 to R418), tier caches, DMA
channels (R419 to R431), the Laurel work lists (R265) and the parsed sections of a loaded Topiary
(R275 to R290, R409). Everything is plain data. -/

namespace Sys2Proof.Machine

/-- Queue types in the order of the QBIND code (R284). -/
inductive QType where
  | coll | vec | mtx | dma
  deriving DecidableEq, Repr, Inhabited

/-- Queue states in the order of the codes of R293. -/
inductive QState where
  | idle | run | wait | preempted | halted | frozen
  deriving DecidableEq, Repr, Inhabited

/-- Result codes of R549, which are also halt causes and abort causes. -/
inductive Res where
  | ok | busy | state | range | align | auth | unitAbsent | frozen | aborted | verify | quota
  | deadline | format
  deriving DecidableEq, Repr, Inhabited

/-- What holds a queue in WAIT (R293). -/
inductive WaitKind where
  /-- No wait. -/
  | none
  /-- FLAG_WAIT on a flag (R269). -/
  | flag (f : Nat)
  /-- A CALL_COLL whose ordinal is not eligible, or whose epoch lies beyond the window (R151, R267). -/
  | eligible (ordinal epoch : Nat) (async : Bool) (flag : Nat)
  /-- A synchronous CALL_COLL until the collective completes here (R267). -/
  | collective (ordinal epoch : Nat)
  /-- FENCE (R270). -/
  | fence
  /-- FLAG_SET until its writes are visible (R268, R293). -/
  | flagSet (f : Nat)
  /-- A tier-fault suspension (R416). -/
  | tier
  deriving DecidableEq, Repr, Inhabited

/-- One comparator K0 to K3 (R248). -/
structure Comparator where
  armed : Bool := false
  scalar : Bool := false
  src : Nat := 0
  cond : Nat := 0
  pred : Nat := 0
  bound : Word32 := 0
  deriving DecidableEq, Repr, Inhabited

/-- A handle register: a 12-bit descriptor handle and a signed 32-bit row offset (R244). -/
structure Handle where
  handle : BitVec 12 := 0
  offset : Word32 := 0
  deriving DecidableEq, Repr, Inhabited

/-- A tensor linked from a descriptor: its effective base, strides, space and size (R249, R252). -/
structure Linked where
  base : Int
  strides : List Int
  space : Nat
  sizes : List Nat
  deriving DecidableEq, Repr, Inhabited

/-- A descriptor resolved through a handle register (R249 to R253). -/
structure Tensor where
  handle : Nat
  rank : Nat
  fmt : Fmt
  space : Nat
  base : Int
  sizes : List Nat
  strides : List Int
  sparse : Bool
  layout : Nat
  nmN : Nat
  nmM : Nat
  nmBitmap : Bool
  mask : Option Linked
  dir : Option Linked
  scale : Option Linked
  digest : Option Nat
  deriving DecidableEq, Repr, Inhabited

/-- One word of a chain body (R259, R260). -/
structure ChainOp where
  op : Nat
  dst : Nat
  a : Nat
  b : Nat
  c : Nat
  cc : Nat
  a16 : Bool
  k : Nat
  deriving DecidableEq, Repr, Inhabited

/-- A checked chain: its streams as handle register numbers and its stages (R258). -/
structure Chain where
  ins : List Nat
  outs : List Nat
  stages : List (List ChainOp)
  deriving DecidableEq, Repr, Inhabited

/-- One pending write of a batch: where the bytes go, the SPACE that its descriptor names, the digest slot
that it feeds, and the index of the element that it belongs to (R273). -/
structure WriteOp where
  va : Int
  bytes : List Byte
  space : Nat
  slot : Option Nat
  key : Nat
  deriving DecidableEq, Repr, Inhabited

/-- The vector instruction or chain that a gang is running, with the operands that its decode
checked (R236, R253). -/
structure VecWork where
  word : Word
  isChain : Bool
  d : List Tensor
  a : List Tensor
  chain : Chain
  scalarB : Option Word32
  total : Nat
  batch : Nat
  perRow : Bool
  /-- Byte offset of the next tile of a sparse destination (R257). -/
  tileOff : Nat
  /-- Which operands a destination overlaps without being them (R256). -/
  clash : List Bool
  /-- The draw that names the word choices of an overlapping instruction (R256). -/
  seed : Nat
  /-- Results of a single instruction's batches, written when it completes (R228). -/
  held : List WriteOp
  /-- Elements of the tile of a sparse destination that is not complete yet (R257). -/
  heldEls : List Nat
  /-- Bytes as they were before the batches of an overlapping chain wrote them (R256). -/
  old : List (Int × Byte)
  deriving DecidableEq, Repr, Inhabited

/-- A halt that waits behind a freeze, or the record of a halt (R295, R296). -/
structure HaltInfo where
  cause : Res
  detail : Nat
  inSeg : Bool
  seg : Nat
  pc : Nat
  word : Word
  deriving DecidableEq, Repr, Inhabited

/-- One command queue and its executor's scalar state (R244, R291 to R299). -/
structure Queue where
  bound : Bool := false
  job : Nat := 0
  qtype : QType := .coll
  die : Nat := 0
  gangFirst : Nat := 0
  gangSize : Nat := 1
  st : QState := .idle
  cause : Option Res := none
  pendingHalt : Option HaltInfo := none
  /-- When the queue last entered HALTED, from which state, and by what: a freeze in the same transfer finds it here
  (R295). -/
  lastHalt : Option (Nat × QState × HaltInfo) := none
  frozenFrom : QState := .idle
  inSeg : Bool := false
  seg : Nat := 0
  pc : Nat := 0
  /-- Index of the current ring word, modulo 2^14 (R299). -/
  head : Nat := 0
  /-- Words from HEAD to TAIL, oldest first (R292). -/
  ring : List Word := []
  nextSeq : BitVec 16 := 0
  s : List Word32 := List.replicate 16 0
  c : List Word32 := List.replicate 8 0
  p : List Bool := List.replicate 8 false
  h : List Handle := List.replicate 16 {}
  k : List Comparator := List.replicate 4 {}
  /-- CRC-64 accumulators of R273. -/
  digests : List Nat := List.replicate 16 0
  callEpoch : Nat := 0
  /-- The epoch of the last REQUEUE (R297). -/
  requeued : Option Nat := none
  /-- Ordinals this queue has called, with the epoch of each call (R267). -/
  calls : List (Nat × Nat) := []
  wait : WaitKind := .none
  /-- Remaining FLAG_WAIT time in ns (R269). -/
  deadline : Nat := 0
  /-- The checked chain between CHAIN and CRUN. -/
  chain : Option Chain := none
  work : Option VecWork := none
  /-- FLAG_SETs issued whose effect is still to come (R268). -/
  flagSets : List Nat := []
  /-- Outstanding asynchronous calls: ordinal, epoch, flag (R267). -/
  asyncs : List (Nat × Nat × Nat) := []
  /-- A matrix instruction of an MTX queue is on the Laurel list. -/
  mtxBusy : Bool := false
  /-- Words prefetched ahead by a DMA queue (R420). -/
  runAhead : Nat := 0
  /-- Digest feeds that wait for a dispatched instruction before them in program order: the instruction's
  number, and its slot and bytes once it has written (R273). -/
  feeds : List (Nat × Option (List (Nat × List Byte))) := []
  /-- The number of the next dispatched instruction that feeds a digest (R273). -/
  feedNext : Nat := 0
  /-- A pre-emption stop has been asked of the executor (R425). -/
  stopAsked : Bool := false
  /-- A context of this queue lies in the CONTEXT page (R427). -/
  ctxSaved : Bool := false
  deriving DecidableEq, Repr, Inhabited

/-- One MEMMAP record (R409); `space` is the record code 0 to 5. -/
structure MapRec where
  va : Nat
  count : Nat
  space : Nat
  die : Nat
  read : Bool
  write : Bool
  init : Bool
  privet : Bool
  phys : Nat
  initOff : Nat
  deriving DecidableEq, Repr, Inhabited

/-- Memory: the listed bytes in strictly rising key order, none of them zero, and the poisoned
64-byte words by key (R411, R415). -/
structure Memory where
  cells : List (Nat × BitVec 8) := []
  poison : List Nat := []
  deriving DecidableEq, Repr, Inhabited

/-- What a tier-cache frame is doing (R416, R417). -/
inductive FrameSt where
  | free
  | resident (page : Nat)
  /-- The old page goes back to DDR5; then the new page comes in for the queue. -/
  | writeBack (old new : Nat) (queue : Nat)
  /-- The page comes in for the queue. -/
  | filling (page : Nat) (queue : Nat)
  deriving DecidableEq, Repr, Inhabited

/-- One TCACHE frame of a job on a die (R409, R417). -/
structure Frame where
  hbmPage : Nat
  st : FrameSt := .free
  dirty : Bool := false
  filledAt : Nat := 0
  /-- Queues whose work holds the frame (R417). -/
  heldBy : List Nat := []
  deriving DecidableEq, Repr, Inhabited

/-- A chain group suspended by a tier fault (R416). -/
structure TierFault where
  queue : Nat
  job : Nat
  die : Nat
  pages : List Nat
  reserved : Bool := false
  deriving DecidableEq, Repr, Inhabited

/-- One DMA_COPY in flight (R266, R419). -/
structure Copy where
  queue : Nat
  job : Nat
  word : Word
  inSeg : Bool
  seg : Nat
  pc : Nat
  src : Tensor
  dst : Tensor
  block : Nat
  flag : Option Nat
  /-- The number under which the copy feeds its queue's digests (R273). -/
  feedId : Option Nat
  /-- What its blocks have written for the digest accumulators so far: slot and bytes (R273). -/
  fed : List (Nat × List Byte)
  deriving DecidableEq, Repr, Inhabited

/-- One DMA channel (R419, R431). -/
structure Channel where
  copies : List Copy := []
  waiting : Bool := false
  deriving DecidableEq, Repr, Inhabited

/-- One matrix instruction on a die's Laurel list (R263 to R265). (DESIGN CHOICE, assumption 119). -/
structure LaurelWork where
  queue : Nat
  job : Nat
  fromMtx : Bool
  word : Word
  d : Tensor
  a : Tensor
  b : Option Tensor
  c : Option Tensor
  a16 : Bool
  sparse : Bool
  flag : Option Nat
  /-- Output tile of the current pass, and the number of output tiles (R220). -/
  pass : Nat
  total : Nat
  /-- K index at which the current output tile stands (R220). -/
  kLo : Nat
  /-- FP32 accumulators of the current output tile, held between passes (R116). (DESIGN CHOICE, assumption 119). -/
  acc : List Nat
  /-- Byte offset of the next tile of an NM destination (R176). -/
  tileOff : Nat
  /-- Writes that feed a digest, until the instruction completes (R273). -/
  fed : List WriteOp
  /-- The number under which a dispatched instruction feeds its queue's digests (R273). -/
  feedId : Option Nat
  deriving DecidableEq, Repr, Inhabited

/-- Where a faulty execution goes wrong: which of its elements, and which column of a Laurel pass, and the pattern class
of the failing operation's operands (R452, R453). (DESIGN CHOICE, assumption 5). -/
structure FaultAt where
  elem : Nat := 0
  col : Nat := 0
  pattern : Nat := 0
  deriving DecidableEq, Repr, Inhabited

/-- What the hardware meets while a unit works: errors are inputs of the command, since the spec
says what follows from one and not when one happens (R415, R434). (DESIGN CHOICE, assumption 5). -/
inductive Upset where
  /-- Nothing. -/
  | clean
  /-- Residue checks of executions in a row fail, at these places (R434). -/
  | residue (fails : List FaultAt)
  /-- Single-bit errors that a read corrects, with their count (R415). -/
  | corrected (words : Nat)
  /-- A read meets an uncorrectable error at a byte of the work (R415). -/
  | uncorrectable (key : Nat)
  deriving DecidableEq, Repr, Inhabited

/-- One FPFLAGS register (R94). -/
structure FpReg where
  flags : FpFlags := 0
  lastJob : Nat := 0
  deriving DecidableEq, Repr, Inhabited

/-- A planned input of a collective (INPUT record, R288). -/
structure InRec where
  rank : Nat
  lo : Nat
  hi : Nat
  p256 : Nat
  f : Nat
  layout : Nat
  sparseOk : Bool
  deriving DecidableEq, Repr, Inhabited

/-- A value this module sends (OUTPUT record, R288). -/
structure OutRec where
  lo : Nat
  hi : Nat
  route : Nat
  p256 : Nat
  f : Nat
  layout : Nat
  sparseOk : Bool
  deriving DecidableEq, Repr, Inhabited

/-- The PARAMS record of R288. -/
inductive Params where
  | none
  | sort (valueBytes : Nat)
  | filter (segment mode : Nat)
  | topk (mode : Nat)
  | moe (e kr ce rowBytes : Nat) (owners : List Nat)
  deriving DecidableEq, Repr, Inhabited

/-- One collective-table entry (R126, R287, R288). -/
structure CollEntry where
  ordinal : Nat := 0
  kind : Nat := 0
  op : RedOp := .sum
  fIn : Fmt := .fp32
  fAcc : Fmt := .fp32
  fOut : Fmt := .fp32
  vari : Bool := false
  express : Bool := false
  dir : Bool := false
  n : Nat := 1
  root : Nat := 0
  port : Nat := 0x140
  chunks : Nat := 1
  timeoutUs : Nat := 2000
  topK : Nat := 1
  members : List (Nat × Nat) := []
  inputs : List InRec := []
  outputs : List OutRec := []
  combines : List (Nat × Nat × Nat) := []
  engines : List (Nat × Nat × Nat) := []
  buffers : List (Nat × Nat) := []
  params : Params := .none
  tileOrder : List Nat := []
  m : Option Nat := none
  after : List Nat := []
  deriving DecidableEq, Repr, Inhabited

/-- One ROUTE entry (R289): the 80-bit route image, the class and the SOLO bit. -/
structure RouteRec where
  image : Nat
  cls : Nat
  solo : Bool
  deriving DecidableEq, Repr, Inhabited

/-- One state-table entry (R184, R290). -/
structure StateEntry where
  shard : Nat
  rep : Bool
  die : Nat
  skipNonfinite : Bool
  bcastV : Bool
  program : Nat
  twinShard : Nat
  mask : Option Nat
  hyper : Nat
  bcastFmt : Nat
  blockB : Nat
  iters : Nat
  gradOrdinal : Nat
  bcastOrdinal : Nat
  chunkFirst : Nat
  chunkCount : Nat
  paramFirst : Nat
  paramCount : Nat
  packedCount : Nat
  rows : Nat
  cols : Nat
  /-- Per plane: first page in bank 0, first page in bank 1, page count. -/
  planes : List (Nat × Nat × Nat)
  deriving DecidableEq, Repr, Inhabited

/-- One QBIND entry (R284). -/
structure QBind where
  queue : Nat
  qtype : QType
  die : Nat
  first : Nat
  size : Nat
  deriving DecidableEq, Repr, Inhabited

/-- The compute half of the state. -/
structure Comp where
  queues : List Queue := List.replicate 64 {}
  /-- 256 flags per job as a bit mask (R268, R271). -/
  jobFlags : List (Nat × Nat) := []
  mem : Memory := {}
  /-- TCACHE frames by 16 × die + job. -/
  frames : List (Nat × List Frame) := []
  tierFaults : List TierFault := []
  /-- Laurel work by die, in arrival order. -/
  laurel : List (List LaurelWork) := [[], [], [], []]
  /-- DMA channels by 32 × die + channel. -/
  chans : List (Nat × Channel) := []
  /-- VEC.FPFLAGS by 128 × die + group. -/
  fpVec : List (Nat × FpReg) := []
  /-- RDE.FPFLAGS by 16 × die + engine. -/
  fpRde : List (Nat × FpReg) := []
  /-- MTX.FPFLAGS by die. -/
  fpMtx : List (Nat × FpReg) := []
  /-- MTX.STATUS.PASSES by die, modulo 2^32 (R233). -/
  mtxPasses : List (Nat × Nat) := []
  /-- TLB contents by unit: (job, page) pairs (R412). -/
  tlb : List (Nat × List (Nat × Nat)) := []
  /-- MMU.FAULT by 16 × die + job (R428). -/
  mmuFault : List (Nat × Nat) := []
  /-- MMU.CNT by 16 × die + k (R430). -/
  mmuCnt : List (Nat × Nat) := []
  /-- RDE.META_ANOMALY by 16 × die + job (R178). -/
  metaCnt : List (Nat × Nat) := []
  /-- RDE.META_LAST by 16 × die + job (R179). -/
  metaLast : List (Nat × Nat) := []
  deriving DecidableEq, Repr, Inhabited

end Sys2Proof.Machine
end

