-- ==== Sys2Proof/Machine/StateFabric.lean ====
section
/-! DEFINITION. The fabric half of the state: link units (R338 to R342), lanes and ports (R337,
R349 to R363), output queues (R368), the buffer pool instances (R370 to R391), scheduler nodes and
meters (R394 to R405), mirroring (R386 to R388), fabric time and gate lists (R301 to R332), and the
twin (R474 to R483). -/

namespace Sys2Proof.Machine

/-- A unit of Calnal Link with its fields (R338, R339) and trailer (R342). A cell uses TYPE, JOB,
EPOCH, LINK_SEQ, ROUTE (48 bits), ORDINAL (16 bits), RANK, OP/FMT/COUNT and HCRC. -/
structure LinkUnit where
  cell : Bool := false
  typ : Nat := 0
  cls : Nat := 0
  job : Nat := 0
  epoch : Nat := 0
  flags : Nat := 0
  linkSeq : Nat := 0
  route : Nat := 0
  ordinal : Nat := 0
  chunk : Nat := 0
  rank : Nat := 0
  flowSeq : Nat := 0
  length : Nat := 0
  inject : Nat := 0
  ofc : Nat := 0
  hcrc : Nat := 0
  payload : List Byte := []
  crc : Nat := 0
  res : Nat := 0
  rsv : Nat := 0
  deriving DecidableEq, Repr, Inhabited

/-- The bring-up position of a lane (R359, R360): `light`, `fec` and `ident` are steps of TRAINING. -/
inductive LaneSt where
  | down | light | fec | ident | up | disabled
  deriving DecidableEq, Repr, Inhabited

/-- A unit in a lane's retry buffer (R349). -/
structure RetryRec where
  unit : LinkUnit
  sentAt : Nat
  deriving DecidableEq, Repr, Inhabited

/-- The unit that a lane is sending: whether it is a retransmission, and the packet-buffer
allocation it holds. -/
structure TxRec where
  unit : LinkUnit
  again : Bool := false
  alloc : Option Nat := none
  /-- A cell that holds an express slot of the port (R369). -/
  slot : Bool := false
  deriving DecidableEq, Repr, Inhabited

/-- What a lane loses when it goes down by itself: light or signal, FEC alignment, or the laser input of its engine
(R46, R359, R590). -/
inductive LaneLoss where
  | light | fec | laser
  deriving DecidableEq, Repr, Inhabited

/-- A fabric or twin lane (R337, R349 to R363). -/
structure Lane where
  st : LaneSt := .down
  lightRx : Bool := false
  laserIn : Bool := false
  peerOk : Bool := false
  polFixed : Bool := false
  orderFixed : Bool := false
  txSeq : Nat := 0
  rxExpect : Nat := 0
  rttNs : Nat := 0
  /-- Units not yet acknowledged, oldest first. -/
  retry : List RetryRec := []
  /-- Retransmission rounds sent from the same EXPECT (R351). -/
  rounds : Nat := 0
  /-- The EXPECT from which those rounds were sent (R351). -/
  roundFrom : Nat := 0
  /-- Buffered units still to be resent in the round under way. -/
  resend : List LinkUnit := []
  tx : Option TxRec := none
  /-- Link-local units waiting for the lane. -/
  locals : List LinkUnit := []
  /-- EXPECT and fabric time of the last SEQ_GAP or PAYLOAD LINK_NAK (R350). -/
  nakAt : Option (Nat × Nat) := none
  missing : Bool := false
  /-- A sequenced unit has been accepted since the lane came up, so ACK is VALID (R344). -/
  rxAny : Bool := false
  /-- CAUSE of the LINK_NAK that is being repeated. -/
  nakCause : Nat := 0
  /-- CAUSE of the last LINK_NAK received (R344). -/
  nakHeard : Nat := 0
  ackUnits : Nat := 0
  ackBytes : Nat := 0
  /-- When the oldest unacknowledged acceptance happened. -/
  ackSince : Option Nat := none
  idleWord : Nat := 0
  nakLimit : Nat := 8
  enable : Bool := false
  /-- The peer identity word that the image expects (R359). -/
  expectPeer : Option Nat := none
  cnt : List Nat := List.replicate 16 0
  deriving DecidableEq, Repr, Inhabited

/-- One entry of an output queue (R367, R368). -/
structure OutEntry where
  unit : LinkUnit
  /-- Fabric time at which the unit was accepted or originated. -/
  ready : Nat := 0
  alloc : Option Nat := none
  /-- Ingress lane; none for a unit that this module originates (R355). -/
  ingress : Option Nat := none
  /-- Counted in TIM.LATE_WINDOWS (R313). -/
  late : Bool := false
  /-- Close of the first planned window that the unit missed (R355). -/
  missedAt : Option Nat := none
  deriving DecidableEq, Repr, Inhabited

/-- A weighted fair queue of 16 or 8 children (R396). -/
structure Wfq where
  v : Nat := 0
  s : List Nat := []
  f : List Nat := []
  deriving DecidableEq, Repr, Inhabited

/-- A meter of an ingress port and job (R399, R400, R405). -/
structure Meter where
  enable : Bool := false
  profile : Nat := 0
  tc : Nat := 0
  tp : Nat := 0
  last : Nat := 0
  cnt : List Nat := [0, 0, 0, 0]
  deriving DecidableEq, Repr, Inhabited

/-- A unit held in an ingress buffer (R153, R375). -/
structure HeldUnit where
  lane : Nat
  unit : LinkUnit
  since : Nat
  yellow : Bool := false
  deriving DecidableEq, Repr, Inhabited

/-- A port, under its lowest lane's ID, a compute-die port, or the service port (R34, R35). -/
structure Port where
  lanes : Nat := 1
  /-- GRANT that this module has given, per class, modulo 2^32 (R352). -/
  grantRx : List Nat := List.replicate 8 0
  /-- Credits that the peer has used, per class. -/
  usedRx : List Nat := List.replicate 8 0
  /-- GRANT received and credits used toward the peer. -/
  grantTx : List Nat := List.replicate 8 0
  usedTx : List Nat := List.replicate 8 0
  /-- Credits withheld while a pool is at PRESS, by 32 × instance + 8 × pool + class (R377). -/
  withheld : List (Nat × Nat) := []
  /-- Since when a grant change has not been announced, and when the last CREDIT cell left. -/
  creditDue : Option Nat := none
  creditAt : Nat := 0
  /-- Units waiting to leave, in order of arrival; a queue is the entries of one class and job. -/
  out : List OutEntry := []
  /-- Units that wait in the ingress buffer, in order of arrival. -/
  held : List HeldUnit := []
  overhead : Nat := 24
  jobW : List Nat := List.replicate 16 1
  gatedNodes : List (Nat × Wfq) := []
  jobNode : Wfq := {}
  classNodes : List (Nat × Wfq) := []
  meters : List (Nat × Meter) := []
  /-- LOG2N and sequence counter per class (R386). -/
  mirrorLog : List Nat := List.replicate 8 31
  mirrorSeq : List Nat := List.replicate 8 0
  /-- Last TIME frame received: its TX_TIME and its arrival (R303). -/
  timeRx : Nat × Nat := (0, 0)
  /-- The peer's SCHED_ID, factor code, ACTIVE_SINCE and STRATUM, whether it is unlocked, and when a
  frame last came (R303, R306, R324). -/
  peerSched : Nat × Nat × Nat := (0, 0, 0)
  peerStratum : Nat := 0xFF
  peerHold : Bool := false
  timeAt : Option Nat := none
  /-- The gate lists of the 1.0, 1.25 and 1.5 variants: (duration, open) entries (R307, R308). -/
  gate : List (List (Nat × Nat)) := []
  deriving DecidableEq, Repr, Inhabited

/-- One meter profile (R404). -/
structure Profile where
  cir : Nat := 1
  pir : Nat := 1
  policed : Nat := 0
  yellowIn : Nat := 0
  cbs : Nat := 64
  pbs : Nat := 64
  aware : Bool := false
  deriving DecidableEq, Repr, Inhabited

/-- One pool of an instance (R372, R376, R389). -/
structure Pool where
  first : Nat := 0
  cells : Nat := 0
  block : Nat := 0
  notice : Nat := 75
  press : Nat := 85
  crit : Nat := 95
  defMax : Nat := 0
  level : Nat := 0
  deriving DecidableEq, Repr, Inhabited

/-- A holder of a shared buffer (R378). -/
inductive Holder where
  | req (id : Nat)
  | queue (port cls job : Nat)
  deriving DecidableEq, Repr, Inhabited

/-- An allocation (R378). Its pointer is the first cell, which the spec does not choose: it is the
free value of draw `draw`. -/
structure Alloc where
  id : Nat
  pool : Nat
  req : Nat
  units : Nat
  holders : List Holder := []
  owner : Nat := 0
  freed : Bool := false
  draw : Nat := 0
  deriving DecidableEq, Repr, Inhabited

/-- A quota of a requester in a pool (R374). -/
structure Quota where
  pool : Nat
  req : Nat
  min : Nat
  max : Nat
  /-- 0 to 15: the job whose BUFRES gave it; 16: the image. -/
  source : Nat := 16
  deriving DecidableEq, Repr, Inhabited

/-- An instance of the buffer pool manager (R370, R389). -/
structure Bpm where
  sized : Bool := false
  pools : List Pool := []
  quotas : List Quota := []
  allocs : List Alloc := []
  frozen : List Nat := []
  viol : List Nat := List.replicate 16 0
  overflow : Bool := false
  reqSel : Nat := 0
  cnt : List Nat := List.replicate 6 0
  /-- Allocations that wait for shared space: requester, pool, units (R375, R381). -/
  waiting : List (Nat × Nat × Nat) := []
  deriving DecidableEq, Repr, Inhabited

/-- A sampled mirror record (R387). -/
structure MirrorRec where
  time : Nat
  port : Nat
  cls : Nat
  cell : Bool
  trunc : Bool
  length : Nat
  seq : Nat
  bytes : List Byte
  deriving DecidableEq, Repr, Inhabited

/-- The active schedule and its pending and queued swaps (R308 to R322). -/
structure Sched where
  loaded : Bool := false
  active : Bool := false
  owner : Nat := 0
  schedId : Nat := 0
  schedRate : Nat := 0
  cycleNs : Nat := 0
  slotGuard : Nat := 0
  swapLeadUs : Nat := 100
  hold : Nat := 16
  gated : Nat := 0
  /-- Stretch routes as 48-bit cell routes. -/
  sroutes : List Nat := []
  /-- Start B of the active lists' cycle grid and their factor code (R310, R317). -/
  base : Nat := 0
  factor : Nat := 0
  /-- Factor before the last swap, for the first cycle after it (R313). -/
  oldFactor : Nat := 0
  activeSince : Nat := 0
  pending : Option (Nat × Nat) := none
  queued : Option (Nat × Nat) := none
  expiry : Nat := 0
  expiryFactor : Nat := 0
  ownSeq : Nat := 0
  /-- Accepted requests: ORIGIN and SEQ, their swap time, and their factor (R320). -/
  held : List (Nat × Nat × Nat) := []
  renewed : Nat := 0
  deriving DecidableEq, Repr, Inhabited

/-- The time base (R301 to R306, R328 to R332). -/
structure Tim where
  master : Bool := false
  parents : List Nat := []
  parent : Option Nat := none
  stratum : Nat := 0xFF
  state : Nat := 0
  offsetPs : Int := 0
  /-- Correction in ns that steering still has to make, and when it last moved (R301). -/
  slew : Int := 0
  slewAt : Nat := 0
  good : Nat := 0
  setDone : Bool := false
  started : Bool := false
  lastParent : Nat := 0
  lastSend : Nat := 0
  lateWindows : Nat := 0
  invalidReq : Nat := 0
  lateReq : Nat := 0
  errBits : Nat := 0
  sched : Sched := {}
  deriving DecidableEq, Repr, Inhabited

/-- Twin states in the order of R474's codes. -/
inductive TwinSt where
  | detached | syncing | paired | solo
  deriving DecidableEq, Repr, Inhabited

/-- A GRAD frame accepted from the twin (R477). -/
structure GradRec where
  job : Nat
  epoch : Nat
  ordinal : Nat
  chunk : Nat
  seq : Nat
  bytes : List Byte
  deriving DecidableEq, Repr, Inhabited

/-- A GRAD frame sent and not yet acknowledged; `linkSeq` is none until it leaves (R477). -/
structure GradOut where
  job : Nat
  epoch : Nat
  ordinal : Nat
  chunk : Nat
  seq : Nat
  linkSeq : Option Nat := none
  deriving DecidableEq, Repr, Inhabited

/-- A shard that a FLIP frame of the twin lists (R476). -/
structure FlipRec where
  job : Nat
  epoch : Nat
  shard : Nat
  ordinal : Nat
  deriving DecidableEq, Repr, Inhabited

/-- Vote digests received from the twin: bytes 64 to 319 of the payload (R476). -/
structure PeerVote where
  job : Nat
  epoch : Nat
  kind : Nat
  bytes : List Byte
  deriving DecidableEq, Repr, Inhabited

/-- The twin (R473 to R484). -/
structure Twin where
  present : Bool := false
  role : Nat := 0
  strap : Nat := 2
  peerIndex : Nat := 0
  port : Nat := 0x100
  st : TwinSt := .detached
  intact : Bool := false
  lastLoss : Nat := 0
  peerCause : Nat := 0
  pagesTotal : Nat := 0
  pagesDone : Nat := 0
  /-- When a unit was last accepted from the twin port, and when a HELLO last left. -/
  heardAt : Nat := 0
  helloAt : Nat := 0
  /-- The content of the last HELLO sent, so that a change is seen (R478). -/
  helloLast : List Byte := []
  /-- The last HELLO received (R476). -/
  peerHello : List Byte := []
  flips : List FlipRec := []
  grads : List GradRec := []
  gradsOut : List GradOut := []
  peerVotes : List PeerVote := []
  /-- A resync is asked of this module as server; jobs whose copy has begun. -/
  serving : List Nat := []
  /-- This module's resync: jobs whose KIND 1 vote matched. -/
  synced : List Nat := []
  /-- IMAGE frames received in recovery: block to bytes, and the block count (R518). -/
  image : List (Nat × List Byte) := []
  imageBlocks : Nat := 0
  imageAskAt : Nat := 0
  deriving DecidableEq, Repr, Inhabited

/-- The fabric half of the state. (DESIGN CHOICE, assumption 3). -/
structure Fab where
  lanes : List (Nat × Lane) := []
  ports : List (Nat × Port) := []
  bpm : List Bpm := List.replicate 5 {}
  nextAlloc : Nat := 0
  profiles : List Profile := List.replicate 64 {}
  classW : List (List Nat) := List.replicate 16 (List.replicate 7 1)
  ageLimit : List Nat := List.replicate 8 50000
  polSel : Nat := 0
  oqSel : Nat := 0
  mirrorDest : Nat := 0
  mirrorIndex : Nat := 0
  mirrorWraps : Nat := 0
  mirrorDrops : Nat := 0
  mirrorQueue : List MirrorRec := []
  mirrorSession : Option Nat := none
  mirrorGib : Nat := 0
  /-- Early-arrival quota in cells per job, and cells in use (R152). -/
  earlyQuota : List Nat := List.replicate 16 32768
  earlyUsed : List Nat := List.replicate 16 0
  tim : Tim := {}
  twin : Twin := {}
  domain : Nat := 0
  moduleIndex : Nat := 0x7FFF
  deriving DecidableEq, Repr, Inhabited

end Sys2Proof.Machine
end

