-- ==== Sys2Proof/Machine/StateColl.lean ====
section
/-! DEFINITION. Collectives with their inputs and outputs under the commit protocol (R126 to R156,
R439 to R465), the shards of the optimizer (R181 to R206), and integrity: error log, quarantine,
spares and votes (R47 to R51, R433 to R460). -/

namespace Sys2Proof.Machine

/-- A frame that a consumer holds (R129, R443). -/
structure HeldFrame where
  seq : Nat
  payload : List Byte
  inject : Nat
  resend : Bool
  check : Nat
  deriving DecidableEq, Repr, Inhabited

/-- A DIGEST that a consumer holds (R344). -/
structure HeldDigest where
  crc : Nat
  count : Nat
  clean : Bool
  retRoute : Nat
  inject : Nat
  since : Nat
  deriving DecidableEq, Repr, Inhabited

/-- One input of one chunk: the (RANK, CHUNK) pair of R129. -/
structure Inp where
  rank : Nat
  chunk : Nat
  frames : List HeldFrame := []
  digest : Option HeldDigest := none
  acked : Bool := false
  /-- CHUNK_CRC that was ACKed. -/
  ackCrc : Nat := 0
  /-- B of R443; none lies below every fabric time. -/
  boundary : Option Nat := none
  /-- After a NAK_CHUNK frames with RESEND = 0 are discarded (R443). -/
  onlyResend : Bool := false
  naks : Nat := 0
  /-- CAUSE and CHUNK_CRC of the last NAK_CHUNK sent (R344). -/
  nakCause : Nat := 0
  nakCrc : Nat := 0
  /-- Arrival of the DIGEST's last bit (R156). -/
  arrival : Nat := 0
  /-- Staging allocations that hold the frames: instance and allocation. -/
  allocs : List (Nat × Nat) := []
  /-- Cells charged to the early-arrival quota (R152). -/
  early : Nat := 0
  deriving DecidableEq, Repr, Inhabited

/-- A consumer of an output: its route and what it has answered (R441). -/
structure Consumer where
  route : Nat
  cls : Nat
  rank : Nat := 0
  acked : Bool := false
  /-- When the DIGEST last went to it, and how often it was resent. -/
  sentAt : Option Nat := none
  resends : Nat := 0
  deriving DecidableEq, Repr, Inhabited

/-- An output: the value of one node, contribution or copy for one chunk (R441). -/
structure Outp where
  lo : Nat
  hi : Nat
  chunk : Nat
  /-- The chunk's byte string with the padding of its last frame (R439). -/
  bytes : List Byte
  payload : Nat
  check : Nat
  engine : Nat := 0
  copied : Bool := false
  consumers : List Consumer := []
  closed : Bool := false
  failures : Nat := 0
  /-- A sampled duplicate is still to compare (R436). -/
  dup : Bool := false
  /-- Shared buffers of a replicated output (R378). -/
  bufs : List Nat := []
  /-- The staging allocation that holds a computed output, in the instance of its die (R212, R373). -/
  stage : Option Nat := none
  /-- The shard whose cast weights these are, if any (R61). -/
  shard : Option Nat := none
  /-- Counts chunks (R133) use COUNTS frames. -/
  counts : Bool := false
  deriving DecidableEq, Repr, Inhabited

/-- An express cell held or accepted by a node (R146, R148). -/
structure ExpressIn where
  rank : Nat
  bytes : List Byte
  arrival : Nat
  deriving DecidableEq, Repr, Inhabited

/-- What the execution of a chunk raised: its flags (R94), and the anomalies of its inputs as RANK, kind and tile
(R178). -/
structure ChunkRun where
  chunk : Nat
  /-- The node that was computed. -/
  lo : Nat
  hi : Nat
  flags : FpFlags
  anomalies : List (Nat × Nat × Nat)
  deriving DecidableEq, Repr, Inhabited

/-- One ordinal of one epoch of a job at this module (R150 to R154, R463 to R470). -/
structure Coll where
  job : Nat
  epoch : Nat
  ordinal : Nat
  eligible : Bool := false
  /-- When the ordinal timer or, after the first chunk, the chunk timer expires (R154, R447). -/
  timer : Option Nat := none
  restarted : Bool := false
  /-- The first chunk has reached its completion count. -/
  first : Bool := false
  inputs : List Inp := []
  outputs : List Outp := []
  /-- Chunks that have reached their completion count here. -/
  reached : List Nat := []
  /-- Chunks whose node values have been formed here. -/
  formed : List Nat := []
  express : List ExpressIn := []
  expressDone : Bool := false
  /-- The counts phase is complete here (R137). -/
  countsDone : Bool := false
  /-- Root values of this module by chunk, in the output format (R198, R477). -/
  roots : List (Nat × List Byte) := []
  /-- FILTER: the output counts have been returned (R141). -/
  filterCounts : Bool := false
  completed : Bool := false
  aborted : Bool := false
  /-- A RESET_COLLECTIVE mark stands (R470). -/
  resetMark : Bool := false
  /-- ORIGIN and SEND_TIME of ABORTs accepted for the key (R463). -/
  aborts : List (Nat × Nat) := []
  /-- RET_ROUTEs of DIGESTs held or answered in the epoch (R463). -/
  retRoutes : List Nat := []
  /-- What each computed chunk raised, for its replays and its duplicate (R96, R178). -/
  ran : List ChunkRun := []
  deriving DecidableEq, Repr, Inhabited

/-- The record of a job's epochs and votes at this module (R66, R450, R451, R471). -/
structure JobSt where
  job : Nat
  /-- The oldest epoch whose boundary has not been passed (R66). -/
  oldest : Nat := 0
  /-- A rollback mark stands on this epoch (R471). -/
  rollMark : Option Nat := none
  /-- Votes of endpoints: epoch, rank, matches (R450). -/
  votes : List (Nat × Nat × Bool) := []
  /-- Endorsements received by this holder: epoch, leaf rank block, digest (R450). -/
  endorsed : List (Nat × Nat × List Byte) := []
  /-- Epochs for which this leaf has endorsed, and epochs whose vote window has ended here. -/
  endorsedSent : List Nat := []
  windowEnded : List Nat := []
  /-- Last broadcast ACK of an epoch at this leaf, and last broadcast commit at this holder. -/
  ackAt : List (Nat × Nat) := []
  commitAt : List (Nat × Nat) := []
  /-- Vote epochs whose digests were formed: epoch, and M_PRI, M_REP, K_PRI, K_REP. -/
  formed : List (Nat × List (List Byte)) := []
  voteHold : Bool := false
  closed : List Nat := []
  /-- Missing or differing votes per rank (R450), and window and twin-half errors (R54, R66). -/
  voteMiss : List (Nat × Nat) := []
  windowErr : List (Nat × Nat) := []
  halfErr : List (Nat × Nat) := []
  dupCount : Nat := 0
  protoErr : Nat := 0
  formatErr : Nat := 0
  abortDup : Nat := 0
  abortDiscards : Nat := 0
  deriving DecidableEq, Repr, Inhabited

/-- A step of the optimizer in progress on a shard (R188 to R205). -/
structure ShardStep where
  epoch : Nat
  clip : Nat
  /-- Work items done; their list is fixed by the shard's program. -/
  pos : Nat := 0
  skip : Bool := false
  wrote : Bool := false
  deriving DecidableEq, Repr, Inhabited

/-- A shard of the state table (R184 to R192). -/
structure Shard where
  job : Nat
  id : Nat
  /-- CUR: bank 1 is current (R186). -/
  cur : Bool := false
  /-- The newest epoch for which the shard has flipped. -/
  flipped : Option Nat := none
  /-- The epoch that the shadow bank holds; none when it holds no epoch (R190). -/
  shadow : Option Nat := none
  /-- The shadow bank's epoch is the one that rollback restores. -/
  rollbackOk : Bool := false
  step : Option ShardStep := none
  /-- The step of this epoch has written every element. -/
  stepped : Option Nat := none
  /-- The step that waits for its flip was a skip step; the newest flipped epoch was one, and the epoch before it
  (R198, R206). -/
  skipNext : Bool := false
  skippedLast : Bool := false
  skippedPrev : Bool := false
  /-- Cast bytes and chunk digests of the last step, by broadcast chunk (R204, R205). -/
  casts : List (Nat × List Byte) := []
  /-- Page CRC-64s of the last step in page order (R205). -/
  pageCrcs : List Nat := []
  /-- Replica: the last FLIP report that listed the shard, as its epoch and broadcast ordinal (R476, R481). -/
  report : Option (Nat × Nat) := none
  /-- Replica: the epochs for which a FLIP report has listed the shard (R477). -/
  listed : List Nat := []
  /-- Open checkpoint reads: session, 8 for a resync, epoch, and time of the last request (R545). -/
  reads : List (Nat × Nat × Nat) := []
  deriving DecidableEq, Repr, Inhabited

/-- One entry of the error log (R452, R453). -/
structure ErrEntry where
  time : Nat
  kind : Nat
  unit : Nat
  die : Nat
  logical : Nat
  phys : Nat
  tband : Nat
  phase : Nat
  job : Nat
  pattern : Nat
  railMv : Nat
  ordinalLow : Nat
  chunk : Nat
  tempC : Nat
  tile : Nat
  col : Nat := 0
  deriving DecidableEq, Repr, Inhabited

/-- One quarantine record (R454, R459). -/
structure QuarRec where
  st : Nat
  unit : Nat
  die : Nat
  logical : Nat
  phys : Nat
  bands : Nat
  trigger : Nat
  /-- When the unit was last self-tested (R455). -/
  testedAt : Nat := 0
  /-- It has failed a self-test and takes no further tiles (R455). -/
  failed : Bool := false
  deriving DecidableEq, Repr, Inhabited

/-- Free spares of a die (R47, R51). `physPos` is its position on a CNV-6400, whose four are enabled (R29). -/
structure Spares where
  privetFree : Bool := true
  privetReplaced : Nat := 0
  clusters : List Nat := List.replicate 8 8
  banks : Nat := 8
  rows : Nat := 8
  cols : Nat := 8
  physPos : Nat := 0
  deriving DecidableEq, Repr, Inhabited

/-- A remap in force: unit code, die, logical index and physical unit (R48, R49). -/
structure Remap where
  unit : Nat
  die : Nat
  logical : Nat
  phys : Nat
  deriving DecidableEq, Repr, Inhabited

/-- A sampled tile that waits for its duplicate (R436). -/
structure DupWait where
  /-- 0 a Privet chunk, 1 a Hawthorn batch, 2 a Laurel block pass. -/
  kind : Nat
  die : Nat
  unit : Nat
  job : Nat
  queue : Nat := 0
  epoch : Nat := 0
  ordinal : Nat := 0
  chunk : Nat := 0
  /-- Failed executions before the one that is held (R446). -/
  failures : Nat := 0
  deriving DecidableEq, Repr, Inhabited

/-- Integrity (R433 to R460). (DESIGN CHOICE, assumption 3). -/
structure Integ where
  residue : Bool := true
  dup : Nat := 0
  shortWaitUs : Nat := 10
  /-- Newest first, at most 1 024. -/
  errlog : List ErrEntry := []
  errCount : Nat := 0
  quar : List QuarRec := []
  quarFuse : Nat := 0
  spares : List Spares := (List.range 4).map (fun d => { physPos := d })
  remaps : List Remap := []
  /-- Remaps that wait for an epoch boundary, and those past it that wait for an idle unit (R229). -/
  remapPending : List Remap := []
  remapReady : List Remap := []
  /-- Tiles run, by 4 × kind + die with kinds 0 chunks, 1 batches, 2 passes, 3 bank reads (R454). -/
  tiles : List (Nat × Nat) := []
  /-- Sampling counts of R435 by kind, die, unit and job packed into one key. -/
  sampleCnt : List (Nat × Nat) := []
  dups : List DupWait := []
  sparesBit : Bool := false
  sparesDie : Nat := 0
  degraded : Bool := false
  undecided : Bool := false
  expelled : Bool := false
  cnt : List Nat := List.replicate 14 0
  deriving DecidableEq, Repr, Inhabited

/-- The collective half of the state. -/
structure CollSt where
  colls : List Coll := []
  jobs : List JobSt := []
  shards : List Shard := []
  /-- SWC.ABORT_LAST by job, as register values (R468). -/
  abortLast : List Nat := List.replicate 16 0
  /-- COLL_LAG: key die, job, rank to (chunks, ns) (R156, R559). -/
  lag : List (Nat × (Nat × Nat)) := []
  /-- RDE.LAG_WORST by 16 × die + job as register values (R157). -/
  lagWorst : List (Nat × Nat) := []
  /-- The lags behind those values, which LAG_NS shows up to its width (R157). -/
  lagFull : List (Nat × Nat) := []
  /-- MoE drops by job and expert, and invalid slots by job (R143, R560, R561). -/
  moeDrops : List (Nat × Nat) := []
  moeInvalid : List Nat := List.replicate 16 0
  /-- RDE.ENG_STATUS sources: the last chunk that each engine ran, by 16 × die + engine. -/
  engLast : List (Nat × Nat) := []
  deriving DecidableEq, Repr, Inhabited

end Sys2Proof.Machine
end

