-- ==== Sys2Proof/Machine/StateMgmt.lean ====
section
/-! DEFINITION. Power and thermal (R486 to R506), start-up, images, fuses and sessions (R508 to
R554), debug and trace (R556 to R570), and the sideband pins (R585 to R596). -/

namespace Sys2Proof.Machine

/-- Feed states in the order of PWR.FEED's codes (R486, R501). -/
inductive FeedSt where
  | good | marginal | absent | overvolt | reversed
  deriving DecidableEq, Repr, Inhabited

/-- One rail (R488, R489, R503). -/
structure Rail where
  st : Nat := 0
  senseOpen : Bool := false
  overLim : Bool := false
  short : Bool := false
  setMv : Nat := 0
  measMv : Nat := 0
  iDa : Nat := 0
  limitDa : Nat := 0
  deriving DecidableEq, Repr, Inhabited

/-- One compute die's power state (R489 to R495, R504). -/
structure DiePwr where
  vcompMv : Nat := 0
  aMts : Nat := 0
  phase : Nat := 0
  dutyPct : Nat := 100
  needed : Nat := 0
  unmet : Bool := false
  tmaxC : Nat := 0
  shareW : Nat := 0
  thermal : Bool := false
  /-- L_d in 0.1 A (R493). -/
  limitDa : Nat := 0
  /-- Consecutive windows below 90 % of L_d and ungated (R489). -/
  lowWindows : Nat := 0
  gated : Bool := false
  deriving DecidableEq, Repr, Inhabited

/-- Phases and hints of the PHASE section (R494). -/
structure Phase where
  hints : List (Nat × List Nat) := []
  marks : List (List (Nat × Nat)) := []
  /-- The dies' VCOMP limits at activation, from which E starts where a phase has no hint (R495). -/
  limits : List Nat := []
  deriving DecidableEq, Repr, Inhabited

/-- The power and thermal controller. (DESIGN CHOICE, assumption 3). -/
structure Pwr where
  feedV10 : List Nat := [0, 0]
  feeds : List FeedSt := [.absent, .absent]
  active : Nat := 0
  pInW : Nat := 0
  switchovers : Nat := 0
  capW : Nat := 1600
  windowUs : Nat := 2
  vcompMax : Nat := 750
  rails : List Rail := List.replicate 8 {}
  dies : List DiePwr := List.replicate 4 {}
  inletC : Nat := 0
  outletC : Nat := 0
  flowCl : Nat := 0
  inletHigh : Bool := false
  flowLow : Bool := false
  capReduced : Bool := false
  flowSince : Option Nat := none
  /-- E in 0.1 A and the updates made, by 256 × die + phase (R495). -/
  learn : List (Nat × (Nat × Nat)) := []
  phase : Phase := {}
  ejob : List Nat := List.replicate 16 0
  equeue : List Nat := List.replicate 64 0
  eother : Nat := 0
  /-- Levels of the sensor groups: 1 NOTICE, 2 CAP, 3 CRIT (R496). -/
  levels : List (Nat × Nat) := []
  /-- HBM request gating in percent by die (R489, R496). -/
  hbmGate : List Nat := [100, 100, 100, 100]
  windowAt : Nat := 0
  deriving DecidableEq, Repr, Inhabited

/-- Module states in the order of R508's codes. -/
inductive MState where
  | off | boot | recovery | config | train | sync | ready | run | degraded | safe
  deriving DecidableEq, Repr, Inhabited

/-- A record of the configuration image, decoded (R523). -/
inductive CfgRecord where
  | domain (domainId moduleIndex : Nat)
  | lanes (ports : List (Nat × Nat))
  | twin (role index : Nat)
  | time (master : Bool) (parents : List Nat)
  | link (lane : Nat) (enable : Bool) (nakLimit : Nat) (peer : Option Nat)
  /-- Instance, SIZED mode, cells per pool, thresholds per pool, default MAX per pool, staging
  reservation in MiB. -/
  | pools (inst : Nat) (sized : Bool) (cells : List Nat) (levels : List (Nat × Nat × Nat))
      (maxes : List Nat) (stageMib : Nat)
  | sessions (mins maxes : List Nat)
  | early (mib : List Nat)
  | policers (profiles : List (Nat × Profile)) (meters : List (Nat × Nat × Bool × Nat))
  | sched (classW jobW : List (List Nat)) (overhead : List (Nat × Nat)) (ages : List (Nat × Nat))
  | power (capW windowUs vcompMax : Nat) (limits : List (Nat × Nat))
  | integ (residue : Bool) (dup shortWait : Nat)
  | trace (traceGib mirrorGib dest : Nat) (logs : List Nat)
  | queues (jobs : List Nat)
  | topiaryKeys (hashes : List (List Byte))
  | hostRoots (hashes : List (List Byte))
  | mgmt (addrs : List (List Byte)) (port : Nat)
  deriving DecidableEq, Repr, Inhabited

/-- A staged firmware or configuration image (R520, R544). -/
structure Staged where
  session : Nat
  bytes : List Byte
  /-- TOTAL_LEN bytes have come. -/
  complete : Bool := false
  /-- It has verified and is held for NVM_WRITE or for the firmware to start. -/
  verified : Bool := false
  /-- The request whose reply carries the verification result: session, tag and CRC-32C of its operands. -/
  ask : Option (Nat × Nat × Nat) := none
  deriving DecidableEq, Repr, Inhabited

/-- An open Topiary load session (R279). -/
structure LoadSess where
  job : Nat
  session : Nat
  bytes : List Byte := []
  committed : Bool := false
  deriving DecidableEq, Repr, Inhabited

/-- A cached reply (R540). -/
structure CacheRec where
  tag : Nat
  opcode : Nat
  crc : Nat
  result : Nat
  payload : List Byte
  deriving DecidableEq, Repr, Inhabited

/-- An FMD reply or module-originated datagram (R536, R549). -/
structure Reply where
  session : Nat
  tag : Nat
  opcode : Nat
  result : Nat
  attn : Nat
  payload : List Byte := []
  deriving DecidableEq, Repr, Inhabited

/-- One session slot (R527, R538, R553). -/
structure Session where
  valid : Bool := false
  port : Nat := 0
  ipv6 : Bool := false
  id : Nat := 0
  lastAt : Nat := 0
  seqHigh : Option Nat := none
  seqSeen : List Nat := []
  cache : List CacheRec := []
  deriving DecidableEq, Repr, Inhabited

/-- An SPDM handshake in progress (R526, R527). -/
structure Handshake where
  slot : Nat
  id : Nat
  rootHash : List Byte := []
  deriving DecidableEq, Repr, Inhabited

/-- A recovery operation or unload that answers BUSY until it completes (R283, R472). -/
structure Running where
  opcode : Nat
  key : List Nat
  /-- The operation has completed and its next reply carries this result. -/
  result : Option Res := none
  deriving DecidableEq, Repr, Inhabited

/-- Fuses of the SEC block (R514, R531). (DESIGN CHOICE, assumption 3). -/
structure Fuses where
  vendorHash : List Byte := List.replicate 64 0
  custHash : Option (List Byte) := none
  svnMin : Nat := 0
  deriving DecidableEq, Repr, Inhabited

/-- A fuse burn in progress (R531). -/
inductive Burn where
  | none
  | cust (hash : List Byte)
  | svn (value : Nat)
  | both (hash : List Byte) (value : Nat)
  deriving DecidableEq, Repr, Inhabited

/-- The xSPI NOR of the carrier (R511 to R513). -/
structure Nor where
  answers : Bool := true
  firmware : List Byte := []
  config : List Byte := []
  deriving DecidableEq, Repr, Inhabited

/-- Management, start-up and security. (DESIGN CHOICE, assumption 3). -/
structure Mgt where
  st : MState := .boot
  cause : Nat := 0
  cfgRecord : Nat := 0xFFFF
  fwSource : Nat := 0
  bootAt : Nat := 0
  bootMs : Nat := 0
  /-- When TRAIN began (R510). -/
  trainAt : Nat := 0
  syncAt : Nat := 0
  silicon : Nat := 0
  serial : Nat := 0
  nor : Nor := {}
  fuses : Fuses := {}
  /-- CUST_HASH as BOOT step 2 loaded it: a hash burnt in RECOVERY takes effect at the next BOOT (R531). -/
  custKey : Option (List Byte) := none
  burn : Burn := .none
  custStage : List Nat := List.replicate 8 0
  fwBytes : List Byte := []
  fwSvn : Nat := 0
  fwRunning : Bool := false
  cfgBytes : List Byte := []
  records : List (Nat × List Byte) := []
  topiaryKeys : List (List Byte) := []
  hostRoots : List (List Byte) := []
  queueJobs : List Nat := List.replicate 64 0xFF
  stageMib : List Nat := [64, 64, 64, 64]
  stagedFw : Option Staged := none
  stagedCfg : Option Staged := none
  loads : List LoadSess := []
  /-- Results of completed loads: job, TOPIARY_ID, result (R279). -/
  loadResults : List (Nat × Nat × Res) := []
  unloading : List Nat := []
  running : List Running := []
  /-- Completed recovery operations by key, so that a repeat changes nothing (R469). -/
  sessions : List Session := List.replicate 8 {}
  handshake : Option Handshake := none
  /-- Replies and module-originated datagrams that have left, newest first. -/
  replies : List Reply := []
  /-- Answers to ARP, Neighbour Discovery and echo by port, newest first (R533). -/
  netOut : List (Nat × List Byte) := []
  fmdCnt : List Nat := List.replicate 6 0
  secFailAt : Option Nat := none
  /-- MGT.PORT: state and FEC lock (R553). -/
  ports : List (Nat × Bool) := [(0, false), (0, false)]
  macs : List Nat := [0, 0]
  addrs : List (List Byte) := []
  udpPort : Nat := 47470
  /-- NVM_WRITE in progress: session, region and source (R513). -/
  nvm : Option (Nat × Nat × List Byte) := none
  nvmResult : Option (Nat × Res) := none
  /-- Measurement blocks 0x10 + j with their extension counts (R528). -/
  meas : List (List Byte × Nat) := List.replicate 16 (List.replicate 64 0, 0)
  romHash : List Byte := List.replicate 64 0
  ddr : List (Nat × Nat × Nat) := List.replicate 8 (0, 0, 0)
  hbm : List (Nat × Nat) := List.replicate 12 (0, 0)
  resetCause : Nat := 0
  deriving DecidableEq, Repr, Inhabited

/-- One trace record (R565). -/
structure TraceRec where
  time : Nat
  source : Nat
  kind : Nat
  die : Nat
  job : Nat
  ordinal : Nat
  aux1 : Nat
  aux2 : Nat
  data : Nat
  deriving DecidableEq, Repr, Inhabited

/-- Debug, counters and trace (R556 to R570). -/
structure Dbg where
  lagSel : Nat := 0
  moeSel : Nat := 0
  traceGib : Nat := 0
  running : Bool := false
  /-- STOP has come and the queue drains. -/
  draining : Bool := false
  stopFull : Bool := false
  wraps : Nat := 0
  drops : Nat := 0
  wrIndex : Nat := 0
  sources : Nat := 0
  jobs : Nat := 0xFFFF
  win : Nat := 0
  queue : List TraceRec := []
  /-- QUE.CNT by 8 × die + k (R558). -/
  queCnt : List (Nat × Nat) := []
  /-- JTAG: the selected instruction, ring and index, and the shifted-out data register (R569). -/
  jtagRing : Nat := 0
  jtagIndex : Nat := 0
  jtagOut : Nat := 0
  jtagBits : Nat := 1
  /-- Copies of the event rings taken on entry to SAFE (R568). -/
  safeRings : Bool := false
  i3cOut : List Byte := []
  /-- TAKE requests whose reply leaves after their SNAP_TIME: session, tag, SNAP_TIME (R546). -/
  snapOwed : List (Nat × Nat × Nat) := []
  deriving DecidableEq, Repr, Inhabited

/-- The sub-states that hold counters which COUNTER_SNAPSHOT freezes (R546, R556). -/
structure Counters where
  comp : Comp := {}
  fab : Fab := {}
  coll : CollSt := {}
  integ : Integ := {}
  pwr : Pwr := {}
  queCnt : List (Nat × Nat) := []
  fmdCnt : List Nat := []
  deriving DecidableEq, Repr, Inhabited

/-- A counter snapshot (R546). -/
structure Snap where
  owner : Nat
  time : Nat
  copy : Option Counters := none
  deriving DecidableEq, Repr, Inhabited

/-- The sideband pins (R585 to R596). -/
structure Pins where
  lsrEn : Bool := false
  carrierReset : Bool := false
  sideband : Bool := true
  twinSide : Nat := 2
  ddrSpd : Nat := 0
  deriving DecidableEq, Repr, Inhabited

end Sys2Proof.Machine
end

