-- ==== Sys2Proof/Syntax.lean ====
section
/-! DEFINITION. The commands of the module, one constructor for each row of the opcode table, with the
operand types they use. No row of the table gives bits or fields, so the operands are the model's
(DESIGN CHOICE, assumption 2): a queue instruction names its queue, since the word itself lies in the
ring or the segment (R235, R292); a received unit names its lane and carries the unit (R338, R339); a
management request carries its session, tag and port (R536); an event carries what the outside world
decides (a measured value, which unit, whether an error struck). -/

namespace Sys2Proof

open Sys2Proof.Machine

/-- Whose batch HAWTHORN_BATCH runs: a queue's vector work (R236), or a shard's optimizer step
(R195). -/
inductive BatchWork where
  | queue (q : Nat)
  | shard (job id : Nat)
  deriving DecidableEq, Repr, Inhabited

/-- What the comparison of a sampled tile shows (R436). -/
inductive DupVerdict where
  /-- Both executions are equal. -/
  | equal
  /-- The third execution equals the first; where the duplicate goes wrong. -/
  | thirdFirst (f : FaultAt)
  /-- The third execution equals the duplicate; where the first goes wrong. -/
  | thirdDup (f : FaultAt)
  /-- All three differ. -/
  | allDiffer
  deriving DecidableEq, Repr, Inhabited

/-- What the power controller has measured over the last window (R491, R493, R500). -/
structure WindowMeas where
  /-- Input power in W. -/
  pInW : Nat
  /-- Per die: average VCOMP current in 0.1 A, measured output in mV, rate of the slowest monitor in M
  transfers/s, and the ungated share of the window in percent. -/
  iDa : List Nat
  mv : List Nat
  rate : List Nat
  duty : List Nat
  /-- Per die: the phase ran throughout the window. -/
  whole : List Bool
  /-- Energy in microjoules per queue, per job, and of the rest. -/
  eQueue : List Nat
  eJob : List Nat
  eOther : Nat
  deriving DecidableEq, Repr, Inhabited

/-- A group of temperature sensors (R496). -/
inductive SensorGroup where
  | die (d : Nat)
  | hbm (stack : Nat)
  | switchDie
  | serviceDie
  | optical (e : Nat)
  deriving DecidableEq, Repr, Inhabited

/-- What TRAIN finds on one DDR5 channel (R43, R44, R586): nothing or no SPD answer, or an RDIMM of a
size in GiB that supports a speed in MT/s, and whether it trained. -/
inductive DimmRead where
  | empty
  | dimm (sizeGib mts : Nat) (ok : Bool)
  deriving DecidableEq, Repr, Inhabited

/-- Which complete image IMAGE_VERIFY_COMPLETE verifies (R517, R520). -/
inductive ImageSrc where
  /-- The firmware image fetched from the twin in RECOVERY. -/
  | twin
  /-- The staged firmware image. -/
  | firmware
  /-- The staged configuration image. -/
  | config
  deriving DecidableEq, Repr, Inhabited

/-- The header of a management request as it reaches the module: session slot, tag, port, address
family and DSP0277 sequence number (R535 to R537). -/
structure FmdReq where
  /-- `none` for a PLAIN datagram, which belongs to no session (R534). -/
  slot : Option Nat
  tag : Nat
  port : Nat := 0
  ipv6 : Bool := false
  seq : Nat := 0
  deriving DecidableEq, Repr, Inhabited

/-- What a register access is: a READ_REG, a WRITE_REG of a value, or a READ_BLOCK of `count` registers that has read
`done` of them (R543). -/
inductive AccessKind where
  | read
  | write (v : Word)
  | block (count done : Nat)
  deriving DecidableEq, Repr, Inhabited

/-- A register access of a management request: its address and what it is (R543). -/
structure RegAccess where
  addr : Word32
  kind : AccessKind
  deriving DecidableEq, Repr, Inhabited

/-- An SPDM message other than those with a row of their own (R526). -/
inductive SpdmMsg where
  | getVersion | getCapabilities | getDigests | heartbeat | keyUpdate | getEncapsulated
  /-- NEGOTIATE_ALGORITHMS: whether it offers a listed algorithm of every kind. -/
  | negotiate (ok : Bool)
  | getCertificate (slot : Nat)
  | challenge (slot : Nat)
  /-- DELIVER_ENCAPSULATED_RESPONSE with the requester's root public key. -/
  | deliverEncapsulated (rootKey : List Byte)
  /-- Any other request code. -/
  | other (code : Nat)
  deriving DecidableEq, Repr, Inhabited

/-- A weight register of the scheduler (R402, R403). -/
inductive WeightReg where
  | classW (job : Nat)
  | jobW (port half : Nat)
  deriving DecidableEq, Repr, Inhabited

/-- The commands, one constructor per row of the opcode table, in the table's order. -/
inductive Instr where
  /-- NOP (R240). -/
  | nop (q : Nat)
  /-- END (R247). -/
  | endProg (q : Nat)
  /-- BR (R247). -/
  | br (q : Nat)
  /-- DBNZ (R247). -/
  | dbnz (q : Nat)
  /-- CMPARM (R248). -/
  | cmparm (q : Nat)
  /-- CMPOFF (R248). -/
  | cmpoff (q : Nat)
  /-- PSET (R245). -/
  | pset (q : Nat)
  /-- SMOV (R245). -/
  | smov (q : Nat)
  /-- SADD (R245). -/
  | sadd (q : Nat)
  /-- SSUB (R245). -/
  | ssub (q : Nat)
  /-- SMUL (R245). -/
  | smul (q : Nat)
  /-- SAND (R245). -/
  | sand (q : Nat)
  /-- SOR (R245). -/
  | sor (q : Nat)
  /-- SXOR (R245). -/
  | sxor (q : Nat)
  /-- SSHL (R245). -/
  | sshl (q : Nat)
  /-- SSHR (R245). -/
  | sshr (q : Nat)
  /-- SSRA (R245). -/
  | ssra (q : Nat)
  /-- CSET (R245). -/
  | cset (q : Nat)
  /-- CGET (R245). -/
  | cget (q : Nat)
  /-- SFADD (R246). -/
  | sfadd (q : Nat)
  /-- SFSUB (R246). -/
  | sfsub (q : Nat)
  /-- SFMUL (R246). -/
  | sfmul (q : Nat)
  /-- SFDIV (R246). -/
  | sfdiv (q : Nat)
  /-- SFSQRT (R246). -/
  | sfsqrt (q : Nat)
  /-- SLD (R246). -/
  | sld (q : Nat)
  /-- SST (R246). -/
  | sst (q : Nat)
  /-- FLAGS_RD (R272). -/
  | flagsRd (q : Nat)
  /-- FLAGS_CLR (R272). -/
  | flagsClr (q : Nat)
  /-- DIGEST_RD (R273). -/
  | digestRd (q : Nat)
  /-- HSET (R252). -/
  | hset (q : Nat)
  /-- HOFF (R252). -/
  | hoff (q : Nat)
  /-- HADD (R252). -/
  | hadd (q : Nat)
  /-- VCOPY (R254). -/
  | vcopy (q : Nat)
  /-- VCVT (R257). -/
  | vcvt (q : Nat)
  /-- VFILL (R254). -/
  | vfill (q : Nat)
  /-- VADD (R254). -/
  | vadd (q : Nat)
  /-- VSUB (R254). -/
  | vsub (q : Nat)
  /-- VMUL (R254). -/
  | vmul (q : Nat)
  /-- VMULADD (R254). -/
  | vmuladd (q : Nat)
  /-- VDIV (R254). -/
  | vdiv (q : Nat)
  /-- VSQRT (R254). -/
  | vsqrt (q : Nat)
  /-- VEXP (R90). -/
  | vexp (q : Nat)
  /-- VLOG (R91). -/
  | vlog (q : Nat)
  /-- VRSQRT (R92). -/
  | vrsqrt (q : Nat)
  /-- VMAX (R86). -/
  | vmax (q : Nat)
  /-- VMIN (R86). -/
  | vmin (q : Nat)
  /-- VABS (R254). -/
  | vabs (q : Nat)
  /-- VNEG (R254). -/
  | vneg (q : Nat)
  /-- VSIGN (R254). -/
  | vsign (q : Nat)
  /-- VAND (R254). -/
  | vand (q : Nat)
  /-- VOR (R254). -/
  | vor (q : Nat)
  /-- VXOR (R254). -/
  | vxor (q : Nat)
  /-- VSHL (R254). -/
  | vshl (q : Nat)
  /-- VSHR (R254). -/
  | vshr (q : Nat)
  /-- VCMP (R254). -/
  | vcmp (q : Nat)
  /-- VSEL (R254). -/
  | vsel (q : Nat)
  /-- VDOT (R254). -/
  | vdot (q : Nat)
  /-- MMUL (R263). -/
  | mmul (q : Nat)
  /-- MMAC (R263). -/
  | mmac (q : Nat)
  /-- TLOAD (R264). -/
  | tload (q : Nat)
  /-- CHAIN (R258). -/
  | chain (q : Nat)
  /-- CRUN (R258). -/
  | crun (q : Nat)
  /-- FLAG_SET (R268). -/
  | flagSet (q : Nat)
  /-- FLAG_SET_EFFECT (R268). -/
  | flagSetEffect (q : Nat)
  /-- FLAG_CLEAR (R268). -/
  | flagClear (q : Nat)
  /-- FLAG_WAIT (R269). -/
  | flagWait (q : Nat)
  /-- FLAG_WAIT_SATISFIED (R269). -/
  | flagWaitSatisfied (q : Nat)
  /-- FLAG_WAIT_DEADLINE (R269). -/
  | flagWaitDeadline (q : Nat)
  /-- FENCE (R270). -/
  | fence (q : Nat)
  /-- FENCE_COMPLETE (R270). -/
  | fenceComplete (q : Nat)
  /-- CALL_COLL (R267). -/
  | callColl (q : Nat)
  /-- DMA_COPY (R266). -/
  | dmaCopy (q : Nat)
  /-- SEG_RUN (R286). -/
  | segRun (q : Nat)
  /-- DMA_RUN_AHEAD (R420). -/
  | dmaRunAhead (q : Nat)
  /-- DMA_BLOCK (R419). -/
  | dmaBlock (die : Nat) (ch : Nat) (u : Upset) (ptr : Option Nat)
  /-- HAWTHORN_BATCH (R236). -/
  | hawthornBatch (w : BatchWork) (u : Upset)
  /-- LAUREL_BLOCK_PASS (R220). -/
  | laurelBlockPass (die : Nat) (u : Upset)
  /-- TIER_FRAME_RESERVE (R417). -/
  | tierFrameReserve (q : Nat)
  /-- TIER_WRITE_BACK_DONE (R416). -/
  | tierWriteBackDone (die : Nat) (job : Nat) (idx : Nat)
  /-- TIER_MOVE_IN_DONE (R416). -/
  | tierMoveInDone (die : Nat) (job : Nat) (idx : Nat)
  /-- PREEMPT_STOP (R425). -/
  | preemptStop (q : Nat)
  /-- PRIVET_CHUNK (R211). -/
  | privetChunk (job : Nat) (epoch : Nat) (ordinal : Nat) (chunk : Nat) (u : Upset) (ptr : Option Nat)
  /-- DUPLICATE_EXECUTION (R436). -/
  | duplicateExecution (idx : Nat) (v : DupVerdict)
  /-- SELF_TEST (R455). -/
  | selfTest (unit : Nat) (die : Nat) (logical : Nat) (pass : Bool)
  /-- REMAP_APPLY (R229). -/
  | remapApply (unit : Nat) (die : Nat) (logical : Nat)
  /-- DATA (R345). -/
  | dataFrame (lane : Nat) (u : LinkUnit)
  /-- EXPRESS (R146). -/
  | expressCell (lane : Nat) (u : LinkUnit)
  /-- DIGEST (R442). -/
  | digestFrame (lane : Nat) (u : LinkUnit)
  /-- ACK (R441). -/
  | ackFrame (lane : Nat) (u : LinkUnit)
  /-- NAK_CHUNK (R444). -/
  | nakChunk (lane : Nat) (u : LinkUnit)
  /-- RETRACT (R443). -/
  | retractFrame (lane : Nat) (u : LinkUnit)
  /-- ABORT (R463). -/
  | abortCell (lane : Nat) (u : LinkUnit)
  /-- COUNTS (R133). -/
  | countsFrame (lane : Nat) (u : LinkUnit)
  /-- CREDIT (R352). -/
  | creditCell (lane : Nat) (u : LinkUnit)
  /-- LINK_NAK (R351). -/
  | linkNak (lane : Nat) (u : LinkUnit)
  /-- TIME (R304). -/
  | timeFrame (lane : Nat) (u : LinkUnit)
  /-- VOTE (R450). -/
  | voteFrame (lane : Nat) (u : LinkUnit)
  /-- STRETCH (R320). -/
  | stretchCell (lane : Nat) (u : LinkUnit)
  /-- TWIN_GRAD (R477). -/
  | twinGrad (lane : Nat) (u : LinkUnit)
  /-- TWIN_FLIP (R477). -/
  | twinFlip (lane : Nat) (u : LinkUnit)
  /-- TWIN_VOTE (R451). -/
  | twinVote (lane : Nat) (u : LinkUnit)
  /-- TWIN_HELLO (R478). -/
  | twinHello (lane : Nat) (u : LinkUnit)
  /-- TWIN_LEAVE (R479). -/
  | twinLeave (lane : Nat) (u : LinkUnit)
  /-- TWIN_SYNC (R482). -/
  | twinSync (lane : Nat) (u : LinkUnit)
  /-- TWIN_IMAGE_REQUEST (R518). -/
  | twinImageRequest (lane : Nat) (u : LinkUnit)
  /-- TWIN_IMAGE_DATA (R518). -/
  | twinImageData (lane : Nat) (u : LinkUnit)
  /-- UNIT_SELECT (R393). -/
  | unitSelect (lane : Nat)
  /-- UNIT_TX_DONE (R368). -/
  | unitTxDone (lane : Nat) (ptr : Option Nat)
  /-- LINK_RETRY_TIMEOUT (R351). -/
  | linkRetryTimeout (lane : Nat)
  /-- LINK_NAK_REPEAT (R350). -/
  | linkNakRepeat (lane : Nat)
  /-- CREDIT_SEND (R350). -/
  | creditSend (lane : Nat)
  /-- LANE_SIGNAL_DETECT (R359). -/
  | laneSignalDetect (lane : Nat)
  /-- FEC_ALIGNMENT_LOCK (R359). -/
  | fecAlignmentLock (lane : Nat)
  /-- PEER_IDENTITY_CHECK (R359). -/
  | peerIdentityCheck (port : Nat) (words : List Nat) (pol : Bool)
  /-- LANE_DOWN (R46, R359). -/
  | laneDown (lane : Nat) (loss : LaneLoss)
  /-- EARLY_ARRIVAL_ADMIT (R153). -/
  | earlyArrivalAdmit (port : Nat)
  /-- ALLOC_WAIT_GRANT (R375). -/
  | allocWaitGrant (inst : Nat)
  /-- MIRROR_DATA (R548). -/
  | mirrorData
  /-- ORDINAL_ELIGIBLE (R150). -/
  | ordinalEligible (job : Nat) (epoch : Nat) (ordinal : Nat)
  /-- ORDINAL_TIMEOUT (R154). -/
  | ordinalTimeout (job : Nat) (epoch : Nat) (ordinal : Nat)
  /-- CHUNK_TIMER_EXPIRY (R447). -/
  | chunkTimerExpiry (job : Nat) (epoch : Nat) (ordinal : Nat)
  /-- SHORT_WAIT_EXPIRY (R442). -/
  | shortWaitExpiry (job : Nat) (epoch : Nat) (ordinal : Nat) (rank : Nat) (chunk : Nat)
  /-- DIGEST_SEND (R441). -/
  | digestSend (job : Nat) (epoch : Nat) (ordinal : Nat) (lo : Nat) (hi : Nat) (chunk : Nat)
  /-- DIGEST_RESEND (R441). -/
  | digestResend (job : Nat) (epoch : Nat) (ordinal : Nat) (lo : Nat) (hi : Nat) (chunk : Nat) (idx : Nat)
  /-- SHARD_FLIP (R63). -/
  | shardFlip (job : Nat) (shard : Nat)
  /-- OPTIMIZER_STEP_START (R188), with the scalar register that holds CLIP (R193). -/
  | optimizerStepStart (job : Nat) (shard : Nat) (reg : Nat)
  /-- EPOCH_BOUNDARY (R65). -/
  | epochBoundary (job : Nat)
  /-- VOTE_WINDOW_EXPIRY (R450). -/
  | voteWindowExpiry (job : Nat) (epoch : Nat)
  /-- VOTE_CLOSE (R451). -/
  | voteClose (job : Nat) (epoch : Nat)
  /-- TIME_SEND (R303). -/
  | timeSend
  /-- TIME_PARENT_TIMEOUT (R306). -/
  | timeParentTimeout
  /-- MASTER_TIME_START (R302). -/
  | masterTimeStart
  /-- STRETCH_RENEW (R319). -/
  | stretchRenew
  /-- GATE_SWAP (R311). -/
  | gateSwap
  /-- STRETCH_EXPIRY (R322). -/
  | stretchExpiry
  /-- SCHED_MISMATCH (R324). -/
  | schedMismatch (port : Nat)
  /-- HELLO_SEND (R478). -/
  | helloSend
  /-- TWIN_SILENCE_TIMEOUT (R479). -/
  | twinSilenceTimeout
  /-- POWER_WINDOW (R493). -/
  | powerWindow (m : WindowMeas)
  /-- CURRENT_SAMPLE (R489). -/
  | currentSample (rail : Nat) (iDa : Nat) (mv : Nat)
  /-- RAIL_SHORT_DETECT (R489). -/
  | railShortDetect (rail : Nat) (iDa : Nat) (collapsed : Bool)
  /-- SENSE_OPEN_DETECT (R490). -/
  | senseOpenDetect (rail : Nat)
  /-- FEED_STATE_CHANGE (R486). -/
  | feedStateChange (feed : Nat) (v10 : Int)
  /-- FEED_SWITCHOVER (R487). -/
  | feedSwitchover
  /-- FEEDS_LOST (R487). -/
  | feedsLost
  /-- THERMAL_THRESHOLD (R496). -/
  | thermalThreshold (g : SensorGroup) (tempC : Nat)
  /-- INLET_TEMPERATURE (R497): both thermistors in thousandths of a degree Celsius. -/
  | inletTemperature (inletMc : Nat) (outletMc : Nat)
  /-- FLOW_LOW_DETECT (R497). -/
  | flowLowDetect
  /-- POWER_ON (R509). -/
  | powerOn (feed : Nat) (v10 : Int)
  /-- CONFIG_APPLY (R524). -/
  | configApply
  /-- TRAINING_COMPLETE (R510). -/
  | trainingComplete (hbm : List Bool) (ddr : List DimmRead)
  /-- SYNC_TIMEOUT (R510). -/
  | syncTimeout
  /-- IMAGE_REQUEST_REPEAT (R518). -/
  | imageRequestRepeat
  /-- IMAGE_VERIFY_COMPLETE (R517). -/
  | imageVerifyComplete (src : ImageSrc)
  /-- CARRIER_RESET_ASSERT (R588). -/
  | carrierResetAssert
  /-- CARRIER_RESET_RELEASE (R588). -/
  | carrierResetRelease
  /-- LSR_EN_CHANGE (R590). -/
  | lsrEnChange (level : Bool)
  /-- SB3V3_LOSS (R596). -/
  | sb3v3Loss
  /-- I3C_PRIVATE_READ (R587). -/
  | i3cPrivateRead
  /-- I3C_WRITE (R587). -/
  | i3cWrite (bytes : List Byte)
  /-- EXTEST (R569). -/
  | extest (scan : Nat)
  /-- IDCODE (R569). -/
  | idcode
  /-- SAMPLE_PRELOAD (R569). -/
  | samplePreload (scan : Nat)
  /-- RING_SEL (R569). -/
  | ringSel (dr : BitVec 24)
  /-- RING_DATA (R569). -/
  | ringData
  /-- STATE (R569). -/
  | jtagState
  /-- BYPASS (R569). -/
  | bypass (code : BitVec 8)
  /-- FMD_DISCARD (R534). -/
  | fmdDiscard (port : Nat)
  /-- SECURED_MESSAGE_DISCARD (R535). -/
  | securedMessageDiscard (sessionId : Nat) (tagOk : Bool) (seq : Nat)
  /-- ARP_ND_REQUEST (R533). -/
  | arpNdRequest (port : Nat) (target : List Byte)
  /-- ICMP_ECHO (R533). -/
  | icmpEcho (port : Nat) (target : List Byte) (body : List Byte)
  /-- SPDM (R526). -/
  | spdm (h : FmdReq) (m : SpdmMsg)
  /-- KEY_EXCHANGE (R527). -/
  | keyExchange (h : FmdReq) (sessionId : Nat)
  /-- FINISH (R527). -/
  | finish (h : FmdReq) (sessionId : Nat) (rootKey : List Byte) (proofOk : Bool)
  /-- END_SESSION (R538). -/
  | endSession (h : FmdReq)
  /-- GET_MEASUREMENTS (R528). -/
  | getMeasurements (h : FmdReq) (index : Nat)
  /-- SESSION_TIMEOUT (R527). -/
  | sessionTimeout (slot : Nat)
  /-- READ_REG (R543). -/
  | readReg (h : FmdReq) (addr : Word32)
  /-- WRITE_REG (R19). -/
  | writeReg (h : FmdReq) (addr : Word32) (v : Word)
  /-- READ_BLOCK (R543). -/
  | readBlock (h : FmdReq) (addr : Word32) (count : Nat)
  /-- REG_ACCESS_TIMEOUT (R28). -/
  | regAccessTimeout (h : FmdReq) (acc : RegAccess)
  /-- COUNTER_SNAPSHOT_TAKE (R546). -/
  | counterSnapshotTake (h : FmdReq)
  /-- COUNTER_SNAPSHOT_RELEASE (R546). -/
  | counterSnapshotRelease (h : FmdReq)
  /-- SNAPSHOT_FREEZE (R546). -/
  | snapshotFreeze
  /-- SNAPSHOT_EXPIRY (R546). -/
  | snapshotExpiry
  /-- EVENT_RING_READ (R568). -/
  | eventRingRead (h : FmdReq) (ring : Nat) (first : Nat) (count : Nat)
  /-- TRACE_CTRL_START (R563). -/
  | traceCtrlStart (h : FmdReq) (mode : Nat)
  /-- TRACE_CTRL_STOP (R563). -/
  | traceCtrlStop (h : FmdReq)
  /-- TRACE_CTRL_STATUS (R563). -/
  | traceCtrlStatus (h : FmdReq)
  /-- TRACE_CTRL_FILTER (R563). -/
  | traceCtrlFilter (h : FmdReq) (sources : Word) (jobs : BitVec 16)
  /-- TRACE_DRAIN_COMPLETE (R563). -/
  | traceDrainComplete
  /-- TRACE_RECORD_WRITE (R562). -/
  | traceRecordWrite
  /-- ATTN_ACK (R550). -/
  | attnAck (h : FmdReq) (mask : BitVec 16)
  /-- QUEUE_PUSH (R291). -/
  | queuePush (h : FmdReq) (q : Nat) (seq : BitVec 16) (words : List Word)
  /-- TOPIARY_LOAD (R279). -/
  | topiaryLoad (h : FmdReq) (job : Nat)
  /-- TOPIARY_COMMIT (R279). -/
  | topiaryCommit (h : FmdReq) (job : Nat) (tid : Word)
  /-- TOPIARY_ACTIVATE (R279). -/
  | topiaryActivate (job : Nat)
  /-- TOPIARY_UNLOAD (R283). -/
  | topiaryUnload (h : FmdReq) (job : Nat)
  /-- TOPIARY_UNLOAD_COMPLETE (R283). -/
  | topiaryUnloadComplete (job : Nat)
  /-- CHECKPOINT_READ (R545). -/
  | checkpointRead (h : FmdReq) (job : Nat) (close : Bool) (shard : Nat) (plane : Nat) (epoch : Nat) (offset : Nat) (len : Nat)
  /-- CHECKPOINT_READ_TIMEOUT (R545). -/
  | checkpointReadTimeout (job : Nat) (shard : Nat)
  /-- IMAGE_PUSH (R544). -/
  | imagePush (h : FmdReq) (kind : Nat) (job : Nat) (offset : Nat) (bytes : List Byte)
  /-- NVM_WRITE (R513). -/
  | nvmWrite (h : FmdReq) (region : Nat)
  /-- NVM_WRITE_COMPLETE (R513). -/
  | nvmWriteComplete (readBack : List Byte)
  /-- RESET_COLLECTIVE (R470). -/
  | resetCollective (h : FmdReq) (job : Nat) (ordinal : Nat) (epoch : Nat)
  /-- ROLLBACK_EPOCH (R471). -/
  | rollbackEpoch (h : FmdReq) (job : Nat) (epoch : Nat)
  /-- REMAP_UNIT (R469). -/
  | remapUnit (h : FmdReq) (die : Nat) (unit : Nat) (logical : Nat)
  /-- RESYNC_TWIN (R482). -/
  | resyncTwin (h : FmdReq)
  /-- REQUEUE (R297). -/
  | requeue (h : FmdReq) (q : Nat) (epoch : Nat)
  /-- MASTER_RELEASE (R383). -/
  | masterRelease (h : FmdReq) (inst : Nat) (req : Nat)
  /-- MODULE_RESET (R547). -/
  | moduleReset (h : FmdReq) (confirm : Word32)
  /-- TIM_SET (R330). -/
  | timSet (h : FmdReq) (v : Word)
  /-- DETACH (R484). -/
  | detach (h : FmdReq)
  /-- FORCE_SOLO (R484). -/
  | forceSolo (h : FmdReq)
  /-- RETRAIN (R362). -/
  | retrain (h : FmdReq) (lane : Nat) (nakLimit : Nat) (enable : Bool)
  /-- LANE_ENABLE (R362). -/
  | laneEnable (h : FmdReq) (lane : Nat) (nakLimit : Nat) (enable : Bool)
  /-- BURN_CUST (R531). -/
  | burnCust (h : FmdReq)
  /-- SVN_ADVANCE (R531). -/
  | svnAdvance (h : FmdReq) (svn : Nat)
  /-- FUSE_BURN_COMPLETE (R531). -/
  | fuseBurnComplete
  /-- LAG_CLEAR (R158). -/
  | lagClear (h : FmdReq) (die : Nat) (v : Word)
  /-- MIRROR_DEST_WRITE (R548). -/
  | mirrorDestWrite (h : FmdReq) (v : Word)
  /-- MIRROR_CFG_WRITE (R386). -/
  | mirrorCfgWrite (h : FmdReq) (port : Nat) (v : Word)
  /-- POL_DATA_WRITE (R401). -/
  | polDataWrite (h : FmdReq) (v : Word)
  /-- PROFILE_WRITE (R401). -/
  | profileWrite (h : FmdReq) (n : Nat) (w : Nat) (v : Word)
  /-- WEIGHT_WRITE (R397). -/
  | weightWrite (h : FmdReq) (reg : WeightReg) (v : Word)
  /-- AGE_LIMIT_WRITE (R357). -/
  | ageLimitWrite (h : FmdReq) (k : Nat) (v : Word)
  /-- CAP_WRITE (R502). -/
  | capWrite (h : FmdReq) (v : Word)
  /-- RAIL_LIMIT_WRITE (R503). -/
  | railLimitWrite (h : FmdReq) (rail : Nat) (v : Word)
  /-- LAG_SEL_WRITE (R559). -/
  | lagSelWrite (h : FmdReq) (v : Word)
  /-- MASTER_SYNC_ELAPSED (R509). -/
  | masterSyncElapsed
  /-- MIRROR_RING_WRITE (R388). -/
  | mirrorRingWrite
  /-- MGT_PORT_LINK_CHANGE (R553). -/
  | mgtPortLinkChange (port : Nat) (st : Nat) (fec : Bool)
  /-- RECOVERY_OPERATION_COMPLETE (R472). -/
  | recoveryOperationComplete (idx : Nat)
  /-- DELIMITATION_LOST (R345). -/
  | delimitationLost (lane : Nat)
  /-- MIRROR (R345). -/
  | mirrorUnit (lane : Nat) (u : LinkUnit)
  /-- FMD_NOP (R541). -/
  | fmdNop (h : FmdReq)
  /-- RESERVED_OPCODE (R539). -/
  | reservedOpcode (h : FmdReq) (opcode : Nat) (bytes : List Byte)
  deriving DecidableEq, Repr, Inhabited

end Sys2Proof
end

