-- ==== Sys2Proof/Config.lean ====
section
/-! DEFINITION. The values the spec leaves open, as constants without a body: nothing in Lean can
evaluate one, so a statement about one holds for every value. Each is named in a row of the
assumption log. -/

namespace Sys2Proof

/-- Free values in the order in which the machine draws them; the argument is the draw count held
in State. (DESIGN CHOICE, assumption 9). -/
opaque Config.freeWord : Nat → BitVec 64

/-- Which entry of a full TLB a miss replaces (R412 gives sizes and no policy). (DESIGN CHOICE, assumption 13). -/
opaque Config.tlbVictim : Nat → Nat

/-- SHA-512 of a byte string: a named standard whose text is not in the spec. (DESIGN CHOICE, assumption 28). -/
opaque Config.sha512 : List Byte → BitVec 512

/-- RSASSA-PSS verification with SHA-512 (R278, R516): key block, signed bytes, signature.
(DESIGN CHOICE, assumption 28). -/
opaque Config.pssVerify : List Byte → List Byte → List Byte → Bool

/-- RSASSA-PSS signature of the module's identity key over bytes (R526 to R528). (DESIGN CHOICE, assumption 28). -/
opaque Config.identitySign : List Byte → List Byte

/-- AEAD opening of a secured message under a session's keys (R535): session, sequence, bytes.
(DESIGN CHOICE, assumption 28). -/
opaque Config.aeadOpen : Nat → Nat → List Byte → Option (List Byte)

/-- Which zero elements fill an NM group of position codes that holds fewer than N non-zero
elements (R160, R170 name no choice): M, N and the group's non-zero mask give a mask.
(DESIGN CHOICE, assumption 12). -/
opaque Config.nmFill : Nat → Nat → Nat → Nat

/-- The logical scratchpad bank of a byte: the spec names 192 banks a die and no interleaving (R225).
(DESIGN CHOICE, assumption 26). -/
opaque Config.bankOf : Nat → Nat

/-- Bytes of the mask row of an MPR hop whose entry names no descriptor (R173, R288): job, ordinal and byte
index. (DESIGN CHOICE, assumption 21). -/
opaque Config.openMask : Nat → Nat → Nat → BitVec 8

/-- What an entry fixes of the tiles of a hop that no descriptor and no input of the module names (R163, whose encoding
R288 does not show): by TOPIARY_ID and ordinal a width, N, M = 8 and the bitmap form.
(DESIGN CHOICE, assumption 135). -/
opaque Config.openTile : Nat → Nat → Nat × Nat × Bool × Bool

/-- Bytes of the gradient hold area of a job on a die (R200): the Topiary sizes it, and no section of the container
(R277) has a field for it. By TOPIARY_ID, job and die. (DESIGN CHOICE, assumption 51). -/
opaque Config.holdArea : Nat → Nat → Nat → Nat

/-- Whether a read of an overlapping operand finds a 64-byte word after the instruction's write to it, or before
(R256): the draw, the read and the word. (DESIGN CHOICE, assumption 9). -/
opaque Config.overlapAfter : Nat → Nat → Int → Bool

/-- The physical position of a CNV-4800 that is fused off (R29). (DESIGN CHOICE, assumption 3). -/
opaque Config.fusedPosition : Nat

end Sys2Proof
end

