-- ==== Sys2Proof/Machine/Mem.lean ====
section
/-! DEFINITION. Byte memory in one canonical form over the module's physical spaces (R407, R411),
poisoned words (R415) and the CRC-64 of R438. -/

namespace Sys2Proof.Machine

/-- One key space per physical memory: scratchpad and HBM by die, DDR5 once (R407).
(DESIGN CHOICE, assumption 26). -/
def memKey (space die off : Nat) : Nat :=
  (match space with
   | 0 => die % 4
   | 1 => 4 + die % 4
   | _ => 8) * 2 ^ 48 + off

/-- What an unlisted byte reads as: mapped pages start as zeros (R411). (DESIGN CHOICE, assumption 26). -/
def unlistedByte : Byte := 0

/-- The byte under a key in a list in canonical form. -/
def cellGet (cs : List (Nat × Byte)) (k : Nat) : Byte :=
  match cs with
  | [] => unlistedByte
  | (j, b) :: rest => if j = k then b else if k < j then unlistedByte else cellGet rest k

/-- The list in canonical form with `k` holding `b`. -/
def cellSet (cs : List (Nat × Byte)) (k : Nat) (b : Byte) : List (Nat × Byte) :=
  match cs with
  | [] => if b = unlistedByte then [] else [(k, b)]
  | (j, c) :: rest =>
    if k < j then (if b = unlistedByte then (j, c) :: rest else (k, b) :: (j, c) :: rest)
    else if k = j then (if b = unlistedByte then rest else (k, b) :: rest)
    else (j, c) :: cellSet rest k b

/-- The canonical form: keys strictly rising above `lo`, no byte equal to an unlisted one. -/
def cellsWf (lo : Nat) : List (Nat × Byte) → Bool
  | [] => true
  | (k, b) :: rest => lo ≤ k && b != unlistedByte && cellsWf (k + 1) rest

/-- The memory's cells are in canonical form. -/
def Memory.wf (m : Memory) : Bool := cellsWf 0 m.cells

/-- Read one byte. (DESIGN CHOICE, assumption 26). -/
def Memory.get (m : Memory) (k : Nat) : Byte := cellGet m.cells k

/-- Write one byte; poison is left alone. -/
def Memory.put (m : Memory) (k : Nat) (b : Byte) : Memory := { m with cells := cellSet m.cells k b }

/-- Read `n` bytes from a key. -/
def Memory.getBytes (m : Memory) (k : Nat) : Nat → List Byte
  | 0 => []
  | n + 1 => m.get k :: m.getBytes (k + 1) n

/-- Write bytes from a key on. -/
def Memory.putBytes (m : Memory) (k : Nat) : List Byte → Memory
  | [] => m
  | b :: bs => (m.put k b).putBytes (k + 1) bs

/-- The 64-byte words that lie wholly inside [k, k + n) lose their poison (R415). -/
def Memory.cleanWords (m : Memory) (k n : Nat) : Memory :=
  { m with poison := m.poison.filter (fun w => !(k ≤ w && w + 64 ≤ k + n)) }

/-- A write of a run of bytes: the bytes land, and wholly covered words are no longer poisoned. -/
def Memory.writeRun (m : Memory) (k : Nat) (bs : List Byte) : Memory :=
  (m.putBytes k bs).cleanWords k bs.length

/-- Whether a read of [k, k + n) meets a poisoned word. -/
def Memory.poisonedIn (m : Memory) (k n : Nat) : Bool :=
  m.poison.any (fun w => k < w + 64 && w < k + n)

/-- Mark the 64-byte word that holds `k` poisoned. (DEDUCED, assumption 110). -/
def Memory.setPoison (m : Memory) (k : Nat) : Memory :=
  let w := k / 64 * 64
  if m.poison.contains w then m else { m with poison := w :: m.poison }

/-- Remove every listed byte in [k, k + n), so that it reads as zero, and its poison. -/
def Memory.zeroRange (m : Memory) (k n : Nat) : Memory :=
  { cells := m.cells.filter (fun c => !(k ≤ c.1 && c.1 < k + n))
    poison := m.poison.filter (fun w => !(k ≤ w && w < k + n)) }

/-- Copy of a range between keys, poison included word by word (R415): only listed bytes move. -/
def Memory.copyRange (m : Memory) (src dst n : Nat) : Memory :=
  let cs := m.cells.filter (fun c => src ≤ c.1 && c.1 < src + n)
  let ps := m.poison.filter (fun w => src ≤ w && w < src + n)
  let m1 := cs.foldl (fun m c => m.put (dst + (c.1 - src)) c.2) (m.zeroRange dst n)
  ps.foldl (fun acc w => acc.setPoison (dst + (w - src))) m1

end Sys2Proof.Machine
end

