-- ==== Sys2Proof/Machine/State.lean ====
section
/-! DEFINITION. The state of the module, its reset, and the reasons a command can stop. Everything
is plain data. -/

namespace Sys2Proof.Machine

/-- A loaded Topiary: its header (R276) and its sections (R277). -/
structure Topiary where
  job : Nat := 0
  /-- The smallest grade that it fits (R10, R276). -/
  grade : Nat := 0
  priority : Nat := 0
  domainModules : Nat := 1
  schedId : Nat := 0
  topiaryId : Nat := 0
  schedRate : Nat := 1600
  epochLimit : Nat := 2
  voteK : Nat := 1
  reserved : Bool := false
  gateOwner : Bool := false
  voteWindowUs : Nat := 100
  startTime : Nat := 0
  stateDigest : List Byte := []
  /-- The STATE section's bytes, whose SHA-512 R185 takes. -/
  stateBytes : List Byte := []
  segs : List (List Word) := []
  /-- Descriptors by handle (R249). -/
  descs : List (Nat × Nat) := []
  maps : List MapRec := []
  colls : List CollEntry := []
  routes : List RouteRec := []
  states : List StateEntry := []
  /-- Hyperparameter tables by handle: rows of ten FP32 patterns (R193). -/
  hypers : List (Nat × List (List Nat)) := []
  qbinds : List QBind := []
  /-- BUFRES records: instance, pool, REQ_ID, MIN, MAX (R384). -/
  bufres : List (Nat × Nat × Nat × Nat × Nat) := []
  deriving DecidableEq, Repr, Inhabited

/-- One event-ring entry (R567). -/
structure RingEntry where
  time : Nat
  code : Nat
  cont : Bool
  data : Nat
  deriving DecidableEq, Repr, Inhabited

/-- The state of the module. (DESIGN CHOICE, assumption 112). -/
structure State where
  /-- Commands that wait, first in first out. -/
  pending : List Instr := []
  /-- Nanoseconds of the module's own clock since reset; timers are kept in it. -/
  now : Nat := 0
  /-- Fabric time (R301). -/
  fabricTime : Nat := 0
  comp : Comp := {}
  tops : List Topiary := []
  /-- Event rings by RING number, newest entry first (R567). -/
  rings : List (Nat × List RingEntry) := []
  /-- MGT.ATTN bits [14:8] in place (R550). -/
  attn : BitVec 16 := 0
  /-- The model's own: how many free values have been drawn. -/
  freeCtr : Nat := 0
  /-- The active stretch factor in quarters: 4, 5 or 6 (R317). -/
  stretchQ : Nat := 4
  /-- MGT.ID.GRADE: 0 CNV-6400, 1 CNV-4800 (R529). -/
  grade : Nat := 0
  fab : Fab := {}
  coll : CollSt := {}
  integ : Integ := {}
  pwr : Pwr := {}
  mgt : Mgt := {}
  dbg : Dbg := {}
  snap : Option Snap := none
  pins : Pins := {}
  deriving DecidableEq, Repr, Inhabited

/-- The module right after reset (R22): every field has the reset value its register's rule states,
or the value that a row of the assumption log names. (DESIGN CHOICE, assumption 3). -/
def State.reset : State := {}

/-- Why a command ends in a fault. No command does: every row of the table has an effect that the
spec gives, and a command whose condition does not hold changes nothing (assumption 1).
(DESIGN CHOICE, assumption 1). -/
inductive Fault where
  deriving DecidableEq, Repr

/-- Why a command is refused. (DESIGN CHOICE, assumption 1). -/
inductive Refusal where
  /-- The command has no meaning in this model yet; raised by an arm of `exec` alone. Safe: nothing is
  claimed of the command. -/
  | notModelled (mnemonic : String)
  deriving DecidableEq, Repr

end Sys2Proof.Machine
end

