-- ==== Sys2Proof/Machine/Ops.lean ====
section
/-! DEFINITION. The named operations over state that every family uses: event rings and attention
bits, queue access, translation and its faults (R407 to R414), executor arbitration (R424), halting
(R295, R296) and the advance of a queue past a word (R292). -/

namespace Sys2Proof.Machine

/-- Whether die `d` exists in the grade: a CNV-4800 has dies 0 to 2 (R6). -/
def dieExists (s : State) (d : Nat) : Bool := d < (if s.grade = 0 then 4 else 3)

/-- Whether the module is forward-only: the state DEGRADED, or a DEGRADED fuse record (R456, R508).
(DEDUCED, assumption 59). -/
def forwardOnly (s : State) : Bool := s.mgt.st == .degraded || s.integ.degraded

/-! ### Attention and event rings -/

/-- Set attention bits of MGT.ATTN (R550). -/
def setAttn (s : State) (bits : BitVec 16) : State := { s with attn := s.attn ||| bits }

/-- INTEG (R550). -/
def aInteg : BitVec 16 := 0x4000
/-- FAULT (R550). -/
def aFault : BitVec 16 := 0x2000
/-- POWER (R550). -/
def aPower : BitVec 16 := 0x1000
/-- TWIN (R550). -/
def aTwin : BitVec 16 := 0x0800
/-- SCHED (R550). -/
def aSched : BitVec 16 := 0x0400
/-- SEC (R550). -/
def aSec : BitVec 16 := 0x0200
/-- TRACE_WRAP (R550). -/
def aTraceWrap : BitVec 16 := 0x0100

/-- Write a record of one or more entries to an event ring, head first; a ring holds 64 entries,
newest at index 0 (R567). -/
def ringLog (s : State) (ring code : Nat) (datas : List Nat) : State :=
  let t := s.fabricTime % 2 ^ 48
  let es := datas.zipIdx.map (fun p => (⟨t, code, p.2 != 0, p.1 % 2 ^ 64⟩ : RingEntry))
  let old := lookupD s.rings ring []
  { s with rings := insertKey s.rings ring ((es.reverse ++ old).take 64) }

/-- The ring of a die's unit: 0x10 Laurel, 0x11 MMU, 0x12 DMA, 0x13 QUE (R567). -/
def dieRing (die unit : Nat) : Nat := 0x100 * (die + 1) + unit

/-- A 64-bit counter that saturates at all ones. -/
def satAdd (x n : Nat) : Nat := min (x + n) (2 ^ 64 - 1)

/-- Add to MMU.CNT[k] of a die (R430). -/
def bumpMmu (s : State) (die k n : Nat) : State :=
  let i := 16 * die + k
  { s with comp := { s.comp with
      mmuCnt := insertKey s.comp.mmuCnt i (satAdd (lookupD s.comp.mmuCnt i 0) n) } }

/-- The next free value, and the state that has drawn it. (DESIGN CHOICE, assumption 9). -/
def drawFree (s : State) : BitVec 64 × State :=
  (Config.freeWord s.freeCtr, { s with freeCtr := s.freeCtr + 1 })

/-! ### Queues -/

/-- Queue `q`; an unlisted number reads as an unbound queue. -/
def queueAt (s : State) (q : Nat) : Queue := s.comp.queues.getD q {}

/-- Change queue `q`. -/
def setQueue (s : State) (q : Nat) (f : Queue → Queue) : State :=
  { s with comp := { s.comp with queues := s.comp.queues.modify q f } }

/-- The Topiary that a job runs. -/
def topOf (s : State) (job : Nat) : Option Topiary := s.tops.find? (fun t => t.job == job)

/-- A job's priority (R423). -/
def jobPriority (s : State) (job : Nat) : Nat :=
  match topOf s job with
  | some t => t.priority
  | none => 0

/-- The words of a code segment (R285). -/
def segWords (s : State) (job seg : Nat) : List Word :=
  match topOf s job with
  | some t => t.segs.getD seg []
  | none => []

/-- The word a queue stands at (R292, R298). -/
def currentWord (s : State) (q : Nat) : Option Word :=
  let Q := queueAt s q
  if Q.inSeg then (segWords s Q.job Q.seg)[Q.pc]? else Q.ring.head?

/-- Whether two bound queues use a common executor (R284, R419, R423). -/
def sharesExec (qa : Nat) (a : Queue) (qb : Nat) (b : Queue) : Bool :=
  a.bound && b.bound && a.qtype == b.qtype && a.die == b.die &&
  match a.qtype with
  | .coll => false
  | .vec => a.gangFirst < b.gangFirst + b.gangSize && b.gangFirst < a.gangFirst + a.gangSize
  | .mtx => true
  | .dma => qa % 32 == qb % 32

/-- Whether a queue holds its executor: one in RUN, or frozen out of RUN. (DEDUCED, assumption 23). -/
def holdsExec (Q : Queue) : Bool :=
  Q.st == .run || (Q.st == .frozen && Q.frozenFrom == .run)

/-- The queues that hold an executor that `q` needs. -/
def blockers (s : State) (q : Nat) : List Nat :=
  (List.range 64).filter (fun r =>
    r != q && holdsExec (queueAt s r) && sharesExec q (queueAt s q) r (queueAt s r))

/-- The code of a result (R549). -/
def Res.code : Res → Nat
  | .ok => 0 | .busy => 1 | .state => 2 | .range => 3 | .align => 4 | .auth => 5
  | .unitAbsent => 6 | .frozen => 7 | .aborted => 8 | .verify => 9 | .quota => 10
  | .deadline => 11 | .format => 12

/-- Head entry of a halt record (R567). -/
def haltHead (q : Nat) (Q : Queue) (cause : Res) (inSeg : Bool) (seg pc : Nat) : Nat :=
  q <<< 58 + (Q.job % 16) <<< 54 + cause.code <<< 46 + (if inSeg then 1 else 0) <<< 45
    + (seg % 4096) <<< 33 + pc % 2 ^ 32

/-- Write a halt record to the queue engine's ring and set SCHED (R296). -/
def haltRecord (s : State) (q : Nat) (cause : Res) (detail : Nat)
    (inSeg : Bool) (seg pc : Nat) (w : Word) : State :=
  let Q := queueAt s q
  setAttn (ringLog s (dieRing Q.die 0x13) 0x20
    [haltHead q Q cause inSeg seg pc, w.toNat, detail]) aSched

/-- Add to QUE.CNT[k] of the die that a bound queue's QBIND names (R557, R558). (DEDUCED, assumption 88). -/
def bumpQue (s : State) (q k : Nat) : State :=
  let Q := queueAt s q
  if !Q.bound then s
  else { s with dbg := { s.dbg with
      queCnt := insertKey s.dbg.queCnt (8 * Q.die + k) (satAdd (lookupD s.dbg.queCnt (8 * Q.die + k) 0) 1) } }

/-- The counter of QUE.CNT that a halt adds to (R558). (DEDUCED, assumption 88). -/
def haltCounter (cause : Res) : Nat :=
  match cause with
  | .deadline => 2
  | .aborted => 3
  | _ => 4

/-- The ring index or PC that SWC.QSTAT reports (R298). -/
def queuePc (Q : Queue) : Nat := if Q.inSeg then Q.pc else Q.head % 8192

/-- Where a queue's contexts lie in its job's CONTEXT page, with their lengths: one for each chain group of a gang,
the Laurel array's, or the channel's (R427). (DESIGN CHOICE, assumption 138). -/
def contextAreas (s : State) (q : Nat) : List (Nat × Nat) :=
  let Q := queueAt s q
  match (topOf s Q.job).bind (fun t => t.maps.find? (fun r => r.space == 4 && r.die == Q.die)) with
  | none => []
  | some r =>
    let base := memKey 1 r.die (r.phys * 2 ^ 21)
    match Q.qtype with
    | .vec => (List.range Q.gangSize).map (fun i => (base + 256 * (Q.gangFirst + i), 256))
    | .mtx => [(base + 0x8000, 64)]
    | .dma => [(base + 0x9000 + 0x800 * (q % 32), 0x800)]
    | .coll => []

/-- Whether reading a queue's saved context meets a poisoned word (R427). (DEDUCED, assumption 18). -/
def contextBad (s : State) (q : Nat) : Bool :=
  (queueAt s q).ctxSaved && (contextAreas s q).any (fun a => s.comp.mem.poisonedIn a.1 a.2)

/-- A queue's context goes to the CONTEXT page (R425, R427): the layouts are internal, so that every byte is open.
(DESIGN CHOICE, assumption 138). -/
def saveContext (s : State) (q : Nat) : State :=
  let s := (contextAreas s q).foldl (fun s a => (List.range (a.2 / 8)).foldl (fun s i =>
    let (w, s) := drawFree s
    { s with comp := { s.comp with mem := s.comp.mem.putBytes (a.1 + 8 * i) (leBytes 8 w.toNat) } }) s) s
  let s := (contextAreas s q).foldl (fun s a =>
    { s with comp := { s.comp with mem := s.comp.mem.cleanWords a.1 a.2 } }) s
  setQueue s q (fun Q => { Q with ctxSaved := true })

/-- Tier-cache frames held for a queue are held no longer (R417). -/
def releaseFrames (s : State) (q : Nat) : State :=
  { s with comp := { s.comp with
      frames := s.comp.frames.map (fun kf =>
        (kf.1, kf.2.map (fun f => { f with heldBy := f.heldBy.filter (· != q) })))
      tierFaults := s.comp.tierFaults.filter (fun t => t.queue != q) } }

/-- A queue that takes its executor enters RUN, or resumes the wait it had pending (R294); one that has nothing left to
issue then is IDLE. A context that cannot be read back halts it with VERIFY (R427). (DEDUCED, assumption 18). -/
def enterRun (s : State) (q : Nat) : State :=
  if contextBad s q then
    let Q := queueAt s q
    let w := (currentWord s q).getD 0
    let s := haltRecord s q .verify 0 Q.inSeg Q.seg (queuePc Q) w
    setQueue s q (fun Q => { Q with st := .halted, cause := some .verify, wait := .none
                                    work := none, chain := none, ctxSaved := false
                                    lastHalt := some (s.now, Q.st, ⟨.verify, 0, Q.inSeg, Q.seg, queuePc Q, w⟩) })
  else if (queueAt s q).wait = .none && !(queueAt s q).inSeg && (queueAt s q).ring.isEmpty then
    releaseFrames (setQueue s q (fun Q => { Q with st := .idle, stopAsked := false, ctxSaved := false })) q
  else setQueue s q (fun Q =>
    { Q with st := if Q.wait = .none then .run else .wait, stopAsked := false, ctxSaved := false })

/-- Executor arbitration for a queue that is ready to issue (R424). -/
def arbitrate (s : State) (q : Nat) : State :=
  let bs := blockers s q
  let prio := jobPriority s (queueAt s q).job
  if bs.isEmpty then enterRun s q
  else
    let s := setQueue s q (fun Q => { Q with st := .preempted })
    if bs.all (fun r => jobPriority s (queueAt s r).job < prio) then
      bs.foldl (fun s r => setQueue s r (fun R => { R with stopAsked := true })) s
    else s

/-- Waiting queues take freed executors, highest priority first, then the lower number (R424). -/
def schedule (s : State) : State :=
  let waiting := (List.range 64).filter (fun q => (queueAt s q).st == .preempted)
  [3, 2, 1, 0].foldl (fun s p =>
    waiting.foldl (fun s q =>
      if (queueAt s q).st == .preempted && jobPriority s (queueAt s q).job == p
      then arbitrate s q else s) s) s

/-- Discard a queue's run-ahead (R421); MMU.CNT[8] counts a squash that discards something. -/
def squash (s : State) (q : Nat) : State :=
  let Q := queueAt s q
  if Q.runAhead = 0 then s
  else bumpMmu (setQueue s q (fun Q => { Q with runAhead := 0 })) Q.die 8 1

/-- Every queue of a job discards its run-ahead (R421). -/
def squashJob (s : State) (job : Nat) : State :=
  (List.range 64).foldl (fun s q => if (queueAt s q).bound && (queueAt s q).job == job then squash s q else s) s

/-- The halt of a queue at a given word of record (R294 to R296): a frozen queue keeps the halt
pending, a queue that is IDLE or HALTED does not move. (DEDUCED, assumption 23). -/
def haltAt (s : State) (q : Nat) (cause : Res) (detail : Nat)
    (inSeg : Bool) (seg pc : Nat) (w : Word) : State :=
  let Q := queueAt s q
  match Q.st with
  | .idle | .halted => s
  | .frozen =>
    setQueue s q (fun Q =>
      { Q with pendingHalt := match Q.pendingHalt with
                 | some h => some h
                 | none => some ⟨cause, detail, inSeg, seg, pc, w⟩ })
  | _ =>
    let s := bumpQue (haltRecord s q cause detail inSeg seg pc w) q (haltCounter cause)
    let s := squash s q
    let s := setQueue s q (fun Q =>
      { Q with st := .halted, cause := some cause, wait := .none, work := none, chain := none
               mtxBusy := false, stopAsked := false, deadline := 0
               lastHalt := some (s.now, Q.st, ⟨cause, detail, inSeg, seg, pc, w⟩) })
    schedule (releaseFrames s q)

/-- A halt at the queue's current word. -/
def haltQueue (s : State) (q : Nat) (cause : Res) (detail : Nat) : State :=
  let Q := queueAt s q
  haltAt s q cause detail Q.inSeg Q.seg (queuePc Q) ((currentWord s q).getD 0)

/-- The queue leaves its word (R292): the next word of the segment, or the next ring word; an empty
ring with no segment running is IDLE (R294). -/
def advance (s : State) (q : Nat) : State :=
  let s := setQueue s q (fun Q =>
    if Q.inSeg then { Q with pc := Q.pc + 1, runAhead := Q.runAhead - 1 }
    else { Q with ring := Q.ring.tail, head := (Q.head + 1) % 2 ^ 14, runAhead := Q.runAhead - 1 })
  let Q := queueAt s q
  if !Q.inSeg && Q.ring.isEmpty then
    schedule (releaseFrames (setQueue s q (fun Q => { Q with st := .idle, stopAsked := false })) q)
  else s

/-- The queue leaves RUN for WAIT and gives its executor up (R293, R294). -/
def enterWait (s : State) (q : Nat) (w : WaitKind) : State :=
  let s := match w with
    | .flag _ => bumpQue s q 7
    | _ => s
  schedule (setQueue s q (fun Q => { Q with st := .wait, wait := w, stopAsked := false }))

/-- The wait of a queue is over and the queue stands at the word that follows (R292). -/
def leaveWord (s : State) (q : Nat) : State :=
  setQueue s q (fun Q =>
    if Q.inSeg then { Q with pc := Q.pc + 1, wait := .none, deadline := 0 }
    else { Q with ring := Q.ring.tail, head := (Q.head + 1) % 2 ^ 14
                  wait := .none, deadline := 0 })

/-- A queue in WAIT whose wait is over takes its executor (R294, R424): RUN, PREEMPTED while another queue holds the
executor, or from RUN at once IDLE where no word is left. -/
def resumeQueue (s : State) (q : Nat) : State :=
  let s := arbitrate s q
  if (queueAt s q).st = .idle then schedule s else s

/-- A wait ends: the queue moves past its word and takes its executor. A FROZEN queue takes it at its thaw (R294). -/
def endWait (s : State) (q : Nat) : State :=
  let s := leaveWord s q
  if (queueAt s q).st = .wait then resumeQueue s q else s

/-! ### Floating-point flags -/

/-- OR flags into an FPFLAGS register; LAST_JOB names the job when a flag is set (R94). -/
def FpReg.setFlags (r : FpReg) (f : FpFlags) (job : Nat) : FpReg :=
  if f = 0 then r else { flags := r.flags ||| f, lastJob := job }

/-- Flags of a chain group (R93). -/
def flagVec (s : State) (die g : Nat) (f : FpFlags) (job : Nat) : State :=
  let i := 128 * die + g
  if f = 0 then s else
  { s with comp := { s.comp with
      fpVec := insertKey s.comp.fpVec i ((lookupD s.comp.fpVec i {}).setFlags f job) } }

/-- Flags of a Privet engine (R93). -/
def flagRde (s : State) (die e : Nat) (f : FpFlags) (job : Nat) : State :=
  let i := 16 * die + e
  if f = 0 then s else
  { s with comp := { s.comp with
      fpRde := insertKey s.comp.fpRde i ((lookupD s.comp.fpRde i {}).setFlags f job) } }

/-- Flags of a Laurel array (R93). -/
def flagMtx (s : State) (die : Nat) (f : FpFlags) (job : Nat) : State :=
  if f = 0 then s else
  { s with comp := { s.comp with
      fpMtx := insertKey s.comp.fpMtx die ((lookupD s.comp.fpMtx die {}).setFlags f job) } }

/-- The chain groups of a queue's gang. -/
def gangGroups (Q : Queue) : List Nat := (List.range Q.gangSize).map (· + Q.gangFirst)

/-- Flags of every group of a gang (R246). -/
def flagGang (s : State) (Q : Queue) (f : FpFlags) : State :=
  (gangGroups Q).foldl (fun s g => flagVec s Q.die g f Q.job) s

/-! ### Job flags (R268, R271) -/

/-- Flag `f` of a job. -/
def jobFlag (s : State) (job f : Nat) : Bool := natBit (lookupD s.comp.jobFlags job 0) f

/-- Write flag `f` of a job. -/
def setJobFlag (s : State) (job f : Nat) (b : Bool) : State :=
  let m := lookupD s.comp.jobFlags job 0
  { s with comp := { s.comp with
      jobFlags := insertKey s.comp.jobFlags job (setField m f f (if b then 1 else 0)) } }

/-! ### Translation -/

/-- Page size of a space (R407). -/
def pageSize (space : Nat) : Nat := if space = 0 then 2 ^ 16 else 2 ^ 21

/-- The record of the job that holds a virtual address (R407, R409). -/
def findMap (t : Topiary) (va : Int) : Option MapRec :=
  t.maps.find? (fun r =>
    r.space ≤ 2 && decide ((r.va : Int) ≤ va) && decide (va < (r.va + r.count * pageSize r.space : Nat)))

/-- The tier-cache frames of a job on a die. -/
def framesOf (s : State) (job die : Nat) : List Frame := lookupD s.comp.frames (16 * die + job) []

/-- Replace a job's frames on a die. -/
def setFrames (s : State) (job die : Nat) (fs : List Frame) : State :=
  { s with comp := { s.comp with frames := insertKey s.comp.frames (16 * die + job) fs } }

/-- The frame in which a tiered page is resident (R416, R418). -/
def residentFrame (s : State) (job die page : Nat) : Option Frame :=
  (framesOf s job die).find? (fun f => f.st == .resident page)

/-- The physical key of a byte of a record: a tiered page's current copy is its resident frame, or
its DDR5 home (R418). -/
def physKey (s : State) (job : Nat) (r : MapRec) (va : Nat) : Nat :=
  let off := va - r.va
  match r.space with
  | 0 => memKey 0 r.die (r.phys * 2 ^ 16 + off)
  | 1 => memKey 1 r.die (r.phys * 2 ^ 21 + off)
  | _ =>
    match residentFrame s job r.die (va / 2 ^ 21) with
    | some f => memKey 1 r.die (f.hbmPage * 2 ^ 21 + va % 2 ^ 21)
    | none => memKey 2 0 (r.phys * 2 ^ 21 + off)

/-- The physical key of a virtual address of a job. -/
def xlate (s : State) (job : Nat) (va : Int) : Option Nat :=
  match topOf s job with
  | none => none
  | some t => (findMap t va).map (fun r => physKey s job r va.toNat)

/-- Read one byte by virtual address; an address without a record reads nothing and gives zero, and
no instruction reaches it past its pre-check (R413). -/
def readVA (s : State) (job : Nat) (va : Int) : Byte :=
  match xlate s job va with
  | some k => s.comp.mem.get k
  | none => 0

/-- Read `n` bytes by virtual address. -/
def readVAs (s : State) (job : Nat) (va : Int) (n : Nat) : List Byte :=
  (List.range n).map (fun (i : Nat) => readVA s job (va + i))

/-- Mark the frame of a written tiered page dirty (R417). -/
def touchDirty (s : State) (job : Nat) (va : Int) : State :=
  match topOf s job with
  | none => s
  | some t =>
    match findMap t va with
    | some r =>
      if r.space = 2 then
        setFrames s job r.die ((framesOf s job r.die).map (fun f =>
          if f.st == .resident (va.toNat / 2 ^ 21) then { f with dirty := true } else f))
      else s
    | none => s

/-- Write one byte by virtual address. -/
def writeVA (s : State) (job : Nat) (va : Int) (b : Byte) : State :=
  match xlate s job va with
  | some k => { s with comp := { s.comp with mem := s.comp.mem.put k b } }
  | none => s

/-- Write a run of bytes by virtual address; 64-byte words that it covers lose their poison. -/
def writeVAs (s : State) (job : Nat) (va : Int) (bs : List Byte) : State :=
  let s := bs.zipIdx.foldl (fun s p => writeVA s job (va + p.2) p.1) s
  let s := (List.range (bs.length / 64 + 1)).foldl (fun s (i : Nat) =>
    let w := ((va + 63) / 64 + i) * 64
    if w + 64 ≤ va + bs.length then
      match xlate s job w with
      | some k => { s with comp := { s.comp with mem := s.comp.mem.cleanWords k 64 } }
      | none => s
    else s) s
  touchDirty (touchDirty s job va) job (va + bs.length - 1)

/-- One access that a unit's pre-check translates (R413): its address, length and direction, and
the SPACE its descriptor names. -/
structure Acc where
  va : Int
  len : Nat
  write : Bool
  space : Nat
  deriving DecidableEq, Repr, Inhabited

/-- The units of MMU.FAULT.UNIT (R428). -/
inductive MUnit where
  | group | laurel | dma | host
  deriving DecidableEq, Repr, Inhabited

/-- The code of a unit (R428). -/
def MUnit.code : MUnit → Nat
  | .group => 0 | .laurel => 1 | .dma => 2 | .host => 3

/-- The pieces of an access cut at 64 KiB boundaries, the smallest page size; `fuel` bounds their
number. -/
def piecesFrom : Nat → Int → Nat → List (Int × Nat)
  | 0, _, _ => []
  | _, _, 0 => []
  | fuel + 1, va, len =>
    let room := 65536 - (va % 65536).toNat
    if len ≤ room then [(va, len)] else (va, room) :: piecesFrom fuel (va + room) (len - room)

/-- The pieces of an access. -/
def pieces (a : Acc) : List (Int × Nat) := piecesFrom (a.len / 65536 + 2) a.va a.len

/-- The rows of the mask tensor that a descriptor names through MASK_H, as byte ranges: one bit per element, each
row padded to 8 bytes (R173, R249, R250). -/
def maskRows (t : Topiary) (handle : Nat) : List (Int × Nat) :=
  let link := lookupD t.descs handle 0 >>> 352
  if natBit link 12 then
    let m := lookupD t.descs (natField link 11 0) 0
    let size (i : Nat) : Nat := max 1 (natField m (95 + 32 * i) (64 + 32 * i))
    let step (k : Nat) : Int := signExt 48 (m >>> (192 + 48 * (k - 1)))
    (List.range (size 1 * size 2 * size 3)).map (fun (n : Nat) =>
      ((natField m 47 0 : Nat) + (n % size 1 : Nat) * step 1 + (n / size 1 % size 2 : Nat) * step 2
        + (n / (size 1 * size 2) : Nat) * step 3, (size 0 + 63) / 64 * 8))
  else []

/-- Whether a range of addresses touches a mask tensor that an MPR entry of the job names (R174). -/
def isMprMask (t : Topiary) (va : Int) (len : Nat) : Bool :=
  t.colls.any (fun e =>
    (e.inputs.any (fun i => i.layout == 3) || e.outputs.any (fun o => o.layout == 3)) &&
    e.buffers.any (fun b => (maskRows t b.1).any (fun r =>
      decide (r.1 < va + (len : Nat)) && decide (va < r.1 + (r.2 : Nat)))))

/-- The fault kind of one piece of an access by a unit of a die, in the order of R414's table. -/
def pieceFault (s : State) (job die : Nat) (u : MUnit) (a : Acc) (p : Int × Nat) : Option Nat :=
  match topOf s job with
  | none => some 1
  | some t =>
    match (if p.1 < 0 then none else findMap t p.1) with
    | none => some 1
    | some r =>
      if r.space ≠ a.space then some 2
      else if (u = .group ∨ u = .laurel) ∧ r.die ≠ die then some 3
      else if (a.write ∧ ¬ r.write) ∨ (¬ a.write ∧ ¬ r.read) then some 4
      else if a.write ∧ isMprMask t p.1 p.2 then some 4
      else if ¬ a.write ∧ u ≠ .dma ∧ s.comp.mem.poisonedIn (physKey s job r p.1.toNat) p.2 then some 5
      else none

/-- The tiered pages that an access by a chain group needs resident. -/
def tieredPages (s : State) (job : Nat) (a : Acc) : List Nat :=
  match topOf s job with
  | none => []
  | some t => (pieces a).filterMap (fun p =>
      match findMap t p.1 with
      | some r => if r.space = 2 then some (p.1.toNat / 2 ^ 21) else none
      | none => none)

/-- What a pre-check finds (R413, R416). -/
inductive Pre where
  | ok
  | fault (kind : Nat) (va : Int) (write : Bool)
  | tier (pages : List Nat)
  deriving DecidableEq, Repr

/-- The first fault among accesses, in their order. -/
def firstFault (s : State) (job die : Nat) (u : MUnit) : List Acc → Option (Nat × Int × Bool)
  | [] => none
  | a :: rest =>
    match (pieces a).findSome? (fun p => (pieceFault s job die u a p).map (fun k => (k, p.1, a.write))) with
    | some f => some f
    | none => firstFault s job die u rest

/-- The pre-check of a piece of work (R413): the first fault; else, for a chain group, the tiered
pages it needs when one is not resident; else nothing. -/
def preCheck (s : State) (job die : Nat) (u : MUnit) (accs : List Acc) : Pre :=
  match firstFault s job die u accs with
  | some (k, va, w) => .fault k va w
  | none =>
    if u = .group then
      let ps := (accs.flatMap (tieredPages s job)).eraseDups
      if ps.all (fun p => (residentFrame s job die p).isSome) then .ok else .tier ps
    else .ok

/-- The cause of a fault kind (R414). -/
def faultCause : Nat → Res
  | 4 => .auth
  | 5 => .verify
  | _ => .range

/-- MMU.FAULT of a new fault (R428). -/
def faultWord (kind : Nat) (u : MUnit) (write : Bool) (q : Nat) (va : Int) : Nat :=
  2 ^ 63 + kind <<< 60 + u.code <<< 58 + (if write then 2 ^ 57 else 0) + (q % 64) <<< 51
    + wrapInt 48 va

/-- Record a fault in MMU.FAULT[j] and the counters of its die (R414, R428, R430). -/
def recordFault (s : State) (job die : Nat) (kind : Nat) (u : MUnit) (write : Bool) (q : Nat)
    (va : Int) : State :=
  let s := { s with comp := { s.comp with
    mmuFault := insertKey s.comp.mmuFault (16 * die + job) (faultWord kind u write q va) } }
  if kind ≤ 3 then bumpMmu s die 3 1 else if kind = 4 then bumpMmu s die 4 1 else s

/-- A translation fault of a queue's unit halts the queue at its word (R414). -/
def translationFault (s : State) (q : Nat) (kind : Nat) (u : MUnit) (va : Int) (write : Bool) :
    State :=
  let Q := queueAt s q
  haltQueue (recordFault s Q.job Q.die kind u write q va) q (faultCause kind) 0

/-- A tier fault suspends the queue's unit: its context is saved and the queue waits (R416); work
that needs more pages than the job has frames on the die halts with QUOTA (R417). -/
def tierFault (s : State) (q : Nat) (pages : List Nat) : State :=
  let Q := queueAt s q
  let s := bumpMmu s Q.die 0 1
  if (framesOf s Q.job Q.die).length < pages.length then haltQueue s q .quota 0
  else
    let s := { s with comp := { s.comp with
      tierFaults := s.comp.tierFaults ++ [⟨q, Q.job, Q.die, pages, false⟩] } }
    enterWait (saveContext s q) q .tier

/-- The resident tier-cache frames that a chain group's work uses stay held until its next restart point (R417). -/
def holdFrames (s : State) (q : Nat) (pages : List Nat) : State :=
  let Q := queueAt s q
  setFrames s Q.job Q.die ((framesOf s Q.job Q.die).map (fun f =>
    match f.st with
    | .resident p => if pages.contains p && !f.heldBy.contains q then { f with heldBy := f.heldBy ++ [q] } else f
    | _ => f))

/-- TLB fills of a unit (R412): a page that the TLB does not hold is a miss, MMU.CNT[5] counts it,
and a full TLB replaces an entry that the spec does not name. (DESIGN CHOICE, assumption 13). -/
def tlbTouch (s : State) (die unit cap job : Nat) (pages : List Nat) : State :=
  pages.foldl (fun s p =>
    let key := 1024 * die + unit
    let es := lookupD s.comp.tlb key []
    if es.contains (job, p) then s
    else
      let es' := if es.length < cap then es ++ [(job, p)]
        else es.set (Config.tlbVictim s.freeCtr % cap) (job, p)
      let s := bumpMmu s die 5 1
      { s with freeCtr := s.freeCtr + 1, comp := { s.comp with tlb := insertKey s.comp.tlb key es' } })
    s

/-- Every TLB of a die drops a translation (R412). -/
def tlbDrop (s : State) (die : Nat) (p : Nat × Nat → Bool) : State :=
  { s with comp := { s.comp with
      tlb := s.comp.tlb.map (fun u =>
        if u.1 / 1024 = die then (u.1, u.2.filter (fun e => !p e)) else u) } }

/-- The first 64 KiB of the page of a job that holds an address: pages of scratchpad are 64 KiB, others 2 MiB (R407). -/
def pageOf (s : State) (job : Nat) (va : Int) : Nat :=
  match (topOf s job).bind (fun t => findMap t va) with
  | some r => if r.space = 0 then va.toNat / 2 ^ 16 else va.toNat / 2 ^ 21 * 32
  | none => va.toNat / 2 ^ 16

/-- The pages of a job that accesses touch, each once. -/
def accPages (s : State) (job : Nat) (accs : List Acc) : List Nat :=
  (accs.flatMap (fun a => (pieces a).map (fun p => pageOf s job p.1))).eraseDups

/-- Event-ring entry, counter and attention of an uncorrectable error (R415, R430).
(DEDUCED, assumption 67; DEDUCED, assumption 110). -/
def uncorrectableNote (s : State) (die key : Nat) : State :=
  let sp := key / 2 ^ 48
  let data := (if sp < 4 then 0 else if sp < 8 then 1 else 2) <<< 62 + (sp % 4) <<< 60 + key % 2 ^ 48
  setAttn (bumpMmu (ringLog s (dieRing die 0x11) 0x03 [data]) die 7 1) aInteg

end Sys2Proof.Machine
end

