-- ==== Sys2Proof/Machine/Clock.lean ====
section
/-! DEFINITION. What one nanosecond does: the module's clock and fabric time advance, and the FLAG_WAIT
deadlines of waiting queues run down (R269, R300, R301). -/

namespace Sys2Proof.Machine

/-- One nanosecond of a queue's FLAG_WAIT deadline: it runs in WAIT and pauses while PREEMPTED or
FROZEN (R269, R300). (DESIGN CHOICE, assumption 4). -/
def tickQueue (Q : Queue) : Queue :=
  match Q.st, Q.wait with
  | .wait, .flag _ => { Q with deadline := Q.deadline - 1 }
  | _, _ => Q

/-- The steering step of one nanosecond: at most one nanosecond in 20 000, which is R301's 50 ppm.
(DESIGN CHOICE, assumption 4; DEDUCED, assumption 41). -/
def slewStep (s : State) : Int :=
  let t := s.fab.tim
  if t.slew = 0 || s.now < t.slewAt + 20000 then 0 else if 0 < t.slew then 1 else -1

/-- One nanosecond. (DESIGN CHOICE, assumption 4; DEDUCED, assumption 41; DESIGN CHOICE, assumption 113). -/
def tick (s : State) : State :=
  let d := slewStep s
  let s := if d = 0 then s
    else { s with fab := { s.fab with tim := { s.fab.tim with slew := s.fab.tim.slew - d, slewAt := s.now } } }
  { s with now := s.now + 1, fabricTime := ((s.fabricTime : Int) + 1 + d).toNat
           comp := { s.comp with queues := s.comp.queues.map tickQueue } }

end Sys2Proof.Machine
end

