-- ==== Sys2Proof/Machine/Operands.lean ====
section
/-! DEFINITION. Operand forms: the fields of the instruction word (R238), scalar operands (R245),
tensor descriptors and handles (R249 to R253), element addressing (R250), masks (R255) and digest
feeds (R273). -/

namespace Sys2Proof.Machine

/-! ### The instruction word (R238, R239) -/

/-- OPCODE, bits [63:56]. -/
def wOpcode (w : Word) : Nat := field w 63 56
/-- GE, bit [55]. -/
def wGE (w : Word) : Bool := field w 55 55 == 1
/-- GN, bit [54]. -/
def wGN (w : Word) : Bool := field w 54 54 == 1
/-- GP, bits [53:51]. -/
def wGP (w : Word) : Nat := field w 53 51
/-- SD of class S, and HD, H, CNT-independent top register field: bits [50:47]. -/
def wR3 (w : Word) : Nat := field w 50 47
/-- SA of classes S and H, HA of V and M, HS of D: bits [46:43]. -/
def wR2 (w : Word) : Nat := field w 46 43
/-- SB of class S, HB of V and M: bits [42:39]. -/
def wR1 (w : Word) : Nat := field w 42 39
/-- HC of classes V and M: bits [38:35]. -/
def wR0 (w : Word) : Nat := field w 38 35
/-- IM of class S, bit [38]. -/
def wIM (w : Word) : Bool := field w 38 38 == 1
/-- IMM32, BOUND and ORDINAL: bits [31:0]. -/
def wImm (w : Word) : Word32 := BitVec.ofNat 32 (field w 31 0)
/-- CNT of class B, bits [49:47]. -/
def wCnt (w : Word) : Nat := field w 49 47
/-- OFF of class B, signed. -/
def wOff (w : Word) : Int := signExt 24 (field w 23 0)
/-- FLAG of class Y, bits [50:43]. -/
def wYFlag (w : Word) : Nat := field w 50 43
/-- DL of class Y, bits [23:0]. -/
def wDL (w : Word) : Nat := field w 23 0

/-- The guard turns the word into a no-operation (R239). -/
def guardOff (Q : Queue) (w : Word) : Bool := wGE w && (Q.p.getD (wGP w) false == wGN w)

/-- Scalar register `i`. -/
def sreg (Q : Queue) (i : Nat) : Word32 := Q.s.getD i 0

/-- The second operand of class S (R245). -/
def operand2 (Q : Queue) (w : Word) : Word32 := if wIM w then wImm w else sreg Q (wR1 w)

/-- Whether (x COND y) holds for the signed conditions of R248; codes 6 and 7 are reserved. -/
def condHolds (cond : Nat) (x y : Word32) : Bool :=
  match cond with
  | 0 => x == y
  | 1 => x != y
  | 2 => x.toInt < y.toInt
  | 3 => x.toInt ≤ y.toInt
  | 4 => x.toInt > y.toInt
  | _ => x.toInt ≥ y.toInt

/-- The value a comparator watches (R248). -/
def compSource (Q : Queue) (k : Comparator) : Word32 :=
  if k.scalar then Q.s.getD k.src 0 else Q.c.getD (k.src % 8) 0

/-- Every armed comparator drives its predicate. Evaluating one whose source was not written leaves
its predicate as it stands, since it already holds the outcome (R248). -/
def driveComparators (Q : Queue) : Queue :=
  Q.k.foldl (fun Q k =>
    if k.armed then { Q with p := Q.p.set k.pred (condHolds k.cond (compSource Q k) k.bound) }
    else Q) Q

/-- Write a scalar register and drive the comparators. -/
def writeS (Q : Queue) (i : Nat) (v : Word32) : Queue := driveComparators { Q with s := Q.s.set i v }

/-- Write a counter and drive the comparators. -/
def writeC (Q : Queue) (i : Nat) (v : Word32) : Queue := driveComparators { Q with c := Q.c.set i v }

/-! ### Descriptors (R249, R251) -/

/-- VALID. -/
def dValid (d : Nat) : Bool := natBit d 63
/-- LAYOUT. -/
def dLayout (d : Nat) : Nat := natField d 62 60
/-- SPARSE. -/
def dSparse (d : Nat) : Bool := natBit d 59
/-- RANKM1. -/
def dRankM1 (d : Nat) : Nat := natField d 58 57
/-- FMT. -/
def dFmt (d : Nat) : Nat := natField d 56 52
/-- SPACE. -/
def dSpace (d : Nat) : Nat := natField d 51 48
/-- BASE. -/
def dBase (d : Nat) : Nat := natField d 47 0
/-- SIZE[i]. -/
def dSize (d i : Nat) : Nat := natField d (64 + 32 * i + 31) (64 + 32 * i)
/-- STRIDE[k], k = 1 to 3, a signed 48-bit byte stride. -/
def dStride (d k : Nat) : Int := signExt 48 (d >>> (192 + 48 * (k - 1)))
/-- The link word, bytes 44 to 51. -/
def dLink (d : Nat) : Nat := natField d 415 352

/-- The four sizes, 1 beyond the rank. -/
def dSizes (d : Nat) : List Nat := [dSize d 0, dSize d 1, dSize d 2, dSize d 3]

/-- The strides of dimensions 1 to 3. -/
def dStrides (d : Nat) : List Int := [dStride d 1, dStride d 2, dStride d 3]

/-- The number of elements of a size list. -/
def sizeProd (sz : List Nat) : Nat := sz.foldl (· * ·) 1

/-- The limits that R159 sets on the innermost size of a sparse layout. (DEDUCED, assumption 120). -/
def widthOk (layout m w : Nat) : Bool :=
  match layout with
  | 0 => 8 ≤ w && w ≤ 65536 && w % m == 0
  | 1 => 8 ≤ w && w ≤ 65536
  | 2 | 3 => 8 ≤ w && w ≤ 65536 && w % 8 == 0
  | _ => 32 ≤ w && w ≤ 2048 && w % 32 == 0

/-- The FORMAT checks of R251 that need the descriptor alone; INT64's uses are checked by the
instruction. -/
def descOk (d : Nat) : Bool :=
  let r := dRankM1 d
  let link := dLink d
  dValid d && (Fmt.ofCode (dFmt d)).isSome && dSpace d ≤ 2 && (!dSparse d || dLayout d ≤ 4)
  && (List.range 4).all (fun i => if i ≤ r then dSize d i != 0 else dSize d i == 1)
  && dStride d 1 % 8 == 0 && (r < 2 || dStride d 2 % 8 == 0) && (r < 3 || dStride d 3 % 8 == 0)
  && sizeProd (dSizes d) ≤ 2 ^ 40
  && match Fmt.ofCode (dFmt d) with
     | some f =>
       (!f.isMx || (natBit link 38 && dSize d 0 % 32 == 0 && !dSparse d))
       && (!dSparse d || (natBit link 25
            && (dLayout d != 3 || natBit link 12)
            && (dLayout d != 0 || natField link 45 44 == 1 || natField link 45 44 == 2)
            && widthOk (dLayout d) (if natBit link 46 then 8 else 4) (dSize d 0)))
     | none => false

/-- A linked tensor advanced by the handle's rows (R252). -/
def linkOf (t : Topiary) (handle : Nat) (rows : Int) (perRow : Option Int) : Option Linked :=
  let d := lookupD t.descs handle 0
  if dValid d then
    some ⟨dBase d + rows * perRow.getD (dStride d 1), dStrides d, dSpace d, dSizes d⟩
  else none

/-- Resolve the descriptor that a handle register names (R249 to R252). -/
def resolve (t : Topiary) (h : Handle) : Except Res Tensor :=
  let d := lookupD t.descs h.handle.toNat 0
  if !descOk d then .error .format
  else
    let link := dLink d
    let off := h.offset.toInt
    let link? (on : Nat) (lo : Nat) (perRow : Option Int) : Except Res (Option Linked) :=
      if natBit link on then
        match linkOf t (natField link (lo + 11) lo) off perRow with
        | some l => .ok (some l)
        | none => .error .format
      else .ok none
    match link? 12 0 none, link? 25 13 (some 4), link? 38 26 none, Fmt.ofCode (dFmt d) with
    | .ok m, .ok dir, .ok sc, some f =>
      .ok { handle := h.handle.toNat, rank := dRankM1 d + 1, fmt := f, space := dSpace d
            base := dBase d + off * dStride d 1
            sizes := dSizes d, strides := dStrides d
            sparse := dSparse d, layout := dLayout d
            nmN := natField link 45 44, nmM := if natBit link 46 then 8 else 4
            nmBitmap := natBit link 47
            mask := m, dir := dir, scale := sc
            digest := if natBit link 39 then some (natField link 43 40) else none }
    | _, _, _, _ => .error .format

/-- Resolve the tensors of several handle registers in their order. -/
def resolveAll (t : Topiary) (Q : Queue) : List Nat → Except Res (List Tensor)
  | [] => .ok []
  | r :: rest =>
    match resolve t (Q.h.getD r {}), resolveAll t Q rest with
    | .ok x, .ok xs => .ok (x :: xs)
    | .error e, _ => .error e
    | _, .error e => .error e

/-- The alignment of an effective base (R253). -/
def baseAligned (t : Tensor) : Bool := t.base % 8 == 0

/-- The alignment of a matrix operand (R253). -/
def matrixAligned (t : Tensor) : Bool :=
  t.base % 64 == 0 && (t.strides.take (max 1 (t.rank - 1))).all (· % 64 == 0)

/-! ### Elements (R250) -/

/-- Number of elements of a tensor. -/
def elemCount (t : Tensor) : Nat := sizeProd t.sizes

/-- Coordinates of element `n` in element order, dimension 0 fastest. -/
def coordsOf (sizes : List Nat) (n : Nat) : List Nat :=
  match sizes with
  | [] => []
  | z :: rest => n % max 1 z :: coordsOf rest (n / max 1 z)

/-- The byte offset of the row of coordinates (i0, i1, i2, i3). -/
def rowOffset (strides : List Int) (coords : List Nat) : Int :=
  (strides.zip coords.tail).foldl (fun a p => a + p.1 * p.2) 0

/-- Coordinates of an operand for destination coordinates, with broadcasting (R254). -/
def broadcastCoords (sizes coords : List Nat) : List Nat :=
  (sizes.zip coords).map (fun p => if p.1 = 1 then 0 else p.2)

/-- Whether an operand's sizes match or broadcast to a destination's (R254). -/
def shapesMatch (op d : List Nat) : Bool := (op.zip d).all (fun p => p.1 == p.2 || p.1 == 1)

/-- Address of the first byte of an element, and its bit offset there. -/
def elemAddr (t : Tensor) (coords : List Nat) : Int × Nat :=
  let bit := coords.headD 0 * t.fmt.bits
  (t.base + rowOffset t.strides coords + (bit / 8 : Nat), bit % 8)

/-- Bytes that hold an element. -/
def elemBytes (t : Tensor) (coords : List Nat) : Nat := ((elemAddr t coords).2 + t.fmt.bits + 7) / 8

/-- The access of an element. -/
def elemAcc (t : Tensor) (coords : List Nat) (write : Bool) : Acc :=
  ⟨(elemAddr t coords).1, elemBytes t coords, write, t.space⟩

/-- Address of an element's block scale (R250). -/
def scaleAddr (l : Linked) (coords : List Nat) : Int :=
  l.base + rowOffset l.strides coords + (coords.headD 0 / 32 : Nat)

/-- Address and bit of an element's mask bit (R173, R250). -/
def maskAddr (l : Linked) (coords : List Nat) : Int × Nat :=
  (l.base + rowOffset l.strides coords + (coords.headD 0 / 8 : Nat), coords.headD 0 % 8)

/-- The raw bits of an element. -/
def readElem (s : State) (job : Nat) (t : Tensor) (coords : List Nat) : Nat :=
  let (va, bit) := elemAddr t coords
  natField (leVal (readVAs s job va (elemBytes t coords))) (bit + t.fmt.bits - 1) bit

/-- The block scale byte of an element; 0x7F for a tensor without one. -/
def readScale (s : State) (job : Nat) (t : Tensor) (coords : List Nat) : Nat :=
  match t.scale with
  | some l => (readVA s job (scaleAddr l coords)).toNat
  | none => 0x7F

/-- The value of an element (R75, R77, R78). -/
def readValue (s : State) (job : Nat) (t : Tensor) (coords : List Nat) : FVal :=
  t.fmt.decode (if t.fmt.isMx then readScale s job t coords else 0) (readElem s job t coords)

/-- Whether an element is computed: its mask bit is 1, or no mask is in force (R255). -/
def maskBit (s : State) (job : Nat) (l : Linked) (coords : List Nat) : Bool :=
  let (va, bit) := maskAddr l coords
  natBit (readVA s job va).toNat bit

/-- The accesses that reading an element makes: its bytes and its block scale. -/
def readAccs (t : Tensor) (coords : List Nat) : List Acc :=
  elemAcc t coords false ::
  (match t.fmt.isMx, t.scale with
   | true, some l => [⟨scaleAddr l coords, 1, false, l.space⟩]
   | _, _ => [])

/-- The accesses that writing an element makes. -/
def writeAccs (t : Tensor) (coords : List Nat) : List Acc :=
  elemAcc t coords true ::
  (match t.fmt.isMx, t.scale with
   | true, some l => [⟨scaleAddr l coords, 1, true, l.space⟩]
   | _, _ => [])

/-- The access of a mask bit. -/
def maskAcc (l : Linked) (coords : List Nat) : Acc := ⟨(maskAddr l coords).1, 1, false, l.space⟩

/-- The index of the element at given coordinates, in element order. -/
def elemIndex (sizes coords : List Nat) : Nat :=
  ((sizes.zip coords).foldr (fun p a => p.2 + p.1 * a) 0)

/-- The write of one element that is a whole number of bytes. -/
def elemWrite (t : Tensor) (coords : List Nat) (raw : Nat) : WriteOp :=
  ⟨(elemAddr t coords).1, leBytes (t.fmt.bits / 8) raw, t.space, t.digest, elemIndex t.sizes coords⟩

/-- Pack consecutive elements of `w` bits, lowest first (R74). -/
def packBits (w : Nat) (els : List Nat) : Nat := els.foldr (fun x a => x % 2 ^ w + a <<< w) 0

/-- The writes of one encoded MX block: its element bytes, then its scale (R74, R76). -/
def blockWrite (t : Tensor) (coords : List Nat) (scale : Nat) (els : List Nat) : List WriteOp :=
  let n := elemIndex t.sizes coords
  ⟨(elemAddr t coords).1, leBytes (4 * t.fmt.bits) (packBits t.fmt.bits els), t.space, t.digest, n⟩ ::
  (match t.scale with
   | some l => [⟨scaleAddr l coords, [BitVec.ofNat 8 scale], l.space, t.digest, n⟩]
   | none => [])

/-- The access of a write. -/
def WriteOp.acc (w : WriteOp) : Acc := ⟨w.va, w.bytes.length, true, w.space⟩

/-- The bytes of a write by address. -/
def WriteOp.cells (w : WriteOp) : List (Int × Byte) := w.bytes.zipIdx.map (fun p => (w.va + (p.2 : Nat), p.1))

/-- The byte range of one row of a dense tensor. -/
def rowRange (t : Tensor) (r : Nat) : Int × Nat :=
  let coords := coordsOf t.sizes (r * t.sizes.headD 1)
  ((elemAddr t coords).1, t.fmt.bytes (t.sizes.headD 1))

/-- The number of rows of a tensor. -/
def rowCount (t : Tensor) : Nat := sizeProd t.sizes.tail

/-- The CRC-64 of R438 continued over bytes. -/
def crc64From (crc : Nat) (bs : List Byte) : Nat := crcMsb 64 0x42F0E1EBA9EA3693 crc bs

/-- The CRC-64 of R438. -/
def crc64 (bs : List Byte) : Nat := crc64From 0 bs

/-- Feed written bytes to a digest accumulator of a queue (R273). (DEDUCED, assumption 16). -/
def feedDigest (Q : Queue) (slot : Nat) (bs : List Byte) : Queue :=
  { Q with digests := Q.digests.set slot (crc64From (Q.digests.getD slot 0) bs) }

/-- The digest feeds of writes, in their order: slot and bytes. -/
def feedsOf (ws : List WriteOp) : List (Nat × List Byte) :=
  ws.filterMap (fun w => w.slot.map (fun k => (k, w.bytes)))

/-- The feeds at the front of a queue's list that wait for nothing any more are fed; the fuel is the list's
length (R273). -/
def drainFeeds : Nat → Queue → Queue
  | 0, Q => Q
  | n + 1, Q =>
    match Q.feeds with
    | (_, some xs) :: rest => drainFeeds n (xs.foldl (fun Q x => feedDigest Q x.1 x.2) { Q with feeds := rest })
    | _ => Q

/-- An instruction of the queue has written: its feeds follow those of every earlier instruction (R273). A
dispatched instruction has its place in the list already. (DEDUCED, assumption 16). -/
def feedAll (Q : Queue) (id : Option Nat) (xs : List (Nat × List Byte)) : Queue :=
  let fs := match id with
    | some k => Q.feeds.map (fun p => if p.1 = k then (p.1, some xs) else p)
    | none => if xs.isEmpty then Q.feeds else Q.feeds ++ [(Q.feedNext, some xs)]
  let Q := { Q with feeds := fs, feedNext := if id.isNone then Q.feedNext + 1 else Q.feedNext }
  drainFeeds fs.length Q

/-- A dispatched instruction that feeds a digest takes its place in its queue's list (R273).
(DEDUCED, assumption 16). -/
def holdFeed (s : State) (q : Nat) (id : Option Nat) : State :=
  match id with
  | some k => setQueue s q (fun Q => { Q with feeds := Q.feeds ++ [(k, none)], feedNext := k + 1 })
  | none => s

/-- A dispatched instruction of a queue ends: what it has written is fed in its place (R273).
(DEDUCED, assumption 16). -/
def feedHeld (s : State) (q : Nat) (id : Option Nat) (xs : List (Nat × List Byte)) : State :=
  match id with
  | some k => setQueue s q (fun Q => feedAll Q (some k) xs)
  | none => s

/-- Write the bytes of a piece of work in their order. -/
def writeOps (s : State) (job : Nat) (ws : List WriteOp) : State :=
  ws.foldl (fun s w => writeVAs s job w.va w.bytes) s

/-- Commit the writes of an instruction in their order, with their digest feeds. (DEDUCED, assumption 16). -/
def commitWrites (s : State) (q job : Nat) (ws : List WriteOp) : State :=
  let s := writeOps s job ws
  let xs := feedsOf ws
  if xs.isEmpty then s else setQueue s q (fun Q => feedAll Q none xs)

end Sys2Proof.Machine
end

