-- ==== Sys2Proof/Machine/Dot.lean ====
section
/-! DEFINITION. The native dot product (R113 to R117) and ALIGNED16 (R118 to R122). -/

namespace Sys2Proof.Machine

/-- A list of values with the flags collected so far. -/
def addPairs : List Nat → List Nat × FpFlags
  | a :: b :: rest =>
    let (s, f) := fadd a b
    let (ys, g) := addPairs rest
    (s :: ys, f ||| g)
  | [a] => ([a], 0)
  | [] => ([], 0)

/-- One group of up to 16 products: four levels of adjacent sums; an absent right child passes the
left value on (R113). -/
def groupSum (ps : List Nat) : Nat × FpFlags :=
  let (q1, f1) := addPairs ps
  let (q2, f2) := addPairs q1
  let (q3, f3) := addPairs q2
  let (q4, f4) := addPairs q3
  (q4.headD 0, f1 ||| f2 ||| f3 ||| f4)

/-- Consecutive pieces of `k` elements; the fuel is the list's length. -/
def chunksFuel {α : Type} (k : Nat) : Nat → List α → List (List α)
  | 0, _ => []
  | _, [] => []
  | fuel + 1, xs => xs.take k :: chunksFuel k fuel (xs.drop k)

/-- Consecutive pieces of `k` elements, the last one shorter. -/
def chunksOf {α : Type} (k : Nat) (xs : List α) : List (List α) := chunksFuel k xs.length xs

/-- Insert before the first element that `le` does not put earlier. -/
def insertBy {α : Type} (le : α → α → Bool) (x : α) : List α → List α
  | [] => [x]
  | y :: ys => if le x y then x :: y :: ys else y :: insertBy le x ys

/-- Stable sort. -/
def sortBy {α : Type} (le : α → α → Bool) (xs : List α) : List α := xs.foldr (insertBy le) []

/-- A product position: the two operand values, or a pruned 2:4 position (R117). -/
abbrev DotTerm := Option (FVal × FVal)

/-- One rounded product; a pruned position is +0 (R113, R117). -/
def dotProduct : DotTerm → Nat × FpFlags
  | none => (0, 0)
  | some (a, b) => rounded enc32 (mulV a b)

/-- Add group values to the accumulator in ascending order (R113). (DEDUCED, assumption 8). -/
def accumulate (acc : Nat) (gs : List (Nat × FpFlags)) : Nat × FpFlags :=
  gs.foldl (fun st g =>
    let (s, f) := fadd st.1 g.1
    (s, st.2 ||| f ||| g.2)) (acc, 0)

/-- The native dot product as an FP32 accumulator: `c` is MMAC's C entered into FP32, or the
accumulator of an earlier block pass (R113, R116). (DEDUCED, assumption 8). -/
def dotNative (ts : List DotTerm) (c : Option Nat) : Nat × FpFlags :=
  let ps := ts.map dotProduct
  let pf := ps.foldl (fun f p => f ||| p.2) 0
  let gs := (chunksOf 16 (ps.map Prod.fst)).map groupSum
  match c, gs with
  | some a, gs => let (r, f) := accumulate a gs; (r, f ||| pf)
  | none, g :: gs => let (r, f) := accumulate g.1 gs; (r, f ||| g.2 ||| pf)
  | none, [] => (0, pf)

/-- The input flush of ALIGNED16 (R118): a subnormal becomes a zero of its sign. -/
def flushIn (f : Fmt) (b : Nat) : FVal × FpFlags :=
  match f.decode 0 b with
  | .fin n m e =>
    if m != 0 && f.spec.isTiny m e then (.fin n 0 0, fFlush) else (.fin n m e, 0)
  | v => (v, 0)

/-- floor(m × 2^s) of a signed mantissa, and whether a discarded bit was 1 (R119). -/
def floorShift (n : Bool) (m : Nat) (s : Int) : Int × Bool :=
  if 0 ≤ s then (shiftUp (signed n m) s, false)
  else
    let k := 2 ^ (-s).toNat
    (signed n m / (k : Int), m % k != 0)

/-- A group value of ALIGNED16 (R119, R120). -/
def alignedGroup (ps : List (FVal × FpFlags)) : FVal × FpFlags :=
  let vs := ps.map Prod.fst
  let f := ps.foldl (fun a p => a ||| p.2) 0
  if vs.any FVal.isNan then (.nan, f)
  else if vs.any FVal.isInf then
    let pos := vs.any (fun v => v == .inf false)
    let neg := vs.any (fun v => v == .inf true)
    if pos && neg then (.nan, f ||| fInvalid) else (.inf neg, f)
  else
    match maxExp vs with
    | none => (.zero, f)
    | some emax =>
      let as := vs.map (fun v => match v with
        | .fin n m e => floorShift n m (e + 42 - emax)
        | _ => (0, false))
      let s : Int := as.foldl (fun a p => a + p.1) 0
      let f := f ||| flagIf (as.any Prod.snd) fInexact
      if s = 0 then (.zero, f) else (.fin (s < 0) s.natAbs (emax - 42), f)

/-- The ALIGNED16 dot product as an FP32 accumulator starting at `acc` (R118 to R121). -/
def dotAligned (ts : List (FVal × FVal)) (acc : Nat) : Nat × FpFlags :=
  let gs := (chunksOf 16 (ts.map (fun t => mulV t.1 t.2))).map alignedGroup
  gs.foldl (fun st g =>
    let (r, f) := rounded enc32 (addV (dec32 st.1) g.1)
    (r, st.2 ||| f ||| g.2)) (acc, 0)

/-- The operand formats of a dot product (R114). -/
def dotOperandOk (f : Fmt) : Bool := f.isFloat || f.isMx

/-- The C formats of MMAC (R114). -/
def dotCOk (f : Fmt) : Bool := f == .fp32 || f == .bf16 || f == .fp16

/-- The operand formats of ALIGNED16 (R118). -/
def alignedOperandOk (f : Fmt) : Bool := f == .bf16 || f == .e4m3 || f == .e5m2

end Sys2Proof.Machine
end

