-- ==== Sys2Proof/Machine/Sparse.lean ====
section
/-! DEFINITION. Sparse tiles: layouts and headers (R159 to R164), the format check (R165), decoding
with its anomalies (R177), the record merge (R169) and the formation of a tile (R166, R170). -/

namespace Sys2Proof.Machine

/-- What an entry or descriptor fixes for a tile (R159, R163). -/
structure TileSpec where
  w : Nat
  layout : Nat
  n : Nat
  m : Nat
  bitmap : Bool
  fmt : Fmt
  deriving DecidableEq, Repr, Inhabited

/-- A record: position in the operand and raw value (R162). -/
abbrev Rec := Nat × Nat

/-- A decoded tile. -/
structure TileRecs where
  recs : List Rec
  anomalies : List Nat
  size : Nat
  deriving DecidableEq, Repr, Inhabited

/-- Padding to the next 8-byte boundary (R159). -/
def pad8 (n : Nat) : Nat := (n + 7) / 8 * 8

/-- Elements that a tile covers (R159). -/
def TileSpec.elems (t : TileSpec) : Nat := if t.layout = 4 then 32 * t.w else t.w

/-- First row of tile `i` (R159). -/
def TileSpec.firstRow (t : TileSpec) (i : Nat) : Nat := if t.layout = 4 then 32 * i else i

/-- Bytes of the dense form, D of R166. -/
def TileSpec.denseBytes (t : TileSpec) : Nat := pad8 (t.fmt.bytes t.elems)

/-- Bits of a position code. -/
def TileSpec.codeBits (t : TileSpec) : Nat := if t.m = 8 then 3 else 2

/-- Bytes of the metadata section. -/
def TileSpec.metaBytes (t : TileSpec) (nnz : Nat) : Nat :=
  match t.layout with
  | 0 => if t.bitmap then pad8 (ceilDiv t.w 8) else pad8 (ceilDiv (t.w / t.m * t.n * t.codeBits) 8)
  | 1 => pad8 (4 * nnz)
  | 2 => pad8 (t.w / 8)
  | 3 => 0
  | _ => pad8 (ceilDiv (t.w / 32) 8)

/-- Bytes of the values section. -/
def TileSpec.valueBytes (t : TileSpec) (nnz : Nat) : Nat :=
  pad8 (t.fmt.bytes (if t.layout = 4 then 1024 * nnz else nnz))

/-- LAYOUT of a tile header (R163). -/
def thLayout (h : Nat) : Nat := natField h 63 61
/-- DENSE. -/
def thDense (h : Nat) : Bool := natBit h 60
/-- NNZ. -/
def thNnz (h : Nat) : Nat := natField h 51 32

/-- The header of a tile (R163). -/
def tileHeader (t : TileSpec) (dense : Bool) (nnz : Nat) : Nat :=
  t.layout <<< 61 + (if dense then 2 ^ 60 else 0)
    + (if t.layout = 0 then t.n <<< 58 + (if t.m = 8 then 2 ^ 57 else 0)
         + (if t.bitmap then 2 ^ 56 else 0) else 0)
    + nnz <<< 32 + (t.w - 1)

/-- The framing check of one header (R165). -/
def headerOk (t : TileSpec) (h : Nat) : Bool :=
  thLayout h == t.layout && natField h 15 0 == t.w - 1
  && (if t.layout = 0 then natField h 59 58 == t.n && natBit h 57 == (t.m == 8)
        && natBit h 56 == t.bitmap
      else natField h 59 56 == 0)
  && (if thDense h then thNnz h == 0
      else if t.layout = 4 then thNnz h ≤ t.w / 32
      else if t.layout = 0 && !t.bitmap then thNnz h == t.w / t.m * t.n
      else thNnz h ≤ t.w)

/-- Bytes of a tile from its header. -/
def tileSize (t : TileSpec) (h : Nat) : Nat :=
  8 + (if thDense h then t.denseBytes else t.metaBytes (thNnz h) + t.valueBytes (thNnz h))

/-- Bits of a byte string, LSB-first. -/
def bitAt (bs : List Byte) (i : Nat) : Bool := natBit (bs.getD (i / 8) 0).toNat (i % 8)

/-- A field of `w` bits at bit `i` of a byte string, LSB-first. -/
def bitsAt (bs : List Byte) (i w : Nat) : Nat := natField (leVal bs) (i + w - 1) i

/-- Element `i` of a packed value section. -/
def valueAt (f : Fmt) (bs : List Byte) (i : Nat) : Nat :=
  let k := f.bits / 8
  leVal (slice bs (i * k) k)

/-- Give the positions their values in order; a position past the `nnz` values reads +0. -/
def assign (f : Fmt) (vals : List Byte) (nnz base : Nat) (ps : List Nat) : List Rec :=
  ps.zipIdx.map (fun p => (base + p.1, if p.2 < nnz then valueAt f vals p.2 else 0))

/-- Anomalies 0x5 and 0x6 of a tile (R177). (DEDUCED, assumption 11). -/
def countAnoms (nnz used : Nat) : List Nat :=
  (if nnz < used then [5] else []) ++ (if used < nnz then [6] else [])

/-- Positions and anomalies of an NM tile (R160, R162, R177). -/
def nmPositions (t : TileSpec) (md : List Byte) : List Nat × List Nat :=
  let gs := List.range (t.w / t.m)
  if t.bitmap then
    let per := gs.map (fun g => (List.range t.m).filter (fun i => bitAt md (t.m * g + i)))
    (gs.flatMap (fun g => ((per.getD g []).take t.n).map (fun i => g * t.m + i)),
     per.filterMap (fun ps => if t.n < ps.length then some 1 else none))
  else
    let code (g i : Nat) := bitsAt md ((g * t.n + i) * t.codeBits) t.codeBits
    (gs.flatMap (fun g => (List.range t.n).map (fun i => g * t.m + code g i)),
     gs.filterMap (fun g =>
       if (List.range (t.n - 1)).all (fun i => code g i < code g (i + 1)) then none else some 2))

/-- Positions and anomalies of an IDX tile (R177): `row` and `s` are the row number and the element
count of the operand. (DEDUCED, assumption 11). -/
def idxPositions (t : TileSpec) (row s nnz : Nat) (md : List Byte) : List Nat × List Nat :=
  let ps := (List.range nnz).map (fun k =>
    let i := leVal (slice md (4 * k) 4)
    if i < t.w then (row * t.w + i, false) else ((row * t.w + i) % max 1 s, true))
  let pos := ps.map Prod.fst
  (pos, (List.range nnz).flatMap (fun k =>
    (if (ps.getD k (0, false)).2 then [3] else []) ++
    (if 0 < k && pos.getD k 0 ≤ pos.getD (k - 1) 0 then [4] else [])))

/-- The elements of a tile in tile order, as indices of its row, or band for BLK (R162). -/
def tileOrder (t : TileSpec) : List Nat :=
  if t.layout = 4 then
    (List.range (t.w / 32)).flatMap (fun b => (List.range 1024).map (fun i => i / 32 * t.w + b * 32 + i % 32))
  else List.range t.w

/-- Where an element of an operand, given by its row-major index, stands in tile order (R162). -/
def tilePos (t : TileSpec) (p : Nat) : Nat :=
  if t.layout = 4 then
    let i := p % t.elems
    p - i + i % t.w / 32 * 1024 + i / t.w * 32 + i % 32
  else p

/-- The row-major index of a position in tile order. -/
def rowPos (t : TileSpec) (p : Nat) : Nat :=
  if t.layout = 4 then
    let i := p % t.elems
    p - i + i % 1024 / 32 * t.w + i / 1024 * 32 + i % 32
  else p

/-- Elements held in tile order, put row by row. -/
def rowMajor (t : TileSpec) (xs : List Nat) : List Nat :=
  if t.layout = 4 then (List.range xs.length).map (fun p => xs.getD (tilePos t p) 0) else xs

/-- Decode one tile (R162, R177). Positions count in tile order, so that a consistent tile's records ascend;
`row` is the tile's first row, `s` the operand's element count, `mask` the mask row of an MPR tile, `endpoint`
whether an endpoint sent it. (DEDUCED, assumption 11). -/
def decodeTile (t : TileSpec) (row s : Nat) (mask : List Byte) (endpoint : Bool) (bs : List Byte) :
    TileRecs :=
  let h := leVal (bs.take 8)
  let nnz := thNnz h
  let base := row * t.w
  if thDense h then
    let vals := bs.drop 8
    ⟨(List.range t.elems).map (fun i => (base + i, valueAt t.fmt vals i)), [], tileSize t h⟩
  else
    let mb := t.metaBytes nnz
    let md := slice bs 8 mb
    let vals := bs.drop (8 + mb)
    let seven := if endpoint && t.denseBytes ≤ mb + t.valueBytes nnz then [7] else []
    match t.layout with
    | 0 =>
      let (ps, an) := nmPositions t md
      ⟨assign t.fmt vals nnz base ps, seven ++ an ++ countAnoms nnz ps.length, tileSize t h⟩
    | 1 =>
      let (ps, an) := idxPositions t row s nnz md
      ⟨assign t.fmt vals nnz 0 ps, seven ++ an, tileSize t h⟩
    | 2 =>
      let ps := (List.range t.w).filter (bitAt md)
      ⟨assign t.fmt vals nnz base ps, seven ++ countAnoms nnz ps.length, tileSize t h⟩
    | 3 =>
      let ps := (List.range t.w).filter (bitAt mask)
      ⟨assign t.fmt vals nnz base ps, seven ++ countAnoms nnz ps.length, tileSize t h⟩
    | _ =>
      let blocks := (List.range (t.w / 32)).filter (bitAt md)
      let ps := blocks.flatMap (fun b => (List.range 1024).map (fun i => 1024 * b + i))
      ⟨assign t.fmt vals (1024 * nnz) base ps, seven ++ countAnoms nnz blocks.length, tileSize t h⟩

/-- The merge of R169; `op` is the node operation and `z` is +0 in the accumulation format. The
fuel is the number of records. -/
def mergeRecs (op : Nat → Nat → Nat × FpFlags) (z : Nat) :
    Nat → List Rec → List Rec → List Rec × FpFlags
  | 0, _, _ => ([], 0)
  | _, [], [] => ([], 0)
  | n + 1, (p, v) :: as, [] =>
    let (r, f) := op v z
    let (rs, g) := mergeRecs op z n as []
    ((p, r) :: rs, f ||| g)
  | n + 1, [], (p, v) :: bs =>
    let (r, f) := op z v
    let (rs, g) := mergeRecs op z n [] bs
    ((p, r) :: rs, f ||| g)
  | n + 1, (p, v) :: as, (q, w) :: bs =>
    if p < q then
      let (r, f) := op v z
      let (rs, g) := mergeRecs op z n as ((q, w) :: bs)
      ((p, r) :: rs, f ||| g)
    else if q < p then
      let (r, f) := op z w
      let (rs, g) := mergeRecs op z n ((p, v) :: as) bs
      ((q, r) :: rs, f ||| g)
    else
      let (r, f) := op v w
      let (rs, g) := mergeRecs op z n as bs
      ((p, r) :: rs, f ||| g)

/-- Expand records into dense elements; a later record at a position replaces an earlier one
(R170). -/
def expandRecs (n : Nat) (rs : List Rec) : List Nat :=
  rs.foldl (fun row r => row.set r.1 r.2) (List.replicate n 0)

/-- LSB-first bytes of a bit list, padded to 8 bytes. -/
def bitsToBytes (bs : List Bool) : List Byte :=
  leBytes (pad8 (ceilDiv bs.length 8)) (bs.foldr (fun b a => (if b then 1 else 0) + 2 * a) 0)

/-- Values packed and padded to 8 bytes. -/
def packValues (f : Fmt) (vs : List Nat) : List Byte :=
  leBytes (pad8 (f.bytes vs.length)) (packBits' f.bits vs)
where
  packBits' (w : Nat) (els : List Nat) : Nat := els.foldr (fun x a => x % 2 ^ w + a <<< w) 0

/-- Number of set bits below `m`. -/
def popCount (m x : Nat) : Nat := ((List.range m).filter (natBit x)).length

/-- The positions of an NM group of position codes: the non-zero ones and zero fill (R160).
(DESIGN CHOICE, assumption 12). -/
def nmFillMask (m n nz : Nat) : Nat :=
  let c := Config.nmFill m n nz
  if popCount m c = n ∧ c &&& nz = nz ∧ c < 2 ^ m then c
  else
    (List.range m).foldl (fun acc i =>
      if popCount m acc < n ∧ !natBit acc i then acc + 2 ^ i else acc) nz

/-- One tile in its dense form. -/
def denseTile (t : TileSpec) (row : List Nat) : List Byte :=
  leBytes 8 (tileHeader t true 0) ++
    packValues t.fmt ((tileOrder t).map (fun i => row.getD i 0))

/-- A tile from its sections, sparse when they are smaller than the dense form (R166). -/
def chooseTile (t : TileSpec) (row : List Nat) (nnz : Nat) (sections : List Byte) : List Byte :=
  if sections.length < t.denseBytes then leBytes 8 (tileHeader t false nnz) ++ sections
  else denseTile t row

/-- Form a tile from a dense row, or band for BLK (R166, R170). -/
def formDense (t : TileSpec) (mask : List Byte) (row : List Nat) : List Byte :=
  let at' (i : Nat) := row.getD i 0
  match t.layout with
  | 0 =>
    let groups := chunksOf t.m (row.take t.w)
    if groups.any (fun g => t.n < (g.filter (· != 0)).length) then denseTile t row
    else if t.bitmap then
      let nz := (row.take t.w).filter (· != 0)
      chooseTile t row nz.length
        (bitsToBytes ((List.range t.w).map (fun i => at' i != 0)) ++ packValues t.fmt nz)
    else
      let picks := groups.map (fun g =>
        let nz := g.zipIdx.foldl (fun a p => if p.1 != 0 then a + 2 ^ p.2 else a) 0
        (List.range t.m).filter (natBit (nmFillMask t.m t.n nz)))
      let codes := picks.flatten
      let vals := picks.zipIdx.flatMap (fun p => p.1.map (fun i => at' (p.2 * t.m + i)))
      let bits := codes.flatMap (fun c => (List.range t.codeBits).map (natBit c))
      chooseTile t row codes.length (bitsToBytes bits ++ packValues t.fmt vals)
  | 1 =>
    let ps := (List.range t.w).filter (fun i => at' i != 0)
    chooseTile t row ps.length
      (leBytes (pad8 (4 * ps.length)) (packValues.packBits' 32 ps) ++ packValues t.fmt (ps.map at'))
  | 2 =>
    let ps := (List.range t.w).filter (fun i => at' i != 0)
    chooseTile t row ps.length
      (bitsToBytes ((List.range t.w).map (fun i => at' i != 0)) ++ packValues t.fmt (ps.map at'))
  | 3 =>
    let ps := (List.range t.w).filter (bitAt mask)
    if (List.range t.w).any (fun i => at' i != 0 && !bitAt mask i) then denseTile t row
    else chooseTile t row ps.length (packValues t.fmt (ps.map at'))
  | _ =>
    let blk (b : Nat) := (List.range 1024).map (fun i => at' (i / 32 * t.w + b * 32 + i % 32))
    let bs := (List.range (t.w / 32)).filter (fun b => (blk b).any (· != 0))
    chooseTile t row bs.length
      (bitsToBytes ((List.range (t.w / 32)).map (fun b => bs.contains b))
        ++ packValues t.fmt (bs.flatMap blk))

/-! ### The tiles of a node's output (R166, R170) -/

/-- Whether records make an IDX tile DENSE (R166); R170 drops those whose bits are all zero. -/
def idxDense (t : TileSpec) (rs : List Rec) : Bool :=
  let k := (rs.filter (fun r => r.2 != 0)).length
  t.denseBytes ≤ pad8 (4 * k) + pad8 (t.fmt.bytes k)

/-- The records of IDX tiles, and which tiles go DENSE. A DENSE tile holds its own row only: a record of it at a
position of another row (kind 0x3 of R177) is expanded there, in stream order. (DEDUCED, assumption 62). -/
def spillRound (t : TileSpec) (ts : List (List Rec × Bool)) : List (List Rec × Bool) :=
  let ts := ts.map (fun x => (x.1, x.2 || idxDense t x.1))
  let sent (j i : Nat) : List Rec := match ts[j]? with
    | some (rs, true) => if j = i then [] else rs.filter (fun r => r.1 / t.w == i)
    | _ => []
  ts.zipIdx.map (fun p =>
    let own := if p.1.2 then p.1.1.filter (fun r => r.1 / t.w == p.2) else p.1.1
    ((List.range p.2).flatMap (sent · p.2) ++ own
      ++ ((List.range ts.length).drop p.2).flatMap (sent · p.2), p.1.2))

/-- Rounds until no further tile goes DENSE: at most one for each tile. -/
def spill (t : TileSpec) : Nat → List (List Rec × Bool) → List (List Rec × Bool)
  | 0, ts => ts
  | n + 1, ts => spill t n (spillRound t ts)

/-- An IDX tile: its records in their order, or its dense row (R170). -/
def formIdx (t : TileSpec) (row s : Nat) (dense : Bool) (rs : List Rec) : List Byte :=
  if dense then denseTile t (expandRecs t.w (rs.map (fun r => (r.1 - row * t.w, r.2))))
  else
    let keep := rs.filter (fun r => r.2 != 0)
    let idx := keep.map (fun r => (r.1 + max 1 s - row * t.w % max 1 s) % max 1 s)
    leBytes 8 (tileHeader t false keep.length) ++ leBytes (pad8 (4 * keep.length)) (packValues.packBits' 32 idx)
      ++ packValues t.fmt (keep.map Prod.snd)

/-- Form the tiles of a node's output from the records of its tiles (R170): IDX keeps the records in emitted
order, every other layout expands them, a later record at a position replacing an earlier one. Positions count
row by row; `s` is the element count of the operand. (DEDUCED, assumption 62). -/
def formChunk (t : TileSpec) (s : Nat) (mask : Nat → List Byte) (tiles : List (List Rec)) : List (List Byte) :=
  if t.layout = 1 then
    (spill t tiles.length (tiles.map (fun rs => (rs, idxDense t rs)))).zipIdx.map
      (fun p => formIdx t p.2 s p.1.2 p.1.1)
  else
    (chunksOf t.elems (expandRecs s tiles.flatten)).zipIdx.map (fun p => formDense t (mask p.2) p.1)

/-- Split a chunk into its tiles; `none` where a header breaks R165 or a tile runs past the end. -/
def splitTiles (t : TileSpec) : Nat → List Byte → Option (List (List Byte))
  | 0, _ => some []
  | n + 1, bs =>
    let h := leVal (bs.take 8)
    let k := tileSize t h
    if bs.length < 8 || !headerOk t h || bs.length < k then none
    else (splitTiles t n (bs.drop k)).map (bs.take k :: ·)

end Sys2Proof.Machine
end

