-- ==== Sys2Proof/Machine/Transcend.lean ====
section
/-! DEFINITION. exp, log and rsqrt of R89 to R92: tables to 64 fractional bits, exact polynomials
and one rounding to FP32. -/

namespace Sys2Proof.Machine

/-- An exact dyadic number m × 2^e. -/
structure Dy where
  m : Int
  e : Int
  deriving DecidableEq, Repr, Inhabited

/-- The sum of two dyadic numbers. -/
def Dy.add (a b : Dy) : Dy :=
  let e := min a.e b.e
  ⟨shiftUp a.m (a.e - e) + shiftUp b.m (b.e - e), e⟩

/-- The product of two dyadic numbers. -/
def Dy.mul (a b : Dy) : Dy := ⟨a.m * b.m, a.e + b.e⟩

/-- The negation of a dyadic number. -/
def Dy.neg (a : Dy) : Dy := ⟨-a.m, a.e⟩

/-- An integer as a dyadic number. -/
def Dy.ofInt (x : Int) : Dy := ⟨x, 0⟩

/-- The finite FP32 value of a pattern. -/
def Dy.of32 (b : Nat) : Dy :=
  match dec32 b with
  | .fin n m e => ⟨signed n m, e⟩
  | _ => ⟨0, 0⟩

/-- A dyadic number as a value; zero is +0. -/
def Dy.toV (a : Dy) : FVal := .fin (a.m < 0) a.m.natAbs a.e

/-- A table entry of 64 fractional bits. -/
def Dy.frac64 (n : Int) : Dy := ⟨n, -64⟩

/-- The polynomial x + x²·c2 + x³·c3 + x⁴·c4. -/
def poly4 (x c2 c3 c4 : Dy) : Dy :=
  let x2 := x.mul x
  let x3 := x2.mul x
  let x4 := x3.mul x
  ((x.add (x2.mul c2)).add (x3.mul c3)).add (x4.mul c4)

/-- 2^(j/64) to 64 fractional bits (R90), entries 0 to 31. -/
def expTable0 : List Nat :=
  [18446744073709551616, 18647615946650685159, 18850675170876015534, 19055945565079371916,
   19263451207323153962, 19473216437862670368, 19685265862001232463, 19899624352976337716,
   20116317054877281742, 20335369385594541003, 20556807039801272192, 20780655991967278009,
   21006942499405792876, 21235693105353445976, 21466934642083762882, 21700694234054571009,
   21936999301089678047, 22175877561595196618, 22417357035810892401, 22661466049096937122,
   22908233235256451931, 23157687539894230916, 23409858223812038705, 23664774866440880444,
   23922467369310646740, 24182965959557540563, 24446301193469697521, 24712503960071415407,
   24981605484746413453, 25253637332900546282, 25528631413664402207, 25806619983636220178]

/-- 2^(j/64) to 64 fractional bits (R90), entries 32 to 63. -/
def expTable1 : List Nat :=
  [26087635650665564425, 26371711377678200610, 26658880486542622162, 26949176661978680311,
   27242633955508776317, 27539286789452079366, 27839169960962238637, 28142318646109063182,
   28448768404004648378, 28758555180974432954, 29071715314773675845, 29388285538849847482,
   29708302986651435464, 30031805195983670058, 30358830113411680436, 30689416098711598143,
   31023601929370129896, 31361426805133127532, 31702930352603688618, 32048152629890327112,
   32397134131305759266, 32749915792116855970, 33106538993346318672, 33467045566626642129,
   33831477799106933342, 34199878438413162249, 34572290697662426007, 34948758260531815028,
   35329325286382475353, 35714036415439468402, 36102936774028035701, 36496071979866882793]

/-- 2^(j/64) to 64 fractional bits (R90). -/
def expTable : List Nat := expTable0 ++ expTable1

/-- ln(0.75 + j/128) to 64 fractional bits (R91), entries 0 to 31. -/
def logTable0 : List Int :=
  [-5306797565112371681, -5115637884777288567, -4926438851101192057, -4739160652963219918,
   -4553764679618851579, -4370213472921723940, -4188470681899169456, -4008501019543689758,
   -3830270221691897566, -3653745007871065669, -3478893044001375095, -3305682906849310521,
   -3134084050134459383, -2964066772198277565, -2795602185149230175, -2628662185404138313,
   -2463219425550596028, -2299247287459997077, -2136719856585056848, -1975611897379757024,
   -1815898829783402670, -1657556706713985268, -1500562192519310430, -1344892542337393804,
   -1190525582320469641, -1037439690679608771, -885613779509420443, -735027277354628294,
   -585660112482476600, -437492696826949539, -290505910572683730, -144681087348231717]

/-- ln(0.75 + j/128) to 64 fractional bits (R91), entries 32 to 63. -/
def logTable1 : List Int :=
  [0, 143555153080252560, 286001761100004474, 427356813506922154,
   567636912149151763, 706858282976718805, 845036787304660515, 982187932657442657,
   1118326883213202225, 1253468469865406696, 1387627199918624915, 1520817266434260841,
   1653052557241306012, 1784346663626416374, 1914712888716911461, 2044164255569625878,
   2172713514977912298, 2300373153008499370, 2427155398279344845, 2553072228989091922,
   2678135379708233368, 2802356347941611640, 2925746400471432400, 3048316579489541958,
   3170077708527314833, 3291040398191114523, 3411215051710927416, 3530611870309425440,
   3649240858398386413, 3767111828609091122, 3884234406663022002, 4000618036088908884]

/-- ln(0.75 + j/128) to 64 fractional bits (R91), entries 64 to 95. -/
def logTable2 : List Int :=
  [4116271982791902040, 4231205339480400567, 4345427029955824596, 4458945813270391972,
   4571770287757743387, 4683908894941053804, 4795369923323071870, 4906161512062342242,
   5016291654539687950, 5125768201818860527, 5234598866005104265, 5342791223505227131,
   5450352718192624241, 5557290664480559961, 5663612250306881309, 5769324540033208052,
   5874434477261523444, 5978948887570973549, 6082874481177572391, 6186217855519404370,
   6288985497769814338, 6391183787280979134, 6492818997960162065, 6593897300580863536,
   6694424765030996596, 6794407362500135408, 6893850967607807379, 6992761360474725669,
   7091144228738788055, 7189005169517600248, 7286349691319216873, 7383183215902731055]

/-- ln(0.75 + j/128) to 64 fractional bits (R91). -/
def logTable : List Int := logTable0 ++ logTable1 ++ logTable2

/-- LN2 of R89: ln 2 to 64 fractional bits. -/
def ln2Frac : Int := 12786308645202655660

/-- G of R91: 1/c to 64 fractional bits, c = (96 + j)/128. -/
def recipC (j : Nat) : Int := rneDiv (128 <<< 64) (96 + j)

/-- y of R92: 1/sqrt(1 + (j + 0.5)/64) = sqrt(128/(129 + 2j)) to 64 fractional bits. -/
def rsqrtSeed (j : Nat) : Int :=
  let d := 129 + 2 * j
  let r := isqrt ((128 <<< 128) / d)
  -- r is the floor; the entry is the nearer of r and r + 1
  if (2 * r + 1) * (2 * r + 1) * d < 4 * (128 <<< 128) then r + 1 else r

/-- exp of an FP32 pattern (R90). -/
def exp32 (x : Nat) : Nat × FpFlags :=
  match dec32 x with
  | .nan => (0x7FC00000, fNanIn)
  | .inf n => (if n then 0 else 0x7F800000, 0)
  | .fin n m e =>
    if ¬ n ∧ 0x42B20000 ≤ x then (0x7F800000, fOverflow ||| fInexact)
    else if n ∧ 0xC2D00000 ≤ x then (0, fUnderflow ||| fInexact)
    else
      let (t, _) := fmul x 0x42B8AA3B
      let k : Int := match dec32 t with
        | .fin tn tm te => (roundInt tn tm te).1
        | _ => 0
      let r := ((⟨signed n m, e⟩ : Dy).add ((Dy.ofInt k).mul (Dy.of32 0x3C317200)).neg).add
        ((Dy.ofInt k).mul (Dy.of32 0x32BFBE8E)).neg
      let j := (k % 64).toNat
      let q := (k - j) / 64
      let p := poly4 r ⟨1, -1⟩ (Dy.of32 0x3E2AAAAB) (Dy.of32 0x3D2AAAAB)
      let v := (Dy.frac64 (expTable.getD j 0)).mul ((Dy.ofInt 1).add p)
      enc32 (v.toV.scale q)

/-- log of an FP32 pattern (R91). -/
def log32 (x : Nat) : Nat × FpFlags :=
  match dec32 x with
  | .nan => (0x7FC00000, fNanIn)
  | .inf n => if n then (0x7FC00000, fInvalid) else (0x7F800000, 0)
  | .fin n m e =>
    if m = 0 then (0xFF800000, fDivZero)
    else if n then (0x7FC00000, fInvalid)
    else
      let l := m.log2
      -- mm × 2^e1 with mm = m / 2^l in [1, 2), halved when it is 1.5 or more
      let half : Bool := 3 * 2 ^ l ≤ 2 * m
      let e1 : Int := e + l + (if half then 1 else 0)
      let den : Int := -(l : Int) - (if half then 1 else 0)
      let mm : Dy := ⟨m, den⟩
      -- j = floor((mm - 0.75) * 128)
      let j := (m * 128 - 96 * 2 ^ (-den).toNat) / 2 ^ (-den).toNat
      let u := (mm.add ⟨-(96 + (j : Int)), -7⟩).mul (Dy.frac64 (recipC j))
      let p := poly4 u ⟨-1, -1⟩ (Dy.of32 0x3EAAAAAB) ⟨-1, -2⟩
      let v := (((Dy.ofInt e1).mul (Dy.frac64 ln2Frac)).add (Dy.frac64 (logTable.getD j 0))).add p
      enc32 v.toV

/-- One Newton step of R92: y × (3 − m × y × y) / 2. -/
def newtonRsqrt (m y : Dy) : Dy :=
  ((y.mul ((Dy.ofInt 3).add (m.mul (y.mul y)).neg)).mul ⟨1, -1⟩)

/-- rsqrt of an FP32 pattern (R92). -/
def rsqrt32 (x : Nat) : Nat × FpFlags :=
  match dec32 x with
  | .nan => (0x7FC00000, fNanIn)
  | .inf n => if n then (0x7FC00000, fInvalid) else (0, 0)
  | .fin n m e =>
    if m = 0 then (if n then 0xFF800000 else 0x7F800000, fDivZero)
    else if n then (0x7FC00000, fInvalid)
    else
      let l := m.log2
      let ex := e + l                       -- x = (m / 2^l) × 2^ex
      let q := ex / 2
      let den := -(l : Int) + (ex - 2 * q)  -- mm = m × 2^den in [1, 4)
      let mm : Dy := ⟨m, den⟩
      let j := if 0 ≤ den then (m * 2 ^ den.toNat - 1) * 64
        else (m * 64 - 64 * 2 ^ (-den).toNat) / 2 ^ (-den).toNat
      let y0 := Dy.frac64 (rsqrtSeed j)
      let y := newtonRsqrt mm (newtonRsqrt mm y0)
      enc32 (y.toV.scale (-q))

end Sys2Proof.Machine
end

