-- ==== Sys2Proof/Machine/Flags.lean ====
section
/-! DEFINITION. What each vector and chain operation computes from its operand values, and the flags
it raises (R254, R260): one element at a time, exact, before the one rounding to the destination. -/

namespace Sys2Proof.Machine

/-- An element's outcome: bits that move unchanged, or a value to round to the destination. -/
inductive ERes where
  | raw (bits : Nat)
  | val (v : FVal)
  deriving DecidableEq, Repr, Inhabited

/-- sign() of R201. -/
def signV : FVal → FVal × FpFlags
  | .nan => (.nan, fNanIn)
  | .inf n => (.fin n 1 0, 0)
  | .fin n m e => if m = 0 then (.fin n m e, 0) else (.fin n 1 0, 0)

/-- |A|, with the canonical NaN for a NaN (R254). -/
def absV (v : FVal) : FVal × FpFlags := if v.isNan then (.nan, fNanIn) else (v.withSign false, 0)

/-- −A, with the canonical NaN for a NaN (R254). -/
def negV (v : FVal) : FVal × FpFlags := if v.isNan then (.nan, fNanIn) else (v.neg, 0)

/-- Whether (a CC b) holds (R254): −0 equals +0, and a NaN satisfies only NE and UNORD. -/
def ccHolds (cc : Nat) (a b : FVal) : Bool :=
  match cmpV a b with
  | none => cc == 1 || cc == 6
  | some o =>
    match cc with
    | 0 => o == .eq
    | 1 => o != .eq
    | 2 => o == .lt
    | 3 => o != .gt
    | 4 => o == .gt
    | 5 => o != .lt
    | _ => false

/-- Whether C is numerically non-zero: −0 is zero and a NaN is not (R254). -/
def nonZeroV (c : FVal) : Bool := !c.isZero

/-- An FP32 function of a value that enters FP32 exactly (R89). -/
def viaFp32 (f : Nat → Nat × FpFlags) (a : FVal) : FVal × FpFlags :=
  let (r, g) := f (enc32 a).1
  (dec32 r, g)

/-- A shift of R254: A's raw bits in A's width, by a signed count. -/
def shiftV (left : Bool) (fa : Fmt) (ra : Nat) (count : Int) : FVal :=
  let w := fa.bits
  let x : Int := if fa.isSigned then signExt w ra else (ra % 2 ^ w : Nat)
  let inRange := decide (0 ≤ count) && decide (count < w)
  if left then
    if inRange then
      let r := (ra <<< count.toNat) % 2 ^ w
      .ofInt (if fa.isSigned then signExt w r else (r : Int))
    else .zero
  else if inRange then .ofInt (x / (2 ^ count.toNat : Nat))
  else .ofInt (if fa.isSigned && x < 0 then -1 else 0)

/-- An operand of an element: its raw bits, its value, and the flags of its decode (R75). -/
structure OpVal where
  raw : Nat
  v : FVal
  g : FpFlags
  deriving DecidableEq, Repr, Inhabited

/-- One vector instruction's element (R254): opcode, CC, the formats of D, A and B, and the operands.
The scalar operand of USE_S stands for B. (DEDUCED, assumption 115). -/
def vecElem (op cc : Nat) (fd fa fb : Fmt) (oa ob oc : OpVal) : ERes × FpFlags :=
  let a := oa.v
  let b := ob.v
  let c := oc.v
  let v (r : FVal × FpFlags) : ERes × FpFlags := (.val r.1, r.2 ||| oa.g ||| ob.g ||| oc.g)
  let via (r : FVal × FpFlags) : ERes × FpFlags := v (r.1, r.2 ||| flagIf (r.1.isNan && fd != .fp32) fNanIn)
  match op with
  | 0x40 => if fd.isMx then v (a, flagIf a.isNan fNanIn) else (.raw oa.raw, 0)
  | 0x41 => v (a, flagIf a.isNan fNanIn)
  | 0x42 => v (b, flagIf b.isNan fNanIn)
  | 0x43 => v (addV a b)
  | 0x44 => v (subV a b)
  | 0x45 => v (mulV a b)
  | 0x46 =>
    let (p, f) := rounded enc32 (mulV a b)
    let (r, g) := addV (dec32 p) c
    v (r, f ||| g)
  | 0x47 => v (divV a b)
  | 0x48 => v (sqrtV a)
  | 0x49 => via (viaFp32 exp32 a)
  | 0x4A => via (viaFp32 log32 a)
  | 0x4B => via (viaFp32 rsqrt32 a)
  | 0x4C => v (maxV a b)
  | 0x4D => v (minV a b)
  | 0x4E => v (absV a)
  | 0x4F => v (negV a)
  | 0x50 => v (signV a)
  | 0x51 => (.raw (oa.raw &&& ob.raw), 0)
  | 0x52 => (.raw (oa.raw ||| ob.raw), 0)
  | 0x53 => (.raw (oa.raw ^^^ ob.raw), 0)
  | 0x54 => (.val (shiftV true fa oa.raw (roundCount b)), 0)
  | 0x55 => (.val (shiftV false fa oa.raw (roundCount b)), 0)
  | 0x56 => v (if ccHolds cc a b then .ofInt 1 else .zero, nanIn a b)
  | 0x57 =>
    let pick := nonZeroV c
    let f := if pick then fa else fb
    let x := if pick then oa else ob
    let g := flagIf c.isNan fNanIn ||| oc.g
    if !fd.isMx && f == fd then (.raw x.raw, g)
    else (.val x.v, g ||| x.g ||| flagIf x.v.isNan fNanIn)
  | _ => (.val a, 0)
where
  roundCount (b : FVal) : Int :=
    match b with
    | .fin n m e => (roundInt n m e).1
    | _ => -1

/-- Encode an element's outcome for a destination without block scale. -/
def encodeRes (d : Fmt) (r : ERes × FpFlags) : Nat × FpFlags :=
  match r.1 with
  | .raw b => (b, r.2)
  | .val v =>
    let (x, f) := d.encode v
    (x, r.2 ||| f)

/-- The value of an element's outcome in a destination format, for an MX block. -/
def resValue (d : Fmt) (r : ERes) : FVal :=
  match r with
  | .raw b => d.decode 0x7F b
  | .val v => v

/-- Whether an opcode reads A, B, C (R254); VDOT's C is decided by HC. -/
def usesA (op : Nat) : Bool := op != 0x42
/-- Whether an opcode reads B (R254). -/
def usesB (op : Nat) : Bool :=
  (0x43 ≤ op && op ≤ 0x47) || op == 0x4C || op == 0x4D || (0x51 ≤ op && op ≤ 0x58)
/-- Whether an opcode reads C (R254). -/
def usesC (op : Nat) : Bool := op == 0x46 || op == 0x57

/-- Floating: a scalar floating-point format or an MX format. -/
def Fmt.floating (f : Fmt) : Bool := f.isFloat || f.isMx

/-- An integer format other than INT64. -/
def Fmt.integer (f : Fmt) : Bool := f.isInt && f != .int64

/-- Accepted operand formats of each vector instruction (R254): D, A, B and C as present. -/
def vecFormatsOk (op : Nat) (d a b c : Fmt) : Bool :=
  let allF := d.floating && a.floating && b.floating
  let allI := d.integer && a.integer && b.integer
  match op with
  | 0x40 => d == a
  | 0x41 => true
  | 0x42 => d.floating || d.integer
  | 0x43 | 0x44 | 0x45 | 0x4C | 0x4D => allF || allI
  | 0x46 => allF && c.floating
  | 0x47 => allF
  | 0x48 | 0x49 | 0x4A | 0x4B | 0x50 => d.floating && a.floating
  | 0x4E | 0x4F => (d.floating && a.floating) || (a.integer && a.isSigned && d.integer)
  | 0x51 | 0x52 | 0x53 => d == a && d == b && !d.isMx && (d.floating || d.integer)
  | 0x54 | 0x55 => allI
  | 0x56 => (d.floating || d.integer) && ((a.floating && b.floating) || (a.integer && b.integer))
  | 0x57 =>
    let any (f : Fmt) := f.floating || f.integer
    any d && any a && any b && any c
  | _ => dotOperandOk a && dotOperandOk b && dotCOk c && d.floating

end Sys2Proof.Machine
end

