-- ==== Sys2Proof/Machine/Issue.lean ====
section
/-! DEFINITION. The issue of one word of a queue: decode checks (R240 to R243), the guard (R239), and
what follows an effect. -/

namespace Sys2Proof.Machine

/-- What a word's effect leaves the queue to do. -/
inductive Issue where
  /-- The word is complete: the queue moves past it. -/
  | done (s : State)
  /-- The queue stays at the word: work or a wait has begun, or the effect moved the queue itself. -/
  | stay (s : State)
  /-- The word is refused (R241, R242). -/
  | refuse (r : Res)

/-- Whether a queue type accepts an opcode (R240); `none` for a reserved opcode. -/
def opAccepts (op : Nat) (t : QType) : Option Bool :=
  if op ≤ 0x06 ∨ (0x08 ≤ op ∧ op ≤ 0x13) ∨ (0x20 ≤ op ∧ op ≤ 0x22) ∨ (0xA0 ≤ op ∧ op ≤ 0xA3)
      ∨ op = 0xE0 then some true
  else if (0x14 ≤ op ∧ op ≤ 0x18) ∨ op = 0x1A ∨ op = 0x1B ∨ op = 0x1E ∨ (0x40 ≤ op ∧ op ≤ 0x58)
      ∨ (0x70 ≤ op ∧ op ≤ 0x72) ∨ (0x78 ≤ op ∧ op ≤ 0x8F) then some (t == .vec)
  else if op = 0x1C ∨ op = 0x1D ∨ (0x60 ≤ op ∧ op ≤ 0x62) then some (t == .vec || t == .mtx)
  else if op = 0xB0 then some (t == .coll)
  else if op = 0xC0 then some (t == .dma)
  else none

/-- A chain operation's opcode (R240). -/
def isChainOp (op : Nat) : Bool := 0x78 ≤ op && op ≤ 0x8F

/-- Opcodes with a command of their own; every other opcode is decoded, and refused, by the NOP
command. -/
def hasRow (op : Nat) : Bool :=
  op ≤ 0x06 || (0x08 ≤ op && op ≤ 0x18) || op == 0x1A || op == 0x1B || op == 0x1C || op == 0x1D
  || op == 0x1E || (0x20 ≤ op && op ≤ 0x22) || (0x40 ≤ op && op ≤ 0x58) || (0x60 ≤ op && op ≤ 0x62)
  || op == 0x70 || op == 0x72 || (0xA0 ≤ op && op ≤ 0xA3) || op == 0xB0 || op == 0xC0 || op == 0xE0

/-- Opcodes that a ring word may not be (R286). -/
def notRingWord (op : Nat) : Bool :=
  op == 0x02 || op == 0x03 || (0x70 ≤ op && op ≤ 0x72) || isChainOp op

/-- Checks of the word itself (R240, R241, R248, R254, R258, R269, R286). -/
def wordCheck (s : State) (Q : Queue) (w : Word) : Option Res :=
  let op := wOpcode w
  if opAccepts op Q.qtype ≠ some true then some .format
  else if !Q.inSeg && notRingWord op then some .format
  else if Q.inSeg && op == 0xE0 then some .format
  else if op = 0xE0 ∧ (match topOf s Q.job with
      | some t => t.segs.length
      | none => 0) ≤ field w 11 0 then some .format
  else if op = 0x04 ∧ 6 ≤ field w 43 41 then some .format
  else if op = 0x56 ∧ field w 27 25 = 7 then some .format
  else if op = 0x70 ∧ (7 ≤ field w 47 45 ∨ 5 ≤ field w 44 42) then some .format
  else if op = 0xA2 ∧ wDL w = 0 then some .format
  else if op = 0x71 ∨ isChainOp op then some .format
  else none

/-- The queue can issue its current word, whose opcode is `op` (for NOP also every opcode without
a command of its own): it is bound and in RUN and no work of the word is under way. -/
def canIssue (s : State) (q op : Nat) : Option Word :=
  let Q := queueAt s q
  if Q.bound ∧ Q.st = .run ∧ Q.work = none ∧ ¬ Q.mtxBusy then
    match currentWord s q with
    | some w => if wOpcode w = op ∨ (op = 0 ∧ hasRow (wOpcode w) = false) then some w else none
    | none => none
  else none

/-- What follows an effect. -/
def settle (s : State) (q : Nat) : Issue → State
  | .done s' => advance s' q
  | .stay s' => s'
  | .refuse r => haltQueue (bumpQue s q 1) q r 0

/-- Issue the current word of queue `q`, of opcode `op`, with effect `eff`; `skip` is what a guard
that turns the word off does, to move past the word in all cases but a guarded CHAIN. A queue that
does not stand in RUN at such a word does nothing. (DEDUCED, assumption 88). -/
def issueWith (op : Nat) (skip : Word → State → Issue) (q : Nat) (s : State)
    (eff : Word → Queue → State → Issue) : State :=
  match canIssue s q op with
  | none => s
  | some w =>
    let Q := queueAt s q
    match wordCheck s Q w with
    | some r => haltQueue (bumpQue s q 1) q r 0
    | none =>
      let s := bumpQue s q 0
      if guardOff Q w then settle s q (skip w s) else settle s q (eff w Q s)

/-- Issue with the guard's plain no-operation. (DESIGN CHOICE, assumption 1). -/
def issue (op q : Nat) (s : State) (eff : Word → Queue → State → Issue) : State :=
  issueWith op (fun _ s => .done s) q s eff

end Sys2Proof.Machine
end

