-- ==== Sys2Proof/Machine/Vector.lean ====
section
/-! DEFINITION. Vector instructions (R254 to R257): the checks at decode, the work that a gang takes
on, and what one batch of 256 elements reads, computes and writes (R236, R255). -/

namespace Sys2Proof.Machine

/-- MASK_EN, bit [34]. -/
def vMaskEn (w : Word) : Bool := field w 34 34 == 1
/-- ZERO, bit [33]. -/
def vZero (w : Word) : Bool := field w 33 33 == 1
/-- SS, bits [32:29]. -/
def vSS (w : Word) : Nat := field w 32 29
/-- USE_S, bit [28]. -/
def vUseS (w : Word) : Bool := field w 28 28 == 1
/-- CC, bits [27:25]. -/
def vCC (w : Word) : Nat := field w 27 25

/-- The operand registers a vector word reads, in the order A, B, C (R254). -/
def vecRegs (Q : Queue) (w : Word) : List Nat :=
  let op := wOpcode w
  (if usesA op then [wR2 w] else [])
  ++ (if usesB op && !vUseS w then [wR1 w] else [])
  ++ (if usesC op || (op == 0x58 && !(wR0 w == 0 && (Q.h.getD 0 {}).handle == 0)) then [wR0 w]
      else [])

/-- The format that a scalar operand stands for: FP32 or INT32 by A's format, D's for VFILL, and A's
own for raw operations (R254). -/
def scalarFmt (op : Nat) (f : Fmt) : Fmt :=
  if 0x51 ≤ op ∧ op ≤ 0x53 then f else if f.isInt then .int32 else .fp32

/-- An operand, and whether a destination overlaps it without being it (R256). -/
abbrev Opd := Tensor × Bool

/-- The operands A, B and C of a word, as present. -/
structure VecOps where
  a : Option Opd
  b : Option Opd
  c : Option Opd
  deriving DecidableEq, Repr, Inhabited

/-- Sort the resolved operand list into A, B and C. -/
def vecOps (w : Word) (xs : List Opd) : VecOps :=
  let op := wOpcode w
  let (a, xs) := if usesA op then (xs.head?, xs.tail) else (none, xs)
  let (b, xs) := if usesB op && !vUseS w then (xs.head?, xs.tail) else (none, xs)
  ⟨a, b, xs.head?⟩

/-- A's format, or D's for VFILL. -/
def opFmt (d : Tensor) (o : VecOps) : Fmt := match o.a with
  | some t => t.1.fmt
  | none => d.fmt

/-- B's format, or the scalar's. -/
def opFmtB (w : Word) (d : Tensor) (o : VecOps) : Fmt := match o.b with
  | some t => t.1.fmt
  | none => scalarFmt (wOpcode w) (opFmt d o)

/-- Shapes of VDOT (R254). -/
def dotShapes (d : Tensor) (o : VecOps) : Bool :=
  match o.a with
  | none => false
  | some (a, _) =>
    d.sizes.headD 0 == 1 && d.sizes.tail == a.sizes.tail
    && (match o.b with
        | some (b, _) => b.sizes == a.sizes || (b.sizes.headD 0 == a.sizes.headD 0 && b.sizes.tail.all (· == 1))
        | none => true)
    && (match o.c with
        | some (c, _) => c.sizes == d.sizes
        | none => true)

/-- The FORMAT checks of a vector word on its operands (R254, R255). -/
def vecOk (w : Word) (d : Tensor) (o : VecOps) : Bool :=
  let op := wOpcode w
  let ts := (o.a.toList ++ o.b.toList ++ o.c.toList).map Prod.fst
  vecFormatsOk op d.fmt (opFmt d o) (opFmtB w d o) (match o.c with
    | some (c, _) => c.fmt
    | none => .fp32)
  && (op == 0x41 || (!d.sparse && ts.all (fun t => !t.sparse)))
  && (if op = 0x58 then dotShapes d o else ts.all (fun t => shapesMatch t.sizes d.sizes))
  && (!vMaskEn w || (d.mask.isSome && (vZero w || (!d.fmt.isMx && !d.sparse))))

/-! ### Tiles of a sparse operand (R250, R257) -/

/-- The tile specification of a sparse tensor. -/
def tileSpecOf (t : Tensor) : TileSpec := ⟨t.sizes.headD 0, t.layout, t.nmN, t.nmM, t.nmBitmap, t.fmt⟩

/-- Tiles of a tensor: one per row, or per band of 32 rows for BLK (R159, R250). -/
def tileCount (t : Tensor) : Nat := if t.layout = 4 then ceilDiv (rowCount t) 32 else rowCount t

/-- The mask row of an MPR tile as an access: R173 pads each row to 8 bytes. -/
def maskRowAcc (t : Tensor) (r : Nat) : List Acc :=
  match t.layout == 3, t.mask with
  | true, some l => [⟨l.base + rowOffset l.strides (coordsOf t.sizes (r * t.sizes.headD 1)),
      pad8 (ceilDiv (t.sizes.headD 0) 8), false, l.space⟩]
  | _, _ => []

/-- The mask row of an MPR tile (R173). (DESIGN CHOICE, assumption 21). -/
def maskRow (s : State) (job : Nat) (t : Tensor) (r : Nat) : List Byte :=
  (maskRowAcc t r).flatMap (fun a => readVAs s job a.va a.len)

/-- Address of directory entry `r`. -/
def dirAddr (l : Linked) (r : Nat) : Int := l.base + 4 * (r : Int)

/-- Address of tile `r` of a sparse source: the low three bits of its entry are ignored (R250). -/
def tileAddr (s : State) (job : Nat) (t : Tensor) (r : Nat) : Int :=
  match t.dir with
  | some l => t.base + (leVal (readVAs s job (dirAddr l r) 4) / 8 * 8 : Nat)
  | none => t.base

/-- The bytes of tile `r` of a sparse source, as its header gives them (R163). -/
def tileBytes (s : State) (job : Nat) (t : Tensor) (r : Nat) : List Byte :=
  let va := tileAddr s job t r
  readVAs s job va (tileSize (tileSpecOf t) (leVal (readVAs s job va 8)))

/-- Tile `r` of a sparse source, decoded (R177). -/
def tileAt (s : State) (job : Nat) (t : Tensor) (r : Nat) : TileRecs :=
  decodeTile (tileSpecOf t) ((tileSpecOf t).firstRow r) (elemCount t) (maskRow s job t r) false (tileBytes s job t r)

/-- The access of directory entry `r`. -/
def dirAcc (t : Tensor) (r : Nat) : List Acc :=
  match t.dir with
  | some l => [⟨dirAddr l r, 4, false, l.space⟩]
  | none => []

/-- The accesses of reading tiles of a sparse tensor: directory entries, mask rows and tiles. -/
def sparseReadAccs (s : State) (job : Nat) (t : Tensor) (rs : List Nat) : List Acc :=
  rs.flatMap (fun r =>
    dirAcc t r ++ maskRowAcc t r ++ [⟨tileAddr s job t r, (tileBytes s job t r).length, false, t.space⟩])

/-- The write of tile `r` at offset `off`, and of its directory entry (R257). -/
def tileWrites (d : Tensor) (r off : Nat) (bs : List Byte) : List WriteOp :=
  let key := elemIndex d.sizes (coordsOf d.sizes ((tileSpecOf d).firstRow r * d.sizes.headD 1))
  ⟨d.base + (off : Nat), bs, d.space, d.digest, key⟩ ::
  (match d.dir with
   | some l => [⟨dirAddr l r, leBytes 4 off, l.space, d.digest, key⟩]
   | none => [])

/-- Tiles written back to back from offset `off` on, the first of them tile `r`; and the offset after them. -/
def tilesFrom (d : Tensor) : Nat → Nat → List (List Byte) → List WriteOp × Nat
  | _, off, [] => ([], off)
  | r, off, b :: bs =>
    let (ws, e) := tilesFrom d (r + 1) (off + b.length) bs
    (tileWrites d r off b ++ ws, e)

/-! ### Overlap (R256) -/

/-- The byte ranges of a tensor: its rows, or its tiles; its block scales; its directory (R250). The tiles of a
destination take at most (8 + D) bytes each (R257). -/
def extents (s : State) (job : Nat) (dest : Bool) (t : Tensor) : List (Int × Nat) :=
  let rows := List.range (rowCount t)
  let start (r : Nat) := coordsOf t.sizes (r * t.sizes.headD 1)
  (if !t.sparse then rows.map (rowRange t)
   else if dest then [(t.base, tileCount t * (8 + (tileSpecOf t).denseBytes))]
   else (List.range (tileCount t)).map (fun r => (tileAddr s job t r, (tileBytes s job t r).length)))
  ++ (match t.scale with
      | some l => rows.map (fun r => (scaleAddr l (start r), ceilDiv (t.sizes.headD 0) 32))
      | none => [])
  ++ (match t.sparse, t.dir with
      | true, some l => [(dirAddr l 0, 4 * tileCount t)]
      | _, _ => [])

/-- Whether a destination overlaps an operand without being that operand (R256): the same operand
is the same descriptor at the same effective base. (DESIGN CHOICE, assumption 9). -/
def badOverlap (s : State) (job : Nat) (d a : Tensor) : Bool :=
  !(d.handle == a.handle && d.base == a.base)
  && (extents s job true d).any (fun x => (extents s job false a).any (fun y =>
       decide (x.1 < y.1 + y.2) && decide (y.1 < x.1 + x.2)))

/-- Memory as one read of an overlapping instruction finds it (R226, R256): each aligned 64-byte word that the
instruction writes is as before the write or as after it, as a free choice says for that read.
(DESIGN CHOICE, assumption 9). -/
def overlay (s : State) (job : Nat) (wk : VecWork) (ws : List WriteOp) (reader : Nat) : State :=
  let cs := ws.flatMap WriteOp.cells
  let words := ((cs ++ wk.old).map (fun c => c.1 / 64)).eraseDups
  words.foldl (fun acc w =>
    ((if Config.overlapAfter wk.seed reader w then cs else wk.old).filter (fun c => c.1 / 64 == w)).foldl
      (fun acc c => writeVA acc job c.1 c.2) acc) s

/-- The memory of reader `r` of an overlapping instruction; reader 0 reads plainly. `writes` are the writes of the
elements still to come when they are read so, and the fuel is how far one read may follow another's write. -/
def overlapView (s : State) (job : Nat) (wk : VecWork) (writes : (Nat → State) → List WriteOp) :
    Nat → Nat → State
  | 0 => fun _ => s
  | k + 1 => fun r =>
    if r = 0 then s else overlay s job wk (wk.held ++ writes (overlapView s job wk writes k)) (r - 1)

/-- How a work reads memory: plainly, or as R256 says where a destination overlaps an operand. -/
def readerOf (s : State) (job : Nat) (wk : VecWork) (writes : (Nat → State) → List WriteOp) : Nat → State :=
  if wk.clash.any id then overlapView s job wk writes (wk.total + 1) else fun _ => s

/-! ### Decode -/

/-- Decode a vector word into the work of its gang (R241, R253, R254): FORMAT before ALIGN (R578). -/
def vecSetup (s : State) (Q : Queue) (w : Word) : Except Res VecWork :=
  match topOf s Q.job with
  | none => .error .format
  | some t =>
    match resolve t (Q.h.getD (wR3 w) {}), resolveAll t Q (vecRegs Q w) with
    | .error e, _ => .error e
    | _, .error e => .error e
    | .ok d, .ok xs =>
      if !vecOk w d (vecOps w (xs.map (·, false))) then .error .format
      else if !(baseAligned d && xs.all baseAligned) then .error .align
      else
        .ok { word := w, isChain := false, d := [d], a := xs, chain := ⟨[], [], []⟩
              scalarB := if vUseS w || wOpcode w == 0x42 then some (sreg Q (vSS w)) else none
              total := elemCount d, batch := 0, perRow := d.sparse || xs.any (·.sparse), tileOff := 0
              clash := xs.map (badOverlap s Q.job d), seed := s.freeCtr, held := [], heldEls := [], old := [] }

/-- A work is put on its gang; one whose destination overlaps an operand draws its word choices (R256).
(DESIGN CHOICE, assumption 9). -/
def startWork (s : State) (q : Nat) (wk : VecWork) : State :=
  let s := setQueue s q (fun Q => { Q with work := some wk, chain := none })
  if wk.clash.any id then (drawFree s).2 else s

/-- A vector instruction begins: its gang takes the work on, and batches follow (R236, R237).
(DEDUCED, assumption 6). -/
def vecIssue (op q : Nat) (s : State) : State :=
  issue op q s (fun w Q s =>
    match vecSetup s Q w with
    | .error r => .refuse r
    | .ok wk => .stay (startWork s q wk))

/-! ### One element -/

/-- The memory that a read of an operand finds: only an operand that the destination overlaps is read as R256
says. -/
def readVia (at' : Nat → State) (o : Opd) (reader : Nat) : State := at' (if o.2 then reader + 1 else 0)

/-- The raw bits and value of an operand at destination coordinates, broadcast, as it enters FP32, and the flags of
its decode (R75, R254). -/
def operandAt (at' : Nat → State) (job : Nat) (o : Option Opd) (coords : List Nat) (reader : Nat) :
    Nat × FVal × FpFlags :=
  match o with
  | none => (0, .zero, 0)
  | some o =>
    let t := o.1
    let s := readVia at' o reader
    let co := broadcastCoords t.sizes coords
    let r := readElem s job t co
    let v := t.fmt.decode (if t.fmt.isMx then readScale s job t co else 0) r
    (r, enterVal t.fmt v, enterFlags t.fmt v)

/-- The scalar operand's raw bits and value (R254). -/
def scalarOperand (w : Word) (f : Fmt) (v : Word32) : Nat × FVal :=
  let op := wOpcode w
  if 0x51 ≤ op ∧ op ≤ 0x53 then (v.toNat % 2 ^ f.bits, .zero)
  else if f.isInt then (v.toNat, .ofInt v.toInt) else (v.toNat, dec32 v.toNat)

/-- Number of a read: element, operand or stream, and position in a dot product. -/
def readerNo (n j k : Nat) : Nat := (8 * n + j) * 2 ^ 40 + k

/-- The dot product of one row (R113, R254), as an FP32 accumulator. -/
def dotRow (at' : Nat → State) (job : Nat) (wk : VecWork) (o : VecOps) (n : Nat) (coords : List Nat) :
    Nat × FpFlags :=
  match o.a with
  | none => (0, 0)
  | some a =>
    let exact (x : Opd) (co : List Nat) (reader : Nat) : FVal := readValue (readVia at' x reader) job x.1 co
    let terms := (List.range (a.1.sizes.headD 0)).map (fun k =>
      let co := k :: coords.tail
      let y := match o.b with
        | some b => exact b (broadcastCoords b.1.sizes co) (readerNo n 1 k)
        | none => (scalarOperand wk.word a.1.fmt (wk.scalarB.getD 0)).2
      (some (exact a co (readerNo n 0 k), y) : DotTerm))
    dotNative terms (o.c.map (fun c => (enc32 (operandAt at' job (some c) coords (readerNo n 2 0)).2.1).1))

/-- One element of a dense vector work (R254). -/
def vecElement (at' : Nat → State) (job : Nat) (wk : VecWork) (d : Tensor) (n : Nat) : ERes × FpFlags :=
  let w := wk.word
  let o := vecOps w (wk.a.zip wk.clash)
  let coords := coordsOf d.sizes n
  if wOpcode w = 0x58 then
    let (r, f) := dotRow at' job wk o n coords
    let v := dec32 r
    (.val v, f ||| flagIf (v.isNan && d.fmt != .fp32) fNanIn)
  else
    let fa := opFmt d o
    let fb := opFmtB w d o
    let (ra, a, ga) := operandAt at' job o.a coords (readerNo n 0 0)
    let (rb, b, gb) := match wk.scalarB with
      | some v => let r := scalarOperand w fa v; (r.1, r.2, 0)
      | none => operandAt at' job o.b coords (readerNo n 1 0)
    let (_, c, gc) := operandAt at' job o.c coords (readerNo n 2 0)
    vecElem (wOpcode w) (vCC w) d.fmt fa fb ⟨ra, a, ga⟩ ⟨rb, b, gb⟩ ⟨0, c, gc⟩

/-- The accesses that computing one element makes (R413). -/
def elementAccs (wk : VecWork) (d : Tensor) (n : Nat) : List Acc :=
  let coords := coordsOf d.sizes n
  let o := vecOps wk.word (wk.a.zip wk.clash)
  let row (t : Tensor) (co : List Nat) :=
    (List.range (t.sizes.headD 0)).flatMap (fun k => readAccs t (k :: co.tail))
  (if wOpcode wk.word = 0x58 then
    (o.a.toList.flatMap (fun t => row t.1 coords))
    ++ (o.b.toList.flatMap (fun t => row t.1 (broadcastCoords t.1.sizes (0 :: coords.tail))))
    ++ (o.c.toList.flatMap (fun t => readAccs t.1 coords))
   else wk.a.flatMap (fun t => readAccs t (broadcastCoords t.sizes coords)))

/-- The elements of batch `b` (R236). -/
def batchElems (total b : Nat) : List Nat :=
  (List.range 256).filterMap (fun i => if 256 * b + i < total then some (256 * b + i) else none)

/-- The elements of a work from batch `b` on. -/
def elemsFrom (total b : Nat) : List Nat := (List.range total).drop (256 * b)

/-- Which elements of a batch are computed (R255). -/
def isActive (s : State) (job : Nat) (w : Word) (d : Tensor) (n : Nat) : Bool :=
  if vMaskEn w then
    match d.mask with
    | some l => maskBit s job l (coordsOf d.sizes n)
    | none => true
  else true

/-- What one batch comes to: its writes in element order, its flags and anomalies, the accesses it makes, and the
elements of a tile that is not complete with the offset of that tile. -/
structure BatchOut where
  writes : List WriteOp
  flags : FpFlags
  anomalies : List (Nat × Nat)
  accs : List Acc
  rest : List Nat
  off : Nat
  deriving DecidableEq, Repr, Inhabited

/-- The accesses of the mask bits of a batch. -/
def maskAccs (w : Word) (d : Tensor) (ns : List Nat) : List Acc :=
  if vMaskEn w then
    match d.mask with
    | some l => ns.map (fun n => maskAcc l (coordsOf d.sizes n))
    | none => []
  else []

/-- One element's outcome under the mask: computed, +0, or left alone (R255). -/
def maskedElement (s : State) (job : Nat) (w : Word) (d : Tensor) (n : Nat) (r : ERes × FpFlags) :
    Option (ERes × FpFlags) :=
  if isActive s job w d n then some r else if vZero w then some (.val .zero, 0) else none

/-- The writes of elements in element order and the flags of encoding them: element by element, or block by block
for an MX destination (R76, R254, R255). -/
def denseOut (d : Tensor) (es : List (Nat × Option (ERes × FpFlags))) : List WriteOp × FpFlags :=
  if d.fmt.isMx then
    let rs := (chunksOf 32 es).map (fun blk =>
      let xs := blk.map (fun e => e.2.getD (.val .zero, 0))
      let (sc, els, f) := encodeBlock d.fmt (xs.map (fun e => resValue d.fmt e.1))
      (blockWrite d (coordsOf d.sizes (blk.headD (0, none)).1) sc els, xs.foldl (fun a e => a ||| e.2) f))
    (rs.flatMap Prod.fst, rs.foldl (fun a r => a ||| r.2) 0)
  else
    let rs := es.filterMap (fun e => e.2.map (fun r => (e.1, encodeRes d.fmt r)))
    (rs.map (fun r => elemWrite d (coordsOf d.sizes r.1) r.2.1), rs.foldl (fun a r => a ||| r.2.2) 0)

/-- Raw copy of an MX block, elements and scale (R85). -/
def copyBlock (at' : Nat → State) (job : Nat) (d : Tensor) (o : Opd) (ns : List Nat) : List WriteOp :=
  let co (n : Nat) := broadcastCoords o.1.sizes (coordsOf d.sizes n)
  let n0 := ns.headD 0
  blockWrite d (coordsOf d.sizes n0) (readScale (readVia at' o (readerNo n0 1 0)) job o.1 (co n0))
    (ns.map (fun n => readElem (readVia at' o (readerNo n 0 0)) job o.1 (co n)))

/-- The writes and flags of elements of a dense vector work (R254, R255). -/
def denseResult (at' : Nat → State) (job : Nat) (wk : VecWork) (d : Tensor) (ns : List Nat) :
    List WriteOp × FpFlags :=
  match wOpcode wk.word == 0x40 && !vMaskEn wk.word && d.fmt.isMx, (wk.a.zip wk.clash).head? with
  | true, some a =>
    ((chunksOf 32 ns).flatMap (copyBlock at' job d a), 0)
  | _, _ => denseOut d (ns.map (fun n => (n, maskedElement (at' 0) job wk.word d n (vecElement at' job wk d n))))

/-- All accesses of elements of a dense vector work. -/
def denseAccs (s : State) (job : Nat) (wk : VecWork) (d : Tensor) (ns : List Nat) : List Acc :=
  maskAccs wk.word d ns ++ ns.flatMap (fun n =>
    let act := isActive s job wk.word d n
    (if act then elementAccs wk d n else [])
    ++ (if act || vZero wk.word then writeAccs d (coordsOf d.sizes n) else []))

/-! ### Sparse VCVT (R257) -/

/-- The index in A of the element that a destination element reads, broadcast (R254). -/
def sourceIndex (d a : Tensor) (n : Nat) : Nat :=
  elemIndex a.sizes (broadcastCoords a.sizes (coordsOf d.sizes n))

/-- The tiles of a sparse source that the computed elements among `ns` read: a masked-off element reads none
(R255). -/
def tilesRead (s : State) (job : Nat) (w : Word) (d a : Tensor) (ns : List Nat) : List Nat :=
  ((ns.filter (isActive s job w d)).map (fun n => sourceIndex d a n / (tileSpecOf a).elems)).eraseDups

/-- Every element of a sparse source as raw bits, expanded from the tiles listed (R170, R177). -/
def readTiles (at' : Nat → State) (job : Nat) (a : Opd) (rs : List Nat) : List Nat :=
  rowMajor (tileSpecOf a.1)
    (expandRecs (tileCount a.1 * (tileSpecOf a.1).elems) (rs.flatMap (fun r => (tileAt (readVia at' a r) job a.1 r).recs)))

/-- One element of a VCVT from raw bits (R75, R79 to R81). -/
def convertElem (a : Tensor) (scale raw : Nat) : ERes × FpFlags :=
  let v := a.fmt.decode scale raw
  (.val (enterVal a.fmt v), flagIf v.isNan fNanIn ||| enterFlags a.fmt v)

/-- The outcomes of elements of a VCVT in which a tile tensor takes part. -/
def sparseElems (at' : Nat → State) (job : Nat) (wk : VecWork) (d : Tensor) (a : Opd) (ns : List Nat) :
    List (Nat × Option (ERes × FpFlags)) :=
  let src := if a.1.sparse then
      readTiles at' job a (tilesRead (at' 0) job wk.word d a.1 (List.range wk.total)) else []
  ns.map (fun n =>
    let co := broadcastCoords a.1.sizes (coordsOf d.sizes n)
    let s := readVia at' a (readerNo n 0 0)
    (n, maskedElement (at' 0) job wk.word d n
      (if a.1.sparse then convertElem a.1 0 (src.getD (sourceIndex d a.1 n) 0)
       else convertElem a.1 (if a.1.fmt.isMx then readScale s job a.1 co else 0) (readElem s job a.1 co))))

/-- Elements `ns` of a VCVT in which a tile tensor takes part (R236, R257): the tiles of a sparse destination that
`ns` completes are written, back to back in row order; the last element completes the last tile. Each tile of a
sparse source counts its anomalies with the first element that reads it. (DEDUCED, assumption 10). -/
def sparseOut (at' : Nat → State) (job : Nat) (wk : VecWork) (d : Tensor) (a : Opd) (ns : List Nat) : BatchOut :=
  let s := at' 0
  let es := sparseElems at' job wk d a ns
  let first := ns.headD 0
  let rs := if a.1.sparse then tilesRead s job wk.word d a.1 ns else []
  let seen := if a.1.sparse then tilesRead s job wk.word d a.1 (List.range first) else []
  let an := (rs.filter (fun r => !seen.contains r)).flatMap (fun r =>
    (tileAt (readVia at' a r) job a.1 r).anomalies.map (fun k => (k, r)))
  let acc := maskAccs wk.word d ns
    ++ (if a.1.sparse then sparseReadAccs s job a.1 rs
        else (ns.filter (isActive s job wk.word d)).flatMap (fun n =>
          readAccs a.1 (broadcastCoords a.1.sizes (coordsOf d.sizes n))))
  if d.sparse then
    let spec := tileSpecOf d
    let rs := es.map (fun e => encodeRes d.fmt (e.2.getD (.val .zero, 0)))
    let els := wk.heldEls ++ rs.map Prod.fst
    let last := wk.total ≤ first + ns.length
    let full := if last then els else els.take (els.length / spec.elems * spec.elems)
    let r0 := (first - wk.heldEls.length) / spec.elems
    let tiles := (chunksOf spec.elems full).zipIdx.map (fun p => formDense spec (maskRow s job d (r0 + p.2)) p.1)
    let (ws, off) := tilesFrom d r0 wk.tileOff tiles
    ⟨ws, rs.foldl (fun f r => f ||| r.2) 0, an,
      acc ++ (List.range tiles.length).flatMap (fun i => maskRowAcc d (r0 + i)) ++ ws.map WriteOp.acc,
      els.drop full.length, off⟩
  else
    let (ws, f) := denseOut d es
    ⟨ws, f, an, acc ++ ws.map WriteOp.acc, [], 0⟩

/-- Elements `ns` of a vector work. -/
def vecOut (at' : Nat → State) (job : Nat) (wk : VecWork) (ns : List Nat) : BatchOut :=
  match wk.d with
  | [] => ⟨[], 0, [], [], [], 0⟩
  | d :: _ =>
    match wk.perRow, (wk.a.zip wk.clash).head? with
    | true, some a => sparseOut at' job wk d a ns
    | _, _ =>
      let (ws, f) := denseResult at' job wk d ns
      ⟨ws, f, [], denseAccs (at' 0) job wk d ns, [], 0⟩

/-- One batch of a vector work. -/
def vecBatch (s : State) (job : Nat) (wk : VecWork) : BatchOut :=
  let at' := readerOf s job wk (fun at' => (vecOut at' job wk (elemsFrom wk.total wk.batch)).writes)
  vecOut at' job wk (batchElems wk.total wk.batch)

/-- Every access of a single instruction, which its group translates before it starts (R413). -/
def vecAccs (s : State) (job : Nat) (wk : VecWork) : List Acc := (vecOut (fun _ => s) job wk (List.range wk.total)).accs

end Sys2Proof.Machine
end

