-- ==== Sys2Proof/Machine/Matrix.lean ====
section
/-! DEFINITION. Matrix instructions on Laurel (R175, R176, R220 to R222, R263 to R265): decode, the
work list of a die, and what one block pass or transpose tile reads, computes and writes. -/

namespace Sys2Proof.Machine

/-- A16, bit [34]. -/
def mA16 (w : Word) : Bool := field w 34 34 == 1
/-- SPARSE, bit [33]. -/
def mSparse (w : Word) : Bool := field w 33 33 == 1
/-- FLAG when FLAG_EN is 1. -/
def mFlag (w : Word) : Option Nat := if field w 32 32 = 1 then some (field w 31 24) else none

/-- Size `i` of a tensor. -/
def szOf (t : Tensor) (i : Nat) : Nat := t.sizes.getD i 1

/-- The sizes of MMUL and MMAC (R263). -/
def mmShapes (d a b : Tensor) (c : Option Tensor) : Bool :=
  d.rank ≤ 3 && a.rank ≤ 3 && b.rank ≤ 3
  && szOf a 0 == szOf b 0 && szOf d 0 == szOf b 1 && szOf d 1 == szOf a 1
  && szOf a 2 == szOf b 2 && szOf d 2 == szOf a 2
  && (match c with
      | some c => c.rank ≤ 3 && c.sizes == d.sizes
      | none => true)

/-- The formats of MMUL and MMAC (R114, R118, R122, R175). -/
def mmFormats (w : Word) (d a b : Tensor) (c : Option Tensor) : Bool :=
  dotOperandOk a.fmt && dotOperandOk b.fmt && d.fmt.floating
  && (match c with
      | some c => dotCOk c.fmt
      | none => true)
  && (!mA16 w || (alignedOperandOk a.fmt && alignedOperandOk b.fmt && szOf a 0 % 16 == 0
        && !mSparse w))
  && (if mSparse w then
        b.sparse && b.layout == 0 && b.nmM == 4
        && (b.fmt == .bf16 || b.fmt == .fp16 || b.fmt == .e4m3 || b.fmt == .e5m2)
      else !b.sparse)
  && !a.sparse && !d.sparse && (match c with
      | some c => !c.sparse
      | none => true)

/-- Every memory that a matrix operand names is scratchpad (R222). -/
def inScratch (t : Tensor) : Bool :=
  t.space == 0 && (t.scale.all (·.space == 0)) && (!t.sparse || t.dir.all (·.space == 0))

/-- The row of the block pass geometry that a format takes: 0 FP32, 1 BF16 and FP16, 2 FP8 and MX
(R220). -/
def speedRow (f : Fmt) : Nat :=
  match f with
  | .fp32 => 0
  | .bf16 | .fp16 => 1
  | _ => 2

/-- K_pass (R220): mixed operands take the slower format's row. -/
def kPass (a b : Fmt) (sparse : Bool) : Nat :=
  match min (speedRow a) (speedRow b) with
  | 0 => 256
  | 1 => if sparse then 512 else 256
  | _ => if sparse then 1024 else 512

/-- The output tiles of a product: rows of A, columns of B and batches (R220). -/
structure OutTiles where
  mt : Nat
  nt : Nat
  bt : Nat
  deriving DecidableEq, Repr, Inhabited

/-- The output tiles of a product (R220). -/
def mmTiles (a b : Tensor) : OutTiles := ⟨ceilDiv (szOf a 1) 256, ceilDiv (szOf b 1) 256, szOf a 2⟩

/-- The sizes of TLOAD (R264). -/
def tloadShapes (d a : Tensor) : Bool :=
  szOf d 0 == szOf a 1 && szOf d 1 == szOf a 0 && szOf d 2 == szOf a 2 && szOf d 3 == szOf a 3

/-- Sparse forms of TLOAD (R176, R264): an NM destination in bitmap form with M = 4, and a dense or
NM source. -/
def tloadLayouts (d a : Tensor) : Bool :=
  (!d.sparse || (d.layout == 0 && d.nmM == 4 && d.nmBitmap)) && (!a.sparse || a.layout == 0)

/-- The tiles of TLOAD: 256 × 256 elements each (R264). -/
def tloadTotal (d : Tensor) : Nat :=
  ceilDiv (szOf d 0) 256 * ceilDiv (szOf d 1) 256 * szOf d 2 * szOf d 3

/-- Decode a matrix word into Laurel work (R241, R253, R263, R264): FORMAT, RANGE, ALIGN (R578). TLOAD takes no
notice of A16 and SPARSE, of which R264 says nothing (DESIGN CHOICE, assumption 121). A dispatched instruction that
feeds a digest takes the queue's next number. (DEDUCED, assumption 19; DESIGN CHOICE, assumption 121). -/
def matrixSetup (s : State) (q : Nat) (Q : Queue) (w : Word) : Except Res LaurelWork :=
  match topOf s Q.job with
  | none => .error .format
  | some t =>
    let op := wOpcode w
    let regs := if op = 0x62 then [wR3 w, wR2 w]
      else [wR3 w, wR2 w, wR1 w] ++ (if op = 0x61 then [wR0 w] else [])
    match resolveAll t Q regs with
    | .error e => .error e
    | .ok ts =>
      let d := ts.getD 0 default
      let a := ts.getD 1 default
      let b := ts.getD 2 default
      let c := ts[3]?
      let base : LaurelWork :=
        { queue := q, job := Q.job, fromMtx := Q.qtype == .mtx, word := w, d := d, a := a
          b := ts[2]?, c := c, a16 := mA16 w, sparse := mSparse w, flag := mFlag w
          pass := 0, total := 0, kLo := 0, acc := [], tileOff := 0, fed := []
          feedId := if Q.qtype == .mtx || d.digest.isNone then none else some Q.feedNext }
      if op = 0x62 then
        if !(tloadShapes d a && tloadLayouts d a && a.fmt != .int64 && d.fmt != .int64) then
          .error .format
        else if !(ts.all inScratch) then .error .range
        else if !(ts.all matrixAligned) then .error .align
        else .ok { base with total := tloadTotal d }
      else if !(mmShapes d a b c && mmFormats w d a b c) then .error .format
      else if !(ts.all inScratch) then .error .range
      else if !(ts.all matrixAligned) then .error .align
      else
        let p := mmTiles a b
        .ok { base with total := p.mt * p.nt * p.bt }

/-- Append work to a die's Laurel list (R265). -/
def pushLaurel (s : State) (die : Nat) (wk : LaurelWork) : State :=
  { s with comp := { s.comp with laurel := s.comp.laurel.modify die (· ++ [wk]) } }

/-- A matrix instruction issues (R265): from an MTX queue the word stays until its passes complete;
from a VEC queue the work is dispatched and the queue goes on. (DEDUCED, assumption 6). -/
def matrixIssue (op q : Nat) (s : State) : State :=
  issue op q s (fun w Q s =>
    match matrixSetup s q Q w with
    | .error r => .refuse r
    | .ok wk =>
      let s := pushLaurel s Q.die wk
      if wk.fromMtx then .stay (setQueue s q (fun Q => { Q with mtxBusy := true }))
      else .done (holdFeed s q wk.feedId))

/-! ### Block passes -/

/-- What a pass comes to: its writes, the values that the next pass takes on, flags, anomalies and accesses, the K
index and tile offset after it, and whether it completes its output tile. -/
structure PassOut where
  writes : List WriteOp
  acc : List Nat
  flags : FpFlags
  anomalies : List (Nat × Nat)
  accs : List Acc
  kLo : Nat
  tileOff : Nat
  last : Bool
  deriving DecidableEq, Repr, Inhabited

/-- The values of K indices [lo, hi) of row `r` of B: a tile's absent positions are pruned (R117). -/
def bColumn (s : State) (job : Nat) (b : Tensor) (r lo hi : Nat) : List (Option Nat) :=
  if b.sparse then
    let t := tileAt s job b r
    (List.range (hi - lo)).map (fun i => lookupLast (r * szOf b 0 + lo + i) t.recs)
  else (List.range (hi - lo)).map (fun i => some (readElem s job b (coordsOf b.sizes (r * szOf b 0 + lo + i))))
where
  lookupLast (p : Nat) (rs : List Rec) : Option Nat :=
    rs.foldl (fun a r => if r.1 = p then some r.2 else a) none

/-- Indices of a tile of 256 along a dimension of length `len`. -/
def tileRange (t len : Nat) : List Nat :=
  (List.range 256).filterMap (fun i => if 256 * t + i < len then some (256 * t + i) else none)

/-- The anomalies of tiles of a sparse operand, as (kind, tile) (R177). -/
def tileAnoms (s : State) (job : Nat) (t : Tensor) (rs : List Nat) : List (Nat × Nat) :=
  rs.flatMap (fun r => (tileAt s job t r).anomalies.map (fun k => (k, r)))

/-- Whether tile `r` of a sparse operand has DENSE set (R163). -/
def tileDense (s : State) (job : Nat) (t : Tensor) (r : Nat) : Bool :=
  thDense (leVal (readVAs s job (tileAddr s job t r) 8))

/-- The K indices of the pass at index `lo` of the output tile with rows `rs` of B: a pass whose block holds a 2:4
tile with DENSE set runs at the dense geometry (R175, R221). (DEDUCED, assumption 19). -/
def passHi (s : State) (job : Nat) (wk : LaurelWork) (b : Tensor) (rs : List Nat) (lo : Nat) : Nat :=
  let sp := wk.sparse && !rs.any (tileDense s job b)
  min (szOf wk.a 0) (lo + kPass wk.a.fmt b.fmt sp)

/-- The writes and flags of one row of results: element by element, or block by block for an MX destination
(R76, R114). -/
def rowOut (d : Tensor) (co : Nat → List Nat) (cols : List Nat) (vs : List (Nat × FVal)) : List WriteOp × FpFlags :=
  if d.fmt.isMx then
    let bs := (chunksOf 32 (cols.zip vs)).map (fun blk =>
      let (sc, els, f) := encodeBlock d.fmt (blk.map (fun c => c.2.2))
      (blockWrite d (co (blk.headD default).1) sc els, f))
    (bs.flatMap Prod.fst, bs.foldl (fun f b => f ||| b.2) 0)
  else (cols.zip vs).foldl (fun a c => (a.1 ++ [elemWrite d (co c.1) c.2.1], a.2)) ([], 0)

/-- One block pass of MMUL or MMAC (R220, R221): the accumulators of the tile's elements, row by row; the pass that
reaches K writes them back. The tiles of B are decoded and their anomalies counted in the pass that reads them
first. (DEDUCED, assumption 8; DEDUCED, assumption 19). -/
def blockPass (s : State) (job : Nat) (wk : LaurelWork) (b : Tensor) : PassOut :=
  let p := mmTiles wk.a b
  let nt := wk.pass % p.nt
  let mt := wk.pass / p.nt % p.mt
  let bt := wk.pass / (p.nt * p.mt)
  let rows := tileRange mt (szOf wk.a 1)
  let cols := tileRange nt (szOf b 1)
  let brow (n : Nat) : Nat := bt * szOf b 1 + n
  let lo := wk.kLo
  let hi := passHi s job wk b (cols.map brow) lo
  let bv := cols.map (fun n => (bColumn s job b (brow n) lo hi, n))
  let aVal (m k : Nat) : FVal × FpFlags :=
    let co := [k, m, bt, 0]
    let r := readElem s job wk.a co
    if wk.a16 then flushIn wk.a.fmt r
    else (wk.a.fmt.decode (if wk.a.fmt.isMx then readScale s job wk.a co else 0) r, 0)
  let bVal (n k r : Nat) : FVal × FpFlags :=
    if wk.a16 then flushIn b.fmt r
    else (b.fmt.decode (if b.fmt.isMx then readScale s job b [k, n, bt, 0] else 0) r, 0)
  let start (m n : Nat) (i : Nat) : Option Nat :=
    if lo ≠ 0 then some (wk.acc.getD i 0)
    else wk.c.map (fun c => (enc32 (readValue s job c [n, m, bt, 0])).1)
  let cells : List (List (Nat × FpFlags)) := rows.zipIdx.map (fun rm => bv.zipIdx.map (fun bn =>
    let terms := bn.1.1.zipIdx.map (fun x => match x.1 with
      | none => (none, (0 : FpFlags))
      | some r =>
        let (av, f) := aVal rm.1 (lo + x.2)
        let (w, g) := bVal bn.1.2 (lo + x.2) r
        (some (av, w), f ||| g))
    let ff : FpFlags := terms.foldl (fun f x => f ||| x.2) 0
    let st := start rm.1 bn.1.2 (rm.2 * cols.length + bn.2)
    let (v, g) := if wk.a16 then dotAligned (terms.filterMap Prod.fst) (st.getD 0)
      else dotNative (terms.map Prod.fst) st
    (v, ff ||| g)))
  let f : FpFlags := cells.flatten.foldl (fun f c => f ||| c.2) 0
  let last := szOf wk.a 0 ≤ hi
  let d := wk.d
  let outs : List (List WriteOp × FpFlags) := if !last then [] else (rows.zip cells).map (fun r =>
    let cs := r.2.map (fun c => (convertTo d.fmt (dec32 c.1), dec32 c.1))
    let (ws, g) := rowOut d (fun n => [n, r.1, bt, 0]) cols (cs.map (fun c => (c.1.1, c.2)))
    (ws, cs.foldl (fun f c => f ||| (if d.fmt == .fp32 || d.fmt.isMx then 0 else c.1.2)) g))
  let ks := (List.range (hi - lo)).map (· + lo)
  { writes := outs.flatMap Prod.fst
    acc := if last then [] else cells.flatten.map Prod.fst
    flags := outs.foldl (fun f o => f ||| o.2) f
    anomalies := if b.sparse && lo == 0 && mt == 0 then tileAnoms s job b (cols.map brow) else []
    accs := (rows.flatMap (fun m => ks.flatMap (fun k => readAccs wk.a [k, m, bt, 0])))
      ++ (if b.sparse then sparseReadAccs s job b (cols.map brow)
          else cols.flatMap (fun n => ks.flatMap (fun k => readAccs b [k, n, bt, 0])))
      ++ (match wk.c with
          | some c => if lo = 0 then
              rows.flatMap (fun m => cols.flatMap (fun n => readAccs c [n, m, bt, 0])) else []
          | none => [])
      ++ (if last then rows.flatMap (fun m => cols.flatMap (fun n => writeAccs d [n, m, bt, 0])) else [])
    kLo := if last then 0 else hi, tileOff := 0, last := last }

/-- An NM tile in bitmap form from the present positions of a row (R176), and whether it is not encodable: a group
with more than N present positions makes the tile dense. -/
def formPresent (t : TileSpec) (row : List (Option Nat)) : List Byte × Bool :=
  let dense := row.map (·.getD 0)
  if (chunksOf t.m row).any (fun g => t.n < (g.filter Option.isSome).length) then (denseTile t dense, true)
  else
    let vs := row.filterMap id
    (chooseTile t dense vs.length (bitsToBytes (row.map Option.isSome) ++ packValues t.fmt vs), false)

/-- Swap dimensions 0 and 1 of coordinates. -/
def swapCoords : List Nat → List Nat
  | a :: b :: rest => b :: a :: rest
  | cs => cs

/-- The source element of a TLOAD at coordinates of A, raw; `none` where it is not present: a position that a tile
does not name, or an element of a dense source whose bits are all zero (DESIGN CHOICE, assumption 122). -/
def tloadSource (s : State) (job : Nat) (a : Tensor) (co : List Nat) : Option Nat :=
  if a.sparse then
    let n := elemIndex a.sizes co
    bColumn.lookupLast n (tileAt s job a (n / szOf a 0)).recs
  else
    let r := readElem s job a co
    if r = 0 then none else some r

/-- One element of a TLOAD: the raw result, the value for an MX block, and the flags of the conversion (R264). -/
def tloadElem (s : State) (job : Nat) (d a : Tensor) (co : List Nat) : Option Nat × FVal × FpFlags :=
  let src := tloadSource s job a co
  let r := src.getD 0
  let x := a.fmt.decode (if a.fmt.isMx then readScale s job a co else 0) r
  let v := enterVal a.fmt x
  if d.fmt.isMx then (src, v, enterFlags a.fmt x)
  else if a.fmt = d.fmt then (src, v, 0)
  else
    let (b, f) := convertTo d.fmt v
    (src.map (fun _ => b), v, f ||| enterFlags a.fmt x)

/-- One tile of 256 × 256 of a TLOAD (R176, R264). A row of an NM destination is one tile of the layout, so its
elements are held over the tiles of its row band and written with the last of them; anomalies of the source count
in the tile that reads a row of it first. (DEDUCED, assumption 19). -/
def tloadTile (s : State) (job : Nat) (wk : LaurelWork) : PassOut :=
  let d := wk.d
  let a := wk.a
  let ct := ceilDiv (szOf d 0) 256
  let rt := ceilDiv (szOf d 1) 256
  let cols := tileRange (wk.pass % ct) (szOf d 0)
  let rows := tileRange (wk.pass / ct % rt) (szOf d 1)
  let outer := wk.pass / (ct * rt)
  let co (r c : Nat) : List Nat := [c, r, outer % max 1 (szOf d 2), outer / max 1 (szOf d 2)]
  let els := rows.map (fun r => (r, cols.map (fun c => tloadElem s job d a (swapCoords (co r c)))))
  let f : FpFlags := els.foldl (fun f e => e.2.foldl (fun f x => f ||| x.2.2) f) 0
  let arows := cols.map (fun c => outer * szOf a 1 + c)
  let rd := if a.sparse then sparseReadAccs s job a arows
    else rows.flatMap (fun r => cols.flatMap (fun c => readAccs a (swapCoords (co r c))))
  let an := if a.sparse && wk.pass / ct % rt == 0 then tileAnoms s job a arows else []
  if d.sparse then
    let held := wk.acc ++ els.flatMap (fun e => e.2.map (fun x => match x.1 with
      | some b => b + 1
      | none => 0))
    if wk.pass % ct + 1 < ct then ⟨[], held, f, an, rd, 0, wk.tileOff, true⟩
    else
      let row (i : Nat) : List (Option Nat) := (List.range ct).flatMap (fun c =>
        let k := (tileRange c (szOf d 0)).length
        (slice held (c * 256 * rows.length + i * k) k).map (fun x => if x = 0 then none else some (x - 1)))
      let r0 := outer * szOf d 1 + rows.headD 0
      let tiles := (List.range rows.length).map (fun i => formPresent (tileSpecOf d) (row i))
      let (ws, off) := tilesFrom d r0 wk.tileOff (tiles.map Prod.fst)
      ⟨ws, [], f, an ++ tiles.zipIdx.flatMap (fun t => if t.1.2 then [(8, r0 + t.2)] else []),
        rd ++ ws.map WriteOp.acc, 0, off, true⟩
  else
    let outs := els.map (fun e => rowOut d (co e.1) cols (e.2.map (fun x => (x.1.getD 0, x.2.1))))
    ⟨outs.flatMap Prod.fst, [], outs.foldl (fun f o => f ||| o.2) f, an,
      rd ++ rows.flatMap (fun r => cols.flatMap (fun c => writeAccs d (co r c))), 0, 0, true⟩

/-- One pass of a Laurel work. -/
def laurelPass (s : State) (job : Nat) (wk : LaurelWork) : PassOut :=
  if wOpcode wk.word = 0x62 then tloadTile s job wk else blockPass s job wk (wk.b.getD default)

/-- The work that a die's array takes next (R265, R424): higher job priority first, then arrival;
work of an MTX queue needs its queue in RUN. -/
def nextLaurel (s : State) (die : Nat) : Option (Nat × LaurelWork) :=
  let ws := (s.comp.laurel.getD die []).zipIdx.filter (fun p =>
    !p.1.fromMtx || (queueAt s p.1.queue).st == .run)
  (ws.foldl (fun (best : Option (LaurelWork × Nat)) p =>
    match best with
    | none => some p
    | some b => if jobPriority s b.1.job < jobPriority s p.1.job then some p else best) none).map
    (fun p => (p.2, p.1))

end Sys2Proof.Machine
end

