-- ==== Sys2Proof/Machine/Bpm.lean ====
section
/-! DEFINITION. Lanes, ports and the buffer pool manager: access to them, their counters, allocation
under quotas (R372 to R375), occupancy levels (R376, R377), shared buffers (R378), pointer checks
(R379) and violations (R380 to R382). -/

namespace Sys2Proof.Machine

/-! ### Access -/

/-- Lane `l`. -/
def laneAt (s : State) (l : Nat) : Lane := lookupD s.fab.lanes l {}

/-- Change lane `l`. -/
def setLane (s : State) (l : Nat) (f : Lane → Lane) : State :=
  { s with fab := { s.fab with lanes := insertKey s.fab.lanes l (f (laneAt s l)) } }

/-- Port `p`. -/
def portAt (s : State) (p : Nat) : Port := lookupD s.fab.ports p {}

/-- Change port `p`. -/
def setPort (s : State) (p : Nat) (f : Port → Port) : State :=
  { s with fab := { s.fab with ports := insertKey s.fab.ports p (f (portAt s p)) } }

/-- A list with element `i` changed. -/
def bumpAt (xs : List Nat) (i n : Nat) : List Nat := xs.modify i (fun x => satAdd x n)

/-- Add to LNK.CNT[k] of a lane (R363). -/
def cntLane (s : State) (l k n : Nat) : State :=
  setLane s l (fun L => { L with cnt := bumpAt L.cnt k n })

/-- Whether `p` names a configured port of lanes: its lowest lane (R35, R36). (DESIGN CHOICE, assumption 31). -/
def isLanePort (s : State) (p : Nat) : Bool := p < 272 && s.fab.ports.any (fun e => e.1 == p)

/-- The port that a lane belongs to (R35). (DESIGN CHOICE, assumption 31). -/
def portOf (s : State) (l : Nat) : Option Nat :=
  (s.fab.ports.find? (fun e => e.1 < 272 && e.1 ≤ l && l < e.1 + e.2.lanes)).map (·.1)

/-- The lanes of a port. -/
def portLanes (s : State) (p : Nat) : List Nat := (List.range (portAt s p).lanes).map (· + p)

/-- A port is up while every lane of it is trained (R37). -/
def portUp (s : State) (p : Nat) : Bool :=
  isLanePort s p && (portLanes s p).all (fun l => (laneAt s l).st == .up)

/-- A port ID of the table "Port ID space" (R34). (DEDUCED, assumption 87). -/
def portIdOk (p : Nat) : Bool := p < 272 || (0x140 ≤ p && p < 0x150) || p == 0x180 || p == 0x1FF

/-- The die of a compute-die port (R34). -/
def diePort (p : Nat) : Option Nat := if 0x140 ≤ p && p < 0x150 then some ((p - 0x140) / 4) else none

/-! ### Pools -/

/-- BPM instance `i`. -/
def bpmAt (s : State) (i : Nat) : Bpm := s.fab.bpm.getD i {}

/-- Change BPM instance `i`. -/
def setBpm (s : State) (i : Nat) (f : Bpm → Bpm) : State :=
  { s with fab := { s.fab with bpm := s.fab.bpm.modify i f } }

/-- Add to BPM.CNT[k] (R390). -/
def cntBpm (s : State) (i k n : Nat) : State := setBpm s i (fun B => { B with cnt := bumpAt B.cnt k n })

/-- Bytes of a pool's block: 256 B, 1, 4 or 16 KiB (R372). -/
def blockBytes (P : Pool) : Nat := 256 * 4 ^ P.block

/-- Size of a pool in its units, cells or blocks. -/
def poolUnits (P : Pool) : Nat := P.cells / 4 ^ P.block

/-- The pool and units of a request of `n` bytes (R372): CHAIN takes cells of pool 0; SIZED takes one
block of the smallest non-empty pool whose block fits, or blocks of the largest non-empty pool. -/
def poolFor (B : Bpm) (n : Nat) : Option (Nat × Nat) :=
  if !B.sized then some (0, max 1 (ceilDiv n 256))
  else
    let ne := (List.range B.pools.length).filter (fun p => (B.pools.getD p {}).cells != 0)
    match ne.find? (fun p => n ≤ blockBytes (B.pools.getD p {})) with
    | some p => some (p, 1)
    | none =>
      match ne.getLast? with
      | some p => some (p, ceilDiv n (blockBytes (B.pools.getD p {})))
      | none => none

/-- MIN and MAX of a requester in a pool (R374). -/
def quotaOf (B : Bpm) (pool req : Nat) : Nat × Nat :=
  match B.quotas.find? (fun q => q.pool == pool && q.req == req) with
  | some q => (q.min, q.max)
  | none => (0, (B.pools.getD pool {}).defMax)

/-- Units that a requester holds in a pool. -/
def usedBy (B : Bpm) (pool req : Nat) : Nat :=
  ((B.allocs.filter (fun a => a.pool == pool && a.req == req)).map (·.units)).sum

/-- Units in use within minimums, over the requesters of a pool. -/
def minUsed (B : Bpm) (pool : Nat) : Nat :=
  (((B.allocs.filter (fun a => a.pool == pool)).map (·.req)).eraseDups.map
    (fun r => min (quotaOf B pool r).1 (usedBy B pool r))).sum

/-- Units in use in the shared part of a pool. -/
def sharedUsed (B : Bpm) (pool : Nat) : Nat :=
  ((B.allocs.filter (fun a => a.pool == pool)).map (·.units)).sum - minUsed B pool

/-- Size of the shared part: the pool less its reserved minimums (R374). -/
def sharedSize (B : Bpm) (pool : Nat) : Nat :=
  poolUnits (B.pools.getD pool {})
    - ((B.quotas.filter (fun q => q.pool == pool)).map (·.min)).sum

/-- Occupancy in percent, rounded down (R376). -/
def occupancy (B : Bpm) (pool : Nat) : Nat :=
  if sharedSize B pool = 0 then 0 else 100 * sharedUsed B pool / sharedSize B pool

/-- The level of a pool for an occupancy of `u` of `n` units: a level is entered at its threshold and
left 2 points below it (R376). -/
def levelOf (P : Pool) (u n : Nat) : Nat :=
  let reach (t : Nat) : Bool := n != 0 && t * n ≤ 100 * u
  let keep (t : Nat) : Bool := n != 0 && (t - 2) * n < 100 * u
  if reach P.crit || (P.level ≥ 3 && keep P.crit) then 3
  else if reach P.press || (P.level ≥ 2 && keep P.press) then 2
  else if reach P.notice || (P.level ≥ 1 && keep P.notice) then 1
  else 0

/-- A grant change is to be announced (R352). (DEDUCED, assumption 56). -/
def creditDirty (s : State) (P : Port) : Port :=
  { P with creditDue := match P.creditDue with | some t => some t | none => some s.now }

/-- Return `n` credits of a class to the peer of a port (R353). (DESIGN CHOICE, assumption 34). -/
def returnCredit (s : State) (p cls n : Nat) : State :=
  setPort s p (fun P => creditDirty s
    { P with grantRx := P.grantRx.modify cls (fun g => (g + n) % 2 ^ 32) })

/-- Credits withheld for a pool go back to every port when the pool leaves PRESS (R377).
(DESIGN CHOICE, assumption 34). -/
def releaseWithheld (s : State) (inst pool : Nat) : State :=
  s.fab.ports.foldl (fun s e =>
    (List.range 8).foldl (fun s c =>
      let k := 32 * inst + 8 * pool + c
      let n := lookupD (portAt s e.1).withheld k 0
      if n = 0 then s
      else returnCredit (setPort s e.1 (fun P => { P with withheld := eraseKey P.withheld k })) e.1 c n)
      s) s

/-- Re-evaluate a pool's level after an allocation or a free (R376, R377). (DESIGN CHOICE, assumption 34). -/
def relevel (s : State) (inst pool : Nat) : State :=
  let B := bpmAt s inst
  let P := B.pools.getD pool {}
  let l := levelOf P (sharedUsed B pool) (sharedSize B pool)
  let s := setBpm s inst (fun B =>
    { B with pools := B.pools.modify pool (fun P => { P with level := l }) })
  let s := if P.level < 1 && 1 ≤ l then cntBpm s inst 1 1 else s
  let s := if P.level < 2 && 2 ≤ l then cntBpm s inst 2 1 else s
  let s := if P.level < 3 && 3 ≤ l then setAttn s aFault else s
  if 2 ≤ P.level && l < 2 then releaseWithheld s inst pool else s

/-- REQ_ID of R373. -/
def reqId (kind unit job : Nat) : Nat := kind * 2 ^ 13 + unit * 16 + job

/-- The outcome of a request for buffer space (R375). -/
inductive AllocRes where
  /-- The state with the allocation, and its number. -/
  | ok (s : State) (id : Nat)
  /-- No shared cell is free. -/
  | wait
  /-- The requester would exceed MAX. -/
  | quota

/-- Whether a request of `n` units lies within MIN, fits the shared part, or exceeds MAX (R375). -/
def allocCheck (B : Bpm) (pool req n : Nat) : Nat :=
  let (mn, mx) := quotaOf B pool req
  let u := usedBy B pool req
  if u + n ≤ mn then 0
  else if mx < u + n then 2
  else
    let now := sharedUsed B pool
    let more := (u + n - mn) - (u - mn)
    if now + more ≤ sharedSize B pool then 0 else 1

/-- Allocate `bytes` for a requester, with its holders and last owner (R372 to R378). An instance
without a pool that fits waits. (DESIGN CHOICE, assumption 33). -/
def bpmAlloc (s : State) (inst req bytes : Nat) (holders : List Holder) : AllocRes :=
  let B := bpmAt s inst
  match poolFor B bytes with
  | none => .wait
  | some (pool, n) =>
    match allocCheck B pool req n with
    | 0 =>
      let id := s.fab.nextAlloc
      let a : Alloc := { id := id, pool := pool, req := req, units := n, holders := holders
                         owner := req, draw := s.freeCtr }
      let s := { s with freeCtr := s.freeCtr + 1, fab := { s.fab with nextAlloc := id + 1 } }
      let s := setBpm s inst (fun B => { B with allocs := B.allocs ++ [a] })
      .ok (relevel (cntBpm s inst 0 1) inst pool) id
    | 1 => .wait
    | _ => .quota

/-- The pointer of an allocation: a cell that the spec does not choose. (DESIGN CHOICE, assumption 33). -/
def Alloc.pointer (a : Alloc) : Nat := (Config.freeWord a.draw).toNat % 2 ^ 20

/-- Allocation `id` of an instance. -/
def allocAt (s : State) (inst id : Nat) : Option Alloc := (bpmAt s inst).allocs.find? (fun a => a.id == id)

/-- The cells go back once the free has come and no holder remains (R378). -/
def settleAlloc (s : State) (inst id : Nat) : State :=
  match allocAt s inst id with
  | none => s
  | some a =>
    if a.freed && a.holders.isEmpty then
      relevel (setBpm s inst (fun B => { B with allocs := B.allocs.filter (fun x => x.id != id) }))
        inst a.pool
    else s

/-- A holder releases once (R378). -/
def releaseHolder (s : State) (inst id : Nat) (h : Holder) : State :=
  settleAlloc (setBpm s inst (fun B => { B with allocs := B.allocs.map (fun a =>
    if a.id == id then { a with holders := a.holders.erase h } else a) })) inst id

/-- The last owner frees (R378). -/
def freeAlloc (s : State) (inst id : Nat) : State :=
  settleAlloc (setBpm s inst (fun B => { B with allocs := B.allocs.map (fun a =>
    if a.id == id then { a with freed := true } else a) })) inst id

/-- An ordinary allocation ends: its holder and last owner in one (R378). -/
def dropAlloc (s : State) (inst id : Nat) : State :=
  match allocAt s inst id with
  | none => s
  | some a => relevel (setBpm s inst (fun B => { B with allocs := B.allocs.filter (fun x => x.id != id) }))
      inst a.pool

/-- A unit leaves an output queue (R368, R378): the queue releases its hold on a shared buffer; an
ordinary unit's cells return. -/
def leaveAlloc (s : State) (a : Option Nat) (p cls job : Nat) : State :=
  match a with
  | none => s
  | some id =>
    match allocAt s 0 id with
    | none => s
    | some x => if x.req / 2 ^ 13 % 8 = 0 then dropAlloc s 0 id else releaseHolder s 0 id (.queue p cls job)

/-- An output queue becomes a holder of a shared buffer (R378). -/
def holdAlloc (s : State) (id p cls job : Nat) : State :=
  setBpm s 0 (fun B => { B with allocs := B.allocs.map (fun a =>
    if a.id == id then { a with holders := a.holders ++ [.queue p cls job] } else a) })

/-! ### Pointer checks and violations -/

/-- Violation kinds by their bit in BPM.VIOL (R389). -/
inductive Violation where
  | range | align | quota | wrongFree
  deriving DecidableEq, Repr

/-- The bit of a violation in BPM.VIOL. -/
def Violation.bit : Violation → Nat
  | .range => 62 | .align => 61 | .quota => 60 | .wrongFree => 59

/-- Check 1 to 3 of a pointer that a master hands back for pool `pool` (R379). A pointer that passes
them is the start of an allocated buffer of the requester. (DESIGN CHOICE, assumption 33). -/
def pointerCheck (B : Bpm) (req pool ptr : Nat) : Option Violation :=
  let P := B.pools.getD pool {}
  let inRange := if B.sized then P.first ≤ ptr && ptr < P.first + P.cells
    else ptr < ((B.pools.map (·.cells)).sum)
  if !inRange then some .range
  else if B.sized && ptr % 4 ^ P.block != 0 then some .align
  else if B.allocs.any (fun a => a.pool == pool && a.req == req && a.pointer == ptr) then none
  else some .wrongFree

/-- KIND of a REQ_ID (R373). -/
def reqKind (r : Nat) : Nat := r / 2 ^ 13 % 8
/-- UNIT of a REQ_ID. -/
def reqUnit (r : Nat) : Nat := r / 16 % 2 ^ 9
/-- JOB of a REQ_ID. -/
def reqJob (r : Nat) : Nat := r % 16

/-- Whether a queue was halted in the transfer of the present event (R295). (DEDUCED, assumption 23). -/
def haltedNow (s : State) (Q : Queue) : Bool :=
  Q.st == .halted && (match Q.lastHalt with | some (t, _, _) => t == s.now | none => false)

/-- The queues that a freeze of a requester takes into FROZEN (R380). (DEDUCED, assumption 23). -/
def freezeQueues (s : State) (req : Nat) : List Nat :=
  (List.range 64).filter (fun q =>
    let Q := queueAt s q
    Q.bound && Q.job == reqJob req &&
    (Q.st == .run || Q.st == .wait || Q.st == .preempted || haltedNow s Q) &&
    match reqKind req with
    | 1 => Q.qtype == .coll
    | 2 => Q.qtype == .dma && Q.die == reqUnit req / 32
    | _ => false)

/-- A queue enters FROZEN; a halt of the same transfer is pending (R295). -/
def frozenQueue (s : State) (Q : Queue) : Queue :=
  match haltedNow s Q, Q.lastHalt with
  | true, some (_, from', h) => { Q with st := .frozen, frozenFrom := from', cause := none, pendingHalt := some h }
  | _, _ => { Q with st := .frozen, frozenFrom := Q.st }

/-- Whether a requester of an instance is frozen. -/
def isFrozen (s : State) (inst req : Nat) : Bool := (bpmAt s inst).frozen.contains req

/-- A violation freezes its requester, records it and sets FAULT (R380, R382). -/
def freeze (s : State) (inst req pool : Nat) (v : Violation) (ptr : Nat) : State :=
  let B := bpmAt s inst
  let s := setAttn (cntBpm s inst 5 1) aFault
  if B.frozen.contains req then
    setBpm s inst (fun B => { B with viol := B.viol.map (fun r =>
      if natBit r 63 && natField r 55 40 == req then setField r v.bit v.bit 1 else r) })
  else
    let rec0 := 2 ^ 63 + 2 ^ v.bit + (req % 2 ^ 16) <<< 40 + (pool % 4) <<< 38 + ptr % 2 ^ 20
    let s := ringLog s (6 + inst) 0x04 [rec0]
    let s := setBpm s inst (fun B =>
      let B := { B with frozen := B.frozen ++ [req] }
      match B.viol.findIdx? (fun r => !natBit r 63) with
      | some i => { B with viol := B.viol.set i rec0 }
      | none => { B with overflow := true })
    (freezeQueues s req).foldl (fun s q =>
      setQueue s q (frozenQueue s)) s

end Sys2Proof.Machine
end

