-- ==== Sys2Proof/Machine/Link.lean ====
section
/-! DEFINITION. Calnal Link: packing and CRCs of units (R338, R339, R342), routes (R348), output queues
and their fair queueing (R368, R393 to R398), gate windows (R310 to R313), retry (R349 to R351), credits
(R352 to R354), ageing (R355) and lane bring-up (R358, R359). -/

namespace Sys2Proof.Machine

/-! ### Packing -/

/-- Pack fields of given widths, first field most significant (R16). -/
def packFields (fs : List (Nat × Nat)) : Nat := fs.foldl (fun a f => a * 2 ^ f.1 + f.2 % 2 ^ f.1) 0

/-- Header bytes 0 to 29 of a frame (R338), or 0 to 13 of a cell (R339). -/
def headerBytes (u : LinkUnit) : List Byte :=
  if u.cell then
    beBytes 14 (packFields [(4, u.typ), (4, u.job), (2, u.epoch), (10, u.linkSeq), (48, u.route),
      (16, u.ordinal), (15, u.rank), (13, u.ofc)])
  else
    beBytes 30 (packFields [(4, u.typ), (3, u.cls), (4, u.job), (2, u.epoch), (5, u.flags),
      (10, u.linkSeq), (80, u.route), (32, u.ordinal), (24, u.chunk), (15, u.rank), (16, u.flowSeq),
      (13, u.length), (32, u.inject)])

/-- HCRC of R342: CRC-16 with polynomial 0x1021 and initial value 0xFFFF. (DEDUCED, assumption 30). -/
def headerCrc (u : LinkUnit) : Nat := crcMsb 16 0x1021 0xFFFF (headerBytes u)

/-- CRC-32C of R342. (DEDUCED, assumption 30). -/
def crc32c (bs : List Byte) : Nat := crcLsb 0x82F63B78 0xFFFFFFFF bs ^^^ 0xFFFFFFFF

/-- A unit with its HCRC recomputed (R346). -/
def sealHeader (u : LinkUnit) : LinkUnit := { u with hcrc := headerCrc u }

/-- A unit that this module forms: both checks computed. (DEDUCED, assumption 30). -/
def sealUnit (u : LinkUnit) : LinkUnit := sealHeader { u with crc := crc32c u.payload }

/-- Pad bytes with zeros to `n`. -/
def padTo (n : Nat) (bs : List Byte) : List Byte := bs ++ List.replicate (n - bs.length) 0

/-- Size on the wire (R349). -/
def unitSize (u : LinkUnit) : Nat := if u.cell then 64 else 40 + u.length

/-- Credits of a unit (R352). -/
def unitCost (u : LinkUnit) : Nat := if u.cell then 1 else ceilDiv (u.length + 40) 256

/-- Class of a unit: a cell travels in class 0 (R339). -/
def unitClass (u : LinkUnit) : Nat := if u.cell then 0 else u.cls

/-- CREDIT, LINK_NAK and TIME are link-local (R341). -/
def isLinkLocal (typ : Nat) : Bool := typ == 8 || typ == 9 || typ == 10

/-- TYPE has the form of a cell (R341). -/
def isCellType (typ : Nat) : Bool := typ == 1 || typ == 6 || typ == 8 || typ == 9 || typ == 13

/-- A frame of 256 payload bytes that carries a control payload (R340). -/
def controlFrame (typ job epoch ordinal chunk rank : Nat) (pl : List Byte) : LinkUnit :=
  { typ := typ, job := job, epoch := epoch % 4, ordinal := ordinal, chunk := chunk, rank := rank
    length := 256, payload := padTo 256 pl }

/-! ### Routes -/

/-- Hop pointer of a unit (R338, R339). -/
def hopPtr (u : LinkUnit) : Nat := if u.cell then natField u.route 47 45 else natField u.route 79 76

/-- Hops that the form has. -/
def hopMax (u : LinkUnit) : Nat := if u.cell then 5 else 8

/-- Hop `h` of a unit. -/
def hopAt (u : LinkUnit) (h : Nat) : Nat :=
  if u.cell then natField u.route (44 - 9 * h) (36 - 9 * h) else natField u.route (75 - 9 * h) (67 - 9 * h)

/-- The unit with its hop pointer advanced (R346). -/
def advanceHop (u : LinkUnit) : LinkUnit :=
  if u.cell then { u with route := setField u.route 47 45 (hopPtr u + 1) }
  else { u with route := setField u.route 79 76 (hopPtr u + 1) }

/-- Hop `h` of an 80-bit route image. -/
def routeHop (image h : Nat) : Nat := natField image (75 - 9 * h) (67 - 9 * h)

/-- Hops of a route image up to and including the one that delivers: a compute-die port, the service
port, local, or a port whose peer is an endpoint (R348). -/
def routeHops (s : State) (image : Nat) : Nat :=
  let delivers (p : Nat) : Bool :=
    (diePort p).isSome || p == 0x180 || p == 0x1FF || natBit (laneAt s p).idleWord 59
  match (List.range 8).find? (fun h => delivers (routeHop image h)) with
  | some h => h + 1
  | none => 8 - ((List.range 8).reverse.takeWhile (fun h => routeHop image h == 0)).length

/-- The cell form of a route of at most five hops (R289, R339). -/
def cellRoute (image : Nat) : Nat :=
  (List.range 5).foldl (fun r h => setField r (44 - 9 * h) (36 - 9 * h) (routeHop image h)) 0

/-! ### Gate lists -/

/-- The active variant of a port's gate list; none where the port runs ungated (R308). -/
def activeList (s : State) (p : Nat) : Option (List (Nat × Nat)) :=
  let sc := s.fab.tim.sched
  if sc.active then
    match (portAt s p).gate with
    | [] => none
    | ls => some (ls.getD sc.factor [])
  else none

/-- Cycle length under a factor code: CYCLE_NS × (4 + code) / 4 (R317). -/
def cycleLen (cycle code : Nat) : Nat := cycle * (4 + code) / 4

/-- Position in the cycle of a list that began at `base` (R310). -/
def cyclePos (now base len : Nat) : Nat := if len = 0 then 0 else (now - base) % len

/-- Entries of a list with their start and end in the cycle. -/
def spansFrom (t : Nat) : List (Nat × Nat) → List (Nat × Nat × Nat)
  | [] => []
  | (d, o) :: rest => (t, t + d, o) :: spansFrom (t + d) rest

/-- Two cycles of a list, so that a window that wraps is one run (R312). -/
def spans2 (es : List (Nat × Nat)) : List (Nat × Nat × Nat) := spansFrom 0 (es ++ es)

/-- OPEN mask at a position. -/
def openAt (es : List (Nat × Nat)) (pos : Nat) : Nat :=
  match (spansFrom 0 es).find? (fun e => e.1 ≤ pos && pos < e.2.1) with
  | some e => e.2.2
  | none => 0

/-- Time from a position inside a window of class `k` to the window's close; a class that never
closes leaves a whole cycle (R312). -/
def windowLeft (es : List (Nat × Nat)) (pos k : Nat) : Nat :=
  match (spans2 es).find? (fun e => pos < e.2.1 && !natBit e.2.2 k) with
  | some e => e.1 - pos
  | none => ((es.map (·.1)).sum) * 2 - pos

/-- Openings in two cycles: starts of entries that open a class of `mask` which the entry before them
did not. -/
def openings (es : List (Nat × Nat)) (mask : Nat) : List Nat :=
  let sp := spans2 es
  (sp.zip (sp.drop 1)).filterMap (fun p =>
    if (List.range 8).any (fun k => natBit mask k && natBit p.2.2.2 k && !natBit p.1.2.2 k) then some p.2.1
    else none)

/-- Time from a position to the next opening of any class of `mask`, if any (R312). -/
def nextOpening (es : List (Nat × Nat)) (pos mask : Nat) : Option Nat :=
  ((openings es mask).find? (fun t => pos < t)).map (· - pos)

/-- The close of the first window of class `k` that opened after time `ready` on a list that began at
`base` (R355); a class that is open throughout has no such window. -/
def plannedClose (es : List (Nat × Nat)) (base ready k : Nat) : Option Nat :=
  let len := (es.map (·.1)).sum
  if len = 0 then none
  else
    let pos := cyclePos ready base len
    match (openings es (2 ^ k)).find? (fun t => pos ≤ t) with
    | some t => some (ready + (t - pos) + windowLeft es (t % len) k)
    | none => none

/-- Serialisation time at 200 Gb/s on one lane, in ns (R312, R337). -/
def serialNs (u : LinkUnit) : Nat := ceilDiv (unitSize u) 25

/-- Whether class `k` is gated on port `p` (R308, R394). -/
def isGated (s : State) (p k : Nat) : Bool :=
  (activeList s p).isSome && natBit s.fab.tim.sched.gated k && k != 0

/-- Whether class `k` is gated by the active schedule (R377). -/
def classGated (s : State) (k : Nat) : Bool := s.fab.tim.sched.active && natBit s.fab.tim.sched.gated k

/-- SLOT_GUARD_NS × f, with the larger factor during the first cycle after a swap (R313). -/
def slotGuard (s : State) : Nat :=
  let sc := s.fab.tim.sched
  let f := if s.fabricTime < sc.activeSince + cycleLen sc.cycleNs sc.factor then max sc.factor sc.oldFactor
    else sc.factor
  sc.slotGuard * (4 + f) / 4

/-! ### Fair queueing -/

/-- Child `i` of a node becomes backlogged with a head of charge `l` and weight `w` (R396). -/
def wfqWake (n : Wfq) (i l w : Nat) : Wfq :=
  let st := max n.v (n.f.getD i 0)
  let pad (xs : List Nat) := xs ++ List.replicate (i + 1 - xs.length) 0
  { n with s := (pad n.s).set i st, f := (pad n.f).set i (st + ceilDiv (l * 65536) w) }

/-- The child that a node selects among those that qualify: the smallest start tag, lower index on a
tie (R396). -/
def wfqPick (n : Wfq) : List Nat → Option Nat
  | [] => none
  | i :: is =>
    match wfqPick n is with
    | none => some i
    | some j => if n.s.getD i 0 ≤ n.s.getD j 0 then some i else some j

/-- The node after child `i` was selected and dequeued; `more` is the charge and weight of its new
head while it stays backlogged (R396). -/
def wfqTake (n : Wfq) (i : Nat) (more : Option (Nat × Nat)) : Wfq :=
  let n := { n with v := n.s.getD i 0 }
  match more with
  | none => n
  | some (l, w) =>
    let st := n.f.getD i 0
    { n with s := n.s.set i st, f := n.f.set i (st + ceilDiv (l * 65536) w) }

/-- Charge of a unit at a port (R396). -/
def chargeOf (P : Port) (u : LinkUnit) : Nat := unitSize u + P.overhead

/-- The entries of one output queue, oldest first (R368). -/
def queueOf (P : Port) (cls job : Nat) : List OutEntry :=
  P.out.filter (fun e => unitClass e.unit == cls && e.unit.job == job)

/-- The head of an output queue. -/
def headOf (P : Port) (cls job : Nat) : Option OutEntry := (queueOf P cls job).head?

/-- Class weight of R402. -/
def classWeight (s : State) (job cls : Nat) : Nat := max 1 ((s.fab.classW.getD job []).getD (cls - 1) 1)

/-- Ungated classes of a port. -/
def ungatedClasses (s : State) (p : Nat) : List Nat :=
  ((List.range 8).drop 1).filter (fun k => !isGated s p k)

/-- Tags when a unit has just joined output queue (cls, job): the queue wakes when it was idle, and its
job wakes when none of its ungated queues was backlogged (R395, R396). -/
def wakeTags (s : State) (p : Nat) (P : Port) (u : LinkUnit) : Port :=
  let k := unitClass u
  let l := chargeOf P u
  if k = 0 || (queueOf P k u.job).length ≠ 1 then P
  else if isGated s p k then
    let node := wfqWake (lookupD P.gatedNodes k {}) u.job l (max 1 (P.jobW.getD u.job 1))
    { P with gatedNodes := insertKey P.gatedNodes k node }
  else
    let first := ((ungatedClasses s p).map (fun c => (queueOf P c u.job).length)).sum = 1
    let node := wfqWake (lookupD P.classNodes u.job {}) k l (classWeight s u.job k)
    let P := { P with classNodes := insertKey P.classNodes u.job node }
    if first then { P with jobNode := wfqWake P.jobNode u.job l (max 1 (P.jobW.getD u.job 1)) } else P

/-- Put an entry at the end of its output queue. -/
def enqueue (s : State) (p : Nat) (e : OutEntry) : State :=
  setPort s p (fun P => wakeTags s p { P with out := P.out ++ [e] } e.unit)

/-- Remove the first entry equal to `e`. -/
def dropEntry (P : Port) (e : OutEntry) : Port := { P with out := P.out.erase e }

/-- Child `i` of a node has another head, of charge `l`: F is computed anew (R396, R406). -/
def wfqRehead (n : Wfq) (i l w : Nat) : Wfq := { n with f := n.f.set i (n.s.getD i 0 + ceilDiv (l * 65536) w) }

/-- The head of a job child of the ungated job node: the unit that the job's class node would select (R396). -/
def jobHead (s : State) (p : Nat) (P : Port) (j : Nat) : Option OutEntry :=
  (wfqPick (lookupD P.classNodes j {}) ((ungatedClasses s p).filter (fun c => !(queueOf P c j).isEmpty))).bind
    (fun c => headOf P c j)

/-- The F of one queue whose head has changed from that of `old`; an empty queue keeps F (R406). -/
def reheadQueue (s : State) (p : Nat) (old : Port) (P : Port) (kj : Nat × Nat) : Port :=
  let (k, j) := kj
  match headOf P k j with
  | none => P
  | some e =>
    if headOf old k j = some e then P
    else if isGated s p k then
      let n := wfqRehead (lookupD P.gatedNodes k {}) j (chargeOf P e.unit) (max 1 (P.jobW.getD j 1))
      { P with gatedNodes := insertKey P.gatedNodes k n }
    else
      let n := wfqRehead (lookupD P.classNodes j {}) k (chargeOf P e.unit) (classWeight s j k)
      { P with classNodes := insertKey P.classNodes j n }

/-- The F of one job child whose head has changed from that of `old`. -/
def reheadJob (s : State) (p : Nat) (old : Port) (P : Port) (j : Nat) : Port :=
  match jobHead s p P j with
  | none => P
  | some e =>
    if jobHead s p old j = some e then P
    else { P with jobNode := wfqRehead P.jobNode j (chargeOf P e.unit) (max 1 (P.jobW.getD j 1)) }

/-- The tags of a port from whose queues units were removed without being sent (R406). -/
def rehead (s : State) (p : Nat) (old : Port) (P : Port) : Port :=
  let queues := (List.range 7).flatMap (fun k => (List.range 16).map (fun j => (k + 1, j)))
  (List.range 16).foldl (reheadJob s p old) (queues.foldl (reheadQueue s p old) P)

/-- A unit that this module originates goes to the port that its first hop names, with the pointer
advanced (R346, R348); a unit for a port that is down is discarded (R37). `buf` is the shared buffer that
holds its payload (R378). -/
def originateFrom (buf : Option Nat) (s : State) (u : LinkUnit) : State :=
  let p := hopAt u (hopPtr u)
  let e : OutEntry := { unit := sealUnit (advanceHop u), ready := s.fabricTime, alloc := buf }
  if if p < 272 then portUp s p else portIdOk p then
    let s := match buf with | some b => holdAlloc s b p (unitClass u) u.job | none => s
    enqueue s p e
  else s

/-- A unit that this module originates without a shared buffer. -/
def originate (s : State) (u : LinkUnit) : State := originateFrom none s u

/-- Send a link-local unit on a lane. -/
def sendLocal (s : State) (l : Nat) (u : LinkUnit) : State :=
  setLane s l (fun L => { L with locals := L.locals ++ [sealUnit u] })

/-! ### Credits and acknowledgements -/

/-- Credits of a class that a sender may still use (R352). -/
def creditLeft (grant used : List Nat) (k : Nat) : Nat :=
  (grant.getD k 0 + 2 ^ 32 - used.getD k 0 % 2 ^ 32) % 2 ^ 32

/-- The CREDIT cell of a port: grants and acknowledgements (R344). -/
def creditUnit (s : State) (p : Nat) : LinkUnit :=
  let P := portAt s p
  let grants := P.grantRx.flatMap (fun g => leBytes 4 g)
  let acks := (List.range 4).flatMap (fun i =>
    let L := laneAt s (p + i)
    leBytes 2 (if i < P.lanes && L.st == .up && L.rxAny then
      2 ^ 15 + (L.rxExpect + 1023) % 1024 else 0))
  { cell := true, typ := 8, payload := padTo 40 (grants ++ acks) }

/-- CREDIT_SEND falls due: a grant has changed, acceptances wait for their acknowledgement, or 100 µs
have passed (R350, R352). -/
def creditDueNow (s : State) (p : Nat) : Bool :=
  let P := portAt s p
  P.creditDue.isSome
  || (portLanes s p).any (fun l => (laneAt s l).ackSince.isSome)
  || P.creditAt + 100000 ≤ s.now

/-- Send a CREDIT cell on a lane of a port. -/
def sendCredit (s : State) (p l : Nat) : State :=
  let s := sendLocal s l (creditUnit s p)
  let s := setPort s p (fun P => { P with creditDue := none, creditAt := s.now })
  (portLanes s p).foldl (fun s l =>
    setLane s l (fun L => { L with ackUnits := 0, ackBytes := 0, ackSince := none })) s

/-- CREDIT_SEND (R350, R352). -/
def doCreditSend (l : Nat) (s : State) : State :=
  match portOf s l with
  | some p => if (laneAt s l).st = .up ∧ creditDueNow s p then sendCredit s p l else s
  | none => s

/-- Send LINK_NAK of a cause for the LINK_SEQ that a lane awaits (R344, R350). -/
def sendNak (s : State) (l cause : Nat) : State :=
  let p := (portOf s l).getD l
  let L := laneAt s l
  let u : LinkUnit := { cell := true, typ := 9
                        payload := padTo 40 (leBytes 1 (l - p) ++ leBytes 1 cause ++ leBytes 2 L.rxExpect) }
  let s := cntLane (sendLocal s l u) l 3 1
  if cause = 1 then s
  else setLane s l (fun L => { L with nakAt := some (L.rxExpect, s.now), missing := true, nakCause := cause })

/-- LINK_NAK_REPEAT (R350): every 5 µs while the awaited unit is missing. -/
def doLinkNakRepeat (l : Nat) (s : State) : State :=
  let L := laneAt s l
  match L.nakAt with
  | some (e, t) =>
    if L.st = .up ∧ L.missing ∧ e = L.rxExpect ∧ t + 5000 ≤ s.now then sendNak s l L.nakCause else s
  | none => s

/-! ### Lanes going down and up -/

/-- The units of a down port's output queues are discarded at that hop and counted at their ingress
lanes; their cells return (R37, R368). (DEDUCED, assumption 32). -/
def flushPort (s : State) (p : Nat) : State :=
  (portAt s p).out.foldl (fun s e =>
    let s := match e.ingress with | some i => cntLane s i 11 1 | none => s
    let s := leaveAlloc s e.alloc p (unitClass e.unit) e.unit.job
    setPort s p (fun P => dropEntry P e)) s

/-- A lane goes down with a cause (R359, R567): its retry buffer is discarded and counted, and its
numbering starts again. `report` is false when the host caused the loss with ENABLE. -/
def laneGoesDown (s : State) (l cause : Nat) (report : Bool) : State :=
  let L := laneAt s l
  let lost := L.retry.length
  let s := setLane s l (fun L =>
    { L with st := if L.enable then .down else .disabled
             lightRx := L.lightRx && cause != 1, peerOk := false, polFixed := false, orderFixed := false
             txSeq := 0, rxExpect := 0, retry := [], rounds := 0, resend := [], tx := none, locals := []
             nakAt := none, missing := false, rxAny := false, ackUnits := 0, ackBytes := 0, ackSince := none })
  let s := match L.tx with
    | some t => leaveAlloc s t.alloc ((portOf s l).getD l) (unitClass t.unit) t.unit.job
    | none => s
  let s := if lost = 0 then s else ringLog (cntLane s l 6 lost) (0x500 + l) 0x09 [lost]
  let s := match portOf s l with | some p => flushPort s p | none => s
  if report then setAttn (ringLog s (0x500 + l) 0x02 [l + cause <<< 9]) aFault else s

/-- The lanes of a fabric lane's optical engine: engine e serves lanes 16e to 16e + 15 and one laser input fibre (R45). -/
def engineLanes (l : Nat) : List Nat := if l < 256 then (List.range 16).map (· + 16 * (l / 16)) else []

/-- A fabric lane's engine is without laser input: LASER_IN reads 0 and a lane that was not down goes down; light that
it receives is not concerned (R46, R360, R590). -/
def loseLaser (s : State) (l : Nat) : State :=
  let L := laneAt s l
  let s := if L.st = .down ∨ L.st = .disabled then s else laneGoesDown s l 1 true
  setLane s l (fun M => { M with laserIn := false, lightRx := L.lightRx })

/-- LANE_SIGNAL_DETECT (R359 step 1): light or signal, PMD training and PMA lock; a fabric lane also
needs the laser input of its engine, which LSR_EN admits (R45, R46, R590). (DESIGN CHOICE, assumption 118). -/
def doLaneSignalDetect (l : Nat) (s : State) : State :=
  let L := laneAt s l
  if l < 272 ∧ L.enable ∧ (L.st = .down ∨ L.st = .disabled) ∧ (256 ≤ l ∨ s.pins.lsrEn) then
    let s := (engineLanes l).foldl (fun s k => setLane s k (fun L => { L with laserIn := true })) s
    setLane s l (fun L => { L with st := .light, lightRx := true, laserIn := true })
  else s

/-- FEC_ALIGNMENT_LOCK (R359 step 2): the lane sends only idle words from here on.
(DESIGN CHOICE, assumption 118). -/
def doFecAlignmentLock (l : Nat) (s : State) : State :=
  if (laneAt s l).st = .light then setLane s l (fun L => { L with st := .ident }) else s

/-- Fields of an identity word (R358). -/
def idEndpoint (w : Nat) : Nat := natField w 59 59
/-- INDEX of an identity word. -/
def idIndex (w : Nat) : Nat := natField w 58 44
/-- LANE of an identity word. -/
def idLane (w : Nat) : Nat := natField w 43 35
/-- DOMAIN_LOW of an identity word. -/
def idDomain (w : Nat) : Nat := natField w 31 0

/-- The identity word that this module sends on a lane (R358, R519). -/
def ownIdle (s : State) (l : Nat) : Nat :=
  0xF <<< 60 + s.fab.moduleIndex <<< 44 + l <<< 35 + s.fab.domain % 2 ^ 32

/-- Strictly ascending numbers. -/
def ascending : List Nat → Bool
  | a :: b :: r => a < b && ascending (b :: r)
  | _ => true

/-- A recovery peer on a twin lane, or a module that has applied no configuration (R519). -/
def recoveryPeer (s : State) (w : Nat) : Bool :=
  s.fab.moduleIndex == 0x7FFF || (idIndex w == 0x7FFF && idDomain w == 0)

/-- Step 4 of R359 for a port whose lanes show `words`. -/
def identityOk (s : State) (p : Nat) (words : List Nat) : Bool :=
  match words with
  | [] => false
  | w :: _ =>
    let up := ascending (words.map idLane)
    let down := 0x100 ≤ p && ascending (words.map idLane).reverse
    let same := words.all (fun x =>
      idEndpoint x == idEndpoint w && idIndex x == idIndex w && idDomain x == idDomain w)
    let domain := (0x100 ≤ p && recoveryPeer s w) || idDomain w == s.fab.domain % 2 ^ 32
    let expected := (0x100 ≤ p && recoveryPeer s w) ||
      ((portLanes s p).zip words).all (fun lw => match (laneAt s lw.1).expectPeer with
        | some e => e == lw.2
        | none => true)
    same && domain && expected && (up || down)

/-- A lane that has reached step 3 of R359 and has not passed step 4. -/
def awaitsPeer (L : Lane) : Bool := L.st == .ident && !L.peerOk

/-- PEER_IDENTITY_CHECK (R359 steps 3 to 5): every lane of the port receives identity words, and those that come up have
received 16 identical ones; a lane that stayed up while another trained again stays so. `pol` says that the PMA corrected
a twin lane's polarity. (DESIGN CHOICE, assumption 118). -/
def doPeerIdentityCheck (p : Nat) (words : List Nat) (pol : Bool) (s : State) : State :=
  let all := portLanes s p
  let ls := all.filter (fun l => awaitsPeer (laneAt s l))
  if isLanePort s p ∧ words.length = all.length ∧ ls ≠ [] ∧
      all.all (fun l => awaitsPeer (laneAt s l) || (laneAt s l).st == .up)
  then
    let s := (all.zip words).foldl (fun s lw => setLane s lw.1 (fun L => { L with idleWord := lw.2 })) s
    if identityOk s p words then
      let rev := 0x100 ≤ p && !ascending (words.map idLane)
      let s := ls.foldl (fun s l => setLane s l (fun L =>
        { L with peerOk := true, polFixed := 0x100 ≤ l && pol, orderFixed := rev })) s
      let n := all.length
      let s := setPort s p (fun P =>
        { P with grantRx := (8 * n) :: List.replicate 7 (35 * n), usedRx := List.replicate 8 0
                 grantTx := List.replicate 8 0, usedTx := List.replicate 8 0, withheld := [] })
      ls.foldl (fun s l => sendCredit s p l) s
    else ls.foldl (fun s l => laneGoesDown s l 5 true) s
  else s

/-- LANE_DOWN (R46, R359): light, signal or FEC alignment is lost; an absent laser input takes the lanes of its engine
down and no others. -/
def doLaneDown (l : Nat) (loss : LaneLoss) (s : State) : State :=
  let L := laneAt s l
  match loss with
  | .laser => (engineLanes l).foldl loseLaser s
  | _ => if L.st = .down ∨ L.st = .disabled then s else laneGoesDown s l (if loss = .fec then 2 else 1) true

/-- The lane is taken down and trained again (R351, R362); LNK.CNT[15] counts it. -/
def retrainLane (s : State) (l cause : Nat) : State := laneGoesDown (cntLane s l 15 1) l cause true

/-! ### Retry -/

/-- Start a retransmission round from EXPECT (R351), or retrain when NAK_LIMIT rounds have gone. -/
def startRound (s : State) (l expect : Nat) : State :=
  let L := laneAt s l
  match L.retry.findIdx? (fun r => r.unit.linkSeq == expect) with
  | none => cntLane s l 6 1
  | some i =>
    let rounds := if L.roundFrom = expect then L.rounds else 0
    if max 1 L.nakLimit ≤ rounds then retrainLane s l 3
    else
      let us := (L.retry.drop i).map (·.unit)
      cntLane (setLane s l (fun L => { L with resend := us, rounds := rounds + 1, roundFrom := expect
                                              retry := L.retry.map (fun r => { r with sentAt := s.now }) }))
        l 5 us.length

/-- LINK_RETRY_TIMEOUT (R351): the oldest unit has gone 20 µs without an acknowledgement. -/
def doLinkRetryTimeout (l : Nat) (s : State) : State :=
  let L := laneAt s l
  match L.retry with
  | r :: _ => if L.st = .up ∧ r.sentAt + 20000 ≤ s.now ∧ L.resend = [] then startRound s l r.unit.linkSeq else s
  | [] => s

/-- An acknowledgement of LINK_SEQ `a` frees the retry buffer up to it and resets the round count
(R349, R351); TWIN GRAD frames that it covers have passed the twin's checks (R477). -/
def ackLane (s : State) (l a : Nat) : State :=
  let L := laneAt s l
  match L.retry.findIdx? (fun r => r.unit.linkSeq == a) with
  | none => s
  | some i =>
    let gone := (L.retry.take (i + 1)).map (·.unit)
    let rtt := match L.retry[i]? with | some r => min 0xFFFF (s.now - r.sentAt) | none => L.rttNs
    let s := setLane s l (fun L =>
      { L with retry := L.retry.drop (i + 1), rounds := 0, rttNs := rtt
               resend := L.resend.filter (fun u => !gone.contains u) })
    { s with fab := { s.fab with twin := { s.fab.twin with
        gradsOut := s.fab.twin.gradsOut.filter (fun g => !(gone.any (fun u =>
          u.typ == 12 && g.linkSeq == some u.linkSeq && u.chunk == g.chunk && u.ordinal == g.ordinal
          && u.flowSeq == g.seq && u.job == g.job))) } } }

/-- Bytes in a lane's retry buffer (R349). -/
def retryBytes (L : Lane) : Nat := (L.retry.map (fun r => unitSize r.unit)).sum

/-! ### Ageing and selection -/

/-- The age limit of a unit has passed (R355); lateness of a gated frame is judged at egress only. -/
def aged (s : State) (e : OutEntry) (gated : Bool) : Bool :=
  if e.unit.cell then e.ready + 10000 < s.fabricTime
  else if gated then
    match e.missedAt with
    | some c => slotGuard s < s.fabricTime - c
    | none => false
  else if e.ingress.isNone then false
  else
    let d := (s.fabricTime + 2 ^ 32 - e.unit.inject % 2 ^ 32) % 2 ^ 32
    d < 2 ^ 31 && s.fab.ageLimit.getD e.unit.cls 50000 < d

/-- Mark the gated frames of a port whose planned window has closed, and count them (R313). -/
def markLate (s : State) (p : Nat) : State :=
  match activeList s p with
  | none => s
  | some es =>
    let base := s.fab.tim.sched.base
    let late (e : OutEntry) : Option Nat :=
      if e.late || !isGated s p (unitClass e.unit) then none
      else match plannedClose es base e.ready (unitClass e.unit) with
        | some c => if c < s.fabricTime then some c else none
        | none => none
    let n := ((portAt s p).out.filter (fun e => (late e).isSome)).length
    let s := setPort s p (fun P => { P with out := P.out.map (fun e => match late e with
      | some c => { e with late := true, missedAt := some c }
      | none => e) })
    { s with fab := { s.fab with tim := { s.fab.tim with lateWindows := satAdd s.fab.tim.lateWindows n } } }

/-- Discard the aged units of a port before transmission (R355); cells return, the ingress lane counts. -/
def dropAged (s : State) (p : Nat) : State :=
  let old := portAt s p
  let s := old.out.foldl (fun s e =>
    if aged s e (isGated s p (unitClass e.unit)) then
      let s := match e.ingress with | some i => cntLane s i 12 1 | none => s
      let s := leaveAlloc s e.alloc p (unitClass e.unit) e.unit.job
      setPort s p (fun P => dropEntry P e)
    else s) s
  setPort s p (rehead s p old)

/-- Whether a head unit has its downstream credit; ports without lanes need none (R352, R393). -/
def hasCredit (P : Port) (p : Nat) (u : LinkUnit) : Bool :=
  272 ≤ p || unitCost u ≤ creditLeft P.grantTx P.usedTx (unitClass u)

/-- Whether a gated head may start now: its class is open and its last bit leaves before the window
closes (R312). -/
def gatedFits (s : State) (es : List (Nat × Nat)) (u : LinkUnit) : Bool :=
  let pos := cyclePos s.fabricTime s.fab.tim.sched.base ((es.map (·.1)).sum)
  natBit (openAt es pos) u.cls && serialNs u ≤ windowLeft es pos u.cls

/-- Whether an ungated head may start now: its last bit leaves before any gated class opens; in
TIME_FAULT no gated class opens (R306, R312, R398). -/
def ungatedFits (s : State) (p : Nat) (u : LinkUnit) : Bool :=
  match activeList s p with
  | none => true
  | some es =>
    if s.fab.tim.state = 3 then true
    else
      let pos := cyclePos s.fabricTime s.fab.tim.sched.base ((es.map (·.1)).sum)
      match nextOpening es pos s.fab.tim.sched.gated with
      | some t => serialNs u ≤ t
      | none => true

/-- Tier 2: the class 0 head accepted first; lower job on a tie (R393). -/
def pickClass0 (P : Port) (p : Nat) : Option OutEntry :=
  ((List.range 16).filterMap (fun j => (headOf P 0 j).filter (fun e => hasCredit P p e.unit))).foldl
    (fun b e => match b with
      | none => some e
      | some x => if e.ready < x.ready then some e else some x) none

/-- Tier 3: the lowest open gated class with a candidate, and its job by the class's node (R393). -/
def pickGated (s : State) (P : Port) (p : Nat) : Option OutEntry :=
  match activeList s p with
  | none => none
  | some es =>
    if s.fab.tim.state = 3 then none
    else
      (((List.range 8).drop 1).filter (fun k => isGated s p k)).findSome? (fun k =>
        let cand := (List.range 16).filter (fun j => match headOf P k j with
          | some e => hasCredit P p e.unit && gatedFits s es e.unit
          | none => false)
        match wfqPick (lookupD P.gatedNodes k {}) cand with
        | some j => headOf P k j
        | none => none)

/-- Tier 4: the job by the ungated job node, then its class by the job's class node (R393, R398). -/
def pickUngated (s : State) (P : Port) (p : Nat) : Option OutEntry :=
  let ok (j k : Nat) : Bool := match headOf P k j with
    | some e => hasCredit P p e.unit && ungatedFits s p e.unit
    | none => false
  let jobs := (List.range 16).filter (fun j => (ungatedClasses s p).any (ok j))
  match wfqPick P.jobNode jobs with
  | none => none
  | some j =>
    match wfqPick (lookupD P.classNodes j {}) ((ungatedClasses s p).filter (ok j)) with
    | some k => headOf P k j
    | none => none

/-- Tags after an entry was selected and dequeued (R396). -/
def takeTags (s : State) (p : Nat) (P : Port) (e : OutEntry) : Port :=
  let k := unitClass e.unit
  let j := e.unit.job
  let next := (headOf P k j).map (fun x => chargeOf P x.unit)
  if k = 0 then P
  else if isGated s p k then
    let node := wfqTake (lookupD P.gatedNodes k {}) j
      (next.map (fun l => (l, max 1 (P.jobW.getD j 1))))
    { P with gatedNodes := insertKey P.gatedNodes k node }
  else
    let node := wfqTake (lookupD P.classNodes j {}) k (next.map (fun l => (l, classWeight s j k)))
    let P := { P with classNodes := insertKey P.classNodes j node }
    let busy := (ungatedClasses s p).filter (fun c => !(queueOf P c j).isEmpty)
    let head := (wfqPick node busy).bind (fun c => headOf P c j)
    let top := wfqTake P.jobNode j
      (head.map (fun x => (chargeOf P x.unit, max 1 (P.jobW.getD j 1))))
    { P with jobNode := top }

/-- The unit that a port's selection takes, in the tiers of R393 after the lane's own. -/
def selectUnit (s : State) (p : Nat) : Option OutEntry :=
  let P := portAt s p
  match pickClass0 P p with
  | some e => some e
  | none =>
    match pickGated s P p with
    | some e => some e
    | none => pickUngated s P p

/-- Start a selected unit on a lane (R346, R349, R352, R355). -/
def startUnit (s : State) (p l : Nat) (e : OutEntry) : State :=
  let s := setPort s p (fun P => takeTags s p (dropEntry P e) e)
  let slot := e.unit.cell && e.ingress.isSome
  if 272 ≤ p then setLane s l (fun L => { L with tx := some { unit := e.unit, alloc := e.alloc, slot := slot } })
  else
    let L := laneAt s l
    let u := if e.ingress.isNone && !e.unit.cell then { e.unit with inject := s.fabricTime % 2 ^ 32 } else e.unit
    let u := sealHeader { u with linkSeq := L.txSeq }
    let s := setPort s p (fun P =>
      { P with usedTx := P.usedTx.modify (unitClass u) (fun x => (x + unitCost u) % 2 ^ 32) })
    let s := { s with fab := { s.fab with twin := { s.fab.twin with
        gradsOut := s.fab.twin.gradsOut.map (fun g =>
          if u.typ == 12 && g.linkSeq.isNone && u.chunk == g.chunk && u.ordinal == g.ordinal
            && u.flowSeq == g.seq && u.job == g.job then { g with linkSeq := some u.linkSeq } else g) } } }
    setLane s l (fun L =>
      { L with tx := some { unit := u, alloc := e.alloc, slot := slot }, txSeq := (L.txSeq + 1) % 1024
               retry := L.retry ++ [{ unit := u, sentAt := s.now }] })

/-- TX_TIME of a TIME frame is stamped as its first bit leaves (R303). -/
def stampTime (s : State) (u : LinkUnit) : LinkUnit :=
  if u.typ = 10 then sealUnit { u with payload := leBytes 8 s.fabricTime ++ u.payload.drop 8 } else u

/-- UNIT_SELECT (R351, R393): retransmissions first, then link-local units, then the tiers. A lane at a
retry limit sends nothing new (R349). Compute-die, service and local ports have one path each, under
their own ID. -/
def doUnitSelect (l : Nat) (s : State) : State :=
  let L := laneAt s l
  if L.tx.isSome then s
  else if 272 ≤ l then
    if portIdOk l then
      let s := dropAged (markLate s l) l
      match selectUnit s l with
      | some e => startUnit s l l e
      | none => s
    else s
  else
    match L.resend with
    | u :: rest =>
      if L.st = .up then setLane s l (fun L => { L with tx := some { unit := u, again := true }, resend := rest })
      else s
    | [] =>
      match L.locals with
      | u :: rest =>
        if L.st = .up ∨ L.st = .ident then
          setLane s l (fun L => { L with tx := some { unit := stampTime s u, again := true }, locals := rest })
        else s
      | [] =>
        match portOf s l with
        | none => s
        | some p =>
          if portUp s p then
            let s := dropAged (markLate s p) p
            match selectUnit s p with
            | some e =>
              if 512 ≤ L.retry.length ∨ 65536 < retryBytes L + unitSize e.unit then s
              else startUnit s p l e
            | none => s
          else s

end Sys2Proof.Machine
end

