-- ==== Sys2Proof/Machine/Coll.lean ====
section
/-! DEFINITION. Collectives under the commit protocol: epochs (R66), inputs and their answers (R128 to
R130, R442, R443), outputs, DIGESTs and replay (R441, R444 to R446), eligibility and timers (R150 to
R154, R447), completion (R131, R267), lag (R156, R157) and abort (R462 to R468). -/

namespace Sys2Proof.Machine

/-! ### Access -/

/-- The collective-table entry of an ordinal of a job. -/
def entryOf (s : State) (job ord : Nat) : Option CollEntry :=
  match topOf s job with
  | some t => t.colls.find? (fun e => e.ordinal == ord)
  | none => none

/-- The die of an entry's compute-die port (R38). -/
def entryDie (e : CollEntry) : Nat := (e.port - 0x140) / 4

/-- The record of a job. -/
def jobAt (s : State) (job : Nat) : JobSt :=
  (s.coll.jobs.find? (fun j => j.job == job)).getD { job := job }

/-- Change the record of a job. -/
def setJob (s : State) (job : Nat) (f : JobSt → JobSt) : State :=
  let j := f (jobAt s job)
  { s with coll := { s.coll with jobs := s.coll.jobs.filter (fun x => x.job != job) ++ [j] } }

/-- Count an epoch-window error against a rank (R66). -/
def windowError (s : State) (job rank : Nat) : State :=
  setJob s job (fun j => { j with windowErr := insertKey j.windowErr rank (satAdd (lookupD j.windowErr rank 0) 1) })

/-- Whether a collective record is the one of a key. -/
def Coll.isKey (c : Coll) (job epoch ord : Nat) : Bool :=
  c.job == job && c.epoch == epoch && c.ordinal == ord

/-- An ordinal's record in an epoch; one that has not begun is empty. -/
def collAt (s : State) (job epoch ord : Nat) : Coll :=
  (s.coll.colls.find? (fun c => c.isKey job epoch ord)).getD { job := job, epoch := epoch, ordinal := ord }

/-- Change an ordinal's record. -/
def setColl (s : State) (job epoch ord : Nat) (f : Coll → Coll) : State :=
  let c := f (collAt s job epoch ord)
  { s with coll := { s.coll with
      colls := if s.coll.colls.any (fun x => x.isKey job epoch ord) then
          s.coll.colls.map (fun x => if x.isKey job epoch ord then c else x)
        else s.coll.colls ++ [c] } }

/-- Add to MGT.ICNT[k] (R460). -/
def icnt (s : State) (k n : Nat) : State :=
  { s with integ := { s.integ with cnt := bumpAt s.integ.cnt k n } }

/-- The epoch that a tag maps to, when it lies in the window (R66). -/
def epochOf (s : State) (job tag : Nat) : Option Nat :=
  match topOf s job with
  | none => none
  | some t =>
    let o := (jobAt s job).oldest
    let e := o + (tag + 4 - o % 4) % 4
    if e < o + t.epochLimit then some e else none

/-- Whether an ordinal runs a counts phase (R133). -/
def countsPhase (e : CollEntry) : Bool := e.vari || e.kind == 8 || e.kind == 13

/-- The route entry that a record's index names. -/
def routeAt (s : State) (job i : Nat) : Option RouteRec :=
  match topOf s job with
  | some t => t.routes[i]?
  | none => none

/-- Whether a route entry is used now: SOLO entries while the twin is SOLO, the others while it is
not (R60, R289, R481). -/
def routeInForce (s : State) (r : RouteRec) : Bool := r.solo == (s.fab.twin.st == .solo)

/-- The routes in force behind a list of route indices. -/
def routesInForce (s : State) (job : Nat) (is : List Nat) : List RouteRec :=
  (is.filterMap (routeAt s job)).filter (routeInForce s)

/-- Whether an entry's members are dual-homed endpoints of this module's leaf pair: each of their routes leaves by a
lane whose peer is an endpoint (R53, R358). (DEDUCED, assumption 57). -/
def dualHomed (s : State) (job : Nat) (e : CollEntry) : Bool :=
  s.fab.twin.present && !e.members.isEmpty &&
    e.members.all (fun m => match routeAt s job m.2 with
      | some r => natBit (laneAt s (routeHop r.image 0)).idleWord 59
      | none => false)

/-- Whether this module handles chunk `k` of an entry: of dual-homed members' chunks leaf A takes the even ones and
the express chunk, and leaf B the odd ones (R53, R146). -/
def ownHalf (s : State) (job : Nat) (e : CollEntry) (k : Nat) : Bool :=
  !dualHomed s job e || (if e.express then 0 else k % 2) == s.fab.twin.role

/-- Whether the module takes part in an ordinal with something to produce or consume (R131): an input, a counts phase
of members, or an output on a route in force. -/
def takesPart (s : State) (job : Nat) (e : CollEntry) : Bool :=
  (!e.inputs.isEmpty || (countsPhase e && !e.members.isEmpty)
    || !(routesInForce s job (e.outputs.map (·.route))).isEmpty)
  && (List.range (min 2 e.chunks)).any (ownHalf s job e)

/-- Whether an ordinal has completed here in an epoch (R131); one in which the module has nothing to do
is complete. -/
def collDone (s : State) (job epoch ord : Nat) : Bool :=
  match entryOf s job ord with
  | some e => !takesPart s job e || (collAt s job epoch ord).completed || epoch < (jobAt s job).oldest
  | none => true

/-- The reduction kinds (R597). -/
def isReduction (k : Nat) : Bool := k == 0 || k == 1 || k == 2 || k == 9

/-- The SELECT kinds (R138 to R141). (DEDUCED, assumption 38). -/
def isSelect (k : Nat) : Bool := k == 10 || k == 11 || k == 12

/-! ### Chunk geometry -/

/-- Element range of chunk `c` of a reduction entry (R597). -/
def chunkRange (e : CollEntry) (c : Nat) : Nat × Nat :=
  let m := (e.m.getD 0) * (if e.kind = 2 then e.n else 1)
  let E := ceilDiv m e.chunks
  (min m (c * E), min m ((c + 1) * E))

/-- Bytes of `n` elements on a dense hop of a format, with the scale bytes of an MX chunk (R343). -/
def hopBytes (f : Fmt) (n : Nat) : Nat := f.bytes n + (if f.isMx then ceilDiv n 32 else 0)

/-- Elements of a format that a chunk of `b` bytes holds on a dense hop (R343). -/
def hopElems (f : Fmt) (b : Nat) : Nat :=
  if f.isMx then
    let per := 4 * f.bits + 1
    32 * (b / per) + (b % per - 1) * 8 / f.bits
  else 8 * b / max 1 f.bits

/-- Whether a node (lo, hi) of an input is a raw contribution. Of a single member, whose leaf is also the root, the
module that serves it takes the contribution, and every other module the finished root (R106, R110).
(DEDUCED, assumption 63). -/
def isRaw (e : CollEntry) (lo hi : Nat) : Bool := hi == lo + 1 && (e.n != 1 || e.members.any (·.1 == lo))

/-- Whether an input is the finished root (0, N) (R106). -/
def isFinished (e : CollEntry) (lo hi : Nat) : Bool := lo == 0 && hi == e.n && !isRaw e lo hi

/-- The format of a planned input: the finished root (0, N) comes in the output format (R106), a raw
contribution in the input format, and a node's value in the accumulation format (R110). In the moving kinds
everything comes in the input format. -/
def inFormat (e : CollEntry) (lo hi : Nat) : Fmt :=
  if !isReduction e.kind then e.fIn
  else if isFinished e lo hi then e.fOut else if hi = lo + 1 then e.fIn else e.fAcc

/-- The format of a value that this module sends: the root in the output format (R106). -/
def outFormat (e : CollEntry) (lo hi : Nat) : Fmt :=
  if isReduction e.kind && lo == 0 && hi == e.n then e.fOut else inFormat e lo hi

/-- The chunks that carry one member's block in a kind that delivers blocks, whose chunks the spec does not assign: C / N
of them for each block (R124, R132). (DEDUCED, assumption 64). -/
def blockChunks (e : CollEntry) : Option Nat :=
  if (6 ≤ e.kind ∧ e.kind ≤ 8 ∨ e.kind = 13) ∧ e.chunks % max 1 e.n = 0 ∧ e.n ≤ e.chunks then
    some (e.chunks / max 1 e.n)
  else none

/-- The receiving ranks of a chunk of a kind that delivers blocks: REDUCE_SCATTER by the block length m, the
others by `blockChunks` (R124, R132). (DEDUCED, assumption 64). -/
def blockRanks (e : CollEntry) (chunk : Nat) : Option (Nat × Nat) :=
  if e.kind = 2 then
    let (a, b) := chunkRange e chunk
    let m := max 1 (e.m.getD 1)
    some (a / m, (b - 1) / m)
  else (blockChunks e).map (fun k => (chunk / max 1 k, chunk / max 1 k))

/-- The planned input of a RANK: of two records with one RANK the first takes it (R110, R579).
(DEDUCED, assumption 35). -/
def inputRec (e : CollEntry) (rank : Nat) : Option InRec := e.inputs.find? (fun i => i.rank == rank)

/-- The planned input of a (RANK, CHUNK). A counts chunk has frames of 4 096 bytes and at most 256 of them; in a
counts phase a member without an INPUT record sends one too, and every member within a node's range is counted
(R130, R133). (DEDUCED, assumption 65). -/
def inputFor (e : CollEntry) (rank chunk : Nat) : Option InRec :=
  if chunk = 0xFFFFFF then
    if countsPhase e && (e.inputs.any (fun i => i.lo ≤ rank && rank < i.hi && !isFinished e i.lo i.hi)
        || e.members.any (fun m => m.1 == rank)) then
      some { rank := rank, lo := rank, hi := rank + 1, p256 := 16, f := 256, layout := 0, sparseOk := false }
    else none
  else inputRec e rank

/-- The input record held for a (RANK, CHUNK). -/
def inpAt (c : Coll) (rank chunk : Nat) : Inp :=
  (c.inputs.find? (fun i => i.rank == rank && i.chunk == chunk)).getD { rank := rank, chunk := chunk }

/-- Replace an input record. -/
def putInp (c : Coll) (i : Inp) : Coll :=
  { c with inputs := if c.inputs.any (fun x => x.rank == i.rank && x.chunk == i.chunk) then
      c.inputs.map (fun x => if x.rank == i.rank && x.chunk == i.chunk then i else x)
    else c.inputs ++ [i] }

/-- The bytes of an input in FLOW_SEQ order (R439). -/
def inpBytes (i : Inp) (n : Nat) : List Byte :=
  (List.range n).flatMap (fun k => match i.frames.find? (fun f => f.seq == k) with
    | some f => f.payload
    | none => [])

/-! ### Counts -/

/-- The bytes that an input of a chunk holds, in FLOW_SEQ order. -/
def heldBytes (c : Coll) (rank chunk : Nat) : List Byte :=
  let i := inpAt c rank chunk
  inpBytes i (match i.digest with | some d => d.count | none => i.frames.length)

/-- Entry `i` of the counts payload of a member (R133). -/
def countWord (c : Coll) (rank i : Nat) : Nat := leVal (slice (heldBytes c rank 0xFFFFFF) (4 * i) 4)

/-- Whether a member's counts chunk is ACKed here. -/
def countsHeld (c : Coll) (rank : Nat) : Bool := (inpAt c rank 0xFFFFFF).acked

/-- The routing slots of all members in canonical (rank, token, slot) order: rank, slot position and expert
(R142, R143). -/
def moeSlots (c : Coll) (e : CollEntry) (kr : Nat) : List (Nat × Nat × Nat) :=
  (List.range e.n).flatMap (fun r =>
    let bs := heldBytes c r 0xFFFFFF
    (List.range (leVal (bs.take 4) * kr)).map (fun i => (r, i, leVal (slice bs (4 + 2 * i) 2))))

/-- Slots with their fate in canonical order: 0 kept, 1 dropped over capacity, 2 invalid, 3 unused (R142,
R143). -/
def moeFates (ex cap : Nat) : List (Nat × Nat) → List (Nat × Nat × Nat) → List (Nat × Nat × Nat × Nat)
  | _, [] => []
  | cs, (r, i, x) :: rest =>
    if x = 0xFFFF then (r, i, x, 3) :: moeFates ex cap cs rest
    else if ex ≤ x then (r, i, x, 2) :: moeFates ex cap cs rest
    else
      let k := lookupD cs x 0
      if k < cap then (r, i, x, 0) :: moeFates ex cap (insertKey cs x (k + 1)) rest
      else (r, i, x, 1) :: moeFates ex cap cs rest

/-- The slots that member `src` keeps for experts that member `d` owns, in (token, slot) order: the expert of each
(R143, R144). -/
def keptRows (c : Coll) (e : CollEntry) (src d : Nat) : List Nat :=
  match e.params with
  | .moe ex kr cap _ owners =>
    ((moeFates ex cap [] (moeSlots c e kr)).filter (fun f => f.1 == src && f.2.2.2 == 0
      && owners.getD f.2.2.1 0 == d)).map (fun f => f.2.2.1)
  | _ => []

/-- Bytes of a row of MOE_DISPATCH (R142). -/
def rowBytes (e : CollEntry) : Nat := match e.params with | .moe _ _ _ b _ => b | _ => 0

/-- Bytes of one element, or record, of a member's own data (R138, R142). -/
def unitBytes (e : CollEntry) (n : Nat) : Nat :=
  match e.kind, e.params with
  | 10, .sort v => n * (ceilDiv e.fIn.bits 8 + v)
  | _, _ => e.fIn.bytes n

/-- Bytes of the data that member `src` sends in a kind that has run its counts phase here, toward the member whose
block chunk `k` belongs to: its elements, or its kept rows (R133, R142, R144). None where the counts are not held. -/
def variBytes (c : Coll) (e : CollEntry) (src k : Nat) : Option Nat :=
  if !countsPhase e || !countsHeld c src then none
  else
    let d := match blockRanks e k with | some x => x.1 | none => 0
    match e.kind with
    | 13 => if (List.range e.n).all (countsHeld c) then some ((keptRows c e src d).length * rowBytes e) else none
    | 8 => some (unitBytes e (countWord c src d))
    | _ => some (unitBytes e (countWord c src 0))

/-- F_c of an input's chunk, where it is fixed: on a dense hop of a reduction the frames its bytes need (R597); of a
contribution whose counts are held the frames of its remainder (R128, R144); else the entry's F. A sparse hop and a
kind with counts that are not held here leave it open up to the entry's F (R164). A chunk past the end of the data has
one frame of zeros. (DEDUCED, assumption 64; DESIGN CHOICE, assumption 132). -/
def frameCount (c : Coll) (e : CollEntry) (r : InRec) (k : Nat) : Option Nat :=
  let p := 256 * r.p256
  if k = 0xFFFFFF || r.sparseOk then none
  else if isReduction e.kind then
    let (a, b) := chunkRange e k
    some (min r.f (max 1 (ceilDiv (hopBytes (inFormat e r.lo r.hi) (b - a)) p)))
  else if !countsPhase e then some r.f
  else if isRaw e r.lo r.hi then
    match variBytes c e r.lo k with
    | some n =>
      let i := match blockChunks e with | some m => k % m | none => k
      some (min r.f (max 1 (ceilDiv (n - i * (r.f * p)) p)))
    | none => none
  else none

/-- LENGTH of the last frame of an input's chunk, where it is fixed: the remainder of a dense reduction chunk padded to
256 bytes (R128, R597). -/
def lastLength (e : CollEntry) (r : InRec) (k : Nat) : Option Nat :=
  let p := 256 * r.p256
  if k = 0xFFFFFF || r.sparseOk || !isReduction e.kind then none
  else
    let (a, b) := chunkRange e k
    let n := hopBytes (inFormat e r.lo r.hi) (b - a)
    let fc := max 1 (ceilDiv n p)
    some (if r.f < fc then p else max 256 (ceilDiv (n - (fc - 1) * p) 256 * 256))

/-- Signed comparison of two 32-bit stamps: `a` is earlier than `b` (R443). -/
def stampBefore (a b : Nat) : Bool := 2 ^ 31 ≤ (a + 2 ^ 32 - b % 2 ^ 32) % 2 ^ 32

/-- Whether a stamp lies before an input's boundary (R443). -/
def isStale (i : Inp) (inject : Nat) : Bool :=
  match i.boundary with
  | some b => stampBefore inject b
  | none => false

/-! ### Early arrivals -/

/-- Cells of a unit against the early-arrival quota (R152). -/
def earlyCells (u : LinkUnit) : Nat := if u.cell then 1 else max 1 (ceilDiv u.length 256)

/-- Whether a unit of an ordinal is an early arrival (R137, R152). (DEDUCED, assumption 56). -/
def isEarly (c : Coll) (e : CollEntry) (u : LinkUnit) : Bool :=
  !c.eligible || (u.typ == 0 && countsPhase e && !c.countsDone)

/-- Charge cells to a job's early-arrival quota. -/
def chargeEarly (s : State) (job n : Nat) : State :=
  { s with fab := { s.fab with earlyUsed := s.fab.earlyUsed.modify job (· + n) } }

/-- Return the cells of an ordinal's early arrivals that `p` names (R152). -/
def releaseEarlyIf (s : State) (job epoch ord : Nat) (p : Inp → Bool) : State :=
  let c := collAt s job epoch ord
  let n := ((c.inputs.filter p).map (·.early)).sum
  let s := { s with fab := { s.fab with earlyUsed := s.fab.earlyUsed.modify job (· - n) } }
  setColl s job epoch ord (fun c => { c with inputs := c.inputs.map (fun i => if p i then { i with early := 0 } else i) })

/-- Return the cells of all early arrivals of an ordinal. -/
def releaseEarly (s : State) (job epoch ord : Nat) : State := releaseEarlyIf s job epoch ord (fun _ => true)

/-- Drop the staging cells of an input. -/
def dropStaged (s : State) (i : Inp) : State := i.allocs.foldl (fun s a => dropAlloc s a.1 a.2) s

/-! ### Sending -/

/-- A return route to this module from the consumer behind a route (R344): the consumer's port toward
this module, as its identity word names it (R358), and then local delivery. (DEDUCED, assumption 36). -/
def retRoute (s : State) (image : Nat) : Nat :=
  let p := routeHop image 0
  let w := (laneAt s p).idleWord
  if p < 272 && !natBit w 59 then idLane w <<< 67 + 0x1FF <<< 58 else 0x1FF <<< 67

/-- Frames of an output: PROV on every frame, LAST on the last (R128, R129, R340). (DEDUCED, assumption 37). -/
def outFrames (c : Coll) (o : Outp) (k : Consumer) (again : Bool) : List LinkUnit :=
  let n := max 1 (ceilDiv o.bytes.length o.payload)
  (List.range n).map (fun i =>
    let pl := slice o.bytes (i * o.payload) o.payload
    let len := max 256 (ceilDiv pl.length 256 * 256)
    { typ := if o.counts then 7 else 0, cls := k.cls, job := c.job, epoch := c.epoch % 4
      flags := 16 + (if i + 1 = n then 8 else 0) + (if again then 4 else 0)
      route := k.route, ordinal := c.ordinal, chunk := o.chunk, rank := o.lo, flowSeq := i
      length := len, payload := padTo len pl, res := o.check <<< 14 })

/-- Send the frames of an output to consumer `i`; a replicated output's frames lie in shared buffers of
up to 16 holders each (R378). (DEDUCED, assumption 37). -/
def sendFrames (s : State) (c : Coll) (o : Outp) (i : Nat) (again : Bool) : State :=
  match o.consumers[i]? with
  | none => s
  | some k =>
    let n := ceilDiv o.consumers.length 16
    (outFrames c o k again).foldl (fun s u => originateFrom (o.bufs[u.flowSeq * n + i / 16]?) s u) s

/-- Whether a queued or leaving unit belongs to an output toward a consumer. -/
def unitOfOut (c : Coll) (o : Outp) (u : LinkUnit) : Bool :=
  (u.typ == 0 || u.typ == 7) && u.job == c.job && u.epoch == c.epoch % 4 && u.ordinal == c.ordinal
  && u.chunk == o.chunk && u.rank == o.lo

/-- Whether every frame of an output has left (R441). -/
def framesGone (s : State) (c : Coll) (o : Outp) : Bool :=
  s.fab.ports.all (fun p => p.2.out.all (fun e => !(e.ingress.isNone && unitOfOut c o e.unit)))
  && s.fab.lanes.all (fun l => match l.2.tx with
      | some t => t.again || !unitOfOut c o t.unit
      | none => true)

/-- The DIGEST of an output (R344). (DEDUCED, assumption 36). -/
def digestUnit (s : State) (c : Coll) (o : Outp) (k : Consumer) : LinkUnit :=
  let pl := leBytes 8 (crc64 o.bytes) ++ leBytes 2 (max 1 (ceilDiv o.bytes.length o.payload))
    ++ leBytes 1 (if o.check = 2 then 0 else 1) ++ leBytes 5 0 ++ beBytes 10 (retRoute s k.route)
  { controlFrame 2 c.job c.epoch c.ordinal o.chunk o.lo pl with route := k.route }

/-- The ACK or NAK_CHUNK for a DIGEST (R344). -/
def answerUnit (cause : Nat) (u : Nat × Nat × Nat × Nat × Nat) (crc route : Nat) : LinkUnit :=
  let (job, tag, ord, chunk, rank) := u
  { controlFrame (if cause = 0 then 3 else 4) job tag ord chunk rank (leBytes 8 crc ++ leBytes 1 cause)
    with route := route }

/-- The RETRACT of an output toward a route (R344). -/
def retractUnit (c : Coll) (o : Outp) (k : Consumer) : LinkUnit :=
  { controlFrame 5 c.job c.epoch c.ordinal o.chunk o.lo (leBytes 8 (if o.closed then crc64 o.bytes else 0))
    with route := k.route }

/-! ### Error log -/

/-- Temperature band of R452. -/
def tempBand (t : Nat) : Nat := if t < 35 then 0 else min 7 (1 + (t - 35) / 10)

/-- The physical unit behind a logical one (R48). -/
def physOf (s : State) (unit die logical : Nat) : Nat :=
  match s.integ.remaps.find? (fun r => r.unit == unit && r.die == die && r.logical == logical) with
  | some r => r.phys
  | none => logical

/-- Tile kind of a logged unit: chunks, batches, passes, bank reads (R454). -/
def tileKind (unit : Nat) : Nat := match unit with | 0 => 0 | 1 => 1 | 4 => 3 | _ => 2

/-- Tiles that a die has run of a kind. -/
def tilesOf (s : State) (kind die : Nat) : Nat := lookupD s.integ.tiles (4 * kind + die) 0

/-- Free spares of a logged unit's pool (R47). -/
def spareFree (s : State) (unit die logical : Nat) : Nat :=
  let p := s.integ.spares.getD die {}
  match unit with
  | 0 => if p.privetFree then 1 else 0
  | 1 => p.clusters.getD (logical / 128) 0
  | 2 => p.rows
  | 3 => p.cols
  | _ => p.banks

/-- The value of a quarantine record (R459). -/
def QuarRec.value (r : QuarRec) : Nat :=
  2 ^ 63 + (r.st % 8) <<< 60 + ((min r.unit 4) % 8) <<< 57 + (r.die % 4) <<< 55 + (r.logical % 2 ^ 10) <<< 45
    + (r.phys % 2 ^ 11) <<< 34 + (r.bands % 256) <<< 26 + (r.trigger % 4) <<< 24

/-- A quarantine that finds every record of MGT.QUAR in use writes an event-ring entry; R567 gives its code no number,
which is a free value here (R459). (DESIGN CHOICE, assumption 134). -/
def quarNote (s : State) (r : QuarRec) : State :=
  if s.integ.quar.length < 32 then s
  else
    let (w, s) := drawFree s
    ringLog s 0 (w.toNat % 256) [r.value]

/-- Quarantine of a unit whose logged errors meet a threshold: its record goes to the repair fuses, of which MGT.QUAR
shows the first 32 (R454, R455, R459). -/
def quarantine (s : State) (unit die logical trigger bands : Nat) : State :=
  if s.integ.quar.any (fun r => r.unit == unit && r.die == die && r.logical == logical && r.st != 2) then s
  else
    let free := spareFree s unit die logical
    let r : QuarRec := { st := if free = 0 then 1 else 0, unit := unit, die := die, logical := logical
                         phys := physOf s unit die logical, bands := bands, trigger := trigger }
    let s := quarNote (setAttn s aInteg) r
    { s with integ := { s.integ with
        quarFuse := s.integ.quarFuse + (if s.integ.quar.length < 32 then 0 else 1)
        quar := s.integ.quar ++ [r]
        sparesBit := s.integ.sparesBit || free == 0
        sparesDie := if free = 0 then s.integ.sparesDie ||| 2 ^ die else s.integ.sparesDie
        remapPending := if free = 0 then s.integ.remapPending
          else s.integ.remapPending ++ [⟨unit, die, logical, 0⟩] } }

/-- The logged errors of a unit within `span` tiles of its kind (R454). -/
def recentErrors (s : State) (unit die logical span : Nat) : List ErrEntry :=
  let now := tilesOf s (tileKind unit) die
  s.integ.errlog.filter (fun e =>
    e.die == die && e.kind != 6 && e.kind != 7 && now ≤ e.tile + span &&
    ((e.unit == unit && e.logical == logical) || (unit == 3 && e.unit == 2 && e.kind != 4 && e.col == logical)))

/-- Judge a unit against the thresholds of R454. -/
def judgeUnit (s : State) (unit die logical : Nat) : State :=
  let three := recentErrors s unit die logical 1000000
  let two := recentErrors s unit die logical 10000000
  let pair := two.any (fun a => (two.filter (fun b => b.tband == a.tband)).length ≥ 2)
  let bandsOf (es : List ErrEntry) : Nat := es.foldl (fun m e => m ||| 2 ^ e.tband) 0
  if 3 ≤ three.length then quarantine s unit die logical 0 (bandsOf three)
  else if pair then
    quarantine s unit die logical 1
      (bandsOf (two.filter (fun a => (two.filter (fun b => b.tband == a.tband)).length ≥ 2)))
  else s

/-- The phase of a die at a fabric time (R494): the last mark at or before the place in the cycle grid. -/
def phaseAt (s : State) (d t : Nat) : Nat :=
  let sc := s.fab.tim.sched
  let marks := s.pwr.phase.marks.getD d []
  if !sc.active || marks.isEmpty || t < sc.base then 0
  else
    let pos := cyclePos t sc.base (cycleLen sc.cycleNs sc.factor)
    (marks.foldl (fun (p : Nat) m => if m.1 * (4 + sc.factor) / 4 ≤ pos then m.2 else p) 0)

/-- Write an error-log entry that names a physical unit (R452, R453) and judge the logical one (R454). The
temperature, the pattern class and the Laurel column are what the event carries. -/
def logErrorAt (s : State) (phys kind unit die logical col job ordLow chunk pattern : Nat) : State :=
  let D := s.pwr.dies.getD die {}
  let e : ErrEntry :=
    { time := s.fabricTime, kind := kind, unit := unit, die := die, logical := logical
      phys := phys, tband := tempBand D.tmaxC, phase := phaseAt s die s.fabricTime, job := job
      pattern := pattern, railMv := D.vcompMv, ordinalLow := ordLow % 2 ^ 16, chunk := chunk
      tempC := min 255 D.tmaxC, tile := tilesOf s (tileKind unit) die % 2 ^ 32, col := col }
  let s := { s with integ := { s.integ with
      errlog := (e :: s.integ.errlog).take 1024, errCount := (s.integ.errCount + 1) % 2 ^ 32 } }
  if kind = 6 || kind = 7 || unit = 5 then s
  else
    let s := judgeUnit s unit die logical
    if unit = 2 && kind != 4 then judgeUnit s 3 die col else s

/-- Write an error-log entry for a unit under the map in force. -/
def logError (s : State) (kind unit die logical col job ordLow chunk pattern : Nat) : State :=
  logErrorAt s (physOf s unit die logical) kind unit die logical col job ordLow chunk pattern

/-! ### Abort -/

/-- The ORIGIN of this module (R344). -/
def ownOrigin (s : State) : Nat := s.fab.moduleIndex % 2 ^ 15

/-- Free what an output holds: its shared buffers (R378) and its staging (R212). -/
def freeOut (s : State) (job ord : Nat) (o : Outp) : State :=
  let s := o.bufs.foldl (fun s b => freeAlloc s 0 b) s
  match o.stage, entryOf s job ord with
  | some a, some e => dropAlloc s (1 + entryDie e) a
  | _, _ => s

/-- An ABORT cell (R344, R463). -/
def abortUnit (job epoch ord cause origin time image : Nat) : LinkUnit :=
  { cell := true, typ := 6, job := job, epoch := epoch % 4, ordinal := ord % 2 ^ 16, route := cellRoute image
    payload := padTo 40 (leBytes 4 ord ++ leBytes 1 cause ++ leBytes 1 0 ++ leBytes 2 origin ++ leBytes 8 time) }

/-- The routes of an ordinal's ABORT cells (R289, R463). -/
def abortRoutes (s : State) (job : Nat) (e : CollEntry) (c : Coll) : List Nat :=
  ((routesInForce s job (e.members.map (·.2) ++ e.outputs.map (·.route))).map (·.image) ++ c.retRoutes).eraseDups

/-- An abort of ordinal `ord` discards the early arrivals of every later ordinal that overlaps it: they are counted
and returned to the quota (R155). -/
def dropOverlapping (s : State) (job epoch ord : Nat) : State :=
  let later : List Nat := match topOf s job with
    | some t => (t.colls.filter (fun e => e.after.contains ord)).map (·.ordinal)
    | none => []
  later.foldl (fun s o =>
    let c := collAt s job epoch o
    if c.eligible || c.completed || c.aborted || c.inputs.isEmpty then s
    else
      let n := (c.inputs.map (fun (i : Inp) => i.frames.length + (if i.digest.isSome then 1 else 0))).sum + c.express.length
      let s := c.inputs.foldl dropStaged (releaseEarly s job epoch o)
      let s := setJob s job (fun j => { j with abortDiscards := satAdd j.abortDiscards n })
      setColl s job epoch o (fun c => { c with inputs := [], express := [], reached := [], first := false })) s

/-- Halt every queue whose CALL_COLL of the ordinal waits or is asynchronous (R267, R464). -/
def haltCallers (s : State) (job epoch ord : Nat) : State :=
  (List.range 64).foldl (fun s q =>
    let Q := queueAt s q
    let waits := match Q.wait with
      | .eligible o e _ _ => o == ord && e == epoch
      | .collective o e => o == ord && e == epoch
      | _ => false
    let async := Q.asyncs.any (fun a => a.1 == ord && a.2.1 == epoch)
    if Q.bound && Q.job == job && (waits || async) then
      let s := setQueue s q (fun Q => { Q with asyncs := Q.asyncs.filter (fun a => !(a.1 == ord && a.2.1 == epoch)) })
      haltQueue s q .aborted ord
    else s) s

/-- Drop the queued frames of this module that belong to an ordinal's outputs; a queue's new head has a new F (R406). -/
def dropOwn (s : State) (p : LinkUnit → Bool) (port : Option Nat) : State :=
  s.fab.ports.foldl (fun s e =>
    if port.isSome && port != some e.1 then s
    else
      let old := portAt s e.1
      let s := e.2.out.foldl (fun s x =>
        if x.ingress.isNone && p x.unit then
          setPort (leaveAlloc s x.alloc e.1 (unitClass x.unit) x.unit.job) e.1 (fun P => dropEntry P x)
        else s) s
      setPort s e.1 (rehead s e.1 old)) s

/-- An abort of an ordinal leaves the shards that it feeds as they were: the step of its epoch, its weights and its
casts go, and the previous epoch stays current (R70). -/
def dropSteps (s : State) (job epoch ord : Nat) : State :=
  let fed : List Nat := match topOf s job with
    | some t => (t.states.filter (fun x => x.gradOrdinal == ord || (x.bcastV && x.bcastOrdinal == ord))).map (·.shard)
    | none => []
  { s with coll := { s.coll with shards := s.coll.shards.map (fun h =>
      let open' := match h.flipped with | some f => f < epoch | none => true
      let mine := h.stepped == some epoch || (match h.step with | some st => st.epoch == epoch | none => false)
      if h.job == job && fed.contains h.id && open' && mine then
        { h with step := none, stepped := none, casts := [], pageCrcs := [] }
      else h) } }

/-- Abort (job, epoch, ordinal) here with a cause, an origin and a send time (R463, R464, R468). -/
def abortColl (s : State) (job epoch ord : Nat) (cause : Nat) (origin time : Nat) : State :=
  let c := collAt s job epoch ord
  if c.aborted then s
  else
    match entryOf s job ord with
    | none => s
    | some e =>
      let imgs := abortRoutes s job e c
      let fit := imgs.filter (fun i => routeHops s i ≤ 5)
      let s := fit.foldl (fun s i => originate s (abortUnit job epoch ord cause origin time i)) s
      let omitted := min 15 (imgs.length - fit.length)
      let s := releaseEarly s job epoch ord
      let s := c.inputs.foldl (fun s i => if i.acked && c.completed then s else dropStaged s i) s
      let s := c.outputs.foldl (fun s o => freeOut s job ord o) s
      let s := dropOwn s (fun u => (u.typ == 0 || u.typ == 7 || u.typ == 2) && u.job == job
        && u.epoch == epoch % 4 && u.ordinal == ord) none
      let s := setColl s job epoch ord (fun c =>
        { c with aborted := true, resetMark := false, timer := none
                 aborts := c.aborts ++ [(origin, time)]
                 inputs := [], outputs := if c.completed then c.outputs else []
                 ran := [], express := [], roots := if c.completed then c.roots else []
                 formed := if c.completed then c.formed else [] })
      let s := haltCallers (dropOverlapping s job epoch ord) job epoch ord
      let s := squashJob (dropSteps s job epoch ord) job
      let reg := ord <<< 32 + (cause % 256) <<< 24 + (origin % 2 ^ 16) <<< 8 + (epoch % 4) <<< 6
        + omitted <<< 1 + 1
      let s := { s with coll := { s.coll with abortLast := s.coll.abortLast.set job reg } }
      setAttn (ringLog s 4 0x05 [reg]) aFault

/-- An abort that this module originates. -/
def abortHere (s : State) (job epoch ord : Nat) (cause : Res) : State :=
  abortColl s job epoch ord cause.code (ownOrigin s) s.fabricTime

/-! ### Completion and eligibility -/

/-- The nodes that an entry's plan combines here. (DEDUCED, assumption 63). -/
def computesNode (e : CollEntry) (lo hi : Nat) : Bool := e.combines.any (fun c => c.1 == lo && c.2.2 == hi)

/-- Distinct output values of an entry. (DEDUCED, assumption 35). -/
def outKeys (e : CollEntry) : List (Nat × Nat) := (e.outputs.map (fun o => (o.lo, o.hi))).eraseDups

/-- Chunks of an entry that this module has to form: every chunk, or, for an entry without inputs that
carries cast weights, the chunks of the shards that it broadcasts (R61, R63, R481). -/
def ownChunks (s : State) (job : Nat) (e : CollEntry) : List Nat :=
  let sts : List StateEntry := match topOf s job with
    | some t => t.states.filter (fun x =>
        if x.rep then s.fab.twin.st == .solo && (s.coll.shards.any (fun h => h.job == job && h.id == x.shard
          && (match h.report with | some (_, o) => o == e.ordinal | none => false)))
        else x.bcastV && x.bcastOrdinal == e.ordinal)
    | none => []
  if e.inputs.isEmpty && !sts.isEmpty then
    sts.flatMap (fun x => (List.range x.chunkCount).map (· + x.chunkFirst))
  else if e.inputs.isEmpty && e.outputs.isEmpty then []
  else (List.range e.chunks).filter (ownHalf s job e)

/-- An output of an ordinal. -/
def outAt (c : Coll) (lo hi chunk : Nat) : Option Outp :=
  c.outputs.find? (fun o => o.lo == lo && o.hi == hi && o.chunk == chunk)

/-- Whether every consumer of an output has committed it; one whose routes are not in force has no consumer. -/
def outDone (o : Outp) : Bool := o.consumers.isEmpty || (o.closed && o.consumers.all (·.acked))

/-- Whether an input's chunk has served its purpose here: every output that is formed from it is committed, and the
root to which it leads has been placed (R57, R441). -/
def inputSpent (c : Coll) (e : CollEntry) (r : InRec) (k : Nat) : Bool :=
  if isSelect e.kind then false
  else if !isReduction e.kind then
    c.formed.contains k && (c.outputs.filter (fun o => o.chunk == k)).all outDone
  else
    let deps := (outKeys e).filter (fun o => o.1 ≤ r.lo && r.hi ≤ o.2
      && (o == (r.lo, r.hi) || !e.inputs.any (fun i => (i.lo, i.hi) == o)))
    let root := computesNode e 0 e.n || e.n == 1 || isFinished e r.lo r.hi
    deps.all (fun o => match outAt c o.1 o.2 k with | some x => outDone x | none => false)
    && (if root then c.roots.any (fun x => x.1 == k) else !deps.isEmpty || c.formed.contains k)

/-- The staged inputs of a chunk that have served their purpose are dropped (R57). -/
def releaseSpent (s : State) (job epoch ord chunk : Nat) : State :=
  match entryOf s job ord with
  | none => s
  | some e =>
    e.inputs.foldl (fun s r =>
      let c := collAt s job epoch ord
      let i := inpAt c r.rank chunk
      if i.acked && !i.frames.isEmpty && inputSpent c e r chunk then
        setColl (dropStaged s i) job epoch ord (fun c => putInp c { i with frames := [], allocs := [] })
      else s) s

/-- Whether every chunk that this module produces is committed and every one it consumes is ACKed
(R131). -/
def isComplete (s : State) (job : Nat) (e : CollEntry) (c : Coll) : Bool :=
  if e.express then c.expressDone
  else
    (ownChunks s job e).all (fun k =>
      e.inputs.all (fun i => (inpAt c i.rank k).acked) && c.formed.contains k)
    && c.outputs.all outDone
    && (!countsPhase e || c.countsDone)

/-- End the calls of a completed ordinal: waiting ones go on, asynchronous ones set their flag
(R131, R267). (DEDUCED, assumption 69). -/
def completeCallers (s : State) (job epoch ord : Nat) : State :=
  (List.range 64).foldl (fun s q =>
    let Q := queueAt s q
    if !(Q.bound && Q.job == job) then s
    else
      let hit := Q.asyncs.filter (fun a => a.1 == ord && a.2.1 == epoch)
      let s := hit.foldl (fun s a => setJobFlag s job a.2.2 true) s
      let s := setQueue s q (fun Q => { Q with asyncs := Q.asyncs.filter (fun a => !(a.1 == ord && a.2.1 == epoch)) })
      match Q.wait with
      | .collective o e => if o == ord && e == epoch then
          endWait s q else s
      | _ => s) s

/-- COLLECTIVE_COMPLETE (R131): the ordinal completes and its local calls complete; staged inputs go. -/
def settleColl (s : State) (job epoch ord : Nat) : State :=
  match entryOf s job ord with
  | none => s
  | some e =>
    let c := collAt s job epoch ord
    if c.eligible && !c.completed && !c.aborted && isComplete s job e c then
      let s := c.inputs.foldl dropStaged s
      let s := c.outputs.foldl (fun s o => freeOut s job ord o) s
      let s := setColl s job epoch ord (fun c =>
        { c with completed := true, timer := none
                 inputs := c.inputs.map (fun i => { i with frames := [], allocs := [] }) })
      completeCallers s job epoch ord
    else s

/-- Whether an ordinal may begin: every ordinal of its AFTER record has completed here (R150). -/
def mayBegin (s : State) (job epoch ord : Nat) : Bool :=
  match entryOf s job ord with
  | none => false
  | some e => !(collAt s job epoch ord).aborted && e.after.all (fun o => collDone s job epoch o)

/-- ORDINAL_ELIGIBLE (R150, R151, R154): the ordinal becomes eligible, its timer starts, its early
arrivals are consumed, and calls that waited for it go on. -/
def doOrdinalEligible (job epoch ord : Nat) (s : State) : State :=
  match entryOf s job ord, topOf s job with
  | some e, some t =>
    let c := collAt s job epoch ord
    let o := (jobAt s job).oldest
    if !c.eligible && !c.completed && takesPart s job e && mayBegin s job epoch ord && o ≤ epoch
        && epoch < o + t.epochLimit then
      let s := releaseEarlyIf s job epoch ord (fun i => i.chunk == 0xFFFFFF || !countsPhase e || c.countsDone)
      let s := setColl s job epoch ord (fun c =>
        { c with eligible := true, timer := some (s.now + 1000 * e.timeoutUs), restarted := false })
      (List.range 64).foldl (fun s q =>
        let Q := queueAt s q
        match Q.wait with
        | .eligible o' e' async flag =>
          if Q.bound && Q.job == job && o' == ord && e' == epoch then
            if async then
              endWait (setQueue s q (fun Q => { Q with asyncs := Q.asyncs ++ [(ord, epoch, flag)] })) q
            else setQueue s q (fun Q => { Q with wait := .collective ord epoch })
          else s
        | _ => s) s
    else s
  | _, _ => s

/-! ### Answers -/

/-- The tiles of a sparse tensor, with values of a format. -/
def tensorTiles (x : Tensor) (f : Fmt) : TileSpec :=
  { w := x.sizes.headD 1, layout := x.layout, n := x.nmN, m := x.nmM, bitmap := x.nmBitmap, fmt := f }

/-- The tiles that a header names. -/
def headerTiles (layout : Nat) (f : Fmt) (h : Nat) : TileSpec :=
  { w := natField h 15 0 + 1, layout := layout, n := natField h 59 58
    m := if natBit h 57 then 8 else 4, bitmap := natBit h 56, fmt := f }

/-- The tiles that the descriptor of a buffer of the entry fixes: the first that is a sparse tensor of the layout. -/
def bufferTiles (t : Topiary) (e : CollEntry) (layout : Nat) (f : Fmt) : Option TileSpec :=
  e.buffers.findSome? (fun b => match resolve t ⟨BitVec.ofNat 12 b.1, 0⟩ with
    | .ok x => if x.sparse && x.layout == layout then some (tensorTiles x f) else none
    | .error _ => none)

/-- W of an ordinal's tiles as the first input ACKed here with tiles names it: the inputs of one node share it (R168).
(DEDUCED, assumption 62). -/
def ackedWidth (c : Coll) (e : CollEntry) : Option Nat :=
  (c.inputs.find? (fun i => i.acked && i.chunk != 0xFFFFFF && !i.frames.isEmpty
    && (match inputRec e i.rank with | some r => r.sparseOk | none => false))).map
    (fun i => natField (leVal ((inpBytes i 1).take 8)) 15 0)

/-- What fixes the tiles of a sparse input (R163): the descriptor of a buffer of the entry, else what the chunk's own
first header `h` names, with the W of the inputs already ACKed here. (DEDUCED, assumption 62). -/
def hopSpec (t : Topiary) (c : Coll) (e : CollEntry) (layout : Nat) (f : Fmt) (h : Nat) : TileSpec :=
  match bufferTiles t e layout f with
  | some x => x
  | none => headerTiles layout f (match ackedWidth c e with
      | some w => setField h 15 0 w
      | none => h)

/-- What fixes the tiles of a value that no sparse input leads to and that no buffer describes: the entry, by means
that its encoding does not show; the values are free within the limits of R159. (DESIGN CHOICE, assumption 135). -/
def openTiles (t : Topiary) (e : CollEntry) (layout : Nat) (f : Fmt) : TileSpec :=
  let x := Config.openTile t.topiaryId e.ordinal
  { w := if layout = 4 then 32 * (1 + x.1 % 64) else 8 * (1 + x.1 % 8192), layout := layout, n := 1 + x.2.1 % 2
    m := if x.2.2.1 then 8 else 4, bitmap := x.2.2.2, fmt := f }

/-- The tiles of a value that this module forms for a layout: those of a buffer of the entry, else with the W of its
children, else what the entry leaves open. (DEDUCED, assumption 62). -/
def ownTiles (t : Topiary) (e : CollEntry) (layout : Nat) (f : Fmt) (child : Option TileSpec) : TileSpec :=
  match bufferTiles t e layout f, child with
  | some x, _ => x
  | none, some x => if x.layout = layout then { x with fmt := f } else { openTiles t e layout f with w := x.w }
  | none, none => openTiles t e layout f

/-- The limits of R159 and the reserved codes of R163. -/
def specOk (t : TileSpec) : Bool :=
  match t.layout with
  | 0 => 8 ≤ t.w && t.w % t.m == 0 && (t.n == 1 || t.n == 2)
  | 1 => 8 ≤ t.w
  | 2 => 8 ≤ t.w && t.w % 8 == 0
  | 3 => 8 ≤ t.w && t.w % 8 == 0
  | 4 => 32 ≤ t.w && t.w ≤ 2048 && t.w % 32 == 0
  | _ => false

/-- The number of tiles of a chunk of a reduction entry (R164, R597). -/
def tilesIn (e : CollEntry) (t : TileSpec) (chunk : Nat) : Nat :=
  let (a, b) := chunkRange e chunk
  ceilDiv (b - a) (max 1 t.elems)

/-- The tiles of a chunk of a kind that moves them unchanged: up to the padding, and none where a header breaks R165
or a tile runs past the end (R164, R168). -/
def tileRun (t : TileSpec) : Nat → List Byte → Option (List (List Byte))
  | 0, _ => some []
  | n + 1, bs =>
    if bs.all (· == 0) then some []
    else
      let h := leVal (bs.take 8)
      if bs.length < 8 || !headerOk t h || bs.length < tileSize t h then none
      else (tileRun t n (bs.drop (tileSize t h))).map (bs.take (tileSize t h) :: ·)

/-- The tiles of a moved chunk: at least one (R164). -/
def tilesUpTo (t : TileSpec) (bs : List Byte) : Option (List (List Byte)) :=
  match tileRun t bs.length bs with
  | some (x :: xs) => some (x :: xs)
  | _ => none

/-- Whether a DIGEST's FRAME_COUNT is one that R442 row 1 refuses: other than F_c on a dense input, or outside 1 to
F_max (R164, R165). -/
def countFails (c : Coll) (e : CollEntry) (r : InRec) (chunk count : Nat) : Bool :=
  match frameCount c e r chunk with
  | some n => count != n
  | none => count < 1 || r.f < count

/-- Whether a sparse input held complete fails the format checks of R165. (DEDUCED, assumption 111). -/
def formatFails (t : Topiary) (c : Coll) (e : CollEntry) (r : InRec) (chunk : Nat) (bs : List Byte) : Bool :=
  r.sparseOk && chunk != 0xFFFFFF &&
    (let spec := hopSpec t c e r.layout (inFormat e r.lo r.hi) (leVal (bs.take 8))
     !specOk spec ||
      (if isReduction e.kind then (splitTiles spec (tilesIn e spec chunk) bs).isNone
       else (tilesUpTo spec bs).isNone))

/-- The answer to an input by the table "Input answers": 0 ACK, else the NAK_CHUNK cause (R442).
(DEDUCED, assumption 111). -/
def inputAnswer (t : Topiary) (c : Coll) (e : CollEntry) (r : InRec) (i : Inp) (d : HeldDigest) : Nat :=
  let missing := (List.range d.count).any (fun k => !(i.frames.any (fun f => f.seq == k)))
  let bs := inpBytes i d.count
  if countFails c e r i.chunk d.count then 3
  else if !missing && formatFails t c e r i.chunk bs then 3
  else if missing then 2
  else if (!d.clean || i.frames.any (fun f => f.check == 2)) && 64 < t.domainModules then 4
  else if crc64 bs != d.crc then 1
  else 0

/-- Add a lag and keep the worst (R156, R157, R559). The worst is kept in full beside the register, whose LAG_NS
saturates. -/
def addLag (s : State) (die job ord rank ns : Nat) : State :=
  let k := (die * 16 + job) * 2 ^ 15 + rank
  let j := 16 * die + job
  let (n, sum) := lookupD s.coll.lag k (0, 0)
  let rec1 := (ord % 2 ^ 16) <<< 48 + rank <<< 33 + 2 ^ 32 + min ns (2 ^ 32 - 1)
  let worse := !natBit (lookupD s.coll.lagWorst j 0) 32 || lookupD s.coll.lagFull j 0 < ns
  { s with coll := { s.coll with
      lag := insertKey s.coll.lag k (min (n + 1) (2 ^ 24 - 1), min (sum + ns) (2 ^ 40 - 1))
      lagWorst := if worse then insertKey s.coll.lagWorst j rec1 else s.coll.lagWorst
      lagFull := if worse then insertKey s.coll.lagFull j ns else s.coll.lagFull } }

/-- The lags of a chunk that has just reached its completion count (R156). -/
def chunkLags (s : State) (e : CollEntry) (job epoch ord chunk : Nat) (ranks : List Nat) : State :=
  let c := collAt s job epoch ord
  let ts := ranks.map (fun r => (r, (inpAt c r chunk).arrival))
  let first := (ts.map (·.2)).foldl min (match ts with | t :: _ => t.2 | [] => 0)
  ts.foldl (fun s t => addLag s (entryDie e) job ord t.1 (t.2 - first)) s

/-- The first chunk stops the ordinal timer and starts the chunk timer; each later one restarts it. The timers of an
ordinal that is not eligible do not run (R154, R155, R447). The counts chunk is none of the chunks 0 to C − 1: it
yields no lag and reaches no completion count (R128, R156). (DESIGN CHOICE, assumption 128). -/
def chunkReached (s : State) (e : CollEntry) (job epoch ord chunk : Nat) : State :=
  let c := collAt s job epoch ord
  if c.reached.contains chunk then s
  else
    let s := chunkLags s e job epoch ord chunk (e.inputs.map (·.rank))
    setColl s job epoch ord (fun c =>
      { c with reached := c.reached ++ [chunk], first := true, restarted := false
               timer := if c.eligible then some (s.now + 1000 * e.timeoutUs) else none })

/-- Send NAK_CHUNK for an input and discard what is held of it (R442, R443); the third aborts the
ordinal with VERIFY instead (R446). (DEDUCED, assumption 117). -/
def nakInput (s : State) (job epoch ord : Nat) (i : Inp) (d : HeldDigest) (cause : Nat) : State :=
  if 2 ≤ i.naks then abortHere s job epoch ord .verify
  else
    let s := originate s (answerUnit cause (job, epoch, ord, i.chunk, i.rank) d.crc d.retRoute)
    let s := dropStaged (icnt s 5 1) i
    let s := { s with fab := { s.fab with earlyUsed := s.fab.earlyUsed.modify job (· - i.early) } }
    setColl s job epoch ord (fun c =>
      { putInp c { i with frames := [], digest := none, boundary := some (s.fabricTime % 2 ^ 32)
                          onlyResend := true, naks := i.naks + 1, nakCause := cause, nakCrc := d.crc, allocs := [], early := 0 }
        with retRoutes := (c.retRoutes ++ [d.retRoute]).eraseDups })

/-- Answer an input whose DIGEST is held, when its frames are all there or `force` says that
SHORT_WAIT_US has passed (R442). (DESIGN CHOICE, assumption 128). -/
def answerInput (s : State) (job epoch ord rank chunk : Nat) (force : Bool) : State :=
  match topOf s job, entryOf s job ord with
  | some t, some e =>
    let c := collAt s job epoch ord
    let i := inpAt c rank chunk
    match inputFor e rank chunk, i.digest with
    | some r, some d =>
      let missing := (List.range d.count).any (fun k => !(i.frames.any (fun f => f.seq == k)))
      if i.acked || (missing && !force) then s
      else
        match inputAnswer t c e r i d with
        | 0 =>
          let s := originate s (answerUnit 0 (job, epoch, ord, chunk, rank) d.crc d.retRoute)
          let s := setColl s job epoch ord (fun c =>
            { putInp c { i with acked := true, ackCrc := d.crc }
              with retRoutes := (c.retRoutes ++ [d.retRoute]).eraseDups })
          let c := collAt s job epoch ord
          let s := if chunk != 0xFFFFFF && e.inputs.all (fun r => (inpAt c r.rank chunk).acked) then
            chunkReached s e job epoch ord chunk else s
          settleColl s job epoch ord
        | cause =>
          let s := if r.sparseOk && cause == 3 then setJob s job (fun j => { j with formatErr := satAdd j.formatErr 1 }) else s
          nakInput s job epoch ord i d cause
    | _, _ => s
  | _, _ => s

/-- SHORT_WAIT_EXPIRY (R442). -/
def doShortWaitExpiry (job epoch ord rank chunk : Nat) (s : State) : State :=
  let i := inpAt (collAt s job epoch ord) rank chunk
  match i.digest with
  | some d => if !i.acked && d.since + 1000 * s.integ.shortWaitUs ≤ s.now then
      answerInput s job epoch ord rank chunk true else s
  | none => s

/-! ### DIGEST, ACK, NAK_CHUNK, RETRACT at the producer -/

/-- Replace an output of an ordinal. -/
def putOut (c : Coll) (o : Outp) : Coll :=
  { c with outputs := c.outputs.map (fun x =>
      if x.lo == o.lo && x.hi == o.hi && x.chunk == o.chunk && x.counts == o.counts then o else x) }

/-- Whether the TWIN frames of a shard's chunk have passed the twin's checks (R61, R477). -/
def gradsPassed (s : State) (job epoch : Nat) (shard chunk : Nat) : Bool :=
  match (topOf s job).bind (fun t => t.states.find? (fun x => x.shard == shard)) with
  | none => true
  | some x => s.fab.twin.st != .paired ||
      !(s.fab.twin.gradsOut.any (fun g => g.job == job && g.epoch == epoch && g.ordinal == x.gradOrdinal
        && g.chunk == chunk))

/-- DIGEST_SEND (R441): every frame has left, any duplicate has compared, and for cast weights the TWIN
frames have passed (R61). -/
def doDigestSend (job epoch ord lo hi chunk : Nat) (s : State) : State :=
  let c := collAt s job epoch ord
  match outAt c lo hi chunk with
  | none => s
  | some o =>
    let twinOk := match o.shard with | some sh => gradsPassed s job epoch sh chunk | none => true
    if !c.aborted && !o.dup && framesGone s c o && twinOk && o.consumers.any (fun k => !k.acked && k.sentAt.isNone)
    then
      let todo := o.consumers.filter (fun k => !k.acked && k.sentAt.isNone)
      let s := todo.foldl (fun s k => originate s (digestUnit s c o k)) s
      let o := { o with closed := true, consumers := o.consumers.map (fun k =>
        if !k.acked && k.sentAt.isNone then { k with sentAt := some s.now } else k) }
      icnt (setColl s job epoch ord (fun c => putOut c o)) 3 todo.length
    else s

/-- DIGEST_RESEND (R441): ten microseconds without an answer; after the third resend the ordinal
aborts with DEADLINE. -/
def doDigestResend (job epoch ord lo hi chunk i : Nat) (s : State) : State :=
  let c := collAt s job epoch ord
  match outAt c lo hi chunk with
  | none => s
  | some o =>
    match o.consumers[i]? with
    | none => s
    | some k =>
      match k.sentAt with
      | none => s
      | some t =>
        if k.acked || s.now < t + 10000 then s
        else if 3 ≤ k.resends then abortHere s job epoch ord .deadline
        else
          let s := originate s (digestUnit s c o k)
          let o := { o with consumers := o.consumers.set i { k with sentAt := some s.now, resends := k.resends + 1 } }
          icnt (setColl s job epoch ord (fun c => putOut c o)) 3 1

/-- The consumer that an answer comes from: the one whose route leaves by the port on which the answer
arrived, else the first that has not answered. (DEDUCED, assumption 36). -/
def answering (o : Outp) (port : Option Nat) : Option Nat :=
  match o.consumers.findIdx? (fun k => !k.acked && k.sentAt.isSome && some (routeHop k.route 0) == port) with
  | some i => some i
  | none => o.consumers.findIdx? (fun k => !k.acked && k.sentAt.isSome)

/-- The output that an answer names. -/
def answeredOut (c : Coll) (u : LinkUnit) : Option Outp :=
  c.outputs.find? (fun o => o.lo == u.rank && o.chunk == u.chunk && o.closed
    && crc64 o.bytes == leVal (u.payload.take 8))

/-- A commit of a chunk of the epoch ends the rollback mark that stands on it (R471). -/
def liftMark (s : State) (job ep : Nat) : State :=
  if (jobAt s job).rollMark = some ep then setJob s job (fun j => { j with rollMark := none }) else s

/-- ACK at the producer (R441): the consumer has committed; when all have, the output's shared buffers
are freed (R378), and the inputs that it was formed from are released (R57). -/
def recvAck (s : State) (port : Option Nat) (u : LinkUnit) : State :=
  match epochOf s u.job u.epoch with
  | none => windowError s u.job u.rank
  | some ep =>
    let c := collAt s u.job ep u.ordinal
    if c.aborted then s
    else
      match answeredOut c u with
      | none => s
      | some o =>
        match answering o port with
        | none => s
        | some i =>
          let o := { o with consumers := o.consumers.modify i (fun k => { k with acked := true }) }
          let s := icnt s 4 1
          let s := if o.consumers.all (·.acked) then liftMark (freeOut s u.job u.ordinal o) u.job ep else s
          let s := setColl s u.job ep u.ordinal (fun c => putOut c o)
          settleColl (releaseSpent s u.job ep u.ordinal o.chunk) u.job ep u.ordinal

/-- An output fails for the third time: REPLAY_FAIL is logged, INTEG set, the ordinal aborts with
VERIFY (R446). (DEDUCED, assumption 117). -/
def outputFails (s : State) (job epoch ord chunk : Nat) : State :=
  let s := logError s 7 5 0 0 0 job ord chunk 0
  abortHere (setAttn s aInteg) job epoch ord .verify

/-- RETRACT at the consumer (R443). (DESIGN CHOICE, assumption 114). -/
def recvRetract (s : State) (u : LinkUnit) : State :=
  match epochOf s u.job u.epoch with
  | none => windowError s u.job u.rank
  | some ep =>
    let c := collAt s u.job ep u.ordinal
    let i := inpAt c u.rank u.chunk
    if c.aborted then s
    else if i.acked then setJob s u.job (fun j => { j with protoErr := satAdd j.protoErr 1 })
    else
      let keepF := i.frames.filter (fun f => !stampBefore f.inject u.inject)
      let keepD := match i.digest with
        | some d => if stampBefore d.inject u.inject then none else some d
        | none => none
      let b := match i.boundary with
        | some b => if stampBefore b u.inject then u.inject else b
        | none => u.inject
      if keepF.isEmpty && keepD.isNone then
        let s := dropStaged s i
        let s := { s with fab := { s.fab with earlyUsed := s.fab.earlyUsed.modify u.job (· - i.early) } }
        setColl s u.job ep u.ordinal (fun c =>
          putInp c { i with frames := [], digest := none, boundary := some b, allocs := [], early := 0 })
      else
        setColl s u.job ep u.ordinal (fun c => putInp c { i with frames := keepF, digest := keepD, boundary := some b })

/-! ### Timers -/

/-- What an expiry of the ordinal or chunk timer finds at a chunk: every planned input has delivered
something, and the short inputs that hold a DIGEST (R154). -/
def chunkShort (e : CollEntry) (c : Coll) (chunk : Nat) : Bool × List Inp :=
  let is := e.inputs.map (fun r => inpAt c r.rank chunk)
  (is.all (fun i => i.acked || !i.frames.isEmpty || i.digest.isSome || i.naks != 0),
   is.filter (fun i => !i.acked && i.digest.isSome))

/-- Expiry at given chunks: NAK_CHUNK for short inputs that hold a DIGEST and one restart, else abort
with DEADLINE (R154, R447). -/
def timerExpires (s : State) (e : CollEntry) (job epoch ord : Nat) (chunks : List Nat) : State :=
  let c := collAt s job epoch ord
  let rs := chunks.map (chunkShort e c)
  if e.express || c.restarted || rs.any (fun r => !r.1) then abortHere s job epoch ord .deadline
  else
    let s := setColl s job epoch ord (fun c =>
      { c with restarted := true, timer := some (s.now + 1000 * e.timeoutUs) })
    (rs.flatMap (·.2)).foldl (fun s i => match i.digest with
      | some d => nakInput s job epoch ord i d 2
      | none => s) s

/-- The chunk that the ordinal timer waits for: while none has reached its completion count, the first that this
module handles (R154). (DESIGN CHOICE, assumption 129). -/
def firstChunk (s : State) (job : Nat) (e : CollEntry) : Nat := (ownChunks s job e).headD 0

/-- ORDINAL_TIMEOUT (R154): the timer of an eligible ordinal whose first chunk has not reached its
completion count. -/
def doOrdinalTimeout (job epoch ord : Nat) (s : State) : State :=
  match entryOf s job ord with
  | none => s
  | some e =>
    let c := collAt s job epoch ord
    match c.timer with
    | some t => if c.eligible && !c.first && !c.completed && !c.aborted && t ≤ s.now then
        timerExpires s e job epoch ord [firstChunk s job e] else s
    | none => s

/-- The chunks that head their engines' plans: for each engine the first of its plan that has not
reached its completion count (R211, R447). -/
def headChunks (s : State) (e : CollEntry) (c : Coll) : List Nat :=
  let engines := (e.engines.map (fun x => x.2.2)).eraseDups
  engines.filterMap (fun g =>
    ((e.engines.filter (fun x => x.2.2 == g)).flatMap (fun x => (List.range x.2.1).map (· + x.1))).find?
      (fun k => ownHalf s c.job e k && !c.reached.contains k))

/-- CHUNK_TIMER_EXPIRY (R447). -/
def doChunkTimerExpiry (job epoch ord : Nat) (s : State) : State :=
  match entryOf s job ord with
  | none => s
  | some e =>
    let c := collAt s job epoch ord
    match c.timer with
    | some t =>
      let hs := headChunks s e c
      if c.eligible && c.first && !c.completed && !c.aborted && t ≤ s.now && !hs.isEmpty then
        timerExpires s e job epoch ord hs else s
    | none => s

end Sys2Proof.Machine
end

