-- ==== Sys2Proof/Machine/Time.lean ====
section
/-! DEFINITION. Fabric time (R301 to R306), gate-list swaps (R310, R311), stretch (R317 to R324). -/

namespace Sys2Proof.Machine

/-- Change the time base. -/
def setTim (s : State) (f : Tim → Tim) : State := { s with fab := { s.fab with tim := f s.fab.tim } }

/-- Change the schedule. -/
def setSched (s : State) (f : Sched → Sched) : State := setTim s (fun t => { t with sched := f t.sched })

/-- Set bits of TIM.SCHED_ERR[5:0] and the SCHED attention bit (R332). -/
def schedErr (s : State) (bits : Nat) : State :=
  setAttn (setTim s (fun t => { t with errBits := t.errBits ||| bits })) aSched

/-- Change the management block. -/
def setMgt (s : State) (f : Mgt → Mgt) : State := { s with mgt := f s.mgt }

/-- The module enters READY or DEGRADED at the end of a boot; BOOT_MS holds the time since BOOT
(R530). -/
def endBoot (s : State) (st : MState) : State :=
  setMgt s (fun m => { m with st := st, bootMs := (s.now - m.bootAt) / 1000000 % 2 ^ 32 })

/-! ### Parents and time frames -/

/-- A port heard within 3 ms (R306). -/
def heardTime (s : State) (p : Nat) : Bool :=
  match (portAt s p).timeAt with
  | some t => s.now < t + 3000000
  | none => false

/-- A port whose peer carries time: STRATUM below 0xFF (R302, R303). -/
def carriesTime (s : State) (p : Nat) : Bool :=
  portUp s p && heardTime s p && (portAt s p).peerStratum < 0xFF

/-- Whether this module is the master and steers by no one (R302). -/
def steersAlone (s : State) : Bool := s.fab.tim.master && s.fab.tim.started

/-- The parent by R302: the first listed port that is up and whose peer is locked; a master that seeks
time in SYNC also takes a listed or any other up port whose peer carries time. (DEDUCED, assumption 42). -/
def chooseParent (s : State) : Option Nat :=
  let t := s.fab.tim
  if t.master then
    match t.parents.find? (carriesTime s) with
    | some p => some p
    | none => (s.fab.ports.map (·.1)).find? (carriesTime s)
  else t.parents.find? (fun p => carriesTime s p && !(portAt s p).peerHold)

/-- The states of R508 in which the module keeps fabric time by its parents. -/
def keepsTime (s : State) : Bool :=
  match s.mgt.st with
  | .sync | .ready | .run | .degraded | .safe => true
  | _ => false

/-- Fabric time jumps to `t`; the millisecond that runs to the next TIME frame runs on (R303).
(DEDUCED, assumption 42). -/
def jumpTime (s : State) (t : Nat) : State :=
  { setTim s (fun m => { m with lastSend := t - (s.fabricTime - m.lastSend) }) with fabricTime := t }

/-- The lock after three good exchanges (R304, R306): a master resumes STRATUM 0 and steers by no one;
another module in SYNC becomes READY (R509). -/
def lockTime (s : State) (stratum : Nat) : State :=
  let s := setTim s (fun t =>
    if t.master then { t with state := 1, stratum := 0, started := true, parent := none, slew := 0 }
    else { t with state := 1, stratum := min 254 (stratum + 1) })
  if s.mgt.st = .sync && !s.fab.tim.master then endBoot s .ready else s

/-- Apply one exchange with offset `off` in ps (R304, R306): a step in SYNC, steering after it.
(DEDUCED, assumption 42). -/
def exchange (s : State) (off : Int) (stratum : Nat) : State :=
  let good := if off.natAbs ≤ 2000 then s.fab.tim.good + 1 else 0
  let s := setTim s (fun t => { t with offsetPs := off, good := good })
  let ns := (off + 500) / 1000
  let s :=
    if s.mgt.st = .sync then jumpTime s ((s.fabricTime : Int) + ns).toNat
    else
      let s := setTim s (fun t => { t with slew := ns, slewAt := s.now })
      if 1000000 < off.natAbs then schedErr (setTim s (fun t => { t with state := 3 })) 8 else s
  if 3 ≤ good then lockTime s stratum else s

/-- STRATUM follows the parent's: one more than it, while the module has one (R302, R303). -/
def followStratum (s : State) (p : Nat) : State :=
  setTim s (fun t => if t.stratum = 0xFF then t else { t with stratum := min 254 ((portAt s p).peerStratum + 1) })

/-- Another parent is taken (R302, R306). -/
def takeParent (s : State) (p : Nat) : State :=
  followStratum (setTim s (fun t => { t with parent := some p, good := 0, lastParent := s.now })) p

/-- No listed parent is available (R306): HOLDOVER, once the module has been locked. -/
def noParent (s : State) : State :=
  let s := setTim s (fun t => { t with lastParent := s.now, parent := none, good := 0, slew := 0 })
  if s.fab.tim.state = 0 then s else schedErr (setTim s (fun t => { t with state := 2 })) 4

/-- Take the parent of R302 when it differs from the present one. -/
def retakeParent (s : State) : State :=
  if steersAlone s then s
  else
    match chooseParent s, s.fab.tim.parent with
    | some p, some q => if p = q then followStratum s p else takeParent s p
    | some p, none => takeParent s p
    | none, some _ => noParent s
    | none, none => s

/-- A TIME frame on a port (R303, R304, R324). -/
def recvTime (s : State) (p : Nat) (u : LinkUnit) : State :=
  let g (off n : Nat) : Nat := leVal (slice u.payload off n)
  let t4 := s.fabricTime
  let st := g 41 1
  let s := setPort s p (fun P =>
    { P with timeRx := (g 0 8, t4), peerSched := (g 24 8, st % 4, g 32 8), peerStratum := g 40 1
             peerHold := natBit st 2 || natBit st 3, timeAt := some s.now })
  if !keepsTime s then s
  else
    let s := retakeParent s
    if s.fab.tim.parent = some p && !steersAlone s then
      let s := setTim s (fun t => { t with lastParent := s.now })
      if g 8 8 = 0 then s
      else
        let d2 : Int := ((t4 : Int) - (g 8 8 : Nat)) - ((g 0 8 : Nat) - (g 16 8 : Nat) : Int)
        exchange s (1000 * ((g 0 8 : Nat) - (t4 : Int)) + 500 * d2) (g 40 1)
    else s

/-- The TIME frame of a port (R303); TX_TIME is stamped when its first bit leaves. -/
def timeUnit (s : State) (p : Nat) : LinkUnit :=
  let P := portAt s p
  let t := s.fab.tim
  let sc := t.sched
  let pl := leBytes 8 s.fabricTime ++ leBytes 8 P.timeRx.1 ++ leBytes 8 P.timeRx.2
    ++ leBytes 8 (if sc.active then sc.schedId else 0) ++ leBytes 8 (if sc.active then sc.activeSince else 0)
    ++ leBytes 1 t.stratum
    ++ leBytes 1 (sc.factor + (if t.state = 2 then 4 else 0) + (if t.state = 3 then 8 else 0))
  { typ := 10, length := 256, payload := padTo 256 pl }

/-- TIME_SEND (R303): once per millisecond of fabric time, on every up port. (DEDUCED, assumption 42). -/
def doTimeSend (s : State) : State :=
  if s.fab.tim.lastSend + 1000000 ≤ s.fabricTime then
    let s := setTim s (fun t => { t with lastSend := s.fabricTime })
    (s.fab.ports.map (·.1)).foldl (fun s p => if portUp s p then sendLocal s p (timeUnit s p) else s) s
  else s

/-- TIME_PARENT_TIMEOUT (R306): no TIME frame from the parent for 3 ms. -/
def doTimeParentTimeout (s : State) : State :=
  if keepsTime s && !steersAlone s && s.fab.tim.lastParent + 3000000 ≤ s.now then
    match chooseParent s with
    | some p => takeParent s p
    | none => noParent s
  else s

/-- MASTER_TIME_START (R302): 3 ms of SYNC have shown no port that carries time. -/
def doMasterTimeStart (s : State) : State :=
  if s.fab.tim.master && !s.fab.tim.started && s.mgt.st = .sync && s.mgt.syncAt + 3000000 ≤ s.now
      && (chooseParent s).isNone then
    let s := setTim s (fun t => { t with started := true, state := 1, stratum := 0, parent := none })
    jumpTime s 0
  else s

/-- TIM.SET (R330): on the master in SYNC, once. (DEDUCED, assumption 42). -/
def timSet (s : State) (v : Nat) : Option State :=
  if s.fab.tim.master && s.mgt.st = .sync && !s.fab.tim.setDone then
    let s := setTim s (fun t =>
      { t with started := true, setDone := true, state := 1, stratum := 0, parent := none })
    some (jumpTime s v)
  else none

/-! ### Swaps -/

/-- Whether `t` is a cycle boundary of the active lists (R310). -/
def isBoundary (sc : Sched) (t : Nat) : Bool :=
  sc.base ≤ t && (t - sc.base) % max 1 (cycleLen sc.cycleNs sc.factor) == 0

/-- The first cycle boundary of the active lists at or after `t` (R319). -/
def nextBoundary (sc : Sched) (t : Nat) : Nat :=
  let l := max 1 (cycleLen sc.cycleNs sc.factor)
  sc.base + ceilDiv (t - sc.base) l * l

/-- The lists of factor code `f` take over at `t` (R310, R311, R322): entry 0, a new hold at a factor
above 1.0, and the FLAG_WAIT deadlines scale (R269, R317). (DEDUCED, assumption 43). -/
def takeOver (s : State) (t f : Nat) : State :=
  let old := s.fab.tim.sched.factor
  let s := setSched s (fun sc =>
    { sc with active := true, oldFactor := sc.factor, factor := f, base := t, activeSince := t
              expiry := if f = 0 then 0 else t + sc.hold * cycleLen sc.cycleNs f
              expiryFactor := 0, held := sc.held.filter (fun h => s.fabricTime < h.2.1) })
  let scale (d : Nat) : Nat := if f = old then d else d * (4 + f) / (4 + old)
  { s with stretchQ := 4 + f
           comp := { s.comp with queues := s.comp.queues.map (fun Q => { Q with deadline := scale Q.deadline }) } }

/-- Tags of a port after its gated set changes (R394): every tag and virtual time 0, and each backlogged child takes its
tags by the wake rule. -/
def retag (s : State) (p : Nat) : State :=
  let P := portAt s p
  let s := setPort s p (fun P => { P with gatedNodes := [], jobNode := {}, classNodes := [], out := [] })
  P.out.foldl (fun s e => enqueue s p e) s

/-- Every port's tags start again (R394). (DEDUCED, assumption 95). -/
def retagAll (s : State) : State := (s.fab.ports.map (·.1)).foldl retag s

/-- GATE_SWAP (R311): PENDING takes over at its swap time, and a queued swap loads; with the first swap
the gated set of the ports changes (R394). -/
def doGateSwap (s : State) : State :=
  let sc := s.fab.tim.sched
  match sc.pending with
  | some (t, f) =>
    if sc.loaded && t ≤ s.fabricTime then
      let s := takeOver (setSched s (fun sc => { sc with pending := sc.queued, queued := none })) t f
      if sc.active then s else retagAll s
    else s
  | none => s

/-- STRETCH_EXPIRY (R322). (DEDUCED, assumption 43). -/
def doStretchExpiry (s : State) : State :=
  let sc := s.fab.tim.sched
  if sc.active && sc.factor != 0 && sc.expiry ≤ s.fabricTime then takeOver s sc.expiry sc.expiryFactor else s

/-! ### Stretch requests -/

/-- A STRETCH cell on a stretch route (R318). (DEDUCED, assumption 43). -/
def stretchUnit (payload : List Byte) (route : Nat) : LinkUnit :=
  { cell := true, typ := 13, route := route, payload := padTo 40 payload }

/-- Forward a request twice on each stretch route but the arrival port's (R321). -/
def forwardStretch (s : State) (arrival : Option Nat) (payload : List Byte) : State :=
  (s.fab.tim.sched.sroutes.filter (fun r => some (natField r 44 36) != arrival)).foldl
    (fun s r => originate (originate s (stretchUnit payload r)) (stretchUnit payload r)) s

/-- What an accepted request does to the pending and queued swaps (R321). -/
def applyStretch (sc : Sched) (swap f : Nat) : Sched :=
  match sc.pending, sc.queued with
  | some (t, g), q =>
    if t = swap then { sc with pending := some (t, max g f) }
    else
      match q with
      | some (t2, g2) =>
        if t2 = swap then { sc with queued := some (t2, max g2 f) }
        else if sc.expiry = swap && sc.factor != 0 then { sc with expiryFactor := max sc.expiryFactor f }
        else sc
      | none =>
        if sc.expiry = swap && sc.factor != 0 then { sc with expiryFactor := max sc.expiryFactor f }
        else if f ≤ sc.factor then sc
        else if t < swap then { sc with queued := some (swap, f) }
        else { sc with pending := some (swap, f), queued := some (t, g) }
  | none, _ =>
    if sc.expiry = swap && sc.factor != 0 then { sc with expiryFactor := max sc.expiryFactor f }
    else if f ≤ sc.factor then sc
    else { sc with pending := some (swap, f) }

/-- A request would give the module a third distinct swap time (R320, R321). -/
def thirdSwap (sc : Sched) (swap f : Nat) : Bool :=
  match sc.pending, sc.queued with
  | some (t, _), some (t2, _) =>
    t != swap && t2 != swap && !(sc.expiry == swap && sc.factor != 0) && sc.factor < f
  | _, _ => false

/-- Every condition of R320 but the receipt time. -/
def stretchValid (sc : Sched) (sid swap send f : Nat) : Bool :=
  sc.active && sid == sc.schedId && f != 3 && isBoundary sc swap && send + 1000 * sc.swapLeadUs ≤ swap
  && !thirdSwap sc swap f

/-- A STRETCH request (R320, R321), from a port or from this module itself. -/
def recvStretch (s : State) (arrival : Option Nat) (payload : List Byte) : State :=
  let g (off n : Nat) : Nat := leVal (slice payload off n)
  let sc := s.fab.tim.sched
  let key := g 24 4
  let f := g 28 1 % 4
  let swap := g 8 8
  if sc.held.any (fun h => h.1 == key) then s
  else if !stretchValid sc (g 0 8) swap (g 16 8) f then
    schedErr (setTim s (fun t => { t with invalidReq := min 0xFFFF (t.invalidReq + 1) })) 1
  else if swap < s.fabricTime + 10000 then
    schedErr (setTim s (fun t => { t with lateReq := min 0xFFFF (t.lateReq + 1) })) 2
  else
    let s := setSched s (fun sc => { sc with held := sc.held ++ [(key, swap, f)] })
    setSched (forwardStretch s arrival payload) (fun sc => applyStretch sc swap f)

/-- Originate a request (R318, R319). (DEDUCED, assumption 43). -/
def askStretch (s : State) (f swap : Nat) : State :=
  let sc := s.fab.tim.sched
  let seq := (sc.ownSeq + 1) % 2 ^ 16
  let pl := leBytes 8 sc.schedId ++ leBytes 8 swap ++ leBytes 8 s.fabricTime
    ++ leBytes 2 (s.fab.moduleIndex % 2 ^ 15) ++ leBytes 2 seq ++ leBytes 1 f
  recvStretch (setSched s (fun sc => { sc with ownSeq := seq })) none (padTo 40 pl)

/-- The dies that run work of the active schedule: those on which a job of it has a queue; none while the module
is DEGRADED (R316, R456). (DEDUCED, assumption 44). -/
def schedDies (s : State) : List Nat :=
  if forwardOnly s then [] else ((s.comp.queues.filter (fun Q => Q.bound && (match topOf s Q.job with
    | some t => t.schedId == s.fab.tim.sched.schedId
    | none => false))).map (·.die)).eraseDups

/-- The module's needed factor code (R316). (DEDUCED, assumption 44). -/
def neededFactor (s : State) : Nat :=
  (schedDies s).foldl (fun m d => max m (s.pwr.dies.getD d {}).needed) 0

/-- The module is unmet (R316). -/
def isUnmet (s : State) : Bool := (schedDies s).any (fun d => (s.pwr.dies.getD d {}).unmet)

/-- Raise (R319): the needed factor exceeds the active factor and any pending one. -/
def raiseIfNeeded (s : State) : State :=
  let sc := s.fab.tim.sched
  if !sc.active then s
  else
    let s := if isUnmet s then schedErr s 32 else s
    let need := neededFactor s
    let have1 := max sc.factor (max (match sc.pending with | some p => p.2 | none => 0)
      (match sc.queued with | some p => p.2 | none => 0))
    let swap := nextBoundary sc (s.fabricTime + 1000 * sc.swapLeadUs)
    if have1 < need && !(sc.expiry == swap && sc.factor != 0 && need ≤ sc.expiryFactor) then askStretch s need swap
    else s

/-- STRETCH_RENEW (R319): twice the swap lead before expiry, once for an expiry boundary. -/
def doStretchRenew (s : State) : State :=
  let sc := s.fab.tim.sched
  if sc.active && sc.factor != 0 && sc.renewed != sc.expiry && neededFactor s != 0
      && sc.expiry ≤ s.fabricTime + 2000 * sc.swapLeadUs && s.fabricTime < sc.expiry then
    let s := setSched s (fun x => { x with renewed := sc.expiry })
    askStretch (if isUnmet s then schedErr s 32 else s) (neededFactor s) sc.expiry
  else s

/-- SCHED_MISMATCH (R324): a neighbour on the same schedule still differs 1 ms after the later swap. -/
def doSchedMismatch (p : Nat) (s : State) : State :=
  let sc := s.fab.tim.sched
  let (sid, f, since) := (portAt s p).peerSched
  if isLanePort s p && sc.active && sid == sc.schedId && (f != sc.factor || since != sc.activeSince)
      && max since sc.activeSince + 1000000 < s.fabricTime then schedErr s 16
  else s

end Sys2Proof.Machine
end

