-- ==== Sys2Proof/Machine/Produce.lean ====
section
/-! DEFINITION. What a module makes of a value it has formed: outputs with their frames and shared
buffers (R128, R378, R441), root values in local buffers (R598), and the GRAD frames of committed
gradients (R59, R477). -/

namespace Sys2Proof.Machine

/-! ### Outputs -/

/-- CHECK of a payload (R440). -/
def checkOf (s : State) (copied : Bool) : Nat := if copied then 0 else if s.integ.residue then 1 else 2

/-- The logical engine that the plan gives chunk `c` (R211). -/
def engineOf (e : CollEntry) (c : Nat) : Nat :=
  match e.engines.find? (fun x => x.1 ≤ c && c < x.1 + x.2.1) with
  | some x => x.2.2
  | none => 0

/-- The consumers of an output value: the routes of its OUTPUT records that are in force (R289). In a kind
that delivers blocks, a route that MEMBERS gives to a member carries that member's chunks alone. Counts go where a value
that their member contributes to goes, but for the finished result. (DEDUCED, assumption 65). -/
def consumersOf (s : State) (job : Nat) (e : CollEntry) (lo hi chunk : Nat) : List Consumer :=
  (e.outputs.filter (fun o =>
    if chunk = 0xFFFFFF then o.lo ≤ lo && hi ≤ o.hi && !(o.lo == 0 && o.hi == e.n) else o.lo == lo && o.hi == hi)).filterMap (fun o =>
    let ranks := (e.members.filter (fun m => m.2 == o.route)).map (·.1)
    let wanted := chunk == 0xFFFFFF || match blockRanks e chunk with
      | some (a, b) => ranks.isEmpty || ranks.any (fun r => a ≤ r && r ≤ b)
      | none => true
    match routeAt s job o.route with
    | some r => if wanted && routeInForce s r then some { route := r.image, cls := r.cls } else none
    | none => none)

/-- What a request for the buffers of an output gives: the instance, pool and units that wait, or the
pool in which MAX would be passed (R375). -/
inductive Made where
  | ok (s : State)
  | wait (inst pool units : Nat)
  | quota (inst pool units : Nat)

/-- Take buffers of given sizes in an instance, one after another, for an ENGINE requester (R375).
(DEDUCED, assumption 48). -/
def takeBufs (inst req : Nat) : State → List Nat → List Nat → Except Made (State × List Nat)
  | s, got, [] => .ok (s, got)
  | s, got, n :: rest =>
    let (pool, units) := (poolFor (bpmAt s inst) n).getD (0, 0)
    match bpmAlloc s inst req n [] with
    | .ok s id => takeBufs inst req s (got ++ [id]) rest
    | .wait => .error (.wait inst pool units)
    | .quota => .error (.quota inst pool units)

/-- Padding of a chunk's last frame (R128). -/
def padFrames (bs : List Byte) : List Byte := padTo (max 256 (ceilDiv bs.length 256 * 256)) bs

/-- Record an output and send its frames (R132, R340, R441). A computed output lies in staging until every
consumer has ACKed it (R212); a replicated output, of two consumers or more, is written into ⌈R / 16⌉ shared
buffers for each frame (R378). (DEDUCED, assumption 48). -/
def placeOutput (s : State) (job epoch ord : Nat) (o : Outp) (die : Nat) : Made :=
  let n := max 1 (ceilDiv o.bytes.length o.payload)
  let r := o.consumers.length
  let req := reqId 1 (16 * die + o.engine) job
  let sizes := if r < 2 then [] else (List.range n).flatMap (fun i =>
    List.replicate (ceilDiv r 16) (min o.payload (o.bytes.length - i * o.payload)))
  match takeBufs (1 + die) req s [] (if o.copied then [] else [o.bytes.length]) with
  | .error m => m
  | .ok (s, st) =>
    match takeBufs 0 req s [] sizes with
    | .error m => m
    | .ok (s, ids) =>
      let o := { o with bufs := ids, stage := st.head? }
      let s := setColl s job epoch ord (fun c => { c with outputs := c.outputs ++ [o] })
      let c := collAt s job epoch ord
      .ok ((List.range r).foldl (fun s i => sendFrames s c o i false) s)

/-- What follows a request for buffers: the output left, the engine waits for space (R375), or its requester
freezes for a quota breach whose allocation is presented again (R375, R380, R381). -/
def settleMade (s : State) (die engine job : Nat) : Made → State
  | .ok s => s
  | .wait inst pool n =>
    let w := (reqId 1 (16 * die + engine) job, pool, n)
    setBpm s inst (fun B => if B.waiting.contains w then B else { B with waiting := B.waiting ++ [w] })
  | .quota inst pool n =>
    let req := reqId 1 (16 * die + engine) job
    freeze (setBpm s inst (fun B => { B with waiting := B.waiting ++ [(req, pool, n)] })) inst req pool .quota 0

/-- Whether an engine may allocate for a job: its requester is neither frozen nor waiting (R380, R381). -/
def engineFree (s : State) (die engine job : Nat) : Bool :=
  let req := reqId 1 (16 * die + engine) job
  [0, 1 + die].all (fun i => !isFrozen s i req && !(bpmAt s i).waiting.any (fun w => w.1 == req))

/-- An output value of an entry for one chunk, cut by its OUTPUT record: a chunk that its frames cannot
carry aborts the ordinal with RANGE (R579). -/
def emitOutput (s : State) (job epoch : Nat) (e : CollEntry) (lo hi chunk : Nat) (bs : List Byte)
    (engine : Nat) (copied dup : Bool) (shard : Option Nat) : Made :=
  match e.outputs.find? (fun o => o.lo == lo && o.hi == hi) with
  | none => .ok s
  | some r =>
    let p := 256 * max 1 r.p256
    if r.f * p < bs.length then .ok (abortHere s job epoch e.ordinal .range)
    else
      let ks := consumersOf s job e lo hi chunk
      placeOutput s job epoch e.ordinal
        { lo := lo, hi := hi, chunk := chunk, bytes := padFrames bs, payload := p, check := checkOf s copied
          engine := engine, copied := copied, consumers := ks, dup := dup, shard := shard } (entryDie e)

/-! ### Local buffers -/

/-- Elements on their way into a local buffer: raw bits, the block scales of an MX format, and, where they are tiles
already, the tiles. -/
structure Landing where
  raw : List Nat
  scales : List Nat := []
  tiles : List (List Byte) := []
  deriving DecidableEq, Repr, Inhabited

/-- The raw bits of `n` packed elements of a format (R74). -/
def rawElems (f : Fmt) (n : Nat) (bs : List Byte) : List Nat := (List.range n).map (fun i => bitsAt bs (i * f.bits) f.bits)

/-- A dense chunk of `n` elements with the scale bytes that follow the elements of an MX format (R343). -/
def landingOf (f : Fmt) (n : Nat) (bs : List Byte) : Landing :=
  { raw := rawElems f n bs
    scales := if f.isMx then (List.range (ceilDiv n 32)).map (fun k => (bs.getD (f.bytes n + k) 0).toNat) else [] }

/-- Elements `i` to `i + n - 1` of a landing: an MX block keeps its scale; tiles are formed anew. -/
def Landing.part (x : Landing) (i n : Nat) : Landing :=
  if i = 0 && x.raw.length ≤ n then x
  else { raw := slice x.raw i n
         scales := if x.scales.isEmpty then [] else (List.range (ceilDiv n 32)).map (fun k => x.scales.getD ((i + 32 * k) / 32) 0) }

/-- Write the raw bits of one element of a job's tensor. -/
def writeElemBits (s : State) (job : Nat) (t : Tensor) (coords : List Nat) (raw : Nat) : State :=
  let (va, bit) := elemAddr t coords
  let n := elemBytes t coords
  let old := leVal (readVAs s job va n)
  writeVAs s job va (leBytes n (setField old (bit + t.fmt.bits - 1) bit raw))

/-- Write elements and the scales of their blocks from element `start` of a dense tensor on, in element order
(R598). -/
def writeElems (s : State) (job : Nat) (t : Tensor) (start : Nat) (x : Landing) : State :=
  let s := x.raw.zipIdx.foldl (fun s p => writeElemBits s job t (coordsOf t.sizes (start + p.2)) p.1) s
  match t.scale with
  | some l => x.scales.zipIdx.foldl (fun s p =>
      writeVAs s job (scaleAddr l (coordsOf t.sizes (start + 32 * p.2))) [BitVec.ofNat 8 p.1]) s
  | none => s

/-- The elements of row `r` of a sparse tensor, or of band `r` for BLK, as its tile holds them. -/
def rowHeld (s : State) (job : Nat) (t : Tensor) (r : Nat) : List Nat :=
  let spec := tileSpecOf t
  let n := tileCount t * spec.elems
  slice (rowMajor spec (expandRecs n (tileAt s job t r).recs)) (r * spec.elems) spec.elems

/-- A row of a sparse tensor with elements `xs` put in from element `at'` of the tensor on. -/
def rowWith (s : State) (job : Nat) (t : Tensor) (r at' : Nat) (xs : List Nat) : List Nat :=
  let k := (tileSpecOf t).elems
  (rowHeld s job t r).zipIdx.map (fun p =>
    if at' ≤ r * k + p.2 && r * k + p.2 < at' + xs.length then xs.getD (r * k + p.2 - at') 0 else p.1)

/-- Write elements into a sparse tensor from element `start` on: the tile of each row that they meet, and its directory
entry (R166, R250). Tile r takes the place that R257 sizes for it, (8 + D) bytes at r × (8 + D). A row that the elements
cover in part keeps the rest of what its tile holds. (DESIGN CHOICE, assumption 136). -/
def writeTiles (s : State) (job : Nat) (t : Tensor) (start : Nat) (x : Landing) : State :=
  let spec := tileSpecOf t
  let k := max 1 spec.elems
  let whole := start % k = 0 && !x.tiles.isEmpty
  (List.range (ceilDiv (start + x.raw.length) k - start / k)).foldl (fun s i =>
    let r := start / k + i
    let bs := if whole then x.tiles.getD i [] else formDense spec (maskRow s job t r) (rowWith s job t r start x.raw)
    let off := r * (8 + spec.denseBytes)
    let s := writeVAs s job (t.base + (off : Nat)) bs
    match t.dir with
    | some l => writeVAs s job (dirAddr l r) (leBytes 4 off)
    | none => s) s

/-- Write elements into buffer `i` of an entry from element `start` on; elements past its capacity abort the ordinal
with RANGE and nothing is written (R598). -/
def toBuffer (s : State) (job epoch : Nat) (e : CollEntry) (i start : Nat) (x : Landing) : State :=
  match topOf s job, e.buffers[i]? with
  | some t, some (h, cap) =>
    if cap < start + x.raw.length then abortHere s job epoch e.ordinal .range
    else
      match resolve t ⟨BitVec.ofNat 12 h, 0⟩ with
      | .ok d => if d.sparse then writeTiles s job d start x else writeElems s job d start x
      | .error _ => s
  | _, _ => s

/-- The tensor of buffer `i` of an entry. -/
def bufferTensor (s : State) (job : Nat) (e : CollEntry) (i : Nat) : Option Tensor :=
  match topOf s job, e.buffers[i]? with
  | some t, some (h, _) => (resolve t ⟨BitVec.ofNat 12 h, 0⟩).toOption
  | _, _ => none

/-- The buffer of member `d` in a kind that delivers something of its own to each member: BUFFER record i serves
MEMBERS record i where there are as many of both, and else the first serves all.
(DESIGN CHOICE, assumption 136). -/
def bufferOf (e : CollEntry) (d : Nat) : Nat :=
  if e.members.length = e.buffers.length then (e.members.findIdx? (fun m => m.1 == d)).getD 0 else 0

/-- Where the root values of a chunk go: buffer, first element there, first element within the chunk, and how many. Each
member's own block of REDUCE_SCATTER counts from element 0 of its buffer; in a buffer that serves several members their
blocks lie one after another by rank (R598). (DESIGN CHOICE, assumption 136). -/
def rootPlaces (e : CollEntry) (chunk : Nat) : List (Nat × Nat × Nat × Nat) :=
  let (a, b) := chunkRange e chunk
  if e.kind != 2 || e.members.isEmpty then [(0, a, 0, b - a)]
  else
    let m := e.m.getD 1
    e.members.flatMap (fun r =>
      let lo := max a (r.1 * m)
      let hi := min b (r.1 * m + m)
      let first := if e.members.length = e.buffers.length then 0
        else (e.members.filter (fun x => x.1 < r.1)).length * m
      if lo < hi then [(bufferOf e r.1, first + (lo - r.1 * m), lo - a, hi - lo)] else [])

/-! ### Gradients for the twin -/

/-- Put a unit on the twin port (R475). -/
def sendTwin (s : State) (u : LinkUnit) : State :=
  let p := s.fab.twin.port
  if portUp s p then enqueue s p { unit := sealUnit u, ready := s.fabricTime } else s

/-- Change the twin. -/
def setTwin (s : State) (f : Twin → Twin) : State := { s with fab := { s.fab with twin := f s.fab.twin } }

/-- A TWIN frame of one hop (R475). -/
def twinFrame (sub cls hop job epoch ord chunk seq : Nat) (pl : List Byte) : LinkUnit :=
  { typ := 12, cls := cls, job := job, epoch := epoch % 4, ordinal := ord, chunk := chunk, rank := sub
    flowSeq := seq, route := hop <<< 67, length := pl.length, payload := pl }

/-- State entries of a job in a region. -/
def regionShards (s : State) (job : Nat) (rep : Bool) : List StateEntry :=
  match topOf s job with
  | some t => t.states.filter (fun x => x.rep == rep)
  | none => []

/-- The GRAD frames of a committed chunk, for the die of its shard, with CHECK as a computed payload carries it (R440,
R477, R576). -/
def sendGrad (s : State) (job epoch ord chunk die : Nat) (bs : List Byte) : State :=
  let n := max 1 (ceilDiv bs.length 4096)
  (List.range n).foldl (fun s i =>
    let pl := slice bs (i * 4096) 4096
    let s := sendTwin s { twinFrame 0 1 (0x140 + 4 * die) job epoch ord chunk i (padFrames pl) with res := checkOf s false <<< 14 }
    setTwin s (fun t =>
      { t with gradsOut := t.gradsOut ++ [{ job := job, epoch := epoch, ordinal := ord, chunk := chunk, seq := i }] })) s

/-- The format in which a gradient collective's root feeds the optimizer and its twin: PAIR stays PAIR,
every other format is taken to FP32 (R59, R196). -/
def gradFmt (s : State) (job ord : Nat) : Fmt :=
  match entryOf s job ord with
  | some e => e.fOut
  | none => .fp32

/-- Element `i` of a chunk's bytes of `n` elements in a format, decoded with its block scale. -/
def chunkElem (f : Fmt) (n : Nat) (bs : List Byte) (i : Nat) : FVal :=
  let scale := if f.isMx then (bs.getD (f.bytes n + i / 32) 0).toNat else 0
  f.decode scale (bitsAt bs (i * f.bits) f.bits)

/-- Width of a mask's rows: its innermost size (R159, R173). -/
def maskWidth (s : State) (job h : Nat) : Nat :=
  match topOf s job with
  | none => 1
  | some t => max 1 (dSize (lookupD t.descs h 0) 0)

/-- Dense positions of the set bits of a mask tensor below `count`, in order: rows of W bits, each padded to
8 bytes (R173). -/
def maskPositions (s : State) (job : Nat) (h count : Nat) : List Nat :=
  match topOf s job with
  | none => []
  | some t =>
    let base := dBase (lookupD t.descs h 0)
    let w := maskWidth s job h
    (List.range count).filter (fun i =>
      natBit (readVA s job ((base : Int) + (i / w * pad8 (ceilDiv w 8) + i % w / 8 : Nat))).toNat (i % w % 8))

/-- Positions within gradient chunk `c` that a masked shard packs, in order; none for a shard without a mask,
whose elements are the chunk's own (R183, R204). -/
def packedAt (s : State) (job : Nat) (x : StateEntry) (e : CollEntry) (c : Nat) : List Nat :=
  match x.mask with
  | none => []
  | some h =>
    let (a, b) := chunkRange e c
    let first := (chunkRange e x.chunkFirst).1
    ((maskPositions s job h x.paramCount).filter (fun p => a ≤ first + p && first + p < b)).map (fun p => first + p - a)

/-- The bytes of a committed root chunk as GRAD frames carry them (R59). -/
def gradBytes (f : Fmt) (n : Nat) (ps : List Nat) (bs : List Byte) : List Byte :=
  ps.flatMap (fun i =>
    if f = .pair then slice bs (8 * i) 8
    else leBytes 4 (if f = .fp32 then leVal (slice bs (4 * i) 4) else (enc32 (chunkElem f n bs i)).1))

/-- Whether the twin is to get gradients and flips of a job in a region: of primary shards while PAIRED, of
both regions from a resync's copy to the pair's meeting (R477, R482). -/
def mirrors (s : State) (job : Nat) (rep : Bool) : Bool :=
  (s.fab.twin.st == .paired && !rep) || (s.fab.twin.st == .solo && s.fab.twin.synced.contains job)

/-- A committed root chunk feeds the shards whose GRAD_ORDINAL it is: its GRAD frames leave (R59, R477). -/
def gradRoot (s : State) (job epoch : Nat) (e : CollEntry) (chunk : Nat) (bs : List Byte) : State :=
  [false, true].foldl (fun s rep =>
    if !mirrors s job rep then s
    else
      match (regionShards s job rep).find? (fun x => x.gradOrdinal == e.ordinal && x.chunkFirst ≤ chunk
          && chunk < x.chunkFirst + x.chunkCount) with
      | some x =>
        let (a, b) := chunkRange e chunk
        sendGrad s job epoch e.ordinal chunk x.die (gradBytes e.fOut (b - a)
          (if x.mask.isSome then packedAt s job x e chunk else List.range (b - a)) bs)
      | none => s) s

/-- The root value of chunk `c` in the output format (R106): it is kept for the optimizer, written into the local
buffers (R598), and sent to the twin where it is a gradient. `bs` are its dense bytes, `tiles` those of a first buffer
of a sparse layout. -/
def placeRoot (s : State) (job epoch : Nat) (e : CollEntry) (chunk : Nat) (bs : List Byte) (tiles : List (List Byte)) :
    State :=
  let (a, b) := chunkRange e chunk
  let s := setColl s job epoch e.ordinal (fun c => { c with roots := c.roots ++ [(chunk, bs)] })
  let x : Landing := { landingOf e.fOut (b - a) bs with tiles := tiles }
  let s := if e.buffers.isEmpty then s
    else (rootPlaces e chunk).foldl (fun s p =>
      if (collAt s job epoch e.ordinal).aborted then s else toBuffer s job epoch e p.1 p.2.1 (x.part p.2.2.1 p.2.2.2)) s
  if (collAt s job epoch e.ordinal).aborted then s else gradRoot s job epoch e chunk bs

end Sys2Proof.Machine
end

