-- ==== Sys2Proof/Machine/Tiles.lean ====
section
/-! DEFINITION. What every tile of work shares: tile counts (R454), sampling (R435, R437), alternates (R214,
R219, R230), residue failures and uncorrectable reads (R415, R434), and sparse anomalies (R178, R179). A tile
kind is 0 for a Privet chunk, 1 for a Hawthorn batch and 2 for a Laurel block pass. -/

namespace Sys2Proof.Machine

/-- Change the integrity state. -/
def setInteg (s : State) (f : Integ → Integ) : State := { s with integ := f s.integ }

/-- Count a tile that a die has run (R454). -/
def countTile (s : State) (kind die : Nat) : State :=
  setInteg s (fun i => { i with tiles := insertKey i.tiles (4 * kind + die) (lookupD i.tiles (4 * kind + die) 0 + 1) })

/-- D of R435 under the policy of R437: AUTO samples 1/64 while residue checking is off. -/
def sampleD (i : Integ) : Option Nat :=
  if i.dup = 0 then (if i.residue then none else some 6)
  else if 3 ≤ i.dup && i.dup ≤ 10 then some i.dup else none

/-- Key of a sampling count: the logical unit and the job (R435). -/
def sampleKey (kind die unit job : Nat) : Nat := ((kind * 4 + die) * 128 + unit) * 16 + job

/-- Count a first execution of a tile on a unit, and say whether it is sampled (R435).
(DESIGN CHOICE, assumption 39). -/
def sampleTile (s : State) (kind die unit job : Nat) : State × Bool :=
  let k := sampleKey kind die unit job
  let c := lookupD s.integ.sampleCnt k 0
  let hit := match sampleD s.integ with
    | some d => c % 2 ^ d == 2 ^ d - 1
    | none => false
  (setInteg s (fun i => { i with sampleCnt := insertKey i.sampleCnt k ((c + 1) % 2 ^ 32) }), hit)

/-- Whether a logical unit is quarantined and not yet remapped (R230, R455). -/
def isQuarantined (s : State) (unit die logical : Nat) : Bool :=
  s.integ.quar.any (fun r => r.unit == unit && r.die == die && r.logical == logical && r.st != 2)

/-- Whether a remap of a logical unit is pending (R229). -/
def remapDue (s : State) (unit die logical : Nat) : Bool :=
  (s.integ.remapPending ++ s.integ.remapReady).any (fun r => r.unit == unit && r.die == die && r.logical == logical)

/-- Whether a logical unit serves as an alternate: it is not quarantined without its remap, and no remap of it is
pending (R230, R234). -/
def usable (s : State) (unit die logical : Nat) : Bool :=
  !isQuarantined s unit die logical && !remapDue s unit die logical

/-- The usable alternates of a Privet engine in order: (e + 1) mod 16 and on (R214, R230). -/
def engineAlts (s : State) (die e : Nat) : List Nat :=
  (((List.range 16).drop 1).map (fun i => (e + i) % 16)).filter (usable s 0 die)

/-- The usable alternates of a chain group in order: (g + 16) mod 128 and on, without groups that have an unusable core
(R219, R230). -/
def groupAlts (s : State) (die g : Nat) : List Nat :=
  (((List.range 8).drop 1).map (fun i => (g + 16 * i) % 128)).filter (fun x =>
    (List.range 8).all (fun k => usable s 1 die (8 * x + k)))

/-- Whether a unit has failed a self-test and takes no further tiles until its remap (R455). -/
def unitOut (s : State) (unit die logical : Nat) : Bool :=
  s.integ.quar.any (fun r => r.unit == unit && r.die == die && r.logical == logical && r.st != 2 && r.failed)

/-- Logical engines that may run a chunk planned for engine `e`, in order: itself unless it has failed a
self-test, then its alternates (R214, R230, R455). -/
def engineUnits (s : State) (die e : Nat) : List Nat :=
  (if unitOut s 0 die e then [] else [e]) ++ engineAlts s die e

/-- Chain groups that may run a batch of group `g`, in order (R219, R230, R455). -/
def groupUnits (s : State) (die g : Nat) : List Nat :=
  (if (List.range 8).any (fun k => unitOut s 1 die (8 * g + k)) then [] else [g]) ++ groupAlts s die g

/-- An uncorrectable error that a unit of a die meets: note, counter, attention (R415), and the error log's
entry against the scratchpad bank (R452). -/
def eccError (s : State) (die key job ord chunk : Nat) : State :=
  let s := uncorrectableNote s die key
  if key / 2 ^ 48 < 4 then logError s 5 4 (key / 2 ^ 48) (Config.bankOf (key % 2 ^ 48) % 192) 0 job ord chunk 0 else s

/-- The pattern class of a faulty operation, by the table's seven (R452). -/
def FaultAt.class (f : FaultAt) : Nat := f.pattern % 7

/-- The core of chain group `g` that a faulty operation ran on: one of the group's eight (R453). -/
def FaultAt.core (f : FaultAt) (g : Nat) : Nat := 8 * g + f.elem % 8

/-- Residue failures of a unit: each is counted and logged (R434, R452, R460). `xs` are the logical units of the
failed executions in order, with what failed. -/
def residueErrors (s : State) (unit die job ord chunk : Nat) (xs : List (Nat × FaultAt)) : State :=
  xs.foldl (fun s x => logError (icnt s 0 1) 1 unit die x.1 0 job ord chunk x.2.class) s

/-- The flags of failed executions in the registers of the units that ran them: what a faulty execution raises is
open (R96). (DESIGN CHOICE, assumption 123). -/
def faultFlags (s : State) (note : State → Nat → FpFlags → State) (units : List Nat) : State :=
  units.foldl (fun s u =>
    let (w, s) := drawFree s
    note s u (w.truncate 8)) s

/-- Physical spares of a pool in the order in which they are taken: a spare engine is 16, a spare core lies after
its cluster's, a spare bank after 191, a spare row or column after 255 (R47, R48). -/
def spareIndex (p : Spares) (unit logical : Nat) : Nat :=
  match unit with
  | 0 => 16
  | 1 => 1024 + 8 * (logical / 128) + (8 - p.clusters.getD (logical / 128) 0)
  | 2 => 256 + (8 - p.rows)
  | 3 => 256 + (8 - p.cols)
  | _ => 192 + (8 - p.banks)

/-- The physical row or column that a logical one of the Laurel array uses under the rotated map: that which the
normal map gives logical index (i + 128) mod 256, or a free spare in place of a quarantined one (R224, R230). -/
def rotatedPhys (s : State) (unit die logical : Nat) : Nat :=
  let i := (logical + 128) % 256
  if isQuarantined s unit die i then spareIndex (s.integ.spares.getD die {}) unit i else physOf s unit die i

/-- Log an error of a Laurel pass against its row and column, under the rotated map or the normal one (R224, R452,
R453). -/
def logPass (s : State) (kind die job : Nat) (rotated : Bool) (f : FaultAt) : State :=
  let row := f.elem % 256
  logErrorAt s (if rotated then rotatedPhys s 2 die row else physOf s 2 die row) kind 2 die row (f.col % 256) job 0 0 f.class

/-- Residue failures of Laurel passes: the first execution runs under the normal map and every later one under the
rotated map (R224, R434). -/
def passErrors (s : State) (die job : Nat) (fs : List FaultAt) : State :=
  fs.zipIdx.foldl (fun s x => logPass (icnt s 0 1) 1 die job (x.2 != 0) x.1) s

/-- Count a block pass that the array has run (R233). -/
def countPass (s : State) (die n : Nat) : State :=
  { s with comp := { s.comp with
    mtxPasses := insertKey s.comp.mtxPasses die ((lookupD s.comp.mtxPasses die 0 + n) % 2 ^ 32) } }

/-- Count the anomalies of a tile's operands and keep the last (R178, R179): `unit` is 0 Privet, 1 Hawthorn,
2 Laurel. (DEDUCED, assumption 68). -/
def noteAnomalies (s : State) (die job unit ord : Nat) (as : List (Nat × Nat × Nat)) : State :=
  as.foldl (fun s a =>
    let (rank, kind, tile) := a
    let k := 16 * die + job
    let v := (ord % 2 ^ 16) <<< 48 + (rank % 2 ^ 15) <<< 33 + 2 ^ 32 + (kind % 16) <<< 28 + (unit % 4) <<< 26
      + min tile (2 ^ 20 - 1)
    { s with comp := { s.comp with
        metaCnt := insertKey s.comp.metaCnt k (satAdd (lookupD s.comp.metaCnt k 0) 1)
        metaLast := insertKey s.comp.metaLast k v } }) s

/-- The queue whose program prepares the steps of a job's shards on a die: the lowest-numbered VEC queue there.
(DEDUCED, assumption 22). -/
def shardQueue (s : State) (job die : Nat) : Option Queue :=
  s.comp.queues.find? (fun Q => Q.bound && Q.job == job && Q.die == die && Q.qtype == .vec)

/-- The chain group that runs a shard's step: the first group of that queue. (DEDUCED, assumption 22). -/
def shardGroup (s : State) (job die : Nat) : Nat := match shardQueue s job die with | some Q => Q.gangFirst | none => 0

/-- The runs of a chunk that an output value comes from: those of the nodes within it. -/
def runsOf (c : Coll) (lo hi chunk : Nat) : List ChunkRun :=
  c.ran.filter (fun r => r.chunk == chunk && lo ≤ r.lo && r.hi ≤ hi)

/-- One execution of a chunk on engine `g`: its flags in the register of the engine, or, for the predicate of FILTER, of
the chain group that ran it, and its anomalies (R94, R96, R141, R178). -/
def noteRuns (s : State) (die g job ord : Nat) (filter : Bool) (runs : List ChunkRun) : State :=
  let f := runs.foldl (fun f r => f ||| r.flags) 0
  let s := if f = 0 then s else if filter then flagVec s die g f job else flagRde s die g f job
  noteAnomalies s die job 0 ord (runs.flatMap (·.anomalies))

/-- The unit on which an output that engine `e` computed is computed again: the first usable alternate of the engine, or
of the chain group that ran a FILTER predicate (R214, R219, R230). -/
def replayUnit (s : State) (die e job : Nat) (filter : Bool) : Option Nat :=
  if filter then (groupAlts s die (shardGroup s job die)).head? else (engineAlts s die e).head?

/-- Compute an output again on its alternate: the unit, with the flags and anomalies of the run; none where no usable
alternate remains, which fails the output (R214, R230, R446). A copied output is sent again from its buffer (R444). -/
def recompute (s : State) (c : Coll) (o : Outp) : Option (State × Nat) :=
  if o.copied then some (s, o.engine)
  else
    let e := (entryOf s c.job c.ordinal).getD {}
    let filter := e.kind == 11 && !o.counts
    match replayUnit s (entryDie e) o.engine c.job filter with
    | none => none
    | some g => some (noteRuns s (entryDie e) g c.job c.ordinal filter (runsOf c o.lo o.hi o.chunk),
        if filter then o.engine else g)

/-- NAK_CHUNK at the producer (R444, R446, R452): queued frames toward the consumer are dropped, RETRACT
goes to it alone, and the output is sent again with RESEND = 1; a computed output is recomputed from the
held inputs on the alternate with the same bits (R99, R214). -/
def recvNak (s : State) (port : Option Nat) (u : LinkUnit) : State :=
  match epochOf s u.job u.epoch with
  | none => windowError s u.job u.rank
  | some ep =>
    let c := collAt s u.job ep u.ordinal
    if c.aborted then s
    else
      match answeredOut c u with
      | none => s
      | some o =>
        match answering o port with
        | none => s
        | some i =>
          match o.consumers[i]? with
          | none => s
          | some k =>
            let cause := leVal (slice u.payload 8 1)
            let s := icnt s 6 1
            let die := match entryOf s u.job u.ordinal with | some e => entryDie e | none => 0
            let s := if cause = 1 ∨ cause = 4 then
              logError s 3 0 die o.engine 0 u.job u.ordinal u.chunk 0 else s
            if 2 ≤ o.failures then outputFails s u.job ep u.ordinal u.chunk
            else
              match recompute s c o with
              | none => outputFails s u.job ep u.ordinal u.chunk
              | some (s, g) =>
                let s := dropOwn s (unitOfOut c o) (some (routeHop k.route 0))
                let s := icnt (originate (squashJob s u.job) (retractUnit c o k)) 7 1
                let s := sendFrames s c o i true
                let o := { o with failures := o.failures + 1, engine := g
                                  consumers := o.consumers.set i { k with sentAt := none, resends := 0 } }
                icnt (setColl s u.job ep u.ordinal (fun c => putOut c o)) 8 1

end Sys2Proof.Machine
end

