-- ==== Sys2Proof/Machine/Optim.lean ====
section
/-! DEFINITION. The optimizer in the fabric: banks and planes (R181 to R187, R192), the prelude and the
library programs (R193 to R203), casts and digests (R204, R205), flips (R63, R187), the start rule
(R188), rollback (R189) and MMU.OPT_STATE (R206). -/

namespace Sys2Proof.Machine

/-! ### Access -/

/-- The state entry of a shard. -/
def stateOf (s : State) (job id : Nat) : Option StateEntry :=
  (topOf s job).bind (fun t => t.states.find? (fun x => x.shard == id))

/-- A shard's record. -/
def shardAt (s : State) (job id : Nat) : Shard :=
  (s.coll.shards.find? (fun h => h.job == job && h.id == id)).getD { job := job, id := id }

/-- Change a shard's record. -/
def setShard (s : State) (job id : Nat) (f : Shard → Shard) : State :=
  { s with coll := { s.coll with
      shards := s.coll.shards.map (fun h => if h.job == job && h.id == id then f h else h) } }

/-- Shards of a job. -/
def shardsOf (s : State) (job : Nat) : List Shard := s.coll.shards.filter (fun h => h.job == job)

/-- Key of the first byte of page `k` of a plane in a bank: plane pages are virtual page numbers, whose records
R410 makes HBM pages of the entry's die (R192, R290, R410). -/
def pageKey (s : State) (job : Nat) (x : StateEntry) (bank : Bool) (plane k : Nat) : Nat :=
  let (p0, p1, _) := x.planes.getD plane (0, 0, 0)
  (xlate s job ((((if bank then p1 else p0) + k) * 2 ^ 21 : Nat) : Int)).getD 0

/-- Key of value `i` of a plane in a bank (R183, R192): plane 0 begins one page after the step record. -/
def planeKey (s : State) (job : Nat) (x : StateEntry) (bank : Bool) (plane i : Nat) : Nat :=
  pageKey s job x bank plane (4 * i / 2 ^ 21 + (if plane = 0 then 1 else 0)) + 4 * i % 2 ^ 21

/-- Key of the step record of a bank (R192). -/
def recordKey (s : State) (job : Nat) (x : StateEntry) (bank : Bool) : Nat := pageKey s job x bank 0 0

/-- A 32-bit word of memory. -/
def memWord (s : State) (k : Nat) : Nat := leVal (s.comp.mem.getBytes k 4)

/-- Write a 32-bit word of memory. -/
def putWord (s : State) (k v : Nat) : State :=
  { s with comp := { s.comp with mem := s.comp.mem.putBytes k (leBytes 4 v) } }

/-- The epoch that the next flip of a shard completes. -/
def nextEpoch (h : Shard) : Nat := match h.flipped with | some e => e + 1 | none => 0

/-! ### Values with flags -/

/-- A result of FP32 operations with the flags raised on the way. -/
abbrev FV := Nat × FpFlags

/-- Lift a two-operand FP32 operation. -/
def lift2 (op : Nat → Nat → Nat × FpFlags) (a b : FV) : FV :=
  let r := op a.1 b.1
  (r.1, a.2 ||| b.2 ||| r.2)

/-- fl(a + b). -/
def fvAdd : FV → FV → FV := lift2 fadd
/-- fl(a − b). -/
def fvSub : FV → FV → FV := lift2 fsub
/-- fl(a × b). -/
def fvMul : FV → FV → FV := lift2 fmul
/-- fl(a / b). -/
def fvDiv : FV → FV → FV := lift2 fdiv
/-- fl(sqrt(a)). -/
def fvSqrt (a : FV) : FV := let r := fsqrt a.1; (r.1, a.2 ||| r.2)
/-- A constant or a loaded value. -/
def fvVal (b : Nat) : FV := (b, 0)
/-- sign(a) of R201. -/
def fvSign (a : FV) : FV :=
  match dec32 a.1 with
  | .nan => (0x7FC00000, a.2 ||| fNanIn)
  | v => if v.isZero then a else (if v.signBit then 0xBF800000 else 0x3F800000, a.2)
/-- Native dot product of values against 1.0 (R202). -/
def fvSum (xs : List FV) : FV :=
  let r := dotNative (xs.map (fun x => some (dec32 x.1, dec32 0x3F800000))) none
  (r.1, xs.foldl (fun f x => f ||| x.2) r.2)

/-! ### Step record, hyperparameters, prelude -/

/-- The hyperparameter row that serves step T = `t` (R193). -/
def hyperRow (s : State) (job : Nat) (x : StateEntry) (t : Nat) : List Nat :=
  match topOf s job with
  | none => []
  | some tp =>
    let rows := lookupD tp.hypers x.hyper []
    rows.getD (min (t - 1) (rows.length - 1)) []

/-- The per-step scalars (R197). -/
structure Prelude where
  lr : FV
  wd : FV
  beta1 : FV
  beta2 : FV
  eps : FV
  nsA : FV
  nsB : FV
  nsC : FV
  scale : FV
  t : Nat
  b1t : FV
  b2t : FV
  bc1 : FV
  bc2 : FV
  omb1 : FV
  omb2 : FV
  gscl : FV
  kdec : FV
  skipped : Nat
  oldB1 : Nat
  oldB2 : Nat
  deriving DecidableEq, Repr, Inhabited

/-- The flags that the prelude's operations raise (R93, R197). -/
def Prelude.flags (P : Prelude) : FpFlags :=
  [P.b1t, P.b2t, P.bc1, P.bc2, P.omb1, P.omb2, P.gscl, P.kdec].foldl (fun f x => f ||| x.2) 0

/-- The prelude of a shard's step from its current record, row and CLIP (R197). -/
def prelude (s : State) (job : Nat) (x : StateEntry) (bank : Bool) (clip : Nat) : Prelude :=
  let k := recordKey s job x bank
  let t := (memWord s k + 1) % 2 ^ 32
  let row := hyperRow s job x t
  let h (i : Nat) : FV := fvVal (row.getD i 0)
  let one := fvVal 0x3F800000
  let b1t := fvMul (fvVal (memWord s (k + 4))) (h 2)
  let b2t := fvMul (fvVal (memWord s (k + 8))) (h 3)
  let adam := x.program == 1
  { lr := h 0, wd := h 1, beta1 := h 2, beta2 := h 3, eps := h 4, nsA := h 6, nsB := h 7, nsC := h 8
    scale := h 9, t := t, b1t := b1t, b2t := b2t
    bc1 := if adam then fvDiv one (fvSub one b1t) else one
    bc2 := if adam then fvDiv one (fvSub one b2t) else one
    omb1 := fvSub one (h 2), omb2 := fvSub one (h 3)
    gscl := fvMul (fvVal clip) (h 5), kdec := fvSub one (fvMul (h 0) (h 1))
    skipped := memWord s (k + 12), oldB1 := memWord s (k + 4), oldB2 := memWord s (k + 8) }

/-- A skip step (R198). -/
def isSkip (x : StateEntry) (clip : Nat) : Bool :=
  x.skipNonfinite && ((dec32 clip).isNan || (dec32 clip).isInf)

/-! ### Gradients -/

/-- Elements of one gradient chunk of a shard (R204). -/
def chunkSpan (x : StateEntry) : Nat := ceilDiv x.packedCount (max 1 x.chunkCount)

/-- Gradient element `i` of a shard in an epoch: from the root values formed here, or from the twin's GRAD
frames; none while it has not come (R196, R477). -/
def gradElem (s : State) (job epoch : Nat) (x : StateEntry) (i : Nat) : Option FVal :=
  let sp := max 1 (chunkSpan x)
  let c := x.chunkFirst + i / sp
  let j := i % sp
  let f := gradFmt s job x.gradOrdinal
  match (collAt s job epoch x.gradOrdinal).roots.find? (fun r => r.1 == c) with
  | some r =>
    match entryOf s job x.gradOrdinal with
    | some e =>
      let (a, b) := chunkRange e c
      some (chunkElem f (b - a) r.2 ((packedAt s job x e c).getD j j))
    | none => some (chunkElem f sp r.2 j)
  | none =>
    let f := if f = .pair then Fmt.pair else Fmt.fp32
    let w := f.bits / 8
    match s.fab.twin.grads.find? (fun g => g.job == job && g.epoch == epoch && g.ordinal == x.gradOrdinal
        && g.chunk == c && g.seq == j * w / 4096) with
    | some g => some (f.decode 0 (leVal (slice g.bytes (j * w % 4096) w)))
    | none => none

/-- gs of R196: the value times gscl, rounded once. -/
def scaledGrad (P : Prelude) (g : FVal) : FV :=
  let r := rounded enc32 (mulV g (dec32 P.gscl.1))
  (r.1, P.gscl.2 ||| r.2)

/-! ### The chain programs -/

/-- New w, m and v of one element (R199, R201). -/
def stepElem (prog : Nat) (P : Prelude) (gs w m v : FV) : FV × FV × FV :=
  match prog with
  | 0 =>
    let m' := fvAdd (fvMul P.beta1 m) gs
    (fvSub (fvMul w P.kdec) (fvMul P.lr m'), m', v)
  | 1 =>
    let m' := fvAdd (fvMul P.beta1 m) (fvMul P.omb1 gs)
    let v' := fvAdd (fvMul P.beta2 v) (fvMul P.omb2 (fvMul gs gs))
    let u := fvDiv (fvMul m' P.bc1) (fvAdd (fvSqrt (fvMul v' P.bc2)) P.eps)
    (fvSub (fvMul w P.kdec) (fvMul P.lr u), m', v')
  | _ =>
    let c := fvAdd (fvMul P.beta1 m) (fvMul P.omb1 gs)
    let w' := fvSub (fvMul w P.kdec) (fvMul P.lr (fvSign c))
    (w', fvAdd (fvMul P.beta2 m) (fvMul P.omb2 gs), v)

/-- What a work item writes: (plane, index, bits); the flags of its chain group, and those and the block passes of the
Laurel array (R93, R203). -/
structure StepOut where
  writes : List (Nat × Nat × Nat)
  flags : FpFlags
  mtx : FpFlags := 0
  passes : Nat := 0
  deriving DecidableEq, Repr, Inhabited

/-- A value of a plane in the current bank. -/
def cur (s : State) (job : Nat) (x : StateEntry) (bank : Bool) (plane i : Nat) : FV := fvVal (memWord s (planeKey s job x bank plane i))

/-- Elements of batch `b` of a shard. -/
def stepElems (x : StateEntry) (b : Nat) : List Nat :=
  ((List.range 256).map (· + 256 * b)).filter (· < x.packedCount)

/-- One batch of the chain programs 0 to 2. -/
def chainItem (s : State) (job epoch : Nat) (x : StateEntry) (bank : Bool) (P : Prelude) (b : Nat) : StepOut :=
  (stepElems x b).foldl (fun o i =>
    let gs := scaledGrad P ((gradElem s job epoch x i).getD .zero)
    let (w, m, v) := stepElem x.program P gs (cur s job x bank 0 i) (cur s job x bank 1 i) (cur s job x bank 2 i)
    { writes := o.writes ++ [(0, i, w.1), (1, i, m.1)] ++ (if x.program = 1 then [(2, i, v.1)] else [])
      flags := o.flags ||| w.2 ||| m.2 ||| v.2 }) { writes := [], flags := 0 }

/-- s of one element of the factored program (R201). -/
def factorS (s : State) (job epoch : Nat) (x : StateEntry) (P : Prelude) (i : Nat) : FV :=
  let gs := scaledGrad P ((gradElem s job epoch x i).getD .zero)
  fvAdd (fvMul gs gs) P.eps

/-- The factors of R202: row sums, column sums over the whole matrix, in the group order of R113.
(DEDUCED, assumption 46). -/
def factorItem (s : State) (job epoch : Nat) (x : StateEntry) (bank : Bool) (P : Prelude) : StepOut :=
  let sq (i j : Nat) := factorS s job epoch x P (i * x.cols + j)
  let rs := (List.range x.rows).map (fun i =>
    (2, i, fvAdd (fvMul P.beta2 (cur s job x bank 2 i)) (fvMul P.omb2 (fvSum ((List.range x.cols).map (sq i))))))
  let qs := (List.range x.cols).map (fun j =>
    (3, j, fvAdd (fvMul P.beta2 (cur s job x bank 3 j))
      (fvMul P.omb2 (fvSum ((List.range x.rows).map (fun i => sq i j))))))
  { writes := (rs ++ qs).map (fun r => (r.1, r.2.1, r.2.2.1))
    flags := (rs ++ qs).foldl (fun f r => f ||| r.2.2.2) 0 }

/-- One batch of the factored program after its factors are in the shadow bank (R201). -/
def factoredBatch (s : State) (job epoch : Nat) (x : StateEntry) (bank : Bool) (P : Prelude) (b : Nat) : StepOut :=
  let new (plane i : Nat) : FV := cur s job x (!bank) plane i
  let total := fvSum ((List.range x.rows).map (new 2))
  (stepElems x b).foldl (fun o i =>
    let gs := scaledGrad P ((gradElem s job epoch x i).getD .zero)
    let vh := fvDiv (fvMul (new 2 (i / max 1 x.cols)) (new 3 (i % max 1 x.cols))) total
    let m := fvAdd (fvMul P.beta1 (cur s job x bank 1 i)) (fvMul P.omb1 (fvDiv gs (fvSqrt vh)))
    let w := fvSub (fvMul (cur s job x bank 0 i) P.kdec) (fvMul P.lr m)
    { writes := o.writes ++ [(0, i, w.1), (1, i, m.1)], flags := o.flags ||| w.2 ||| m.2 })
    { writes := [], flags := 0 }

/-! ### The orthogonalising block program (R203) -/

/-- A matrix of FP32 values. -/
abbrev FMat := List (List Nat)

/-- A Laurel product with FP32 results, its operands rounded to BF16 immediately before it, and the flags of the
array (R79, R113, R203). -/
def matMul (a b : FMat) : FMat × FpFlags :=
  let cast (m : FMat) : List (List (FVal × FpFlags)) := m.map (·.map (fun x =>
    let r := Fmt.bf16.encode (dec32 x)
    (Fmt.bf16.decode 0 r.1, r.2)))
  let ca := cast a
  let cb := cast b
  let rs := ca.map (fun row => (List.range (b.headD []).length).map (fun j =>
    dotNative ((row.zip (cb.map (fun r => r.getD j (.zero, 0)))).map (fun p => some (p.1.1, p.2.1))) none))
  let cf := ((ca ++ cb).flatMap (·.map (·.2))).foldl (fun f x => f ||| x) 0
  (rs.map (·.map (·.1)), (rs.flatMap (·.map (·.2))).foldl (fun f x => f ||| x) cf)

/-- The transpose of a square matrix. -/
def transpose (a : FMat) : FMat :=
  (List.range (a.headD []).length).map (fun j => a.map (fun r => r.getD j 0))

/-- An elementwise operation of the chain on two matrices, and its flags. -/
def zipMat (f : FV → FV → FV) (a b : FMat) : FMat × FpFlags :=
  let rs := (a.zip b).map (fun p => (p.1.zip p.2).map (fun q => f (fvVal q.1) (fvVal q.2)))
  (rs.map (·.map (·.1)), (rs.flatMap (·.map (·.2))).foldl (fun f x => f ||| x) 0)

/-- `n` iterations on X: the result, the flags of the chain and those of the array (R203). -/
def nsIterate (P : Prelude) : Nat → FMat → FMat × FpFlags × FpFlags
  | 0, X => (X, 0, 0)
  | n + 1, X =>
    let (A, m1) := matMul X (transpose X)
    let (AA, m2) := matMul A A
    let (B, f1) := zipMat (fun a aa => fvAdd (fvMul P.nsB a) (fvMul P.nsC aa)) A AA
    let (BX, m3) := matMul B X
    let (X', f2) := zipMat (fun x bx => fvAdd (fvMul P.nsA x) bx) X BX
    let (Y, f, m) := nsIterate P n X'
    (Y, f ||| f1 ||| f2, m ||| m1 ||| m2 ||| m3)

/-- Blocks along the columns of an orthogonalising shard. -/
def blockCols (x : StateEntry) : Nat := ceilDiv x.cols (max 1 x.blockB)

/-- Block `k` of the orthogonalising program: edges are padded with +0 and discarded on write; each of its three products
an iteration runs as (b / 256)³ block passes (R116, R203). (DEDUCED, assumption 46). -/
def orthoItem (s : State) (job epoch : Nat) (x : StateEntry) (bank : Bool) (P : Prelude) (k : Nat) : StepOut :=
  let b := max 1 x.blockB
  let r0 := k / max 1 (blockCols x) * b
  let c0 := k % max 1 (blockCols x) * b
  let idx (i j : Nat) : Option Nat :=
    if r0 + i < x.rows ∧ c0 + j < x.cols then some ((r0 + i) * x.cols + c0 + j) else none
  let rng := List.range b
  let M := rng.map (fun i => rng.map (fun j => match idx i j with
    | some e => fvAdd (fvMul P.beta1 (cur s job x bank 1 e)) (scaledGrad P ((gradElem s job epoch x e).getD .zero))
    | none => fvVal 0))
  let flat := M.flatten
  let d := dotNative (flat.map (fun v => some (dec32 v.1, dec32 v.1))) none
  let nrm := fvSqrt (d.1, flat.foldl (fun f v => f ||| v.2) d.2)
  let X0 := M.map (fun r => r.map (fun m => fvDiv m (fvAdd nrm P.eps)))
  let (X, f, mtx) := nsIterate P x.iters (X0.map (·.map (·.1)))
  let f := f ||| (X0.flatMap (·.map (·.2))).foldl (fun f x => f ||| x) 0
  let outs := (rng.flatMap (fun i => rng.map (fun j => (i, j)))).filterMap (fun ij =>
    (idx ij.1 ij.2).map (fun e =>
      let xv := fvVal ((X.getD ij.1 []).getD ij.2 0)
      let m := (M.getD ij.1 []).getD ij.2 (0, 0)
      let w := fvSub (fvMul (cur s job x bank 0 e) P.kdec) (fvMul (fvMul P.lr P.scale) xv)
      (e, w, m)))
  { writes := outs.flatMap (fun o => [(0, o.1, o.2.1.1), (1, o.1, o.2.2.1)])
    flags := outs.foldl (fun f o => f ||| o.2.1.2 ||| o.2.2.2) f
    mtx := mtx, passes := 3 * x.iters * (b / 256) ^ 3 }

/-! ### Work items -/

/-- Work items of a shard's step, in order. (DEDUCED, assumption 46). -/
def itemCount (x : StateEntry) : Nat :=
  match x.program with
  | 3 => 1 + ceilDiv x.packedCount 256
  | 4 => ceilDiv x.rows (max 1 x.blockB) * blockCols x
  | _ => ceilDiv x.packedCount 256

/-- The gradient elements that item `k` reads. -/
def itemNeeds (x : StateEntry) (k : Nat) : List Nat :=
  match x.program with
  | 3 => if k = 0 then List.range x.packedCount else stepElems x (k - 1)
  | 4 =>
    let b := max 1 x.blockB
    let r0 := k / max 1 (blockCols x) * b
    let c0 := k % max 1 (blockCols x) * b
    (List.range x.packedCount).filter (fun e =>
      let i := e / max 1 x.cols
      let j := e % max 1 x.cols
      r0 ≤ i && i < r0 + b && c0 ≤ j && j < c0 + b)
  | _ => stepElems x k

/-- The writes of a skip step's item: every plane unchanged (R198). -/
def skipItem (s : State) (job : Nat) (x : StateEntry) (bank : Bool) (k : Nat) : StepOut :=
  let copy (p : Nat) (is : List Nat) : List (Nat × Nat × Nat) := is.map (fun i => (p, i, memWord s (planeKey s job x bank p i)))
  let els := itemNeeds x k
  let ws := match x.program with
    | 1 => copy 0 els ++ copy 1 els ++ copy 2 els
    | 3 => if k = 0 then copy 2 (List.range x.rows) ++ copy 3 (List.range x.cols) else copy 0 els ++ copy 1 els
    | _ => copy 0 els ++ copy 1 els
  { writes := ws, flags := 0 }

/-- What item `k` writes. (DEDUCED, assumption 46). -/
def runItem (s : State) (job epoch : Nat) (x : StateEntry) (bank : Bool) (P : Prelude) (skip : Bool) (k : Nat) : StepOut :=
  if skip then skipItem s job x bank k
  else match x.program with
    | 3 => if k = 0 then factorItem s job epoch x bank P else factoredBatch s job epoch x bank P (k - 1)
    | 4 => orthoItem s job epoch x bank P k
    | _ => chainItem s job epoch x bank P k

/-! ### Casts and digests -/

/-- The cast of w′ values into dense broadcast bytes (R204): an MX format in blocks of 32 with its scale
bytes after the elements (R343). -/
def castDense (f : Fmt) (ws : List Nat) : List Byte × FpFlags :=
  if f.isMx then
    let bs := (chunksOf 32 (ws.map dec32)).map (encodeBlock f)
    let els := bs.flatMap (fun b => b.2.1)
    (leBytes (f.bytes ws.length) (packBits f.bits els) ++ bs.map (fun b => BitVec.ofNat 8 b.1)
      , bs.foldl (fun a b => a ||| b.2.2) 0)
  else
    let es := ws.map (fun w => convertTo f (dec32 w))
    (leBytes (f.bytes ws.length) (packBits f.bits (es.map Prod.fst)), es.foldl (fun a e => a ||| e.2) 0)

/-- The cast of a masked shard's chunk: MPR tiles as wide as the mask's rows (R173, R204, R166).
(DEDUCED, assumption 47). -/
def castMasked (w : Nat) (f : Fmt) (ps ws : List Nat) : List Byte × FpFlags :=
  let es := ws.map (fun v => convertTo f (dec32 v))
  let spec : TileSpec := { w := w, layout := 3, n := 2, m := 4, bitmap := true, fmt := f }
  let tiles := (ps.map (· / w)).eraseDups
  (tiles.flatMap (fun t =>
      let here := (ps.zip (es.map Prod.fst)).filter (fun p => p.1 / w == t)
      let mask := bitsToBytes ((List.range w).map (fun i => here.any (fun p => p.1 % w == i)))
      formDense spec mask (expandRecs w (here.map (fun p => (p.1 % w, p.2)))))
    , es.foldl (fun a e => a ||| e.2) 0)

/-- The cast bytes of broadcast chunk `c` from the shadow bank (R204). (DEDUCED, assumption 46). -/
def castChunk (s : State) (job : Nat) (x : StateEntry) (bank : Bool) (c : Nat) : List Byte × FpFlags :=
  let sp := chunkSpan x
  let a := (c - x.chunkFirst) * sp
  let b := min x.packedCount (a + sp)
  let ws := (List.range (b - a)).map (fun i => memWord s (planeKey s job x bank 0 (a + i)))
  let f := (Fmt.ofCode x.bcastFmt).getD .fp32
  match x.mask with
  | some h => castMasked (maskWidth s job h) f (slice (maskPositions s job h x.paramCount) a (b - a)) ws
  | none => castDense f ws

/-- Chunks of a shard whose elements all lie in items done. -/
def chunksDone (x : StateEntry) (pos : Nat) : List Nat :=
  let sp := max 1 (chunkSpan x)
  let last := itemCount x ≤ pos
  let elems := if last then x.packedCount
    else match x.program with
      | 4 => 0
      | 3 => 256 * (pos - 1)
      | _ => 256 * pos
  ((List.range x.chunkCount).filter (fun k => last || (k + 1) * sp ≤ elems)).map (· + x.chunkFirst)

/-- CRC-64 of the FP32 w′ of each master page, in page order (R205). (DEDUCED, assumption 47). -/
def pageDigests (s : State) (job : Nat) (x : StateEntry) (bank : Bool) : List Nat :=
  (List.range (ceilDiv x.packedCount 524288)).map (fun p =>
    let n := min 524288 (x.packedCount - p * 524288)
    crc64 (s.comp.mem.getBytes (planeKey s job x bank 0 (p * 524288)) (4 * n)))

/-! ### The gradient hold area (R200) -/

/-- Shards of a job that a collective's chunk feeds, each with its entry. -/
def fedBy (s : State) (job ord chunk : Nat) : List StateEntry :=
  match topOf s job with
  | some t => t.states.filter (fun x => x.gradOrdinal == ord && x.chunkFirst ≤ chunk && chunk < x.chunkFirst + x.chunkCount)
  | none => []

/-- Bytes that the hold area of a job on a die holds: the sums of epochs after the one whose step is the shard's next
(R68, R200). (DESIGN CHOICE, assumption 51). -/
def holdUsed (s : State) (job die : Nat) : Nat :=
  ((s.coll.colls.filter (fun c => c.job == job)).map (fun c => (c.roots.map (fun r =>
    if (fedBy s job c.ordinal r.1).any (fun x => x.die == die && nextEpoch (shardAt s job x.shard) < c.epoch) then r.2.length
    else 0)).sum)).sum

/-- Whether the sum of a chunk of `n` bytes would overflow the hold area: it is not formed, and its inputs stay staged,
until a flip frees space (R200). (DESIGN CHOICE, assumption 51). -/
def holdFull (s : State) (job epoch ord chunk n : Nat) : Bool :=
  let id := match topOf s job with | some t => t.topiaryId | none => 0
  (fedBy s job ord chunk).any (fun x => nextEpoch (shardAt s job x.shard) < epoch
    && Config.holdArea id job x.die < holdUsed s job x.die + n)

/-! ### Broadcast -/

/-- The broadcast ordinal of a shard now: a primary shard's own (R63), or, while the twin is SOLO, the one
that the last FLIP report named for a replica (R481). (DEDUCED, assumption 47). -/
def bcastOf (s : State) (job : Nat) (x : StateEntry) : Option Nat :=
  if x.rep then
    if s.fab.twin.st == .solo then (shardAt s job x.shard).report.map (·.2) else none
  else if x.bcastV && s.fab.twin.st != .detached || x.bcastV && !s.fab.twin.present then some x.bcastOrdinal
  else none

/-- Emit the cast chunks of a job's shards whose broadcast ordinal is eligible and that have not left yet
(R61, R150). (DEDUCED, assumption 46). -/
def emitCasts (s : State) (job : Nat) : State :=
  (shardsOf s job).foldl (fun s h =>
    match stateOf s job h.id with
    | none => s
    | some x =>
      match bcastOf s job x with
      | none => s
      | some ord =>
        match entryOf s job ord with
        | none => s
        | some e =>
          let epoch := match h.step, h.stepped with
            | some st, _ => st.epoch
            | none, some ep => ep
            | none, none => 0
          h.casts.foldl (fun s cb =>
            let c := collAt s job epoch ord
            if !c.eligible || c.aborted || c.formed.contains cb.1
                || !engineFree s (entryDie e) (engineOf e cb.1) job then s
            else
              match (outKeys e).foldl (fun r k => match r with
                  | .ok s => emitOutput s job epoch e k.1 k.2 cb.1 cb.2 (engineOf e cb.1) false false (some h.id)
                  | m => m) (Made.ok s) with
              | .ok s => setColl s job epoch ord (fun c => { c with formed := c.formed ++ [cb.1] })
              | m => settleMade s (entryDie e) (engineOf e cb.1) job m) s) s

/-! ### The step -/

/-- Whether the digest that the twin's HELLO shows for a job is the one its Topiary expects (R185, R478). -/
def helloAgrees (s : State) (job : Nat) : Bool :=
  match topOf s job with
  | some t => t.states.isEmpty || slice s.fab.twin.peerHello (256 + 64 * job) 64 == t.stateDigest
  | none => true

/-- Epoch `e` is a vote epoch of a job (R449). -/
def isVoteEpoch (s : State) (job e : Nat) : Bool :=
  match topOf s job with
  | some t => (e + 1) % max 1 t.voteK == 0
  | none => false

/-- The start rule of R188, with the hold of R478. -/
def mayStep (s : State) (job id : Nat) : Bool :=
  let h := shardAt s job id
  let j := jobAt s job
  s.coll.shards.any (fun x => x.job == job && x.id == id) && h.step.isNone && h.stepped != some (nextEpoch h)
  && s.mgt.st == .run && !j.voteHold && !s.integ.expelled
  && (match h.flipped with
      | some e => !(isVoteEpoch s job e && s.fab.twin.st == .paired) || j.closed.contains e
      | none => true)
  && !h.reads.any (fun r => h.shadow == some r.2.1)
  && (s.fab.twin.st != .paired || helloAgrees s job)

/-- CLIP: what the job's optimizer program has placed in a scalar register of the queue whose group runs the step; 0
where no queue has (R193, R244). The register is the step's operand. (DEDUCED, assumption 22). -/
def clipOf (s : State) (job die reg : Nat) : Nat := match shardQueue s job die with | some Q => (sreg Q reg).toNat | none => 0

/-- OPTIMIZER_STEP_START (R188): the step of the next epoch begins, with the CLIP that the job's program has
placed in scalar register `reg` (R193). -/
def doOptimizerStepStart (job id reg : Nat) (s : State) : State :=
  match stateOf s job id with
  | none => s
  | some x =>
    if mayStep s job id then
      let clip := clipOf s job x.die reg
      setShard s job id (fun h =>
        { h with step := some { epoch := nextEpoch h, clip := clip, skip := isSkip x clip }, casts := [], pageCrcs := [] })
    else s

/-- The successor record of a step (R192, R198, R199). -/
def putRecord (s : State) (job : Nat) (x : StateEntry) (bank skip : Bool) (P : Prelude) (epoch : Nat) : State :=
  let k := recordKey s job x (!bank)
  let s := putWord s k (if skip then (P.t + 2 ^ 32 - 1) % 2 ^ 32 else P.t)
  let s := putWord s (k + 4) (if skip then P.oldB1 else P.b1t.1)
  let s := putWord s (k + 8) (if skip then P.oldB2 else P.b2t.1)
  let s := putWord s (k + 12) (if skip then (P.skipped + 1) % 2 ^ 32 else P.skipped)
  putWord s (k + 16) (epoch % 2 ^ 32)

/-- Whether an item of a step may run: its gradients have come, and no checkpoint read of the shadow bank that it would
overwrite is open (R188, R191, R196). -/
def itemReady (s : State) (job id : Nat) : Bool :=
  match stateOf s job id, (shardAt s job id).step with
  | some x, some st =>
    st.pos < itemCount x && (itemNeeds x st.pos).all (fun i => (gradElem s job st.epoch x i).isSome)
    && !(shardAt s job id).reads.any (fun r => (shardAt s job id).shadow == some r.2.1)
  | _, _ => false

/-- Whether the job is pre-empted on the group that runs its shards' steps: the chain stops at a restart point (R70,
R207). (DEDUCED, assumption 22). -/
def shardStopped (s : State) (job die : Nat) : Bool := (shardQueue s job die).any (fun Q => Q.st == .preempted)

/-- What the current item of a step comes to. -/
def itemOut (s : State) (job : Nat) (x : StateEntry) (st : ShardStep) : StepOut :=
  let h := shardAt s job x.shard
  runItem s job st.epoch x h.cur (prelude s job x h.cur st.clip) st.skip st.pos

/-- The writes of an item in the shadow bank. -/
def putItem (s : State) (job : Nat) (x : StateEntry) (o : StepOut) : State :=
  o.writes.foldl (fun s w => putWord s (planeKey s job x (!(shardAt s job x.shard).cur) w.1 w.2.1) w.2.2) s

/-- The casts of the chunks that the item at `pos` completes, from the memory that holds its writes (R204). -/
def freshCasts (s : State) (job : Nat) (x : StateEntry) (pos : Nat) : List (Nat × List Byte × FpFlags) :=
  let h := shardAt s job x.shard
  ((chunksDone x (pos + 1)).filter (fun c => !h.casts.any (fun k => k.1 == c))).map (fun c => (c, castChunk s job x (!h.cur) c))

/-- One execution of the current item on group `g`: its flags and its casts' in the group's register, with those of the
prelude before the first item, and the flags and passes of the array (R93, R96, R197, R203). -/
def noteItem (s : State) (job id g : Nat) : State :=
  match stateOf s job id, (shardAt s job id).step with
  | some x, some st =>
    let o := itemOut s job x st
    let pre := if st.pos = 0 then (prelude s job x (shardAt s job id).cur st.clip).flags else 0
    let f := (freshCasts (putItem s job x o) job x st.pos).foldl (fun f m => f ||| m.2.2) (o.flags ||| pre)
    let s := flagVec s x.die g f job
    if o.passes = 0 then s
    else
      let s := countPass (flagMtx s x.die o.mtx job) x.die o.passes
      (List.range o.passes).foldl (fun s _ => countTile s 2 x.die) s
  | _, _ => s

/-- One item of a shard's step (R195 to R205): the writes go to the shadow bank, the casts of completed
chunks are formed, and the last item writes the record and the page digests. -/
def stepItem (s : State) (job id : Nat) : State :=
  match stateOf s job id, (shardAt s job id).step with
  | some x, some st =>
    if !itemReady s job id then s
    else
      let h := shardAt s job id
      let P := prelude s job x h.cur st.clip
      let s := putItem s job x (itemOut s job x st)
      let made := freshCasts s job x st.pos
      let done := itemCount x ≤ st.pos + 1
      let s := if done then putRecord s job x h.cur st.skip P st.epoch else s
      let pages := if done then pageDigests s job x (!h.cur) else []
      setShard s job id (fun h =>
        { h with shadow := none, rollbackOk := false, casts := h.casts ++ made.map (fun m => (m.1, m.2.1))
                 pageCrcs := pages
                 step := if done then none else some { st with pos := st.pos + 1, wrote := true }
                 stepped := if done then some st.epoch else h.stepped
                 skipNext := if done then st.skip else h.skipNext })
  | _, _ => s

/-! ### Flips -/

/-- Every broadcast chunk of a shard is committed in an epoch (R63). (DEDUCED, assumption 50). -/
def bcastCommitted (s : State) (job epoch : Nat) (x : StateEntry) (ord : Nat) : Bool :=
  let c := collAt s job epoch ord
  !c.aborted && (c.completed || ((List.range x.chunkCount).map (· + x.chunkFirst)).all (fun k =>
    c.formed.contains k && (c.outputs.filter (fun o => o.chunk == k)).all outDone))

/-- Whether a shard may flip (R63, R477, R481). -/
def mayFlip (s : State) (job : Nat) (x : StateEntry) : Bool :=
  let h := shardAt s job x.shard
  match h.stepped with
  | none => false
  | some e =>
    e == nextEpoch h && h.step.isNone &&
    (if x.rep || s.fab.twin.st == .syncing then
      s.fab.twin.st == .solo || h.listed.contains e
    else !x.bcastV || bcastCommitted s job e x x.bcastOrdinal)

/-- The newest epoch for which every shard of a list has flipped, as a count of epochs (R206). -/
def flippedCount (hs : List Shard) : Nat :=
  match hs.map nextEpoch with
  | [] => 0
  | n :: ns => ns.foldl min n

/-- The FLIP frame that reports one primary shard's flip; PART counts the job's flips of the epoch (R476,
R477). (DEDUCED, assumption 45). -/
def sendFlip (s : State) (job epoch : Nat) (x : StateEntry) : State :=
  let part := ((shardsOf s job).filter (fun h =>
    h.flipped == some epoch && [false, true].any (fun r =>
      mirrors s job r && (regionShards s job r).any (fun y => y.shard == h.id)))).length - 1
  let pl := leBytes 8 epoch ++ leBytes 2 1 ++ leBytes 2 part ++ leBytes 4 0
    ++ leBytes 2 x.shard ++ leBytes 2 0 ++ leBytes 4 x.bcastOrdinal
  sendTwin s (twinFrame 1 0 0x180 job epoch 0 0 part (padTo 256 pl))

/-- Vote digests of a job's epoch (R449): page CRCs and sorted chunk digests, of each region.
(DEDUCED, assumption 47). -/
def voteDigests (s : State) (job : Nat) : List (List Byte) :=
  let region (rep : Bool) : List Shard :=
    let xs := regionShards s job rep
    let key (x : StateEntry) : Nat := if rep then x.twinShard else x.shard
    (xs.mergeSort (fun a b => key a ≤ key b)).map (fun x => shardAt s job x.shard)
  let m (rep : Bool) := (region rep).flatMap (fun h => h.pageCrcs.flatMap (leBytes 8))
  let k (rep : Bool) := (((region rep).flatMap (fun h => h.casts.map (fun c => crc64 (padFrames c.2)))).mergeSort
    (fun a b => a ≤ b)).flatMap (leBytes 8)
  [m false, m true, k false, k true].map (fun bs => leBytes 64 (Config.sha512 bs).toNat)

/-- Once every shard of a job has flipped for a vote epoch while PAIRED, the digests go to the twin and the
next step waits (R188, R449). -/
def formVote (s : State) (job epoch : Nat) : State :=
  if s.fab.twin.st == .paired && isVoteEpoch s job epoch && epoch < flippedCount (shardsOf s job)
      && !((jobAt s job).formed.any (fun f => f.1 == epoch)) then
    let ds := voteDigests s job
    let s := setJob s job (fun j => { j with formed := j.formed ++ [(epoch, ds)], voteHold := true })
    let pl := leBytes 8 epoch ++ leBytes 1 0 ++ List.replicate 55 0 ++ ds.flatten
    sendTwin s (twinFrame 2 0 0x180 job epoch 0 0 0 (padTo 512 pl))
  else s

/-- SHARD_FLIP (R63, R187): CUR toggles in one update and the other bank keeps the epoch before. -/
def doShardFlip (job id : Nat) (s : State) : State :=
  match stateOf s job id with
  | none => s
  | some x =>
    if mayFlip s job x then
      let e := nextEpoch (shardAt s job id)
      let s := setShard s job id (fun h =>
        { h with cur := !h.cur, shadow := h.flipped, rollbackOk := true, flipped := some e
                 listed := h.listed.filter (e < ·)
                 skippedPrev := h.skippedLast, skippedLast := h.skipNext })
      let s := if mirrors s job x.rep then sendFlip s job e x else s
      formVote s job e
    else s

/-! ### Rollback and OPT_STATE -/

/-- ROLLBACK_EPOCH of `e` would find a shard that a later step has written (R189). -/
def rollbackRefused (s : State) (job e : Nat) : Bool :=
  (shardsOf s job).any (fun h => e < nextEpoch h &&
    (e + 1 < nextEpoch h || !h.rollbackOk || (match h.step with | some st => st.wrote | none => false)))

/-- The action of R189 on every shard of a job: what was written for `e` and later epochs goes (R69); the step of an
epoch before `e` stays. -/
def rollbackShards (s : State) (job e : Nat) : State :=
  { s with coll := { s.coll with shards := s.coll.shards.map (fun h =>
      if h.job != job then h
      else if e < nextEpoch h then
        { h with cur := !h.cur, flipped := if e = 0 then none else some (e - 1), shadow := none
                 rollbackOk := false, skippedLast := h.skippedPrev, listed := h.listed.filter (· < e)
                 step := none, stepped := none, casts := [], pageCrcs := [] }
      else if (match h.step with | some st => e ≤ st.epoch | none => false)
          || (match h.stepped with | some x => e ≤ x | none => false) then
        { h with step := none, stepped := none, casts := [], pageCrcs := [], listed := h.listed.filter (· < e) }
      else { h with listed := h.listed.filter (· < e) }) } }

/-- MMU.OPT_STATE[j] of a die (R206). -/
def optState (s : State) (die job : Nat) : Nat :=
  match topOf s job with
  | none => 0
  | some t =>
    if t.states.isEmpty then 0
    else
      let xs := t.states.filter (fun x => x.die == die)
      let hs := xs.map (fun x => shardAt s job x.shard)
      let n := flippedCount hs
      let b (c : Bool) (i : Nat) : Nat := if c then 2 ^ i else 0
      ((n + 2 ^ 32 - 1) % 2 ^ 32) <<< 32 + (hs.filter (fun h => nextEpoch h ≤ n)).length <<< 19
        + b (n != 0 && hs.any (fun h => h.flipped == some (n - 1) && h.skippedLast)) 7
        + b (hs.any (fun h => h.reads.any (fun r => h.shadow == some r.2.1))) 6
        + b (jobAt s job).voteHold 5
        + b (n != 0 && hs.all (fun h => nextEpoch h == n && h.rollbackOk)) 4
        + b (xs.any (·.rep)) 3 + b (xs.any (fun x => !x.rep)) 2 + 1

end Sys2Proof.Machine
end

