-- ==== Sys2Proof/Machine/Twin.lean ====
section
/-! DEFINITION. The twin: HELLO and pairing (R478), loss and SOLO (R479 to R481), GRAD and FLIP frames
(R477), resync (R482), the epoch boundary (R65) and the weight vote (R449 to R451). -/

namespace Sys2Proof.Machine

/-- The state code of R474. -/
def TwinSt.code : TwinSt → Nat
  | .detached => 0 | .syncing => 1 | .paired => 2 | .solo => 3

/-- The first state entry of a job that satisfies a condition. -/
def stateWhere (s : State) (job : Nat) (p : StateEntry → Bool) : Option StateEntry :=
  (topOf s job).bind (fun t => t.states.find? p)

/-- TWN.STATUS (R483). -/
def twinStatus (s : State) : Nat :=
  let t := s.fab.twin
  let b (c : Bool) (i : Nat) : Nat := if c then 2 ^ i else 0
  (t.role % 2) <<< 63 + (t.strap % 4) <<< 61 + t.st.code <<< 59 + b (portUp s t.port) 58 + b t.intact 57
    + (t.peerIndex % 512) <<< 48 + (t.lastLoss % 8) <<< 45 + (t.peerCause % 256) <<< 37

/-- A twin-state change writes an event-ring entry and sets TWIN (R480). -/
def changeTwin (s : State) (st : TwinSt) : State :=
  let s := setTwin s (fun t => { t with st := st })
  setAttn (ringLog s 3 0x06 [twinStatus s]) aTwin

/-- FLIPPED of a job in a HELLO (R476): the newest epoch for which every shard has flipped. -/
def helloFlipped (s : State) (job : Nat) : Nat :=
  match topOf s job with
  | some t => if t.states.isEmpty then 0 else (flippedCount (shardsOf s job) + 2 ^ 64 - 1) % 2 ^ 64
  | none => 0

/-- SHA-512 of a job's STATE section (R185). -/
def ownDigest (s : State) (job : Nat) : List Byte :=
  match topOf s job with
  | some t => if t.stateBytes.isEmpty then List.replicate 64 0 else leBytes 64 (Config.sha512 t.stateBytes).toNat
  | none => List.replicate 64 0

/-- A job whose STATE section is loaded. -/
def hasState (s : State) (job : Nat) : Bool :=
  match topOf s job with
  | some t => !t.states.isEmpty
  | none => false

/-- The payload of a HELLO (R476). -/
def helloBytes (s : State) : List Byte :=
  let t := s.fab.twin
  let loaded := (List.range 16).foldl (fun m j => if hasState s j then m + 2 ^ j else m) 0
  let head := leBytes 2 s.fab.moduleIndex ++ leBytes 1 t.role ++ leBytes 1 t.st.code ++ leBytes 4 s.fab.domain
    ++ leBytes 2 loaded ++ leBytes 1 (if t.intact then 1 else 0)
  padTo 256 (padTo 16 head ++ (List.range 16).flatMap (fun j => leBytes 8 (helloFlipped s j)))
    ++ (List.range 16).flatMap (ownDigest s)

/-- Send a HELLO. -/
def sendHello (s : State) : State :=
  let pl := helloBytes s
  let s := sendTwin s (twinFrame 3 0 0x180 0 0 0 0 0 pl)
  setTwin s (fun t => { t with helloAt := s.now, helloLast := pl })

/-- HELLO_SEND (R478): on a change of its content, or after 100 µs, while the twin port is up. -/
def doHelloSend (s : State) : State :=
  let t := s.fab.twin
  if t.present && portUp s t.port && (helloBytes s != t.helloLast || t.helloAt + 100000 ≤ s.now) then sendHello s
  else s

/-! ### Leaving -/

/-- Abort with a cause every ordinal of the window whose entry holds an INPUT record and that has begun
(R456, R480). -/
def abortInputs (s : State) (cause : Res) : State :=
  s.coll.colls.foldl (fun s c =>
    match entryOf s c.job c.ordinal with
    | some e => if !e.inputs.isEmpty && !c.completed && !c.aborted && (c.eligible || !c.inputs.isEmpty) then
        abortHere s c.job c.epoch c.ordinal cause else s
    | none => s) s

/-- No vote runs outside PAIRED: one that runs is abandoned, and VOTE_HOLD stays 0 (R449, R461). -/
def clearHolds (s : State) : State :=
  { s with coll := { s.coll with jobs := s.coll.jobs.map (fun j => { j with
      voteHold := false
      closed := j.closed ++ (j.formed.map (·.1)).filter (fun e => !j.closed.contains e) }) } }

/-- Checkpoint reads that a resync opened are closed (R482). -/
def closeResync (s : State) : State :=
  { s with coll := { s.coll with shards := s.coll.shards.map (fun h =>
      { h with reads := h.reads.filter (·.1 != 8) }) } }

/-- The partner of a resync ends it: its reads close, and it stays SOLO (R482). -/
def endServing (s : State) : State :=
  if s.fab.twin.serving.isEmpty then s else closeResync (setTwin s (fun t => { t with serving := [], synced := [] }))

/-- PAIRED to DETACHED (R480): ordinals with inputs abort, and VEC, MTX and DMA queues halt, with
UNIT_ABSENT. -/
def toDetached (s : State) : State :=
  let was := s.fab.twin.st
  let s := changeTwin (setTwin s (fun t => { t with serving := [], synced := [], flips := [], gradsOut := [] })) .detached
  if was = .paired then
    let s := abortInputs s .unitAbsent
    let s := (List.range 64).foldl (fun s q =>
      let Q := queueAt s q
      if Q.bound && Q.qtype != .coll then haltQueue s q .unitAbsent 0 else s) s
    clearHolds s
  else s

/-- Send LEAVE with a cause (R479). A PAIRED or SYNCING module enters DETACHED; a SOLO one does so on a host's DETACH
alone, and otherwise stays SOLO and ends a resync that it serves (R480, R482, R484). -/
def leaveTwin (s : State) (cause : Nat) : State :=
  if s.fab.twin.st = .detached then s
  else
    let s := sendTwin s (twinFrame 4 0 0x180 0 0 0 0 0 (padTo 256 (leBytes 1 cause)))
    if s.fab.twin.st = .solo ∧ cause ≠ 5 then endServing s
    else toDetached (endServing (setTwin s (fun t => { t with lastLoss := 3, intact := false })))

/-- The module enters SOLO (R481): replica shards whose gradient is complete go on without the twin; the
GRAD_ORDINAL of the others aborts for the oldest open epoch. -/
def toSolo (s : State) : State :=
  let s := changeTwin (setTwin s (fun t => { t with gradsOut := [] })) .solo
  let s := clearHolds s
  s.tops.foldl (fun (s : State) (t : Topiary) =>
    let epoch := (jobAt s t.job).oldest
    (t.states.filter (·.rep)).foldl (fun s x =>
      let full := (List.range x.packedCount).all (fun i => (gradElem s t.job epoch x i).isSome)
      let h := shardAt s t.job x.shard
      if h.flipped == some epoch || full then
        match h.report with
        | some (_, o) => if (entryOf s t.job o).isSome then s else setAttn s aTwin
        | none => setAttn s aTwin
      else abortHere s t.job epoch x.gradOrdinal .unitAbsent) s) s

/-! ### Pairing -/

/-- The conditions of R478 on the HELLO just received; a DEGRADED module does not pair (R576). -/
def pairOk (s : State) : Bool :=
  let t := s.fab.twin
  let g (off n : Nat) : Nat := leVal (slice t.peerHello off n)
  !forwardOnly s && t.present && g 2 1 != t.role && g 0 2 == t.peerIndex && g 4 4 == s.fab.domain
  && t.st != .solo && g 3 1 != 3
  && (List.range 16).all (fun j =>
    let theirs := natBit (g 8 2) j
    if hasState s j || theirs then
      hasState s j && theirs && helloAgrees s j && g (16 + 8 * j) 8 == helloFlipped s j
    else true)

/-- A HELLO (R185, R476, R478). -/
def recvHello (s : State) (u : LinkUnit) : State :=
  let s := setTwin s (fun t => { t with peerHello := u.payload })
  let differs := (List.range 16).any (fun j => hasState s j && natBit (leVal (slice u.payload 8 2)) j && !helloAgrees s j)
  let s := if differs then setAttn s aTwin else s
  if s.fab.twin.st = .detached && pairOk s then
    changeTwin (setTwin s (fun t => { t with intact := false, lastLoss := t.lastLoss })) .paired
  else s

/-- A LEAVE (R479): a PAIRED module enters SOLO, a SYNCING one DETACHED; a partner that serves a resync
stays SOLO. -/
def recvLeave (s : State) (u : LinkUnit) : State :=
  let s := setTwin s (fun t => { t with lastLoss := 1, peerCause := leVal (u.payload.take 1) })
  match s.fab.twin.st with
  | .paired => toSolo s
  | .syncing => toDetached s
  | .solo => endServing s
  | .detached => s

/-- TWIN_SILENCE_TIMEOUT (R479, R482): nothing accepted from the twin port for 1 ms. -/
def doTwinSilenceTimeout (s : State) : State :=
  let t := s.fab.twin
  if s.now < t.heardAt + 1000000 then s
  else
    match t.st with
    | .paired =>
      let s := setTwin s (fun t => { t with lastLoss := 2 })
      if t.role = 0 then toSolo s else toDetached (setTwin s (fun t => { t with intact := true }))
    | .syncing => toDetached (setTwin s (fun t => { t with lastLoss := 2 }))
    | .solo => endServing s
    | .detached => s

/-- TWN.CTRL.DETACH (R484). -/
def ctrlDetach (s : State) : Option State :=
  if s.fab.twin.st = .paired ∨ s.fab.twin.st = .solo then some (leaveTwin s 5) else none

/-- TWN.CTRL.FORCE_SOLO (R480, R484). -/
def ctrlForceSolo (s : State) : Option State :=
  let t := s.fab.twin
  if t.st = .detached && t.intact && !portUp s t.port then some (toSolo s) else none

/-! ### GRAD and FLIP -/

/-- A GRAD frame (R475, R477): a die without the shard discards it; a repeat is discarded. -/
def recvGrad (s : State) (l die : Nat) (u : LinkUnit) : State :=
  match epochOf s u.job u.epoch with
  | none => s
  | some ep =>
    let both := s.fab.twin.st == .syncing
    match stateWhere s u.job (fun x => (x.rep || both) && x.die == die && x.gradOrdinal == u.ordinal
          && x.chunkFirst ≤ u.chunk && u.chunk < x.chunkFirst + x.chunkCount) with
    | none => cntLane s l 9 1
    | some _ =>
      if s.fab.twin.grads.any (fun g => g.job == u.job && g.epoch == ep && g.ordinal == u.ordinal
          && g.chunk == u.chunk && g.seq == u.flowSeq) then s
      else setTwin s (fun t => { t with grads := t.grads ++
        [{ job := u.job, epoch := ep, ordinal := u.ordinal, chunk := u.chunk, seq := u.flowSeq, bytes := u.payload }] })

/-- A FLIP frame (R476, R477): each listing names the twin's primary shard and its broadcast ordinal.
(DEDUCED, assumption 45). -/
def recvFlip (s : State) (u : LinkUnit) : State :=
  let ep := leVal (u.payload.take 8)
  let n := leVal (slice u.payload 8 2)
  (List.range n).foldl (fun s i =>
    let id := leVal (slice u.payload (16 + 8 * i) 2)
    let ord := leVal (slice u.payload (20 + 8 * i) 4)
    match stateWhere s u.job (fun x => x.twinShard == id && (x.rep || s.fab.twin.st == .syncing)) with
    | some x => setShard s u.job x.shard (fun h =>
        { h with report := some (ep, ord), listed := if h.listed.contains ep then h.listed else h.listed ++ [ep] })
    | none => s) s

/-! ### Votes -/

/-- The record of the twin's digests of a job's epoch. -/
def peerVote (s : State) (job epoch kind : Nat) : Option (List Byte) :=
  (s.fab.twin.peerVotes.find? (fun v => v.job == job && v.epoch == epoch && v.kind == kind)).map (·.bytes)

/-- The endorsed digest E at this holder (R450): the value that more than half of its replicating leaves
sent; its leaves are those that its broadcast outputs name. (DEDUCED, assumption 27). -/
def endorsedOf (s : State) (job epoch : Nat) : Option (List Byte) :=
  let es := (jobAt s job).endorsed.filter (fun x => x.1 == epoch)
  let leaves := (s.coll.colls.filter (fun c => c.job == job && c.epoch == epoch)).flatMap (fun c =>
    c.outputs.flatMap (fun o => if o.shard.isSome then o.consumers.map (·.route) else []))
  let n := leaves.eraseDups.length
  (es.find? (fun x => n < 2 * (es.filter (fun y => y.2.2 == x.2.2)).length)).map (fun x => x.2.2)

/-- The outcome of one direction of R451. -/
inductive VoteDir where
  | pass | oddH | oddR | undecided
  deriving DecidableEq, Repr

/-- The table "Vote outcomes" for one direction. (DEDUCED, assumption 27). -/
def voteDir (mH mR kH kR : List Byte) (E : Option (List Byte)) : VoteDir :=
  if mH = mR then .pass
  else match E with
    | none => .undecided
    | some e =>
      if kH = e ∧ kR ≠ e then .oddR else if kH ≠ e ∧ kR = e then .oddH else .undecided

/-- The module is expelled (R451). -/
def expelSelf (s : State) (job : Nat) : State :=
  let s := logError s 6 5 0 0 0 job 0 0 0
  let s := setAttn { s with integ := { s.integ with expelled := true } } (aTwin ||| aInteg)
  leaveTwin s 4

/-- Whether every broadcast of an epoch in which the module takes part has ended here, so that the latest broadcast ACK is
the epoch's last (R64, R450, R451). -/
def bcastsOver (s : State) (job epoch : Nat) : Bool :=
  match topOf s job with
  | some t => t.colls.all (fun e => e.kind != 4 || e.express || collDone s job epoch e.ordinal || (collAt s job epoch e.ordinal).aborted)
  | none => true

/-- VOTE_CLOSE (R451, R460). The direction in which this module is the replica holder has no endorsed digest
here, since leaves endorse to the holder alone (assumption 27). (DEDUCED, assumption 27). -/
def doVoteClose (job epoch : Nat) (s : State) : State :=
  let J := jobAt s job
  let W := match topOf s job with | some t => t.voteWindowUs | none => 100
  match J.formed.find? (fun f => f.1 == epoch) with
  | none => s
  | some (_, own) =>
    let peer := (peerVote s job epoch 0).getD []
    let o (i : Nat) := own.getD i []
    let p (i : Nat) := slice peer (64 * i) 64
    let E := endorsedOf s job epoch
    let due := bcastsOver s job epoch && (lookupD J.commitAt epoch 0) + 1000 * (W + 50) ≤ s.now
    let agree := o 0 == p 1 && p 0 == o 1
    if J.closed.contains epoch || s.fab.twin.st != .paired || !(agree || due || (!peer.isEmpty && E.isSome)) then s
    else
      let d1 := voteDir (o 0) (p 1) (o 2) (p 3) E
      let d2 := voteDir (p 0) (o 1) (p 2) (o 3) none
      let selfOdd := d1 = .oddH || d2 = .oddR
      let twinOdd := d1 = .oddR || d2 = .oddH
      if d1 = .pass ∧ d2 = .pass then
        icnt (setJob s job (fun j => { j with voteHold := false, closed := j.closed ++ [epoch] })) 12 1
      else if selfOdd && !twinOdd then
        expelSelf (setJob s job (fun j => { j with closed := j.closed ++ [epoch] })) job
      else if twinOdd && !selfOdd then
        toSolo (setJob s job (fun j => { j with voteHold := false, closed := j.closed ++ [epoch] }))
      else
        let s := icnt (setJob s job (fun j => { j with closed := j.closed ++ [epoch] })) 13 1
        setAttn (setInteg s (fun i => { i with undecided := true })) aInteg

/-- CHUNK_CRCs of the broadcasts of an epoch, sorted ascending, each as 8 bytes little-endian (R450). -/
def crcList (xs : List Nat) : List Byte := (xs.mergeSort (fun a b => a ≤ b)).flatMap (leBytes 8)

/-- Broadcast ordinals' records of an epoch: entries of kind BROADCAST outside express (R124). -/
def bcastColls (s : State) (job epoch : Nat) : List (CollEntry × Coll) :=
  (s.coll.colls.filter (fun c => c.job == job && c.epoch == epoch)).filterMap (fun c =>
    match entryOf s job c.ordinal with
    | some e => if e.kind = 4 && !e.express then some (e, c) else none
    | none => none)

/-- The ranks whose endpoints a leaf serves in a job's broadcasts. (DEDUCED, assumption 50). -/
def servedRanks (s : State) (job : Nat) : List Nat :=
  match topOf s job with
  | some t => ((t.colls.filter (fun e => e.kind = 4 && !e.express)).flatMap (fun e => e.members.map (·.1))).eraseDups
  | none => []

/-- The digest that a leaf expects of a rank's vote: over the DIGESTs that it sent on the lane `l` and that
were ACKed (R450). -/
def expectedVote (s : State) (job epoch l : Nat) : List Byte :=
  let crcs := (bcastColls s job epoch).flatMap (fun ec => ec.2.outputs.filterMap (fun o =>
    if o.consumers.any (fun k => routeHop k.route 0 == l && k.acked) then some (crc64 o.bytes) else none))
  leBytes 64 (Config.sha512 (crcList crcs)).toNat

/-- The leaf endorses (R450): one VOTE frame to each holder whose chunks it replicated, over that holder's
chunk CRCs as received. -/
def endorse (s : State) (job epoch : Nat) : State :=
  let got := (bcastColls s job epoch).flatMap (fun ec => ec.2.inputs.filterMap (fun i =>
    match i.digest with
    | some d => if i.acked then some (d.retRoute, i.ackCrc) else none
    | none => none))
  let lo := (servedRanks s job).foldl min 0x7FFF
  let s := (got.map (·.1)).eraseDups.foldl (fun s r =>
    let crcs := (got.filter (fun g => g.1 == r)).map (·.2)
    let pl := leBytes 8 epoch ++ leBytes 64 (Config.sha512 (crcList crcs)).toNat
    originate s { controlFrame 11 job epoch 0 0 lo pl with route := r }) s
  setJob s job (fun j => { j with endorsedSent := j.endorsedSent ++ [epoch] })

/-- Count a missing or differing VOTE against a rank (R450). -/
def voteMissed (s : State) (job rank : Nat) : State :=
  setJob s job (fun j => { j with voteMiss := insertKey j.voteMiss rank (satAdd (lookupD j.voteMiss rank 0) 1) })

/-- Whether a full epoch number lies past a job's window (R66). -/
def pastWindow (s : State) (job epoch : Nat) : Bool :=
  match topOf s job with
  | some t => (jobAt s job).oldest + t.epochLimit ≤ epoch
  | none => true

/-- A VOTE frame (R450), from an endpoint on lane `l`, or from an endorsing leaf. Its payload gives the epoch in full
(R344), which the window bounds above (R66): a vote follows the last ACK of its epoch, and so may follow the boundary.
(DEDUCED, assumption 27). -/
def recvVote (s : State) (l : Nat) (u : LinkUnit) : State :=
  let epoch := leVal (u.payload.take 8)
  let dg := slice u.payload 8 64
  if pastWindow s u.job epoch then windowError s u.job u.rank
  else if natBit (laneAt s l).idleWord 59 then
    let J := jobAt s u.job
    if J.windowEnded.contains epoch || J.votes.any (fun v => v.1 == epoch && v.2.1 == u.rank) then s
    else
      let ok := dg == expectedVote s u.job epoch l
      let s := if ok then s else voteMissed s u.job u.rank
      let s := setJob s u.job (fun j => { j with votes := j.votes ++ [(epoch, u.rank, ok)] })
      let n := ((jobAt s u.job).votes.filter (fun v => v.1 == epoch && v.2.2)).length
      if (servedRanks s u.job).length < 2 * n && !J.endorsedSent.contains epoch then endorse s u.job epoch else s
  else
    setJob s u.job (fun j =>
      if j.endorsed.any (fun x => x.1 == epoch && x.2.1 == u.rank) then j
      else { j with endorsed := j.endorsed ++ [(epoch, u.rank, dg)] })

/-- VOTE_WINDOW_EXPIRY (R64, R450): VOTE_WINDOW_US + 10 µs after the leaf's last broadcast ACK of the epoch, the
ranks that have not voted are counted. -/
def doVoteWindowExpiry (job epoch : Nat) (s : State) : State :=
  let J := jobAt s job
  match topOf s job with
  | none => s
  | some t =>
    if J.windowEnded.contains epoch || !bcastsOver s job epoch || !(J.ackAt.any (fun a => a.1 == epoch))
        || s.now < lookupD J.ackAt epoch 0 + 1000 * (t.voteWindowUs + 10) then s
    else
      let late := (servedRanks s job).filter (fun r => !(J.votes.any (fun v => v.1 == epoch && v.2.1 == r)))
      let s := late.foldl (fun s r => voteMissed s job r) s
      setJob s job (fun j => { j with windowEnded := j.windowEnded ++ [epoch] })

/-- An ACK of a broadcast output moves the vote windows of its epoch (R450, R451). (DEDUCED, assumption 50). -/
def noteBcastAck (s : State) (job tag ord : Nat) : State :=
  match epochOf s job tag, entryOf s job ord with
  | some ep, some e =>
    if e.kind = 4 then
      setJob s job (fun j => { j with ackAt := insertKey j.ackAt ep s.now, commitAt := insertKey j.commitAt ep s.now })
    else s
  | _, _ => s

/-! ### Resync -/

/-- SYNC frames of one page (R475, R482). -/
def sendSyncPage (s : State) (job epoch : Nat) (x : StateEntry) (plane : Nat) (older bank : Bool) (page : Nat) : State :=
  let key := pageKey s job x bank plane page
  let ord := x.shard <<< 16 + plane <<< 14 + (if older then 2 ^ 13 else 0)
  (List.range 512).foldl (fun s b =>
    sendTwin s (twinFrame 5 5 (0x140 + 4 * x.die) job epoch ord (page <<< 9 + b) 0
      (s.comp.mem.getBytes (key + 4096 * b) 4096))) s

/-- Pages of a plane, the record page included (R183, R192). -/
def planePages (x : StateEntry) (plane : Nat) : Nat := (x.planes.getD plane (0, 0, 0)).2.2

/-- The KIND 1 digests of a job (R482): CRC-64s of every page of both banks, the newer first. -/
def syncDigests (s : State) (job : Nat) : List Byte :=
  let region (rep : Bool) : List Byte :=
    let xs := regionShards s job rep
    let key (x : StateEntry) : Nat := if rep then x.twinShard else x.shard
    (xs.mergeSort (fun a b => key a ≤ key b)).flatMap (fun x =>
      let h := shardAt s job x.shard
      [h.cur, !h.cur].flatMap (fun bank => (List.range 4).flatMap (fun pl =>
        (List.range (planePages x pl)).flatMap (fun pg =>
          leBytes 8 (crc64 (s.comp.mem.getBytes (pageKey s job x bank pl pg) (2 ^ 21)))))))
  leBytes 64 (Config.sha512 (region false)).toNat ++ leBytes 64 (Config.sha512 (region true)).toNat

/-- Send the KIND 1 VOTE of a job (R482 step 9). -/
def sendSyncVote (s : State) (job epoch : Nat) : State :=
  let pl := leBytes 8 epoch ++ leBytes 1 1 ++ List.replicate 55 0 ++ syncDigests s job
  sendTwin s (twinFrame 2 0 0x180 job epoch 0 0 0 (padTo 512 pl))

/-- The SOLO partner opens reads of both banks of a job's shards and sends them (R482 steps 6 to 9).
(DEDUCED, assumption 49). -/
def serveResync (s : State) (job : Nat) : State :=
  if s.fab.twin.st = .solo && s.fab.twin.serving.contains job then
    let epoch := (jobAt s job).oldest
    let s := (regionShards s job false ++ regionShards s job true).foldl (fun s x =>
      let h := shardAt s job x.shard
      let s := setShard s job x.shard (fun h => { h with reads := h.reads ++ [(8, h.shadow.getD 0, s.now)] })
      [(h.cur, false), (!h.cur, true)].foldl (fun s b => (List.range 4).foldl (fun s pl =>
        (List.range (planePages x pl)).foldl (fun s pg =>
          sendSyncPage s job epoch x pl b.2 b.1 pg) s) s) s) s
    sendSyncVote s job epoch
  else s

/-- A SYNC frame at the resyncing module (R482 step 7): the block lands in the mirror shard. -/
def recvSync (s : State) (l die : Nat) (u : LinkUnit) : State :=
  let id := natField u.ordinal 31 16
  let plane := natField u.ordinal 15 14
  let older := natBit u.ordinal 13
  match stateWhere s u.job (fun x => x.twinShard == id && x.die == die) with
  | none => cntLane s l 9 1
  | some x =>
    if s.fab.twin.st != .syncing then s
    else
      let h := shardAt s u.job x.shard
      let bank := if older then !h.cur else h.cur
      let page := u.chunk / 512
      if planePages x plane ≤ page then cntLane s l 9 1
      else
        let key := pageKey s u.job x bank plane page + 4096 * (u.chunk % 512)
        let s := { s with comp := { s.comp with mem := s.comp.mem.writeRun key u.payload } }
        if u.chunk % 512 = 511 then setTwin s (fun t => { t with pagesDone := t.pagesDone + 1 }) else s

/-- The GRAD frames of every root chunk already formed in a job's oldest open epoch (R482 step 10). -/
def sendAllGrads (s : State) (job : Nat) : State :=
  let ep := (jobAt s job).oldest
  (s.coll.colls.filter (fun c => c.job == job && c.epoch == ep)).foldl (fun s c =>
    match entryOf s job c.ordinal with
    | some e => c.roots.foldl (fun s r => gradRoot s job ep e r.1 r.2) s
    | none => s) s

/-- A TWIN VOTE frame (R451, R482): KIND 0 is kept; KIND 1 is compared with the copy, whose match lets the
pair meet at the next boundary and whose mismatch ends the resync. -/
def recvTwinVote (s : State) (u : LinkUnit) : State :=
  let ep := leVal (u.payload.take 8)
  let kind := leVal (slice u.payload 8 1)
  let bytes := slice u.payload 64 256
  if kind = 0 then
    setTwin s (fun t => { t with peerVotes := (t.peerVotes.filter (fun v =>
      !(v.job == u.job && v.epoch == ep && v.kind == 0))) ++ [{ job := u.job, epoch := ep, kind := 0, bytes := bytes }] })
  else
    let own := syncDigests s u.job
    let ok := own == (slice bytes 64 64 ++ slice bytes 0 64)
    match s.fab.twin.st with
    | .syncing =>
      if ok then
        let s := setTwin s (fun t => { t with synced := (t.synced ++ [u.job]).eraseDups })
        let s := { s with coll := { s.coll with shards := s.coll.shards.map (fun h =>
          if h.job == u.job then { h with flipped := if ep = 0 then none else some (ep - 1)
                                          shadow := if ep ≤ 1 then none else some (ep - 2), rollbackOk := 2 ≤ ep }
          else h) } }
        let s := setJob s u.job (fun j => { j with oldest := ep })
        sendSyncVote s u.job ep
      else toDetached (setTwin s (fun t => { t with lastLoss := 0 }))
    | .solo =>
      if ok then sendAllGrads (closeResync (setTwin s (fun t => { t with synced := (t.synced ++ [u.job]).eraseDups }))) u.job
      else endServing s
    | _ => s

/-- RESYNC_TWIN's conditions (R469, R576). -/
def resyncOk (s : State) : Bool :=
  let t := s.fab.twin
  let g (off n : Nat) : Nat := leVal (slice t.peerHello off n)
  !forwardOnly s && t.st == .detached && portUp s t.port && g 3 1 == 3
  && (List.range 16).all (fun j => if hasState s j || natBit (g 8 2) j then helloAgrees s j && hasState s j else true)

/-- RESYNC_TWIN accepted (R482 step 5): the module enters SYNCING. -/
def startResync (s : State) : State :=
  let pages := (s.tops.flatMap (fun t => t.states.map (fun x =>
    2 * ((List.range 4).map (planePages x)).sum))).sum
  changeTwin (setTwin s (fun t => { t with pagesTotal := pages, pagesDone := 0, synced := [], grads := [] })) .syncing

/-- A SOLO module that sees its partner SYNCING serves its loaded jobs from their next epoch boundary
(R482 step 6). -/
def noteSyncing (s : State) : State :=
  let t := s.fab.twin
  if t.st = .solo && leVal (slice t.peerHello 3 1) == 1 && t.serving.isEmpty then
    setTwin s (fun t => { t with serving := (s.tops.map (·.job)).filter (hasState s), synced := [] })
  else s

/-! ### Epoch boundary -/

/-- Whether a job's epoch boundary is reached (R65): every ordinal with a part here has completed, and every
shard has flipped. (DEDUCED, assumption 52). -/
def boundaryReached (s : State) (job : Nat) : Bool :=
  match topOf s job with
  | none => false
  | some t =>
    let e := (jobAt s job).oldest
    t.colls.all (fun x => collDone s job e x.ordinal) && (shardsOf s job).all (fun h => e < nextEpoch h)
    && !(t.colls.isEmpty && t.states.isEmpty)

/-- EPOCH_BOUNDARY (R65): the window moves on, remaps become due at idle units (R229), a resync begins or
ends (R482). (DEDUCED, assumption 52). -/
def doEpochBoundary (job : Nat) (s : State) : State :=
  if boundaryReached s job then
    let e := (jobAt s job).oldest
    let s := setJob s job (fun j => { j with oldest := e + 1 })
    let s := { s with coll := { s.coll with colls := s.coll.colls.filter (fun c => !(c.job == job && c.epoch < e)) } }
    let s := setTwin s (fun t => { t with grads := t.grads.filter (fun g => !(g.job == job && g.epoch ≤ e)) })
    let s := { s with integ := { s.integ with
        remapReady := s.integ.remapReady ++ s.integ.remapPending, remapPending := [] } }
    let t := s.fab.twin
    let all := (s.tops.map (·.job)).filter (hasState s)
    if (t.st = .syncing || (t.st = .solo && !t.serving.isEmpty)) && t.synced.contains job
        && all.all (fun j => t.synced.contains j) then
      changeTwin (setTwin s (fun t => { t with serving := [], synced := [], intact := false })) .paired
    else serveResync s job
  else s

end Sys2Proof.Machine
end

