-- ==== Sys2Proof/Machine/Receive.lean ====
section
/-! DEFINITION. Units received on a lane: the checks of R345, LINK_SEQ (R350), credit (R352 to R354),
routes (R348), mirroring (R386, R387), metering (R399, R400), admission to buffers (R152, R153, R375,
R377), and delivery of every type of unit (R129 to R146, R441 to R443, R463, R465). -/

namespace Sys2Proof.Machine

/-! ### Counters and credit -/

/-- Credit of a unit goes back to the sender; under `keep`, the pools at PRESS of which it took shared
space, it is withheld (R353, R377). -/
def giveBack (s : State) (l : Nat) (u : LinkUnit) (keep : List Nat) : State :=
  match portOf s l with
  | none => s
  | some p =>
    let k := unitClass u
    match keep with
    | [] => returnCredit s p k (unitCost u)
    | i :: _ =>
      if k = 0 then returnCredit s p k (unitCost u)
      else setPort s p (fun P =>
        { P with withheld := insertKey P.withheld (8 * i + k) (lookupD P.withheld (8 * i + k) 0 + unitCost u) })

/-- A discard after link acceptance: credit returned, LNK.CNT[k] of the ingress lane counts (R345).
(DEDUCED, assumption 32). -/
def discard (s : State) (l k : Nat) (u : LinkUnit) : State := cntLane (giveBack s l u []) l k 1

/-- A link acceptance (R345, R350): counted, and for a twin lane the twin is heard (R479).
(DEDUCED, assumption 54). -/
def noteAccepted (s : State) (l : Nat) : State :=
  let s := cntLane s l 0 1
  if 256 ≤ l then setTwin s (fun t => { t with heardAt := s.now }) else s

/-- A sequenced unit is accepted at the link: EXPECT advances and the acceptance is to be acknowledged
(R350). -/
def acceptSeq (s : State) (l : Nat) (u : LinkUnit) : State :=
  noteAccepted (setLane s l (fun L =>
    { L with rxExpect := (L.rxExpect + 1) % 1024, rxAny := true, missing := false, nakAt := none
             ackUnits := L.ackUnits + 1, ackBytes := L.ackBytes + unitSize u
             ackSince := match L.ackSince with | some t => some t | none => some s.now })) l

/-! ### Checks of one unit -/

/-- Bytes of a unit on the wire (R338, R339, R342). -/
def wireBytes (u : LinkUnit) : List Byte :=
  headerBytes u ++ beBytes 2 u.hcrc ++ u.payload ++ beBytes 4 u.crc ++ beBytes 2 u.res ++ beBytes 2 u.rsv

/-- Check 1 of R345 for a unit of a given type. (DEDUCED, assumption 53). -/
def unitHeaderOk (u : LinkUnit) : Bool :=
  u.typ != 15 && headerCrc u == u.hcrc &&
  (if u.cell then u.payload.length == 40
   else 256 ≤ u.length && u.length ≤ 4096 && u.length % 256 == 0 && u.payload.length == u.length)

/-- Result codes that an ABORT's CAUSE may hold (R462, R578). -/
def isCause (c : Nat) : Bool := [Res.ok, .busy, .state, .range, .align, .auth, .unitAbsent, .frozen, .aborted,
  .verify, .quota, .deadline, .format].any (fun r => r.code == c)

/-- A reserved encoding in a unit (R21, R345 check 5). (DEDUCED, assumption 53). -/
def reservedEncoding (u : LinkUnit) : Bool :=
  let b (i : Nat) : Nat := leVal (slice u.payload i 1)
  natField u.res 15 14 == 3 || hopMax u < hopPtr u ||
  match u.typ with
  | 1 => (RedOp.ofCode (natField u.ofc 12 10)).isNone || (Fmt.ofCode (natField u.ofc 9 5)).isNone
  | 3 => b 8 != 0
  | 4 => b 8 == 0 || 4 < b 8
  | 6 => !isCause (b 4)
  | 9 => b 1 == 0 || 3 < b 1
  | 12 =>
    match u.rank % 16 with
    | 0 | 1 | 5 | 6 => false
    | 2 => 1 < b 8
    | 3 => 1 < b 2 || 3 < b 3
    | 4 => b 0 == 0 || 5 < b 0
    | _ => true
  | _ => false

/-- Check 5 of R345: TWIN on twin ports only, MIRROR never, no reserved encoding; on a twin lane of a
recovery peer only IMAGE frames and link-local units (R519). -/
def typeAllowed (s : State) (l : Nat) (u : LinkUnit) : Bool :=
  u.typ != 14 && (u.typ != 12 || 256 ≤ l) && !reservedEncoding u &&
  !(256 ≤ l && recoveryPeer s (laneAt s l).idleWord && !isLinkLocal u.typ && !(u.typ == 12 && u.rank % 16 == 6))

/-- Where a unit goes next. -/
inductive Dest where
  | egress (p : Nat)
  | die (port d : Nat)
  | service
  | control
  deriving DecidableEq, Repr

/-- Control types of R38. -/
def isControl (typ : Nat) : Bool := [3, 4, 5, 6, 8, 9, 10, 11, 13, 14].contains typ

/-- Whether this grade has a logical die (R9). -/
def hasDie (s : State) (d : Nat) : Bool := d < 3 || (d == 3 && s.grade == 0)

/-- The entry of a unit's JOB and ORDINAL; an express cell's 16 bits name the EXPRESS entry that matches
(R38, R127, R146). -/
def unitEntry (s : State) (u : LinkUnit) : Option CollEntry :=
  if u.cell then
    match topOf s u.job with
    | some t => t.colls.find? (fun e => e.express && e.ordinal % 2 ^ 16 == u.ordinal)
    | none => none
  else entryOf s u.job u.ordinal

/-- Route of a unit at its current hop (R34 to R38, R348, R456), or the LNK counter of its discard. -/
def routeOf (s : State) (u : LinkUnit) : Except Nat Dest :=
  if hopMax u ≤ hopPtr u then .error 9
  else
    let h := hopAt u (hopPtr u)
    if h < 272 then
      if isLanePort s h then (if portUp s h then .ok (.egress h) else .error 11)
      else match portOf s h with
        | some _ => .error 9
        | none => .error 11
    else
      match diePort h with
      | some d =>
        if !hasDie s d || forwardOnly s then .error 10
        else if isControl u.typ then .ok .control
        else .ok (.die h d)
      | none =>
        if h = 0x180 then .ok .service
        else if h = 0x1FF then
          if isControl u.typ then .ok .control
          else match unitEntry s u with
            | some e => if forwardOnly s then .error 10 else .ok (.die e.port (entryDie e))
            | none => .error 9
        else .error 8

/-- Whether a class is best-effort (R377). -/
def bestEffort (s : State) (k : Nat) : Bool := k != 0 && !classGated s k

/-- Check 7 of R345 (R355): a frame of an ungated class that is older than its limit. -/
def tooOld (s : State) (d : Dest) (u : LinkUnit) : Bool :=
  let gated := match d with | .egress p => isGated s p u.cls | _ => classGated s u.cls && u.cls != 0
  if u.cell || gated then false
  else
    let a := (s.fabricTime + 2 ^ 32 - u.inject % 2 ^ 32) % 2 ^ 32
    a < 2 ^ 31 && s.fab.ageLimit.getD u.cls 50000 < a

/-! ### Mirroring -/

/-- Count and perhaps sample a unit that has passed every check (R386 to R388). (DEDUCED, assumption 55). -/
def mirrorUnit (s : State) (p : Nat) (u : LinkUnit) : State :=
  let P := portAt s p
  let k := unitClass u
  let n := P.mirrorLog.getD k 31
  let c := P.mirrorSeq.getD k 0
  let s := setPort s p (fun P => { P with mirrorSeq := P.mirrorSeq.set k ((c + 1) % 2 ^ 20) })
  if 20 < n || c % 2 ^ n != 2 ^ n - 1 || s.fab.mirrorDest = 0 then s
  else if 64 ≤ s.fab.mirrorQueue.length then
    { s with fab := { s.fab with mirrorDrops := satAdd s.fab.mirrorDrops 1 } }
  else
    let r : MirrorRec := { time := s.fabricTime, port := p, cls := k, cell := u.cell
                           trunc := 128 < unitSize u, length := unitSize u, seq := c
                           bytes := padTo 128 ((wireBytes u).take 128) }
    { s with fab := { s.fab with mirrorQueue := s.fab.mirrorQueue ++ [r] } }

/-! ### Metering -/

/-- Colour of R400: 0 green, 1 yellow, 2 red. -/
def meterColour (pr : Profile) (M : Meter) (now cls charge : Nat) : Nat × Meter :=
  let dt := now - M.last
  let tc := min (pr.cbs * 1000) (M.tc + pr.cir * dt)
  let tp := min (pr.pbs * 1000) (M.tp + pr.pir * dt)
  let b := charge * 1000
  let pre := pr.aware && natBit pr.yellowIn cls
  let M := { M with last := now }
  if tp < b then (2, { M with tc := tc, tp := tp })
  else if pre || tc < b then (1, { M with tc := tc, tp := tp - b })
  else (0, { M with tc := tc - b, tp := tp - b })

/-- Step 1 of R399: meter the unit where its port and job have an enabled meter whose profile polices its
class. -/
def meterUnit (s : State) (p : Nat) (u : LinkUnit) : State × Nat :=
  let P := portAt s p
  let M := lookupD P.meters u.job {}
  let pr := s.fab.profiles.getD M.profile {}
  if M.enable && natBit pr.policed (unitClass u) then
    let (c, M) := meterColour pr M s.fabricTime (unitClass u) (chargeOf P u)
    let M := { M with cnt := bumpAt M.cnt c 1 }
    (setPort s p (fun P => { P with meters := insertKey P.meters u.job M }), c)
  else (s, 0)

/-- Count a yellow discard in TSC.POL_CNT[3]. -/
def yellowDrop (s : State) (p job : Nat) : State :=
  setPort s p (fun P =>
    let M := lookupD P.meters job {}
    { P with meters := insertKey P.meters job { M with cnt := bumpAt M.cnt 3 1 } })

/-! ### Collective units at their die -/

/-- Whether a unit is a contribution of an endpoint on a down-lane whose chunk parity is the other twin's
(R54, R146). (DEDUCED, assumption 57). -/
def wrongHalf (s : State) (l : Nat) (u : LinkUnit) : Bool :=
  s.fab.twin.present && l < 256 && natBit (laneAt s l).idleWord 59 &&
  (if u.cell then s.fab.twin.role != 0 else u.chunk != 0xFFFFFF && u.chunk % 2 != s.fab.twin.role)

/-- Count a twin-half error against a rank (R54). (DEDUCED, assumption 57). -/
def halfError (s : State) (job rank : Nat) : State :=
  setJob s job (fun j => { j with halfErr := insertKey j.halfErr rank (satAdd (lookupD j.halfErr rank 0) 1) })

/-- Count a duplicate (R67, R130). -/
def dupError (s : State) (job : Nat) : State := setJob s job (fun j => { j with dupCount := satAdd j.dupCount 1 })

/-- What is done with a collective unit: it is discarded with its count made, or it is taken. -/
inductive Verdict where
  | drop (s : State)
  | take (epoch : Nat) (e : CollEntry)

/-- Checks that DATA, COUNTS, DIGEST and EXPRESS share: the entry (R38, R146), the window (R66), an abort
that stands (R465), the form of the ordinal (R130), the RANK (R130) and the twin half (R54).
(DEDUCED, assumption 58). -/
def judgeColl (s : State) (l : Nat) (u : LinkUnit) : Verdict :=
  match unitEntry s u with
  | none => .drop (cntLane s l 9 1)
  | some e =>
    match epochOf s u.job u.epoch with
    | none => .drop (windowError s u.job u.rank)
    | some ep =>
      let c := collAt s u.job ep e.ordinal
      if c.aborted then .drop (setJob s u.job (fun j => { j with abortDiscards := satAdd j.abortDiscards 1 }))
      else if !u.cell && (e.express || (e.chunks ≤ u.chunk && u.chunk != 0xFFFFFF)
          || ((u.typ == 7 || u.chunk == 0xFFFFFF) && !countsPhase e)) then .drop (cntLane s l 8 1)
      else if (inputRec e u.rank).isNone && !(e.members.any (fun m => m.1 == u.rank)) then .drop (cntLane s l 9 1)
      else if wrongHalf s l u then .drop (halfError s u.job u.rank)
      else .take ep e

/-- The frame count of an input's chunk, as far as it is known: F_c where it is fixed, else what a held DIGEST gives
within the entry's F (R128, R164, R597). -/
def knownFrames (c : Coll) (e : CollEntry) (r : InRec) (u : LinkUnit) : Option Nat :=
  match frameCount c e r u.chunk, (inpAt c u.rank u.chunk).digest with
  | some n, _ => some n
  | none, some d => if 1 ≤ d.count && d.count ≤ r.f then some d.count else none
  | none, none => none

/-- Whether a frame's FLOW_SEQ and LENGTH are allowed by R128 and R130. -/
def frameFits (c : Coll) (e : CollEntry) (u : LinkUnit) : Bool :=
  match inputFor e u.rank u.chunk with
  | none => u.flowSeq < 64
  | some r =>
    let p := 256 * r.p256
    let n := knownFrames c e r u
    let last := match n with | some n => u.flowSeq + 1 == n | none => natBit u.flags 3
    u.flowSeq < n.getD r.f
    && (if !last then u.length == p
        else match lastLength e r u.chunk with | some x => u.length == x | none => u.length ≤ p)

/-- A DATA or COUNTS frame against what is held of its input (R129, R130, R443); none takes it. -/
def heldCheck (s : State) (l ep : Nat) (e : CollEntry) (u : LinkUnit) : Option State :=
  let i := inpAt (collAt s u.job ep e.ordinal) u.rank u.chunk
  let again := natBit u.flags 2
  if !frameFits (collAt s u.job ep e.ordinal) e u then some (cntLane s l 8 1)
  else if i.acked then some (dupError s u.job)
  else if isStale i u.inject then some (icnt s 9 1)
  else if i.onlyResend && !again then some s
  else match i.frames.find? (fun f => f.seq == u.flowSeq) with
    | none => none
    | some f => if again && stampBefore f.inject u.inject then none else some (dupError s u.job)

/-- Place a frame that has been admitted (R129, R443). `a` is its staging allocation; an early arrival
is charged to the job's quota (R152). (DEDUCED, assumption 58). -/
def placeFrame (s : State) (ep : Nat) (e : CollEntry) (u : LinkUnit) (a : Option (Nat × Nat)) : State :=
  let c := collAt s u.job ep e.ordinal
  let n := if isEarly c e u then earlyCells u else 0
  let s := chargeEarly s u.job n
  let i := inpAt c u.rank u.chunk
  let f : HeldFrame := { seq := u.flowSeq, payload := u.payload, inject := u.inject, resend := natBit u.flags 2
                         check := natField u.res 15 14 }
  let i := { i with frames := i.frames.filter (fun x => x.seq != u.flowSeq) ++ [f], early := i.early + n
                    allocs := i.allocs ++ a.toList }
  answerInput (setColl s u.job ep e.ordinal (fun c => putInp c i)) u.job ep e.ordinal u.rank u.chunk false

/-- A DIGEST against what is held of its input: an ACKed input gets its ACK again (R442), a stale DIGEST is
counted (R443); none takes it. -/
def digestCheck (s : State) (ep : Nat) (e : CollEntry) (u : LinkUnit) : Option State :=
  let i := inpAt (collAt s u.job ep e.ordinal) u.rank u.chunk
  let ret := beVal (slice u.payload 16 10)
  if i.acked then
    some (originate s (answerUnit 0 (u.job, u.epoch, u.ordinal, u.chunk, u.rank) (leVal (u.payload.take 8)) ret))
  else if isStale i u.inject then some (icnt s 9 1)
  else none

/-- Hold a DIGEST and answer its input when that is complete (R442). A DIGEST that is resent before its answer keeps the
moment and the arrival time of the first (R156). (DESIGN CHOICE, assumption 127). -/
def placeDigest (s : State) (ep : Nat) (e : CollEntry) (u : LinkUnit) (a : Option (Nat × Nat)) : State :=
  let c := collAt s u.job ep e.ordinal
  let n := if isEarly c e u then earlyCells u else 0
  let s := chargeEarly s u.job n
  let i := inpAt c u.rank u.chunk
  let d : HeldDigest :=
    { crc := leVal (u.payload.take 8), count := leVal (slice u.payload 8 2), clean := natBit (leVal (slice u.payload 10 1)) 0
      retRoute := beVal (slice u.payload 16 10), inject := u.inject
      since := match i.digest with | some d => d.since | none => s.now }
  let first := match i.digest with | some _ => i.arrival | none => s.fabricTime
  let i := { i with digest := some d, arrival := first, early := i.early + n, allocs := i.allocs ++ a.toList }
  let s := setColl s u.job ep e.ordinal (fun c =>
    { putInp c i with retRoutes := (c.retRoutes ++ [d.retRoute]).eraseDups })
  answerInput s u.job ep e.ordinal u.rank u.chunk false

/-- An express cell whose OP, FMT or COUNT differs from its entry's (R101, R146). An entry without a GEOMETRY record
admits one element. (DESIGN CHOICE, assumption 131). -/
def expressDiffers (e : CollEntry) (u : LinkUnit) : Bool :=
  let op := if e.kind = 4 then 0 else e.op.code
  let f := match inputRec e u.rank with
    | some r => if e.kind = 4 then e.fIn else inFormat e r.lo r.hi
    | none => e.fIn
  natField u.ofc 12 10 != op || natField u.ofc 9 5 != f.code || natField u.ofc 4 0 + 1 != e.m.getD 1

/-- Hold an express cell for its node, in a staging cell of the entry's die (R146, R152, R212).
(DEDUCED, assumption 56). -/
def placeExpress (s : State) (ep : Nat) (e : CollEntry) (u : LinkUnit) (a : Nat × Nat) : State :=
  let c := collAt s u.job ep e.ordinal
  let n := if c.eligible then 0 else 1
  let s := chargeEarly s u.job n
  let i := inpAt c u.rank 0
  setColl s u.job ep e.ordinal (fun c =>
    { putInp c { i with early := i.early + n, arrival := s.fabricTime, allocs := i.allocs ++ [a] } with
      express := c.express ++ [{ rank := u.rank, bytes := u.payload, arrival := s.fabricTime }] })

/-! ### Control units -/

/-- An ABORT cell (R463): the first of a key is accepted; a repeat is discarded and counted. -/
def recvAbort (s : State) (u : LinkUnit) : State :=
  let ord := leVal (u.payload.take 4)
  let cause := leVal (slice u.payload 4 1)
  let origin := leVal (slice u.payload 6 2)
  let time := leVal (slice u.payload 8 8)
  match epochOf s u.job u.epoch with
  | none => windowError s u.job u.rank
  | some ep =>
    let c := collAt s u.job ep ord
    if c.aborted || c.aborts.contains (origin, time) then
      setJob s u.job (fun j => { j with abortDup := satAdd j.abortDup 1 })
    else abortColl s u.job ep ord cause origin time

/-- Units that a module's control logic takes (R38). -/
def controlUnit (s : State) (l : Nat) (u : LinkUnit) : State :=
  match u.typ with
  | 3 => noteBcastAck (recvAck s (portOf s l) u) u.job u.epoch u.ordinal
  | 4 => recvNak s (portOf s l) u
  | 5 => recvRetract s u
  | 6 => recvAbort s u
  | 11 => recvVote s l u
  | 13 => recvStretch s (portOf s l) u.payload
  | _ => s

/-- The blocks of the booted firmware image (R518). (DEDUCED, assumption 60). -/
def imageBlockCount (s : State) : Nat := ceilDiv s.mgt.fwBytes.length 4096

/-- An IMAGE request makes a module in SYNC, READY, RUN or DEGRADED send the image that it booted from,
from the requested block on (R518). (DEDUCED, assumption 60). -/
def serveImage (s : State) (u : LinkUnit) : State :=
  match s.mgt.st with
  | .sync | .ready | .run | .degraded =>
    let n := imageBlockCount s
    (List.range (n - u.chunk)).foldl (fun s k =>
      let i := u.chunk + k
      sendTwin s (twinFrame 6 5 0x180 0 0 n i 0 (padTo 4096 (slice s.mgt.fwBytes (4096 * i) 4096)))) s
  | _ => s

/-- An IMAGE data frame reaches a module in RECOVERY (R518). -/
def recvImage (s : State) (u : LinkUnit) : State :=
  if s.mgt.st = .recovery && u.chunk < u.ordinal then
    setTwin s (fun t => { t with imageBlocks := u.ordinal, image := insertKey t.image u.chunk u.payload })
  else s

/-- TWIN units that the service die takes (R475, R479): only HELLO, LEAVE and IMAGE act while DETACHED.
(DEDUCED, assumption 55; DEDUCED, assumption 59). -/
def serviceUnit (s : State) (u : LinkUnit) : State :=
  if u.typ != 12 then s
  else
    let mirrored := s.fab.twin.st != .detached
    match u.rank % 16 with
    | 1 => if mirrored then recvFlip s u else s
    | 2 => if mirrored then recvTwinVote s u else s
    | 3 => noteSyncing (recvHello s u)
    | 4 => recvLeave s u
    | 6 => if u.ordinal = 0xFFFFFFFF then serveImage s u else recvImage s u
    | _ => s

/-! ### Admission -/

/-- Outcome of a unit's admission. -/
inductive Adm where
  /-- It is queued or delivered; the pools at PRESS of which it took shared space, as 4 × instance + pool. -/
  | ok (s : State) (keep : List Nat)
  /-- It stays in its ingress buffer. -/
  | hold
  /-- It is discarded and counted; credit goes back. -/
  | gone (s : State)

/-- Outcome of a request for the cells of one frame. -/
inductive Cells where
  | ok (s : State) (id : Nat) (keep : List Nat)
  | hold
  | gone (s : State)

/-- Steps 3 to 5 of R399 for one pool: requester INGRESS of port `q`, charged in instance `inst`. `p` is
the ingress port, whose meter counts a yellow discard. -/
def takeCells (s : State) (inst q p : Nat) (u : LinkUnit) (yellow : Bool) : Cells :=
  let B := bpmAt s inst
  let req := reqId 0 q u.job
  match poolFor B u.length with
  | none => .hold
  | some (pool, n) =>
    match allocCheck B pool req n with
    | 0 =>
      let shared := (quotaOf B pool req).1 < usedBy B pool req + n
      let lvl := (B.pools.getD pool {}).level
      let best := bestEffort s u.cls
      if yellow && best && shared && 2 ≤ lvl then .gone (yellowDrop s p u.job)
      else if best && 3 ≤ lvl then .gone (cntBpm s inst 3 1)
      else match bpmAlloc s inst req u.length [] with
        | .ok s id =>
          let now := ((bpmAt s inst).pools.getD pool {}).level
          .ok s id (if shared && 2 ≤ now then [4 * inst + pool] else [])
        | _ => .hold
    | _ => .hold

/-- Express slots in use at an egress port (R369). -/
def slotsUsed (s : State) (q : Nat) : Nat :=
  ((portAt s q).out.filter (fun e => e.unit.cell && e.ingress.isSome)).length
  + (((if q < 272 then portLanes s q else [q]).filter (fun l => match (laneAt s l).tx with
      | some t => t.slot
      | none => false))).length

/-- Whether an early arrival exceeds its job's quota (R153). (DEDUCED, assumption 56). -/
def overQuota (s : State) (job n : Nat) : Bool :=
  n != 0 && s.fab.earlyQuota.getD job 0 < s.fab.earlyUsed.getD job 0 + n

/-- A frame crosses the packet buffer on its way to staging: it is written there under its ingress
requester, and its cells return as the last byte crosses (R366, R368). (DEDUCED, assumption 48). -/
def crossBuffer (s : State) (p : Nat) (u : LinkUnit) (yellow : Bool) : Cells :=
  match takeCells s 0 p p u yellow with
  | .ok s id keep => .ok (dropAlloc s 0 id) id keep
  | r => r

/-- What a unit that has crossed the packet buffer does next; a cell does not cross it (R366).
(DEDUCED, assumption 48). -/
def crossing (s : State) (p : Nat) (u : LinkUnit) (yellow : Bool) (f : State → Adm) : Adm :=
  if u.cell then f s
  else match crossBuffer s p u yellow with
    | .ok s _ keep => match f s with
      | .ok s k => .ok s (keep ++ k)
      | r => r
    | .hold => .hold
    | .gone s => .gone s

/-- Deliver a unit to compute die `d` by its port `q` (R38, R152, R153, R212). (DEDUCED, assumption 48). -/
def deliverDie (s : State) (l p q d : Nat) (u : LinkUnit) (yellow : Bool) : Adm :=
  match u.typ with
  | 12 =>
    crossing s p u yellow (fun s =>
      if s.fab.twin.st = .detached then .ok s []
      else if u.rank % 16 = 0 then .ok (recvGrad s l d u) []
      else if u.rank % 16 = 5 then .ok (recvSync s l d u) []
      else .ok s [])
  | 1 =>
    match judgeColl s l u with
    | .drop s => .gone s
    | .take ep e =>
      let c := collAt s u.job ep e.ordinal
      if expressDiffers e u then .gone (cntLane s l 8 1)
      else if c.express.any (fun x => x.rank == u.rank) then .gone (dupError s u.job)
      else if !c.eligible && overQuota s u.job 1 then .hold
      else
        let inst := 1 + entryDie e
        match takeCells s inst q p { u with length := 256 } yellow with
        | .hold => .hold
        | .gone s => .gone s
        | .ok s id keep => .ok (placeExpress s ep e u (inst, id)) keep
  | _ =>
    match judgeColl s l u with
    | .drop s => .gone s
    | .take ep e =>
      match (if u.typ = 2 then digestCheck s ep e u else heldCheck s l ep e u) with
      | some s => .gone s
      | none =>
        let c := collAt s u.job ep e.ordinal
        if overQuota s u.job (if isEarly c e u then earlyCells u else 0) then .hold
        else
          crossing s p u yellow (fun s =>
            let inst := 1 + entryDie e
            match takeCells s inst q p u yellow with
            | .hold => .hold
            | .gone s => .gone s
            | .ok s id keep =>
              .ok (if u.typ = 2 then placeDigest s ep e u (some (inst, id))
                   else placeFrame s ep e u (some (inst, id))) keep)

/-- Admission and delivery of a unit that has passed the checks (R366, R399).
(DEDUCED, assumption 32; DEDUCED, assumption 59). -/
def place (s : State) (l p : Nat) (d : Dest) (u : LinkUnit) (yellow : Bool) : Adm :=
  let entry (a : Option Nat) : OutEntry :=
    { unit := advanceHop u, ready := s.fabricTime, alloc := a, ingress := some l }
  match d with
  | .egress q =>
    if u.cell then
      if 32 ≤ slotsUsed s q then .hold else .ok (enqueue s q (entry none)) []
    else match takeCells s 0 p p u yellow with
      | .ok s id keep => .ok (enqueue s q (entry (some id))) keep
      | .hold => .hold
      | .gone s => .gone s
  | .die q d => deliverDie s l p q d u yellow
  | .service =>
    if u.cell then .ok (serviceUnit s u) []
    else match crossBuffer s p u yellow with
      | .ok s _ keep => .ok (serviceUnit s u) keep
      | .hold => .hold
      | .gone s => .gone s
  | .control =>
    if u.cell then .ok (controlUnit s l u) []
    else match crossBuffer s p u yellow with
      | .ok s _ keep => .ok (controlUnit s l u) keep
      | .hold => .hold
      | .gone s => .gone s

/-- The instance whose INGRESS requester is frozen for a unit, if any (R380). -/
def frozenFor (s : State) (p : Nat) (d : Dest) (u : LinkUnit) : Option Nat :=
  if isFrozen s 0 (reqId 0 p u.job) then some 0
  else match d with
    | .die q x => if isFrozen s (1 + x) (reqId 0 q u.job) then some (1 + x) else none
    | _ => none

/-- A unit past the checks of R345 and the frozen-requester rule: admitted, held in the ingress buffer
behind what waits there of its class (R153, R375), or discarded. -/
def admitUnit (s : State) (l p : Nat) (d : Dest) (u : LinkUnit) (yellow : Bool) : State :=
  let wait (s : State) : State := setPort s p (fun P =>
    { P with held := P.held ++ [{ lane := l, unit := u, since := s.now, yellow := yellow }] })
  if (portAt s p).held.any (fun h => unitClass h.unit == unitClass u) then wait s
  else match place s l p d u yellow with
    | .ok s keep => giveBack s l u keep
    | .hold => wait s
    | .gone s => giveBack s l u []

/-- A sequenced unit that has been accepted at the link: checks 4 to 7 of R345, then ingress (R399). -/
def ingress (s : State) (l p : Nat) (u : LinkUnit) : State :=
  let k := unitClass u
  let P := portAt s p
  let overLim := creditLeft P.grantRx P.usedRx k < unitCost u
  let s := setPort s p (fun P => { P with usedRx := P.usedRx.modify k (fun x => (x + unitCost u) % 2 ^ 32) })
  if overLim then discard s l 7 u
  else if !typeAllowed s l u then discard s l 8 u
  else match routeOf s u with
    | .error n => discard s l n u
    | .ok d =>
      if tooOld s d u then discard s l 12 u
      else
        let s := mirrorUnit s p u
        match frozenFor s p d u with
        | some inst => cntBpm (giveBack s l u []) inst 4 1
        | none =>
          match meterUnit s p u with
          | (s, 2) => giveBack s l u []
          | (s, c) => admitUnit s l p d u (c == 1)

/-! ### Link-local units -/

/-- A CREDIT cell (R344, R352, R359): the first on a lane brings the lane up. -/
def recvCredit (s : State) (l p : Nat) (u : LinkUnit) : State :=
  let g (off n : Nat) : Nat := leVal (slice u.payload off n)
  let s := setLane s l (fun L => if L.st = .ident && L.peerOk then { L with st := .up } else L)
  let s := setPort s p (fun P => { P with grantTx := (List.range 8).map (fun k => g (4 * k) 4) })
  (List.range (min 4 (portAt s p).lanes)).foldl (fun s i =>
    let a := g (32 + 2 * i) 2
    if natBit a 15 then ackLane s (p + i) (a % 1024) else s) s

/-- A LINK_NAK (R351). -/
def recvLinkNak (s : State) (l p : Nat) (u : LinkUnit) : State :=
  let s := cntLane (setLane s l (fun L => { L with nakHeard := leVal (slice u.payload 1 1) })) l 4 1
  startRound s (p + leVal (u.payload.take 1) % 4) (leVal (slice u.payload 2 2) % 1024)

/-- A link-local unit that has passed checks 1, 2 and 5 (R341). (DEDUCED, assumption 54). -/
def linkLocal (s : State) (l p : Nat) (u : LinkUnit) : State :=
  match u.typ with
  | 8 => recvCredit s l p u
  | 9 => recvLinkNak s l p u
  | _ => recvTime s p u

/-! ### Receiving -/

/-- A sequenced unit that has passed checks 1 and 2: LINK_SEQ (R350). -/
def receiveSeq (s : State) (l p : Nat) (u : LinkUnit) : State :=
  let L := laneAt s l
  let d := (u.linkSeq + 1024 - L.rxExpect) % 1024
  if d = 0 then ingress (acceptSeq s l u) l p u
  else if 512 ≤ d then cntLane s l 6 1
  else
    let s := cntLane s l 6 1
    match L.nakAt with
    | some (e, t) => if e = L.rxExpect && s.now < t + 5000 then s else sendNak s l 3
    | none => sendNak s l 3

/-- A unit arrives on a lane (R345). A lane that is not up takes only the CREDIT cell that brings it up
(R359). (DEDUCED, assumption 30). -/
def receive (s : State) (l : Nat) (u : LinkUnit) : State :=
  let L := laneAt s l
  match portOf s l with
  | none => s
  | some p =>
    if !(L.st == .up || (L.st == .ident && L.peerOk && u.typ == 8)) then s
    else if !unitHeaderOk u then sendNak (cntLane s l 1 1) l 1
    else if crc32c u.payload != u.crc then
      let s := cntLane s l 2 1
      if isLinkLocal u.typ then s else sendNak s l 2
    else if isLinkLocal u.typ then
      if typeAllowed s l u then linkLocal (noteAccepted s l) l p u else cntLane (noteAccepted s l) l 8 1
    else receiveSeq s l p u

/-- A received unit of a given type and form; a row of the table names the type.
(DEDUCED, assumption 30; DESIGN CHOICE, assumption 31). -/
def receiveAs (typ : Nat) (l : Nat) (u : LinkUnit) (s : State) : State :=
  receive s l { u with typ := typ, cell := isCellType typ }

/-- A received TWIN frame of a given subtype; `image` is the ORDINAL test of an IMAGE request (R475, R518).
(DEDUCED, assumption 30). -/
def receiveTwin (sub : Nat) (l : Nat) (u : LinkUnit) (s : State) : State :=
  receiveAs 12 l { u with rank := u.rank / 16 * 16 + sub } s

/-- TWIN_IMAGE_REQUEST and TWIN_IMAGE_DATA: ORDINAL tells them apart (R518). -/
def receiveImage (request : Bool) (l : Nat) (u : LinkUnit) (s : State) : State :=
  if request = (u.ordinal == 0xFFFFFFFF) then receiveTwin 6 l u s else s

/-- DELIMITATION_LOST (R345 check 1). (DESIGN CHOICE, assumption 118). -/
def doDelimitationLost (l : Nat) (s : State) : State :=
  if (laneAt s l).st = .up then sendNak (cntLane s l 1 1) l 1 else s

/-! ### Waiting units and units that leave -/

/-- Try again one held unit: its route and age are judged anew (R153, R365). -/
def retryHeld (s : State) (p : Nat) (h : HeldUnit) : Option State :=
  let u := h.unit
  let out (s : State) : State := setPort s p (fun P => { P with held := P.held.erase h })
  match routeOf s u with
  | .error n => some (discard (out s) h.lane n u)
  | .ok d =>
    if tooOld s d u then some (discard (out s) h.lane 12 u)
    else if u.cell && 10000 < s.now - h.since then some (discard (out s) h.lane 12 u)
    else match frozenFor s p d u with
      | some inst => some (cntBpm (giveBack (out s) h.lane u []) inst 4 1)
      | none => match place s h.lane p d u h.yellow with
        | .ok s keep => some (giveBack (out s) h.lane u keep)
        | .hold => none
        | .gone s => some (giveBack (out s) h.lane u [])

/-- Admit held units of a port in their order of arrival; a class whose first unit still waits stays
blocked (R153). -/
def admitHeld (p : Nat) : List HeldUnit → List Nat → State → State
  | [], _, s => s
  | h :: hs, blocked, s =>
    if blocked.contains (unitClass h.unit) then admitHeld p hs blocked s
    else match retryHeld s p h with
      | some s => admitHeld p hs blocked s
      | none => admitHeld p hs (unitClass h.unit :: blocked) s

/-- EARLY_ARRIVAL_ADMIT (R153). -/
def doEarlyArrivalAdmit (p : Nat) (s : State) : State := admitHeld p (portAt s p).held [] s

/-- A waiting ENGINE or DMA allocation fits now and its requester is not frozen (R375, R381).
(DESIGN CHOICE, assumption 61). -/
def waitFits (B : Bpm) (w : Nat × Nat × Nat) : Bool :=
  !B.frozen.contains w.1 && allocCheck B w.2.1 w.1 w.2.2 == 0

/-- ALLOC_WAIT_GRANT (R375): the first waiting ENGINE or DMA allocation that fits goes on; with none, the
ports' held units are admitted. (DESIGN CHOICE, assumption 61). -/
def doAllocWaitGrant (inst : Nat) (s : State) : State :=
  let B := bpmAt s inst
  match B.waiting.find? (waitFits B) with
  | some w => setBpm s inst (fun B => { B with waiting := B.waiting.erase w })
  | none => (s.fab.ports.map (·.1)).foldl (fun s p => doEarlyArrivalAdmit p s) s

/-- An output queue hands back the pointer of a unit's buffer (R368, R378, R379). `ptr` is none for the
pointer that the queue was given, and otherwise what a faulty master hands back; a failed check freezes the
requester and the operation is not performed (R380). -/
def releaseUnit (s : State) (t : TxRec) (p : Nat) (ptr : Option Nat) : State :=
  match t.alloc, ptr with
  | none, _ => s
  | a, none => leaveAlloc s a p (unitClass t.unit) t.unit.job
  | some id, some v =>
    match allocAt s 0 id with
    | none => s
    | some x =>
      match pointerCheck (bpmAt s 0) x.req x.pool (v % 2 ^ 20) with
      | some w => freeze s 0 x.req x.pool w (v % 2 ^ 20)
      | none => leaveAlloc s ((bpmAt s 0).allocs.find? (fun y => y.pool == x.pool && y.req == x.req
          && y.pointer == v % 2 ^ 20) |>.map (·.id)) p (unitClass t.unit) t.unit.job

/-- Where a local port delivers a unit that this module originated. -/
def localDest (l : Nat) (u : LinkUnit) (s : State) : Option Dest :=
  match diePort l with
  | some d =>
    if !hasDie s d || forwardOnly s then none
    else if isControl u.typ then some .control else some (.die l d)
  | none =>
    if l = 0x180 then some .service
    else if isControl u.typ then some .control
    else match unitEntry s u with
      | some e => if forwardOnly s then none else some (.die e.port (entryDie e))
      | none => none

/-- UNIT_TX_DONE (R368): the last bit of a unit leaves a fabric or twin port, or a unit that this module
originated crosses a compute-die, service or local port and is delivered there. -/
def doUnitTxDone (l : Nat) (ptr : Option Nat) (s : State) : State :=
  match (laneAt s l).tx with
  | none => s
  | some t =>
    let fin (s : State) : State := setLane s l (fun L => { L with tx := none })
    if l < 272 then
      if t.again then fin s else releaseUnit (fin s) t ((portOf s l).getD l) ptr
    else
      match localDest l t.unit s with
      | none => releaseUnit (fin s) t l ptr
      | some d =>
        match place s l l d t.unit false with
        | .ok s _ => releaseUnit (fin s) t l ptr
        | .hold => s
        | .gone s => releaseUnit (fin s) t l ptr

/-! ### Mirror records leaving -/

/-- The 160 bytes of a mirror record (R387). -/
def MirrorRec.bytes160 (r : MirrorRec) : List Byte :=
  leBytes 8 r.time ++ leBytes 2 r.port ++ leBytes 1 r.cls
  ++ leBytes 1 ((if r.cell then 1 else 0) + (if r.trunc then 2 else 0)) ++ leBytes 2 r.length ++ leBytes 2 0
  ++ leBytes 4 r.seq ++ List.replicate 12 0 ++ r.bytes

/-- Records that the mirror ring holds (R388). -/
def mirrorSlots (s : State) : Nat := s.fab.mirrorGib * 2 ^ 30 / 160

end Sys2Proof.Machine
end

