-- ==== Sys2Proof/Machine/Chain.lean ====
section
/-! DEFINITION. Fused chains (R258 to R262): the header and its body, the checks of CRUN, and what
one batch of elements computes. -/

namespace Sys2Proof.Machine

/-- The fields of a chain operation word (R238). -/
def chainOpOf (w : Word) : ChainOp :=
  { op := wOpcode w, dst := field w 50 45, a := field w 44 39, b := field w 38 33
    c := field w 32 27, cc := field w 26 24, a16 := field w 23 23 == 1, k := field w 22 15 + 1 }

/-- Words from CHAIN's successor to its CRUN, and the CRUN's index; `none` where no CRUN follows. -/
def bodyFrom : Nat → List Word → Option (List Word × Nat)
  | _, [] => none
  | i, w :: rest =>
    if wOpcode w = 0x72 then some ([], i)
    else (bodyFrom (i + 1) rest).map (fun p => (w :: p.1, p.2))

/-- The body of a CHAIN at word `pc` of a segment. -/
def chainBody (ws : List Word) (pc : Nat) : Option (List Word × Nat) :=
  bodyFrom (pc + 1) (ws.drop (pc + 1))

/-- Split a body at its CSTAGE words. -/
def splitStages : List Word → List (List Word)
  | [] => [[]]
  | w :: rest =>
    match splitStages rest with
    | [] => [[w]]
    | st :: sts => if wOpcode w = 0x71 then [] :: st :: sts else (w :: st) :: sts

/-- Operands that an operation reads (R260): 1, 2 or 3 of A, B, C. -/
def chainArity (op : Nat) : Nat :=
  if op ≤ 0x7B then 2 else if op ≤ 0x7F then 1 else if op ≤ 0x81 then 2 else if op ≤ 0x85 then 1
  else if op = 0x86 then 3 else if op = 0x88 ∨ op = 0x8A then 1 else 2

/-- The operand selectors that an operation reads. -/
def chainSrcs (o : ChainOp) : List Nat := [o.a, o.b, o.c].take (chainArity o.op)

/-- Whether a selector may be read (R259). -/
def srcOk (nin : Nat) (x : Nat) : Bool :=
  x < 0x20 || (0x20 ≤ x && x < 0x20 + nin) || x == 0x30 || x == 0x31

/-- Whether a selector may be written (R259). -/
def dstOk (nout : Nat) (x : Nat) : Bool := x < 0x10 || (0x28 ≤ x && x < 0x28 + nout)

/-- The checks of one chain operation that need no descriptor (R259 to R261). -/
def chainOpOk (nin nout stage : Nat) (o : ChainOp) : Bool :=
  (chainSrcs o).all (srcOk nin)
  && (o.op == 0x8A || dstOk nout o.dst)
  && (!(o.op == 0x87 || o.op == 0x8F) || o.cc != 7)
  && (!o.a16 || (o.op == 0x89 && stage == 0 && o.k % 16 == 0))
  && (o.op != 0x89 || (0x20 ≤ o.a && o.a < 0x26 && 0x20 ≤ o.b && o.b < 0x26))

/-- The operations that read input stream `i`. -/
def readersOf (ops : List ChainOp) (i : Nat) : Nat :=
  (ops.filter (fun o => (chainSrcs o).contains (0x20 + i))).length

/-- Writes of output stream `i`. -/
def writesOf (ops : List ChainOp) (i : Nat) : Nat :=
  (ops.filter (fun o => o.op != 0x8A && o.dst == 0x28 + i)).length

/-- The streams that a CDOT reads. -/
def dotStreams (ops : List ChainOp) : List Nat :=
  (ops.filter (fun o => o.op == 0x89)).flatMap (fun o => [o.a - 0x20, o.b - 0x20])

/-- Decode a chain header and its body (R258): `filter` admits CPASS and demands no output write
(R141, R261). -/
def decodeChain (filter : Bool) (w : Word) (body : List Word) : Option Chain :=
  let nst := field w 50 48 + 1
  let nin := field w 47 45
  let nout := field w 44 42
  let ins := (List.range nin).map (fun i => field w (41 - 4 * i) (38 - 4 * i))
  let outs := (List.range nout).map (fun i => field w (17 - 4 * i) (14 - 4 * i))
  let stages := (splitStages body).map (·.map chainOpOf)
  let ops := stages.flatten
  if 7 ≤ nin ∨ 5 ≤ nout then none
  else if stages.length ≠ nst ∨ 64 < body.length ∨ stages.any (fun st => 16 < st.length) then none
  else if ops.any (fun o => !isChainOp o.op) then none
  else if stages.zipIdx.any (fun p => p.1.any (fun o => !chainOpOk nin nout p.2 o)) then none
  else if (List.range nout).any (fun i => writesOf ops i != 1) then none
  else if !filter && ops.any (fun o => o.op == 0x8A) then none
  else if filter && nout != 0 then none
  else if (dotStreams ops).any (fun i => readersOf ops i != 1) then none
  else some ⟨ins, outs, stages⟩

/-- The format checks of a chain's streams (R260, R261): integer operations take no floating stream,
a PAIR stream is operand A of CMUL or CCVT only, CDOT takes the formats of R114 or R118 and writes those of R114. -/
def streamUseOk (outs ins : List Tensor) (o : ChainOp) : Bool :=
  let fmtOf (x : Nat) : Option Fmt :=
    if 0x20 ≤ x ∧ x < 0x26 then (ins[x - 0x20]?).map (·.fmt) else none
  let isInt := 0x8B ≤ o.op
  (chainSrcs o).zipIdx.all (fun p => match fmtOf p.1 with
    | none => true
    | some f =>
      if f = .pair then p.2 == 0 && (o.op == 0x7A || o.op == 0x88)
      else if o.op = 0x89 then (if o.a16 then alignedOperandOk f else dotOperandOk f)
      else !isInt || f.isInt)
  && (o.op != 0x89 || o.dst < 0x10 || (outs[o.dst - 0x28]?).all (·.fmt.floating))

/-- Element count that a chain gives a stream: n, or n × K for a CDOT stream (R258). -/
def streamCount (ops : List ChainOp) (n i : Nat) : Nat :=
  match ops.find? (fun o => o.op == 0x89 && (o.a == 0x20 + i || o.b == 0x20 + i)) with
  | some o => n * o.k
  | none => n

/-- The element count of a chain: that of output stream 0, or of input stream 0 where there is none (R258). -/
def chainCount (outs ins : List Tensor) : Option Nat := (outs.head?.or ins.head?).map elemCount

/-- Resolve a chain's output and input streams and check them (R241, R251, R253, R258 to R261). -/
def chainStreams (s : State) (Q : Queue) (c : Chain) : Except Res (List Tensor × List Tensor) :=
  match topOf s Q.job with
  | none => .error .format
  | some t =>
    match resolveAll t Q c.outs, resolveAll t Q c.ins with
    | .error e, _ => .error e
    | _, .error e => .error e
    | .ok outs, .ok ins =>
      let ops := c.stages.flatten
      match chainCount outs ins with
      | none => .error .format
      | some n =>
        let all := outs ++ ins
        if all.any (fun x => x.sparse || x.fmt == .int64) || outs.any (·.fmt == .pair) then .error .format
        else if outs.any (fun x => elemCount x != n) then .error .format
        else if ins.zipIdx.any (fun p => elemCount p.1 != streamCount ops n p.2) then .error .format
        else if ops.any (fun o => !streamUseOk outs ins o) then .error .format
        else if !all.all baseAligned then .error .align
        else .ok (outs, ins)

/-- CHAIN (R258): the checked chain stands ready and the queue goes on at its CRUN; a guarded CHAIN
that does not execute skips every word up to and including its CRUN (R239). -/
def doChain (q : Nat) (s : State) : State :=
  issueWith 0x70
    (fun _ s =>
      let Q := queueAt s q
      match chainBody (segWords s Q.job Q.seg) Q.pc with
      | some (_, i) => .stay (setQueue s q (fun Q => { Q with pc := i + 1 }))
      | none => .refuse .format)
    q s (fun w Q s =>
      match chainBody (segWords s Q.job Q.seg) Q.pc with
      | none => .refuse .format
      | some (body, i) =>
        match decodeChain false w body with
        | none => .refuse .format
        | some c =>
          match chainStreams s Q c with
          | .error r => .refuse r
          | .ok _ => .stay (setQueue s q (fun Q => { Q with chain := some c, pc := i })))

/-- Decode CRUN (R258): the streams that CHAIN checked, and the mask of output stream 0 (R255). -/
def crunSetup (s : State) (Q : Queue) (w : Word) : Except Res VecWork :=
  match Q.chain with
  | none => .error .format
  | some c =>
    match chainStreams s Q c with
    | .error e => .error e
    | .ok (outs, ins) =>
      if vMaskEn w && !(outs.head?.any (fun o => o.mask.isSome)
          && (vZero w || outs.all (fun o => !o.fmt.isMx))) then .error .format
      else .ok { word := w, isChain := true, d := outs, a := ins, chain := c, scalarB := none
                 total := (chainCount outs ins).getD 0, batch := 0, perRow := false, tileOff := 0
                 clash := ins.map (fun a => outs.any (fun d => badOverlap s Q.job d a)), seed := s.freeCtr
                 held := [], heldEls := [], old := [] }

/-- CRUN (R258): the gang takes the chain on. CRUN carries no guard (R239). (DEDUCED, assumption 6). -/
def doCrun (q : Nat) (s : State) : State :=
  match canIssue s q 0x72 with
  | none => s
  | some w =>
    let Q := queueAt s q
    match wordCheck s Q w with
    | some r => haltQueue s q r 0
    | none =>
      match crunSetup s Q w with
      | .error r => haltQueue s q r 0
      | .ok wk => startWork s q wk

/-! ### One element through the stages -/

/-- An element's registers (bits and whether the last writer was an integer operation), its outputs
and its pass bit. -/
structure ElemSt where
  e : List (Nat × Bool)
  outs : List (Nat × ERes)
  pass : Bool
  flags : FpFlags
  deriving DecidableEq, Repr, Inhabited

/-- What an element reads: its streams' current raw bits with block scales, formats, and the s
registers. -/
structure ElemIn where
  raws : List (Fmt × Nat × Nat)
  dots : List (Nat × List FVal)
  s : List Word32
  deriving DecidableEq, Repr, Inhabited

/-- Saturate an integer to INT32 (R80). -/
def satInt32 (x : Int) : Int × FpFlags :=
  if x < -(2 ^ 31) then (-(2 ^ 31), fSaturate ||| fInexact)
  else if 2 ^ 31 - 1 < x then (2 ^ 31 - 1, fSaturate ||| fInexact) else (x, 0)

/-- An operand as an FP32 value, exact for a PAIR (R260, R261). -/
def selFloat (i : ElemIn) (st : ElemSt) (x : Nat) : FVal × FpFlags :=
  if x < 0x10 then (dec32 (st.e.getD x (0, false)).1, 0)
  else if x < 0x20 then (dec32 (i.s.getD (x - 0x10) 0).toNat, 0)
  else if x < 0x26 then
    match i.raws.getD (x - 0x20) (.fp32, 0, 0) with
    | (.pair, _, r) => (pairVal r, 0)
    | (f, sc, r) =>
      let v := f.decode sc r
      let (b, g) := enc32 v
      (dec32 b, if f.isInt || f.isMx then g else 0)
  else (dec32 (if x = 0x31 then 0x3F800000 else 0), 0)

/-- An operand as 32 bits and its tag (R259). -/
def selBits (i : ElemIn) (st : ElemSt) (x : Nat) : Nat × Bool × FpFlags :=
  if x < 0x10 then let r := st.e.getD x (0, false); (r.1, r.2, 0)
  else if x < 0x20 then ((i.s.getD (x - 0x10) 0).toNat, false, 0)
  else if x < 0x26 then
    match i.raws.getD (x - 0x20) (.fp32, 0, 0) with
    | (.fp32, _, r) => (r, false, 0)
    | (f, sc, r) =>
      if f.isInt then
        let (v, g) := satInt32 (if f.isSigned then signExt f.bits r else (r : Int))
        (wrapInt 32 v, true, g)
      else
        let v := f.decode sc r
        let (b, g) := enc32 v
        (b, false, (if f.isMx then g else 0) ||| flagIf v.isNan fNanIn)
  else (if x = 0x31 then 0x3F800000 else 0, false, 0)

/-- An operand as a signed INT32 (R260). -/
def selInt (i : ElemIn) (st : ElemSt) (x : Nat) : Int × FpFlags :=
  let (b, _, f) := selBits i st x
  (signExt 32 b, f)

/-- Write DST: an e register takes bits and tag; an output stream converts from the tag (R260). -/
def writeDst (outFmts : List Fmt) (st : ElemSt) (dst bits : Nat) (isInt : Bool) (f : FpFlags) :
    ElemSt :=
  if dst < 0x10 then { st with e := st.e.set dst (bits, isInt), flags := st.flags ||| f }
  else
    let d := outFmts.getD (dst - 0x28) .fp32
    let same := (d == .fp32 && !isInt) || (d == .int32 && isInt)
    let v := if isInt then FVal.ofInt (signExt 32 bits) else dec32 bits
    if same then { st with outs := st.outs ++ [(dst - 0x28, .raw bits)], flags := st.flags ||| f }
    else { st with outs := st.outs ++ [(dst - 0x28, .val v)]
                   flags := st.flags ||| f ||| flagIf v.isNan fNanIn }

/-- One chain operation on an element (R260, R261). (DEDUCED, assumption 115). -/
def chainStep (outFmts : List Fmt) (i : ElemIn) (st : ElemSt) (o : ChainOp) : ElemSt :=
  let (a, fa) := selFloat i st o.a
  let (b, fb) := selFloat i st o.b
  let put (r : FVal × FpFlags) (f : FpFlags) : ElemSt :=
    let (x, g) := enc32 r.1
    writeDst outFmts st o.dst x false (r.2 ||| g ||| f)
  let via (f : Nat → Nat × FpFlags) : ElemSt :=
    let (x, g) := f (enc32 a).1
    writeDst outFmts st o.dst x false (g ||| fa)
  let putInt (x : Int) (f : FpFlags) : ElemSt := writeDst outFmts st o.dst (wrapInt 32 x) true f
  let (ia, ga) := selInt i st o.a
  let (ib, gb) := selInt i st o.b
  match o.op with
  | 0x78 => put (addV a b) (fa ||| fb)
  | 0x79 => put (subV a b) (fa ||| fb)
  | 0x7A => put (mulV a b) (fa ||| fb)
  | 0x7B => put (divV a b) (fa ||| fb)
  | 0x7C => put (sqrtV a) fa
  | 0x7D => via exp32
  | 0x7E => via log32
  | 0x7F => via rsqrt32
  | 0x80 => put (maxV a b) (fa ||| fb)
  | 0x81 => put (minV a b) (fa ||| fb)
  | 0x82 => put (signV a) fa
  | 0x83 => put (negV a) fa
  | 0x84 => put (absV a) fa
  | 0x85 => let (x, t, f) := selBits i st o.a; writeDst outFmts st o.dst x t f
  | 0x86 =>
    let (c, fc) := selFloat i st o.c
    let (x, t, f) := selBits i st (if nonZeroV c then o.a else o.b)
    writeDst outFmts st o.dst x t (f ||| fc ||| flagIf c.isNan fNanIn)
  | 0x87 =>
    writeDst outFmts st o.dst (if ccHolds o.cc a b then 0x3F800000 else 0) false
      (nanIn a b ||| fa ||| fb)
  | 0x88 => put (a, flagIf a.isNan fNanIn) fa
  | 0x89 =>
    let xs := lookupD i.dots (o.a - 0x20) []
    let ys := lookupD i.dots (o.b - 0x20) []
    let (r, f) := if o.a16 then dotAligned (xs.zip ys) 0
      else dotNative ((xs.zip ys).map some) none
    writeDst outFmts st o.dst r false f
  | 0x8A =>
    let (x, _, f) := selBits i st o.a
    { st with pass := st.pass && x != 0, flags := st.flags ||| f }
  | 0x8B => let (x, f) := satInt32 (ia + ib); putInt x (f ||| ga ||| gb)
  | 0x8C => putInt (signExt 32 (wrapInt 32 ia &&& wrapInt 32 ib)) (ga ||| gb)
  | 0x8D => putInt (signExt 32 (wrapInt 32 ia ||| wrapInt 32 ib)) (ga ||| gb)
  | 0x8E => putInt (signExt 32 (wrapInt 32 ia ^^^ wrapInt 32 ib)) (ga ||| gb)
  | 0x8F => putInt (if ccHolds o.cc (.ofInt ia) (.ofInt ib) then 1 else 0) (ga ||| gb)
  | _ => st

/-- One element through every stage (R215, R259). (DEDUCED, assumption 15). -/
def chainElem (c : Chain) (outFmts : List Fmt) (i : ElemIn) : ElemSt :=
  c.stages.flatten.foldl (chainStep outFmts i) ⟨List.replicate 16 (0, false), [], true, 0⟩

/-- What element `n` reads (R256, R259). A flushed operand of ALIGNED16 is flushed here (R118). -/
def elemInput (at' : Nat → State) (job : Nat) (Q : Queue) (wk : VecWork) (n : Nat) : ElemIn × FpFlags :=
  let ops := wk.chain.stages.flatten
  let ds := dotStreams ops
  let xs := (wk.a.zip wk.clash).zipIdx
  let rd (x : Opd × Nat) (m : Nat) : Nat × Nat :=
    let s := readVia at' x.1 (readerNo n x.2 m)
    let co := coordsOf x.1.1.sizes m
    (if x.1.1.fmt.isMx then readScale s job x.1.1 co else 0, readElem s job x.1.1 co)
  let a16 (i : Nat) : Bool := ops.any (fun o => o.a16 && (o.a == 0x20 + i || o.b == 0x20 + i))
  let dots := (xs.filter (fun x => ds.contains x.2)).map (fun x =>
    let k := streamCount ops 1 x.2
    (x.2, (List.range k).map (fun j =>
      let (sc, r) := rd x (n * k + j)
      if a16 x.2 then flushIn x.1.1.fmt r else (x.1.1.fmt.decode sc r, 0))))
  ({ raws := xs.map (fun x => if ds.contains x.2 then (x.1.1.fmt, 0, 0) else (x.1.1.fmt, rd x n))
     dots := dots.map (fun p => (p.1, p.2.map Prod.fst))
     s := Q.s },
   dots.foldl (fun f p => p.2.foldl (fun f x => f ||| x.2) f) 0)

/-- The accesses of element `n` of a chain's input streams. -/
def chainReadAccs (wk : VecWork) (n : Nat) : List Acc :=
  let ops := wk.chain.stages.flatten
  wk.a.zipIdx.flatMap (fun p =>
    let k := streamCount ops 1 p.2
    (List.range k).flatMap (fun j => readAccs p.1 (coordsOf p.1.sizes (n * k + j))))

/-- Whether element `n` enters the chain (R258). -/
def chainActive (s : State) (job : Nat) (wk : VecWork) (n : Nat) : Bool :=
  match wk.d with
  | d :: _ => isActive s job wk.word d n
  | [] => true

/-- What an output stream receives from an element (R255, R258). -/
def chainRes (wk : VecWork) (o : Nat) (r : Option ElemSt) : Option (ERes × FpFlags) :=
  match r with
  | some st => (st.outs.find? (fun p => p.1 == o)).map (fun p => (p.2, 0))
  | none => if vZero wk.word then some (.val .zero, 0) else none

/-- Elements `ns` of a chain: their writes in element order, stream by stream within an element (R258, R273). -/
def chainOut (at' : Nat → State) (job : Nat) (Q : Queue) (wk : VecWork) (ns : List Nat) : BatchOut :=
  let s := at' 0
  let res := ns.map (fun n =>
    if chainActive s job wk n then
      let (i, f) := elemInput at' job Q wk n
      let st := chainElem wk.chain (wk.d.map (·.fmt)) i
      (n, some { st with flags := st.flags ||| f })
    else (n, none))
  let perOut := wk.d.zipIdx.map (fun p => denseOut p.1 (res.map (fun r => (r.1, chainRes wk p.2 r.2))))
  let ef := res.foldl (fun f r => match r.2 with
    | some st => f ||| st.flags
    | none => f) (0 : FpFlags)
  { writes := sortBy (fun x y => x.key ≤ y.key) (perOut.flatMap Prod.fst)
    flags := perOut.foldl (fun a p => a ||| p.2) ef
    anomalies := []
    accs := (wk.d.take 1).flatMap (fun d => maskAccs wk.word d ns) ++ ns.flatMap (fun n =>
      let act := chainActive s job wk n
      (if act then chainReadAccs wk n else [])
      ++ (if act || vZero wk.word then
            wk.d.flatMap (fun d => writeAccs d (coordsOf d.sizes n)) else []))
    rest := [], off := 0 }

/-- One batch of a chain (R236, R258). -/
def chainBatch (s : State) (job : Nat) (Q : Queue) (wk : VecWork) : BatchOut :=
  let at' := readerOf s job wk (fun at' => (chainOut at' job Q wk (elemsFrom wk.total wk.batch)).writes)
  chainOut at' job Q wk (batchElems wk.total wk.batch)

end Sys2Proof.Machine
end

