-- ==== Sys2Proof/Machine/NodeVal.lean ====
section
/-! DEFINITION. The values that a Privet engine forms for one chunk of a reduction: contributions as they
enter (R98, R164, R165), nodes (R97, R102 to R111, R169, R170), the root's rounding (R106) and the bytes
of a value on a hop (R343, R597). -/

namespace Sys2Proof.Machine

/-- A value in the accumulation format: the elements of a dense chunk, or the records of each tile of a
sparse one (R162). -/
inductive NodeVal where
  | dense (els : List Nat)
  | tiles (t : TileSpec) (recs : List (List Rec))
  deriving DecidableEq, Repr, Inhabited

/-- What the values of one chunk of an entry share: state, job, Topiary, entry, the ordinal's record, first element
and element count of the chunk. -/
structure ChunkCtx where
  s : State
  job : Nat
  top : Topiary
  e : CollEntry
  coll : Coll
  a : Nat
  n : Nat

/-- Bytes of the mask row of tile `i` of a chunk: the mask of the entry's first buffer, else the mask that
every member of the collective holds (R173). (DESIGN CHOICE, assumption 21). -/
def ctxMask (c : ChunkCtx) (t : TileSpec) (i : Nat) : List Byte :=
  let r := c.a / max 1 t.w + i
  let open' := (List.range (pad8 (ceilDiv t.w 8))).map (fun k =>
    Config.openMask c.job c.e.ordinal (r * pad8 (ceilDiv t.w 8) + k))
  if t.layout != 3 then []
  else
    match c.e.buffers with
    | [] => open'
    | (h, _) :: _ =>
      match resolve c.top ⟨BitVec.ofNat 12 h, 0⟩ with
      | .ok x => if x.mask.isSome then maskRow c.s c.job x r else open'
      | .error _ => open'

/-- Decode the tiles of a sparse input (R162, R177): the records of each tile, raw, and the anomalies as
(kind, tile). -/
def splitChunk (c : ChunkCtx) (t : TileSpec) (chunk : Nat) (endpoint : Bool) (bs : List Byte) :
    List (List Rec) × List (Nat × Nat) :=
  let ts := (splitTiles t (tilesIn c.e t chunk) bs).getD []
  let ds := ts.zipIdx.map (fun p => (decodeTile t (t.firstRow p.2) c.n (ctxMask c t p.2) endpoint p.1, p.2))
  (ds.map (·.1.recs), ds.flatMap (fun d => d.1.anomalies.map (fun k => (k, d.2))))

/-- Or of the flags of a list of results. -/
def joinFlags (fs : List FpFlags) : FpFlags := fs.foldl (fun a f => a ||| f) 0

/-- An input of a chunk as it stands on its hop, in the hop's format, and the anomalies of its tiles
(R110, R162, R177). -/
def inputRaw (c : ChunkCtx) (r : InRec) (chunk : Nat) (bs : List Byte) : NodeVal × List (Nat × Nat) :=
  let f := inFormat c.e r.lo r.hi
  if r.sparseOk then
    let t := hopSpec c.top c.coll c.e r.layout f (leVal (bs.take 8))
    let (rs, an) := splitChunk c t chunk (isRaw c.e r.lo r.hi) bs
    (.tiles t rs, an)
  else (.dense (rawElems f c.n bs), [])

/-- An input of a chunk as the node plan uses it: a raw contribution enters the accumulation format (R98),
a node's value is already in it (R110). (DEDUCED, assumption 62). -/
def inputVal (c : ChunkCtx) (r : InRec) (chunk : Nat) (bs : List Byte) :
    NodeVal × FpFlags × List (Nat × Nat) :=
  let f := inFormat c.e r.lo r.hi
  let (v, an) := inputRaw c r chunk bs
  if !isRaw c.e r.lo r.hi then (v, 0, an)
  else match v with
    | .tiles t rs =>
      let es := rs.map (·.map (fun x => (x.1, enterAcc c.e.op c.e.fIn c.e.fAcc 0 x.2)))
      (.tiles { t with fmt := c.e.fAcc } (es.map (·.map (fun x => (x.1, x.2.1)))),
       joinFlags (es.flatMap (·.map (fun x => x.2.2))), an)
    | .dense els =>
      let es := els.zipIdx.map (fun p => enterAcc c.e.op c.e.fIn c.e.fAcc
        (if f.isMx then (bs.getD (f.bytes c.n + p.2 / 32) 0).toNat else 0) p.1)
      (.dense (es.map (·.1)), joinFlags (es.map (·.2)), an)

/-- A value's records, tile by tile and in tile order; a dense value names every position (R162, R170). -/
def NodeVal.asTiles (t : TileSpec) : NodeVal → List (List Rec)
  | .tiles _ rs => rs
  | .dense els => (chunksOf t.elems els).zipIdx.map (fun p =>
      (List.range t.elems).map (fun i => (p.2 * t.elems + i, p.1.getD ((tileOrder t).getD i 0) 0)))

/-- A value's dense elements; a later record at a position replaces an earlier one and an unnamed position
holds +0 (R170). -/
def NodeVal.asDense (n : Nat) : NodeVal → List Nat
  | .dense els => els
  | .tiles t rs => expandRecs n (rs.flatten.map (fun r => (rowPos t r.1, r.2)))

/-- A value's records with row-major positions, tile by tile of another specification (R170). -/
def NodeVal.asRows (n : Nat) (t : TileSpec) : NodeVal → List (List Rec)
  | .dense els => (chunksOf t.elems els).zipIdx.map (fun p => p.1.zipIdx.map (fun x => (p.2 * t.elems + x.2, x.1)))
  | .tiles u rs =>
    let rs := rs.map (·.map (fun r => (rowPos u r.1, r.2)))
    if u.layout = 4 && t.layout != 4 then
      (List.range (ceilDiv n t.w)).map (fun i => rs.flatten.filter (fun r => r.1 / t.w == i))
    else rs

/-- Merge or combine two children with the node operation (R102 to R109, R169). -/
def combineVals (e : CollEntry) (x y : NodeVal) : NodeVal × FpFlags :=
  let op := nodeOp e.op e.fAcc
  match x, y with
  | .dense a, .dense b =>
    let r := (a.zip b).map (fun p => op p.1 p.2)
    (.dense (r.map (·.1)), joinFlags (r.map (·.2)))
  | _, _ =>
    let t := match x, y with
      | .tiles t _, _ => t
      | _, .tiles t _ => t
      | _, _ => default
    let r := ((x.asTiles t).zip (y.asTiles t)).map (fun p =>
      mergeRecs op 0 (p.1.length + p.2.length) p.1 p.2)
    (.tiles t (r.map (·.1)), joinFlags (r.map (·.2)))

/-- The tiles of a value, where it has any. -/
def NodeVal.spec : NodeVal → Option TileSpec
  | .tiles t _ => some t
  | .dense _ => none

/-- The layout that a node's value `v` is formed into, in the format in which it is formed (R170): its OUTPUT
record's; of a node without one, that of its left child, else of its right child, whose tiles `v` has. An MX root
without a sparse hop is dense, since MX has no tiles (R161). (DESIGN CHOICE, assumption 133). -/
def nodeSpec (c : ChunkCtx) (lo hi : Nat) (f : Fmt) (v : NodeVal) : Option TileSpec :=
  match c.e.outputs.find? (fun o => o.lo == lo && o.hi == hi) with
  | some o => if o.sparseOk then some (ownTiles c.top c.e o.layout f v.spec) else none
  | none => if f.isMx then none else v.spec.map (fun t => { t with fmt := f })

/-- The tiles of a value formed into a layout (R166, R170). (DEDUCED, assumption 62). -/
def formTiles (c : ChunkCtx) (t : TileSpec) (v : NodeVal) : List (List Byte) :=
  formChunk t c.n (ctxMask c t) (v.asRows c.n t)

/-- After a node its output is formed before any parent uses it (R170): the value that the formed tiles
hold. -/
def reform (c : ChunkCtx) (spec : Option TileSpec) (v : NodeVal) : NodeVal :=
  match spec with
  | none => .dense (v.asDense c.n)
  | some t =>
    .tiles t ((formTiles c t v).zipIdx.map (fun p =>
      (decodeTile t (t.firstRow p.2) c.n (ctxMask c t p.2) false p.1).recs))

/-- Values of a chunk by node. -/
abbrev NodeEnv := List ((Nat × Nat) × NodeVal)

/-- A node's value, where it is there. -/
def nodeAt (env : NodeEnv) (k : Nat × Nat) : Option NodeVal := (env.find? (fun x => x.1 == k)).map (·.2)

/-- Combine steps in an order in which every child precedes its parent: by the width of the node (R97). -/
def planOrder (e : CollEntry) : List (Nat × Nat × Nat) :=
  sortBy (fun x y => x.2.2 - x.1 ≤ y.2.2 - y.1) e.combines

/-- An input as the plan takes it: its record, its value, and the flags and anomalies of taking it. -/
abbrev Entered := InRec × NodeVal × FpFlags × List (Nat × Nat)

/-- What taking the inputs that stand for a node raised (R94, R178). -/
def enteredRun (ins : List Entered) (k : Nat × Nat) : FpFlags × List (Nat × Nat × Nat) :=
  match ins.find? (fun x => (x.1.lo, x.1.hi) == k) with
  | some x => (x.2.2.1, x.2.2.2.map (fun a => (x.1.rank, a.1, a.2)))
  | none => (0, [])

/-- Compute every node of the plan whose children are there, each formed before its parent uses it (R111, R170); the
root is formed once it is rounded. Each computation stands with what it and the entry of its inputs raised. -/
def runPlan (c : ChunkCtx) (ins : List Entered) (chunk : Nat) : NodeEnv × List ChunkRun :=
  (planOrder c.e).foldl (fun (env, runs) (lo, mid, hi) =>
    match nodeAt env (lo, mid), nodeAt env (mid, hi) with
    | some x, some y =>
      let (v, g) := combineVals c.e x y
      let (f1, a1) := enteredRun ins (lo, mid)
      let (f2, a2) := enteredRun ins (mid, hi)
      let v := if lo = 0 ∧ hi = c.e.n then v else reform c (nodeSpec c lo hi c.e.fAcc v) v
      (env ++ [((lo, hi), v)], runs ++ [{ chunk := chunk, lo := lo, hi := hi, flags := g ||| f1 ||| f2, anomalies := a1 ++ a2 }])
    | _, _ => (env, runs)) (ins.map (fun x => ((x.1.lo, x.1.hi), x.2.1)), [])

/-- A rounded root as it is formed (R170): its dense bytes and its value. -/
def formRoot (c : ChunkCtx) (v : NodeVal) : List Byte × NodeVal :=
  let w := reform c (nodeSpec c 0 c.e.n c.e.fOut v) v
  (leBytes (c.e.fOut.bytes c.n) (packBits c.e.fOut.bits (w.asDense c.n)), w)

/-- The root (0, N) rounded once to the output format (R106 to R109) and formed: dense bytes with the scale bytes of
an MX format, the value for a sparse hop, and the flags. (DEDUCED, assumption 20). -/
def finishRoot (c : ChunkCtx) (v : NodeVal) : List Byte × NodeVal × FpFlags :=
  let f := c.e.fOut
  let els := v.asDense c.n
  if f.isMx then
    let bs := (chunksOf 32 els).map (fun b => encodeBlock f (b.map (accVal c.e.fAcc)))
    let raw := (bs.flatMap (fun b => b.2.1)).take c.n
    (leBytes (f.bytes c.n) (packBits f.bits raw) ++ bs.map (fun b => BitVec.ofNat 8 b.1), .dense raw,
      joinFlags (bs.map (fun b => b.2.2)))
  else
    let r (x : Nat) := rootRound c.e.op c.e.fAcc f x
    match v with
    | .dense els =>
      let rs := els.map r
      let (bs, w) := formRoot c (.dense (rs.map (·.1)))
      (bs, w, joinFlags (rs.map (·.2)))
    | .tiles t recs =>
      let rs := recs.map (·.map (fun x => (x.1, r x.2)))
      let (bs, w) := formRoot c (.tiles { t with fmt := f } (rs.map (·.map (fun x => (x.1, x.2.1)))))
      (bs, w, joinFlags (rs.flatMap (·.map (fun x => x.2.2))))

/-- The bytes of a value on the hop of an OUTPUT record: dense elements or tiles of a format (R164, R597). -/
def hopOut (c : ChunkCtx) (o : OutRec) (f : Fmt) (dense : List Byte) (v : NodeVal) : List Byte :=
  if o.sparseOk then (formTiles c (ownTiles c.top c.e o.layout f v.spec) v).flatten else dense

/-- The tiles of a root for a first buffer that is a sparse tensor, where its tiles begin with the chunk's elements
(R166, R598). -/
def rootTiles (c : ChunkCtx) (v : NodeVal) : List (List Byte) :=
  match bufferTensor c.s c.job c.e 0 with
  | some d => if d.sparse && c.a % max 1 (tileSpecOf d).elems == 0 then formTiles c (tileSpecOf d) v else []
  | none => []

/-- Dense bytes of a value in a format. -/
def denseBytesOf (c : ChunkCtx) (f : Fmt) (v : NodeVal) : List Byte :=
  leBytes (f.bytes c.n) (packBits f.bits (v.asDense c.n))

/-- The finished root that an input (0, N) delivers: dense bytes of the output format and its value, tiles expanded
(R106, R170), and the anomalies of its tiles. (DEDUCED, assumption 63). -/
def finishedRoot (c : ChunkCtx) (r : InRec) (chunk : Nat) (bs : List Byte) : List Byte × NodeVal × List (Nat × Nat) :=
  let (v, an) := inputRaw c r chunk bs
  (if r.sparseOk then denseBytesOf c c.e.fOut v else bs.take (hopBytes c.e.fOut c.n), v, an)

end Sys2Proof.Machine
end

