-- ==== Sys2Proof/Machine/Select.lean ====
section
/-! DEFINITION. The SELECT kinds: SORT (R138, R139), TOP_K (R140) and FILTER (R141); and what a counts phase
forms (R133 to R136, R142, R143). -/

namespace Sys2Proof.Machine

/-! ### Inputs of a whole ordinal -/

/-- The bytes of an input over all chunks. -/
def sourceBytes (c : Coll) (e : CollEntry) (rank : Nat) : List Byte :=
  (List.range e.chunks).flatMap (heldBytes c rank)

/-- The inputs that a SELECT ordinal works on: all but a finished result. -/
def selIns (e : CollEntry) : List InRec := e.inputs.filter (fun r => !isFinished e r.lo r.hi)

/-- The input that delivers the finished result. -/
def selFinished (e : CollEntry) : Option InRec := e.inputs.find? (fun r => isFinished e r.lo r.hi)

/-- Whether every one of the chunks `ks` of given inputs is ACKed. -/
def allAcked (c : Coll) (ks : List Nat) (rs : List InRec) : Bool := ks.all (fun k => rs.all (fun r => (inpAt c r.rank k).acked))

/-- A member's own element or record count: what its counts chunk gives, else the entry's count. -/
def ownCount (c : Coll) (e : CollEntry) (rank : Nat) : Option Nat :=
  if countsHeld c rank then some (countWord c rank 0) else e.m

/-! ### Records -/

/-- A record as it is ordered and moved: its key, the rank and index that break ties, and its bytes. -/
structure SelRec where
  key : Int
  rank : Nat
  index : Nat
  bytes : List Byte
  deriving DecidableEq, Repr, Inhabited

/-- The order of R138 and R140: keys in the entry's direction, then (rank, index) ascending. -/
def selLe (e : CollEntry) (x y : SelRec) : Bool :=
  let down := if e.kind = 12 then !e.dir else e.dir
  if x.key = y.key then x.rank < y.rank || (x.rank == y.rank && x.index ≤ y.index)
  else if down then y.key < x.key else x.key < y.key

/-- Bytes of one element of the input format. -/
def keyBytes (e : CollEntry) : Nat := ceilDiv e.fIn.bits 8

/-- Bytes that a record moves: a key with its value, or an element, with the scale of its block in an MX format.
(DEDUCED, assumption 66). -/
def bodyBytes (e : CollEntry) : Nat :=
  match e.kind, e.params with
  | 10, .sort v => keyBytes e + v
  | _, _ => keyBytes e + if e.fIn.isMx then 1 else 0

/-- Bytes of what breaks ties in a node's record. (DEDUCED, assumption 66). -/
def tieBytes (e : CollEntry) : Nat := match e.kind with | 12 => 8 | 11 => 4 | _ => 0

/-- The elements of a member's own input of FILTER, each with the scale of its block (R74, R343). -/
def filterElems (c : Coll) (e : CollEntry) (r : InRec) : List (Nat × Nat) :=
  let f := e.fIn
  let per := hopElems f (r.f * r.p256 * 256)
  (List.range e.chunks).flatMap (fun k =>
    let bs := heldBytes c r.rank k
    let have' := hopElems f bs.length
    let n := match ownCount c e r.lo with | some n => min have' (min per (n - k * per)) | none => have'
    (rawElems f n bs).zipIdx.map (fun p => (p.1, if f.isMx then (bs.getD (f.bytes n + p.2 / 32) 0).toNat else 0)))

/-- The records of a member's own run. -/
def rawRecs (c : Coll) (e : CollEntry) (r : InRec) : List SelRec :=
  let kb := keyBytes e
  if e.kind = 11 then
    (filterElems c e r).zipIdx.map (fun p =>
      { key := 0, rank := r.lo, index := p.2
        bytes := leBytes kb p.1.1 ++ if e.fIn.isMx then [BitVec.ofNat 8 p.1.2] else [] })
  else
    let w := max 1 (bodyBytes e)
    let bs := sourceBytes c e r.rank
    let n := match ownCount c e r.lo with | some n => min n (bs.length / w) | none => bs.length / w
    (List.range n).map (fun i =>
      let b := slice bs (i * w) w
      { key := e.fIn.sortKey (leVal (b.take kb)), rank := r.lo, index := i, bytes := b })

/-- The records of a node's stream, which begins with their number. (DEDUCED, assumption 66). -/
def nodeRecs (c : Coll) (e : CollEntry) (r : InRec) : List SelRec :=
  let w := max 1 (bodyBytes e + tieBytes e)
  let bs := sourceBytes c e r.rank
  let xs := bs.drop 8
  (List.range (min (leVal (bs.take 8)) (xs.length / w))).map (fun i =>
    let b := slice xs (i * w) w
    let body := b.take (bodyBytes e)
    let tie := b.drop (bodyBytes e)
    { key := if e.kind = 11 then 0 else e.fIn.sortKey (leVal (b.take (keyBytes e)))
      rank := if e.kind = 10 then r.lo else leVal (tie.take 4)
      index := if e.kind = 12 then leVal (slice tie 4 4) else i
      bytes := body })

/-- The records of an input in stream order. -/
def inputRecs (c : Coll) (e : CollEntry) (r : InRec) : List SelRec :=
  if isRaw e r.lo r.hi then rawRecs c e r else nodeRecs c e r

/-- The bytes of a node's records on a hop toward another module: their number and then each with what breaks
ties. (DEDUCED, assumption 66). -/
def recsOut (e : CollEntry) (rs : List SelRec) : List Byte :=
  leBytes 8 rs.length ++ rs.flatMap (fun r => match e.kind with
    | 12 => r.bytes ++ leBytes 4 r.rank ++ leBytes 4 r.index
    | 11 => r.bytes ++ leBytes 4 r.rank
    | _ => r.bytes)

/-- The raw bits of a record's key or element. -/
def recRaw (e : CollEntry) (r : SelRec) : Nat := leVal (r.bytes.take (keyBytes e))

/-- Elements that pass as they land or travel: their raw bits, and for an MX format a scale for each 32 of them, that of
the first. (DESIGN CHOICE, assumption 137). -/
def filterLanding (e : CollEntry) (rs : List SelRec) : Landing :=
  { raw := rs.map (recRaw e)
    scales := if e.fIn.isMx then (chunksOf 32 rs).map (fun b => match b with
      | r :: _ => leVal (r.bytes.drop (keyBytes e))
      | [] => 0) else [] }

/-- The finished result in the form in which it is delivered: the sorted records, the three tensors of R140
one after another, or the passing elements. (DEDUCED, assumption 66). -/
def recsRoot (e : CollEntry) (rs : List SelRec) : List Byte :=
  match e.kind with
  | 12 => rs.flatMap (·.bytes) ++ rs.flatMap (fun r => leBytes 4 r.rank) ++ rs.flatMap (fun r => leBytes 4 r.index)
  | 11 => leBytes (e.fIn.bytes rs.length) (packBits e.fIn.bits (rs.map (recRaw e)))
  | _ => rs.flatMap (·.bytes)

/-- The records that a finished TOP_K holds (R140): k, or every element where there are fewer. -/
def topCount (e : CollEntry) : Nat := match e.m with | some m => min e.topK (e.n * m) | none => e.topK

/-! ### FILTER -/

/-- The predicate of a FILTER entry: the chain of its segment (R141). (DEDUCED, assumption 15). -/
def predicate (s : State) (job : Nat) (e : CollEntry) : Option Chain :=
  match e.params with
  | .filter seg _ =>
    let ws := segWords s job seg
    match ws.head?, chainBody ws 0 with
    | some w, some (body, _) => if wOpcode w = 0x70 then decodeChain true w body else none
    | _, _ => none
  | _ => none

/-- Whether an element passes, and the flags that the predicate raises on it. -/
def passes (p : Chain) (e : CollEntry) (r : SelRec) : Bool × FpFlags :=
  let scale := leVal (r.bytes.drop (keyBytes e))
  let st := chainElem p [] { raws := List.replicate p.ins.length (e.fIn, scale, recRaw e r), dots := [], s := List.replicate 16 0 }
  (st.pass, st.flags)

/-- The passing records of a member's input (R141). (DEDUCED, assumption 66). -/
def filterRecs (s : State) (job : Nat) (e : CollEntry) (rs : List SelRec) : List SelRec × FpFlags :=
  match predicate s job e with
  | none => (rs, 0)
  | some p =>
    let xs := rs.map (fun r => (r, passes p e r))
    ((xs.filter (·.2.1)).map (·.1), joinFlags (xs.map (·.2.2)))

/-! ### Nodes -/

/-- Selected values by node. -/
abbrev SelEnv := List ((Nat × Nat) × List SelRec)

/-- What an input brings to its node: a member's run is sorted, or tested, and top-k keeps k of it (R139 to R141). -/
def selInput (s : State) (job : Nat) (c : Coll) (e : CollEntry) (r : InRec) : List SelRec × FpFlags :=
  let rs := inputRecs c e r
  let raw := isRaw e r.lo r.hi
  if e.kind = 11 then (if raw then filterRecs s job e rs else (rs, 0))
  else if e.kind = 12 then ((sortBy (selLe e) rs).take e.topK, 0)
  else (if raw then sortBy (selLe e) rs else rs, 0)

/-- A node of a SELECT kind: the merge of two ordered streams (R138 to R141). -/
def selNode (e : CollEntry) (x y : List SelRec) : List SelRec :=
  match e.kind with
  | 11 => x ++ y
  | 12 => (sortBy (selLe e) (x ++ y)).take e.topK
  | _ => sortBy (selLe e) (x ++ y)

/-- Whether the plan works on an input here: a combine step takes it, or it is the only member's (R111, R141). -/
def planUses (e : CollEntry) (r : InRec) : Bool :=
  e.n == 1 || e.combines.any (fun x => (x.1, x.2.1) == (r.lo, r.hi) || (x.2.1, x.2.2) == (r.lo, r.hi))

/-- All values of a SELECT ordinal at this module. (DEDUCED, assumption 38). -/
def selValues (s : State) (job : Nat) (c : Coll) (e : CollEntry) : SelEnv × FpFlags :=
  let ins := (selIns e).filter (planUses e)
  let vs := ins.map (fun r => ((r.lo, r.hi), selInput s job c e r))
  let env : SelEnv := vs.map (fun v => (v.1, v.2.1))
  let at' (env : SelEnv) (k : Nat × Nat) : Option (List SelRec) := (env.find? (fun x => x.1 == k)).map (·.2)
  ((planOrder e).foldl (fun env (lo, mid, hi) =>
    match at' env (lo, mid), at' env (mid, hi) with
    | some x, some y => env ++ [((lo, hi), selNode e x y)]
    | _, _ => env) env, joinFlags (vs.map (fun v => v.2.2)))

/-! ### Counts -/

/-- The member that receives in a kind with a single receiver. -/
def receives (e : CollEntry) (d : Nat) : Bool :=
  match e.kind, e.params with
  | 5, _ => d == e.root
  | 11, .filter _ mode => mode == 1 || d == e.root
  | 12, .topk mode => mode == 1 || d == e.root
  | _, _ => true

/-- c[s][d] of R134. -/
def countSD (c : Coll) (e : CollEntry) (src d : Nat) : Nat :=
  if e.kind = 8 then countWord c src d else countWord c src 0

/-- off(s, d), an exact prefix sum (R134). -/
def offSD (c : Coll) (e : CollEntry) (src d : Nat) : Nat := ((List.range src).map (fun x => countSD c e x d)).sum

/-- The counts chunk that a member is returned in the kinds of R135. (DEDUCED, assumption 65). -/
def countsReturn (c : Coll) (e : CollEntry) (d : Nat) : List Byte :=
  let total := offSD c e e.n d
  let ls := (List.range e.n).map (fun x => offSD c e x d)
  let mine := if e.kind = 8 then (List.range e.n).map (fun d' => offSD c e d d') else []
  if receives e d then (total :: ls ++ mine).flatMap (leBytes 8) else leBytes 8 0

/-- The counts chunk that a member is returned in MOE_DISPATCH (R143). -/
def moeReturn (e : CollEntry) (owners : List Nat) (fates : List (Nat × Nat × Nat × Nat)) (d : Nat) : List Byte :=
  let mine := fates.filter (fun f => f.1 == d)
  let kept := (mine.filter (fun f => f.2.2.2 == 0)).length
  let mask := mine.map (fun f => f.2.2.2 == 1 || f.2.2.2 == 2)
  let per (x : Nat) : List Byte :=
    let ks := fates.filter (fun f => f.2.2.1 == x && f.2.2.2 == 0)
    leBytes 8 ks.length ++ (List.range e.n).flatMap (fun r => leBytes 8 (ks.filter (fun f => f.1 < r)).length)
  leBytes 8 kept ++ bitsToBytes mask
    ++ ((List.range owners.length).filter (fun x => owners.getD x 0 == d)).flatMap per

/-- Ranks whose counts this module takes: those within its planned inputs, and members without one (R130, R133).
(DEDUCED, assumption 65). -/
def countRanks (e : CollEntry) : List Nat :=
  ((selIns e).flatMap (fun r => (List.range (r.hi - r.lo)).map (· + r.lo)) ++ e.members.map (·.1)).eraseDups

/-- Whether every one of them has ACKed counts here. -/
def countsAcked (c : Coll) (e : CollEntry) : Bool := (countRanks e).all (countsHeld c)

/-- Whether this module forms the offsets: it holds the counts of all N members (R134).
(DEDUCED, assumption 65). -/
def formsCounts (e : CollEntry) : Bool := (List.range e.n).all (fun r => (countRanks e).contains r)

/-- Elements of the input format that member `d` receives in all (R134, R143): those of its records in SORT, and those
of its rows in MOE_DISPATCH. (DEDUCED, assumption 65). -/
def totalElems (c : Coll) (e : CollEntry) (d : Nat) : Nat :=
  match e.kind with
  | 13 => ((List.range e.n).map (fun x => (keptRows c e x d).length)).sum * (8 * rowBytes e / max 1 e.fIn.bits)
  | 10 => offSD c e e.n d * (bodyBytes e / max 1 (keyBytes e))
  | _ => offSD c e e.n d

/-- The capacity that the entry states for member `d` (R136, R288). (DEDUCED, assumption 65). -/
def memberCap (e : CollEntry) (d : Nat) : Option Nat := (e.buffers[bufferOf e d]?).map (·.2)

/-- Whether a total passes the destination capacity that the entry states for a member (R136).
(DEDUCED, assumption 65). -/
def overCapacity (c : Coll) (e : CollEntry) : Bool :=
  e.kind != 11 && (e.members.map (·.1)).any (fun d => receives e d && (match memberCap e d with
    | some cap => cap < totalElems c e d
    | none => false))

end Sys2Proof.Machine
end

