-- ==== Sys2Proof/Machine/Privet.lean ====
section
/-! DEFINITION. The work of a Privet engine on one chunk (R211 to R214): reductions, moves, counts, the
SELECT kinds and express nodes, with its integrity checks (R433 to R436); and CALL_COLL (R151, R267). -/

namespace Sys2Proof.Machine

/-! ### Emission -/

/-- The context of one run of a chunk. -/
structure PrivetRun where
  job : Nat
  epoch : Nat
  e : CollEntry
  chunk : Nat
  /-- The engine whose outputs these are. -/
  engine : Nat
  /-- The unit on which the execution succeeds, that engine or the chain group of a FILTER predicate, and the units of
  the failed executions before it. -/
  unit : Nat
  failed : List Nat
  /-- A sampled duplicate is to compare. -/
  dup : Bool

/-- The record of the ordinal. -/
def PrivetRun.coll (r : PrivetRun) (s : State) : Coll := collAt s r.job r.epoch r.e.ordinal

/-- Whether the ordinal still runs and the engine may allocate (R380, R464). -/
def PrivetRun.live (r : PrivetRun) (s : State) : Bool :=
  !(r.coll s).aborted && engineFree s (entryDie r.e) r.engine r.job

/-- Whether a chunk's work is the predicate of FILTER, which runs on a chain group (R141). -/
def filterWork (e : CollEntry) (chunk : Nat) : Bool := e.kind == 11 && chunk != 0xFFFFFF

/-- What a run computes is noted once: it joins what the chunk has raised; its flags and anomalies count for the unit
that ran it, and the failed executions before it leave flags and anomalies of their own (R94, R96, R178). -/
def PrivetRun.noted (r : PrivetRun) (s : State) (runs : List ChunkRun) : State :=
  if runs.isEmpty then s
  else
    let die := entryDie r.e
    let note (s : State) (u : Nat) (xs : List ChunkRun) : State :=
      noteRuns s die u r.job r.e.ordinal (filterWork r.e r.chunk) xs
    let s := setColl s r.job r.epoch r.e.ordinal (fun c => { c with ran := c.ran ++ runs })
    let s := faultFlags s (fun s u f => note s u
      [{ chunk := r.chunk, lo := 0, hi := 0, flags := f, anomalies := runs.flatMap (·.anomalies) }]) r.failed
    note s r.unit runs

/-- Emit one output value of the chunk unless it has been emitted (R128, R441). -/
def PrivetRun.emit (r : PrivetRun) (s : State) (lo hi chunk : Nat) (copied : Bool) (bs : List Byte) : State :=
  if !r.live s || (outAt (r.coll s) lo hi chunk).isSome then s
  else
    let s := settleMade s (entryDie r.e) r.engine r.job
      (emitOutput s r.job r.epoch r.e lo hi chunk bs r.engine copied (r.dup && !copied) none)
    setColl s r.job r.epoch r.e.ordinal (fun c =>
      { c with outputs := c.outputs.map (fun o =>
          if o.lo == lo && o.hi == hi && o.chunk == chunk && !copied then { o with failures := r.failed.length } else o) })

/-- Emit a counts chunk toward one route (R133 to R135). -/
def PrivetRun.emitCounts (r : PrivetRun) (s : State) (lo hi : Nat) (ks : List Consumer) (copied : Bool)
    (bs : List Byte) : State :=
  if !r.live s || ks.isEmpty || (r.coll s).outputs.any (fun o => o.lo == lo && o.hi == hi && o.counts) then s
  else settleMade s (entryDie r.e) r.engine r.job
    (placeOutput s r.job r.epoch r.e.ordinal
      { lo := lo, hi := hi, chunk := 0xFFFFFF, bytes := padFrames bs, payload := 4096, check := 0
        engine := r.engine, copied := copied, consumers := ks, counts := true } (entryDie r.e))

/-- The consumer behind a MEMBERS route. (DEDUCED, assumption 35). -/
def memberConsumer (s : State) (job : Nat) (m : Nat × Nat) : List Consumer :=
  match routeAt s job m.2 with
  | some r => if routeInForce s r then [{ route := r.image, cls := r.cls, rank := m.1 }] else []
  | none => []

/-- Mark a chunk as formed here. -/
def PrivetRun.markFormed (r : PrivetRun) (s : State) (chunk : Nat) : State :=
  setColl s r.job r.epoch r.e.ordinal (fun c =>
    { c with formed := if c.formed.contains chunk then c.formed else c.formed ++ [chunk] })

/-- Write elements into buffer `i` of the entry. -/
def PrivetRun.fill (r : PrivetRun) (s : State) (i start : Nat) (x : Landing) : State :=
  if (r.coll s).aborted then s else toBuffer s r.job r.epoch r.e i start x

/-- Emit the values of a chunk's OUTPUT records that are there: the bytes, and whether they are copies. -/
def PrivetRun.emitAll (r : PrivetRun) (s : State) (chunk : Nat) (value : OutRec → Option (Bool × List Byte)) : State :=
  (outKeys r.e).foldl (fun s k =>
    match (r.e.outputs.find? (fun o => o.lo == k.1 && o.hi == k.2)).map (fun o => (o, value o)) with
    | some (o, some (copied, bs)) => r.emit s o.lo o.hi chunk copied bs
    | _ => s) s

/-- Whether a value of a chunk that is there has not been emitted: its engine waits for space (R375). -/
def PrivetRun.leftOver (r : PrivetRun) (s : State) (chunk : Nat) (value : OutRec → Option (Bool × List Byte)) : Bool :=
  (outKeys r.e).any (fun k => (outAt (r.coll s) k.1 k.2 chunk).isNone &&
    (match r.e.outputs.find? (fun o => o.lo == k.1 && o.hi == k.2) with
      | some o => (value o).isSome
      | none => false))

/-! ### Reductions -/

/-- The planned inputs of a chunk that are ACKed here; of two records with one RANK the first counts.
(DESIGN CHOICE, assumption 114). -/
def ackedInputs (c : Coll) (e : CollEntry) (chunk : Nat) : List InRec :=
  e.inputs.filter (fun r => inputRec e r.rank == some r && (inpAt c r.rank chunk).acked)

/-- Those of them that are still staged (R57, R212). -/
def stagedInputs (c : Coll) (e : CollEntry) (chunk : Nat) : List InRec :=
  (ackedInputs c e chunk).filter (fun r => !(inpAt c r.rank chunk).frames.isEmpty)

/-- The staged inputs that the node plan works on: all but a finished root (R106, R110). -/
def partsOf (c : Coll) (e : CollEntry) (chunk : Nat) : List InRec :=
  (stagedInputs c e chunk).filter (fun r => !isFinished e r.lo r.hi)

/-- The nodes that given inputs allow, children first (R97, R111). Of a single member the module that enters its
contribution computes the root (0, 1) (R106). -/
def nodesFrom (e : CollEntry) (ps : List (Nat × Nat)) : List (Nat × Nat) :=
  let all := (planOrder e).foldl (fun ks x =>
    if ks.contains (x.1, x.2.1) && ks.contains (x.2.1, x.2.2) then ks ++ [(x.1, x.2.2)] else ks) ps
  all.drop ps.length ++ if e.n = 1 then ps.filter (· == (0, 1)) else []

/-- The ACKed input that an OUTPUT record sends on as it stands, where one stands for its node (R56, R57). The
contribution of a single member is none: it is rounded first (R106). -/
def sentOn (c : Coll) (e : CollEntry) (chunk : Nat) (o : OutRec) : Option InRec :=
  if e.n = 1 && isRaw e o.lo o.hi then none
  else (stagedInputs c e chunk).find? (fun r => r.lo == o.lo && r.hi == o.hi)

/-- Whether an input comes in the form in which an OUTPUT record sends it: dense, or tiles of one layout. -/
def sameHop (r : InRec) (o : OutRec) : Bool := r.sparseOk == o.sparseOk && (!o.sparseOk || r.layout == o.layout)

/-- Inputs of a chunk whose tiles the module decodes though no node takes them: those that it sends on in another form,
and a finished sparse root (R170). -/
def openedInputs (c : Coll) (e : CollEntry) (chunk : Nat) : List InRec :=
  (stagedInputs c e chunk).filter (fun r => r.sparseOk && (isFinished e r.lo r.hi
    || e.outputs.any (fun o => sentOn c e chunk o == some r && !sameHop r o)))

/-- Whether the root of a chunk waits for the hold area (R200). -/
def rootWaits (s : State) (job epoch : Nat) (e : CollEntry) (chunk : Nat) : Bool :=
  let (a, b) := chunkRange e chunk
  holdFull s job epoch e.ordinal chunk (hopBytes e.fOut (b - a))

/-- Whether a value of a chunk has been computed here. -/
def hasRun (c : Coll) (chunk : Nat) (k : Nat × Nat) : Bool :=
  c.ran.any (fun r => r.chunk == chunk && (r.lo, r.hi) == k)

/-- The nodes of a chunk of a reduction that a run computes now (R97, R200). -/
def freshNodes (s : State) (job epoch : Nat) (e : CollEntry) (c : Coll) (chunk : Nat) : List (Nat × Nat) :=
  (nodesFrom e ((partsOf c e chunk).map (fun r => (r.lo, r.hi)))).filter (fun k =>
    !hasRun c chunk k && !(k == (0, e.n) && rootWaits s job epoch e chunk))

/-- The chunks that an engine takes of an entry here, in the order of its plan (R211). -/
def enginePlan (s : State) (job : Nat) (e : CollEntry) (g : Nat) : List Nat :=
  ((e.engines.filter (fun x => x.2.2 == g)).flatMap (fun x => (List.range x.2.1).map (· + x.1))).filter (ownHalf s job e)

/-- Whether every node of a chunk has been computed, but for a root that waits for the hold area (R200, R211). -/
def chunkTaken (s : State) (job epoch : Nat) (e : CollEntry) (chunk : Nat) : Bool :=
  let c := collAt s job epoch e.ordinal
  e.combines.all (fun x => hasRun c chunk (x.1, x.2.2)
    || ((x.1, x.2.2) == (0, e.n) && rootWaits s job epoch e chunk))

/-- Whether an engine's turn has come to a chunk: those before it in its plan have been taken, in the entry and, in
table order, in the reductions before it on the die that still run here (R211). (DEDUCED, assumption 35). -/
def planTurn (s : State) (job epoch : Nat) (e : CollEntry) (chunk : Nat) : Bool :=
  let g := engineOf e chunk
  let before : List CollEntry := match topOf s job with
    | some t => (t.colls.takeWhile (fun x => x.ordinal != e.ordinal)).filter (fun x =>
        isReduction x.kind && !x.express && entryDie x == entryDie e && takesPart s job x)
    | none => []
  ((enginePlan s job e g).takeWhile (· != chunk)).all (chunkTaken s job epoch e)
  && before.all (fun x =>
    let c := collAt s job epoch x.ordinal
    c.aborted || c.completed || (enginePlan s job x g).all (chunkTaken s job epoch x))

/-- What a run finds for a chunk of a reduction: nodes, the finished root in dense bytes and as a value, and what each
computation raises. -/
structure Reduced where
  env : NodeEnv
  root : Option (List Byte × NodeVal)
  runs : List ChunkRun

/-- Compute what the staged inputs allow (R97 to R111, R169, R170); a root that waits for the hold area is not formed
(R200). (DEDUCED, assumption 35; DESIGN CHOICE, assumption 114). -/
def reduceChunk (x : ChunkCtx) (chunk : Nat) (full : Bool) : Reduced :=
  let e := x.e
  let c := x.coll
  let key := (0, e.n)
  let ins : List Entered := (partsOf c e chunk).map (fun r => (r, inputVal x r chunk (heldBytes c r.rank chunk)))
  let (env, runs) := runPlan x ins chunk
  let opened : List ChunkRun := (openedInputs c e chunk).map (fun r =>
    { chunk := chunk, lo := r.lo, hi := r.hi, flags := 0
      anomalies := (inputRaw x r chunk (heldBytes c r.rank chunk)).2.map (fun a => (r.rank, a.1, a.2)) })
  if full then { env := env, root := none, runs := (runs ++ opened).filter (fun r => (r.lo, r.hi) != key) }
  else
    match nodeAt env key with
    | some v =>
      let (bs, w, g) := finishRoot x v
      let entered := enteredRun ins key
      let one : List ChunkRun := if e.n = 1 then
        [{ chunk := chunk, lo := 0, hi := 1, flags := entered.1, anomalies := entered.2 }] else []
      { env := env, root := some (bs, w)
        runs := (runs ++ one).map (fun r => if (r.lo, r.hi) == key then { r with flags := r.flags ||| g } else r) ++ opened }
    | none =>
      { env := env, runs := runs ++ opened
        root := ((stagedInputs c e chunk).find? (fun r => isFinished e r.lo r.hi)).map (fun r =>
          let f := finishedRoot x r chunk (heldBytes c r.rank chunk)
          (f.1, f.2.1)) }

/-- The bytes of an OUTPUT value, where it is there, and whether it is a copy of an input (R56, R57, R440): an input in
the form of the hop is copied, in another form it is formed anew (R170). -/
def outputBytes (x : ChunkCtx) (red : Reduced) (chunk : Nat) (o : OutRec) : Option (Bool × List Byte) :=
  match sentOn x.coll x.e chunk o with
  | some r =>
    let bs := heldBytes x.coll r.rank chunk
    if sameHop r o then some (true, bs)
    else
      let f := inFormat x.e r.lo r.hi
      let v := (inputRaw x r chunk bs).1
      some (false, hopOut x o f (denseBytesOf x f v) v)
  | none =>
    if o.lo = 0 && o.hi = x.e.n then
      red.root.map (fun v => (false, hopOut x o x.e.fOut v.1 v.2))
    else if isRaw x.e o.lo o.hi then none
    else (nodeAt red.env (o.lo, o.hi)).map (fun v => (false, hopOut x o x.e.fAcc (denseBytesOf x x.e.fAcc v) v))

/-- Whether the root of a chunk comes to be at this module: it computes it, or an input delivers it (R106, R598). -/
def rootHere (e : CollEntry) : Bool :=
  computesNode e 0 e.n || e.inputs.any (fun r => isFinished e r.lo r.hi) || (e.n == 1 && !e.inputs.isEmpty)

/-- One run of a chunk of a reduction kind: every value that its staged inputs allow and that has not been emitted goes
out; the root goes into its buffers (R106, R598). -/
def PrivetRun.reduce (r : PrivetRun) (s : State) : State :=
  match topOf s r.job with
  | none => s
  | some t =>
    let e := r.e
    let c := r.coll s
    let (a, b) := chunkRange e r.chunk
    let x : ChunkCtx := { s := s, job := r.job, top := t, e := e, coll := c, a := a, n := b - a }
    let red := reduceChunk x r.chunk (rootWaits s r.job r.epoch e r.chunk)
    let s := r.noted s (red.runs.filter (fun y => !hasRun c r.chunk (y.lo, y.hi)))
    let s := r.emitAll s r.chunk (outputBytes x red r.chunk)
    let placed (s : State) : Bool := (r.coll s).roots.any (fun y => y.1 == r.chunk)
    let s := match red.root with
      | some v => if r.live s && !placed s then placeRoot s r.job r.epoch e r.chunk v.1 (rootTiles x v.2) else s
      | none => s
    if !(r.coll s).aborted && e.inputs.all (fun i => (inpAt c i.rank r.chunk).acked)
        && !r.leftOver s r.chunk (outputBytes x red r.chunk) && (!rootHere e || placed s) then
      r.markFormed s r.chunk
    else s

/-! ### Kinds that move bits -/

/-- The members whose data an input of a moving kind carries, in rank order (R124). -/
def sourcesOf (e : CollEntry) (r : InRec) : List Nat :=
  if e.kind = 4 || e.kind = 6 then [e.root] else (List.range (r.hi - r.lo)).map (· + r.lo)

/-- The tiles of a sparse input of a chunk, as its first header and the entry fix them (R163). -/
def movedSpec (t : Topiary) (c : Coll) (e : CollEntry) (r : InRec) (chunk : Nat) : Option TileSpec :=
  if r.sparseOk then some (hopSpec t c e r.layout e.fIn (leVal ((heldBytes c r.rank chunk).take 8))) else none

/-- Elements of each of its sources that one chunk of an input carries: an equal share of the frames' bytes, in tiles
as dense ones fill it. (DEDUCED, assumption 64). -/
def chunkElems (e : CollEntry) (spec : Option TileSpec) (r : InRec) : Nat :=
  let b := r.f * r.p256 * 256 / max 1 (sourcesOf e r).length
  match spec with
  | some t => b / (8 + t.denseBytes) * t.elems
  | none => hopElems e.fIn b

/-- Whether a kind delivers each member blocks of its own (R124). -/
def deliversBlocks (e : CollEntry) : Bool := (6 ≤ e.kind && e.kind ≤ 8) || e.kind == 13

/-- Elements that member `src` sends to member `d`, where they are known here; `per` of them go into a chunk (R124,
R134, R144). (DEDUCED, assumption 64). -/
def sentTo (c : Coll) (e : CollEntry) (per src d : Nat) : Option Nat :=
  match e.kind with
  | 13 => if (List.range e.n).all (countsHeld c) then
      some ((keptRows c e src d).length * (8 * rowBytes e / max 1 e.fIn.bits)) else none
  | 8 => if countsHeld c src then some (countWord c src d) else none
  | 6 | 7 => some (e.m.getD (per * e.chunks / max 1 e.n))
  | 4 => e.m
  | _ => ownCount c e src

/-- The same, where what is not known fills every chunk. -/
def sentLen (c : Coll) (e : CollEntry) (per src d : Nat) : Nat := (sentTo c e per src d).getD (per * e.chunks)

/-- What a chunk carries of one source: receiving member, first element of what it is sent, and number. In a kind without
blocks the member is 0 and stands for all. Where the entry gives no block chunks of its own the blocks follow one
another. (DEDUCED, assumption 64). -/
def sharePieces (c : Coll) (e : CollEntry) (per src chunk : Nat) : List (Nat × Nat × Nat) :=
  if !deliversBlocks e then [(0, chunk * per, min per (sentLen c e per src 0 - chunk * per))]
  else
    match blockChunks e with
    | some k => [(chunk / k, chunk % k * per, min per (sentLen c e per src (chunk / k) - chunk % k * per))]
    | none =>
      (List.range e.n).filterMap (fun d =>
        let b := ((List.range d).map (sentLen c e per src)).sum
        let lo := max b (chunk * per)
        let hi := min (b + sentLen c e per src d) ((chunk + 1) * per)
        if lo < hi then some (d, lo - b, hi - lo) else none)

/-- A member's share of a chunk in elements. -/
def shareLen (c : Coll) (e : CollEntry) (per src chunk : Nat) : Nat := ((sharePieces c e per src chunk).map (·.2.2)).sum

/-- The bytes of a chunk of an input without its padding: the tiles, or the dense shares of its sources (R128, R164). -/
def contentBytes (t : Topiary) (c : Coll) (e : CollEntry) (r : InRec) (chunk : Nat) : List Byte :=
  let bs := heldBytes c r.rank chunk
  match movedSpec t c e r chunk with
  | some spec => ((tilesUpTo spec bs).getD []).flatten
  | none =>
    let per := chunkElems e none r
    bs.take ((sourcesOf e r).map (fun x => hopBytes e.fIn (shareLen c e per x chunk))).sum

/-- The value of an OUTPUT of a moving kind: an input's chunk, or what the chunks of the inputs that make up its range
hold, in rank order (R124, R125). (DEDUCED, assumption 64). -/
def movedBytes (t : Topiary) (c : Coll) (e : CollEntry) (chunk : Nat) (o : OutRec) : Option (Bool × List Byte) :=
  match e.inputs.find? (fun r => r.lo == o.lo && r.hi == o.hi) with
  | some r => if (inpAt c r.rank chunk).acked then some (true, heldBytes c r.rank chunk) else none
  | none =>
    let parts := sortBy (fun x y => x.lo ≤ y.lo) (e.inputs.filter (fun r => o.lo ≤ r.lo && r.hi ≤ o.hi))
    if !parts.isEmpty && parts.all (fun r => (inpAt c r.rank chunk).acked)
        && (parts.map (fun r => r.hi - r.lo)).sum == o.hi - o.lo then
      some (true, parts.flatMap (fun r => contentBytes t c e r chunk))
    else none

/-- Members served here, in rank order; a module with buffers that serves none holds the blocks of all.
(DESIGN CHOICE, assumption 136). -/
def localMembers (e : CollEntry) : List Nat :=
  if e.members.isEmpty then List.range e.n else sortBy (fun x y => x ≤ y) (e.members.map (·.1))

/-- The buffers that a result goes into whole: those of the members that receive it where each member has its own, and
else the first. (DESIGN CHOICE, assumption 136). -/
def resultBuffers (e : CollEntry) : List Nat :=
  if e.members.length = e.buffers.length then
    (List.range e.buffers.length).filter (fun i => receives e ((e.members.getD i (0, 0)).1))
  else [0]

/-- Elements that member `d` is sent in all. -/
def recvLen (c : Coll) (e : CollEntry) (per d : Nat) : Nat :=
  if e.kind = 6 then sentLen c e per e.root d else ((List.range e.n).map (fun x => sentLen c e per x d)).sum

/-- First element of member `d`'s region in its buffer: in one that several members share their regions follow one
another. (DESIGN CHOICE, assumption 136). -/
def regionBase (c : Coll) (e : CollEntry) (per d : Nat) : Nat :=
  if e.members.length = e.buffers.length then 0
  else (((localMembers e).filter (· < d)).map (recvLen c e per)).sum

/-- The row of an owner's region in which row `j` of member `src` lands: the experts that it owns follow one another,
each as long as its kept rows, and within one the rows are ordered by rank, token and slot (R144).
(DESIGN CHOICE, assumption 136). -/
def rowPlace (c : Coll) (e : CollEntry) (src d j : Nat) : Nat :=
  let mine := keptRows c e src d
  let x := mine.getD j 0
  ((List.range e.n).map (fun r => ((keptRows c e r d).filter (fun y => y < x || (y == x && r < src))).length)).sum
    + ((mine.take j).filter (· == x)).length

/-- Where a piece of member `src` lands here: buffer, first element there, first element within the piece, and number
(R124, R134, R144, R598). (DEDUCED, assumption 64). -/
def landSpots (c : Coll) (e : CollEntry) (per src : Nat) (p : Nat × Nat × Nat) : List (Nat × Nat × Nat × Nat) :=
  let (d, i, n) := p
  if !deliversBlocks e then
    let base := if e.kind = 4 then 0 else ((List.range src).map (fun x => sentLen c e per x 0)).sum
    (resultBuffers e).map (fun b => (b, base + i, 0, n))
  else if !(localMembers e).contains d then []
  else if e.kind = 13 then
    let w := max 1 (8 * rowBytes e / max 1 e.fIn.bits)
    (List.range (ceilDiv (i + n) w - i / w)).map (fun k =>
      let j := i / w + k
      let lo := max i (j * w)
      let hi := min (i + n) (j * w + w)
      (bufferOf e d, regionBase c e per d + rowPlace c e src d j * w + (lo - j * w), lo - i, hi - lo))
  else
    let base := if e.kind = 6 then 0 else ((List.range src).map (fun x => sentLen c e per x d)).sum
    [(bufferOf e d, regionBase c e per d + base + i, 0, n)]

/-- The tiles of a chunk of a moved input that lands from element `a` on, decoded: elements, and the anomalies as (kind,
tile) (R162, R177). -/
def openTiled (x : ChunkCtx) (spec : TileSpec) (endpoint : Bool) (ts : List (List Byte)) : List Nat × List (Nat × Nat) :=
  let ds := ts.zipIdx.map (fun p => (decodeTile spec (spec.firstRow p.2) x.n (ctxMask x spec p.2) endpoint p.1, p.2))
  ((NodeVal.tiles spec (ds.map (·.1.recs))).asDense x.n, ds.flatMap (fun d => d.1.anomalies.map (fun k => (k, d.2))))

/-- Whether tiles go into a buffer as they are: it is a sparse tensor of the same tiles (R85, R168). -/
def keepsTiles (s : State) (job : Nat) (e : CollEntry) (b : Nat) (spec : TileSpec) : Bool :=
  match bufferTensor s job e b with
  | some d => d.sparse && tileSpecOf d == spec
  | none => false

/-- What a chunk of an input brings: for each source with its pieces the elements, and the anomalies of its tiles. Tiles
that stay tiles raise only what their size shows, kind 0x7 (R167). -/
def movedParts (s : State) (job : Nat) (t : Topiary) (c : Coll) (e : CollEntry) (r : InRec) (chunk : Nat) :
    List (Nat × List (Nat × Nat × Nat) × Landing) × List (Nat × Nat) :=
  let bs := contentBytes t c e r chunk
  let spec := movedSpec t c e r chunk
  let per := chunkElems e spec r
  let raw := isRaw e r.lo r.hi
  let one (acc : List (Nat × List (Nat × Nat × Nat) × Landing) × List (Nat × Nat) × Nat) (src : Nat) :=
    let (out, an, off) := acc
    let ps := sharePieces c e per src chunk
    let n := (ps.map (·.2.2)).sum
    match spec with
    | none => (out ++ [(src, ps, landingOf e.fIn n (bs.drop off))], an, off + hopBytes e.fIn n)
    | some sp =>
      let ts := ((tilesUpTo sp bs).getD []).drop off |>.take (ceilDiv n (max 1 sp.elems))
      let a := match ps with
        | p :: _ => match landSpots c e per src p with | l :: _ => l.2.1 | [] => p.2.1
        | [] => 0
      let (els, k) := openTiled { s := s, job := job, top := t, e := e, coll := c, a := a, n := n } sp raw ts
      let kept := e.buffers.isEmpty || (resultBuffers e).all (fun b => keepsTiles s job e b sp)
      (out ++ [(src, ps, { raw := els, tiles := if kept then ts else [] })],
       an ++ (k.filter (fun x => !kept || x.1 == 7)).map (fun x => (x.1, off + x.2)), off + ts.length)
  let z := (sourcesOf e r).foldl one ([], [], 0)
  (z.1, z.2.1)

/-- Place what an ACKed input's chunk brings into the local buffers (R598). (DEDUCED, assumption 64). -/
def PrivetRun.landMoved (r : PrivetRun) (s : State) (t : Topiary) (i : InRec) : State :=
  let e := r.e
  let c := r.coll s
  let per := chunkElems e (movedSpec t c e i r.chunk) i
  if e.buffers.isEmpty then s
  else (movedParts s r.job t c e i r.chunk).1.foldl (fun s x =>
    (x.2.1.zipIdx.foldl (fun s p =>
      let before := ((x.2.1.take p.2).map (·.2.2)).sum
      (landSpots c e per x.1 p.1).foldl (fun s l => r.fill s l.1 l.2.1 (x.2.2.part (before + l.2.2.1) l.2.2.2)) s) s)) s

/-- The anomalies of the sparse inputs of a moved chunk, one event for each tile, once (R167, R177). -/
def movedRuns (s : State) (job : Nat) (t : Topiary) (c : Coll) (e : CollEntry) (chunk : Nat) : List ChunkRun :=
  ((ackedInputs c e chunk).filter (fun i => i.sparseOk && !hasRun c chunk (i.lo, i.hi))).map (fun i =>
    { chunk := chunk, lo := i.lo, hi := i.hi, flags := 0
      anomalies := (movedParts s job t c e i chunk).2.map (fun a => (i.rank, a.1, a.2)) })

/-- One run of a chunk of a moving kind (R125, R132). -/
def PrivetRun.move (r : PrivetRun) (s : State) : State :=
  match topOf s r.job with
  | none => s
  | some t =>
    let e := r.e
    let c := r.coll s
    let value := movedBytes t c e r.chunk
    let s := r.noted s (movedRuns s r.job t c e r.chunk)
    let s := r.emitAll s r.chunk value
    if !(r.coll s).aborted && e.inputs.all (fun i => (inpAt c i.rank r.chunk).acked) && !r.leftOver s r.chunk value
        && !c.formed.contains r.chunk then
      let s := e.inputs.foldl (fun s i => r.landMoved s t i) s
      if (r.coll s).aborted then s else r.markFormed s r.chunk
    else s

/-! ### Counts -/

/-- The routing list's drops and invalid slots go to their counters (R143, R560, R561). -/
def countMoe (s : State) (job : Nat) (fates : List (Nat × Nat × Nat × Nat)) : State :=
  fates.foldl (fun s (_, _, x, fate) => match fate with
    | 1 => { s with coll := { s.coll with
        moeDrops := insertKey s.coll.moeDrops (job * 65536 + x) (satAdd (lookupD s.coll.moeDrops (job * 65536 + x) 0) 1) } }
    | 2 => { s with coll := { s.coll with moeInvalid := bumpAt s.coll.moeInvalid job 1 } }
    | _ => s) s

/-- The counts phase at this module (R133 to R137, R143): where it holds every member's counts it checks the
capacity, returns offsets and opens the data phase; else it forwards them. -/
def PrivetRun.counts (r : PrivetRun) (s : State) : State :=
  let e := r.e
  let c := r.coll s
  if !countsPhase e || c.countsDone || !countsAcked c e then s
  else
    let done (s : State) : State :=
      if (r.coll s).aborted || !r.live s then s
      else
        let s := setColl s r.job r.epoch e.ordinal (fun c => { c with countsDone := true })
        if (r.coll s).eligible then releaseEarly s r.job r.epoch e.ordinal else s
    if formsCounts e then
      if overCapacity c e then abortHere s r.job r.epoch e.ordinal .range
      else
        match e.kind, e.params with
        | 13, .moe ex kr cap _ owners =>
          let fates := moeFates ex cap [] (moeSlots c e kr)
          let s := if c.outputs.any (·.counts) then s else countMoe s r.job fates
          done (e.members.foldl (fun s m =>
            r.emitCounts s m.1 (m.1 + 1) (memberConsumer s r.job m) false (moeReturn e owners fates m.1)) s)
        | 11, _ => done s
        | _, _ => done (e.members.foldl (fun s m =>
            r.emitCounts s m.1 (m.1 + 1) (memberConsumer s r.job m) false (countsReturn c e m.1)) s)
    else
      done ((countRanks e).foldl (fun s rank =>
        let ks := consumersOf s r.job e rank (rank + 1) 0xFFFFFF
        r.emitCounts s rank (rank + 1) ks true (heldBytes c rank 0xFFFFFF)) s)

/-! ### SELECT -/

/-- Whether the nodes of a SELECT ordinal can be computed: every chunk that the module handles of every input but a
finished result is ACKed (R132, R139). (DEDUCED, assumption 38). -/
def selReady (s : State) (job : Nat) (c : Coll) (e : CollEntry) : Bool :=
  !(selIns e).isEmpty && allAcked c (ownChunks s job e) (selIns e) && (!countsPhase e || c.countsDone)

/-- The inputs that a SELECT node tests or orders here (R139, R141). -/
def selParts (e : CollEntry) : List InRec := (selIns e).filter (planUses e)

/-- What the executions of a SELECT ordinal's chunks raise: each stands for the whole, which is computed at once. -/
def selRuns (s : State) (job : Nat) (c : Coll) (e : CollEntry) : List ChunkRun :=
  (ownChunks s job e).flatMap (fun k => (selParts e).map (fun i =>
    { chunk := k, lo := i.lo, hi := i.hi, flags := (selInput s job c e i).2, anomalies := [] }))

/-- The bytes of a chunk of elements: packed, and the scales of an MX format (R343). -/
def landingBytes (f : Fmt) (x : Landing) : List Byte :=
  leBytes (f.bytes x.raw.length) (packBits f.bits x.raw) ++ x.scales.map (BitVec.ofNat 8)

/-- A value in the frames of an OUTPUT record, for `n` chunks: none where they cannot carry it. -/
def cutBytes (o : OutRec) (n : Nat) (bs : List Byte) : Option (List (List Byte)) :=
  let w := o.f * (256 * max 1 o.p256)
  if n * w < bs.length then none
  else some ((List.range n).map (fun k => padTo ((o.f - 1) * (256 * max 1 o.p256) + 256) (slice bs (k * w) w)))

/-- Elements in the frames of an OUTPUT record, for `n` chunks (R343). -/
def cutLanding (f : Fmt) (o : OutRec) (n : Nat) (x : Landing) : Option (List (List Byte)) :=
  let w := o.f * (256 * max 1 o.p256)
  let per := hopElems f w
  if n * per < x.raw.length then none
  else some ((List.range n).map (fun k =>
    padTo ((o.f - 1) * (256 * max 1 o.p256) + 256) (landingBytes f (x.part (k * per) (min per (x.raw.length - k * per))))))

/-- Emit a whole value of a SELECT ordinal, chunk by chunk (R128); one that its frames cannot carry aborts the ordinal
(R579). -/
def PrivetRun.emitWhole (r : PrivetRun) (s : State) (o : OutRec) (cut : Option (List (List Byte))) : State :=
  match cut with
  | none => abortHere s r.job r.epoch r.e.ordinal .range
  | some bs => ((ownChunks s r.job r.e).zip bs).foldl (fun s k => r.emit s o.lo o.hi k.1 false k.2) s

/-- Send position block `rank` of the sorted sequence to its member (R138). -/
def PrivetRun.sendBlock (r : PrivetRun) (s : State) (o : OutRec) (m : Nat × Nat) (bs : List Byte) : State :=
  let ks := memberConsumer s r.job m
  match cutBytes o (ownChunks s r.job r.e).length bs with
  | none => abortHere s r.job r.epoch r.e.ordinal .range
  | some bs => ((ownChunks s r.job r.e).zip bs).foldl (fun s k =>
    if !r.live s || ks.isEmpty || (outAt (r.coll s) m.1 (m.1 + 1) k.1).isSome then s
    else settleMade s (entryDie r.e) r.engine r.job
      (placeOutput s r.job r.epoch r.e.ordinal
        { lo := m.1, hi := m.1 + 1, chunk := k.1, bytes := padFrames k.2, payload := 256 * max 1 o.p256
          check := checkOf s false, engine := r.engine, failures := r.failed.length, consumers := ks }
        (entryDie r.e))) s

/-- The finished result of a SELECT ordinal in the local buffers (R140, R141, R598). The three tensors of TOP_K go into
the first three. -/
def PrivetRun.selFill (r : PrivetRun) (s : State) (rs : List SelRec) : State :=
  let e := r.e
  match e.kind with
  | 12 =>
    if e.buffers.length < 3 then s
    else
      let s := r.fill s 0 0 { raw := rs.map (recRaw e) }
      let s := r.fill s 1 0 { raw := rs.map (·.rank) }
      r.fill s 2 0 { raw := rs.map (·.index) }
  | 11 => if e.buffers.isEmpty then s else (resultBuffers e).foldl (fun s b => r.fill s b 0 (filterLanding e rs)) s
  | _ =>
    let bs := recsRoot e rs
    if e.buffers.isEmpty then s else r.fill s 0 0 (landingOf e.fIn (8 * bs.length / max 1 e.fIn.bits) bs)

/-- Whether what passed a FILTER exceeds the capacity of a receiver here (R136, R141). -/
def filterOver (e : CollEntry) (n : Nat) : Bool :=
  if e.members.isEmpty then (match e.buffers with | (_, cap) :: _ => cap < n | [] => false)
  else (e.members.map (·.1)).any (fun d => receives e d && (match memberCap e d with | some cap => cap < n | none => false))

/-- The output counts of FILTER: the total, and where each source's passing elements land (R141). -/
def filterCounts (e : CollEntry) (rs : List SelRec) : List Byte :=
  (rs.length :: (List.range e.n).map (fun x => (rs.filter (fun q => q.rank < x)).length)).flatMap (leBytes 8)

/-- The result of a SELECT ordinal whose root is computed here: the output counts of FILTER, DOWN, and the local buffers
(R132, R138 to R141, R598). (DEDUCED, assumption 66). -/
def PrivetRun.selRoot (r : PrivetRun) (s : State) (c : Coll) (rs : List SelRec) : State :=
  let e := r.e
  let n := (ownChunks s r.job e).length
  let down := e.outputs.find? (fun o => o.lo == 0 && o.hi == e.n)
  match e.kind with
  | 10 =>
    let o := down.getD { lo := 0, hi := e.n, route := 0, p256 := 16, f := 64, layout := 0, sparseOk := false }
    let s := e.members.foldl (fun s m =>
      let first := ((List.range m.1).map (fun x => (ownCount c e x).getD 0)).sum
      r.sendBlock s o m ((slice rs first ((ownCount c e m.1).getD 0)).flatMap (·.bytes))) s
    r.selFill s rs
  | 12 =>
    let s := match down with
      | some o => r.emitWhole s o (cutBytes o n (recsRoot e rs))
      | none => s
    r.selFill s rs
  | _ =>
    if filterOver e rs.length then abortHere s r.job r.epoch e.ordinal .range
    else
      let s := (e.members.filter (fun m => receives e m.1)).foldl (fun s m =>
        r.emitCounts s m.1 (m.1 + 1) (memberConsumer s r.job m) false (filterCounts e rs)) s
      let s := setColl s r.job r.epoch e.ordinal (fun c => { c with filterCounts := true })
      let s := match down with
        | some o => r.emitWhole s o (cutLanding e.fIn o n (filterLanding e rs))
        | none => s
      r.selFill s rs

/-- The input that an OUTPUT record of a SELECT ordinal sends on, where one stands for its node. The run of a single
member is none: its module makes the result of it. -/
def selSent (e : CollEntry) (o : OutRec) : Option InRec :=
  if e.n = 1 && isRaw e o.lo o.hi then none else e.inputs.find? (fun i => i.lo == o.lo && i.hi == o.hi)

/-- The nodes of a SELECT ordinal: computed at one time, each noted and emitted once (R138 to R141). -/
def PrivetRun.selNodes (r : PrivetRun) (s : State) : State :=
  let e := r.e
  let c := r.coll s
  if !selReady s r.job c e then s
  else
    let env := (selValues s r.job c e).1
    let at' (k : Nat × Nat) : Option (List SelRec) := (env.find? (fun x => x.1 == k)).map (·.2)
    let s := r.noted s ((selRuns s r.job c e).filter (fun y => !hasRun c y.chunk (y.lo, y.hi)))
    let s := (outKeys e).foldl (fun s k =>
      match e.outputs.find? (fun o => o.lo == k.1 && o.hi == k.2), at' k with
      | some o, some rs =>
        if (o.lo = 0 && o.hi = e.n) || (selSent e o).isSome then s
        else r.emitWhole s o (cutBytes o (ownChunks s r.job e).length (recsOut e rs))
      | _, _ => s) s
    match at' (0, e.n) with
    | some rs => if (r.coll s).aborted then s else r.selRoot s c rs
    | none => s

/-- A finished result, and a run that another module works on, goes on as it stands, chunk by chunk (R56, R132). -/
def PrivetRun.selForward (r : PrivetRun) (s : State) : State :=
  (outKeys r.e).foldl (fun s k =>
    match (r.e.outputs.find? (fun o => o.lo == k.1 && o.hi == k.2)).bind (selSent r.e) with
    | some i => (ownChunks s r.job r.e).foldl (fun s ch =>
        let c := r.coll s
        if (inpAt c i.rank ch).acked then r.emit s i.lo i.hi ch true (heldBytes c i.rank ch) else s) s
    | none => s) s

/-- The records of a finished result that an input delivers (R140, R141). FILTER shows no count of its own: as many
elements count as the buffers hold. (DESIGN CHOICE, assumption 137). -/
def finishedRecs (c : Coll) (e : CollEntry) (i : InRec) : List SelRec :=
  let kb := keyBytes e
  if e.kind = 12 then
    let bs := sourceBytes c e i.rank
    let k := topCount e
    (List.range k).map (fun j =>
      { key := 0, rank := leVal (slice bs (k * kb + 4 * j) 4), index := leVal (slice bs (k * kb + 4 * k + 4 * j) 4)
        bytes := slice bs (j * kb) kb })
  else if e.kind = 11 then
    let xs := (List.range e.chunks).flatMap (fun k =>
      let x := landingOf e.fIn (hopElems e.fIn (heldBytes c i.rank k).length) (heldBytes c i.rank k)
      x.raw.zipIdx.map (fun p => leBytes kb p.1 ++
        if e.fIn.isMx then [BitVec.ofNat 8 (x.scales.getD (p.2 / 32) 0)] else []))
    let cap := ((resultBuffers e).filterMap (fun b => (e.buffers[b]?).map (·.2))).foldl min xs.length
    (xs.take cap).map (fun b => { key := 0, rank := 0, index := 0, bytes := b })
  else
    let w := max 1 (bodyBytes e)
    let bs := sourceBytes c e i.rank
    let n := ((List.range e.n).map (fun x => (ownCount c e x).getD 0)).sum
    (List.range (min n (bs.length / w))).map (fun j => { key := 0, rank := 0, index := j, bytes := slice bs (j * w) w })

/-- A finished result that an input has delivered whole lands in the local buffers (R598). -/
def PrivetRun.selLand (r : PrivetRun) (s : State) : State :=
  let c := r.coll s
  match selFinished r.e with
  | some i => if allAcked c (ownChunks s r.job r.e) [i] then r.selFill s (finishedRecs c r.e i) else s
  | none => s

/-- Whether a value that the module is to send has not been placed: its engine waits (R375). -/
def PrivetRun.selLeft (r : PrivetRun) (s : State) : Bool :=
  let c := r.coll s
  let due := (outKeys r.e).filter (fun k => computesNode r.e k.1 k.2 || r.e.inputs.any (fun i => (i.lo, i.hi) == k))
  (ownChunks s r.job r.e).any (fun k => due.any (fun o => (outAt c o.1 o.2 k).isNone))

/-- One run of a SELECT ordinal: a finished result goes on, the nodes are computed once their inputs are there, and when
everything has been sent and has landed the chunks are formed (R132, R138 to R141). (DEDUCED, assumption 38). -/
def PrivetRun.select (r : PrivetRun) (s : State) : State :=
  let e := r.e
  if (r.coll s).formed.length = (ownChunks s r.job e).length then s
  else
    let s := r.selNodes (r.selForward s)
    let ready := allAcked (r.coll s) (ownChunks s r.job e) e.inputs && (!countsPhase e || (r.coll s).countsDone)
    if !ready || !r.live s || r.selLeft s then s
    else
      let s := r.selLand s
      if (r.coll s).aborted then s else (ownChunks s r.job e).foldl (fun s k => r.markFormed s k) s

/-! ### Express nodes -/

/-- OP/FMT/COUNT of an express cell: the packed elements' operator, format and count (R146). -/
def ofcOf (e : CollEntry) (f : Fmt) : Nat :=
  (if e.kind = 4 then 0 else e.op.code) <<< 10 + f.code <<< 5 + (e.m.getD 1 - 1)

/-- The planned inputs of an express collective whose cells are here. -/
def expressIns (c : Coll) (e : CollEntry) : List InRec :=
  e.inputs.filter (fun i => inputRec e i.rank == some i && c.express.any (fun z => z.rank == i.rank))

/-- The payload of the cell of a RANK. -/
def expressCell (c : Coll) (rank : Nat) : List Byte :=
  match c.express.find? (fun z => z.rank == rank) with
  | some z => z.bytes
  | none => []

/-- The express inputs that the node plan works on. -/
def expressParts (c : Coll) (e : CollEntry) : List InRec :=
  (expressIns c e).filter (fun i => e.kind != 4 && !isFinished e i.lo i.hi)

/-- The input that delivers the result of an express collective: a finished root, or the root member's elements of a
BROADCAST. -/
def expressRoot (c : Coll) (e : CollEntry) : Option InRec :=
  (expressIns c e).find? (fun i => e.kind == 4 || isFinished e i.lo i.hi)

/-- What the cells of an express collective allow: nodes, the root in the output format, and what each computation
raises (R145 to R148). -/
def expressNodes (x : ChunkCtx) : Reduced :=
  let e := x.e
  let c := x.coll
  let key := (0, e.n)
  let ins : List Entered := (expressParts c e).map (fun i => (i, inputVal x i 0 (expressCell c i.rank)))
  let (env, runs) := runPlan x ins 0
  match nodeAt env key with
  | some v =>
    let (bs, w, g) := finishRoot x v
    let one : List ChunkRun := if e.n = 1 then
      [{ chunk := 0, lo := 0, hi := 1, flags := (enteredRun ins key).1, anomalies := [] }] else []
    { env := env, root := some (bs, w)
      runs := (runs ++ one).map (fun r => if (r.lo, r.hi) == key then { r with flags := r.flags ||| g } else r) }
  | none =>
    { env := env, runs := runs
      root := (expressRoot c e).map (fun i => ((expressCell c i.rank).take (e.fOut.bytes x.n), .dense [])) }

/-- The elements of an express OUTPUT, where they are there: format, whether they are a copy, and bytes. -/
def expressValue (x : ChunkCtx) (red : Reduced) (o : OutRec) : Option (Fmt × Bool × List Byte) :=
  let e := x.e
  let sent := if e.n = 1 && e.kind != 4 && isRaw e o.lo o.hi then none
    else (expressIns x.coll e).find? (fun i => i.lo == o.lo && i.hi == o.hi)
  match sent with
  | some i => some (if e.kind = 4 then e.fIn else inFormat e i.lo i.hi, true, expressCell x.coll i.rank)
  | none =>
    if o.lo = 0 && o.hi = e.n then red.root.map (fun z => (e.fOut, e.kind == 4, z.1))
    else if isRaw e o.lo o.hi then none
    else (nodeAt red.env (o.lo, o.hi)).map (fun v => (e.fAcc, false, denseBytesOf x e.fAcc v))

/-- An express collective at this module: the cells that are here give their nodes, whose result cells go out once each;
the root lands, and the node is complete when every planned cell has come (R132, R145 to R148, R440). -/
def PrivetRun.express (r : PrivetRun) (s : State) : State :=
  match topOf s r.job with
  | none => s
  | some t =>
    let e := r.e
    let c := r.coll s
    let m := e.m.getD 1
    let x : ChunkCtx := { s := s, job := r.job, top := t, e := e, coll := c, a := 0, n := m }
    let red := expressNodes x
    let fresh := red.runs.filter (fun y => !hasRun c 0 (y.lo, y.hi))
    let s := r.noted s fresh
    let due := (outKeys e).filter (fun k => !hasRun c 0 k)
    let gone := due.filter (fun k => (e.outputs.find? (fun o => (o.lo, o.hi) == k)).any (fun o => (expressValue x red o).isSome))
    let s := (e.outputs.filter (fun o => due.contains (o.lo, o.hi))).foldl (fun s o =>
      match expressValue x red o, routeAt s r.job o.route with
      | some (fm, copied, bs), some rt =>
        if routeInForce s rt then
          originate s { cell := true, typ := 1, job := r.job, epoch := r.epoch % 4, ordinal := e.ordinal % 2 ^ 16
                        rank := o.lo, route := cellRoute rt.image
                        ofc := checkOf s copied <<< 14 + ofcOf e fm, payload := padTo 40 bs }
        else s
      | _, _ => s) s
    let marks := gone.filter (fun k => !fresh.any (fun y => (y.lo, y.hi) == k))
    let s := if marks.isEmpty then s else setColl s r.job r.epoch e.ordinal (fun c => { c with
      ran := c.ran ++ marks.map (fun k => { chunk := 0, lo := k.1, hi := k.2, flags := 0, anomalies := [] }) })
    let s := match red.root with
      | some z => if (r.coll s).roots.isEmpty then placeRoot s r.job r.epoch e 0 z.1 [] else s
      | none => s
    if (r.coll s).aborted || !(e.inputs.all (fun i => c.express.any (fun z => z.rank == i.rank))) then s
    else
      let s := setColl s r.job r.epoch e.ordinal (fun c => { c with expressDone := true, formed := [0] })
      chunkReached s e r.job r.epoch e.ordinal 0

/-! ### The command -/

/-- Whether a run of a chunk would compute something that has not been computed (R211, R435). -/
def computesNow (s : State) (job epoch : Nat) (e : CollEntry) (chunk : Nat) : Bool :=
  let c := collAt s job epoch e.ordinal
  if chunk = 0xFFFFFF then false
  else if e.express then
    (nodesFrom e ((expressParts c e).map (fun r => (r.lo, r.hi)))).any (fun k => !hasRun c 0 k)
  else if isReduction e.kind then !(freshNodes s job epoch e c chunk).isEmpty
  else isSelect e.kind && selReady s job c e && (selParts e).any (fun i => !hasRun c chunk (i.lo, i.hi))

/-- The units that may run a chunk, in order: the engine of its plan and its alternates, or for the predicate of FILTER
the chain group and its own (R141, R214, R219, R230). -/
def chunkUnits (s : State) (job : Nat) (e : CollEntry) (chunk : Nat) : List Nat :=
  let die := entryDie e
  if filterWork e chunk then groupUnits s die (shardGroup s job die)
  else engineUnits s die (engineOf e (if chunk = 0xFFFFFF then 0 else chunk))

/-- The failed executions of a run that computes, before one that succeeds. With residue checking off an express node
is computed twice on lanes of one engine, and a mismatch of the two fails it (R148, R434).
(DESIGN CHOICE, assumption 5). -/
def runFailures (s : State) (e : CollEntry) (u : Upset) : List FaultAt :=
  match u with
  | .residue fs => if s.integ.residue || e.express then fs else []
  | _ => []

/-- Errors of a run: each failed execution is logged against its unit (R148, R434, R452); an uncorrectable read is noted
as R415 says; corrected words are counted. -/
def privetErrors (s : State) (e : CollEntry) (job chunk : Nat) (failed : List (Nat × FaultAt)) (u : Upset) : State :=
  let die := entryDie e
  match u with
  | .clean => s
  | .corrected n => bumpMmu s die 6 n
  | .uncorrectable key => eccError s die key job e.ordinal chunk
  | .residue _ =>
    if failed.isEmpty then s
    else if filterWork e chunk then residueErrors s 1 die job e.ordinal chunk (failed.map (fun x => (x.2.core x.1, x.2)))
    else if s.integ.residue then residueErrors s 0 die job e.ordinal chunk failed
    else failed.foldl (fun s x => logError (icnt s 2 1) 2 0 die x.1 0 job e.ordinal chunk x.2.class) s

/-- The last chunk that an engine ran, as RDE.ENG_STATUS shows it (R231). (DEDUCED, assumption 73). -/
def noteEngine (s : State) (die e job ord chunk : Nat) (pair : Bool) : State :=
  let v := (job % 16) <<< 52 + (ord % 2 ^ 16) <<< 36 + (chunk % 2 ^ 24) <<< 12 + (if pair then 1 else 0)
  { s with coll := { s.coll with engLast := insertKey s.coll.engLast (16 * die + e) v } }

/-- Whether a sampled duplicate of a chunk is still to compare (R436). -/
def chunkDup (s : State) (job epoch ord chunk : Nat) : Bool :=
  s.integ.dups.any (fun d => d.kind == 0 && d.job == job && d.epoch == epoch && d.ordinal == ord && d.chunk == chunk)

/-- Whether a chunk is being computed for the first time, so that the sampling of R435 counts it. -/
def chunkFirst (s : State) (job epoch : Nat) (e : CollEntry) (chunk : Nat) : Bool :=
  !e.express && computesNow s job epoch e chunk
    && !(collAt s job epoch e.ordinal).ran.any (fun r => r.chunk == chunk)

/-- Count and perhaps sample a chunk that unit `g` computes first; the count is that of the engine of its plan (R435,
R436). -/
def sampleChunk (s : State) (job epoch ord chunk die eng g failures : Nat) : State :=
  let r := sampleTile (countTile s 0 die) 0 die eng job
  if r.2 then setInteg r.1 (fun i => { i with dups := i.dups ++
      [{ kind := 0, die := die, unit := g, job := job, epoch := epoch, ordinal := ord, chunk := chunk
         failures := failures }] })
  else r.1

/-- Unit `g` runs a chunk after the failed executions: the counts phase, an express chunk, or the chunk's kind. Then
inputs that have served their purpose are dropped (R57). -/
def runChunk (s : State) (job epoch : Nat) (e : CollEntry) (chunk eng g : Nat) (failed : List Nat) : State :=
  let die := entryDie e
  let ord := e.ordinal
  let s := if chunkFirst s job epoch e chunk then sampleChunk s job epoch ord chunk die eng g failed.length else s
  let r : PrivetRun := { job := job, epoch := epoch, e := e, chunk := chunk
                         engine := if filterWork e chunk then eng else g, unit := g, failed := failed
                         dup := chunkDup s job epoch ord chunk }
  let s := noteEngine s die r.engine job ord chunk (e.fAcc == .pair)
  let s := if chunk = 0xFFFFFF then r.counts s
    else if e.express then r.express s
    else if isReduction e.kind then r.reduce s
    else if isSelect e.kind then r.select s
    else r.move s
  settleColl (releaseSpent s job epoch ord chunk) job epoch ord

/-- A chunk whose executions all fail, or that needs an input that reads poisoned (R148, R415, R446).
(DEDUCED, assumption 117). -/
def chunkFails (s : State) (job epoch : Nat) (e : CollEntry) (chunk : Nat) : State :=
  if e.express then abortHere s job epoch e.ordinal .verify else outputFails s job epoch e.ordinal chunk

/-- The executions of a chunk up to the one that succeeds (R148, R230, R434, R446). -/
def executeChunk (s : State) (job epoch : Nat) (e : CollEntry) (chunk : Nat) (u : Upset) : State :=
  let eng := engineOf e (if chunk = 0xFFFFFF then 0 else chunk)
  let computes := computesNow s job epoch e chunk
  let us := chunkUnits s job e chunk
  let fs := if computes then runFailures s e u else []
  let k := fs.length
  let limit := if e.express then 2 else 3
  let failed := us.take (min k limit)
  let s := privetErrors s e job chunk (failed.zip fs) u
  let poisoned := match u with
    | .uncorrectable _ => computes
    | _ => false
  if poisoned || limit ≤ k then chunkFails s job epoch e chunk
  else
    match us[k]? with
    | none => chunkFails s job epoch e chunk
    | some g => runChunk s job epoch e chunk eng g failed

/-- PRIVET_CHUNK (R211 to R214): one run of chunk `chunk` of an eligible ordinal; chunk 0xFFFFFF is the counts
phase. A run emits every value that the ACKed inputs allow and that has not been emitted.
(DESIGN CHOICE, assumption 5; DEDUCED, assumption 6). -/
def doPrivetChunk (job epoch ord chunk : Nat) (u : Upset) (ptr : Option Nat) (s : State) : State :=
  match topOf s job, entryOf s job ord with
  | some t, some e =>
    let c := collAt s job epoch ord
    let die := entryDie e
    let o := (jobAt s job).oldest
    let eng := engineOf e (if chunk = 0xFFFFFF then 0 else chunk)
    let ready := c.eligible && !c.aborted && !c.completed && o ≤ epoch && epoch < o + t.epochLimit
    if !ready || !engineFree s die eng job then s
    else
      match ptr.bind (pointerCheck (bpmAt s (1 + die)) (reqId 1 (16 * die + eng) job) 0) with
      | some v => freeze s (1 + die) (reqId 1 (16 * die + eng) job) 0 v (ptr.getD 0)
      | none =>
        let count := chunk = 0xFFFFFF
        if !count && (e.chunks ≤ chunk || !ownHalf s job e chunk) then s
        else if !count && e.inputs.isEmpty then emitCasts s job
        else if e.express && c.expressDone then s
        else if !count && countsPhase e && !c.countsDone then s
        else if !count && !e.express && isReduction e.kind && !planTurn s job epoch e chunk then s
        else executeChunk s job epoch e chunk u
  | _, _ => s

/-! ### CALL_COLL -/

/-- The lowest epoch from the queue's call epoch on in which it has not yet called an ordinal (R267).
(DEDUCED, assumption 116). -/
def callEpochOf (Q : Queue) (ord : Nat) : Nat → Nat → Nat
  | 0, e => e
  | fuel + 1, e => if Q.calls.contains (ord, e) then callEpochOf Q ord fuel (e + 1) else e

/-- CALL_COLL (R151, R243, R267). A call of an ordinal that is complete here completes at once.
(DEDUCED, assumption 69). -/
def doCallColl (q : Nat) (s : State) : State :=
  issue 0xB0 q s (fun w Q s =>
    let ord := field w 31 0
    let async := field w 50 50 == 1
    let flag := field w 49 42
    match entryOf s Q.job ord with
    | none => .refuse .range
    | some _ =>
      let ep := callEpochOf Q ord (Q.calls.length + 1) Q.callEpoch
      let s := setQueue s q (fun Q => { Q with calls := Q.calls ++ [(ord, ep)] })
      let c := collAt s Q.job ep ord
      if collDone s Q.job ep ord then .done (if async then setJobFlag s Q.job flag true else s)
      else if c.eligible && !c.aborted then
        if async then .done (setQueue s q (fun Q => { Q with asyncs := Q.asyncs ++ [(ord, ep, flag)] }))
        else .stay (enterWait s q (.collective ord ep))
      else .stay (enterWait s q (.eligible ord ep async flag)))

end Sys2Proof.Machine
end

