-- ==== Sys2Proof/Machine/Sync.lean ====
section
/-! DEFINITION. Flags, fences and deadlines (R268 to R270), DMA copies and run-ahead (R266, R419 to
R422), tiered pages (R416, R417) and pre-emption (R425). -/

namespace Sys2Proof.Machine

/-! ### Flags -/

/-- FLAG_SET (R237, R268, R293): the set is issued. The queue goes on, or is in WAIT until the set takes effect: which of
the two is a free value. (DEDUCED, assumption 7). -/
def doFlagSet (q : Nat) (s : State) : State :=
  issue 0xA0 q s (fun w _ s =>
    let s := setQueue s q (fun Q => { Q with flagSets := Q.flagSets ++ [wYFlag w] })
    let (x, s) := drawFree s
    if x.getLsbD 0 then .stay (enterWait s q (.flagSet (wYFlag w))) else .done s)

/-- FLAG_SET_EFFECT (R268): the oldest issued set of the queue takes effect. (DEDUCED, assumption 7). -/
def doFlagSetEffect (q : Nat) (s : State) : State :=
  let Q := queueAt s q
  match Q.flagSets with
  | [] => s
  | f :: rest =>
    let s := setJobFlag (setQueue s q (fun Q => { Q with flagSets := rest })) Q.job f true
    match Q.wait, rest with
    | .flagSet _, [] => endWait s q
    | _, _ => s

/-- FLAG_CLEAR (R268). -/
def doFlagClear (q : Nat) (s : State) : State :=
  issue 0xA1 q s (fun w Q s => .done (setJobFlag s Q.job (wYFlag w) false))

/-- The deadline of FLAG_WAIT in ns: DL × 8 ns × f, with f in quarters (R269). -/
def flagDeadline (dl stretchQ : Nat) : Nat := dl * 2 * stretchQ

/-- FLAG_WAIT (R269): a flag that is 1 lets the queue pass. -/
def doFlagWait (q : Nat) (s : State) : State :=
  issue 0xA2 q s (fun w Q s =>
    if jobFlag s Q.job (wYFlag w) then .done s
    else .stay (enterWait
      (setQueue s q (fun Q => { Q with deadline := flagDeadline (wDL w) s.stretchQ }))
      q (.flag (wYFlag w))))

/-- FLAG_WAIT_SATISFIED (R269, R424). -/
def doFlagWaitSatisfied (q : Nat) (s : State) : State :=
  let Q := queueAt s q
  match Q.st, Q.wait with
  | .wait, .flag f => if jobFlag s Q.job f then endWait s q else s
  | _, _ => s

/-- FLAG_WAIT_DEADLINE (R269, R296): no time is left. -/
def doFlagWaitDeadline (q : Nat) (s : State) : State :=
  let Q := queueAt s q
  match Q.st, Q.wait with
  | .wait, .flag f => if Q.deadline = 0 then haltQueue s q .deadline f else s
  | _, _ => s

/-- Work that a queue has dispatched and that has not completed (R237, R270). -/
def outstanding (s : State) (q : Nat) : Bool :=
  let Q := queueAt s q
  !Q.flagSets.isEmpty || !Q.asyncs.isEmpty
  || s.comp.laurel.any (fun ws => ws.any (fun w => w.queue == q && !w.fromMtx))
  || s.comp.chans.any (fun c => c.2.copies.any (fun k => k.queue == q))

/-- FENCE (R270). -/
def doFence (q : Nat) (s : State) : State :=
  issue 0xA3 q s (fun _ _ s => if outstanding s q then .stay (enterWait s q .fence) else .done s)

/-- FENCE_COMPLETE (R270). -/
def doFenceComplete (q : Nat) (s : State) : State :=
  let Q := queueAt s q
  match Q.st, Q.wait with
  | .wait, .fence => if outstanding s q then s else endWait s q
  | _, _ => s

/-! ### DMA -/

/-- The index of a DMA queue's channel in the channel list (R419). -/
def chanOf (Q : Queue) (q : Nat) : Nat := 32 * Q.die + q % 32

/-- A channel. -/
def chanAt (s : State) (i : Nat) : Channel := lookupD s.comp.chans i {}

/-- Replace a channel. -/
def setChan (s : State) (i : Nat) (c : Channel) : State :=
  { s with comp := { s.comp with chans := insertKey s.comp.chans i c } }

/-- The source and destination of a DMA_COPY (R266). -/
def dmaTensors (s : State) (Q : Queue) (w : Word) : Except Res (Tensor × Tensor) :=
  match topOf s Q.job with
  | none => .error .format
  | some t =>
    match resolve t (Q.h.getD (wR3 w) {}), resolve t (Q.h.getD (wR2 w) {}) with
    | .error e, _ => .error e
    | _, .error e => .error e
    | .ok d, .ok x =>
      if elemCount d != elemCount x || d.fmt != x.fmt || d.sparse || x.sparse || d.fmt == .int64 then
        .error .format
      else if !(baseAligned d && baseAligned x) then .error .align else .ok (d, x)

/-- DMA_COPY (R237, R266): the copy joins its channel and the queue goes on. A channel context holds
64 copies of a job (R427); the word waits while they are all in flight.
(DEDUCED, assumption 6; DEDUCED, assumption 17). -/
def doDmaCopy (q : Nat) (s : State) : State :=
  issue 0xC0 q s (fun w Q s =>
    match dmaTensors s Q w with
    | .error r => .refuse r
    | .ok (d, x) =>
      let i := chanOf Q q
      let c := chanAt s i
      if 64 ≤ (c.copies.filter (fun k => k.job == Q.job)).length then .stay s
      else
        let k : Copy :=
          { queue := q, job := Q.job, word := w, inSeg := Q.inSeg, seg := Q.seg, pc := queuePc Q
            src := x, dst := d, block := 0
            flag := if field w 42 42 = 1 then some (field w 41 34) else none
            feedId := if d.digest.isNone then none else some Q.feedNext, fed := [] }
        .done (holdFeed (setChan s i { c with copies := c.copies ++ [k] }) q k.feedId))

/-- Words that stop run-ahead (R420). -/
def stopsRunAhead (w : Word) : Bool :=
  let op := wOpcode w
  wGE w || op == 0x01 || op == 0x02 || op == 0x03 || op == 0x04 || op == 0x06
  || (0x08 ≤ op && op ≤ 0x18) || op == 0x1A || op == 0x1C || op == 0x1E
  || (0x20 ≤ op && op ≤ 0x22) || op == 0xE0

/-- The words from a queue's current word on. -/
def wordsAhead (s : State) (q : Nat) : List Word :=
  let Q := queueAt s q
  if Q.inSeg then (segWords s Q.job Q.seg).drop Q.pc else Q.ring

/-- Bytes of a row and of a whole tensor's elements, and of its block scales. -/
def copyBytes (t : Tensor) : Nat × Nat :=
  (t.fmt.bytes (szOf0 t) * rowCount t, if t.fmt.isMx then elemCount t / 32 else 0)
where
  szOf0 (t : Tensor) : Nat := t.sizes.headD 1

/-- The 4 KiB blocks of a copy: element bytes first, then scale bytes (R266, R419). -/
def copyBlocks (t : Tensor) : Nat :=
  let (e, sc) := copyBytes t
  ceilDiv e 4096 + ceilDiv sc 4096

/-- The address of byte `k` of a tensor's element bytes in element order, and the bytes left in its
row. -/
def streamByte (t : Tensor) (k : Nat) : Int × Nat :=
  let rb := max 1 (t.fmt.bytes (t.sizes.headD 1))
  let r := k / rb
  (t.base + rowOffset t.strides (coordsOf t.sizes (r * t.sizes.headD 1)) + (k % rb : Nat), rb - k % rb)

/-- The address of scale byte `k` in block order. -/
def streamScale (t : Tensor) (k : Nat) : Int × Nat :=
  let per := max 1 (t.sizes.headD 1 / 32)
  let r := k / per
  match t.scale with
  | some l => (l.base + rowOffset l.strides (coordsOf t.sizes (r * t.sizes.headD 1)) + (k % per : Nat),
      per - k % per)
  | none => (t.base, per - k % per)

/-- Runs of contiguous bytes of a copy: source, destination, length. -/
def copyRuns (f g : Nat → Int × Nat) : Nat → Nat → Nat → List (Int × Int × Nat)
  | 0, _, _ => []
  | _, _, 0 => []
  | fuel + 1, k, n =>
    let (x, m) := f k
    let (y, m') := g k
    let l := max 1 (min n (min m m'))
    (x, y, l) :: copyRuns f g fuel (k + l) (n - l)

/-- The runs of block `b` of a copy, whether they are element bytes, and the spaces they lie in. -/
def blockRuns (k : Copy) (b : Nat) : List (Int × Int × Nat) × Bool :=
  let (e, sc) := copyBytes k.src
  let eb := ceilDiv e 4096
  if b < eb then
    (copyRuns (streamByte k.src) (streamByte k.dst) 4096 (4096 * b) (min 4096 (e - 4096 * b)), true)
  else
    let o := 4096 * (b - eb)
    (copyRuns (streamScale k.src) (streamScale k.dst) 4096 o (min 4096 (sc - o)), false)

/-- The accesses of a block (R413). -/
def blockAccs (k : Copy) (b : Nat) : List Acc :=
  let (rs, elem) := blockRuns k b
  let spS := if elem then k.src.space else (k.src.scale.map (·.space)).getD 0
  let spD := if elem then k.dst.space else (k.dst.scale.map (·.space)).getD 0
  rs.flatMap (fun r => [⟨r.1, r.2.2, false, spS⟩, ⟨r.2.1, r.2.2, true, spD⟩])

/-- DMA_RUN_AHEAD (R420): one more word is prefetched; a DMA_COPY's translations fill the channel
TLB and nothing else is observed. -/
def doDmaRunAhead (q : Nat) (s : State) : State :=
  let Q := queueAt s q
  if Q.bound ∧ Q.qtype = .dma ∧ Q.st = .run ∧ Q.runAhead < 64 then
    let ws := wordsAhead s q
    if ((ws.take (Q.runAhead + 2)).any stopsRunAhead) then s
    else
      match ws[Q.runAhead + 1]? with
      | none => s
      | some w =>
        let s := setQueue s q (fun Q => { Q with runAhead := Q.runAhead + 1 })
        if wOpcode w = 0xC0 then
          match dmaTensors s Q w with
          | .ok (d, x) =>
            let k : Copy := ⟨q, Q.job, w, false, 0, 0, x, d, 0, none, none, []⟩
            tlbTouch s Q.die (512 + q % 32) 64 Q.job
              (accPages s Q.job ((List.range (copyBlocks x)).flatMap (blockAccs k)))
          | .error _ => s
        else s
  else s

/-- The copy that a channel runs next: in issue order, of a queue that is neither pre-empted nor
frozen (R380, R419, R425). -/
def nextCopy (s : State) (c : Channel) : Option Copy :=
  c.copies.find? (fun k =>
    let st := (queueAt s k.queue).st
    st != .preempted && st != .frozen)

/-- A DMA fault (R422): MMU.FAULT and the halt record name the copy; the copy and the queue's later
copies are dropped. A queue that had gone IDLE with the copy in flight stays IDLE (R294).
(DEDUCED, assumption 17). -/
def dmaFault (s : State) (i : Nat) (k : Copy) (kind : Nat) (va : Int) (write : Bool) : State :=
  let s := recordFault s k.job (i / 32) kind .dma write k.queue va
  let c := chanAt s i
  let s := setChan s i { c with copies := c.copies.filter (fun x => x.queue != k.queue) }
  let s := (c.copies.filter (fun x => x.queue == k.queue)).foldl (fun s x => feedHeld s x.queue x.feedId x.fed) s
  haltAt s k.queue (faultCause kind) 0 k.inSeg k.seg k.pc k.word

/-- Whether an access touches a tiered page that is being moved (R418). -/
def pageMoving (s : State) (job : Nat) (a : Acc) : Bool :=
  match topOf s job with
  | none => false
  | some t => (pieces a).any (fun p =>
      match findMap t p.1 with
      | some r => r.space == 2 && (framesOf s job r.die).any (fun f =>
          match f.st with
          | .writeBack old new _ => old == p.1.toNat / 2 ^ 21 || new == p.1.toNat / 2 ^ 21
          | .filling pg _ => pg == p.1.toNat / 2 ^ 21
          | _ => false)
      | none => false)

/-- Poison follows the data of a DMA block (R415): a destination byte of a poisoned source word, or
of the source byte that met an uncorrectable error, marks its 64-byte word. (DEDUCED, assumption 110). -/
def poisonRun (s0 s : State) (job : Nat) (bad : Option Nat) (r : Int × Int × Nat) : State :=
  (List.range r.2.2).foldl (fun s (j : Nat) =>
    match xlate s0 job (r.1 + j), xlate s job (r.2.1 + j) with
    | some a, some b =>
      if s0.comp.mem.poisonedIn a 1 || bad.any (fun k => k / 64 == a / 64) then
        { s with comp := { s.comp with mem := s.comp.mem.setPoison b } }
      else s
    | _, _ => s) s

/-- What the current block of a copy writes (R266, R419). (DEDUCED, assumption 16). -/
def blockWrites (s : State) (k : Copy) : List WriteOp :=
  let (rs, elem) := blockRuns k k.block
  let sp := if elem then k.dst.space else (k.dst.scale.map (·.space)).getD 0
  rs.map (fun r => ⟨r.2.1, readVAs s k.job r.1 r.2.2, sp, k.dst.digest, 4096 * k.block⟩)

/-- Move one block: bytes and poison. -/
def moveBlock (s : State) (k : Copy) (bad : Option Nat) : State :=
  (blockRuns k k.block).1.foldl (fun s' r => poisonRun s s' k.job bad r) (writeOps s k.job (blockWrites s k))

/-- After a block that wrote `ws`: the next block, or the end of the copy with its digest feed (R273) and its flag
(R419). (DEDUCED, assumption 16). -/
def finishBlock (s : State) (i : Nat) (k : Copy) (ws : List WriteOp) : State :=
  let c := chanAt s i
  let fed := k.fed ++ feedsOf ws
  if k.block + 1 < copyBlocks k.src then
    setChan s i { c with waiting := false
                         copies := updateFirst (fun x => x == k) (fun x => { x with block := x.block + 1, fed := fed }) c.copies }
  else
    let s := feedHeld (setChan s i { c with waiting := false, copies := c.copies.erase k }) k.queue k.feedId fed
    match k.flag with
    | some f => setJobFlag s k.job f true
    | none => s

/-! ### Tiered pages -/

/-- The frames of `fs` that a reservation may take, best first: free ones, then unheld residents by
the time they became resident (R417), pages of the work itself left alone. -/
def takeable (fs : List Frame) (pages : List Nat) : List Nat :=
  let idx := fs.zipIdx
  let free := (idx.filter (fun p => p.1.st == .free && p.1.heldBy.isEmpty)).map Prod.snd
  let res := idx.filter (fun p => match p.1.st with
    | .resident pg => p.1.heldBy.isEmpty && !pages.contains pg
    | _ => false)
  free ++ (res.mergeSort (fun a b => a.1.filledAt ≤ b.1.filledAt)).map Prod.snd

/-- Begin the move of page `pg` into frame `i` for queue `q`. (DEDUCED, assumption 24). -/
def beginMove (fs : List Frame) (i pg q : Nat) : List Frame :=
  fs.modify i (fun f => match f.st with
    | .resident old => { f with heldBy := [q], st := if f.dirty then .writeBack old pg q else .filling pg q }
    | _ => { f with heldBy := [q], st := .filling pg q })

/-- TIER_FRAME_RESERVE (R416, R417): all missing pages get a frame at one moment, or none does.
(DEDUCED, assumption 24). -/
def doTierFrameReserve (q : Nat) (s : State) : State :=
  match s.comp.tierFaults.find? (fun t => t.queue == q && !t.reserved) with
  | none => s
  | some t =>
    let fs := framesOf s t.job t.die
    let isRes (p : Nat) := fs.any (fun f => f.st == .resident p)
    let inMotion (p : Nat) := fs.any (fun f => match f.st with
      | .writeBack o n _ => o == p || n == p
      | .filling n _ => n == p
      | _ => false)
    let missing := t.pages.filter (fun p => !isRes p)
    let cand := takeable fs t.pages
    if missing.any inMotion || cand.length < missing.length then s
    else
      let olds := (missing.zip cand).filterMap (fun m => match (fs.getD m.2 default).st with
        | .resident p => some p
        | _ => none)
      let fs := fs.map (fun f => match f.st with
        | .resident p => if t.pages.contains p && !f.heldBy.contains q then
            { f with heldBy := f.heldBy ++ [q] } else f
        | _ => f)
      let fs := (missing.zip cand).foldl (fun fs m => beginMove fs m.2 m.1 q) fs
      let s := setFrames s t.job t.die fs
      let s := { s with comp := { s.comp with
        tierFaults := s.comp.tierFaults.map (fun x => if x == t then { x with reserved := true } else x) } }
      tlbDrop s t.die (fun e => e.1 == t.job && olds.contains (e.2 / 32))

/-- The key of a tiered page's DDR5 home. -/
def homeKey (s : State) (job page : Nat) : Option Nat :=
  match topOf s job with
  | none => none
  | some t => (findMap t ((page * 2 ^ 21 : Nat) : Int)).map (fun r =>
      memKey 2 0 (r.phys * 2 ^ 21 + (page * 2 ^ 21 - r.va)))

/-- Copy one 2 MiB page between keys. -/
def copyPage (s : State) (src dst : Nat) : State :=
  { s with comp := { s.comp with mem := s.comp.mem.copyRange src dst (2 ^ 21) } }

/-- TIER_WRITE_BACK_DONE (R416): the dirty victim of frame `i` is in its home; the new page comes. -/
def doTierWriteBackDone (die job i : Nat) (s : State) : State :=
  let fs := framesOf s job die
  match fs[i]? with
  | some f =>
    match f.st with
    | .writeBack old new q =>
      let s := match homeKey s job old with
        | some h => copyPage s (memKey 1 die (f.hbmPage * 2 ^ 21)) h
        | none => s
      let s := setFrames s job die (fs.set i { f with st := .filling new q, dirty := false })
      bumpMmu s die 2 1
    | _ => s
  | none => s

/-- TIER_MOVE_IN_DONE (R412, R416): the page is resident, the die's TLBs drop its translation, and
the suspended queue's wait ends when none of its pages is missing. -/
def doTierMoveInDone (die job i : Nat) (s : State) : State :=
  let fs := framesOf s job die
  match fs[i]? with
  | some f =>
    match f.st with
    | .filling pg q =>
      let s := match homeKey s job pg with
        | some h => copyPage s h (memKey 1 die (f.hbmPage * 2 ^ 21))
        | none => s
      let s := setFrames s job die (fs.set i { f with st := .resident pg, dirty := false, filledAt := s.now })
      let s := tlbDrop (bumpMmu s die 1 1) die (fun e => e.1 == job && e.2 / 32 == pg)
      match s.comp.tierFaults.find? (fun t => t.queue == q) with
      | none => s
      | some t =>
        if t.reserved && t.pages.all (fun p => (residentFrame s job die p).isSome) then
          let s := { s with comp := { s.comp with
            tierFaults := s.comp.tierFaults.filter (fun x => x.queue != q) } }
          let Q := queueAt s q
          if Q.st = .wait ∧ Q.wait = .tier then
            resumeQueue (setQueue s q (fun Q => { Q with wait := .none })) q
          else if Q.wait = .tier then setQueue s q (fun Q => { Q with wait := .none }) else s
        else s
    | _ => s
  | none => s

/-! ### Pre-emption -/

/-- Whether the executor of a queue stands at a restart point (R227): an element-wise single
instruction under way stops only after the instruction. -/
def atRestartPoint (Q : Queue) : Bool :=
  match Q.work with
  | none => true
  | some wk => wk.isChain || wOpcode wk.word == 0x58 || wk.batch == 0

/-- PREEMPT_STOP (R421, R425): the holder stops at its restart point, saves its context and is
PREEMPTED; a dot-product instruction, and a single instruction that has not begun, is abandoned and
begins again; the freed executor goes to the waiting queue. -/
def doPreemptStop (q : Nat) (s : State) : State :=
  let Q := queueAt s q
  if Q.st = .run ∧ Q.stopAsked ∧ atRestartPoint Q then
    let s := saveContext (squash (bumpMmu s Q.die 9 1) q) q
    let s := setQueue s q (fun Q =>
      { Q with st := .preempted, stopAsked := false
               work := match Q.work with
                 | some wk => if wk.isChain then some wk else none
                 | none => none })
    schedule s
  else s

end Sys2Proof.Machine
end

