-- ==== Sys2Proof/Machine/Engines.lean ====
section
/-! DEFINITION. The batches of a chain group (R215 to R219, R236), the passes of a Laurel array (R220 to
R224), the blocks of a DMA channel (R419), their errors (R415, R434) and sampled duplicates (R435, R436), and
self-test, remap and DEGRADED (R229, R455, R456). -/

namespace Sys2Proof.Machine

/-! ### What every tile does -/

/-- The failures of the executions of a tile, in order: residue checks find them while residue checking is on
(R434). -/
def tileFailures (s : State) (u : Upset) : List FaultAt :=
  match u with
  | .residue fs => if s.integ.residue then fs else []
  | _ => []

/-- A queue's tile that fails for good halts the queue with VERIFY (R446).
(DEDUCED, assumption 72; DEDUCED, assumption 110). -/
def tileFails (s : State) (q job : Nat) : State :=
  haltQueue (setAttn (logError s 7 5 0 0 0 job 0 0 0) aInteg) q .verify 0

/-- The first address among accesses that the physical byte `key` serves. -/
def vaOfKey (s : State) (job key : Nat) (accs : List Acc) : Int :=
  let p := (accs.filter (fun a => !a.write)).flatMap pieces
  match p.find? (fun x => match xlate s job x.1 with
    | some k => k ≤ key && key < k + x.2
    | none => false) with
  | some x => match xlate s job x.1 with
    | some k => x.1 + (key - k : Nat)
    | none => x.1
  | none => match p with
    | x :: _ => x.1
    | [] => 0

/-! ### Hawthorn -/

/-- What a batch of a vector work or chain comes to. -/
def workBatch (s : State) (Q : Queue) (wk : VecWork) : BatchOut :=
  if wk.isChain then chainBatch s Q.job Q wk else vecBatch s Q.job wk

/-- The accesses that a group translates before a batch of a chain, or before the first batch of a single
instruction, whose later batches it has translated already (R413). -/
def workAccs (s : State) (Q : Queue) (wk : VecWork) (o : BatchOut) : List Acc :=
  if wk.isChain then o.accs else if wk.batch = 0 then vecAccs s Q.job wk else []

/-- Batches of a vector work (R236). (DEDUCED, assumption 10). -/
def batchCount (wk : VecWork) : Nat := ceilDiv wk.total 256

/-- The group of the gang that runs the current batch: b mod G (R236). -/
def batchGroup (Q : Queue) (wk : VecWork) : Nat := Q.gangFirst + wk.batch % max 1 Q.gangSize

/-- Whether the queue's current batch, or a shard's current item, waits for its sampled duplicate (R436).
(DEDUCED, assumption 71). -/
def batchHeld (s : State) (q job id : Nat) : Bool :=
  s.integ.dups.any (fun d => d.kind == 1 && d.queue == q && d.job == job && d.ordinal == id)

/-- One execution of a batch on group `g`: its flags go to that group's register and its anomalies count (R94, R96,
R178). -/
def noteBatch (s : State) (q g : Nat) (o : BatchOut) : State :=
  let Q := queueAt s q
  noteAnomalies (flagVec s Q.die g o.flags Q.job) Q.die Q.job 1 0 (o.anomalies.map (fun a => (0, a.1, a.2)))

/-- The bytes that writes replace, where they are not known yet (R256). -/
def oldBytes (s : State) (job : Nat) (old : List (Int × Byte)) (ws : List WriteOp) : List (Int × Byte) :=
  old ++ ((ws.flatMap WriteOp.cells).filter (fun c => !old.any (·.1 == c.1))).map (fun c => (c.1, readVA s job c.1))

/-- A batch that has passed its checks (R228, R255, R434): a chain writes batch by batch, a single instruction when its
last batch is done. Then the next batch follows, or the instruction is complete. (DEDUCED, assumption 71). -/
def commitBatch (s : State) (q : Nat) (wk : VecWork) (o : BatchOut) : State :=
  let Q := queueAt s q
  let last := batchCount wk ≤ wk.batch + 1
  let ws := wk.held ++ o.writes
  let wk := { wk with
    batch := wk.batch + 1, tileOff := o.off, heldEls := o.rest, held := if wk.isChain then [] else ws
    old := if wk.isChain && wk.clash.any id then oldBytes s Q.job wk.old o.writes else wk.old }
  let s := if wk.isChain || last then commitWrites s q Q.job ws else s
  if last then releaseFrames (advance (setQueue s q (fun Q => { Q with work := none })) q) q
  else
    let s := setQueue s q (fun Q => { Q with work := some wk })
    if wk.isChain then releaseFrames s q else s

/-- Residue failures of a batch, each against the core of its group that it struck (R434, R453).
(DEDUCED, assumption 70). -/
def batchErrors (s : State) (die job : Nat) (groups : List Nat) (fs : List FaultAt) : State :=
  residueErrors s 1 die job 0 0 (groups.zipWith (fun g f => (f.core g, f)) fs)

/-- The failed executions of a batch: each is logged, counts the anomalies of its operands and leaves flags in its
group's register (R96, R178, R434). -/
def failedBatches (s : State) (q : Nat) (groups : List Nat) (fs : List FaultAt) (o : BatchOut) : State :=
  let Q := queueAt s q
  let s := batchErrors s Q.die Q.job groups fs
  faultFlags s (fun s g f => noteBatch s q g { o with flags := f }) groups

/-- A batch of a queue's work (R236): translation first (R413), then the checks, then the write or the wait for
its duplicate. -/
def queueBatch (s : State) (q : Nat) (u : Upset) : State :=
  let Q := queueAt s q
  match Q.work with
  | none => s
  | some wk =>
    if !Q.bound || Q.st != .run || batchHeld s q Q.job 0 then s
    else
      let o := workBatch s Q wk
      let accs := workAccs s Q wk o
      match preCheck s Q.job Q.die .group accs with
      | .fault k va w => translationFault s q k .group va w
      | .tier ps => tierFault s q ps
      | .ok =>
        let g := batchGroup Q wk
        let s := holdFrames (tlbTouch s Q.die g 32 Q.job (accPages s Q.job accs)) q (accs.flatMap (tieredPages s Q.job))
        match u with
        | .uncorrectable key =>
          translationFault (eccError s Q.die key Q.job 0 0) q 5 .group (vaOfKey s Q.job key o.accs) false
        | _ =>
          let s := match u with
            | .corrected n => bumpMmu s Q.die 6 n
            | _ => s
          let (s, hit) := sampleTile (countTile s 1 Q.die) 1 Q.die g Q.job
          let fs := tileFailures s u
          let k := fs.length
          let us := groupUnits s Q.die g
          let s := failedBatches s q (us.take (min k 3)) fs o
          if 3 ≤ k then tileFails s q Q.job
          else
            match us[k]? with
            | none => tileFails s q Q.job
            | some g' =>
              let s := noteBatch s q g' o
              if hit then setInteg s (fun i => { i with dups := i.dups ++
                [{ kind := 1, die := Q.die, unit := g', job := Q.job, queue := q, failures := k }] })
              else commitBatch s q wk o

/-- The failed executions of a shard's item: each is logged and leaves flags in its group's register (R96, R434). -/
def failedItems (s : State) (die job : Nat) (groups : List Nat) (fs : List FaultAt) : State :=
  let s := batchErrors s die job groups fs
  faultFlags s (fun s g f => flagVec s die g f job) groups

/-- One item of a shard's optimizer step as a batch of its chain group (R195); it waits while the job's program on the
group is pre-empted (R70, R207). -/
def shardBatch (s : State) (job id : Nat) (u : Upset) : State :=
  match stateOf s job id, (shardAt s job id).step with
  | some x, some _ =>
    if batchHeld s 64 job id || !itemReady s job id || shardStopped s job x.die then s
    else
      let g := shardGroup s job x.die
      let s := match u with
        | .corrected n => bumpMmu s x.die 6 n
        | .uncorrectable key => eccError s x.die key job 0 0
        | _ => s
      let (s, hit) := sampleTile (countTile s 1 x.die) 1 x.die g job
      let bad := match u with
        | .uncorrectable _ => true
        | _ => false
      let fs := tileFailures s u
      let k := fs.length
      let us := groupUnits s x.die g
      let s := failedItems s x.die job (us.take (min k 3)) fs
      if bad then s
      else if 3 ≤ k || us.length ≤ k then setAttn (logError s 7 5 0 0 0 job 0 0 0) aInteg
      else
        let s := noteItem s job id (us.getD k g)
        if hit then setInteg s (fun i => { i with dups := i.dups ++
          [{ kind := 1, die := x.die, unit := us.getD k g, job := job, queue := 64, ordinal := id, failures := k }] })
        else emitCasts (stepItem s job id) job
  | _, _ => s

/-- HAWTHORN_BATCH (R215, R236). (DESIGN CHOICE, assumption 5; DEDUCED, assumption 6). -/
def doHawthornBatch (w : BatchWork) (u : Upset) (s : State) : State :=
  match w with
  | .queue q => queueBatch s q u
  | .shard job id => shardBatch s job id u

/-! ### Laurel -/

/-- Change entry `i` of a die's Laurel list. -/
def setLaurel (s : State) (die i : Nat) (f : LaurelWork → LaurelWork) : State :=
  { s with comp := { s.comp with laurel := s.comp.laurel.modify die (fun ws => ws.modify i f) } }

/-- Remove entry `i` of a die's Laurel list. -/
def dropLaurel (s : State) (die i : Nat) : State :=
  { s with comp := { s.comp with laurel := s.comp.laurel.modify die (fun ws => ws.eraseIdx i) } }

/-- Whether a die's array waits for a sampled duplicate (R436). (DEDUCED, assumption 71). -/
def passHeld (s : State) (die : Nat) : Bool := s.integ.dups.any (fun d => d.kind == 2 && d.die == die)

/-- One execution of a pass: its flags, its anomalies and its count (R94, R96, R178, R233).
(DEDUCED, assumption 73). -/
def notePass (s : State) (die : Nat) (wk : LaurelWork) (o : PassOut) : State :=
  let s := noteAnomalies (flagMtx s die o.flags wk.job) die wk.job 2 0 (o.anomalies.map (fun a => (0, a.1, a.2)))
  countPass s die 1

/-- The failed executions of a pass (R96, R178, R434). -/
def failedPasses (s : State) (die : Nat) (fs : List FaultAt) (wk : LaurelWork) (o : PassOut) : State :=
  faultFlags (passErrors s die wk.job fs) (fun s _ f => notePass s die wk { o with flags := f }) (List.range fs.length)

/-- What an instruction feeds to the digest accumulators when its last pass is written, in element order (R273).
(DEDUCED, assumption 16). -/
def laurelFeeds (s : State) (wk : LaurelWork) (ws : List WriteOp) : State :=
  let xs := feedsOf (sortBy (fun x y => x.key ≤ y.key) ws)
  if wk.feedId.isNone && xs.isEmpty then s else setQueue s wk.queue (fun Q => feedAll Q wk.feedId xs)

/-- A pass is written back (R220, R434); after the last pass the completion flag is set and a matrix instruction
of an MTX queue is complete (R226, R265). (DEDUCED, assumption 71). -/
def commitPass (s : State) (die i : Nat) (wk : LaurelWork) (o : PassOut) : State :=
  let s := writeOps s wk.job o.writes
  let fed := wk.fed ++ o.writes.filter (·.slot.isSome)
  let pass := if o.last then wk.pass + 1 else wk.pass
  if pass < wk.total then
    setLaurel s die i (fun w => { w with pass := pass, kLo := o.kLo, acc := o.acc, tileOff := o.tileOff, fed := fed })
  else
    let s := laurelFeeds (dropLaurel s die i) wk fed
    let s := match wk.flag with
      | some f => setJobFlag s wk.job f true
      | none => s
    if wk.fromMtx then advance (setQueue s wk.queue (fun Q => { Q with mtxBusy := false })) wk.queue else s

/-- A fault of a pass halts the queue that gave the instruction (R414). (DEDUCED, assumption 70). -/
def passStops (s : State) (die i : Nat) (wk : LaurelWork) (f : State → State) : State :=
  let s := dropLaurel s die i
  let s := laurelFeeds s wk wk.fed
  f (setQueue s wk.queue (fun Q => if wk.fromMtx then { Q with mtxBusy := false } else Q))

/-- Whether the rotated map leaves a usable alternate: no quarantined row or column, or a free spare in its
place (R224, R230). -/
def rotatedOk (s : State) (die : Nat) : Bool :=
  let p := s.integ.spares.getD die {}
  (!(s.integ.quar.any (fun r => r.unit == 2 && r.die == die && r.st != 2)) || 0 < p.rows)
  && (!(s.integ.quar.any (fun r => r.unit == 3 && r.die == die && r.st != 2)) || 0 < p.cols)

/-- LAUREL_BLOCK_PASS (R220): the work that the array takes next, one pass.
(DESIGN CHOICE, assumption 5; DEDUCED, assumption 6). -/
def doLaurelBlockPass (die : Nat) (u : Upset) (s : State) : State :=
  match nextLaurel s die with
  | none => s
  | some (i, wk) =>
    if passHeld s die then s
    else
      let o := laurelPass s wk.job wk
      match preCheck s wk.job die .laurel o.accs with
      | .fault k va w => passStops s die i wk (fun s => translationFault s wk.queue k .laurel va w)
      | .tier _ => s
      | .ok =>
        let s := tlbTouch s die 256 64 wk.job (accPages s wk.job o.accs)
        match u with
        | .uncorrectable key =>
          let va := vaOfKey s wk.job key o.accs
          passStops (eccError s die key wk.job 0 0) die i wk (fun s => translationFault s wk.queue 5 .laurel va false)
        | _ =>
          let s := match u with
            | .corrected n => bumpMmu s die 6 n
            | _ => s
          let (s, hit) := sampleTile (countTile s 2 die) 2 die 0 wk.job
          let fs := tileFailures s u
          let k := fs.length
          let s := failedPasses s die (fs.take (if rotatedOk s die then 3 else 1)) wk o
          if 3 ≤ k || (k != 0 && !rotatedOk s die) then passStops s die i wk (fun s => tileFails s wk.queue wk.job)
          else
          let s := notePass s die wk o
          if hit then setInteg s (fun x => { x with dups := x.dups ++
            [{ kind := 2, die := die, unit := 0, job := wk.job, queue := wk.queue, failures := k }] })
          else commitPass s die i wk o

/-! ### DMA -/

/-- Whether a block passes through the bounce buffer: its source and destination lie on different dies, or one
lies in DDR5 (R419). -/
def bounces (s : State) (k : Copy) : Bool :=
  let keyOf (va : Int) : Nat := (xlate s k.job va).getD 0 / 2 ^ 48
  (blockRuns k k.block).1.any (fun r =>
    let a := keyOf r.1
    let b := keyOf r.2.1
    8 ≤ a || 8 ≤ b || a % 4 != b % 4)

/-- What follows when a channel's request for its bounce buffer does not succeed (R375). -/
def bounceWait (s : State) (i req : Nat) (quota : Bool) : State :=
  let inst := 1 + i / 32
  let (pool, n) := (poolFor (bpmAt s inst) 4096).getD (0, 0)
  let s := setChan s i { chanAt s i with waiting := true }
  let w := (req, pool, n)
  let s := setBpm s inst (fun B => if B.waiting.contains w then B else { B with waiting := B.waiting ++ [w] })
  if quota then freeze s inst req pool .quota 0 else s

/-- DMA_BLOCK (R419): the next 4 KiB block of channel `ch` of a die; `ptr` is a pointer that the channel presents
to its buffer pool instance in error (R379). (DESIGN CHOICE, assumption 5; DEDUCED, assumption 6). -/
def doDmaBlock (die ch : Nat) (u : Upset) (ptr : Option Nat) (s : State) : State :=
  let i := 32 * die + ch
  match nextCopy s (chanAt s i) with
  | none => s
  | some k =>
    let inst := 1 + die
    let req := reqId 2 i k.job
    if isFrozen s inst req || (bpmAt s inst).waiting.any (fun w => w.1 == req) then s
    else
      match ptr.bind (pointerCheck (bpmAt s inst) req 0) with
      | some v => freeze s inst req 0 v (ptr.getD 0)
      | none =>
        let accs := blockAccs k k.block
        match preCheck s k.job die .dma accs with
        | .fault kind va w => dmaFault s i k kind va w
        | .tier _ => s
        | .ok =>
          if accs.any (pageMoving s k.job) then setChan s i { chanAt s i with waiting := true }
          else
            let s := tlbTouch s die (512 + ch) 64 k.job (accPages s k.job accs)
            let s := match u with
              | .corrected n => bumpMmu s die 6 n
              | .uncorrectable key => eccError s die key k.job 0 0
              | _ => s
            let bad := match u with
              | .uncorrectable key => some key
              | _ => none
            if bounces s k then
              match bpmAlloc s inst req 4096 [] with
              | .ok s id => finishBlock (moveBlock (dropAlloc s inst id) k bad) i k (blockWrites s k)
              | .wait => bounceWait s i req false
              | .quota => bounceWait s i req true
            else finishBlock (moveBlock s k bad) i k (blockWrites s k)

/-! ### Sampled duplicates -/

/-- Whether a held tile is a FILTER predicate's, which ran on a chain group (R141). -/
def heldFilter (s : State) (d : DupWait) : Bool :=
  d.kind == 0 && (match entryOf s d.job d.ordinal with | some e => filterWork e d.chunk | none => false)

/-- The units on which the duplicate of a held tile and a third execution run, in order (R214, R219, R224, R230). -/
def dupAlts (s : State) (d : DupWait) : List Nat :=
  match d.kind with
  | 0 => if heldFilter s d then groupAlts s d.die d.unit else engineAlts s d.die d.unit
  | 1 => groupAlts s d.die d.unit
  | _ => if rotatedOk s d.die then [0, 0] else []

/-- The Laurel work whose pass is held: the first of its queue and job, whose passes run in order. -/
def heldLaurel (s : State) (d : DupWait) : Option (Nat × LaurelWork) :=
  (((s.comp.laurel.getD d.die []).zipIdx.find? (fun p => p.1.queue == d.queue && p.1.job == d.job
    && (!p.1.fromMtx || (queueAt s p.1.queue).st == .run)))).map (fun p => (p.2, p.1))

/-- One more execution of a held tile on unit `u`: its flags and anomalies count there (R96, R178, R180); the flags are
those given where the execution is faulty. (DEDUCED, assumption 68; DESIGN CHOICE, assumption 123). -/
def noteHeld (s : State) (d : DupWait) (u : Nat) (faulty : Option FpFlags) : State :=
  let put (f : FpFlags) : FpFlags := faulty.getD f
  match d.kind with
  | 0 =>
    let runs := (collAt s d.job d.epoch d.ordinal).ran.filter (fun r => r.chunk == d.chunk)
    noteRuns s d.die u d.job d.ordinal (heldFilter s d) (runs.map (fun r => { r with flags := put r.flags }))
  | 1 =>
    if d.queue = 64 then (match faulty with
      | some f => flagVec s d.die u f d.job
      | none => noteItem s d.job d.ordinal u)
    else match (queueAt s d.queue).work with
      | some wk =>
        let o := workBatch s (queueAt s d.queue) wk
        noteBatch s d.queue u { o with flags := put o.flags }
      | none => s
  | _ =>
    match heldLaurel s d with
    | some (_, wk) =>
      let o := laurelPass s wk.job wk
      notePass s d.die wk { o with flags := put o.flags }
    | none => s

/-- Faulty executions of a held tile on given units (R96). -/
def faultHeld (s : State) (d : DupWait) (units : List Nat) : State :=
  faultFlags s (fun s u f => noteHeld s d u (some f)) units

/-- Change the outputs of a chunk that wait for their duplicate. -/
def dupOutputs (s : State) (d : DupWait) (f : Outp → Outp) : State :=
  setColl s d.job d.epoch d.ordinal (fun c =>
    { c with outputs := c.outputs.map (fun o => if o.chunk == d.chunk && o.dup then f { o with dup := false } else o) })

/-- The outputs of a chunk that wait for its duplicate. -/
def heldOutputs (s : State) (d : DupWait) : List Outp :=
  (collAt s d.job d.epoch d.ordinal).outputs.filter (fun o => o.chunk == d.chunk && o.dup)

/-- A chunk whose first execution was wrong: its sent frames are withdrawn by RETRACT on every route, and those of the
third execution, on engine `g`, are sent (R436, R444, R445). -/
def withdrawChunk (s : State) (d : DupWait) (g : Nat) : State :=
  let c := collAt s d.job d.epoch d.ordinal
  (heldOutputs s d).foldl (fun s o =>
    let s := dropOwn s (unitOfOut c o) none
    let s := o.consumers.foldl (fun s k => icnt (originate s (retractUnit c o k)) 7 1) s
    let o' := { o with dup := false, failures := o.failures + 1, engine := if heldFilter s d then o.engine else g
                       consumers := o.consumers.map (fun k => { k with sentAt := none, resends := 0 }) }
    let s := setColl s d.job d.epoch d.ordinal (fun c => putOut c o')
    icnt ((List.range o.consumers.length).foldl (fun s i => sendFrames s c o i true) s) 8 1) (squashJob s d.job)

/-- The held tile's result is written (R436). -/
def commitHeld (s : State) (d : DupWait) : State :=
  match d.kind with
  | 0 => settleColl (dupOutputs s d id) d.job d.epoch d.ordinal
  | 1 =>
    if d.queue = 64 then emitCasts (stepItem s d.job d.ordinal) d.job
    else
      let Q := queueAt s d.queue
      match Q.work with
      | some wk => if Q.bound && Q.st == .run && Q.job == d.job then commitBatch s d.queue wk (workBatch s Q wk) else s
      | none => s
  | _ =>
    match heldLaurel s d with
    | some (i, wk) => commitPass s d.die i wk (laurelPass s wk.job wk)
    | none => s

/-- The held tile fails for good (R436, R446). (DEDUCED, assumption 72). -/
def failHeld (s : State) (d : DupWait) : State :=
  match d.kind with
  | 0 => if (collAt s d.job d.epoch d.ordinal).aborted then s else outputFails s d.job d.epoch d.ordinal d.chunk
  | 1 => if d.queue = 64 then setAttn (logError s 7 5 0 0 0 d.job 0 0 0) aInteg else tileFails s d.queue d.job
  | _ =>
    match heldLaurel s d with
    | some (i, wk) => passStops s d.die i wk (fun s => tileFails s wk.queue wk.job)
    | none => s

/-- Log a losing execution of a held tile: the first on unit `u`, or a later one there, which for a Laurel pass ran under
the rotated map; `f` says where it went wrong (R224, R452, R453). -/
def dupLogged (s : State) (d : DupWait) (u : Nat) (later : Bool) (f : FaultAt) : State :=
  let unit := if heldFilter s d then 1 else d.kind
  match unit with
  | 2 => logPass (icnt s 2 1) 2 d.die d.job later f
  | _ => logError (icnt s 2 1) 2 unit d.die (if unit = 1 then f.core u else u) 0 d.job (if d.kind = 0 then d.ordinal else 0)
    (if d.kind = 0 then d.chunk else 0) f.class

/-- The failures that a held tile has met: those of its first executions, and of a chunk those of its outputs (R446). -/
def heldFailures (s : State) (d : DupWait) : Nat := (heldOutputs s d).foldl (fun n o => max n o.failures) d.failures

/-- A mismatch is a failure of the tile: its third ends it, and else the third execution's result stands, for a chunk as
frames that stand or that are sent again (R436, R446). -/
def settleThird (s : State) (d : DupWait) (firstStands : Bool) (third : Nat) : State :=
  if 2 ≤ heldFailures s d then failHeld s d
  else if d.kind != 0 then commitHeld s d
  else if firstStands then
    settleColl (dupOutputs s d (fun o => { o with failures := o.failures + 1 })) d.job d.epoch d.ordinal
  else settleColl (withdrawChunk s d third) d.job d.epoch d.ordinal

/-- DUPLICATE_EXECUTION (R436): the duplicate of held tile `i` has run, and a third execution where the two
differ. (DESIGN CHOICE, assumption 5; DESIGN CHOICE, assumption 39). -/
def doDuplicateExecution (i : Nat) (v : DupVerdict) (s : State) : State :=
  match s.integ.dups[i]? with
  | none => s
  | some d =>
    let s := setInteg s (fun x => { x with dups := x.dups.eraseIdx i })
    match v, dupAlts s d with
    | _, [] => failHeld s d
    | .equal, a :: _ => commitHeld (noteHeld (icnt s 1 1) d a none) d
    | _, [a] => failHeld (icnt (faultHeld (icnt s 1 1) d [a]) 2 1) d
    | .thirdFirst f, a :: b :: _ =>
      settleThird (dupLogged (noteHeld (faultHeld (icnt s 1 1) d [a]) d b none) d a true f) d true b
    | .thirdDup f, a :: b :: _ =>
      let s := noteHeld (noteHeld (faultHeld (icnt s 1 1) d [d.unit]) d a none) d b none
      settleThird (dupLogged s d d.unit false f) d false b
    | .allDiffer, a :: b :: _ => failHeld (icnt (faultHeld (icnt s 1 1) d [a, b]) 2 1) d

/-! ### Self-test, remap, DEGRADED -/

/-- A module that enters DEGRADED during a vote counts as expelled (R461). (DEDUCED, assumption 27). -/
def expelByDegraded (s : State) : State :=
  if s.fab.twin.st = .paired ∧ s.coll.jobs.any (·.voteHold) then
    setAttn (setInteg s (fun i => { i with expelled := true })) aTwin
  else s

/-- VCOMP of a compute die at its floor and fully gated (R507). -/
def floorDie (s : State) (d : Nat) : State :=
  { s with pwr := { s.pwr with
      dies := s.pwr.dies.modify d (fun D => { D with vcompMv := 550, gated := true, dutyPct := 0, lowWindows := 0 })
      rails := s.pwr.rails.modify d (fun r => { r with st := 2, setMv := 550 }) } }

/-- The module enters DEGRADED (R456, R507). Its VEC, MTX and DMA queues halt; a COLL queue halts only by the abort of what it
called (R300). -/
def enterDegraded (s : State) : State :=
  if s.integ.degraded then s
  else
    let s := s.coll.colls.foldl (fun s c =>
      let cur := collAt s c.job c.epoch c.ordinal
      match entryOf s c.job c.ordinal with
      | some e => if cur.eligible && !cur.completed && !cur.aborted && !e.inputs.isEmpty then
          abortHere s c.job c.epoch c.ordinal .unitAbsent else s
      | none => s) s
    let s := (List.range 64).foldl (fun s q =>
      if (queueAt s q).bound && (queueAt s q).qtype ≠ .coll then haltQueue s q .unitAbsent 0 else s) s
    let s := setAttn s (aInteg ||| aFault)
    let s := expelByDegraded (setInteg s (fun i => { i with degraded := true }))
    let s := { s with mgt := { s.mgt with st := .degraded } }
    leaveTwin (((List.range 4).filter (dieExists s)).foldl floorDie s) 3

/-- A spare leaves its pool (R47, R51). -/
def takeSpare (p : Spares) (unit logical : Nat) : Spares :=
  match unit with
  | 0 => { p with privetFree := false, privetReplaced := logical }
  | 1 => { p with clusters := p.clusters.modify (logical / 128) (· - 1) }
  | 2 => { p with rows := p.rows - 1 }
  | 3 => { p with cols := p.cols - 1 }
  | _ => { p with banks := p.banks - 1 }

/-- A remap takes effect (R48, R49, R229, R412): the logical unit is the spare from now on, its record is
REMAPPED, and its translations are dropped. -/
def applyRemap (s : State) (unit die logical : Nat) : State :=
  let p := s.integ.spares.getD die {}
  if spareFree s unit die logical = 0 then s
  else
    let phys := spareIndex p unit logical
    let s := setInteg s (fun i => { i with
      spares := i.spares.modify die (fun p => takeSpare p unit logical)
      remaps := (i.remaps.filter (fun r => !(r.unit == unit && r.die == die && r.logical == logical)))
        ++ [⟨unit, die, logical, phys⟩]
      remapPending := i.remapPending.filter (fun r => !(r.unit == unit && r.die == die && r.logical == logical))
      remapReady := i.remapReady.filter (fun r => !(r.unit == unit && r.die == die && r.logical == logical))
      quar := i.quar.map (fun r => if r.unit == unit && r.die == die && r.logical == logical && r.st != 2 then
        { r with st := 2 } else r) })
    let tu := match unit with
      | 1 => some (logical / 8)
      | 2 | 3 => some 256
      | _ => none
    { s with comp := { s.comp with
        tlb := s.comp.tlb.map (fun t => if tu.any (fun x => t.1 == 1024 * die + x) then (t.1, []) else t) } }

/-- The chunks that a logical engine holds: some of their nodes have been computed and they are not formed (R211, R231).
Each with its entry. -/
def chunksHeld (s : State) (die g : Nat) : List (Coll × CollEntry × Nat) :=
  (s.coll.colls.filter (fun c => !c.aborted && !c.completed)).flatMap (fun c =>
    match entryOf s c.job c.ordinal with
    | some e =>
      if entryDie e == die && (e.express || isReduction e.kind || isSelect e.kind) then
        (((c.ran.map (·.chunk)).eraseDups).filter (fun k => engineOf e k == g && !c.formed.contains k)).map (fun k => (c, e, k))
      else []
    | none => [])

/-- Whether a unit is within a chunk, or holds a tile that waits for its duplicate: it is not idle (R229). -/
def unitBusy (s : State) (unit die logical : Nat) : Bool :=
  s.integ.dups.any (fun d => d.die == die && (match unit with
    | 0 => d.kind == 0 && !heldFilter s d && d.unit == logical
    | 1 => (d.kind == 1 || heldFilter s d) && d.unit == logical / 8
    | 2 | 3 => d.kind == 2
    | _ => false))
  || (unit == 0 && !(chunksHeld s die logical).isEmpty)

/-- REMAP_APPLY (R229): a remap past its epoch boundary takes effect on an idle unit. -/
def doRemapApply (unit die logical : Nat) (s : State) : State :=
  if s.integ.remapReady.any (fun r => r.unit == unit && r.die == die && r.logical == logical)
      && !unitBusy s unit die logical then applyRemap s unit die logical
  else s

/-- SELF_TEST (R455): a quarantined unit is tested while its sensor stays in a suspect band; one that fails takes
no further tiles, and without a free spare it is retired and the module enters DEGRADED (R456, R459). The pattern class of
the test vector that fails is a free value (R452). (DESIGN CHOICE, assumption 5; DEDUCED, assumption 70). -/
def doSelfTest (unit die logical : Nat) (pass : Bool) (s : State) : State :=
  match s.integ.quar.find? (fun r => r.unit == unit && r.die == die && r.logical == logical && r.st != 2 && !r.failed) with
  | none => s
  | some r =>
    let band := tempBand (s.pwr.dies.getD die {}).tmaxC
    if !natBit r.bands band then s
    else
      let s := icnt s 10 1
      let mark (f : QuarRec → QuarRec) (s : State) : State := setInteg s (fun i => { i with
        quar := i.quar.map (fun x => if x == r then f x else x) })
      if pass then mark (fun x => { x with testedAt := s.now }) s
      else
        let (w, s) := drawFree s
        let s := logError (icnt s 11 1) 4 unit die logical 0 0 0 0 (w.toNat % 7)
        let none := spareFree s unit die logical = 0
        let s := setInteg s (fun i => { i with
          quar := i.quar.map (fun x => if x.unit == unit && x.die == die && x.logical == logical && x.st != 2 then
            { x with testedAt := s.now, failed := true, st := if none then 3 else x.st } else x) })
        if none then enterDegraded s else s

end Sys2Proof.Machine
end

