-- ==== Sys2Proof/Machine/Power.lean ====
section
/-! DEFINITION. Power supplies, capping and thermal: feeds (R486, R487), rails and their limits (R488 to
R490), the achievable rate (R491), the module cap and phase learning (R492 to R495), thermal levels (R496,
R497), SAFE (R498) and energy (R500). -/

namespace Sys2Proof.Machine

/-! ### Access and registers -/

/-- Change the power state. -/
def setPwr (s : State) (f : Pwr → Pwr) : State := { s with pwr := f s.pwr }

/-- A rail. -/
def railAt (s : State) (r : Nat) : Rail := s.pwr.rails.getD r {}

/-- Change a rail. -/
def setRail (s : State) (r : Nat) (f : Rail → Rail) : State :=
  setPwr s (fun p => { p with rails := p.rails.modify r f })

/-- A die's power state. -/
def diePwr (s : State) (d : Nat) : DiePwr := s.pwr.dies.getD d {}

/-- Change a die's power state. -/
def setDiePwr (s : State) (d : Nat) (f : DiePwr → DiePwr) : State :=
  setPwr s (fun p => { p with dies := p.dies.modify d f })

/-- The code of a feed state (R501). -/
def FeedSt.code : FeedSt → Nat
  | .good => 0 | .marginal => 1 | .absent => 2 | .overvolt => 3 | .reversed => 4

/-- One bit in place. -/
def bitIn (c : Bool) (i : Nat) : Nat := if c then 2 ^ i else 0

/-- PWR.FEED (R501). -/
def feedReg (s : State) : Nat :=
  let p := s.pwr
  (min 0xFFFF (p.feedV10.getD 0 0)) <<< 48 + (min 0xFFFF (p.feedV10.getD 1 0)) <<< 32
    + (p.feeds.getD 0 .absent).code <<< 29 + (p.feeds.getD 1 .absent).code <<< 26
    + (p.active % 4) <<< 24 + (min 0xFFF p.pInW) <<< 12 + min 0xFFF p.switchovers

/-- PWR.RAIL[r] (R503). -/
def railReg (s : State) (r : Nat) : Nat :=
  let x := railAt s r
  (x.st % 8) <<< 61 + bitIn x.senseOpen 60 + bitIn x.overLim 59 + bitIn x.short 58 + (x.setMv % 2 ^ 14) <<< 44
    + (x.measMv % 2 ^ 14) <<< 30 + (x.iDa % 2 ^ 14) <<< 16 + (x.limitDa % 2 ^ 14) <<< 2

/-- PWR.THERM (R505). (DEDUCED, assumption 109). -/
def thermReg (s : State) : Nat :=
  let p := s.pwr
  (p.inletC % 256) <<< 56 + (p.outletC % 256) <<< 48 + (min 0xFFF p.flowCl) <<< 36 + bitIn p.inletHigh 35
    + bitIn p.flowLow 34 + bitIn p.capReduced 33

/-- A feed, rail or sensor event: an event-ring entry and the POWER attention bit (R486 to R490, R496). -/
def powerEvent (s : State) (v : Nat) : State := setAttn (ringLog s 2 0x07 [v]) aPower

/-- Whether a rail exists in this grade and is on (R488). -/
def railOn (s : State) (r : Nat) : Bool :=
  r < 8 && (r != 3 || s.grade == 0) && ((railAt s r).st == 1 || (railAt s r).st == 2)

/-! ### SAFE and loss of power -/

/-- The part of memory that stays while VSVC is up: the DDR5 tier, which runs on it (R39); its content survives a module
reset (R564). (DEDUCED, assumption 77). -/
def ddrOnly (m : Memory) : Memory := { m with cells := m.cells.filter (fun c => 8 * 2 ^ 48 ≤ c.1), poison := m.poison.filter (8 * 2 ^ 48 ≤ ·) }

/-- What is lost when every rail but VSVC falls: the compute dies, the switch die and all that they hold; DDR5 stays
(R39, R498). (DEDUCED, assumption 77). -/
def loseCore (s : State) : State :=
  { s with
    comp := { mem := ddrOnly s.comp.mem }, tops := [], coll := {}, stretchQ := 4, snap := none
    fab := { domain := s.fab.domain, moduleIndex := s.fab.moduleIndex, twin := { s.fab.twin with st := .detached, flips := [], grads := [], gradsOut := [], peerVotes := [], serving := [], synced := [] } }
    integ := { s.integ with dups := [], sampleCnt := [] }
    dbg := { s.dbg with running := false, draining := false, queue := [], safeRings := true } }

/-- Whether the module runs, so that SAFE can be entered. -/
def powered (s : State) : Bool := s.mgt.st != .off && s.mgt.st != .safe

/-- Entry to SAFE for a cause that names a rail or 0x80 + a sensor group (R498). (DEDUCED, assumption 77). -/
def enterSafe (s : State) (cause : Nat) : State :=
  if !powered s then s
  else
    let s := if railOn s 4 then leaveTwin s 2 else s
    let s := loseCore s
    let s := setPwr s (fun p => { p with
      rails := p.rails.zipIdx.map (fun r => if r.2 = 7 || r.1.st = 0 then r.1 else { r.1 with st := 3, measMv := 0, iDa := 0 })
      dies := p.dies.map (fun d => { d with vcompMv := 0, aMts := 0, gated := false }) })
    let s := setAttn (ringLog s 2 0x08 [cause % 256]) (aPower ||| aFault)
    { s with mgt := { s.mgt with st := .safe, loads := [], running := [], unloading := [] } }

/-- A rail is shut for a short (R489). -/
def shutRail (s : State) (r : Nat) : State :=
  enterSafe (setRail s r (fun x => { x with st := 3, short := true })) r

/-! ### Feeds -/

/-- The state of a feed at a voltage in units of 10 mV (R486). -/
def feedState (v : Int) : FeedSt :=
  if v < 0 then .reversed
  else if v < 3800 then .absent
  else if v < 4000 then .marginal
  else if v ≤ 6000 then .good
  else if v ≤ 6300 then .marginal
  else .overvolt

/-- Whether a feed may carry load (R486). -/
def FeedSt.carries (f : FeedSt) : Bool := f == .good || f == .marginal

/-- The feeds that conduct, as PWR.FEED.ACTIVE codes them: the higher of those that may carry load, both within
0.5 V of each other (R487). -/
def conducting (p : Pwr) : Nat :=
  let a := p.feedV10.getD 0 0
  let b := p.feedV10.getD 1 0
  match (p.feeds.getD 0 .absent).carries, (p.feeds.getD 1 .absent).carries with
  | true, true => if a ≤ b + 50 && b ≤ a + 50 then 2 else if a < b then 1 else 0
  | false, true => 1
  | _, _ => 0

/-- Whether a conducting feed has stopped carrying load (R487). -/
def feedStopped (p : Pwr) : Bool :=
  let a := (p.feeds.getD 0 .absent).carries
  let b := (p.feeds.getD 1 .absent).carries
  match p.active with
  | 0 => !a
  | 1 => !b
  | _ => !a || !b

/-- FEED_STATE_CHANGE (R486): the feed's voltage has moved into another state. -/
def doFeedStateChange (feed : Nat) (v10 : Int) (s : State) : State :=
  let f := feedState v10
  if 2 ≤ feed || s.mgt.st = .off then s
  else
    let old := s.pwr.feeds.getD feed .absent
    let s := setPwr s (fun p =>
      let p := { p with feedV10 := p.feedV10.set feed v10.toNat, feeds := p.feeds.set feed f }
      if feedStopped p then p else { p with active := conducting p })
    if f != old && (f == .marginal || f == .overvolt || f == .reversed) then powerEvent s (feedReg s) else s

/-- FEED_SWITCHOVER (R487): the conducting feed has stopped and the other carries the whole load. -/
def doFeedSwitchover (s : State) : State :=
  let p := s.pwr
  if s.mgt.st != .off && feedStopped p && p.feeds.any (·.carries) then
    let s := setPwr s (fun p => { p with active := conducting p, switchovers := min 0xFFF (p.switchovers + 1) })
    powerEvent s (feedReg s)
  else s

/-- FEEDS_LOST (R487): no feed can carry load; every rail falls and the module is OFF. -/
def doFeedsLost (s : State) : State :=
  if s.mgt.st = .off || s.pwr.feeds.any (·.carries) then s
  else
    let s := { loseCore s with comp := {} }
    let s := setPwr s (fun p => { p with
      rails := p.rails.map (fun r => { r with st := 0, measMv := 0, iDa := 0 }), pInW := 0 })
    { s with mgt := { s.mgt with st := .off, sessions := List.replicate 8 {}, handshake := none
                                 stagedFw := none, stagedCfg := none, loads := [], running := [], nvm := none
                                 burn := .none } }

/-! ### Rails -/

/-- The limit that a sample is held against: L_d of a compute die, else the rail's own (R489, R493). -/
def limitOf (s : State) (r : Nat) : Nat :=
  let own := (railAt s r).limitDa
  if r < 4 then (let l := (diePwr s r).limitDa; if l = 0 then own else min l own) else own

/-- The limit actions on VCOMP[d] (R489): above L_d the handshake gate holds at the duty L_d / measured and the
voltage steps down; once the ungated current fits the gate opens. (DEDUCED, assumption 74). -/
def vcompSample (s : State) (d iDa : Nat) : State :=
  if forwardOnly s then s else
  let l := limitOf s d
  let D := diePwr s d
  let ungated := if D.gated then iDa * 100 / max 1 D.dutyPct else iDa
  if l < ungated then
    let s := setDiePwr s d (fun D => { D with
      gated := true, dutyPct := max 1 (min 99 (l * 100 / max 1 ungated)), vcompMv := max 550 (D.vcompMv - 5) })
    setRail s d (fun r => { r with st := 2, setMv := max 550 (r.setMv - 5) })
  else if D.gated then
    setRail (setDiePwr s d (fun D => { D with gated := false, dutyPct := 100 })) d (fun r => { r with st := 1 })
  else s

/-- The gating of a die's HBM requests that its stacks' temperatures ask for (R496). -/
def thermalGate (s : State) (d : Nat) : Nat :=
  if [3 * d, 3 * d + 1, 3 * d + 2].any (fun k => 2 ≤ lookupD s.pwr.levels (16 + k) 0) then 50 else 100

/-- The limit action on VHBM (R489): requests are gated so that the current fits. (DEDUCED, assumption 75). -/
def vhbmSample (s : State) (iDa : Nat) : State :=
  let l := (railAt s 5).limitDa
  let share := if l < iDa then l * 100 / max 1 iDa else 100
  let s := setPwr s (fun p => { p with hbmGate := (List.range 4).map (fun d => min share (thermalGate s d)) })
  setRail s 5 (fun r => { r with st := if l < iDa then 2 else 1 })

/-- CURRENT_SAMPLE (R489): the average current of a rail over W, and its output. -/
def doCurrentSample (rail iDa mv : Nat) (s : State) : State :=
  if !railOn s rail then s
  else
    let s := setRail s rail (fun r => { r with iDa := iDa, measMv := mv })
    let own := (railAt s rail).limitDa
    if own * 5 < iDa * 4 then shutRail s rail
    else if rail < 4 then vcompSample s rail iDa
    else if rail = 5 then vhbmSample s iDa
    else if own < iDa then
      let s := setRail s rail (fun r => { r with overLim := true })
      powerEvent s (railReg s rail)
    else s

/-- RAIL_SHORT_DETECT (R489): above 125 % of the limit, or `collapsed` below half its set-point at the stage's
limit for 10 µs. -/
def doRailShortDetect (rail iDa : Nat) (collapsed : Bool) (s : State) : State :=
  if railOn s rail && (collapsed || (railAt s rail).limitDa * 5 < iDa * 4) then
    shutRail (setRail s rail (fun r => { r with iDa := iDa })) rail
  else s

/-- SENSE_OPEN_DETECT (R490): the stage regulates on local sense from now on. -/
def doSenseOpenDetect (rail : Nat) (s : State) : State :=
  if railOn s rail && !(railAt s rail).senseOpen then
    let s := setRail s rail (fun r => { r with senseOpen := true })
    powerEvent s (railReg s rail)
  else s

/-! ### The window -/

/-- E of R495 and its updates: until the first update the hint of the phase, or the die's limit at activation. -/
def learnAt (s : State) (d p : Nat) : Nat × Nat :=
  lookupD s.pwr.learn (256 * d + p)
    ((match s.pwr.phase.hints.find? (fun h => h.1 == p) with
      | some h => h.2.getD d 0
      | none => s.pwr.phase.limits.getD d (railAt s d).limitDa), 0)

/-- Update E after a window in which die `d` ran phase `p` throughout (R495). -/
def learnStep (s : State) (d p iDa duty : Nat) : State :=
  let (e, n) := learnAt s d p
  let e' := if duty = 100 then ((e : Int) + ((iDa : Int) - e) / 16).toNat else min (e * 9 / 8) (railAt s d).limitDa
  setPwr s (fun q => { q with learn := insertKey q.learn (256 * d + p) (e', min 0xFFFF (n + 1)) })

/-- Whether a die runs work: a queue of a loaded job is bound on it or an entry's port lies on it (R493). -/
def dieWorks (s : State) (d : Nat) : Bool :=
  s.tops.any (fun t => t.qbinds.any (fun b => b.die == d) || t.colls.any (fun e => entryDie e == d))

/-- The needed factor of a die's rate under a schedule rate, and whether it is unmet (R316). -/
def neededOf (a rate : Nat) : Nat × Bool :=
  if rate ≤ a then (0, false)
  else if rate * 4 ≤ a * 5 then (1, false)
  else if rate * 2 ≤ a * 3 then (2, false)
  else (2, true)

/-- The budget of R493 in 0.1 mW: what the cap leaves beyond everything that is not VCOMP.
(DEDUCED, assumption 74). -/
def powerBudget (s : State) (m : WindowMeas) : Int :=
  let vcomp := ((List.range 4).map (fun d => m.iDa.getD d 0 * m.mv.getD d 0)).sum
  let other : Int := (m.pInW * 10000 : Nat) - (vcomp : Int)
  let cap : Int := (s.pwr.capW * 9800 : Nat)
  (if s.pwr.capReduced then cap * 3 / 4 else cap) - other

/-- The shares and limits of R493 for the phases that run 20 µs later. (DEDUCED, assumption 74). -/
def setShares (s : State) (m : WindowMeas) : State :=
  let ds := (List.range 4).filter (dieExists s)
  let budget := powerBudget s m
  let want (d : Nat) : Int :=
    if forwardOnly s || !dieWorks s d then 0
    else ((learnAt s d (phaseAt s d (s.fabricTime + 20000))).1 * (diePwr s d).vcompMv : Nat)
  let total := (ds.map want).foldl (· + ·) 0
  ds.foldl (fun s d =>
    let share : Int := if total ≤ budget then want d + (budget - total) / ((max 1 ds.length : Nat) : Int)
      else if total = 0 then 0 else budget * want d / total
    let w := share.toNat
    let v := (diePwr s d).vcompMv
    let l := if v = 0 then (railAt s d).limitDa else min (w / v) (railAt s d).limitDa
    setDiePwr s d (fun D => { D with shareW := min 0xFFF (w / 10000), limitDa := l })) s

/-- The voltage steps of a window (R489, R496, R507): the floor while the module is DEGRADED, down while the thermal ceiling holds and the hottest sensor is
above 93 °C, up after eight windows below 90 % of L_d. (DEDUCED, assumption 74). -/
def stepVcomp (s : State) (d iDa : Nat) : State :=
  let D := diePwr s d
  let low := !D.gated && iDa * 10 < D.limitDa * 9
  let n := if low then D.lowWindows + 1 else 0
  let v := if D.thermal && 93 < D.tmaxC then max 550 (D.vcompMv - 5)
    else if 8 ≤ n && !D.thermal && D.vcompMv + 5 ≤ s.pwr.vcompMax then D.vcompMv + 5 else D.vcompMv
  if forwardOnly s then floorDie s d
  else
    let s := setDiePwr s d (fun D => { D with lowWindows := min 8 n, vcompMv := v })
    setRail s d (fun r => { r with setMv := v })

/-- Energy of a window (R500). -/
def addEnergy (p : Pwr) (m : WindowMeas) : Pwr :=
  { p with
    ejob := p.ejob.zipIdx.map (fun x => satAdd x.1 (m.eJob.getD x.2 0))
    equeue := p.equeue.zipIdx.map (fun x => satAdd x.1 (m.eQueue.getD x.2 0))
    eother := satAdd p.eother m.eOther }

/-- POWER_WINDOW (R491 to R496, R500): a window has ended. -/
def doPowerWindow (m : WindowMeas) (s : State) : State :=
  if !powered s || s.now < s.pwr.windowAt + 1000 * s.pwr.windowUs then s
  else
    let s := setPwr s (fun p => addEnergy { p with windowAt := s.now, pInW := m.pInW } m)
    let ds := (List.range 4).filter (dieExists s)
    let s := ds.foldl (fun s d =>
      let duty := min 100 (m.duty.getD d 100)
      let a := m.rate.getD d 0 * duty * 97 / 10000
      let (f, un) := if s.fab.tim.sched.active then neededOf a s.fab.tim.sched.schedRate else (0, false)
      let s := if m.whole.getD d false then learnStep s d (diePwr s d).phase (m.iDa.getD d 0) duty else s
      let s := setDiePwr s d (fun D => { D with
        aMts := min 0xFFF a, needed := f, unmet := un, phase := phaseAt s d s.fabricTime
        dutyPct := if D.gated then D.dutyPct else duty })
      stepVcomp s d (m.iDa.getD d 0)) s
    raiseIfNeeded (setShares s m)

/-! ### Thermal -/

/-- The key of a sensor group, which the SAFE entry also names as 0x80 + key. (DESIGN CHOICE, assumption 76). -/
def sensorKey : SensorGroup → Nat
  | .die d => d
  | .switchDie => 4
  | .serviceDie => 5
  | .hbm k => 16 + k
  | .optical e => 32 + e

/-- The thresholds of a group: NOTICE, CAP, CRIT (R496). -/
def sensorLevels : SensorGroup → List (Nat × Nat)
  | .die _ => [(1, 90), (2, 95), (3, 110)]
  | .hbm _ => [(1, 85), (2, 95), (3, 105)]
  | .optical _ => [(1, 75), (3, 85)]
  | _ => [(1, 95), (3, 110)]

/-- The level of a group at a temperature: a level once entered is left 3 °C below its threshold (R496).
(DEDUCED, assumption 75). -/
def thermalLevel (g : SensorGroup) (old t : Nat) : Nat :=
  (sensorLevels g).foldl (fun m x => if x.2 ≤ t || (x.1 ≤ old && x.2 < t + 3) then x.1 else m) 0

/-- THERMAL_THRESHOLD (R496): the hottest sensor of a group reads `tempC`. -/
def doThermalThreshold (g : SensorGroup) (tempC : Nat) (s : State) : State :=
  if !powered s then s
  else
    let k := sensorKey g
    let old := lookupD s.pwr.levels k 0
    let new := thermalLevel g old tempC
    let s := setPwr s (fun p => { p with levels := insertKey p.levels k new })
    let s := match g with
      | .die d => setDiePwr s d (fun D => { D with tmaxC := min 255 tempC, thermal := 2 ≤ new })
      | .hbm k => setPwr { s with mgt := { s.mgt with hbm := s.mgt.hbm.modify k (fun x => (x.1, min 255 tempC)) } } (fun p => { p with hbmGate := (List.range 4).map (fun d =>
          min (if thermalGate s d = 50 then 50 else 100) (if old ≥ 2 && new < 2 then 100 else p.hbmGate.getD d 100)) })
      | _ => s
    let s := if old = 0 && new != 0 then powerEvent s (thermReg s) else s
    if new = 3 then enterSafe s (0x80 + k) else s

/-- Coolant flow in 0.01 L/min from the input power and the rise in thousandths of a degree (R497).
(DEDUCED, assumption 109). -/
def flowOf (pInW inletMc outletMc : Nat) : Nat :=
  if outletMc ≤ inletMc then 0xFFF else min 0xFFF (pInW * 6000000 / (4186 * (outletMc - inletMc)))

/-- INLET_TEMPERATURE (R497): the thermistors of the cold plate. (DEDUCED, assumption 109). -/
def doInletTemperature (inletMc outletMc : Nat) (s : State) : State :=
  if !powered s then s
  else
    let p := s.pwr
    let flow := flowOf p.pInW inletMc outletMc
    let low := flow < 240 && 400 ≤ p.pInW
    let was := p.inletHigh
    let s := setPwr s (fun p => { p with
      inletC := min 255 (inletMc / 1000), outletC := min 255 (outletMc / 1000), flowCl := flow, inletHigh := 45000 < inletMc
      capReduced := if 50000 < inletMc then true else if inletMc ≤ 45000 then false else p.capReduced
      flowSince := if low then some (p.flowSince.getD s.now) else none
      flowLow := p.flowLow && low })
    if 45000 < inletMc && !was then powerEvent s (thermReg s) else s

/-- FLOW_LOW_DETECT (R497): the estimate has stayed below 2.4 L/min for one second. -/
def doFlowLowDetect (s : State) : State :=
  match s.pwr.flowSince with
  | some t =>
    if powered s && !s.pwr.flowLow && t + 1000000000 ≤ s.now then
      let s := setPwr s (fun p => { p with flowLow := true })
      powerEvent s (thermReg s)
    else s
  | none => s

end Sys2Proof.Machine
end

