-- ==== Sys2Proof/Machine/Boot.lean ====
section
/-! DEFINITION. Start-up: the module reset and Holly's boot (R508 to R512), images and their verification
(R514 to R516, R521), the configuration records (R522 to R524), the end of TRAIN (R43, R44, R510), and the
sideband pins that reset the module or hold its lanes down (R588 to R590, R595, R596). -/

namespace Sys2Proof

/-- The layout of the values of the configuration records that R523 names without a byte layout: TYPE and value to
the record's content. (DESIGN CHOICE, assumption 29). -/
opaque Config.cfgDecode : Nat → List Byte → Option Machine.CfgRecord

end Sys2Proof

namespace Sys2Proof.Machine

/-! ### States and reset -/

/-- The codes of R508. -/
def MState.code : MState → Nat
  | .off => 0 | .boot => 1 | .recovery => 2 | .config => 3 | .train => 4
  | .sync => 5 | .ready => 6 | .run => 7 | .degraded => 8 | .safe => 9

/-- MGT.STATE (R530). -/
def stateReg (s : State) : Nat :=
  let m := s.mgt
  m.st.code <<< 60 + (m.cause % 256) <<< 52 + (m.cfgRecord % 2 ^ 16) <<< 36 + (m.fwSource % 4) <<< 34 + m.bootMs % 2 ^ 32

/-- The grade's TDP in W (R10). -/
def tdp (s : State) : Nat := if s.grade = 0 then 1600 else 1300

/-- The default limits of the rails in 0.1 A (R488). -/
def defaultLimit (grade r : Nat) : Nat :=
  if r < 4 then 1870 else if r = 4 then 2250 else if r = 5 then (if grade = 0 then 2730 else 2050)
  else if r = 6 then 1000 else 670

/-- The range of a rail's limit in 0.1 A (R488). -/
def limitRange (r : Nat) : Nat × Nat :=
  if r < 4 then (1000, 2000) else if r = 4 then (2000, 2500) else if r = 5 then (1500, 3000)
  else if r = 6 then (800, 1100) else (600, 800)

/-- Rails at BOOT step 1: VSVC is up and every other rail is off (R510). (DEDUCED, assumption 78). -/
def bootRails (grade : Nat) : List Rail :=
  (List.range 8).map (fun r => ({ st := if r = 7 then 1 else 0, setMv := if r = 7 then 900 else 0
                                  limitDa := if r = 3 && grade != 0 then 0 else defaultLimit grade r } : Rail))

/-- A module reset (R22, R509): every register takes its reset value; fuses, straps, the feeds, the NOR, the event
rings (R567) and the DDR5 content stay; the module is at BOOT step 1. `cause` is the code of MGT.PINS.
(DEDUCED, assumption 78). -/
def resetModule (s : State) (cause : Nat) : State :=
  { pending := s.pending, now := s.now, freeCtr := s.freeCtr, grade := s.grade, rings := s.rings
    comp := { mem := ddrOnly s.comp.mem }
    integ := { quar := s.integ.quar, quarFuse := s.integ.quarFuse, spares := s.integ.spares
               remaps := s.integ.remaps, remapPending := s.integ.remapPending
               remapReady := s.integ.remapReady, sparesBit := s.integ.sparesBit
               sparesDie := s.integ.sparesDie, degraded := s.integ.degraded }
    pwr := { feedV10 := s.pwr.feedV10, feeds := s.pwr.feeds, active := s.pwr.active
             capW := tdp s, rails := bootRails s.grade, windowAt := s.now }
    mgt := { st := .boot, bootAt := s.now, silicon := s.mgt.silicon, serial := s.mgt.serial, nor := s.mgt.nor
             fuses := s.mgt.fuses, macs := s.mgt.macs, romHash := s.mgt.romHash, resetCause := cause
             replies := s.mgt.replies, netOut := s.mgt.netOut }
    pins := { s.pins with ddrSpd := 0 }
    fab := { twin := { strap := s.pins.twinSide } } }

/-! ### Images -/

/-- Bytes `off` to `off + n` as a little-endian number. -/
def leAt (bs : List Byte) (off n : Nat) : Nat := leVal (slice bs off n)

/-- TOTAL_LEN of an image header (R515). -/
def imageLen (bs : List Byte) : Nat := leAt bs 12 4

/-- The largest image of a kind: 1 firmware, 2 configuration (R512). -/
def imageMax (kind : Nat) : Nat := if kind = 1 then 48 * 2 ^ 20 else 8 * 2 ^ 20

/-- The image at byte 0 of a region; bytes after TOTAL_LEN are ignored (R512). -/
def imageOf (bs : List Byte) : List Byte := bs.take (imageLen bs)

/-- The form of an image header (R515). (DEDUCED, assumption 82). -/
def imageFormOk (kind : Nat) (bs : List Byte) : Bool :=
  256 + 516 + 512 ≤ imageLen bs && imageLen bs ≤ imageMax kind && imageLen bs ≤ bs.length
  && leAt bs 0 4 == 0x4D495746 && leAt bs 4 2 == 1 && (leAt bs 6 1 == 1 || leAt bs 6 1 == 2) && leAt bs 7 1 == 0
  && (if kind = 1 then leAt bs 8 4 ≤ 63 else leAt bs 8 4 == 0) && (slice bs 24 232).all (· == 0)

/-- The key block of an image of its TOTAL_LEN (R515). -/
def keyBlock (img : List Byte) : List Byte := slice img (img.length - 1028) 516

/-- The body of an image (R515). -/
def imageBody (img : List Byte) : List Byte := slice img 256 (img.length - 1284)

/-- SHA-512 as a string of 64 bytes. -/
def sha512Bytes (bs : List Byte) : List Byte := beBytes 64 (Config.sha512 bs).toNat

/-- Whether the signature covers every byte before it under the image's key block (R515). -/
def signedOk (img : List Byte) : Bool :=
  Config.pssVerify (keyBlock img) (img.take (img.length - 512)) (img.drop (img.length - 512))

/-- The RECOVERY cause of a firmware image, 0 when it may run (R515, R516). (DEDUCED, assumption 82). -/
def firmwareCause (s : State) (bs : List Byte) : Nat :=
  if !imageFormOk 1 bs then 2
  else
    let img := imageOf bs
    if leAt img 8 4 < s.mgt.fuses.svnMin then 4
    else if leAt img 6 1 == 1 && sha512Bytes (keyBlock img) == s.mgt.fuses.vendorHash && signedOk img then 0 else 3

/-- The RECOVERY cause of a configuration image, 0 when it verifies (R521).
(DEDUCED, assumption 80; DEDUCED, assumption 82). -/
def configCause (s : State) (bs : List Byte) : Nat :=
  match s.mgt.custKey with
  | none => 7
  | some h =>
    if !imageFormOk 2 bs then 5
    else
      let img := imageOf bs
      if leAt img 6 1 == 2 && sha512Bytes (keyBlock img) == h && signedOk img then 0 else 6

/-! ### Boot -/

/-- The records of a configuration body: TYPE and value (R522). A record that runs past the body or has padding
other than zeros reads as the reserved TYPE 0. (DESIGN CHOICE, assumption 29). -/
def parseRecords : Nat → List Byte → List (Nat × List Byte)
  | 0, _ => []
  | _ + 1, [] => []
  | n + 1, bs =>
    let len := leAt bs 2 2
    let all := 4 + len + (8 - (4 + len) % 8) % 8
    if bs.length < 4 || bs.length < all || 65528 < len || (slice bs (4 + len) (all - 4 - len)).any (· != 0) then [(0, [])]
    else (leAt bs 0 2, slice bs 4 len) :: parseRecords n (bs.drop all)

/-! ### Configuration records -/

/-- Whether a port of the LANES record is well formed: 1, 2 or 4 lanes, aligned (R35). (DEDUCED, assumption 79). -/
def lanesOk (p : Nat × Nat) : Bool :=
  (p.2 == 1 || p.2 == 2 || p.2 == 4) && p.1 % p.2 == 0 && p.1 + p.2 ≤ 272

/-- Whether two ports share no lane. -/
def apart (p q : Nat × Nat) : Bool := p.1 + p.2 ≤ q.1 || q.1 + q.2 ≤ p.1

/-- Pairwise disjoint ports. -/
def allApart : List (Nat × Nat) → Bool
  | [] => true
  | p :: ps => ps.all (apart p) && allApart ps

/-- Cut a string into values of `n` bytes. -/
def chop (n : Nat) (bs : List Byte) : List (List Byte) :=
  (List.range (bs.length / n)).map (fun i => slice bs (n * i) n)

/-- One record's content (R523): the layouts that the table gives, and `Config.cfgDecode` for the others. -/
def decodeRecord (typ : Nat) (v : List Byte) : Option CfgRecord :=
  match typ with
  | 1 => if v.length = 6 then some (.domain (leAt v 0 4) (leAt v 4 2)) else none
  | 2 => if v.length % 3 = 0 then some (.lanes ((chop 3 v).map (fun p => (leAt p 0 2, leAt p 2 1)))) else none
  | 0xE => if v.length = 64 then some (.queues (v.map (·.toNat))) else none
  | 0xF => if v.length % 64 = 0 then some (.topiaryKeys (chop 64 v)) else none
  | 0x10 => if v.length % 64 = 0 then some (.hostRoots (chop 64 v)) else none
  | _ => Config.cfgDecode typ v

/-- The TYPE of a record's content (R523). -/
def CfgRecord.typ : CfgRecord → Nat
  | .domain _ _ => 1 | .lanes _ => 2 | .twin _ _ => 3 | .time _ _ => 4 | .link _ _ _ _ => 5
  | .pools _ _ _ _ _ _ => 6 | .sessions _ _ => 7 | .early _ => 8 | .policers _ _ => 9 | .sched _ _ _ _ => 0xA
  | .power _ _ _ _ => 0xB | .integ _ _ _ => 0xC | .trace _ _ _ _ => 0xD | .queues _ => 0xE
  | .topiaryKeys _ => 0xF | .hostRoots _ => 0x10 | .mgmt _ _ => 0x11

/-- Whether a profile satisfies R401. -/
def profileOk (p : Profile) : Bool := 1 ≤ p.cir && p.cir ≤ p.pir && 64 ≤ p.cbs && 64 ≤ p.pbs

/-- Cells of an instance: the packet buffer, or a staging reservation in MiB (R370, R371). -/
def instCells (inst stageMib : Nat) : Nat := if inst = 0 then 1048576 else 4096 * stageMib

/-- Whether the four sizes of SIZED mode let a 4 096-byte payload fit (R372). -/
def fitsPayload (cells : List Nat) : Bool :=
  (List.range 4).any (fun p => 0 < cells.getD p 0 && ceilDiv 4096 (256 * 4 ^ p) ≤ cells.getD p 0 / 4 ^ p)

/-- The rules of the POOLS record (R371, R372, R376). -/
def poolsOk (inst : Nat) (sized : Bool) (cells : List Nat) (levels : List (Nat × Nat × Nat)) (mib : Nat) : Bool :=
  inst < 5 && (inst == 0 || (32 ≤ mib && mib ≤ 128 && mib % 2 == 0))
  && levels.all (fun l => 1 ≤ l.1 && l.1 < l.2.1 && l.2.1 < l.2.2 && l.2.2 ≤ 99)
  && (!sized || (cells.length == 4 && cells.all (· % 64 == 0) && cells.sum ≤ instCells inst mib && fitsPayload cells))

/-- Whether a LOG2N is 0 to 20 or 31 (R386). -/
def log2nOk (n : Nat) : Bool := n ≤ 20 || n == 31

/-- Whether a record's content keeps its owning rules; `own` is the module index of the DOMAIN record.
(DESIGN CHOICE, assumption 29). -/
def recordOk (s : State) (own : Nat) : CfgRecord → Bool
  | .domain d i => d < 2 ^ 32 && i ≤ 511
  | .lanes ps => ps.all lanesOk && allApart ps
  | .twin role i => role < 2 && i ≤ 511 && i != own && (s.pins.twinSide == 2 || (s.pins.twinSide == 1) == (role == 0))
  | .time _ ps => ps.length ≤ 4 && ps.all (· < 272)
  | .link l _ n _ => l < 272 && n < 16
  | .pools inst sized cells levels _ mib => poolsOk inst sized cells levels mib
  | .sessions mins maxes => mins.length ≤ 8 && maxes.length ≤ 8
  | .early ms => ms.length == 16 && ms.all (fun m => 1 ≤ m && m ≤ 64)
  | .policers ps ms => ps.all (fun p => p.1 < 64 && profileOk p.2) && ms.all (fun m => portIdOk m.1 && m.2.1 < 16 && m.2.2.2 < 64)
  | .sched cw jw oh ages => cw.all (fun r => r.all (fun w => 1 ≤ w && w ≤ 255))
      && jw.all (fun r => r.tail.all (fun w => 1 ≤ w && w ≤ 255)) && oh.all (·.2 < 64)
      && ages.all (fun a => a.1 < 8 && 1000 ≤ a.2 && a.2 ≤ 10000000)
  | .power cap w v ls => 600 ≤ cap && cap ≤ tdp s && 1 ≤ w && w ≤ 16 && 550 ≤ v && v ≤ 850 && v % 5 == 0
      && ls.all (fun l => l.1 < 8 && (limitRange l.1).1 ≤ l.2 && l.2 ≤ (limitRange l.1).2)
  | .integ _ dup w => (dup ≤ 1 || (3 ≤ dup && dup ≤ 10)) && 1 ≤ w && w ≤ 1000
  | .trace t m dest logs => t ≤ 256 && m ≤ 64 && dest < 3 && logs.all log2nOk
  | .queues js => js.all (fun j => j < 16 || j == 0xFF)
  | .topiaryKeys ks => 1 ≤ ks.length && ks.length ≤ 4
  | .hostRoots ks => 1 ≤ ks.length && ks.length ≤ 4
  | .mgmt _ port => port < 65536

/-- The key under which a record may stand only once (R523); none for a type that may stand any number of times. -/
def onceKey : CfgRecord → Option Nat
  | .link _ _ _ _ => none
  | .policers _ _ => none
  | .pools inst _ _ _ _ _ => some (0x100 + inst)
  | r => some r.typ

/-- The contents of the records before the first refused one, and its index (R524): a content that breaks its rule, a
reserved TYPE, or an extra record. (DEDUCED, assumption 80). -/
def acceptRecords (s : State) (own : Nat) : List (Nat × List Byte) → List Nat → Nat → List CfgRecord × Option Nat
  | [], _, _ => ([], none)
  | (t, v) :: rest, seen, i =>
    match decodeRecord t v with
    | some r =>
      if r.typ != t || !recordOk s own r || (onceKey r).any (fun k => seen.contains k) then ([], some i)
      else
        let (rs, bad) := acceptRecords s own rest ((onceKey r).toList ++ seen) (i + 1)
        (r :: rs, bad)
    | none => ([], some i)

/-- The types that the image must hold (R523). -/
def requiredTypes : List Nat := [1, 2, 4, 0xE, 0xF, 0x10, 0x11]

/-- The module index that the image's DOMAIN record names. -/
def imageIndex (recs : List (Nat × List Byte)) : Nat :=
  match recs.find? (·.1 == 1) with
  | some r => leAt r.2 4 2
  | none => 0x7FFF

/-- The pools of an instance under a POOLS record; absent sizes span every cell in CHAIN mode (R372).
(DEDUCED, assumption 79). -/
def makePools (inst : Nat) (sized : Bool) (cells : List Nat) (levels : List (Nat × Nat × Nat)) (maxes : List Nat)
    (mib : Nat) : List Pool :=
  let size (p : Nat) := if sized then cells.getD p 0 else if p = 0 then instCells inst mib else 0
  let first (p : Nat) := ((List.range 4).map (fun q => if p < q then size q else 0)).sum
  (List.range 4).map (fun p =>
    let l := levels.getD p (75, 85, 95)
    { first := first p, cells := size p, block := if sized then p else 0
      notice := l.1, press := l.2.1, crit := l.2.2
      defMax := maxes.getD p (instCells inst mib) })

/-- What an instance holds by default: CHAIN over every cell (R372, R376). (DEDUCED, assumption 79). -/
def defaultBpm (inst : Nat) : Bpm := { pools := makePools inst false [] [] [] 64 }

/-- Change a port for a record: a lane that is not the lowest of its port ignores it, as its registers do (R391,
R403). -/
def cfgPort (s : State) (p : Nat) (f : Port → Port) : State := if p < 272 && !isLanePort s p then s else setPort s p f

/-- The ports that units enter by: the configured ones, the compute-die ports and the service port (R34). -/
def ingressPorts (s : State) : List Nat :=
  ((s.fab.ports.map (fun (x : Nat × Port) => x.1)) ++ (List.range 16).map (· + 0x140) ++ [0x180]).eraseDups

/-- Apply one accepted record (R523). (DESIGN CHOICE, assumption 29; DEDUCED, assumption 79). -/
def applyRecord (s : State) : CfgRecord → State
  | .domain d i => { s with fab := { s.fab with domain := d, moduleIndex := i } }
  | .lanes ps => ps.foldl (fun s p =>
      let s := setPort s p.1 (fun _ => { lanes := p.2 })
      (List.range p.2).foldl (fun s k => setLane s (p.1 + k) (fun L => { L with
        enable := p.1 < 256 || s.fab.twin.present, st := if p.1 < 256 || s.fab.twin.present then .down else .disabled })) s) s
  | .twin role i => { s with fab := { s.fab with twin := { s.fab.twin with present := true, role := role, peerIndex := i } } }
  | .time m ps => setTim s (fun t => { t with master := m, parents := ps })
  | .link l en n peer => setLane s l (fun L => { L with
      enable := en && (l < 256 || s.fab.twin.present), nakLimit := n, expectPeer := peer
      st := if en && (l < 256 || s.fab.twin.present) then .down else .disabled })
  | .pools inst sized cells levels maxes mib =>
      let s := setBpm s inst (fun B => { B with sized := sized, pools := makePools inst sized cells levels maxes mib })
      if inst = 0 then s else setMgt s (fun m => { m with stageMib := m.stageMib.set (inst - 1) mib })
  | .sessions mins maxes => setBpm s 0 (fun B => { B with quotas := B.quotas ++ (List.range 8).flatMap (fun k =>
      (List.range 4).map (fun p => ({ pool := p, req := reqId 3 k 0, min := mins.getD k 0, max := maxes.getD k (2 ^ 20) } : Quota))) })
  | .early ms => { s with fab := { s.fab with earlyQuota := ms.map (· * 4096) } }
  | .policers ps ms =>
      let s := { s with fab := { s.fab with profiles := ps.foldl (fun l p => l.set p.1 p.2) s.fab.profiles } }
      ms.foldl (fun s m => cfgPort s m.1 (fun P =>
        let pr := s.fab.profiles.getD m.2.2.2 {}
        { P with meters := insertKey P.meters m.2.1 { enable := m.2.2.1, profile := m.2.2.2, tc := pr.cbs * 1000, tp := pr.pbs * 1000 } })) s
  | .sched cw jw oh ages =>
      let s := { s with fab := { s.fab with
        classW := s.fab.classW.zipIdx.map (fun x => cw.getD x.2 x.1)
        ageLimit := ages.foldl (fun l a => l.set a.1 a.2) s.fab.ageLimit } }
      let s := jw.foldl (fun s r => cfgPort s (r.getD 0 0) (fun P => { P with jobW := r.tail })) s
      oh.foldl (fun s o => cfgPort s o.1 (fun P => { P with overhead := o.2 })) s
  | .power cap w v ls =>
      let s := setPwr s (fun p => { p with capW := cap, windowUs := w, vcompMax := v })
      ls.foldl (fun s l => setRail s l.1 (fun r => { r with limitDa := l.2 })) s
  | .integ res dup w => { s with integ := { s.integ with residue := res, dup := dup, shortWaitUs := w } }
  | .trace t m dest logs =>
      let s := { s with dbg := { s.dbg with traceGib := t }, fab := { s.fab with mirrorGib := m, mirrorDest := dest } }
      (ingressPorts s).foldl (fun s p => setPort s p (fun P => { P with
        mirrorLog := (List.range 8).map (fun k => logs.getD k 31) })) s
  | .queues js => setMgt s (fun m => { m with queueJobs := js })
  | .topiaryKeys ks => setMgt s (fun m => { m with topiaryKeys := ks })
  | .hostRoots ks => setMgt s (fun m => { m with hostRoots := ks })
  | .mgmt as port => setMgt s (fun m => { m with addrs := as, udpPort := port })

/-- The order in which the records take effect: those that others build on come first. (DEDUCED, assumption 79). -/
def recordOrder (r : CfgRecord) : Nat :=
  match r with
  | .domain _ _ => 0 | .twin _ _ => 1 | .lanes _ => 2
  | _ => 3

/-- The twin port: the lowest configured twin lane (R35, R473). (DEDUCED, assumption 79). -/
def setTwinPort (s : State) : State :=
  let ps := (s.fab.ports.map (·.1)).filter (fun p => 256 ≤ p && p < 272)
  { s with fab := { s.fab with twin := { s.fab.twin with port := ps.foldl min (ps.headD 0x100) } } }

/-- Bring the rails up at the end of CONFIG (R510 step 5): VSW, VHBM, VOPT and VCOMP at their set-points. -/
def raiseRails (s : State) : State :=
  let v := s.pwr.vcompMax
  setPwr s (fun p => { p with
    rails := p.rails.zipIdx.map (fun x => if x.2 = 7 || (x.2 = 3 && s.grade != 0) then x.1 else
      { x.1 with st := 1, setMv := if x.2 < 4 then v else if x.2 = 4 then 800 else if x.2 = 5 then 1100 else 1800 })
    dies := p.dies.zipIdx.map (fun x => if dieExists s x.2 then { x.1 with vcompMv := v } else x.1)
    windowAt := s.now })

/-! ### From BOOT to CONFIG -/

/-- The fields marked "image" outside the fabric at the defaults that their rules state (R22, R523).
(DEDUCED, assumption 79). -/
def imageDefaults (s : State) : State :=
  let s := setPwr s (fun p => { p with
    capW := tdp s, windowUs := ({} : Pwr).windowUs, vcompMax := ({} : Pwr).vcompMax
    rails := (p.rails.zip (bootRails s.grade)).map (fun x => { x.1 with limitDa := x.2.limitDa }) })
  let s := setInteg s (fun i => { i with
    residue := ({} : Integ).residue, dup := ({} : Integ).dup, shortWaitUs := ({} : Integ).shortWaitUs })
  let m : Mgt := {}
  setMgt { s with dbg := { s.dbg with traceGib := 0 } } (fun x => { x with
    stageMib := m.stageMib, queueJobs := m.queueJobs, topiaryKeys := m.topiaryKeys, hostRoots := m.hostRoots
    addrs := m.addrs, udpPort := m.udpPort })

/-- The records of the image that are accepted take effect on fields at their defaults: the fields marked "image" (R22,
R523). -/
def takeImage (s : State) : State :=
  let recs := s.mgt.records
  let rs := (acceptRecords s (imageIndex recs) recs [] 0).1
  let fab : Fab := { twin := { strap := s.fab.twin.strap }, bpm := (List.range 5).map defaultBpm }
  let ordered := (List.range 4).flatMap (fun k => rs.filter (fun r => recordOrder r == k))
  setTwinPort (ordered.foldl applyRecord (imageDefaults { s with fab := fab }))

/-- Enter CONFIG with a verified configuration image: the fields marked "image" take its values, up to the first record
that is refused (R22, R509, R510). (DEDUCED, assumption 80). -/
def enterConfig (s : State) (bs : List Byte) : State :=
  let img := imageOf bs
  let body := imageBody img
  takeImage (setMgt s (fun m => { m with st := .config, cfgBytes := img, records := parseRecords body.length body }))

/-- Enter RECOVERY with a cause (R517). Without firmware Holly brings the 16 twin lanes up as ports of one lane,
with the identity of a module that has no configuration (R519). -/
def enterRecovery (s : State) (cause : Nat) : State :=
  let s := setMgt s (fun m => { m with st := .recovery, cause := cause })
  if s.mgt.fwRunning then s
  else (List.range 16).foldl (fun s t =>
    setLane (setPort s (256 + t) (fun _ => { lanes := 1 })) (256 + t) (fun L => { L with enable := true })) s

/-- Verify the NOR configuration image once firmware runs; a pushed image that has verified serves when it fails
(R509, R517). (DEDUCED, assumption 80). -/
def checkConfig (s : State) : State :=
  match configCause s s.mgt.nor.config with
  | 0 => enterConfig s s.mgt.nor.config
  | c =>
    match s.mgt.stagedCfg with
    | some x => if x.verified then enterConfig s x.bytes else enterRecovery s c
    | none => enterRecovery s c

/-- Run a verified firmware image from a source: 0 NOR, 1 twin, 2 host (R517). (DEDUCED, assumption 40). -/
def runFirmware (s : State) (bs : List Byte) (src : Nat) : State :=
  let img := imageOf bs
  checkConfig (setMgt s (fun m => { m with fwRunning := true, fwBytes := img, fwSvn := leAt img 8 4, fwSource := src }))

/-- On entry to BOOT every remap in the repair fuses applies, those too that waited for an idle unit: no unit runs (R49,
R229). -/
def applyFused (s : State) : State :=
  (s.integ.remapReady ++ s.integ.remapPending).foldl (fun s r => applyRemap s r.unit r.die r.logical) s

/-- Holly from BOOT step 2 on (R510, R511): the repair fuses apply, the fuses and straps are read, the NOR is read and its
firmware image verified. (DEDUCED, assumption 40; DEDUCED, assumption 82). -/
def holly (s : State) : State :=
  let s := applyFused s
  let s := { s with fab := { s.fab with twin := { s.fab.twin with strap := s.pins.twinSide } } }
  let s := setMgt s (fun m => { m with custKey := m.fuses.custHash, fwRunning := false, stagedFw := none, stagedCfg := none })
  if !s.mgt.nor.answers then enterRecovery s 1
  else match firmwareCause s s.mgt.nor.firmware with
    | 0 => runFirmware s s.mgt.nor.firmware 0
    | c => enterRecovery s c

/-- BOOT step 1 ends unless CARRIER_RESET_N holds the module there (R588). (DEDUCED, assumption 40). -/
def resume (s : State) : State := if s.pins.carrierReset then s else holly s

/-- POWER_ON (R509, R510): a feed becomes GOOD with VSVC in regulation; nothing that a power loss takes has stayed.
(DEDUCED, assumption 40; DEDUCED, assumption 78). -/
def doPowerOn (feed : Nat) (v10 : Int) (s : State) : State :=
  if feed < 2 && feedState v10 == .good && (s.mgt.st == .off || (s.mgt.st == .boot && s.pwr.feeds.all (· == .absent))) then
    let s := setPwr s (fun p =>
      let p := { p with feedV10 := p.feedV10.set feed v10.toNat, feeds := p.feeds.set feed .good }
      { p with active := conducting p })
    resume (resetModule { s with rings := [], comp := {} } 0)
  else s

/-- CONFIG_APPLY (R524): every record is applied and the module enters TRAIN, or the first refusal is recorded, FAULT
is set and the module stays in CONFIG. -/
def doConfigApply (s : State) : State :=
  if s.mgt.st != .config then s
  else
    let recs := s.mgt.records
    let (rs, bad) := acceptRecords s (imageIndex recs) recs [] 0
    let refused := match bad with
      | some i => some i
      | none => if requiredTypes.all (fun t => rs.any (·.typ == t)) then none else some recs.length
    match refused with
    | some i => setAttn (setMgt s (fun m => { m with cfgRecord := i % 2 ^ 16 })) aFault
    | none => setMgt (raiseRails (takeImage s)) (fun m => { m with st := .train, trainAt := s.now })

/-! ### TRAIN and SYNC -/

/-- The transfer rate and size of a populated channel. -/
def dimmOf : DimmRead → Option (Nat × Nat)
  | .empty => none
  | .dimm g m _ => some (g, m)

/-- Whether the population is one of R43's: eight identical RDIMMs, identical RDIMMs on channels 0, 2, 4 and 6, or
none. RDIMMs are identical in size and speed. (DESIGN CHOICE, assumption 126). -/
def populationOk (ddr : List DimmRead) : Bool :=
  let at' (c : Nat) := (ddr.getD c .empty)
  let used := (List.range 8).filter (fun c => (dimmOf (at' c)).isSome)
  let same := (used.map (fun c => dimmOf (at' c))).all (· == dimmOf (at' 0))
  (used == [] || used == List.range 8 || used == [0, 2, 4, 6]) && same

/-- The speed at which every populated channel runs (R44). -/
def ddrSpeed (ddr : List DimmRead) : Nat := ((ddr.filterMap dimmOf).map (·.2)).foldl min 6400

/-- What TRAIN leaves of channel `c`: state, rate and size (R43, R44, R554). (DEDUCED, assumption 81). -/
def ddrTrained (ddr : List DimmRead) (c : Nat) : Nat × Nat × Nat :=
  match ddr.getD c .empty with
  | .empty => (0, 0, 0)
  | .dimm g _ ok => if populationOk ddr && ok then (1, ddrSpeed ddr, g) else (2, if populationOk ddr then ddrSpeed ddr else 0, g)

/-- GiB of the trained tier. -/
def tierGib (s : State) : Nat := ((s.mgt.ddr.filter (·.1 == 1)).map (·.2.2)).sum

/-- Whether every enabled lane is up, or has spent 500 ms in R359 since TRAIN began (R510). -/
def lanesTrained (s : State) : Bool :=
  s.mgt.trainAt + 500000000 ≤ s.now || s.fab.lanes.all (fun l => !l.2.enable || l.2.st == .up)

/-- TRAINING_COMPLETE (R510): every stack and channel has trained or failed, and the lanes have had their time.
(DEDUCED, assumption 81). -/
def doTrainingComplete (hbm : List Bool) (ddr : List DimmRead) (s : State) : State :=
  if s.mgt.st != .train || !lanesTrained s then s
  else
    let spd := ((List.range 8).map (fun c => bitIn (dimmOf (ddr.getD c .empty)).isSome c)).sum
    let s := setMgt s (fun m => { m with
      hbm := (List.range 12).map (fun k => if dieExists s (k / 3) then (if hbm.getD k false then 1 else 2, (m.hbm.getD k (0, 0)).2) else (0, 0))
      ddr := (List.range 8).map (ddrTrained ddr) })
    let s := { s with pins := { s.pins with ddrSpd := spd } }
    let s := if populationOk ddr then s else setAttn s aFault
    let s := if tierGib s = 0 || tierGib s < s.dbg.traceGib + s.fab.mirrorGib then
        setAttn { s with dbg := { s.dbg with traceGib := 0 }, fab := { s.fab with mirrorGib := 0 } } aFault
      else s
    if s.mgt.hbm.any (·.1 == 2) then setAttn (endBoot s .degraded) aFault
    else if s.integ.degraded then endBoot s .degraded
    else
      let s := setMgt s (fun m => { m with st := .sync, syncAt := s.now })
      setTim s (fun t => { t with lastParent := s.now })

/-- SYNC_TIMEOUT (R510): not LOCKED 10 s after entering SYNC. -/
def doSyncTimeout (s : State) : State :=
  if s.mgt.st = .sync && s.fab.tim.state != 1 && s.mgt.syncAt + 10000000000 ≤ s.now then setAttn s aSched else s

/-- MASTER_SYNC_ELAPSED (R509): the time master leaves SYNC 1 s after entering it. -/
def doMasterSyncElapsed (s : State) : State :=
  if s.mgt.st = .sync && s.fab.tim.master && s.mgt.syncAt + 1000000000 ≤ s.now then endBoot s .ready else s

/-- The first block of the twin's image that has not come (R518). -/
def firstMissing (t : Twin) : Nat :=
  ((List.range (t.imageBlocks + 1)).find? (fun b => !t.image.any (·.1 == b))).getD 0

/-- Whether the twin's image is complete (R518). -/
def imageComplete (t : Twin) : Bool := 0 < t.imageBlocks && (List.range t.imageBlocks).all (fun b => t.image.any (·.1 == b))

/-- IMAGE_REQUEST_REPEAT (R518): Holly asks its twin for the image, at most once a second. -/
def doImageRequestRepeat (s : State) : State :=
  let t := s.fab.twin
  if s.mgt.st = .recovery && !s.mgt.fwRunning && !imageComplete t && portUp s 0x100
      && (t.imageAskAt = 0 || t.imageAskAt + 1000000000 ≤ s.now) then
    let s := sendTwin s (twinFrame 6 5 0x180 0 0 0xFFFFFFFF (firstMissing t) 0 (padTo 256 []))
    setTwin s (fun t => { t with imageAskAt := s.now })
  else s

/-! ### Pins -/

/-- LSR_OK (R589). -/
def lsrOk (s : State) : Bool :=
  (match s.mgt.st with
   | .train | .sync | .ready | .run | .degraded => true
   | _ => false) && railOn s 6

/-- MGT.PINS (R595). -/
def pinsReg (s : State) : Nat :=
  bitIn s.pins.lsrEn 63 + bitIn (lsrOk s) 62 + (s.mgt.resetCause % 8) <<< 59 + (s.pins.ddrSpd % 256) <<< 51

/-- LSR_EN takes a level (R590): low takes every fabric lane down; high lets each train again. -/
def setLsrEn (s : State) (level : Bool) : State :=
  let s := { s with pins := { s.pins with lsrEn := level } }
  if level then s
  else (s.fab.lanes.map (·.1)).foldl (fun s l =>
    if 256 ≤ l then s else loseLaser s l) s

/-- LSR_EN_CHANGE (R590). -/
def doLsrEnChange (level : Bool) (s : State) : State := if s.pins.sideband || !level then setLsrEn s level else s

/-- CARRIER_RESET_ASSERT (R588): the pin has been low for 10 µs; no LEAVE is sent. -/
def doCarrierResetAssert (s : State) : State :=
  let s := { s with pins := { s.pins with carrierReset := true } }
  if s.mgt.st = .off then s else resetModule s 2

/-- CARRIER_RESET_RELEASE (R588): the pin rises and boot resumes at step 2. -/
def doCarrierResetRelease (s : State) : State :=
  if !s.pins.carrierReset then s
  else
    let s := { s with pins := { s.pins with carrierReset := false, sideband := true } }
    if s.mgt.st = .boot && s.pwr.feeds.any (·.carries) then holly s else s

/-- SB3V3_LOSS (R596): the sideband inputs read low. -/
def doSb3v3Loss (s : State) : State :=
  let s := { s with pins := { s.pins with sideband := false } }
  doCarrierResetAssert (setLsrEn s false)

/-- MGT_PORT_LINK_CHANGE (R553). -/
def doMgtPortLinkChange (port st : Nat) (fec : Bool) (s : State) : State :=
  if port < 2 && st < 3 && s.mgt.st != .off then setMgt s (fun m => { m with ports := m.ports.set port (st, fec) }) else s

end Sys2Proof.Machine
end

