-- ==== Sys2Proof/Machine/Regs.lean ====
section
/-! DEFINITION. The register map as reads see it (R551 to R554): one definition for each block, each giving the
register at an offset, or none where no register lies (R18). Counters that COUNTER_SNAPSHOT freezes are read from the
held copy (R546, R556). -/

namespace Sys2Proof

/-- The first byte of the trace region in the DDR5 tier, which the spec does not place (R562).
(DESIGN CHOICE, assumption 26). -/
opaque Config.traceBase : Nat

/-- The first byte of the mirror ring in the DDR5 tier, which the spec does not place (R388).
(DESIGN CHOICE, assumption 26). -/
opaque Config.mirrorBase : Nat

end Sys2Proof

namespace Sys2Proof.Machine

/-- The index of an offset in an array of `n` registers `stride` bytes apart from `base`. -/
def regIdx (a base stride n : Nat) : Option Nat :=
  if base ≤ a && a < base + stride * n && (a - base) % stride == 0 then some ((a - base) / stride) else none

/-- The state as reads of frozen counters see it: the copies of the held snapshot in place of the live counters
(R546). -/
def counterView (s : State) : State :=
  match s.snap with
  | some { copy := some c, .. } =>
    { s with comp := c.comp, fab := c.fab, coll := c.coll, integ := c.integ, pwr := c.pwr
             dbg := { s.dbg with queCnt := c.queCnt }, mgt := { s.mgt with fmdCnt := c.fmdCnt } }
  | _ => s

/-! ### MGT and SEC -/

/-- MGT.ATTN (R553). -/
def attnReg (s : State) : Nat := let a := s.attn.toNat % 2 ^ 15; a - a % 256 + bitIn (256 ≤ a) 15

/-- MGT.ID (R529). -/
def idReg (s : State) : Nat := (s.grade % 16) <<< 60 + (s.mgt.silicon % 16) <<< 56 + s.mgt.serial % 2 ^ 48

/-- MGT.SNAP (R553). -/
def snapReg (s : State) : Nat :=
  match s.snap with
  | some x => 2 ^ 63 + (x.owner % 8) <<< 60
  | none => 0

/-- MGT.PORT[n] (R553). -/
def mgtPortReg (s : State) (n : Nat) : Nat :=
  let p := s.mgt.ports.getD n (0, false)
  (p.1 % 4) <<< 62 + bitIn p.2 61 + s.mgt.macs.getD n 0 % 2 ^ 48

/-- MGT.SESSION[k] (R553). -/
def sessionReg (s : State) (k : Nat) : Nat :=
  let x := s.mgt.sessions.getD k {}
  if !x.valid then 0
  else 2 ^ 63 + bitIn (isFrozen s 0 (reqId 3 k 0)) 62 + bitIn (x.port == 1) 61 + bitIn x.ipv6 60
    + bitIn (s.fab.mirrorDest == 2 && s.fab.mirrorSession == some k) 59 + (x.id % 2 ^ 32) <<< 24
    + min (2 ^ 24 - 1) ((s.now - x.lastAt) / 1000000)

/-- The physical position of a logical die: on a CNV-4800 the dies take the enabled positions in ascending order
(R29). -/
def positionOf (s : State) (d : Nat) : Nat :=
  if s.grade = 0 then (s.integ.spares.getD d {}).physPos
  else if d < Config.fusedPosition % 4 then d else d + 1

/-- MGT.SPARE[d] (R51). -/
def spareReg (s : State) (d : Nat) : Nat :=
  if !dieExists s d then 0
  else
    let p := s.integ.spares.getD d {}
    2 ^ 63 + (positionOf s d % 4) <<< 60 + p.cols <<< 36 + p.rows <<< 32 + p.banks <<< 28
      + (p.clusters.foldl min 8) <<< 24 + p.clusters.sum <<< 17 + bitIn p.privetFree 8
      + (if p.privetFree then 0 else p.privetReplaced % 16) <<< 4

/-- MGT.INTEG_POLICY (R457). -/
def policyReg (s : State) : Nat :=
  bitIn s.integ.residue 63 + (s.integ.dup % 16) <<< 59 + (s.integ.shortWaitUs % 2 ^ 16) <<< 32

/-- Quarantine records that are valid, with those that only fuses hold (R459). -/
def quarCount (s : State) : Nat := min 0xFFFF (min 32 s.integ.quar.length + s.integ.quarFuse)

/-- Whether a pool of a die is empty (R47, R458). -/
def poolEmpty (s : State) (d : Nat) : Bool :=
  let p := s.integ.spares.getD d {}
  natBit s.integ.sparesDie d
    || (dieExists s d && (!p.privetFree || p.rows == 0 || p.cols == 0 || p.banks == 0 || p.clusters.any (· == 0)))

/-- MGT.INTEG_STATUS (R458). -/
def integReg (s : State) : Nat :=
  let i := s.integ
  bitIn i.sparesBit 63 + bitIn i.degraded 62 + ((List.range 4).map (fun d => bitIn (poolEmpty s d) (58 + d))).sum + bitIn i.undecided 57
    + bitIn i.expelled 56 + (quarCount s) <<< 32

/-- MGT.QUAR[i] (R459). -/
def quarReg (s : State) (i : Nat) : Nat :=
  match s.integ.quar[i]? with
  | some r => r.value
  | none => 0

/-- The error-log entry at an index of the ring (R453). -/
def errAt (s : State) (i : Nat) : Option ErrEntry :=
  s.integ.errlog[(s.integ.errCount + 1024 - 1 - i) % 1024]?

/-- MGT.ERRLOG[i][w] (R453). -/
def errReg (s : State) (i w : Nat) : Nat :=
  match errAt s i with
  | none => 0
  | some e =>
    match w with
    | 0 => e.time % 2 ^ 64
    | 1 => (e.kind % 16) <<< 60 + (e.unit % 8) <<< 57 + (e.die % 4) <<< 55 + (e.logical % 2 ^ 10) <<< 45
        + (e.phys % 2 ^ 11) <<< 34 + (e.tband % 8) <<< 31 + (e.phase % 256) <<< 23 + (e.job % 16) <<< 19
        + (e.pattern % 16) <<< 15
    | 2 => (e.railMv % 2 ^ 16) <<< 48 + (e.ordinalLow % 2 ^ 16) <<< 32 + (e.chunk % 2 ^ 24) <<< 8 + min 255 e.tempC
    | _ => (e.tile % 2 ^ 32) <<< 32 + (e.col % 256) <<< 24

/-- The MGT window (R551, R553). -/
def readMgt (s : State) (a : Nat) : Option Nat :=
  let v := counterView s
  match a with
  | 0x00 => some (idReg s)
  | 0x08 => some (stateReg s)
  | 0x10 => some (attnReg s)
  | 0x18 => some (snapReg s)
  | 0x20 => some (match s.snap with | some x => x.time % 2 ^ 64 | none => 0)
  | 0x28 => some (mgtPortReg s 0)
  | 0x30 => some (mgtPortReg s 1)
  | 0x38 => some (pinsReg s)
  | 0x200 => some (policyReg s)
  | 0x208 => some (integReg s)
  | 0x210 => some ((s.integ.errCount % 2 ^ 32) <<< 32 + s.integ.errCount % 1024)
  | _ =>
    match regIdx a 0x40 8 8, regIdx a 0x80 8 6, regIdx a 0x100 8 4 with
    | some k, _, _ => some (sessionReg s k)
    | _, some k, _ => some (v.mgt.fmdCnt.getD k 0)
    | _, _, some d => some (spareReg s d)
    | _, _, _ =>
      match regIdx a 0x280 8 14, regIdx a 0x400 8 32, regIdx a 0x8000 8 4096 with
      | some k, _, _ => some (v.integ.cnt.getD k 0)
      | _, some i, _ => some (quarReg s i)
      | _, _, some w => some (errReg s (w / 4) (w % 4))
      | _, _, _ => none

/-- Open sessions. -/
def openSessions (s : State) : Nat := (s.mgt.sessions.filter (·.valid)).length

/-- SEC.STATUS (R531). -/
def secReg (s : State) : Nat :=
  let f := s.mgt.fuses
  bitIn (!f.vendorHash.isEmpty) 63 + bitIn f.custHash.isSome 62 + (f.svnMin % 64) <<< 56 + (s.mgt.fwSvn % 64) <<< 50
    + (openSessions s % 16) <<< 46

/-- The SEC window (R531). (DEDUCED, assumption 83). -/
def readSec (s : State) (a : Nat) : Option Nat :=
  match a with
  | 0x00 => some (secReg s)
  | 0x08 => some 0
  | _ => (regIdx a 0x100 8 8).map (fun i => s.mgt.custStage.getD i 0)

/-! ### PWR and TWN -/

/-- PWR.CAP (R502). -/
def capReg (s : State) : Nat :=
  (s.pwr.capW % 2 ^ 12) <<< 33 + (s.pwr.windowUs % 32) <<< 28 + (s.pwr.vcompMax % 2 ^ 10) <<< 18

/-- PWR.DIE[d] (R504); a die that the grade lacks reads 0 (R488). -/
def dieReg (s : State) (d : Nat) : Nat :=
  if !dieExists s d then 0
  else
    let x := diePwr s d
    (x.vcompMv % 2 ^ 10) <<< 54 + (x.aMts % 2 ^ 12) <<< 42 + (phaseAt s d s.fabricTime % 256) <<< 34 + (x.dutyPct % 128) <<< 27
      + (x.needed % 4) <<< 25 + bitIn x.unmet 24 + (x.tmaxC % 256) <<< 16 + (x.shareW % 2 ^ 12) <<< 4 + bitIn x.thermal 3

/-- PWR.LEARN[d][p] (R495, R506): the estimate of the schedule in force and its updates; 0 while none is loaded. -/
def learnReg (s : State) (d p : Nat) : Nat :=
  let (e, n) := if s.fab.tim.sched.loaded then learnAt s d p else (0, 0)
  (e % 2 ^ 14) <<< 50 + (n % 2 ^ 16) <<< 34

/-- The PWR window (R501 to R506). -/
def readPwr (s : State) (a : Nat) : Option Nat :=
  let v := counterView s
  match a with
  | 0x000 => some (feedReg s)
  | 0x008 => some (capReg s)
  | 0x300 => some (thermReg s)
  | 0x3300 => some v.pwr.eother
  | _ =>
    match regIdx a 0x100 8 8, regIdx a 0x200 8 4, regIdx a 0x1000 8 1024 with
    | some r, _, _ => some (if r = 3 && s.grade != 0 then 0 else railReg s r)
    | _, some d, _ => some (dieReg s d)
    | _, _, some x => some (learnReg s (x / 256) (x % 256))
    | _, _, _ =>
      match regIdx a 0x3000 8 16, regIdx a 0x3100 8 64 with
      | some j, _ => some (v.pwr.ejob.getD j 0)
      | _, some q => some (v.pwr.equeue.getD q 0)
      | _, _ => none

/-- The TWN window (R483, R484). -/
def readTwn (s : State) (a : Nat) : Option Nat :=
  match a with
  | 0x00 => some (twinStatus s)
  | 0x08 => some 0
  | 0x10 => some ((s.fab.twin.pagesTotal % 2 ^ 32) <<< 32 + s.fab.twin.pagesDone % 2 ^ 32)
  | _ => none

/-! ### LNK, SWC, BPM and TSC -/

/-- LNK.STATUS.STATE of a lane (R360). -/
def laneCode (st : LaneSt) : Nat :=
  match st with
  | .down => 0
  | .light | .fec | .ident => 1
  | .up => 2
  | .disabled => 3

/-- LNK.STATUS (R360). -/
def lnkReg (s : State) (l : Nat) : Nat :=
  let L := laneAt s l
  (laneCode L.st) <<< 61 + bitIn L.lightRx 60 + bitIn (L.laserIn || 256 ≤ l) 59 + bitIn L.peerOk 58 + bitIn L.polFixed 57
    + bitIn L.orderFixed 56 + (L.txSeq % 1024) <<< 46 + (L.rxExpect % 1024) <<< 36 + (min 0xFFFF L.rttNs) <<< 11
    + min 1024 (ceilDiv (retryBytes L) 64)

/-- The LNK window (R360 to R363). -/
def readLnk (s : State) (a : Nat) : Option Nat :=
  let l := a / 0x1000
  if 272 ≤ l then none
  else
    let L := laneAt s l
    match a % 0x1000 with
    | 0x00 => some (lnkReg s l)
    | 0x08 => some (L.idleWord % 2 ^ 64)
    | 0x10 => some ((L.nakLimit % 16) <<< 4 + bitIn L.enable 0)
    | o => (regIdx o 0x100 8 16).map (fun k => (laneAt (counterView s) l).cnt.getD k 0)

/-- A queue's state code (R293). -/
def QState.code (st : QState) : Nat :=
  match st with
  | .idle => 0 | .run => 1 | .wait => 2 | .preempted => 3 | .halted => 4 | .frozen => 5

/-- A QBIND TYPE (R284). -/
def QType.code (t : QType) : Nat :=
  match t with
  | .coll => 0 | .vec => 1 | .mtx => 2 | .dma => 3

/-- SWC.QSTAT[q] (R298). -/
def qstatReg (s : State) (q : Nat) : Nat :=
  let Q := queueAt s q
  if !Q.bound then 0
  else
    let cause := match Q.st, Q.cause, Q.pendingHalt with
      | .halted, some c, _ => c.code
      | .frozen, _, some h => h.cause.code
      | _, _, _ => 0
    (Q.job % 16) <<< 60 + Q.qtype.code <<< 58 + Q.st.code <<< 55 + cause <<< 47 + bitIn Q.inSeg 46
      + (if Q.inSeg then Q.seg % 2 ^ 12 else 0) <<< 34 + queuePc Q % 2 ^ 32

/-- SWC.QRING[q] (R299). -/
def qringReg (s : State) (q : Nat) : Nat :=
  let Q := queueAt s q
  Q.nextSeq.toNat <<< 48 + ((Q.head + Q.ring.length) % 2 ^ 14) <<< 32 + (Q.head % 2 ^ 14) <<< 16 + (8192 - Q.ring.length)

/-- The port, class and job of SWC.OQ_SEL (R391). -/
def oqEntries (s : State) : List OutEntry :=
  let v := s.fab.oqSel
  queueOf (portAt s (natField v 15 7)) (natField v 6 4) (natField v 3 0)

/-- SWC.OQ_DATA (R391). -/
def oqReg (s : State) : Nat :=
  let es := oqEntries s
  let cells := ((es.filterMap (fun e => e.alloc)).map (fun i => match allocAt s 0 i with | some a => a.units | none => 0)).sum
  (min (2 ^ 21 - 1) cells) <<< 43 + (min 0xFFFF es.length) <<< 27

/-- SWC.MIRROR_CFG[p] (R391). -/
def mirrorCfgReg (s : State) (p : Nat) : Nat :=
  ((portAt s p).mirrorLog.zipIdx.map (fun x => (x.1 % 32) <<< (5 * x.2))).sum

/-- A register indexed by a port ID: none for a reserved ID, 0 for a lane that is not the lowest of its port (R391,
R403). -/
def portReg (s : State) (p : Nat) (v : Nat) : Option Nat :=
  if !portIdOk p then none else if p < 272 && !isLanePort s p then some 0 else some v

/-- The SWC window (R271, R298, R299, R357, R391, R468). -/
def readSwc (s : State) (a : Nat) : Option Nat :=
  match a with
  | 0x1000 => some (s.fab.mirrorDest % 4)
  | 0x1008 => some ((min (2 ^ 32 - 1) s.fab.mirrorWraps) <<< 32 + s.fab.mirrorIndex % 2 ^ 32)
  | 0x1010 => some s.fab.mirrorDrops
  | 0x1020 => some (s.fab.oqSel % 2 ^ 16)
  | 0x1028 => some (oqReg s)
  | _ =>
    match regIdx a 0x2000 8 512, regIdx a 0xD000 8 8, regIdx a 0xE000 8 64 with
    | some p, _, _ => portReg s p (mirrorCfgReg s p)
    | _, some k, _ => some (s.fab.ageLimit.getD k 0 % 2 ^ 32)
    | _, _, some q => some (qstatReg s q)
    | _, _, _ =>
      match regIdx a 0xE200 8 64, regIdx a 0xF000 8 64, regIdx a 0xF200 8 16 with
      | some q, _, _ => some (qringReg s q)
      | _, some x, _ => some (natField (lookupD s.comp.jobFlags (x / 4) 0) (64 * (x % 4) + 63) (64 * (x % 4)))
      | _, _, some j => some (s.coll.abortLast.getD j 0)
      | _, _, _ => none

/-- BPM.REQ_DATA (R389). -/
def reqDataReg (B : Bpm) : Nat :=
  let pool := natField B.reqSel 17 16
  let req := natField B.reqSel 15 0
  let known := B.quotas.any (fun q => q.pool == pool && q.req == req)
  let (mn, mx) := quotaOf B pool req
  bitIn known 63 + bitIn (B.frozen.contains req) 62 + (if known then (min 0xFFFFF mn) <<< 42 + (min 0xFFFFF mx) <<< 22 else 0)
    + (min (2 ^ 21 - 1) (usedBy B pool req)) <<< 1

/-- A BPM instance (R389, R390). -/
def readBpm (s : State) (a : Nat) : Option Nat :=
  let i := a / 0x100000
  let B := bpmAt s i
  if 5 ≤ i then none
  else
    match a % 0x100000 with
    | 0x08 => some (bitIn B.overflow 63 + bitIn B.sized 62 + (min 0xFFFF B.frozen.length) <<< 32)
    | 0x80 => some (B.reqSel % 2 ^ 18)
    | 0x88 => some (reqDataReg B)
    | o =>
      match regIdx o 0x20 8 4, regIdx o 0x40 8 4 with
      | some p, _ =>
        let P := B.pools.getD p {}
        some ((P.first % 2 ^ 20) <<< 44 + (P.cells / 64) <<< 29 + (P.notice % 128) <<< 22 + (P.press % 128) <<< 15
          + (P.crit % 128) <<< 8 + P.block % 4)
      | _, some p =>
        let f := if B.sized then 4 ^ p else 1
        some (((B.pools.getD p {}).level % 4) <<< 62 + (min (2 ^ 21 - 1) (sharedUsed B p * f)) <<< 41
          + (min (2 ^ 21 - 1) (minUsed B p * f)) <<< 20)
      | _, _ =>
        match regIdx o 0x100 8 16, regIdx o 0x200 8 6 with
        | some k, _ => some (B.viol.getD k 0)
        | _, some k => some ((bpmAt (counterView s) i).cnt.getD k 0)
        | _, _ => none

/-- The meter that TSC.POL_SEL selects, as it stands in a state (R405). -/
def selMeter (s : State) (sel : Nat) : Meter := lookupD (portAt s (natField sel 15 7)).meters (natField sel 3 0) {}

/-- A meter's buckets at a fabric time, before the next arrival (R400). -/
def bucketsNow (s : State) (M : Meter) : Nat × Nat :=
  let pr := s.fab.profiles.getD M.profile {}
  let dt := s.fabricTime - M.last
  (min (pr.cbs * 1000) (M.tc + pr.cir * dt) / 1000, min (pr.pbs * 1000) (M.tp + pr.pir * dt) / 1000)

/-- TSC.POL_DATA (R405). -/
def polReg (s : State) : Nat :=
  let M := selMeter s s.fab.polSel
  let (tc, tp) := bucketsNow s M
  bitIn M.enable 63 + (M.profile % 64) <<< 57 + (tc % 2 ^ 24) <<< 32 + (tp % 2 ^ 24) <<< 8

/-- TSC.PROFILE[n][w] (R404). -/
def profileReg (p : Profile) (w : Nat) : Nat :=
  if w = 0 then (p.cir % 2 ^ 24) <<< 40 + (p.pir % 2 ^ 24) <<< 16 + (p.policed % 256) <<< 8 + p.yellowIn % 256
  else (p.cbs % 2 ^ 24) <<< 40 + (p.pbs % 2 ^ 24) <<< 16 + bitIn p.aware 0

/-- Weights packed into bytes from bit 0 on. -/
def packWeights (ws : List Nat) : Nat := (ws.zipIdx.map (fun x => (x.1 % 256) <<< (8 * x.2))).sum

/-- The TSC window (R402 to R405). -/
def readTsc (s : State) (a : Nat) : Option Nat :=
  match a with
  | 0x200 => some (s.fab.polSel % 2 ^ 16)
  | 0x208 => some (polReg s)
  | _ =>
    match regIdx a 0x100 8 16, regIdx a 0x210 8 4, regIdx a 0x1000 8 512 with
    | some j, _, _ => some (packWeights (s.fab.classW.getD j []))
    | _, some k, _ => some ((selMeter (counterView s) s.fab.polSel).cnt.getD k 0)
    | _, _, some p => portReg s p ((portAt s p).overhead % 64)
    | _, _, _ =>
      match regIdx a 0x2000 8 1024, regIdx a 0x6000 8 128 with
      | some x, _ => portReg s (x / 2) (packWeights (slice (portAt s (x / 2)).jobW (8 * (x % 2)) 8))
      | _, some x => some (profileReg (s.fab.profiles.getD (x / 2) {}) (x % 2))
      | _, _ => none

/-! ### TIM and the compute dies -/

/-- TIM.SYNC (R329). -/
def timSyncReg (s : State) : Nat :=
  let t := s.fab.tim
  let off : Int := max (-(2 ^ 31 : Int)) (min (2 ^ 31 - 1) t.offsetPs)
  (if t.state = 0 then 0xFF else t.stratum % 256) <<< 56 + (match t.parent with | some p => p % 512 | none => 0) <<< 47
    + (t.state % 8) <<< 44 + wrapInt 32 off

/-- TIM.SCHED (R331). -/
def schedReg (s : State) : Nat :=
  let c := s.fab.tim.sched
  let len := cycleLen c.cycleNs c.factor
  bitIn c.active 63 + (if c.active then c.factor % 4 else 0) <<< 61
    + (match c.pending with | some (_, f) => (f % 4) <<< 59 + 2 ^ 58 | none => 0) + bitIn c.queued.isSome 57
    + (if c.active then c.gated % 256 else 0) <<< 48 + (c.ownSeq % 2 ^ 16) <<< 32
    + (if c.active && len != 0 then (s.fabricTime - c.base) / len % 2 ^ 32 else 0)

/-- The TIM window (R328 to R332). -/
def readTim (s : State) (a : Nat) : Option Nat :=
  let t := s.fab.tim
  match a with
  | 0x00 => some (s.fabricTime % 2 ^ 64)
  | 0x08 => some (timSyncReg s)
  | 0x10 => some (schedReg s)
  | 0x18 => some (match t.sched.pending with | some (b, _) => b % 2 ^ 64 | none => 0)
  | 0x20 => some (if t.sched.factor = 0 then 0 else t.sched.expiry % 2 ^ 64)
  | 0x28 => some ((min 0xFFFF t.invalidReq) <<< 48 + (min 0xFFFF t.lateReq) <<< 32 + t.errBits % 64)
  | 0x30 => some 0
  | 0x40 => some (counterView s).fab.tim.lateWindows
  | _ => none

/-- FPFLAGS (R94). -/
def fpReg (r : FpReg) : Nat := (r.lastJob % 16) <<< 12 + r.flags.toNat

/-- JOB, ORDINAL_LOW, CHUNK and PAIR of a chunk as an engine shows them (R231). -/
def workFields (job ord chunk : Nat) (pair : Bool) : Nat :=
  (job % 16) <<< 52 + (ord % 2 ^ 16) <<< 36 + (chunk % 2 ^ 24) <<< 12 + bitIn pair 0

/-- The same of an ordinal's chunk. -/
def chunkFields (s : State) (job ord chunk : Nat) : Nat :=
  workFields job ord chunk (match entryOf s job ord with | some e => e.fAcc == .pair | none => false)

/-- A chunk's duplicate that waits to run on an engine (R214, R436). -/
def engineDup (s : State) (d g : Nat) : Option DupWait :=
  s.integ.dups.find? (fun x => x.kind == 0 && x.die == d && !heldFilter s x && (dupAlts s x).head? == some g)

/-- An output whose replay an engine has computed and that is not committed (R214, R444): its record and chunk. -/
def engineReplay (s : State) (d g : Nat) : Option (Coll × Outp) :=
  s.coll.colls.findSome? (fun c =>
    match entryOf s c.job c.ordinal with
    | some e => if entryDie e == d && !c.aborted && !c.completed then
        (c.outputs.find? (fun o => !o.copied && o.engine == g && o.failures != 0 && engineOf e o.chunk != g
          && o.consumers.any (fun k => !k.acked))).map (fun o => (c, o))
      else none
    | none => none)

/-- The current work of a Privet engine: STATE and the fields of its chunk (R231). (DEDUCED, assumption 73). -/
def engineWork (s : State) (d g : Nat) : Option (Nat × Nat) :=
  match engineDup s d g, engineReplay s d g, (chunksHeld s d g).head? with
  | some x, _, _ => some (5, chunkFields s x.job x.ordinal x.chunk)
  | _, some (c, o), _ => some (4, chunkFields s c.job c.ordinal o.chunk)
  | _, _, some (c, e, k) =>
    let st := if e.express then 3 else if isSelect e.kind || e.inputs.any (·.sparseOk) then 2 else 1
    some (st, chunkFields s c.job c.ordinal k)
  | _, _, _ => none

/-- RDE.ENG_STATUS[e] (R231): the engine's current work, else idle with the last chunk's fields; quarantined while its
remap waits. (DEDUCED, assumption 73). -/
def engReg (s : State) (d e : Nat) : Nat :=
  let (st, v) := (engineWork s d e).getD (0, lookupD s.coll.engLast (16 * d + e) 0)
  let quar := s.integ.quar.any (fun r => r.unit == 0 && r.die == d && r.logical == e && r.st == 0)
  (physOf s 0 d e % 32) <<< 59 + (if quar then 6 else st) <<< 56 + v % 2 ^ 56

/-- The queue whose work a chain group runs or waits on. -/
def groupQueue (s : State) (d g : Nat) : Option Nat :=
  let mine (q : Nat) : Bool :=
    let Q := queueAt s q
    Q.bound && Q.qtype == .vec && Q.die == d && (gangGroups Q).contains g
  let qs := (List.range 64).filter mine
  match qs.find? (fun q => holdsExec (queueAt s q)) with
  | some q => some q
  | none => qs.find? (fun q => (queueAt s q).st != .idle)

/-- A duplicate that waits to run on a chain group (R219, R436). -/
def groupDup (s : State) (d g : Nat) : Option DupWait :=
  s.integ.dups.find? (fun x => (x.kind == 1 || heldFilter s x) && x.die == d && (dupAlts s x).head? == some g)

/-- The step that a chain group runs for a shard (R195): its job and its item. -/
def groupStep (s : State) (d g : Nat) : Option (Nat × Nat) :=
  s.coll.shards.findSome? (fun h =>
    match h.step, stateOf s h.job h.id with
    | some st, some x => if x.die == d && shardGroup s h.job d == g then some (h.job, st.pos) else none
    | _, _ => none)

/-- The number of the queue that feeds a chain group with a shard's step. -/
def stepQueue (s : State) (job d : Nat) : Nat :=
  (s.comp.queues.findIdx? (fun Q => Q.bound && Q.job == job && Q.die == d && Q.qtype == .vec)).getD 0

/-- VEC.GROUP_STATUS[g] (R232): a duplicate that is to run here, else a shard's step, whose items are its batches, else
the stream of its queue. (DEDUCED, assumption 73). -/
def groupReg (s : State) (d g : Nat) : Nat :=
  let spared := ((List.range 8).filter (fun k => s.integ.remaps.any (fun r => r.unit == 1 && r.die == d && r.logical == 8 * g + k))).length
  match groupDup s d g, groupStep s d g, groupQueue s d g with
  | some x, _, _ => (x.job % 16) <<< 60 + (x.queue % 64) <<< 54 + 5 <<< 51 + spared <<< 44
      + (match (queueAt s x.queue).work with | some w => w.batch % 2 ^ 32 | none => 0)
  | _, some (job, pos), _ =>
    let st := if shardStopped s job d then 4 else 1
    (job % 16) <<< 60 + (stepQueue s job d % 64) <<< 54 + st <<< 51 + spared <<< 44 + pos % 2 ^ 32
  | _, _, none => spared <<< 44
  | _, _, some q =>
    let Q := queueAt s q
    let st := match Q.st with
      | .run => (match Q.work with | some w => if w.isChain then 1 else 2 | none => 2)
      | .wait => 3
      | .preempted | .frozen | .halted => 4
      | .idle => 0
    let stages := match Q.chain, Q.work with
      | some c, _ => c.stages.length - 1
      | none, some w => if w.isChain then w.chain.stages.length - 1 else 0
      | none, none => 0
    (Q.job % 16) <<< 60 + (q % 64) <<< 54 + st <<< 51 + (stages % 8) <<< 48 + spared <<< 44
      + (match Q.work with | some w => w.batch % 2 ^ 32 | none => 0)

/-- The order of formats from the slowest block pass on (R220). -/
def passSpeed (f : Fmt) : Nat := if f = .fp32 then 0 else if f = .bf16 || f = .fp16 then 1 else 2

/-- MTX.STATUS (R233): a pass whose duplicate is to run is shown under the rotated map.
(DEDUCED, assumption 73). -/
def mtxReg (s : State) (d : Nat) : Nat :=
  let spared (u : Nat) := ((s.integ.remaps.filter (fun r => r.unit == u && r.die == d)).length) % 16
  let tail := (spared 2) <<< 40 + (spared 3) <<< 36 + lookupD s.comp.mtxPasses d 0 % 2 ^ 32
  let rotated := (s.integ.dups.find? (fun x => x.kind == 2 && x.die == d)).bind (heldLaurel s)
  match (rotated.map (·.2)).orElse (fun _ => (s.comp.laurel.getD d []).head?) with
  | none => tail
  | some w =>
    let fa := w.a.fmt
    let fb := match w.b with | some b => b.fmt | none => fa
    let st := if rotated.isSome then 2 else if holdsExec (queueAt s w.queue) then 1 else 3
    (w.job % 16) <<< 60 + (w.queue % 64) <<< 54 + st <<< 51 + bitIn w.sparse 50 + bitIn w.a16 49
      + ((if passSpeed fb < passSpeed fa then fb else fa).code % 32) <<< 44 + tail

/-- MMU.TIER[j] (R429). -/
def tierReg (s : State) (d j : Nat) : Nat :=
  let fs := framesOf s j d
  let resident := fs.filter (fun f => match f.st with | .resident _ => true | _ => false)
  let held := fs.filter (fun f => !f.heldBy.isEmpty || (match f.st with | .free | .resident _ => false | _ => true))
  let waiters := (s.comp.tierFaults.filter (fun t => t.job == j && t.die == d)).length
  (fs.length % 2 ^ 18) <<< 46 + (resident.length % 2 ^ 18) <<< 28 + (held.length % 2 ^ 18) <<< 10 + min 1023 waiters

/-- DMA.CHAN[c] (R431): the current copy is the one that the channel runs next, or its oldest where none may run.
(DEDUCED, assumption 73). -/
def chanReg (s : State) (d c : Nat) : Nat :=
  let C : Channel := lookupD s.comp.chans (32 * d + c) {}
  let ahead := ((List.range 64).filter (fun q =>
    let Q := queueAt s q
    Q.bound && Q.qtype == .dma && Q.die == d && q % 32 == c)).map (fun q => (queueAt s q).runAhead)
  let fixed := (min 64 C.copies.length) <<< 44 + (min 64 ahead.sum) <<< 37
  match (nextCopy s C).or C.copies.head? with
  | none => fixed
  | some k =>
    let req := reqId 2 (32 * d + c) k.job
    let B := bpmAt s (1 + d)
    let st := if B.frozen.contains req then 3 else if (queueAt s k.queue).st == .preempted then 2
      else if C.waiting || B.waiting.any (fun w => w.1 == req) then 4 else 1
    st <<< 61 + (k.job % 16) <<< 57 + (k.queue % 64) <<< 51 + fixed + k.block % 2 ^ 32

/-- The window of compute die `d` (R552). -/
def readDie (s : State) (d a : Nat) : Option Nat :=
  let v := counterView s
  let o := a % 0x100000
  match a / 0x100000 with
  | 0 =>
    match regIdx o 0x100 8 16, regIdx o 0x8000 8 16, regIdx o 0x9000 8 16 with
    | some e, _, _ => some (engReg s d e)
    | _, some e, _ => some (fpReg (lookupD s.comp.fpRde (16 * d + e) {}))
    | _, _, some j => some (lookupD s.coll.lagWorst (16 * d + j) 0)
    | _, _, _ =>
      if o = 0x9080 then some 0
      else
        match regIdx o 0x9100 8 16, regIdx o 0x9180 8 16 with
        | some j, _ => some (lookupD v.comp.metaCnt (16 * d + j) 0)
        | _, some j => some (lookupD s.comp.metaLast (16 * d + j) 0)
        | _, _ => none
  | 1 =>
    match regIdx o 0x1000 8 128, regIdx o 0x8000 8 128 with
    | some g, _ => some (groupReg s d g)
    | _, some g => some (fpReg (lookupD s.comp.fpVec (128 * d + g) {}))
    | _, _ => none
  | 2 => if o = 0x100 then some (mtxReg s d) else if o = 0x8000 then some (fpReg (lookupD s.comp.fpMtx d {})) else none
  | 3 =>
    match regIdx o 0x100 8 16, regIdx o 0x200 8 16 with
    | some j, _ => some (lookupD s.comp.mmuFault (16 * d + j) 0)
    | _, some j => some (tierReg s d j)
    | _, _ =>
      match regIdx o 0x300 8 10, regIdx o 0xA000 8 16 with
      | some k, _ => some (lookupD v.comp.mmuCnt (16 * d + k) 0)
      | _, some j => some (optState s d j)
      | _, _ => none
  | 4 => (regIdx o 0x100 8 32).map (chanReg s d)
  | 5 => (regIdx o 0x100 8 8).map (fun k => lookupD v.dbg.queCnt (8 * d + k) 0)
  | _ => none

/-! ### MEM and DBG -/

/-- The MEM window (R554). -/
def readMem (s : State) (a : Nat) : Option Nat :=
  match regIdx a 0 8 8, regIdx a 0x1000000 8 12 with
  | some c, _ =>
    let (st, mts, g) := s.mgt.ddr.getD c (0, 0, 0)
    some ((st % 4) <<< 62 + (mts % 2 ^ 14) <<< 48 + (g % 2 ^ 10) <<< 38)
  | _, some k =>
    let (st, t) := s.mgt.hbm.getD k (0, 0)
    some ((st % 4) <<< 62 + (t % 256) <<< 54)
  | _, _ => none

/-- DBG.TRACE_STATUS (R566). -/
def traceStatusReg (s : State) : Nat :=
  let g := s.dbg
  bitIn g.running 63 + bitIn g.stopFull 62 + (min (2 ^ 22 - 1) g.wraps) <<< 40 + (min 127 g.drops) <<< 33 + g.wrIndex % 2 ^ 33

/-- DBG.TRACE_FILTER (R566). -/
def traceFilterReg (s : State) : Nat := (s.dbg.jobs % 2 ^ 16) <<< 48 + s.dbg.sources % 2 ^ 10

/-- DBG.LAG_DATA (R559). -/
def lagReg (s : State) : Nat :=
  let v := s.dbg.lagSel
  let k := ((natField v 63 62) * 16 + natField v 61 58) * 2 ^ 15 + natField v 57 43
  let (n, ns) := lookupD (counterView s).coll.lag k (0, 0)
  (min (2 ^ 24 - 1) n) <<< 40 + min (2 ^ 40 - 1) ns

/-- DBG.MOE_DATA (R560). -/
def moeReg (s : State) : Nat :=
  lookupD (counterView s).coll.moeDrops (natField s.dbg.moeSel 63 60 * 65536 + natField s.dbg.moeSel 15 0) 0

/-- Eight bytes of the trace region through DBG.TRACE_WIN (R566). -/
def traceWord (s : State) (x : Nat) : Option Nat :=
  let off := s.dbg.win * 2 ^ 27 + x
  if s.dbg.traceGib * 2 ^ 30 ≤ off then none
  else some (leVal (s.comp.mem.getBytes (memKey 2 0 (Config.traceBase + off)) 8))

/-- The DBG window (R559 to R561, R566). -/
def readDbg (s : State) (a : Nat) : Option Nat :=
  match a with
  | 0x000 => some ((s.dbg.traceGib * 1024) <<< 32)
  | 0x008 => some (traceStatusReg s)
  | 0x010 => some (traceFilterReg s)
  | 0x018 => some (s.dbg.win % 2 ^ 11)
  | 0x100 => some (s.dbg.lagSel - s.dbg.lagSel % 2 ^ 43)
  | 0x108 => some (lagReg s)
  | 0x110 => some (natField s.dbg.moeSel 63 60 <<< 60 + natField s.dbg.moeSel 15 0)
  | 0x118 => some (moeReg s)
  | _ =>
    match regIdx a 0x180 8 16 with
    | some j => some ((counterView s).coll.moeInvalid.getD j 0)
    | none => if 0x8000000 ≤ a && a < 0x10000000 then traceWord s (a - 0x8000000) else none

/-! ### The map -/

/-- Whether an address lies in a window, instance or range that the grade lacks (R9, R551). -/
def absentAddr (s : State) (a : Nat) : Bool :=
  s.grade != 0 && ((0x13000000 ≤ a && a < 0x14000000) || (0x09400000 ≤ a && a < 0x09500000)
    || (0x21000000 + 8 * 9 ≤ a && a < 0x21000000 + 8 * 12))

/-- The register at an 8-byte-aligned address (R551); none where no register lies (R18). -/
def regAt (s : State) (a : Nat) : Option Nat :=
  if a < 0x01000000 then readMgt s a
  else if a < 0x02000000 then readSec s (a - 0x01000000)
  else if a < 0x03000000 then readPwr s (a - 0x02000000)
  else if a < 0x04000000 then readTwn s (a - 0x03000000)
  else if a < 0x08000000 then readLnk s (a - 0x04000000)
  else if a < 0x09000000 then readSwc s (a - 0x08000000)
  else if a < 0x09500000 then readBpm s (a - 0x09000000)
  else if 0x0A000000 ≤ a && a < 0x0C000000 then readTsc s (a - 0x0A000000)
  else if 0x0C000000 ≤ a && a < 0x10000000 then readTim s (a - 0x0C000000)
  else if 0x10000000 ≤ a && a < 0x14000000 then readDie s ((a - 0x10000000) / 0x1000000) (a % 0x1000000)
  else if 0x20000000 ≤ a && a < 0x30000000 then readMem s (a - 0x20000000)
  else if 0x30000000 ≤ a && a < 0x40000000 then readDbg s (a - 0x30000000)
  else none

/-- Where an access stops before it acts (R17): UNIT_ABSENT, RANGE, ALIGN, in this order. -/
def accessCheck (s : State) (a : Nat) : Option Res :=
  let b := a - a % 8
  if absentAddr s b then some .unitAbsent
  else if (regAt s b).isNone then some .range
  else if a % 8 != 0 then some .align
  else none

/-- READ_REG (R17, R543): SEC.FUSE_CTRL answers BUSY while a burn runs (R531). -/
def readRegister (s : State) (a : Nat) : Except Res Nat :=
  match accessCheck s a with
  | some r => .error r
  | none => if a = 0x01000008 && s.mgt.burn != .none then .error .busy else .ok ((regAt s a).getD 0 % 2 ^ 64)

end Sys2Proof.Machine
end

