-- ==== Sys2Proof/Machine/Fmd.lean ====
section
/-! DEFINITION. Management requests: transport and sessions (R533 to R538), request handling and the reply cache
(R539, R540), service by state (R542), register writes (R19, R551) and the requests that read or write registers. -/

namespace Sys2Proof.Machine

/-! ### Replies -/

/-- Add to MGT.FMD_CNT[k] (R553). (DEDUCED, assumption 85). -/
def bumpFmd (s : State) (k : Nat) : State := setMgt s (fun m => { m with fmdCnt := bumpAt m.fmdCnt k 1 })

/-- The attention bits [15:8] of a STATUS word as they stand (R549, R550). -/
def attnByte (s : State) : Nat := attnReg s / 256

/-- A reply leaves (R536, R549). `session` 8 is a PLAIN request's sender, whose attention bits read 0 (R534).
(DEDUCED, assumption 84; DESIGN CHOICE, assumption 89). -/
def sendReply (s : State) (session tag op : Nat) (r : Res) (pl : List Byte) : State :=
  setMgt s (fun m => { m with replies :=
    { session := session, tag := tag, opcode := op, result := r.code, attn := if session = 8 then 0 else attnByte s, payload := pl } :: m.replies })

/-- A session slot. -/
def sessAt (s : State) (k : Nat) : Session := s.mgt.sessions.getD k {}

/-- Change a session slot. -/
def setSess (s : State) (k : Nat) (f : Session → Session) : State :=
  setMgt s (fun m => { m with sessions := m.sessions.modify k f })

/-- Keep a reply in the session's cache of 64; a new entry replaces the oldest (R540). -/
def cacheReply (s : State) (k tag op crc : Nat) (r : Res) (pl : List Byte) : State :=
  setSess s k (fun x => { x with cache := (⟨tag, op, crc, r.code, pl⟩ :: x.cache).take 64 })

/-- A session's request ends with a result: BUSY is counted and not cached, every other reply is (R540, R553). -/
def finishReply (s : State) (k tag op crc : Nat) (r : Res) (pl : List Byte) : State :=
  let s := if r = .busy then bumpFmd s 4 else cacheReply s k tag op crc r pl
  sendReply s k tag op r pl

/-! ### Request handling -/

/-- Whether the module's state serves an opcode (R542); `sub` is the KIND of an IMAGE_PUSH and 1 for a WRITE_REG of
the SEC block. While CUST_HASH is blank R527 leaves SPDM, READ_REG and WRITE_REG. (DEDUCED, assumption 84). -/
def serves (s : State) (op sub : Nat) : Bool :=
  (match s.mgt.st with
   | .off | .boot => false
   | .recovery => [1, 0x10, 0x12, 0x16, 0x17, 0x41, 0x60].contains op || (op == 0x40 && (sub == 1 || sub == 2)) || (op == 0x11 && sub == 1)
   | .config => [1, 0x10, 0x41].contains op || (op == 0x40 && sub == 2)
   | .train => [1, 0x10].contains op
   | .sync => !([0x30, 0x31].contains op) && !(op == 0x40 && sub == 0)
   | .ready | .run | .degraded => true
   | .safe => [1, 0x10, 0x12, 0x13, 0x14, 0x16, 0x60].contains op)
  && (s.mgt.custKey.isSome || [1, 0x10, 0x11].contains op)

/-- Whether the module accepts datagrams (R542). -/
def listens (s : State) : Bool := s.mgt.st != .off && s.mgt.st != .boot

/-- Whether a sequence number is accepted: not yet seen and less than 64 below the highest (R535). -/
def seqOk (x : Session) (seq : Nat) : Bool :=
  (match x.seqHigh with
   | some h => h < seq + 64
   | none => true) && !x.seqSeen.contains seq

/-- A message of a session is accepted: its sequence number, port and time are noted (R535, R537, R553). -/
def noteMessage (s : State) (k : Nat) (h : FmdReq) : State :=
  setSess s k (fun x =>
    let high := max h.seq (x.seqHigh.getD 0)
    { x with lastAt := s.now, port := h.port, ipv6 := h.ipv6, seqHigh := some high
             seqSeen := (h.seq :: x.seqSeen).filter (fun n => high < n + 64) })

/-- A discarded secured message (R535): counted, and the first in each second sets SEC (R550). -/
def discardSecured (s : State) : State :=
  let s := bumpFmd s 1
  match s.mgt.secFailAt with
  | some t => if s.now < t + 1000000000 then s
      else setAttn (setMgt s (fun m => { m with secFailAt := some s.now })) aSec
  | none => setAttn (setMgt s (fun m => { m with secFailAt := some s.now })) aSec

/-- A session's cells in instance 0 for a request of `n` bytes, from decryption until its reply leaves (R375, R538);
before the pools are configured there is nothing to charge. (DEDUCED, assumption 85). -/
def sessionCells (s : State) (k n : Nat) : Option (State × Option Nat) :=
  if (bpmAt s 0).pools.isEmpty then some (s, none)
  else
    let r := reqId 3 k 0
    match bpmAlloc s 0 r n [.req r] with
    | .ok s id => some (s, some id)
    | _ => none

/-- What an operation answers: a result and payload, or nothing yet. -/
abbrev Answer := State × Option (Res × List Byte)

/-- A request that ends at once. (DEDUCED, assumption 85). -/
def answered (s : State) (r : Res) (pl : List Byte := []) : Answer := (s, some (r, pl))

/-- A request that a row of R539 turns away. -/
def refuseReq (s : State) (k tag op crc : Nat) (r : Res) : State := finishReply s k tag op crc r []

/-- The rows of R539 for an accepted plaintext of session `k`: cache, form, state, frozen requester, cells, and the
operation itself. `after` follows the reply of an operation that answers OK. (DEDUCED, assumption 85). -/
def runThen (after : State → State) (k tag op : Nat) (ops : List Byte) (bad served free : Bool) (act : State → Answer)
    (s : State) : State :=
  let crc := crc32c ops
  match (sessAt s k).cache.find? (fun c => c.tag == tag && c.opcode == op && c.crc == crc) with
  | some c =>
    let s := bumpFmd s 3
    setMgt s (fun m => { m with replies :=
      { session := k, tag := tag, opcode := op, result := c.result, attn := attnByte s, payload := c.payload } :: m.replies })
  | none =>
    if tag == 0xFFFF || bad then refuseReq s k tag op crc .format
    else if !served then refuseReq s k tag op crc .state
    else if !free && isFrozen s 0 (reqId 3 k 0) then refuseReq s k tag op crc .frozen
    else
      match sessionCells s k (8 + ops.length) with
      | none => refuseReq s k tag op crc .busy
      | some (s, cells) =>
        let (s, ans) := act s
        let s := match cells with
          | some id => dropAlloc s 0 id
          | none => s
        match ans with
        | some (r, pl) =>
          let s := finishReply (if r = .busy then s else bumpFmd s 2) k tag op crc r pl
          if r = .ok then after s else s
        | none => bumpFmd s 2

/-- A management request (R534 to R539): a PLAIN one gets AUTH; a secured one whose session or sequence number is not
good is discarded; any other is handled by R539. -/
def requestThen (after : State → State) (h : FmdReq) (op : Nat) (ops : List Byte) (bad served free : Bool)
    (act : State → Answer) (s : State) : State :=
  if !listens s then s
  else
    match h.slot with
    | none => sendReply s 8 h.tag op .auth []
    | some k =>
      if !(sessAt s k).valid || !seqOk (sessAt s k) h.seq then discardSecured s
      else runThen after k h.tag op ops bad served free act (noteMessage s k h)

/-- A management request after whose reply nothing follows. (DEDUCED, assumption 84). -/
def request (h : FmdReq) (op : Nat) (ops : List Byte) (bad served free : Bool) (act : State → Answer) (s : State) : State :=
  requestThen id h op ops bad served free act s

/-! ### Register writes -/

/-- Whether an address is in the SEC block (R551). -/
def inSec (a : Nat) : Bool := 0x01000000 ≤ a && a < 0x02000000

/-- Bits of `x` that a W1C write of `v` leaves (R19). -/
def w1c (x v mask : Nat) : Nat := x - (x &&& v &&& mask)

/-- A register write with its result; a write that a rule refuses changes nothing (R19). -/
abbrev WriteRes := Res × State

/-- MGT writes: MGT.ATTN and the W1C bits of MGT.INTEG_STATUS (R458, R550). -/
def writeMgt (s : State) (a v : Nat) : WriteRes :=
  match a with
  | 0x10 => (.ok, { s with attn := s.attn &&& ~~~(BitVec.ofNat 16 (v &&& 0x7F00)) })
  | 0x208 => (.ok, { s with integ := { s.integ with
      sparesBit := s.integ.sparesBit && !natBit v 63, undecided := s.integ.undecided && !natBit v 57
      expelled := s.integ.expelled && !natBit v 56 } })
  | _ => (.ok, s)

/-- The staged customer hash as 64 bytes, little-endian (R531). -/
def stagedHash (s : State) : List Byte := s.mgt.custStage.flatMap (leBytes 8)

/-- SEC writes (R531). A FUSE_CTRL write whose condition fails burns nothing. -/
def writeSec (s : State) (a v : Nat) : WriteRes :=
  if a = 8 then
    let cust := natBit v 0
    let adv := natBit v 1
    let val := natField v 7 2
    if s.mgt.burn != .none then (.busy, s)
    else if cust && s.mgt.fuses.custHash.isSome then (.state, s)
    else if adv && (val ≤ s.mgt.fuses.svnMin || s.mgt.fwSvn < val) then (.range, s)
    else (.ok, setMgt s (fun m => { m with burn :=
      match cust, adv with
      | true, true => .both (stagedHash s) val
      | true, false => .cust (stagedHash s)
      | false, true => .svn val
      | false, false => .none }))
  else
    match regIdx a 0x100 8 8 with
    | some i => (.ok, setMgt s (fun m => { m with custStage := m.custStage.set i (v % 2 ^ 64) }))
    | none => (.ok, s)

/-- PWR.CAP (R502): takes effect at the next window. -/
def writeCap (s : State) (v : Nat) : WriteRes :=
  let cap := natField v 44 33
  let w := natField v 32 28
  let mx := natField v 27 18
  if cap < 600 || tdp s < cap || w < 1 || 16 < w || mx < 550 || 850 < mx || mx % 5 != 0 then (.range, s)
  else (.ok, setPwr s (fun p => { p with capW := cap, windowUs := w, vcompMax := mx }))

/-- PWR.RAIL[r] (R503): the limit within its range, and OVER cleared by writing one. -/
def writeRail (s : State) (r v : Nat) : WriteRes :=
  let l := natField v 15 2
  if r = 3 && s.grade != 0 then (.ok, s)
  else if l < (limitRange r).1 || (limitRange r).2 < l then (.range, s)
  else (.ok, setRail s r (fun x => { x with limitDa := l, overLim := x.overLim && !natBit v 59 }))

/-- PWR writes. -/
def writePwr (s : State) (a v : Nat) : WriteRes :=
  if a = 8 then writeCap s v
  else match regIdx a 0x100 8 8 with
    | some r => writeRail s r v
    | none => (.ok, s)

/-- TWN.CTRL (R484). (DEDUCED, assumption 87). -/
def writeTwn (s : State) (a v : Nat) : WriteRes :=
  if a = 8 then
    match natBit v 1, natBit v 0 with
    | true, false => (match ctrlDetach s with | some t => (.ok, t) | none => (.state, s))
    | false, true => (match ctrlForceSolo s with | some t => (.ok, t) | none => (.state, s))
    | true, true => (.state, s)
    | false, false => (.ok, s)
  else (.ok, s)

/-- LNK.CTRL of a lane (R359, R362, R523): ENABLE = 0 holds it down and dark, RETRAIN takes it down to train again; without
a twin the twin lanes stay down. -/
def writeLane (s : State) (l v : Nat) : State :=
  let en := natBit v 0
  let was := (laneAt s l).enable
  let s := setLane s l (fun L => { L with nakLimit := natField v 7 4, enable := en })
  if !en then (if was then laneGoesDown s l 0 false else s)
  else
    let s := if was || (256 ≤ l && !s.fab.twin.present) then s else setLane s l (fun L => { L with st := .down })
    if !natBit v 1 then s
    else if (laneAt s l).st = .down then cntLane s l 15 1 else retrainLane s l 4

/-- LNK writes. -/
def writeLnk (s : State) (a v : Nat) : WriteRes := if a % 0x1000 = 0x10 then (.ok, writeLane s (a / 0x1000) v) else (.ok, s)

/-- SWC.MIRROR_CTRL (R388, R391, R548): a write of 2 makes the writing session the mirror session.
(DEDUCED, assumption 87). -/
def writeMirrorCtrl (s : State) (slot v : Nat) : WriteRes :=
  match v % 4 with
  | 3 => (.format, s)
  | 1 => if s.fab.mirrorGib = 0 then (.state, s) else (.ok, { s with fab := { s.fab with mirrorDest := 1 } })
  | 2 => (.ok, { s with fab := { s.fab with mirrorDest := 2, mirrorSession := some slot } })
  | _ => (.ok, { s with fab := { s.fab with mirrorDest := 0 } })

/-- SWC.MIRROR_CFG[p] (R386, R391): a write to an exponent sets its counter to 0. -/
def writeMirrorCfg (s : State) (p v : Nat) : WriteRes :=
  let logs := (List.range 8).map (fun k => natField v (5 * k + 4) (5 * k))
  if p < 272 && !isLanePort s p then (.ok, s)
  else if !logs.all log2nOk then (.format, s)
  else (.ok, setPort s p (fun P => { P with mirrorLog := logs, mirrorSeq := List.replicate 8 0 }))

/-- SWC writes (R357, R391, R468). -/
def writeSwc (s : State) (slot a v : Nat) : WriteRes :=
  match a with
  | 0x1000 => writeMirrorCtrl s slot v
  | 0x1020 => (.ok, { s with fab := { s.fab with oqSel := v % 2 ^ 16 } })
  | _ =>
    match regIdx a 0x2000 8 512, regIdx a 0xD000 8 8, regIdx a 0xF200 8 16 with
    | some p, _, _ => writeMirrorCfg s p v
    | _, some k, _ =>
      let n := v % 2 ^ 32
      if n < 1000 || 10000000 < n then (.range, s) else (.ok, { s with fab := { s.fab with ageLimit := s.fab.ageLimit.set k n } })
    | _, _, some j => (.ok, { s with coll := { s.coll with abortLast := s.coll.abortLast.modify j (fun x => w1c x v 1) } })
    | _, _, _ => (.ok, s)

/-- BPM writes (R389). -/
def writeBpm (s : State) (a v : Nat) : WriteRes :=
  let i := a / 0x100000
  match a % 0x100000 with
  | 0x08 => (.ok, setBpm s i (fun B => { B with overflow := B.overflow && !natBit v 63 }))
  | 0x80 => if 4 ≤ natField v 15 13 then (.format, s) else (.ok, setBpm s i (fun B => { B with reqSel := v % 2 ^ 18 }))
  | o =>
    match regIdx o 0x100 8 16 with
    | some k => (.ok, setBpm s i (fun B => { B with viol := B.viol.modify k (fun x => w1c x v (15 * 2 ^ 59)) }))
    | none => (.ok, s)

/-- TSC.CLASS_W[j] (R397, R402). -/
def writeClassW (s : State) (j v : Nat) : WriteRes :=
  let ws := (List.range 7).map (fun k => natField v (8 * k + 7) (8 * k))
  if ws.any (· == 0) then (.range, s) else (.ok, { s with fab := { s.fab with classW := s.fab.classW.set j ws } })

/-- TSC.JOB_W[p][h] (R397, R403). -/
def writeJobW (s : State) (p h v : Nat) : WriteRes :=
  let ws := (List.range 8).map (fun k => natField v (8 * k + 7) (8 * k))
  if p < 272 && !isLanePort s p then (.ok, s)
  else if ws.any (· == 0) then (.range, s)
  else (.ok, setPort s p (fun P =>
      let js := if h = 0 then ws ++ slice P.jobW 8 8 else slice P.jobW 0 8 ++ ws
      { P with jobW := js }))

/-- TSC.PROFILE[n][w] (R401, R404). -/
def writeProfile (s : State) (n w v : Nat) : WriteRes :=
  let old := s.fab.profiles.getD n {}
  let new : Profile := if w = 0 then
      { old with cir := natField v 63 40, pir := natField v 39 16, policed := natField v 15 8, yellowIn := natField v 7 0 }
    else { old with cbs := natField v 63 40, pbs := natField v 39 16, aware := natBit v 0 }
  if profileOk new then (.ok, { s with fab := { s.fab with profiles := s.fab.profiles.set n new } }) else (.range, s)

/-- TSC.POL_DATA (R401, R405): the selected meter is set and both of its buckets refill. -/
def writePolData (s : State) (v : Nat) : WriteRes :=
  let p := natField s.fab.polSel 15 7
  let n := natField v 62 57
  let pr := s.fab.profiles.getD n {}
  if p < 272 && !isLanePort s p then (.ok, s)
  else
    let M := { selMeter s s.fab.polSel with
        enable := natBit v 63, profile := n, tc := pr.cbs * 1000, tp := pr.pbs * 1000, last := s.fabricTime }
    (.ok, setPort s p (fun P => { P with meters := insertKey P.meters (natField s.fab.polSel 3 0) M }))

/-- TSC writes (R402 to R405). -/
def writeTsc (s : State) (a v : Nat) : WriteRes :=
  match a with
  | 0x200 => if portIdOk (natField v 15 7) then (.ok, { s with fab := { s.fab with polSel := natField v 15 7 <<< 7 + natField v 3 0 } }) else (.range, s)
  | 0x208 => writePolData s v
  | _ =>
    match regIdx a 0x100 8 16, regIdx a 0x1000 8 512, regIdx a 0x2000 8 1024 with
    | some j, _, _ => writeClassW s j v
    | _, some p, _ => (.ok, cfgPort s p (fun P => { P with overhead := natField v 5 0 }))
    | _, _, some x => writeJobW s (x / 2) (x % 2) v
    | _, _, _ =>
      match regIdx a 0x6000 8 128 with
      | some x => writeProfile s (x / 2) (x % 2) v
      | none => (.ok, s)

/-- TIM writes (R330, R332). -/
def writeTim (s : State) (a v : Nat) : WriteRes :=
  match a with
  | 0x28 => (.ok, setTim s (fun t => { t with errBits := w1c t.errBits v 63 }))
  | 0x30 => (match timSet s v with | some t => (.ok, t) | none => (.state, s))
  | _ => (.ok, s)

/-- A W1C write to a flags register (R94, R95). -/
def clearFp (r : FpReg) (v : Nat) : FpReg := { r with flags := r.flags &&& ~~~(BitVec.ofNat 8 v) }

/-- RDE.LAG_CLEAR (R158, R559). -/
def clearLag (s : State) (d v : Nat) : State :=
  let hit (j : Nat) : Bool := natBit (v % 2 ^ 16) j
  { s with coll := { s.coll with
      lagWorst := s.coll.lagWorst.filter (fun x => !(x.1 / 16 == d && hit (x.1 % 16)))
      lag := s.coll.lag.filter (fun x => !(x.1 / 2 ^ 15 / 16 == d && hit (x.1 / 2 ^ 15 % 16)))
      lagFull := s.coll.lagFull.filter (fun x => !(x.1 / 16 == d && hit (x.1 % 16))) } }

/-- Writes to a compute die's window (R94, R158, R428). -/
def writeDie (s : State) (d a v : Nat) : WriteRes :=
  let o := a % 0x100000
  match a / 0x100000 with
  | 0 =>
    if o = 0x9080 then (.ok, clearLag s d v)
    else match regIdx o 0x8000 8 16 with
      | some e => (.ok, { s with comp := { s.comp with
          fpRde := insertKey s.comp.fpRde (16 * d + e) (clearFp (lookupD s.comp.fpRde (16 * d + e) {}) v) } })
      | none => (.ok, s)
  | 1 =>
    match regIdx o 0x8000 8 128 with
    | some g => (.ok, { s with comp := { s.comp with
        fpVec := insertKey s.comp.fpVec (128 * d + g) (clearFp (lookupD s.comp.fpVec (128 * d + g) {}) v) } })
    | none => (.ok, s)
  | 2 =>
    if o = 0x8000 then (.ok, { s with comp := { s.comp with
      fpMtx := insertKey s.comp.fpMtx d (clearFp (lookupD s.comp.fpMtx d {}) v) } })
    else (.ok, s)
  | 3 =>
    match regIdx o 0x100 8 16 with
    | some j => (.ok, { s with comp := { s.comp with
        mmuFault := insertKey s.comp.mmuFault (16 * d + j) (w1c (lookupD s.comp.mmuFault (16 * d + j) 0) v (2 ^ 63)) } })
    | none => (.ok, s)
  | _ => (.ok, s)

/-- DBG writes (R559, R560, R566). -/
def writeDbg (s : State) (a v : Nat) : WriteRes :=
  match a with
  | 0x018 => (.ok, { s with dbg := { s.dbg with win := v % 2 ^ 11 } })
  | 0x100 => if dieExists s (natField v 63 62) then (.ok, { s with dbg := { s.dbg with lagSel := v - v % 2 ^ 43 } }) else (.unitAbsent, s)
  | 0x110 => (.ok, { s with dbg := { s.dbg with moeSel := natField v 63 60 <<< 60 + natField v 15 0 } })
  | _ => (.ok, s)

/-- A write to a register that exists (R19, R551): every read-only field keeps its value. -/
def writeAt (s : State) (slot a v : Nat) : WriteRes :=
  if a < 0x01000000 then writeMgt s a v
  else if a < 0x02000000 then writeSec s (a - 0x01000000) v
  else if a < 0x03000000 then writePwr s (a - 0x02000000) v
  else if a < 0x04000000 then writeTwn s (a - 0x03000000) v
  else if a < 0x08000000 then writeLnk s (a - 0x04000000) v
  else if a < 0x09000000 then writeSwc s slot (a - 0x08000000) v
  else if a < 0x09500000 then writeBpm s (a - 0x09000000) v
  else if 0x0A000000 ≤ a && a < 0x0C000000 then writeTsc s (a - 0x0A000000) v
  else if 0x0C000000 ≤ a && a < 0x10000000 then writeTim s (a - 0x0C000000) v
  else if 0x10000000 ≤ a && a < 0x14000000 then writeDie s ((a - 0x10000000) / 0x1000000) (a % 0x1000000) v
  else if 0x30000000 ≤ a then writeDbg s (a - 0x30000000) v
  else (.ok, s)

/-! ### Register requests -/

/-- Whether the die that answers an address is without power in SAFE (R27, R498): every block but those of the service
die. (DEDUCED, assumption 86). -/
def dieSilent (s : State) (a : Nat) : Bool :=
  s.mgt.st == .safe && ((0x03000000 ≤ a && a < 0x20000000) || (0x21000000 ≤ a && a < 0x30000000))

/-- An access that its die does not complete (R28): DEADLINE, FAULT and an entry in the service die's ring.
(DEDUCED, assumption 86). -/
def accessTimesOut (s : State) (a : Nat) : State := setAttn (ringLog s 0 0x01 [a % 2 ^ 32]) aFault

/-- READ_REG's operation (R543). -/
def readAct (a : Nat) (s : State) : Answer :=
  match accessCheck s a with
  | some r => answered s r
  | none =>
    if dieSilent s a then answered (accessTimesOut s a) .deadline
    else match readRegister s a with
      | .ok v => answered s .ok (beBytes 8 v)
      | .error r => answered s r

/-- WRITE_REG's operation (R17, R19, R527, R543). -/
def writeAct (slot a v : Nat) (s : State) : Answer :=
  if s.mgt.custKey.isNone && !inSec a then answered s .auth
  else match accessCheck s a with
    | some r => answered s r
    | none =>
      if dieSilent s a then answered (accessTimesOut s a) .deadline
      else
        let (r, t) := writeAt s slot a (v % 2 ^ 64)
        answered t r

/-- READ_REG (R543). -/
def doReadReg (h : FmdReq) (addr : Word32) (s : State) : State :=
  request h 0x10 (beBytes 4 addr.toNat) false (serves s 0x10 0) true (readAct addr.toNat) s

/-- A WRITE_REG of a value to an address: the row WRITE_REG and every row that names one register's write. -/
def regWrite (h : FmdReq) (a v : Nat) (s : State) : State :=
  request h 0x11 (beBytes 4 a ++ beBytes 8 v) false (serves s 0x11 (if inSec a then 1 else 0)) false
    (writeAct (h.slot.getD 8) a v) s

/-- WRITE_REG (R19). -/
def doWriteReg (h : FmdReq) (addr : Word32) (v : Word) (s : State) : State := regWrite h addr.toNat v.toNat s

/-- READ_BLOCK's values: registers one after the other until the first access that fails (R543). -/
def readRun (a : Nat) : Nat → State → List Byte → State × Res × List Byte
  | 0, s, acc => (s, .ok, acc)
  | n + 1, s, acc =>
    match readAct a s with
    | (t, some (.ok, bs)) => readRun (a + 8) n t (acc ++ bs)
    | (t, some (r, _)) => (t, r, acc)
    | (t, none) => (t, .state, acc)

/-- READ_BLOCK's payload: DONE, six bytes of zero, and the values read (R543). -/
def readBytes (bs : List Byte) : List Byte := beBytes 2 (bs.length / 8) ++ List.replicate 6 0 ++ bs

/-- READ_BLOCK (R543). -/
def doReadBlock (h : FmdReq) (addr : Word32) (count : Nat) (s : State) : State :=
  request h 0x12 (beBytes 4 addr.toNat ++ beBytes 2 count) (count < 1 || 512 < count) (serves s 0x12 0) false (fun s =>
    let (t, r, bs) := readRun addr.toNat count s []
    answered t r (readBytes bs)) s

/-- The access that its answering die does not complete (R28); one refused before it reaches the die has the answer of
its refusal. -/
def lateAccess (a : Nat) (s : State) : Answer :=
  match accessCheck s a with
  | some r => answered s r
  | none => answered (accessTimesOut s a) .deadline

/-- REG_ACCESS_TIMEOUT (R28): the answering die has not completed the access within 10 µs. A READ_BLOCK stops there with
the values read before it (R543). (DEDUCED, assumption 86). -/
def doRegAccessTimeout (h : FmdReq) (acc : RegAccess) (s : State) : State :=
  let a := acc.addr.toNat
  match acc.kind with
  | .read => request h 0x10 (beBytes 4 a) false (serves s 0x10 0) true (lateAccess a) s
  | .write v => request h 0x11 (beBytes 4 a ++ beBytes 8 v.toNat) false (serves s 0x11 (if inSec a then 1 else 0)) false
      (fun s => if s.mgt.custKey.isNone && !inSec a then answered s .auth else lateAccess a s) s
  | .block count done => request h 0x12 (beBytes 4 a ++ beBytes 2 count) (count < 1 || 512 < count) (serves s 0x12 0) false
      (fun s =>
        let m := min done (count - 1)
        let (t, r, bs) := readRun a m s []
        if r ≠ .ok then answered t r (readBytes bs)
        else match lateAccess (a + 8 * m) t with
          | (u, some (r, _)) => answered u r (readBytes bs)
          | (u, none) => (u, none)) s

/-- ATTN_ACK (R550): clears each attention bit named in MASK; bits 15 and [7:0] are reserved. -/
def doAttnAck (h : FmdReq) (mask : BitVec 16) (s : State) : State :=
  request h 0x16 (beBytes 2 mask.toNat) false (serves s 0x16 0) true (fun s =>
    answered { s with attn := s.attn &&& ~~~(mask &&& 0x7F00) } .ok) s

/-- NOP (R541). -/
def doFmdNop (h : FmdReq) (s : State) : State :=
  request h 0x17 [] false (serves s 0x17 0) false (fun s => answered s .ok) s

/-- A request with a reserved or module-only opcode (R539). -/
def doReservedOpcode (h : FmdReq) (opcode : Nat) (bytes : List Byte) (s : State) : State :=
  request h opcode bytes true false false (fun s => answered s .format) s

/-! ### Rows of single registers -/

/-- LAG_CLEAR (R158). -/
def doLagClear (h : FmdReq) (die : Nat) (v : Word) (s : State) : State :=
  regWrite h (0x10009080 + die * 0x1000000) v.toNat s
/-- MIRROR_DEST_WRITE (R548). -/
def doMirrorDestWrite (h : FmdReq) (v : Word) (s : State) : State := regWrite h 0x08001000 v.toNat s
/-- MIRROR_CFG_WRITE (R386). -/
def doMirrorCfgWrite (h : FmdReq) (port : Nat) (v : Word) (s : State) : State := regWrite h (0x08002000 + 8 * port) v.toNat s
/-- POL_DATA_WRITE (R401). -/
def doPolDataWrite (h : FmdReq) (v : Word) (s : State) : State := regWrite h 0x0A000208 v.toNat s
/-- PROFILE_WRITE (R401). -/
def doProfileWrite (h : FmdReq) (n w : Nat) (v : Word) (s : State) : State := regWrite h (0x0A006000 + 16 * n + 8 * w) v.toNat s
/-- The address of a weight register (R402, R403). -/
def weightAddr : WeightReg → Nat
  | .classW j => 0x0A000100 + 8 * j
  | .jobW p hf => 0x0A002000 + 16 * p + 8 * hf
/-- WEIGHT_WRITE (R397). -/
def doWeightWrite (h : FmdReq) (reg : WeightReg) (v : Word) (s : State) : State := regWrite h (weightAddr reg) v.toNat s
/-- AGE_LIMIT_WRITE (R357). -/
def doAgeLimitWrite (h : FmdReq) (k : Nat) (v : Word) (s : State) : State := regWrite h (0x0800D000 + 8 * k) v.toNat s
/-- CAP_WRITE (R502). -/
def doCapWrite (h : FmdReq) (v : Word) (s : State) : State := regWrite h 0x02000008 v.toNat s
/-- RAIL_LIMIT_WRITE (R503). -/
def doRailLimitWrite (h : FmdReq) (rail : Nat) (v : Word) (s : State) : State := regWrite h (0x02000100 + 8 * rail) v.toNat s
/-- LAG_SEL_WRITE (R559). -/
def doLagSelWrite (h : FmdReq) (v : Word) (s : State) : State := regWrite h 0x30000100 v.toNat s
/-- TIM_SET (R330). -/
def doTimSet (h : FmdReq) (v : Word) (s : State) : State := regWrite h 0x0C000030 v.toNat s
/-- DETACH (R484). -/
def doDetach (h : FmdReq) (s : State) : State := regWrite h 0x03000008 2 s
/-- FORCE_SOLO (R484). -/
def doForceSolo (h : FmdReq) (s : State) : State := regWrite h 0x03000008 1 s
/-- The value of a LNK.CTRL write (R362). (DEDUCED, assumption 87). -/
def laneCtrl (nakLimit : Nat) (retrain enable : Bool) : Nat := (nakLimit % 16) <<< 4 + bitIn retrain 1 + bitIn enable 0
/-- RETRAIN (R362). -/
def doRetrain (h : FmdReq) (lane nakLimit : Nat) (enable : Bool) (s : State) : State :=
  regWrite h (0x04000010 + 0x1000 * lane) (laneCtrl nakLimit true enable) s
/-- LANE_ENABLE (R362). -/
def doLaneEnable (h : FmdReq) (lane nakLimit : Nat) (enable : Bool) (s : State) : State :=
  regWrite h (0x04000010 + 0x1000 * lane) (laneCtrl nakLimit false enable) s
/-- BURN_CUST (R531). (DEDUCED, assumption 83). -/
def doBurnCust (h : FmdReq) (s : State) : State := regWrite h 0x01000008 1 s
/-- SVN_ADVANCE (R531). -/
def doSvnAdvance (h : FmdReq) (svn : Nat) (s : State) : State := regWrite h 0x01000008 ((svn % 64) <<< 2 + 2) s

/-- The fuses after a burn (R531). (DEDUCED, assumption 83). -/
def burnt (b : Burn) (f : Fuses) : Fuses :=
  match b with
  | .none => f
  | .cust x => { f with custHash := some x }
  | .svn v => { f with svnMin := v }
  | .both x v => { f with custHash := some x, svnMin := v }

/-- FUSE_BURN_COMPLETE (R531): within 100 ms of the write. -/
def doFuseBurnComplete (s : State) : State :=
  if s.mgt.burn = .none then s
  else setAttn (setMgt s (fun m => { m with fuses := burnt m.burn m.fuses, burn := .none })) aSec

end Sys2Proof.Machine
end

