-- ==== Sys2Proof/Machine/Session.lean ====
section
/-! DEFINITION. Sessions and attestation: discarded frames and answered network requests (R533 to R535), the SPDM
subset (R526), session opening and ending (R527, R538), and measurements (R528). The bytes of SPDM messages belong to
DMTF SPDM 1.2, which the spec names and does not restate. -/

namespace Sys2Proof

/-- The SPDM responses that the module gives (R526). -/
inductive SpdmResp where
  | version | capabilities | algorithms | digests | certificate | challengeAuth | measurements | keyExchangeRsp
  | finishRsp | heartbeatAck | keyUpdateAck | endSessionAck | encapsulatedRequest | encapsulatedAck
  | unsupportedRequest | invalidRequest | sessionLimitExceeded
  deriving DecidableEq, Repr, Inhabited

/-- The bytes of an SPDM response over its content (SPDM 1.2). (DESIGN CHOICE, assumption 28). -/
opaque Config.spdmResponse : SpdmResp → List Byte → List Byte

/-- The bytes of an SPDM request of the subset (SPDM 1.2): its request code and one parameter.
(DESIGN CHOICE, assumption 28). -/
opaque Config.spdmRequest : Nat → Nat → List Byte

/-- The certificate chain of slot 0 (R525). (DESIGN CHOICE, assumption 28). -/
opaque Config.certChain : List Byte

/-- The fuse state as measurement block 4 hashes it (R528 names its parts and no layout).
(DESIGN CHOICE, assumption 28). -/
opaque Config.fuseImage : Machine.Fuses → List Machine.Remap → List Machine.QuarRec → List Byte

/-- FW_SOURCE and BUILD_ID as measurement block 5 hashes them (R528). (DESIGN CHOICE, assumption 28). -/
opaque Config.sourceImage : Nat → Nat → List Byte

end Sys2Proof

namespace Sys2Proof.Machine

/-! ### Transport -/

/-- FMD_DISCARD (R533, R534). -/
def doFmdDiscard (port : Nat) (s : State) : State := if listens s && port < 2 then bumpFmd s 0 else s

/-- SECURED_MESSAGE_DISCARD (R535): a secured message whose session is not open, whose tag fails, or whose sequence
number is too old or already accepted. -/
def doSecuredMessageDiscard (sessionId : Nat) (tagOk : Bool) (seq : Nat) (s : State) : State :=
  let good := match s.mgt.sessions.find? (fun x => x.valid && x.id == sessionId) with
    | some x => tagOk && seqOk x seq
    | none => false
  if listens s && !good then discardSecured s else s

/-- Whether an address is a port's own (R533). -/
def ownAddr (s : State) (port : Nat) (target : List Byte) : Bool := port < 2 && s.mgt.addrs[port]? == some target

/-- A network answer leaves on a port. (DESIGN CHOICE, assumption 89). -/
def netAnswer (s : State) (port : Nat) (bs : List Byte) : State := setMgt s (fun m => { m with netOut := (port, bs) :: m.netOut })

/-- ARP_ND_REQUEST (R533): the port answers for its own address with its MAC address, and discards any other. -/
def doArpNdRequest (port : Nat) (target : List Byte) (s : State) : State :=
  if !listens s then s
  else if ownAddr s port target then netAnswer s port (beBytes 6 (s.mgt.macs.getD port 0)) else bumpFmd s 0

/-- ICMP_ECHO (R533). -/
def doIcmpEcho (port : Nat) (target body : List Byte) (s : State) : State :=
  if !listens s then s
  else if ownAddr s port target then netAnswer s port body else bumpFmd s 0

/-! ### SPDM -/

/-- Whether SPDM 1.2 and DSP0277 send a message outside a secured session (R534). (DEDUCED, assumption 84). -/
def plainSpdm : SpdmMsg → Bool
  | .heartbeat | .keyUpdate => false
  | _ => true

/-- The request code and one parameter of a message. -/
def spdmCode : SpdmMsg → Nat × Nat
  | .getVersion => (0x84, 0) | .getCapabilities => (0xE1, 0) | .negotiate ok => (0xE3, if ok then 1 else 0)
  | .getDigests => (0x81, 0) | .getCertificate k => (0x82, k) | .challenge k => (0x83, k) | .heartbeat => (0xE8, 0)
  | .keyUpdate => (0xE9, 0) | .getEncapsulated => (0xEA, 0)
  | .deliverEncapsulated key => (0xEB, leVal key) | .other c => (c, 0)

/-- What the module responds (R526). -/
def spdmAnswer (s : State) (m : SpdmMsg) : List Byte :=
  let r (x : SpdmResp) (bs : List Byte) : List Byte := Config.spdmResponse x bs
  match m with
  | .getVersion => r .version []
  | .getCapabilities => r .capabilities []
  | .negotiate ok => if ok then r .algorithms [] else r .invalidRequest []
  | .getDigests => r .digests (sha512Bytes Config.certChain)
  | .getCertificate k => if k = 0 then r .certificate Config.certChain else r .invalidRequest []
  | .challenge k => if k = 0 then r .challengeAuth (Config.identitySign (sha512Bytes Config.certChain)) else r .invalidRequest []
  | .heartbeat => r .heartbeatAck []
  | .keyUpdate => r .keyUpdateAck []
  | .getEncapsulated => if s.mgt.handshake.isSome then r .encapsulatedRequest [] else r .invalidRequest []
  | .deliverEncapsulated _ => if s.mgt.handshake.isSome then r .encapsulatedAck [] else r .invalidRequest []
  | .other _ => r .unsupportedRequest []

/-- An SPDM message as a request: PLAIN where SPDM sends it unsecured, else within its session (R534, R539). -/
def spdmReq (h : FmdReq) (plain : Bool) (ops : List Byte) (act : State → Answer) (s : State) : State :=
  match h.slot with
  | some _ => request h 1 ops false (serves s 1 0) false act s
  | none =>
    if !listens s then s
    else if !plain then sendReply s 8 h.tag 1 .auth []
    else match act s with
      | (t, some (r, pl)) => sendReply (bumpFmd t 2) 8 h.tag 1 r pl
      | (t, none) => t

/-- SPDM (R526). -/
def doSpdm (h : FmdReq) (m : SpdmMsg) (s : State) : State :=
  let c := spdmCode m
  spdmReq h (plainSpdm m) (Config.spdmRequest c.1 c.2) (fun s =>
    let t := match m, s.mgt.handshake with
      | .deliverEncapsulated key, some x => setMgt s (fun g => { g with handshake := some { x with rootHash := sha512Bytes key } })
      | _, _ => s
    answered t .ok (spdmAnswer s m)) s

/-- The lowest free slot (R538). -/
def freeSlot (s : State) : Option Nat := (List.range 8).find? (fun k => !(sessAt s k).valid)

/-- KEY_EXCHANGE (R527): a handshake begins, unless 8 sessions are open. -/
def doKeyExchange (h : FmdReq) (sessionId : Nat) (s : State) : State :=
  spdmReq h true (Config.spdmRequest 0xE4 sessionId) (fun s =>
    match freeSlot s with
    | some k => answered (setMgt s (fun m => { m with handshake := some { slot := k, id := sessionId } })) .ok
        (Config.spdmResponse .keyExchangeRsp (beBytes 4 sessionId))
    | none => answered s .ok (Config.spdmResponse .sessionLimitExceeded [])) s

/-- Whether the module accepts a requester whose chain's root has this hash (R527).
(DEDUCED, assumption 83; DEDUCED, assumption 84). -/
def requesterOk (s : State) (hash : List Byte) : Bool :=
  match s.mgt.custKey with
  | none => true
  | some c => s.mgt.hostRoots.contains hash || ((s.mgt.st == .recovery || s.mgt.st == .config) && hash == c)

/-- FINISH (R527, R538): the session opens in the lowest free slot once the requester's root is accepted. -/
def doFinish (h : FmdReq) (sessionId : Nat) (rootKey : List Byte) (proofOk : Bool) (s : State) : State :=
  spdmReq { h with slot := none } true (Config.spdmRequest 0xE5 sessionId) (fun s =>
    match s.mgt.handshake, freeSlot s with
    | some x, some k =>
      if x.id != sessionId then answered s .ok (Config.spdmResponse .invalidRequest [])
      else
        let s := setMgt s (fun m => { m with handshake := none })
        if proofOk && requesterOk s (sha512Bytes rootKey) then
          answered (setSess s k (fun _ => { valid := true, port := h.port, ipv6 := h.ipv6, id := sessionId, lastAt := s.now })) .ok
            (Config.spdmResponse .finishRsp [])
        else answered (setAttn s aSec) .auth
    | _, _ => answered s .ok (Config.spdmResponse .invalidRequest [])) s

/-- What ends with a session (R538): its load sessions, staged images, snapshot, checkpoint reads and mirror role.
(DEDUCED, assumption 108). -/
def closeSession (s : State) (k : Nat) : State :=
  let s := setMgt s (fun m => { m with
    loads := m.loads.filter (fun l => l.session != k)
    stagedFw := m.stagedFw.filter (fun x => x.session != k), stagedCfg := m.stagedCfg.filter (fun x => x.session != k) })
  let s := { s with snap := s.snap.filter (fun x => x.owner != k) }
  let s := { s with coll := { s.coll with shards := s.coll.shards.map (fun x =>
    { x with reads := x.reads.filter (fun r => r.1 != k) }) } }
  let s := if s.fab.mirrorSession = some k then
      { s with fab := { s.fab with mirrorSession := none, mirrorDest := if s.fab.mirrorDest = 2 then 0 else s.fab.mirrorDest } }
    else s
  setSess s k (fun _ => {})

/-- END_SESSION (R538): after END_SESSION_ACK has left, the session ends. (DEDUCED, assumption 108). -/
def doEndSession (h : FmdReq) (s : State) : State :=
  requestThen (fun t => closeSession t (h.slot.getD 8)) h 1 (Config.spdmRequest 0xEC 0) false (serves s 1 0) false
    (fun s => answered s .ok (Config.spdmResponse .endSessionAck [])) s

/-- SESSION_TIMEOUT (R527, R538): no message for two heartbeat periods of 60 s. -/
def doSessionTimeout (slot : Nat) (s : State) : State :=
  let x := sessAt s slot
  if slot < 8 && x.valid && x.lastAt + 120000000000 ≤ s.now then setAttn (closeSession s slot) aSec else s

/-! ### Measurements -/

/-- A measurement block (R528). -/
def measurement (s : State) (i : Nat) : Option (List Byte) :=
  match i with
  | 1 => some s.mgt.romHash
  | 2 => some (sha512Bytes s.mgt.fwBytes)
  | 3 => some (sha512Bytes s.mgt.cfgBytes)
  | 4 => some (sha512Bytes (Config.fuseImage s.mgt.fuses s.integ.remaps s.integ.quar))
  | 5 => some (sha512Bytes (Config.sourceImage s.mgt.fwSource (leAt s.mgt.fwBytes 16 8)))
  | _ =>
    if 0x10 ≤ i && i < 0x20 then
      let m := s.mgt.meas.getD (i - 0x10) ([], 0)
      some (m.1 ++ leBytes 4 m.2)
    else none

/-- The indices of the blocks (R528). -/
def measIndices : List Nat := [1, 2, 3, 4, 5] ++ (List.range 16).map (· + 0x10)

/-- GET_MEASUREMENTS (R528): one block, or every block for index 0xFF. -/
def doGetMeasurements (h : FmdReq) (index : Nat) (s : State) : State :=
  spdmReq h true (Config.spdmRequest 0xE0 index) (fun s =>
    let bs := if index = 0xFF then some (measIndices.flatMap (fun i => (measurement s i).getD [])) else measurement s index
    match bs with
    | some b => answered s .ok (Config.spdmResponse .measurements b)
    | none => answered s .ok (Config.spdmResponse .invalidRequest [])) s

end Sys2Proof.Machine
end

