-- ==== Sys2Proof/Machine/Topiary.lean ====
section
/-! DEFINITION. The Topiary container: header (R276, R282, R437), section directory (R277), the sections as data
(R249, R284, R285, R287 to R290, R308, R384, R409, R494) and the load checks that this manual names (R279). -/

namespace Sys2Proof

/-- Where the tables of a HYPER section lie: handle, first byte, and number of rows. R193 gives the row and R290 the
handle; no rule gives the place of a table in the section. (DESIGN CHOICE, assumption 29). -/
opaque Config.hyperTables : List Byte → List (Nat × Nat × Nat)

end Sys2Proof

namespace Sys2Proof.Machine

/-! ### Header -/

/-- TOTAL_LEN (R276). -/
def topLen (bs : List Byte) : Nat := leAt bs 32 8

/-- SECTION_COUNT (R276). -/
def topSections (bs : List Byte) : Nat := leAt bs 46 2

/-- The fields of the header (R276). -/
def topHeader (bs : List Byte) : Topiary :=
  { grade := leAt bs 6 1, job := leAt bs 7 1, priority := leAt bs 43 1, domainModules := leAt bs 14 2, schedId := leAt bs 16 8
    topiaryId := leAt bs 24 8, schedRate := leAt bs 40 2, epochLimit := leAt bs 42 1, voteK := leAt bs 44 1
    reserved := natBit (leAt bs 45 1) 0, gateOwner := natBit (leAt bs 45 1) 1, voteWindowUs := leAt bs 48 4
    startTime := leAt bs 56 8, stateDigest := slice bs 64 64 }

/-- The FORMAT checks of the header (R276, R279 step 3). (DEDUCED, assumption 53). -/
def headerForm (bs : List Byte) : Bool :=
  let t := topHeader bs
  leAt bs 0 4 == 0x59504F54 && leAt bs 4 2 == 2 && leAt bs 6 1 ≤ 1
  && t.job ≤ 15 && leAt bs 12 2 ≤ 511 && 1 ≤ t.domainModules && t.domainModules ≤ 512
  && 1200 ≤ t.schedRate && t.schedRate ≤ 2000 && 1 ≤ t.epochLimit && t.epochLimit ≤ 4 && t.priority ≤ 3
  && 1 ≤ t.voteK && t.voteK ≤ 64 && leAt bs 45 1 < 4 && 1 ≤ topSections bs && topSections bs ≤ 64
  && 1 ≤ t.voteWindowUs && t.voteWindowUs ≤ 10000 && (slice bs 52 4).all (· == 0) && (slice bs 128 128).all (· == 0)
  && 256 + 16 * topSections bs + 1028 ≤ topLen bs && topLen bs ≤ 2 ^ 32

/-- The loaded owner of the schedule (R282). -/
def ownerTop (s : State) : Option Topiary := s.tops.find? (·.gateOwner)

/-- Whether R282 admits a Topiary beside the loaded ones. -/
def oneSchedule (s : State) (t : Topiary) : Bool :=
  match ownerTop s with
  | some o => !t.gateOwner && o.schedId == t.schedId
  | none => t.gateOwner

/-- Step 3 of R279: the first failure of a header. -/
def headerFault (s : State) (job : Nat) (bs : List Byte) : Option Res :=
  let t := topHeader bs
  if !headerForm bs then some .format
  else if leAt bs 6 1 == 0 && s.grade != 0 then some .unitAbsent
  else if t.job != job || leAt bs 8 4 != s.fab.domain || leAt bs 12 2 != s.fab.moduleIndex || !oneSchedule s t
      || (!s.integ.residue && 64 < t.domainModules) then some .state
  else none

/-! ### Section directory -/

/-- A directory entry (R277). -/
structure Section where
  typ : Nat
  len : Nat
  off : Nat
  deriving DecidableEq, Repr, Inhabited

/-- The directory (R277). -/
def topDirectory (bs : List Byte) : List Section :=
  (List.range (topSections bs)).map (fun i =>
    let o := 256 + 16 * i
    { typ := leAt bs o 2, len := leAt bs (o + 4) 4, off := leAt bs (o + 8) 8 })

/-- Whether two sections share no byte. -/
def Section.apart (x y : Section) : Bool := x.off + x.len ≤ y.off || y.off + y.len ≤ x.off

/-- Pairwise: no type twice and no overlap. -/
def sectionsApart : List Section → Bool
  | [] => true
  | x :: xs => xs.all (fun y => x.typ != y.typ && x.apart y) && sectionsApart xs

/-- The directory's rules (R275, R277, R308, R494). -/
def directoryOk (bs : List Byte) : Bool :=
  let ss := topDirectory bs
  let has (t : Nat) : Bool := ss.any (·.typ == t)
  let owner := (topHeader bs).gateOwner
  ss.all (fun x => 1 ≤ x.typ && x.typ ≤ 0xB && x.off % 64 == 0 && 256 + 16 * topSections bs ≤ x.off
    && x.off + x.len ≤ topLen bs - 1028)
  && sectionsApart ss && has 4 && has 5 && has 0xA && has 0xB && has 1 == owner
  && (!has 2 || has 3) && (!has 8 || has 9) && (!has 6 || owner)

/-- The bytes of a section, empty where the container has none. -/
def sectionOf (bs : List Byte) (typ : Nat) : List Byte :=
  match (topDirectory bs).find? (·.typ == typ) with
  | some x => slice bs x.off x.len
  | none => []

/-! ### Sections -/

/-- QBIND (R284): reserved bits are ignored. -/
def parseQBind (bs : List Byte) : List QBind :=
  (chop 8 bs).map (fun e =>
    let w := leVal e
    { queue := natField w 5 0
      qtype := match natField w 9 8 with
        | 0 => .coll
        | 1 => .vec
        | 2 => .mtx
        | _ => .dma
      die := if natField w 9 8 = 0 then 0 else natField w 11 10
      first := if natField w 9 8 = 1 then natField w 18 12 else 0
      size := if natField w 9 8 = 1 then natField w 25 19 + 1 else 1 })

/-- Number of code segments: the directory ends where the words of its first entry begin (R285).
(DEDUCED, assumption 90). -/
def segCount (bs : List Byte) : Nat := leAt bs 0 4

/-- The code segments (R285). (DEDUCED, assumption 90). -/
def parseCode (bs : List Byte) : List (List Word) :=
  (List.range (segCount bs)).map (fun i =>
    (chop 8 (slice bs (8 * leAt bs (8 * i) 4) (8 * leAt bs (8 * i + 4) 4))).map (fun w => BitVec.ofNat 64 (leVal w)))

/-- The form of the CODE section: 1 to 4 096 segments whose words lie in the section after the directory. -/
def codeForm (bs : List Byte) : Bool :=
  bs.length % 8 == 0 && 1 ≤ segCount bs && segCount bs ≤ 4096
  && (List.range (segCount bs)).all (fun i =>
    segCount bs ≤ leAt bs (8 * i) 4 && leAt bs (8 * i) 4 + leAt bs (8 * i + 4) 4 ≤ bs.length / 8)

/-- A segment ends with END (R285). -/
def endsWell (ws : List Word) : Bool :=
  match ws.getLast? with
  | some w => wOpcode w == 0x01
  | none => false

/-- Every branch target of a segment lies inside it (R247, R285). -/
def branchesInside (ws : List Word) : Bool :=
  ws.zipIdx.all (fun p =>
    let t := (p.2 : Int) + wOff p.1
    !(wOpcode p.1 == 0x02 || wOpcode p.1 == 0x03) || (decide (0 ≤ t) && decide (t < (ws.length : Int))))

/-- DESC: 64-byte descriptors, the entry's index being its handle (R249). (DEDUCED, assumption 90). -/
def parseDescs (bs : List Byte) : List (Nat × Nat) :=
  ((chop 64 bs).zipIdx.map (fun p => (p.2, leVal p.1))).filter (fun p => dValid p.2)

/-- ROUTE (R289). -/
def parseRoutes (bs : List Byte) : List RouteRec :=
  (chop 16 bs).map (fun e => { image := beVal (e.take 10), cls := leAt e 10 1 % 8, solo := natBit (leAt e 10 1) 3 })

/-- Records of a COLL body: TYPE and content; none where one runs past the body (R288). -/
def bodyRecords : Nat → List Byte → Option (List (Nat × List Byte))
  | _, [] => some []
  | 0, _ :: _ => none
  | n + 1, bs =>
    let len := leAt bs 0 4
    if bs.length < 8 || len < 8 || len % 8 != 0 || bs.length < len then none
    else (bodyRecords n (bs.drop len)).map (fun rs => (leAt bs 7 1, slice bs 8 (len - 8)) :: rs)

/-- Items of `n` bytes of every record of a type (R288). (DEDUCED, assumption 90). -/
def itemsOf (rs : List (Nat × List Byte)) (typ n : Nat) : List (List Byte) := (rs.filter (·.1 == typ)).flatMap (fun r => chop n r.2)

/-- Size of an item of each record type, padded to 8 bytes (R288); 0 for PARAMS, which is one item.
(DEDUCED, assumption 90). -/
def itemSize (typ : Nat) : Nat :=
  match typ with
  | 2 | 3 | 5 | 6 => 16
  | 7 => 0
  | _ => 8

/-- PARAMS of an entry (R288). -/
def parseParams (kind : Nat) (rs : List (Nat × List Byte)) : Params :=
  match rs.find? (·.1 == 7) with
  | none => .none
  | some (_, b) =>
    match kind with
    | 10 => .sort (leAt b 0 1)
    | 11 => .filter (leAt b 0 2) (leAt b 2 1)
    | 12 => .topk (leAt b 0 1)
    | 13 => .moe (leAt b 0 2) (leAt b 2 1) (leAt b 3 4) (leAt b 7 4) ((List.range (leAt b 0 2)).map (fun i => leAt b (11 + 2 * i) 2))
    | _ => .none

/-- The format of a code; reserved codes are refused by `entryForm`. -/
def fmtOr (n : Nat) : Fmt := (Fmt.ofCode n).getD .fp32

/-- One entry from its fixed part and the records of its body (R287, R288). -/
def parseEntry (fx : List Byte) (rs : List (Nat × List Byte)) : CollEntry :=
  let w (i : Nat) : Nat := leAt fx (8 * i) 8
  let kind := natField (w 0) 31 28
  { ordinal := natField (w 0) 63 32, kind := kind, op := (RedOp.ofCode (natField (w 0) 27 25)).getD .sum
    fIn := fmtOr (natField (w 0) 24 20), fAcc := fmtOr (natField (w 0) 19 15), fOut := fmtOr (natField (w 0) 14 10)
    vari := natBit (w 0) 9, express := natBit (w 0) 8, dir := natBit (w 0) 7
    n := natField (w 1) 63 49 + 1, root := natField (w 1) 48 34, port := natField (w 1) 33 25, chunks := natField (w 1) 23 0
    timeoutUs := natField (w 2) 63 32, topK := natField (w 2) 31 20 + 1
    members := (itemsOf rs 1 8).map (fun b => (leAt b 0 2, leAt b 2 4))
    inputs := (itemsOf rs 2 16).map (fun b =>
      { rank := leAt b 0 2, lo := leAt b 2 2, hi := leAt b 4 2, p256 := leAt b 6 1, f := leAt b 7 1
        layout := leAt b 8 1 % 8, sparseOk := natBit (leAt b 8 1) 3 })
    outputs := (itemsOf rs 3 16).map (fun b =>
      { lo := leAt b 0 2, hi := leAt b 2 2, route := leAt b 4 4, p256 := leAt b 8 1, f := leAt b 9 1
        layout := leAt b 10 1 % 8, sparseOk := natBit (leAt b 10 1) 3 })
    combines := (itemsOf rs 4 8).map (fun b => (leAt b 0 2, leAt b 2 2, leAt b 4 2))
    engines := (itemsOf rs 5 16).map (fun b => (leAt b 0 4, leAt b 4 4, leAt b 8 1))
    buffers := (itemsOf rs 6 16).map (fun b => (leAt b 0 2, leAt b 2 8))
    params := parseParams kind rs
    tileOrder := (itemsOf rs 8 8).map (fun b => leAt b 0 4)
    m := ((itemsOf rs 9 8).map (fun b => leAt b 0 8)).head?
    after := (itemsOf rs 0xA 8).map (fun b => leAt b 0 4) }

/-- Ordinals in strictly ascending order (R287). -/
def risingOrdinals : List CollEntry → Bool
  | x :: y :: rest => x.ordinal < y.ordinal && risingOrdinals (y :: rest)
  | _ => true

/-- The form of one entry's fixed part and body: known kind, operator and formats, whole records of known types, one
GEOMETRY where R288 asks for it, and PARAMS where it does. -/
def entryForm (fx : List Byte) (rs : List (Nat × List Byte)) : Bool :=
  let w0 := leAt fx 0 8
  let kind := natField w0 31 28
  kind ≤ 13 && (RedOp.ofCode (natField w0 27 25)).isSome && (Fmt.ofCode (natField w0 24 20)).isSome
  && (Fmt.ofCode (natField w0 19 15)).isSome && (Fmt.ofCode (natField w0 14 10)).isSome
  && rs.all (fun r => 1 ≤ r.1 && r.1 ≤ 0xA && (itemSize r.1 == 0 || r.2.length % itemSize r.1 == 0))
  && (!(kind ≤ 2) || (itemsOf rs 9 8).length == 1)
  && (!(10 ≤ kind) || rs.any (·.1 == 7))

/-- The COLL section (R287); none where its form is broken. -/
def parseColl (bs : List Byte) : Option (List CollEntry) :=
  let n := leAt bs 0 4
  if n < 1 || 262144 < n || bs.length < 8 + 32 * n then none
  else
    let raw := (List.range n).map (fun i =>
      let fx := slice bs (8 + 32 * i) 32
      let off := leAt fx 28 4
      let len := leAt fx 24 4
      (fx, if off % 8 != 0 || bs.length < off + len then none else bodyRecords len (slice bs off len)))
    if raw.all (fun r => match r.2 with | some rs => entryForm r.1 rs | none => false) then
      let es := raw.map (fun r => parseEntry r.1 (r.2.getD []))
      if risingOrdinals es then some es else none
    else none

/-- One state entry (R290). -/
def parseStateEntry (b : List Byte) : StateEntry :=
  let b2 := leAt b 2 1
  { shard := leAt b 0 2, rep := natBit b2 0, die := natField b2 2 1, skipNonfinite := natBit b2 3, bcastV := natBit b2 4
    program := leAt b 3 1 % 16, twinShard := leAt b 4 2
    mask := if natBit (leAt b 6 2) 15 then some (leAt b 6 2 % 4096) else none
    hyper := leAt b 8 2 % 4096, bcastFmt := leAt b 10 1, blockB := 256 * 2 ^ natField (leAt b 11 1) 1 0
    iters := natField (leAt b 11 1) 4 2 + 1, gradOrdinal := leAt b 12 4, bcastOrdinal := leAt b 16 4
    chunkFirst := leAt b 20 4, chunkCount := leAt b 24 4, paramFirst := leAt b 32 8, paramCount := leAt b 40 8
    packedCount := leAt b 48 8, rows := leAt b 56 4, cols := leAt b 60 4
    planes := (List.range 4).map (fun p =>
      (leAt b (64 + 16 * p) 4, leAt b (68 + 16 * p) 4, leAt b (72 + 16 * p) 4)) }

/-- The STATE section (R290). -/
def parseState (bs : List Byte) : Option (List StateEntry) :=
  let n := leAt bs 0 4
  if bs.length < 64 + 128 * n || 4096 < n then none
  else some ((List.range n).map (fun i => parseStateEntry (slice bs (64 + 128 * i) 128)))

/-- One MEMMAP record (R409). (DEDUCED, assumption 53). -/
def parseMapRec (b : List Byte) : MapRec :=
  let acc := leAt b 14 1
  { va := leAt b 0 8, count := leAt b 8 4, space := leAt b 12 1, die := leAt b 13 1, read := natBit acc 0
    write := natBit acc 1, init := natBit acc 2, privet := natBit acc 3, phys := leAt b 16 8, initOff := leAt b 24 8 }

/-- The MEMMAP section with the reserved bytes that R410 checks (R409). -/
def parseMaps (bs : List Byte) : Option (List MapRec) :=
  let n := leAt bs 0 4
  if n < 1 || 65536 < n || bs.length < 8 + 32 * n then none
  else
    let raw := (List.range n).map (fun i => slice bs (8 + 32 * i) 32)
    if raw.all (fun b => leAt b 12 1 ≤ 5 && leAt b 14 1 < 16 && leAt b 15 1 == 0) then some (raw.map parseMapRec) else none

/-- The BUFRES section: instance, pool, REQ_ID, MIN, MAX (R384). -/
def parseBufres (bs : List Byte) : Option (List (Nat × Nat × Nat × Nat × Nat)) :=
  let n := leAt bs 0 4
  if n < 1 || 4096 < n || bs.length < 8 + 16 * n then none
  else some ((List.range n).map (fun i =>
    let b := slice bs (8 + 16 * i) 16
    (leAt b 0 1, leAt b 1 1, leAt b 2 2, leAt b 4 4, leAt b 8 4)))

/-- The GATE section (R308): a port's lists are of the three variants in order. -/
structure GateSec where
  cycleNs : Nat
  slotGuard : Nat
  swapLeadUs : Nat
  hold : Nat
  gated : Nat
  ports : List (Nat × List (List (Nat × Nat)))
  routes : List Nat
  /-- The entry counts of the port records, and whether every list lies in the section. -/
  counts : List Nat
  inside : Bool
  deriving DecidableEq, Repr, Inhabited

/-- Entries of a gate list: duration and open bits (R307). -/
def gateEntries (bs : List Byte) (off n : Nat) : List (Nat × Nat) :=
  (chop 4 (slice bs off (4 * n))).map (fun e => (leVal e / 256, leVal e % 256))

/-- Parse the GATE section (R308). -/
def parseGate (bs : List Byte) : GateSec :=
  let np := leAt bs 18 2
  let recs := (List.range np).map (fun i => slice bs (64 + 16 * i) 16)
  let cnt (r : List Byte) : List Nat := [leAt r 2 2, leAt r 4 2, leAt r 6 2]
  let lists (r : List Byte) : List (List (Nat × Nat)) :=
    let o := leAt r 8 8
    [gateEntries bs o (leAt r 2 2), gateEntries bs (o + 4 * leAt r 2 2) (leAt r 4 2),
     gateEntries bs (o + 4 * (leAt r 2 2 + leAt r 4 2)) (leAt r 6 2)]
  { cycleNs := leAt bs 0 8, slotGuard := leAt bs 8 4, swapLeadUs := leAt bs 12 2, hold := leAt bs 14 2, gated := leAt bs 16 1
    ports := recs.map (fun r => (leAt r 0 2, lists r))
    routes := (List.range (leAt bs 20 2)).map (fun i => leAt bs (64 + 16 * np + 4 * i) 4)
    counts := recs.flatMap cnt
    inside := 64 + 16 * np + 4 * leAt bs 20 2 ≤ bs.length
      && recs.all (fun r => leAt r 8 8 + 4 * (cnt r).sum ≤ bs.length) }

/-- The PHASE section (R494): hints, and marks per die. -/
def parsePhase (bs : List Byte) : Phase :=
  let nh := leAt bs 0 2
  let nm (d : Nat) : Nat := leAt bs (4 + 2 * d) 2
  let start (d : Nat) : Nat := 16 + 16 * nh + 8 * ((List.range d).map nm).sum
  { hints := (List.range nh).map (fun i =>
      let b := slice bs (16 + 16 * i) 16
      (leAt b 0 1, (List.range 4).map (fun d => leAt b (2 + 2 * d) 2)))
    marks := (List.range 4).map (fun d => (List.range (nm d)).map (fun i =>
      let b := slice bs (start d + 8 * i) 8
      (leAt b 0 6, leAt b 6 1))) }

/-- Whether the PHASE section holds all that its counts name, within their ranges (R494). -/
def phaseFits (bs : List Byte) : Bool :=
  let nm := (List.range 4).map (fun d => leAt bs (4 + 2 * d) 2)
  leAt bs 0 2 ≤ 256 && nm.all (· ≤ 4096) && 16 + 16 * leAt bs 0 2 + 8 * nm.sum ≤ bs.length

/-- The tables of a HYPER section: each row is ten FP32 patterns in 64 bytes (R193). -/
def parseHypers (bs : List Byte) : List (Nat × List (List Nat)) :=
  (Config.hyperTables bs).map (fun h =>
    (h.1, (List.range h.2.2).map (fun i => (List.range 10).map (fun k => leAt bs (h.2.1 + 64 * i + 4 * k) 4))))

/-- A container as data. -/
structure Loaded where
  top : Topiary
  gate : Option GateSec := none
  phase : Option Phase := none
  memSec : List Byte := []
  /-- Bytes of code and descriptors, and of hyperparameter tables, for R182. -/
  tableBytes : Nat := 0
  hyperBytes : Nat := 0
  deriving DecidableEq, Repr, Inhabited

/-- Read a container whose header passed; none where the form of its directory or of a section is broken.
(DEDUCED, assumption 90). -/
def parseTopiary (bs : List Byte) : Option Loaded :=
  let sec := sectionOf bs
  let has (t : Nat) : Bool := (topDirectory bs).any (·.typ == t)
  if !directoryOk bs || !codeForm (sec 4) || (sec 5).length % 64 != 0 || 4096 * 64 < (sec 5).length
      || (sec 0xA).length % 8 != 0 || (sec 3).length % 16 != 0 || 65536 * 16 < (sec 3).length
      || (has 6 && !phaseFits (sec 6)) then none
  else
    match (if has 2 then parseColl (sec 2) else some []), (if has 8 then parseState (sec 8) else some []), parseMaps (sec 0xB),
        (if has 7 then parseBufres (sec 7) else some []) with
    | some colls, some states, some maps, some bufres =>
      some { top := { topHeader bs with
               stateBytes := sec 8, segs := parseCode (sec 4), descs := parseDescs (sec 5), maps := maps, colls := colls
               routes := parseRoutes (sec 3), states := states, hypers := if has 9 then parseHypers (sec 9) else []
               qbinds := parseQBind (sec 0xA), bufres := bufres }
             gate := if has 1 then some (parseGate (sec 1)) else none
             phase := if has 6 then some (parsePhase (sec 6)) else none
             memSec := sec 0xB, tableBytes := (sec 4).length + (sec 5).length
             hyperBytes := (sec 9).length }
    | _, _, _, _ => none

end Sys2Proof.Machine
end

