-- ==== Sys2Proof/Machine/Load.lean ====
section
/-! DEFINITION. Loading a Topiary: the load checks of step 7 (R279, R281, R309, R385, R410, R426, R494 and those of the
collective and state tables), activation (step 8), and unloading (R283). -/

namespace Sys2Proof.Machine

/-! ### Load checks -/

/-- A node that the recursion of R97 reaches, with a raw contribution's RANK its leaf (R110, R111). -/
def recordNode (n lo hi : Nat) : Bool := lo < hi && isNode n lo hi

/-- The combine steps of an entry keep the split rule, and each child is an input or the node of an earlier step
(R111, R288). -/
def combinesOk (e : CollEntry) : Bool :=
  (e.combines.foldl (fun (st : Bool × List (Nat × Nat)) c =>
    (st.1 && recordNode e.n c.1 c.2.2 && c.1 + 2 ≤ c.2.2 && c.2.1 == c.1 + splitOf (c.2.2 - c.1)
      && st.2.contains (c.1, c.2.1) && st.2.contains (c.2.1, c.2.2), (c.1, c.2.2) :: st.2))
    (true, e.inputs.map (fun i => (i.lo, i.hi)))).1

/-- The ranges of an entry's INPUT and OUTPUT records (R111). -/
def recordsOk (e : CollEntry) : Bool :=
  e.inputs.all (fun i => recordNode e.n i.lo i.hi && (i.hi != i.lo + 1 || i.rank == i.lo))
  && e.outputs.all (fun o => recordNode e.n o.lo o.hi)

/-- Whether `m` elements of a format fit one cell (R145). -/
def cellFits (f : Fmt) (m : Nat) : Bool := !f.isMx && m ≤ 32 && m * f.bits ≤ 320

/-- EXPRESS where R145 admits it, and a BARRIER as R147 fixes it: the contributions, the result, which travels in the
output format wherever it is named, and every hop of this module fit one cell. -/
def expressOk (e : CollEntry) : Bool :=
  (e.kind != 9 || (e.express && e.op == .or && e.fIn == .uint32 && e.fAcc == .uint32 && e.fOut == .uint32))
  && (!e.express || (
    (e.kind ≤ 1 || e.kind == 4 || e.kind == 9) && e.chunks == 1
    && (let m := if e.kind = 9 then 1 else e.m.getD 1
        let hops := e.inputs.map (fun i => inFormat e i.lo i.hi) ++ e.outputs.map (fun o => inFormat e o.lo o.hi)
        cellFits e.fIn m && (e.kind == 4 || cellFits e.fOut m) && hops.all (fun f => cellFits f m))))

/-- The sparse layout of a node's value here, where it has one: an input's own; of a computed node its OUTPUT record's,
and without one that of its left child, else of its right (R168, R170). The fuel bounds the tree's depth. -/
def layoutAt (e : CollEntry) : Nat → Nat → Nat → Option Nat
  | 0, _, _ => none
  | fuel + 1, lo, hi =>
    match e.inputs.find? (fun i => i.lo == lo && i.hi == hi), e.outputs.find? (fun o => o.lo == lo && o.hi == hi) with
    | some i, _ => if i.sparseOk then some i.layout else none
    | none, some o => if o.sparseOk then some o.layout else none
    | none, none =>
      match e.combines.find? (fun c => c.1 == lo && c.2.2 == hi) with
      | some c => (layoutAt e fuel lo c.2.1).orElse (fun _ => layoutAt e fuel c.2.1 hi)
      | none => none

/-- The layouts of an entry's records: no reserved code; a sparse one only in the kinds of R168, without EXPRESS, not of
an MX hop (R161), and no BLK child beside another (R21, R168). (DEDUCED, assumption 92). -/
def layoutsOk (e : CollEntry) : Bool :=
  e.inputs.all (·.layout ≤ 4) && e.outputs.all (·.layout ≤ 4)
  && (!(e.inputs.any (·.sparseOk) || e.outputs.any (·.sparseOk)) || (e.kind ≤ 6 && !e.express))
  && e.inputs.all (fun i => !(i.sparseOk && (inFormat e i.lo i.hi).isMx))
  && e.outputs.all (fun o => !(o.sparseOk && (outFormat e o.lo o.hi).isMx))
  && e.combines.all (fun c =>
    match layoutAt e 17 c.1 c.2.1, layoutAt e 17 c.2.1 c.2.2 with
    | some a, some b => (a == 4) == (b == 4)
    | _, _ => true)

/-- The kind parameters of an entry (R127, R142, R288). A SORT value of a width that R138 does not list is taken as it
is: no rule refuses it. (DESIGN CHOICE, assumption 130). -/
def paramsOk (e : CollEntry) : Bool :=
  match e.kind, e.params with
  | 11, .filter _ mode => mode ≤ 1
  | 12, .topk mode => mode ≤ 1 && e.fIn.keyOk && e.topK ≤ 4096 && (match e.m with | some m => e.topK ≤ e.n * m | none => true)
  | 10, .sort _ => e.fIn.keyOk
  | 13, .moe ex kr ce _ owners => 1 ≤ ex && 1 ≤ kr && kr ≤ 8 && 1 ≤ ce && ce ≤ 16777215 && owners.length == ex
  | k, _ => k < 10

/-- The engine plan of an entry: every chunk that the module reduces lies in exactly one ENGINE record (R211).
(DEDUCED, assumption 91). -/
def enginesOk (e : CollEntry) : Bool :=
  !(isReduction e.kind && !e.combines.isEmpty)
    || (List.range e.chunks).all (fun k => (e.engines.filter (fun x => x.1 ≤ k && k < x.1 + x.2.1)).length == 1)

/-- The FORMAT checks of one entry. (DEDUCED, assumption 91). -/
def entryOk (s : State) (t : Topiary) (e : CollEntry) : Bool :=
  (!(isReduction e.kind) || comboOk e.op e.fIn e.fAcc e.fOut) && combinesOk e && recordsOk e && expressOk e && layoutsOk e
  && paramsOk e && enginesOk e
  && e.after.all (fun o => o < e.ordinal && t.colls.any (·.ordinal == o))
  && (!e.express || (e.members.map (·.2) ++ e.outputs.map (·.route)).all (fun i =>
    match t.routes[i]? with
    | some r => routeHops s r.image ≤ 5
    | none => true))

/-- Two EXPRESS entries share no low 16 bits of an ordinal (R127). -/
def expressApart (es : List CollEntry) : Bool :=
  let lows := (es.filter (·.express)).map (fun e => e.ordinal % 65536)
  lows.eraseDups.length == lows.length

/-- Bytes of the largest counts chunk of an entry, a member's or a returned one (R133, R135, R141, R143). -/
def countsBytes (e : CollEntry) : Nat :=
  match e.kind, e.params with
  | 8, _ => max (4 * e.n) (8 * (2 * e.n + 1))
  | 13, .moe _ kr _ _ owners =>
    let owned := (owners.map (fun o => owners.count o)).foldl max 0
    max (4 + 65535 * kr * 2) (8 + 8 * ceilDiv (65535 * kr) 64 + 8 * (e.n + 1) * owned)
  | _, _ => 8 * (e.n + 1)

/-- The RANGE checks of one entry (R126, R128, R133, R287 to R289). (DEDUCED, assumption 90). -/
def entryRange (t : Topiary) (e : CollEntry) : Bool :=
  0x140 ≤ e.port && e.port < 0x150 && 1 ≤ e.chunks && e.n ≤ 32768 && e.root < e.n && 100 ≤ e.timeoutUs && e.timeoutUs ≤ 100000
  && e.inputs.all (fun i => 1 ≤ i.p256 && i.p256 ≤ 16 && 1 ≤ i.f && i.f ≤ 64)
  && e.outputs.all (fun o => 1 ≤ o.p256 && o.p256 ≤ 16 && 1 ≤ o.f && o.f ≤ 64)
  && (e.members.map (·.2) ++ e.outputs.map (·.route)).all (· < t.routes.length) && e.members.all (·.1 < e.n)
  && e.engines.all (·.2.2 < 16)
  && (match e.params with | .moe _ _ _ row _ => 256 ≤ row && row ≤ 65536 && row % 256 == 0 | _ => true)
  && (!countsPhase e || countsBytes e ≤ 2 ^ 20)

/-- The accesses of a local buffer: its elements or tiles, its block scales, its directory and its mask (R250). -/
def bufferAccs (s : State) (t : Topiary) (x : Tensor) : List Acc :=
  (extents s t.job true x).map (fun r => { va := r.1, len := r.2, write := true, space := x.space })
  ++ (List.range (tileCount x)).flatMap (maskRowAcc x)

/-- Every byte of a local buffer lies in scratchpad or HBM pages of the entry's die with PRIVET = 1 (R212, R410). -/
def bufferOk (s : State) (t : Topiary) (e : CollEntry) (h : Nat) : Bool :=
  match resolve t ⟨BitVec.ofNat 12 h, 0⟩ with
  | .ok x => (bufferAccs s t x).all (fun a => (pieces a).all (fun p =>
      match findMap t p.1 with
      | some r => r.privet && r.space ≤ 1 && r.die == entryDie e
      | none => false))
  | .error _ => false

/-- No descriptor names an MX format with a sparse layout (R161). -/
def descsOk (t : Topiary) : Bool := t.descs.all (fun d => !(dValid d.2 && dSparse d.2 && (fmtOr (dFmt d.2)).isMx))

/-- Pages of each plane that a program has (R192, R194); 0 for a plane that it lacks. -/
def planePlan (x : StateEntry) : List Nat :=
  let pg (n : Nat) : Nat := ceilDiv n 524288
  let w := pg x.packedCount
  match x.program with
  | 1 => [w + 1, w, w, 0]
  | 3 => [w + 1, w, pg x.rows, pg x.cols]
  | _ => [w + 1, w, 0, 0]

/-- Page runs of an entry in both banks. -/
def pageRuns (x : StateEntry) : List (Nat × Nat) :=
  x.planes.flatMap (fun p => if p.2.2 = 0 then [] else [(p.1, p.2.2), (p.2.1, p.2.2)])

/-- Whether runs (first, count) share no page. -/
def runsApart : List (Nat × Nat) → Bool
  | [] => true
  | x :: xs => xs.all (fun y => x.1 + x.2 ≤ y.1 || y.1 + y.2 ≤ x.1) && runsApart xs

/-- Each broadcast chunk of a shard holds whole MX blocks: PACKED_COUNT parameters make full chunks of S and a last one
of what remains (R204). -/
def wholeBlocks (x : StateEntry) : Bool :=
  let S := max 1 (chunkSpan x)
  !(x.bcastV && (fmtOr x.bcastFmt).isMx)
    || ((x.packedCount < S || S % 32 == 0) && x.packedCount % S % 32 == 0)

/-- The FORMAT checks of a state entry (R184, R194, R204, R290). -/
def stateOk (x : StateEntry) : Bool :=
  x.program ≤ 4 && x.bcastFmt ≤ 0xA && x.blockB != 2048 && !(x.rep && x.bcastV) && (x.mask.isSome || x.packedCount == x.paramCount)
  && 1 ≤ x.chunkCount && x.planes.map (·.2.2) == planePlan x
  && x.planes.all (fun p => p.2.2 != 0 || (p.1 == 0 && p.2.1 == 0)) && wholeBlocks x

/-- The state table's FORMAT checks over its entries (R184). -/
def statesOk (s : State) (xs : List StateEntry) : Bool :=
  xs.all stateOk && (xs.map (·.shard)).eraseDups.length == xs.length && runsApart (xs.flatMap pageRuns)
  && (s.tops.map (fun t => t.states.length)).sum + xs.length ≤ 16384

/-- A plane page lies in an HBM record of the entry's die with READ and WRITE (R410). -/
def planeMapped (t : Topiary) (x : StateEntry) : Bool :=
  (pageRuns x).all (fun r => (List.range r.2).all (fun k =>
    match findMap t (((r.1 + k) * 2 ^ 21 : Nat) : Int) with
    | some m => m.space == 1 && m.die == x.die && m.read && m.write
    | none => false))

/-- Pages of a region-buffer on a die (R181, R182). (DEDUCED, assumption 93). -/
def regionPages (t : Topiary) (die : Nat) (rep : Bool) : Nat :=
  ((t.states.filter (fun x => x.die == die && x.rep == rep)).map (fun x => (x.planes.map (·.2.2)).sum)).sum

/-! ### MEMMAP (R410) -/

/-- Bytes of a record's pages. -/
def MapRec.bytes (r : MapRec) : Nat := r.count * pageSize r.space

/-- The physical memory of a record: scratchpad or HBM of its die, or DDR5, with its first page and count. -/
def MapRec.run (r : MapRec) : Nat × Nat × Nat × Nat :=
  match r.space with
  | 0 => (0, r.die, r.phys, r.count)
  | 2 => (2, 0, r.phys, r.count)
  | _ => (1, r.die, r.phys, r.count)

/-- Whether two records share a physical page. -/
def physMeet (x y : MapRec) : Bool :=
  let a := x.run
  let b := y.run
  a.1 == b.1 && a.2.1 == b.2.1 && a.2.2.1 < b.2.2.1 + b.2.2.2 && b.2.2.1 < a.2.2.1 + a.2.2.2

/-- Whether two records' virtual ranges meet. -/
def virtMeet (x y : MapRec) : Bool := x.space ≤ 2 && y.space ≤ 2 && x.va < y.va + y.bytes && y.va < x.va + x.bytes

/-- Pairwise: a relation that no two elements of a list are in. -/
def noneMeet (p : MapRec → MapRec → Bool) : List MapRec → Bool
  | [] => true
  | x :: xs => xs.all (fun y => !p x y) && noneMeet p xs

/-- The first row of R410's table. -/
def mapForm (memLen : Nat) (r : MapRec) : Bool :=
  1 ≤ r.count && (if r.space ≤ 2 then r.va % pageSize r.space == 0 && r.va + r.bytes ≤ 2 ^ 48 else r.va == 0 && !r.init)
  && (!r.write || r.read) && !(r.privet && r.space == 2)
  && (if r.init then r.initOff % 64 == 0 && r.initOff + r.bytes ≤ memLen else r.initOff == 0)

/-- The dies on which QBIND binds a VEC, MTX or DMA queue. -/
def workDies (t : Topiary) : List Nat := ((t.qbinds.filter (·.qtype != .coll)).map (·.die)).eraseDups

/-- The FORMAT rows of R410. -/
def mapsFormat (t : Topiary) (memLen : Nat) : Bool :=
  t.maps.all (mapForm memLen) && noneMeet virtMeet t.maps
  && (workDies t).all (fun d => (t.maps.filter (fun r => r.space == 4 && r.die == d)).length == 1)
  && t.maps.all (fun r => r.space != 4 || r.count == 1)

/-- DDR5 pages of a region of the tier in bytes. -/
def meetsRegion (r : MapRec) (base gib : Nat) : Bool :=
  gib != 0 && r.phys * 2 ^ 21 < base + gib * 2 ^ 30 && base < (r.phys + r.count) * 2 ^ 21

/-- A record's physical range is in its space and outside what the module keeps (R43, R371, R407). -/
def physOk (s : State) (r : MapRec) : Bool :=
  match r.space with
  | 0 => r.phys + r.count + 16 * s.mgt.stageMib.getD r.die 64 ≤ 6144
  | 2 => r.phys + r.count ≤ min 1048576 (512 * tierGib s) && !meetsRegion r Config.traceBase s.dbg.traceGib
      && !meetsRegion r Config.mirrorBase s.fab.mirrorGib
  | _ => r.phys + r.count ≤ 147456

/-- Pages of a code on a die. (DEDUCED, assumption 93). -/
def pagesOf (t : Topiary) (space die : Nat) : Nat := ((t.maps.filter (fun r => r.space == space && r.die == die)).map (·.count)).sum

/-- The RANGE rows of R410 that concern pages. -/
def mapsRange (s : State) (t : Topiary) : Bool :=
  t.maps.all (physOk s) && noneMeet physMeet t.maps
  && s.tops.all (fun o => t.maps.all (fun r => o.maps.all (fun x => !physMeet r x)))
  && (List.range 4).all (fun d => !(t.maps.any (fun r => r.space == 2 && r.die == d)) || 64 ≤ pagesOf t 3 d)
  && (List.range 4).all (fun d => !(t.maps.any (fun r => r.space != 5 && r.die == d))
      || (1 ≤ pagesOf t 5 d && ceilDiv (8 * (t.maps.map (·.count)).sum) (2 ^ 21) ≤ pagesOf t 5 d))

/-- HBM bytes on a die: its HBM, TCACHE, CONTEXT and TABLE pages, the code and descriptor tables, the hyperparameter
tables and the hold area where the die has shards, and on die 0 the stretched gate lists (R182, R200, R277, R308).
(DEDUCED, assumption 93). -/
def hbmBytes (x : Loaded) (d : Nat) : Nat :=
  2 ^ 21 * ([1, 3, 4, 5].map (fun sp => pagesOf x.top sp d)).sum + (if (workDies x.top).contains d then x.tableBytes else 0)
  + (if x.top.states.any (·.die == d) then x.hyperBytes + Config.holdArea x.top.topiaryId x.top.job d else 0)
  + (if d = 0 then match x.gate with
      | some g => 4 * (g.ports.map (fun p => (p.2.tail.map (·.length)).sum)).sum
      | none => 0
     else 0)

/-! ### Other sections -/

/-- R309: the GATE section. -/
def gateOk (s : State) (t : Topiary) (g : GateSec) : Bool :=
  g.inside && g.ports.all (fun p => (p.1 < 272 && isLanePort s p.1) || (match diePort p.1 with | some d => hasDie s d | none => false))
  && (g.ports.map (·.1)).eraseDups.length == g.ports.length
  && 20000 ≤ g.cycleNs && g.cycleNs ≤ 45000000000 && g.cycleNs % 4 == 0
  && g.counts.all (fun c => 1 ≤ c && c ≤ 4096)
  && g.ports.all (fun p => p.2.zipIdx.all (fun l => l.1.all (·.1 != 0) && (l.1.map (·.1)).sum == cycleLen g.cycleNs l.2))
  && !natBit g.gated 0 && 1000 ≤ g.slotGuard && g.slotGuard ≤ 10000000 && 50 ≤ g.swapLeadUs && g.swapLeadUs ≤ 1000
  && 1 ≤ g.hold && g.hold ≤ 1024 && 1 ≤ g.ports.length && g.ports.length ≤ 288 && g.routes.length ≤ 288
  && g.routes.all (fun i => match t.routes[i]? with | some r => routeHops s r.image ≤ 5 | none => false)
  && t.startTime != 0

/-- Strictly ascending offsets. -/
def risingMarks : List (Nat × Nat) → Bool
  | x :: y :: rest => x.1 < y.1 && risingMarks (y :: rest)
  | _ => true

/-- The FORMAT checks of R494. -/
def phaseOk (cycleNs : Nat) (p : Phase) : Bool :=
  p.marks.all (fun ms => risingMarks ms && ms.all (·.1 < cycleNs) && (match ms with | m :: _ => m.1 == 0 | [] => true))
  && (p.hints.map (·.1)).eraseDups.length == p.hints.length

/-- R284: no queue twice, no group in two gangs, and a gang within 128 groups. -/
def qbindsOk (qs : List QBind) : Bool :=
  (qs.map (·.queue)).eraseDups.length == qs.length && qs.all (fun q => q.qtype != .vec || q.first + q.size ≤ 128)
  && (let gs := (qs.filter (·.qtype == .vec)).flatMap (fun q => (List.range q.size).map (fun i => 128 * q.die + q.first + i))
      gs.eraseDups.length == gs.length)

/-- The queue that a binding makes: IDLE, its scalar state, handles and comparators at zero (R244, R279). -/
def boundQueue (job : Nat) (b : QBind) : Queue :=
  { bound := true, job := job, qtype := b.qtype, die := b.die, gangFirst := b.first, gangSize := b.size }

/-- R426: a reserved partition shares no executor. (DEDUCED, assumption 93). -/
def partitionOk (s : State) (t : Topiary) : Bool :=
  t.qbinds.all (fun b => (List.range 64).all (fun r =>
    let R := queueAt s r
    !R.bound || !sharesExec b.queue (boundQueue t.job b) r R
      || !(t.reserved || (match topOf s R.job with | some o => o.reserved | none => false))))

/-- R385 by result: whether the BUFRES records pass the FORMAT, UNIT_ABSENT, RANGE and QUOTA rows. -/
def bufresFormat (t : Topiary) : Bool :=
  t.bufres.all (fun r => reqKind r.2.2.1 ≤ 2 && reqJob r.2.2.1 == t.job)
  && (t.bufres.map (fun r => (r.1, r.2.1, r.2.2.1))).eraseDups.length == t.bufres.length

/-- The pool of a record. -/
def bufPool (s : State) (r : Nat × Nat × Nat × Nat × Nat) : Pool := (bpmAt s r.1).pools.getD r.2.1 {}

/-- The RANGE row of R385. (DEDUCED, assumption 91). -/
def bufresRange (s : State) (t : Topiary) : Bool :=
  t.bufres.all (fun r => r.1 ≤ 4 && (if (bpmAt s r.1).sized then r.2.1 < 4 else r.2.1 == 0) && (bufPool s r).cells != 0
    && r.2.2.2.1 ≤ r.2.2.2.2 && r.2.2.2.2 ≤ poolUnits (bufPool s r))

/-- The QUOTA row of R385: the pool's minimums, over the image and every Topiary, stay within half of it. -/
def bufresQuota (s : State) (t : Topiary) : Bool :=
  t.bufres.all (fun r =>
    let own := ((t.bufres.filter (fun x => x.1 == r.1 && x.2.1 == r.2.1)).map (·.2.2.2.1)).sum
    let old := (((bpmAt s r.1).quotas.filter (fun q => q.pool == r.2.1)).map (·.min)).sum
    2 * (own + old) ≤ poolUnits (bufPool s r))

/-! ### Step 7 by result (R578) -/

/-- The FORMAT checks of step 7. (DEDUCED, assumption 91). -/
def loadFormat (s : State) (x : Loaded) : Bool :=
  let t := x.top
  t.colls.all (entryOk s t) && expressApart t.colls && statesOk s t.states && mapsFormat t x.memSec.length && qbindsOk t.qbinds
  && descsOk t
  && t.segs.all endsWell && bufresFormat t
  && (match x.gate with | some g => gateOk s t g | none => true)
  && (match x.phase with | some p => phaseOk (match x.gate with | some g => g.cycleNs | none => 0) p | none => true)

/-- The dies that a container may name: those of the module's grade, and for GRADE 0x1 dies 0 to 2, on a CNV-6400 too,
where R10 gives no result for one that names die 3. (DESIGN CHOICE, assumption 124). -/
def dieNamed (s : State) (t : Topiary) (d : Nat) : Bool := hasDie s d && (t.grade == 0 || d < 3)

/-- The UNIT_ABSENT checks of step 7 (R8, R10, R235, R385, R410, R494). (DEDUCED, assumption 91). -/
def loadUnits (s : State) (x : Loaded) : Bool :=
  let t := x.top
  t.qbinds.all (fun b => b.qtype == .coll || dieNamed s t b.die) && t.maps.all (fun r => dieNamed s t r.die)
  && t.colls.all (fun e => e.port < 0x140 || 0x150 ≤ e.port || dieNamed s t (entryDie e))
  && t.states.all (fun e => dieNamed s t e.die)
  && t.bufres.all (fun r => r.1 = 0 || 4 < r.1 || dieNamed s t (r.1 - 1))
  && (match x.phase with | some p => p.marks.zipIdx.all (fun m => m.1.isEmpty || dieNamed s t m.2) | none => true)

/-- The RANGE checks of step 7 (R43, R133, R182, R184, R212, R279, R284, R285, R289, R371, R385, R410, R494).
(DEDUCED, assumption 91). -/
def loadRange (s : State) (x : Loaded) : Bool :=
  let t := x.top
  t.qbinds.all (fun b => s.mgt.queueJobs.getD b.queue 0xFF == t.job) && t.segs.all branchesInside
  && t.colls.all (entryRange t) && t.colls.all (fun e => e.buffers.all (fun b => bufferOk s t e b.1))
  && mapsRange s t && t.states.all (planeMapped t)
  && t.states.all (fun e => t.hypers.any (·.1 == e.hyper))
  && (List.range 4).all (fun d => hbmBytes x d ≤ 288 * 2 ^ 30 && regionPages t d false ≤ 36864 && regionPages t d true ≤ 36864)
  && bufresRange s t && (!t.gateOwner || s.fabricTime + 1000000 ≤ t.startTime)
  && (match x.phase with | some p => p.hints.all (fun h => h.2.all (· ≤ 2000)) | none => true)

/-- The STATE checks of step 7 (R281, R426), with R282's again: another load may have ended since step 3, and at most one
loaded Topiary is the owner. (DEDUCED, assumption 91). -/
def loadState (s : State) (x : Loaded) : Bool :=
  oneSchedule s x.top && !(s.mgt.st == .degraded && (x.top.qbinds.any (·.qtype != .coll) || !x.top.stateBytes.isEmpty)) && partitionOk s x.top

/-- Steps 6 and 7: the container as data, or the first failure (R278, R279, R578). (DEDUCED, assumption 91). -/
def loadCheck (s : State) (bs : List Byte) : Except Res Loaded :=
  if !s.mgt.topiaryKeys.contains (sha512Bytes (keyBlock bs)) || !signedOk bs then .error .verify
  else match parseTopiary bs with
    | none => .error .format
    | some x =>
      if !loadFormat s x then .error .format
      else if !loadUnits s x then .error .unitAbsent
      else if !loadRange s x then .error .range
      else if !bufresQuota s x.top then .error .quota
      else if !loadState s x then .error .state
      else .ok x

/-! ### Activation -/

/-- The key of a record's first byte in its own space. -/
def homeOf (r : MapRec) : Nat :=
  match r.space with
  | 0 => memKey 0 r.die (r.phys * 2 ^ 16)
  | 2 => memKey 2 0 (r.phys * 2 ^ 21)
  | _ => memKey 1 r.die (r.phys * 2 ^ 21)

/-- Mapped pages hold their INIT content or zeros (R411). -/
def fillPages (m : Memory) (sec : List Byte) (maps : List MapRec) : Memory :=
  maps.foldl (fun m r =>
    let m := m.zeroRange (homeOf r) r.bytes
    if r.init then m.writeRun (homeOf r) (slice sec r.initOff r.bytes) else m) m

/-- The tier-cache frames of a Topiary on a die (R409, R417). -/
def makeFrames (t : Topiary) (die : Nat) : List Frame :=
  (t.maps.filter (fun r => r.space == 3 && r.die == die)).flatMap (fun r =>
    (List.range r.count).map (fun i => ({ hbmPage := r.phys + i } : Frame)))

/-- Change a job's counters and records to those of a job that has just loaded; its error counts stay. -/
def freshJob (s : State) (job : Nat) : State :=
  setJob s job (fun j => { job := job, voteMiss := j.voteMiss, windowErr := j.windowErr, halfErr := j.halfErr
                           dupCount := j.dupCount, protoErr := j.protoErr, formatErr := j.formatErr
                           abortDup := j.abortDup, abortDiscards := j.abortDiscards })

/-- Job counters that a load, and for COLL_LAG an unload, sets to 0 (R559, R560). -/
def zeroLag (s : State) (job : Nat) : State :=
  { s with coll := { s.coll with lag := s.coll.lag.filter (fun x => x.1 / 2 ^ 15 % 16 != job) } }

/-- MoE counters of a job to 0 (R560). -/
def clearMoe (s : State) (job : Nat) : State :=
  { s with coll := { s.coll with moeDrops := s.coll.moeDrops.filter (fun x => x.1 / 65536 != job)
                                 moeInvalid := s.coll.moeInvalid.set job 0 } }

/-- The gate lists and the schedule of an owner (R308, R310, R394): they wait in PENDING for START_TIME.
(DEDUCED, assumption 95). -/
def placeGate (s : State) (t : Topiary) (g : GateSec) : State :=
  let s := g.ports.foldl (fun s p => setPort s p.1 (fun P => { P with gate := p.2 })) s
  let s := setSched s (fun _ =>
    { loaded := true, owner := t.job, schedId := t.schedId, schedRate := t.schedRate, cycleNs := g.cycleNs
      slotGuard := g.slotGuard, swapLeadUs := g.swapLeadUs, hold := g.hold, gated := g.gated
      sroutes := g.routes.filterMap (fun i => (t.routes[i]?).map (fun r => cellRoute r.image))
      pending := some (t.startTime, 0) })
  { s with stretchQ := 4 }

/-- The step record after load, in both banks of a shard (R190). -/
def firstRecord (s : State) (job : Nat) (x : StateEntry) : State :=
  [false, true].foldl (fun s b =>
    let k := recordKey s job x b
    { s with comp := { s.comp with mem :=
        (s.comp.mem.zeroRange k 64).writeRun k (padTo 64 (leBytes 4 0 ++ leBytes 4 0x3F800000 ++ leBytes 4 0x3F800000)) } }) s

/-- Extend a job's measurement block (R528). -/
def extendMeas (s : State) (job : Nat) (bs : List Byte) : State :=
  setMgt s (fun m =>
    let x := m.meas.getD job (List.replicate 64 0, 0)
    { m with meas := m.meas.set job (sha512Bytes (x.1 ++ sha512Bytes bs), x.2 + 1) })

/-- Job flags clear, the mapped pages take their content and the tier caches their frames (R279, R409, R417). -/
def placePages (s : State) (t : Topiary) (sec : List Byte) : State :=
  { s with comp := { s.comp with
    jobFlags := eraseKey s.comp.jobFlags t.job
    mem := fillPages s.comp.mem sec t.maps
    frames := (List.range 4).foldl (fun fs d => insertKey fs (16 * d + t.job) (makeFrames t d)) s.comp.frames } }

/-- Step 8 of R279. -/
def activate (s : State) (x : Loaded) (bs : List Byte) : State :=
  let t := x.top
  let s := { s with tops := s.tops ++ [t] }
  let s := t.qbinds.foldl (fun s b => setQueue s b.queue (fun _ => boundQueue t.job b)) s
  let s := placePages s t x.memSec
  let s := t.bufres.foldl (fun s r => setBpm s r.1 (fun B => { B with quotas := B.quotas ++
    [{ pool := r.2.1, req := r.2.2.1, min := r.2.2.2.1, max := r.2.2.2.2, source := t.job }] })) s
  let s := clearMoe (zeroLag (freshJob s t.job) t.job) t.job
  let s := { s with coll := { s.coll with shards := s.coll.shards ++ t.states.map (fun e => { job := t.job, id := e.shard }) } }
  let s := t.states.foldl (fun s e => firstRecord s t.job e) s
  let s := match x.gate with
    | some g => placeGate s t g
    | none => s
  let s := if t.gateOwner then setPwr s (fun p => { p with
    phase := { x.phase.getD {} with limits := (p.rails.take 4).map (·.limitDa) }, learn := [] }) else s
  let s := extendMeas s t.job bs
  if s.mgt.st = .ready then setMgt s (fun m => { m with st := .run }) else s

/-! ### Load session -/

/-- The open load session of a job (R279). -/
def loadOf (s : State) (job : Nat) : Option LoadSess := s.mgt.loads.find? (·.job == job)

/-- Close a job's load session; nothing that it placed is visible (R280). -/
def closeLoad (s : State) (job : Nat) : State := setMgt s (fun m => { m with loads := m.loads.filter (·.job != job) })

/-- TOPIARY_LOAD (R279 step 1). -/
def doTopiaryLoad (h : FmdReq) (job : Nat) (s : State) : State :=
  request h 0x30 (leBytes 1 job) false (serves s 0x30 0) false (fun s =>
    if 16 ≤ job then answered s .range
    else if (s.mgt.st == .ready || s.mgt.st == .run || s.mgt.st == .degraded) && (topOf s job).isNone && (loadOf s job).isNone
        && !s.mgt.unloading.contains job then
      answered (setMgt s (fun m => { m with
        loads := m.loads ++ [{ job := job, session := h.slot.getD 8 }]
        loadResults := m.loadResults.filter (·.1 != job) })) .ok
    else answered s .state) s

/-- An IMAGE_PUSH run of a Topiary (R279 steps 2 to 4, R280, R544). (DEDUCED, assumption 94). -/
def pushTopiary (slot job off : Nat) (bytes : List Byte) (s : State) : Answer :=
  match loadOf s job with
  | none => answered s .state
  | some L =>
    if L.session != slot || L.committed || off != L.bytes.length then answered s .state
    else
      let all := L.bytes ++ bytes
      let fault := if 256 ≤ all.length then headerFault s job all else none
      match fault with
      | some r => answered (closeLoad s job) r
      | none =>
        if 256 ≤ all.length && topLen all < all.length then answered (closeLoad s job) .range
        else answered (setMgt s (fun m => { m with loads := m.loads.map (fun l => if l.job == job then { l with bytes := all } else l) })) .ok

/-- TOPIARY_COMMIT (R279 steps 5 to 8). (DEDUCED, assumption 94). -/
def doTopiaryCommit (h : FmdReq) (job : Nat) (tid : Word) (s : State) : State :=
  request h 0x31 (leBytes 1 job ++ List.replicate 7 0 ++ beBytes 8 tid.toNat) false (serves s 0x31 0) false (fun s =>
    match loadOf s job with
    | some L =>
      if L.session != h.slot.getD 8 || L.bytes.length < 256 || L.bytes.length < topLen L.bytes
          || (topHeader L.bytes).topiaryId != tid.toNat then answered s .state
      else answered (setMgt s (fun m => { m with loads := m.loads.map (fun l => if l.job == job then { l with committed := true } else l) })) .busy
    | none =>
      match s.mgt.loadResults.find? (·.1 == job) with
      | some r => answered s (if r.2.1 = tid.toNat then r.2.2 else .state)
      | none => answered s .state) s

/-- TOPIARY_ACTIVATE (R279 steps 6 to 8, R280): the committed load of a job ends. -/
def doTopiaryActivate (job : Nat) (s : State) : State :=
  match loadOf s job with
  | some L =>
    if !L.committed then s
    else
      let tid := (topHeader L.bytes).topiaryId
      let done (s : State) (r : Res) : State :=
        setMgt (closeLoad s job) (fun m => { m with loadResults := (job, tid, r) :: m.loadResults.filter (·.1 != job) })
      match loadCheck s L.bytes with
      | .ok x => done (activate s x L.bytes) .ok
      | .error r => done s r
  | none => s

/-! ### Unload -/

/-- Whether an ordinal of a job is open here: eligible, and neither completed nor aborted.
(DEDUCED, assumption 94). -/
def Coll.isOpen (c : Coll) : Bool := c.eligible && !c.completed && !c.aborted

/-- Whether TOPIARY_UNLOAD is refused (R282, R283). -/
def unloadRefused (s : State) (t : Topiary) : Bool :=
  s.comp.queues.any (fun Q => Q.bound && Q.job == t.job && !(Q.st == .idle || Q.st == .halted))
  || s.coll.colls.any (fun c => c.job == t.job && c.isOpen)
  || (t.gateOwner && s.tops.any (fun o => o.job != t.job && o.schedId == t.schedId))

/-- Drop what an ordinal of a job holds here: early arrivals, staged inputs and outputs.
(DEDUCED, assumption 94). -/
def dropColl (s : State) (c : Coll) : State :=
  let s := releaseEarly s c.job c.epoch c.ordinal
  let s := c.inputs.foldl dropStaged s
  c.outputs.foldl (fun s o => freeOut s c.job c.ordinal o) s

/-- The owner's schedule leaves: ACTIVE and PENDING are dropped, every port runs ungated (R308, R333, R394), and the
estimates of R495 reset. (DEDUCED, assumption 95). -/
def dropSchedule (s : State) : State :=
  let s := setSched s (fun _ => {})
  let s := { s with stretchQ := 4 }
  let s := (s.fab.ports.map (·.1)).foldl (fun s p => retag (setPort s p (fun P => { P with gate := [] })) p) s
  setPwr s (fun p => { p with phase := {}, learn := [] })

/-- What an unload clears in the compute dies (R283). -/
def clearPages (s : State) (t : Topiary) : State :=
  { s with comp := { s.comp with
    queues := s.comp.queues.map (fun Q => if Q.bound && Q.job == t.job then {} else Q)
    jobFlags := eraseKey s.comp.jobFlags t.job
    mem := t.maps.foldl (fun m r => m.zeroRange (homeOf r) r.bytes) s.comp.mem
    frames := s.comp.frames.filter (fun f => f.1 % 16 != t.job)
    tierFaults := s.comp.tierFaults.filter (·.job != t.job)
    laurel := s.comp.laurel.map (fun l => l.filter (·.job != t.job))
    chans := s.comp.chans.map (fun c => (c.1, { c.2 with copies := c.2.copies.filter (·.job != t.job) })) } }

/-- The effects of an unload (R283): queues unbound, tables and flags cleared, pages zeroed,
reservations and cells returned, frozen requesters of the job released with their records (R381). Remaps that waited for
the job to stop are due at idle units (R229). (DEDUCED, assumption 94). -/
def unloadTop (s : State) (t : Topiary) : State :=
  let job := t.job
  let s := (s.coll.colls.filter (·.job == job)).foldl dropColl s
  let s := freshJob (zeroLag s job) job
  let s := { s with coll := { s.coll with colls := s.coll.colls.filter (·.job != job), shards := s.coll.shards.filter (·.job != job) } }
  let s := [0, 1, 2, 3].foldl (fun s d => tlbDrop s d (fun e => e.1 == job)) s
  let s := clearPages s t
  let s := (List.range 5).foldl (fun s i => setBpm s i (fun B => { B with
    quotas := B.quotas.filter (·.source != job)
    allocs := B.allocs.filter (fun a => !(reqKind a.req ≤ 2 && reqJob a.req == job))
    frozen := B.frozen.filter (fun r => !(reqKind r ≤ 2 && reqJob r == job))
    viol := B.viol.map (fun r => if natBit r 63 && reqKind (natField r 55 40) ≤ 2 && reqJob (natField r 55 40) == job then 0 else r) })) s
  let s := (List.range 5).foldl (fun s i => (List.range (bpmAt s i).pools.length).foldl (fun s p => relevel s i p) s) s
  let s := if t.gateOwner then dropSchedule s else s
  let s := setInteg s (fun i => { i with remapReady := i.remapReady ++ i.remapPending, remapPending := [] })
  { s with tops := s.tops.filter (·.job != job) }

/-- TOPIARY_UNLOAD (R280, R283). (DEDUCED, assumption 94). -/
def doTopiaryUnload (h : FmdReq) (job : Nat) (s : State) : State :=
  request h 0x32 (leBytes 1 job) false (serves s 0x32 0) false (fun s =>
    if 16 ≤ job then answered s .range
    else if s.mgt.unloading.contains job then answered s .busy
    else match loadOf s job, topOf s job with
      | some _, _ => answered (closeLoad s job) .ok
      | none, none => answered s .ok
      | none, some t =>
        if unloadRefused s t then answered s .state
        else answered (setMgt (unloadTop s t) (fun m =>
          { m with unloading := job :: m.unloading, loadResults := m.loadResults.filter (·.1 != job) })) .busy) s

/-- TOPIARY_UNLOAD_COMPLETE (R283, R509): the zeroing has ended; the last unload takes RUN to READY.
(DEDUCED, assumption 94). -/
def doTopiaryUnloadComplete (job : Nat) (s : State) : State :=
  if !s.mgt.unloading.contains job then s
  else setMgt s (fun m =>
    let u := m.unloading.filter (· != job)
    { m with unloading := u, st := if u.isEmpty && s.tops.isEmpty && m.st == .run then .ready else m.st })

end Sys2Proof.Machine
end

