-- ==== Sys2Proof/Machine/Recover.lean ====
section
/-! DEFINITION. Host commands on queues (R291, R297, R383), the recovery operations (R469 to R472), checkpoint reads
(R191, R545) and RESYNC_TWIN (R482). -/

namespace Sys2Proof.Machine

/-! ### Queues -/

/-- QUEUE_PUSH's operation (R291). (DEDUCED, assumption 88). -/
def pushAct (q : Nat) (seq : BitVec 16) (words : List Word) (s : State) : Answer :=
  let Q := queueAt s q
  if !Q.bound then answered s .state
  else if Q.st == .halted || Q.st == .frozen then answered s .state
  else if seq = Q.nextSeq - 1 then answered s .ok
  else if seq ≠ Q.nextSeq then answered s .state
  else if 8192 < Q.ring.length + words.length then answered (bumpQue s q 6) .busy
  else
    let s := bumpQue (setQueue s q (fun Q => { Q with ring := Q.ring ++ words, nextSeq := Q.nextSeq + 1 })) q 5
    answered (if Q.st == .idle then arbitrate s q else s) .ok

/-- QUEUE_PUSH (R291, R541). -/
def doQueuePush (h : FmdReq) (q : Nat) (seq : BitVec 16) (words : List Word) (s : State) : State :=
  request h 0x20 (leBytes 1 q ++ [0] ++ beBytes 2 seq.toNat ++ leBytes 1 words.length ++ [0, 0, 0] ++ words.flatMap (fun w => beBytes 8 w.toNat))
    (words.isEmpty || 128 < words.length) (serves s 0x20 0) false (pushAct q seq words) s

/-- The queue that REQUEUE leaves (R297): IDLE with its scalar state at zero and an empty ring; its flags, NEXT_SEQ and
HEAD stay. (DEDUCED, assumption 99; DEDUCED, assumption 116). -/
def requeued (Q : Queue) (epoch : Nat) : Queue :=
  { Q with st := .idle, cause := none, inSeg := false, seg := 0, pc := 0, head := (Q.head + Q.ring.length) % 2 ^ 14, ring := []
           s := List.replicate 16 0, c := List.replicate 8 0, p := List.replicate 8 false, h := List.replicate 16 {}
           k := List.replicate 4 {}, digests := List.replicate 16 0, callEpoch := epoch, requeued := some epoch, calls := []
           wait := .none, deadline := 0, chain := none, work := none, runAhead := 0, ctxSaved := false }

/-- REQUEUE (R297). -/
def doRequeue (h : FmdReq) (q epoch : Nat) (s : State) : State :=
  request h 0x54 (leBytes 1 q ++ List.replicate 7 0 ++ beBytes 8 epoch) false (serves s 0x54 0) false (fun s =>
    let Q := queueAt s q
    if !Q.bound then answered s .state
    else if Q.st == .halted then answered (setQueue s q (fun Q => requeued Q epoch)) .ok
    else if Q.st == .idle && Q.requeued == some epoch then answered s .ok
    else answered s .state) s

/-- A frozen queue resumes (R294, R295): a pending halt halts it, else it is in the state it left. A wait that ended
meanwhile ends there. (DEDUCED, assumption 23). -/
def thaw (s : State) (q : Nat) : State :=
  let Q := queueAt s q
  if Q.st != .frozen then s
  else
    let s := setQueue s q (fun Q => { Q with st := Q.frozenFrom, pendingHalt := none })
    match Q.pendingHalt with
    | some x => haltAt s q x.cause x.detail x.inSeg x.seg x.pc x.word
    | none => if Q.frozenFrom = .wait ∧ Q.wait = .none then resumeQueue s q else s

/-- Whether a queue is held by another frozen requester of its job. (DEDUCED, assumption 23). -/
def stillFrozen (s : State) (q : Nat) : Bool :=
  (List.range 5).any (fun i => (bpmAt s i).frozen.any (fun r =>
    let Q := queueAt s q
    Q.job == reqJob r && (match reqKind r with
      | 1 => Q.qtype == .coll
      | 2 => Q.qtype == .dma && Q.die == reqUnit r / 32
      | _ => false)))

/-- Release of a frozen requester (R294, R381, R383): its record is freed and its queues leave FROZEN. -/
def releaseReq (s : State) (inst req : Nat) : State :=
  let s := setBpm s inst (fun B => { B with
    frozen := B.frozen.filter (· != req)
    viol := B.viol.map (fun r => if natBit r 63 && natField r 55 40 == req then 0 else r) })
  schedule ((List.range 64).foldl (fun s q =>
    let Q := queueAt s q
    let mine := Q.bound && Q.job == reqJob req && (match reqKind req with
      | 1 => Q.qtype == .coll
      | 2 => Q.qtype == .dma && Q.die == reqUnit req / 32
      | _ => false)
    if mine && !stillFrozen s q then thaw s q else s) s)

/-- MASTER_RELEASE's operation (R383). -/
def releaseAct (inst req : Nat) (s : State) : Answer :=
  if 4 < inst then answered s .range
  else if inst = 4 && s.grade != 0 then answered s .unitAbsent
  else if !isFrozen s inst req then answered s .ok
  else if (bpmAt s inst).viol.any (fun r => natBit r 63 && natField r 55 40 == req && natField r 62 59 != 0) then answered s .state
  else answered (releaseReq s inst req) .ok

/-- MASTER_RELEASE (R383). -/
def doMasterRelease (h : FmdReq) (inst req : Nat) (s : State) : State :=
  request h 0x55 (leBytes 1 inst ++ [0] ++ beBytes 2 req) (4 ≤ reqKind req) (serves s 0x55 0) true (releaseAct inst req) s

/-! ### Running operations (R472) -/

/-- The running operation of a key. (DEDUCED, assumption 96). -/
def runningOp (s : State) (op : Nat) (key : List Nat) : Option Running := s.mgt.running.find? (fun r => r.opcode == op && r.key == key)

/-- A keyed operation: BUSY while it runs, then its result once; a new one starts when its rule lets it.
(DEDUCED, assumption 96). -/
def keyedOp (op : Nat) (key : List Nat) (start : State → Except Res State) (s : State) : Answer :=
  match runningOp s op key with
  | some r =>
    match r.result with
    | none => answered s .busy
    | some x => answered (setMgt s (fun m => { m with running := m.running.filter (fun y => !(y.opcode == op && y.key == key)) })) x
  | none =>
    match start s with
    | .error r => answered s r
    | .ok t => answered (setMgt t (fun m => { m with running := m.running ++ [{ opcode := op, key := key }] })) .busy

/-! ### Collectives and epochs -/

/-- LIFTED of a job's last abort record when it names the lifted ordinal and epoch (R468). -/
def noteLifted (s : State) (job epoch ord : Nat) : State :=
  { s with coll := { s.coll with abortLast := s.coll.abortLast.modify job (fun r =>
    if natBit r 0 && natField r 63 32 == ord && natField r 7 6 == epoch % 4 then setField r 5 5 1 else r) } }

/-- What remains of an ordinal is discarded and it returns to not-begun (R470); the ABORTs accepted for its key and
the RET_ROUTEs answered in the epoch stay known (R463). (DEDUCED, assumption 98). -/
def restartColl (s : State) (c : Coll) (mark : Bool) : State :=
  let cur := collAt s c.job c.epoch c.ordinal
  let s := dropColl s cur
  let s := dropOwn s (fun u => (u.typ == 0 || u.typ == 7 || u.typ == 2) && u.job == c.job && u.epoch == c.epoch % 4 && u.ordinal == c.ordinal) none
  let s := if cur.aborted then noteLifted s c.job c.epoch c.ordinal else s
  setColl s c.job c.epoch c.ordinal (fun x =>
    { job := c.job, epoch := c.epoch, ordinal := c.ordinal, resetMark := mark, aborts := x.aborts, retRoutes := x.retRoutes })

/-- RESET_COLLECTIVE (R469, R470). (DEDUCED, assumption 98). -/
def resetColl (job ord epoch : Nat) (s : State) : Except Res State :=
  match topOf s job, entryOf s job ord with
  | some t, some _ =>
    let o := (jobAt s job).oldest
    let c := collAt s job epoch ord
    if epoch < o || o + t.epochLimit ≤ epoch then .error .state
    else if c.completed || c.resetMark then .error .ok
    else
      let s := if c.aborted then s else abortHere s job epoch ord .aborted
      .ok (restartColl s c true)
  | _, _ => .error .range

/-- RESET_COLLECTIVE (R469, R472). -/
def doResetCollective (h : FmdReq) (job ord epoch : Nat) (s : State) : State :=
  request h 0x50 (leBytes 1 job ++ [0, 0, 0] ++ beBytes 4 ord ++ beBytes 8 epoch) false (serves s 0x50 0) false
    (keyedOp 0x50 [job, epoch, ord] (resetColl job ord epoch)) s

/-- Step 1 of R471: every open ordinal of the job in epoch `e` and later aborts. -/
def abortFrom (s : State) (job e : Nat) : State :=
  (s.coll.colls.filter (fun c => c.job == job && e ≤ c.epoch)).foldl (fun s c =>
    if (collAt s job c.epoch c.ordinal).isOpen then abortHere s job c.epoch c.ordinal .aborted else s) s

/-- Step 2 of R471: every queue of the job in RUN, WAIT or PREEMPTED halts with ABORTED. -/
def haltJob (s : State) (job : Nat) : State :=
  (List.range 64).foldl (fun s q =>
    let Q := queueAt s q
    if Q.bound && Q.job == job && (Q.st == .run || Q.st == .wait || Q.st == .preempted) then haltQueue s q .aborted 0 else s) s

/-- What the epochs from `e` on have left: staged contributions, held sums, votes and twin reports (R69). -/
def discardFrom (s : State) (job e : Nat) : State :=
  let s := (s.coll.colls.filter (fun c => c.job == job && e ≤ c.epoch)).foldl (fun s c => restartColl s c false) s
  let s := setTwin s (fun t => { t with
    grads := t.grads.filter (fun g => !(g.job == job && e ≤ g.epoch)), gradsOut := t.gradsOut.filter (fun g => !(g.job == job && e ≤ g.epoch))
    flips := t.flips.filter (fun g => !(g.job == job && e ≤ g.epoch)), peerVotes := t.peerVotes.filter (fun g => !(g.job == job && e ≤ g.epoch)) })
  setJob s job (fun j => { j with
    votes := j.votes.filter (·.1 < e), endorsed := j.endorsed.filter (·.1 < e), endorsedSent := j.endorsedSent.filter (· < e)
    windowEnded := j.windowEnded.filter (· < e), ackAt := j.ackAt.filter (·.1 < e), commitAt := j.commitAt.filter (·.1 < e)
    formed := j.formed.filter (·.1 < e), closed := j.closed.filter (· < e), voteHold := false, oldest := e, rollMark := some e })

/-- A rollback at the module that serves a resync ends the copy (R482).
(DEDUCED, assumption 49; DEDUCED, assumption 97). -/
def endCopy (s : State) : State :=
  match s.fab.twin.st with
  | .syncing => toDetached s
  | .solo => if s.fab.twin.serving.isEmpty then s else
      endServing (sendTwin s (twinFrame 4 0 0x180 0 0 0 0 0 (padTo 256 (leBytes 1 0))))
  | _ => s

/-- The newest epoch that a shard of a job has flipped for. -/
def newestFlip (s : State) (job : Nat) : Option Nat :=
  (shardsOf s job).foldl (fun a h => match a, h.flipped with
    | some x, some y => some (max x y)
    | none, y => y
    | x, none => x) none

/-- Whether ROLLBACK_EPOCH is refused (R469). -/
def rollRefused (s : State) (job e : Nat) : Bool :=
  rollbackRefused s job e
  || (if hasState s job then (match newestFlip s job with | some n => e < n | none => false) else e < (jobAt s job).oldest)

/-- ROLLBACK_EPOCH (R471). (DEDUCED, assumption 97). -/
def rollbackEpoch (job e : Nat) (s : State) : Except Res State :=
  match topOf s job with
  | none => .error .state
  | some _ =>
    if (jobAt s job).rollMark = some e then .error .ok
    else if rollRefused s job e then .error .state
    else .ok (squashJob (endCopy (discardFrom (rollbackShards (haltJob (abortFrom s job e) job) job e) job e)) job)

/-- ROLLBACK_EPOCH (R469, R471, R472). -/
def doRollbackEpoch (h : FmdReq) (job epoch : Nat) (s : State) : State :=
  request h 0x51 (leBytes 1 job ++ List.replicate 7 0 ++ beBytes 8 epoch) false (serves s 0x51 0) false
    (keyedOp 0x51 [job, epoch] (rollbackEpoch job epoch)) s

/-! ### Remap and twin -/

/-- Whether a job runs on a logical unit: a bound queue uses it, the array holds work of one, a shard's step runs on it, or
for an engine or a bank any Topiary works on its die (R229, R469). -/
def unitInUse (s : State) (unit die logical : Nat) : Bool :=
  s.comp.queues.any (fun Q => Q.bound && Q.die == die && Q.qtype != .coll && (match unit with
    | 0 => false
    | 1 => Q.qtype == .vec && Q.gangFirst ≤ logical / 8 && logical / 8 < Q.gangFirst + Q.gangSize
    | 2 | 3 => Q.qtype == .mtx
    | _ => true))
  || ((unit == 2 || unit == 3) && !(s.comp.laurel.getD die []).isEmpty)
  || (unit == 1 && s.coll.shards.any (fun h => h.step.isSome && (match stateOf s h.job h.id with
      | some x => x.die == die && shardGroup s h.job die == logical / 8
      | none => false)))
  || s.tops.any (fun t => (unit == 0 || unit == 4) && t.colls.any (fun e => entryDie e == die))

/-- REMAP_UNIT's conditions (R469). -/
def remapStart (die unit logical : Nat) (s : State) : Except Res State :=
  if !hasDie s die then .error .unitAbsent
  else if (s.integ.quar.take 32).any (fun r => r.unit == unit && r.die == die && r.logical == logical && r.st ≤ 1) then
    if (s.integ.remapPending ++ s.integ.remapReady).any (fun r => r.unit == unit && r.die == die && r.logical == logical && r.phys != 0) then .error .ok
    else if spareFree s unit die logical = 0 then .error .state
    else .ok s
  else if s.integ.quar.any (fun r => r.unit == unit && r.die == die && r.logical == logical && r.st == 2) then .error .ok
  else .error .state

/-- REMAP_UNIT (R469, R472): the fuses are being written until RECOVERY_OPERATION_COMPLETE. -/
def doRemapUnit (h : FmdReq) (die unit logical : Nat) (s : State) : State :=
  request h 0x52 (leBytes 1 die ++ leBytes 1 unit ++ beBytes 2 logical) (4 < unit) (serves s 0x52 0) false
    (keyedOp 0x52 [die, unit, logical] (remapStart die unit logical)) s

/-- The remap is in the fuses: it applies at once to a unit on which no job runs, else under R229, by the remap that the
quarantine has left pending or a new one (R455, R469). -/
def fuseRemap (s : State) (die unit logical : Nat) : State :=
  if unitInUse s unit die logical then
    let r : Remap := ⟨unit, die, logical, spareIndex (s.integ.spares.getD die {}) unit logical⟩
    let fuse (xs : List Remap) : List Remap := xs.map (fun x =>
      if x.unit == unit && x.die == die && x.logical == logical then r else x)
    setInteg s (fun i => { i with
      remapPending := fuse i.remapPending ++ (if remapDue s unit die logical then [] else [r]), remapReady := fuse i.remapReady })
  else applyRemap s unit die logical

/-- RECOVERY_OPERATION_COMPLETE (R472): running operation `i` ends. (DEDUCED, assumption 96). -/
def doRecoveryOperationComplete (i : Nat) (s : State) : State :=
  match s.mgt.running[i]? with
  | none => s
  | some r =>
    if r.result.isSome then s
    else
      let s := match r.opcode, r.key with
        | 0x52, [die, unit, logical] => fuseRemap s die unit logical
        | _, _ => s
      if r.opcode = 0x53 then s
      else setMgt s (fun m => { m with running := m.running.modify i (fun r => { r with result := some .ok }) })

/-- RESYNC_TWIN's operation (R469, R472, R482 step 5): it runs while the module is SYNCING, and has completed in the
PAIRED state that it led to. (DEDUCED, assumption 96). -/
def resyncAct (s : State) : Answer :=
  let mine := (runningOp s 0x53 []).isSome
  match s.fab.twin.st with
  | .syncing => answered s .busy
  | .paired => answered s (if mine then .ok else .state)
  | .detached =>
    if resyncOk s then
      answered (setMgt (startResync s) (fun m => { m with running := m.running.filter (·.opcode != 0x53) ++ [{ opcode := 0x53, key := [] }] })) .busy
    else answered s .state
  | .solo => answered s .state

/-- RESYNC_TWIN (R482). -/
def doResyncTwin (h : FmdReq) (s : State) : State := request h 0x53 [] false (serves s 0x53 0) false resyncAct s

/-! ### Checkpoints -/

/-- The bank that holds an epoch for a shard (R191): bank 1 is `true`. -/
def bankOf (h : Shard) (epoch : Nat) : Option Bool :=
  if h.flipped = some epoch then some h.cur else if h.shadow = some epoch then some (!h.cur) else none

/-- Bytes of a plane from a byte offset, page by page (R545). -/
def planeBytes (s : State) (job : Nat) (x : StateEntry) (bank : Bool) (plane off n : Nat) : List Byte :=
  (List.range (n / 8)).flatMap (fun i =>
    let a := off + 8 * i
    s.comp.mem.getBytes (pageKey s job x bank plane (a / 2 ^ 21) + a % 2 ^ 21) 8)

/-- CHECKPOINT_READ's operation (R191, R545). (DEDUCED, assumption 97). -/
def checkpointAct (slot job : Nat) (close : Bool) (shard plane epoch off len : Nat) (s : State) : Answer :=
  match stateOf s job shard with
  | none => answered s .state
  | some x =>
    let h := shardAt s job shard
    if off % 8 != 0 || len % 8 != 0 || planePages x plane * 2 ^ 21 < off + len then answered s .range
    else match bankOf h epoch with
      | none => answered s .state
      | some b =>
        let others := h.reads.filter (fun r => !(r.1 == slot && r.2.1 == epoch))
        answered (setShard s job shard (fun h => { h with reads := if close then others else others ++ [(slot, epoch, s.now)] }))
          .ok (planeBytes s job x b plane off len)

/-- CHECKPOINT_READ (R545). -/
def doCheckpointRead (h : FmdReq) (job : Nat) (close : Bool) (shard plane epoch off len : Nat) (s : State) : State :=
  request h 0x33 (leBytes 1 job ++ [if close then 1 else 0] ++ beBytes 2 shard ++ leBytes 1 plane ++ [0, 0, 0] ++ beBytes 8 epoch
      ++ beBytes 8 off ++ beBytes 4 len)
    (4 ≤ plane || 8160 < len) (serves s 0x33 0) false (checkpointAct (h.slot.getD 8) job close shard plane epoch off len) s

/-- CHECKPOINT_READ_TIMEOUT (R545): 100 ms without a further request for the shard. -/
def doCheckpointReadTimeout (job shard : Nat) (s : State) : State :=
  setShard s job shard (fun h => { h with reads := h.reads.filter (fun r => r.1 == 8 || s.now < r.2.2 + 100000000) })

end Sys2Proof.Machine
end

