-- ==== Sys2Proof/Machine/Images.lean ====
section
/-! DEFINITION. Pushed images (R517, R520, R544), their verification, NVM_WRITE (R513) and MODULE_RESET (R547). -/

namespace Sys2Proof.Machine

/-- The staged image of a kind: 1 firmware, 2 configuration. -/
def stagedOf (s : State) (kind : Nat) : Option Staged := if kind = 1 then s.mgt.stagedFw else s.mgt.stagedCfg

/-- Put a staged image of a kind in place, or discard it. -/
def setStaged (s : State) (kind : Nat) (x : Option Staged) : State :=
  setMgt s (fun m => if kind = 1 then { m with stagedFw := x } else { m with stagedCfg := x })

/-- An accepted run of a firmware or configuration image (R544): the header's TOTAL_LEN and the region bound it; the run
that completes TOTAL_LEN is answered when the image has been verified. -/
def appendRun (kind slot tag crc : Nat) (all : List Byte) (s : State) : Answer :=
  if imageMax kind < all.length || (16 ≤ all.length && imageLen all < all.length) then answered (setStaged s kind none) .range
  else
    let full := 16 ≤ all.length && imageLen all == all.length
    let x : Staged := { session := slot, bytes := all, complete := full, ask := if full then some (slot, tag, crc) else none }
    let s := setStaged s kind (some x)
    if full then (s, none) else answered s .ok

/-- A run of a firmware or configuration image (R544). With firmware running in RECOVERY only kind CONFIG is accepted
(R517). (DEDUCED, assumption 100). -/
def pushImage (kind slot tag crc off : Nat) (bytes : List Byte) (s : State) : Answer :=
  if s.mgt.st == .recovery && s.mgt.fwRunning && kind == 1 then answered s .state
  else if off = 0 then appendRun kind slot tag crc bytes s
  else match stagedOf s kind with
    | some x =>
      if x.session != slot || x.complete || off != x.bytes.length then answered s .state
      else appendRun kind slot tag crc (x.bytes ++ bytes) s
    | none => answered s .state

/-- The operand bytes of an IMAGE_PUSH (R541). (DEDUCED, assumption 100). -/
def pushOps (kind job off : Nat) (bytes : List Byte) : List Byte :=
  leBytes 1 kind ++ leBytes 1 job ++ List.replicate 6 0 ++ beBytes 8 off ++ bytes

/-- IMAGE_PUSH (R544). -/
def doImagePush (h : FmdReq) (kind job offset : Nat) (bytes : List Byte) (s : State) : State :=
  let ops := pushOps kind job offset bytes
  request h 0x40 ops (2 < kind || bytes.isEmpty || 8168 < bytes.length) (serves s 0x40 kind) false (fun s =>
    if kind = 0 then pushTopiary (h.slot.getD 8) job offset bytes s
    else pushImage kind (h.slot.getD 8) h.tag (crc32c ops) offset bytes s) s

/-- The reply to the run that completed an image, if its session is still open (R538, R544). -/
def replyPush (s : State) (x : Staged) (r : Res) : State :=
  match x.ask with
  | some (k, tag, crc) => if (sessAt s k).valid then finishReply s k tag 0x40 crc r [] else s
  | none => s

/-- A pushed image fails its verification (R520, R544): VERIFY, the SEC attention bit, and the image is discarded.
(DEDUCED, assumption 100). -/
def pushFails (s : State) (kind : Nat) (x : Staged) : State := replyPush (setAttn (setStaged s kind none) aSec) x .verify

/-- The twin's image as one string of bytes (R518). -/
def twinImage (t : Twin) : List Byte :=
  (List.range t.imageBlocks).flatMap (fun b => match t.image.find? (·.1 == b) with
    | some x => x.2
    | none => [])

/-- Verification of the image fetched from the twin in RECOVERY ends (R517, R518): the first image to verify runs and
the other is discarded (R532). (DEDUCED, assumption 100). -/
def verifyTwin (s : State) : State :=
  let t := s.fab.twin
  if s.mgt.st = .recovery && !s.mgt.fwRunning && imageComplete t then
    let bs := twinImage t
    let s := setTwin s (fun t => { t with image := [], imageBlocks := 0 })
    if firmwareCause s bs = 0 then runFirmware (setStaged s 1 none) bs 1 else setAttn s aSec
  else s

/-- Verification of the staged firmware image ends (R517, R520). -/
def verifyFirmware (s : State) : State :=
  match s.mgt.stagedFw with
  | some x =>
    if !x.complete || x.verified then s
    else if firmwareCause s x.bytes != 0 then pushFails s 1 x
    else if s.mgt.st == .recovery then
      if s.mgt.fwRunning then replyPush (setStaged s 1 none) x .state
      else
        let s := setTwin (setStaged s 1 none) (fun t => { t with image := [], imageBlocks := 0 })
        replyPush (runFirmware s x.bytes 2) x .ok
    else replyPush (setStaged s 1 (some { x with verified := true, ask := none })) x .ok
  | none => s

/-- Verification of the staged configuration image ends (R517, R520): with firmware running in RECOVERY, and in CONFIG,
the module applies it from its first record. (DEDUCED, assumption 100). -/
def verifyConfig (s : State) : State :=
  match s.mgt.stagedCfg with
  | some x =>
    if !x.complete || x.verified then s
    else if configCause s x.bytes != 0 then pushFails s 2 x
    else
      let s := setStaged s 2 (some { x with verified := true, ask := none })
      let s := if (s.mgt.st == .recovery && s.mgt.fwRunning) || s.mgt.st == .config then enterConfig s x.bytes else s
      replyPush s x .ok
  | none => s

/-- IMAGE_VERIFY_COMPLETE (R517, R520). (DEDUCED, assumption 100). -/
def doImageVerifyComplete (src : ImageSrc) (s : State) : State :=
  match src with
  | .twin => verifyTwin s
  | .firmware => verifyFirmware s
  | .config => verifyConfig s

/-! ### NVM_WRITE -/

/-- The source that NVM_WRITE would write to a region (R513). -/
def nvmSource (s : State) (region : Nat) : Option (List Byte) :=
  let held (x : Option Staged) : Option (List Byte) := (x.filter (·.verified)).map (·.bytes)
  if region = 1 then held s.mgt.stagedCfg
  else match held s.mgt.stagedFw with
    | some bs => some bs
    | none => if s.mgt.fwRunning then some s.mgt.fwBytes else none

/-- A NOR region takes new bytes. -/
def setNor (s : State) (region : Nat) (bs : List Byte) : State :=
  setMgt s (fun m => { m with nor := if region = 1 then { m.nor with config := bs } else { m.nor with firmware := bs } })

/-- The operation of NVM_WRITE (R513): BUSY until it completes, then its result once. (DEDUCED, assumption 101). -/
def nvmAct (slot region : Nat) (s : State) : Answer :=
  if s.mgt.nvm.isSome then answered s .busy
  else match s.mgt.nvmResult with
    | some (r, res) =>
      if r = region then answered (setMgt s (fun m => { m with nvmResult := none })) res
      else match nvmSource s region with
        | some bs => answered (setMgt (setNor s region []) (fun m => { m with nvm := some (slot, region, bs) })) .busy
        | none => answered s .state
    | none =>
      match nvmSource s region with
      | some bs => answered (setMgt (setNor s region []) (fun m => { m with nvm := some (slot, region, bs) })) .busy
      | none => answered s .state

/-- NVM_WRITE (R513). (DEDUCED, assumption 101). -/
def doNvmWrite (h : FmdReq) (region : Nat) (s : State) : State :=
  request h 0x41 (leBytes 1 region) (1 < region) (serves s 0x41 0) false (nvmAct (h.slot.getD 8) region) s

/-- NVM_WRITE_COMPLETE (R513): the region is programmed, read back as `readBack`, and compared with the source.
(DEDUCED, assumption 101). -/
def doNvmWriteComplete (readBack : List Byte) (s : State) : State :=
  match s.mgt.nvm with
  | some (_, region, bs) =>
    setMgt (setNor s region readBack) (fun m => { m with
      nvm := none, nvmResult := some (region, if readBack == bs then .ok else .verify) })
  | none => s

/-! ### MODULE_RESET -/

/-- The operation of MODULE_RESET (R547). (DEDUCED, assumption 102). -/
def resetAct (confirm : Nat) (s : State) : Answer :=
  if confirm != s.mgt.serial % 2 ^ 32 then answered s .range
  else if s.mgt.nvm.isSome || s.mgt.burn != .none then answered s .state
  else answered (leaveTwin s 1) .ok

/-- MODULE_RESET (R547): after the reply the module enters BOOT, with the reset cause MODULE_RESET (R595).
(DEDUCED, assumption 102). -/
def doModuleReset (h : FmdReq) (confirm : Word32) (s : State) : State :=
  requestThen (fun t => resume (resetModule t 1)) h 0x60 (beBytes 4 confirm.toNat) false (serves s 0x60 0) false
    (resetAct confirm.toNat) s

end Sys2Proof.Machine
end

