-- ==== Sys2Proof/Machine/Debug.lean ====
section
/-! DEFINITION. Counter snapshots (R546), event rings over FMD (R568), the trace region (R562 to R565), mirror records
leaving the service port (R388, R548), the I3C target (R587) and JTAG (R569, R570). -/

namespace Sys2Proof

/-- Fjarby's JEDEC manufacturer code, which IDCODE holds (R569). (PRESUMED, assumption 106). -/
opaque Config.jedecCode : BitVec 11

/-- The boundary-scan register: its length in cells, and what it captures, by the count of draws (R569 gives no cells).
(PRESUMED, assumption 106). -/
opaque Config.boundaryLength : Nat
/-- What a boundary scan captures (R569 gives no cells): the count of draws gives the bits.
(PRESUMED, assumption 106). -/
opaque Config.boundaryScan : Nat → Nat

end Sys2Proof

namespace Sys2Proof.Machine

/-! ### Counter snapshots -/

/-- Every counter that a snapshot copies (R546, R556). -/
def counters (s : State) : Counters :=
  { comp := s.comp, fab := s.fab, coll := s.coll, integ := s.integ, pwr := s.pwr, queCnt := s.dbg.queCnt, fmdCnt := s.mgt.fmdCnt }

/-- COUNTER_SNAPSHOT TAKE (R546): SNAP_TIME is the fabric time of receipt plus 10 µs; the reply leaves after it.
(DEDUCED, assumption 103). -/
def doCounterSnapshotTake (h : FmdReq) (s : State) : State :=
  request h 0x13 [0] false (serves s 0x13 0) false (fun s =>
    let k := h.slot.getD 8
    if s.snap.any (fun x => x.owner != k) then answered s .state
    else
      let t := s.fabricTime + 10000
      ({ s with snap := some { owner := k, time := t }, dbg := { s.dbg with snapOwed := s.dbg.snapOwed ++ [(k, h.tag, t)] } }, none)) s

/-- COUNTER_SNAPSHOT RELEASE (R546). -/
def doCounterSnapshotRelease (h : FmdReq) (s : State) : State :=
  request h 0x13 [1] false (serves s 0x13 0) false (fun s =>
    if s.snap.any (fun x => x.owner == h.slot.getD 8) then answered { s with snap := none } .ok else answered s .state) s

/-- The reply of one TAKE whose SNAP_TIME has come. (DEDUCED, assumption 103). -/
def replyTake (s : State) (x : Nat × Nat × Nat) : State :=
  if (sessAt s x.1).valid then finishReply s x.1 x.2.1 0x13 (crc32c [0]) .ok (beBytes 8 x.2.2) else s

/-- SNAPSHOT_FREEZE (R546): at SNAP_TIME every counter copies its value, and the reply leaves.
(DEDUCED, assumption 103). -/
def doSnapshotFreeze (s : State) : State :=
  let s := match s.snap with
    | some x => if x.copy.isNone && x.time ≤ s.fabricTime then { s with snap := some { x with copy := some (counters s) } } else s
    | none => s
  let due := s.dbg.snapOwed.filter (fun x => x.2.2 ≤ s.fabricTime)
  let s := { s with dbg := { s.dbg with snapOwed := s.dbg.snapOwed.filter (fun x => s.fabricTime < x.2.2) } }
  due.foldl replyTake s

/-- SNAPSHOT_EXPIRY (R546): 60 s after SNAP_TIME. -/
def doSnapshotExpiry (s : State) : State :=
  if s.snap.any (fun x => x.time + 60000000000 ≤ s.fabricTime) then { s with snap := none } else s

/-! ### Event rings -/

/-- Whether a RING number names a ring (R567). -/
def ringOk (r : Nat) : Bool :=
  r ≤ 0xA || (0x100 ≤ r && r < 0x500 && (r % 0x100 < 0x14 || 0x80 ≤ r % 0x100)) || (0x500 ≤ r && r < 0x500 + 272)

/-- Whether a RING number names die 3 (R568). -/
def ringDie3 (r : Nat) : Bool := 0x400 ≤ r && r < 0x500

/-- The 16 bytes of an event-ring entry (R567). -/
def RingEntry.bytes16 (e : RingEntry) : List Byte :=
  leBytes 6 (e.time % 2 ^ 48) ++ leBytes 1 (e.code % 256) ++ leBytes 1 (bitIn e.cont 7) ++ leBytes 8 (e.data % 2 ^ 64)

/-- Entry `i` of a ring; an entry never written reads as zeros (R568). -/
def ringBytes (s : State) (ring i : Nat) : List Byte :=
  match (lookupD s.rings ring [])[i]? with
  | some e => e.bytes16
  | none => List.replicate 16 0

/-- EVENT_RING_READ (R568). -/
def doEventRingRead (h : FmdReq) (ring first count : Nat) (s : State) : State :=
  request h 0x14 (beBytes 2 ring ++ leBytes 1 first ++ leBytes 1 count) (63 < first || count < 1 || 64 < count) (serves s 0x14 0) true
    (fun s =>
      if 64 < first + count || !ringOk ring then answered s .range
      else if s.grade != 0 && ringDie3 ring then answered s .unitAbsent
      else answered s .ok ((List.range count).flatMap (fun i => ringBytes s ring (first + i)))) s

/-! ### Trace -/

/-- The record of `n` operand bytes of a TRACE_CTRL action (R563). -/
def traceOps (action mode : Nat) : List Byte := leBytes 1 action ++ leBytes 1 mode ++ List.replicate 6 0

/-- TRACE_CTRL START (R562, R563). (DEDUCED, assumption 104). -/
def doTraceCtrlStart (h : FmdReq) (mode : Nat) (s : State) : State :=
  request h 0x15 (traceOps 0 mode) (1 < mode) (serves s 0x15 0) false (fun s =>
    if s.dbg.traceGib = 0 || tierGib s = 0 || s.dbg.running then answered s .state
    else answered { s with dbg := { s.dbg with running := true, draining := false, stopFull := mode == 1, wrIndex := 0 } } .ok) s

/-- TRACE_CTRL STOP (R563): a repeat returns OK. (DEDUCED, assumption 104). -/
def doTraceCtrlStop (h : FmdReq) (s : State) : State :=
  request h 0x15 (traceOps 1 0) false (serves s 0x15 0) false (fun s =>
    answered { s with dbg := { s.dbg with draining := s.dbg.running } } .ok) s

/-- TRACE_CTRL STATUS (R563). -/
def doTraceCtrlStatus (h : FmdReq) (s : State) : State :=
  request h 0x15 (traceOps 2 0) false (serves s 0x15 0) false (fun s =>
    answered s .ok (beBytes 8 (traceStatusReg s) ++ beBytes 8 (traceFilterReg s))) s

/-- TRACE_CTRL FILTER (R563): reserved SOURCES bits are ignored (R21). -/
def doTraceCtrlFilter (h : FmdReq) (sources : Word) (jobs : BitVec 16) (s : State) : State :=
  request h 0x15 (traceOps 3 0 ++ beBytes 8 sources.toNat ++ beBytes 2 jobs.toNat ++ List.replicate 6 0) false (serves s 0x15 0) false
    (fun s => answered { s with dbg := { s.dbg with sources := sources.toNat % 2 ^ 10, jobs := jobs.toNat } } .ok) s

/-- The 32 bytes of a trace record (R565). -/
def TraceRec.bytes32 (r : TraceRec) : List Byte :=
  leBytes 8 r.time ++ leBytes 1 r.source ++ leBytes 1 r.kind ++ leBytes 1 r.die ++ leBytes 1 r.job ++ leBytes 4 r.ordinal
    ++ leBytes 4 r.aux1 ++ leBytes 4 r.aux2 ++ leBytes 8 r.data

/-- Records that the trace region holds (R562). -/
def traceSlots (s : State) : Nat := s.dbg.traceGib * 2 ^ 30 / 32

/-- One record is written to the region (R564). In WRAP mode the write of the last record wraps; in STOP_FULL mode
that write does not happen and tracing stops. -/
def writeTrace (s : State) (r : TraceRec) : State :=
  let g := s.dbg
  let n := traceSlots s
  if !g.running then s
  else if g.wrIndex + 1 ≥ n && g.stopFull then
    setAttn { s with dbg := { g with running := false, draining := false, queue := [] } } aTraceWrap
  else
    let s := { s with comp := { s.comp with
      mem := s.comp.mem.writeRun (memKey 2 0 (Config.traceBase + 32 * g.wrIndex)) r.bytes32 } }
    if g.wrIndex + 1 < n then { s with dbg := { g with wrIndex := g.wrIndex + 1 } }
    else setAttn { s with dbg := { g with wrIndex := 0, wraps := min (2 ^ 22 - 1) (g.wraps + 1) } } aTraceWrap

/-- Whether a mirror record waits that can leave: mirror records come before trace records (R562).
(DEDUCED, assumption 104). -/
def mirrorWaits (s : State) : Bool :=
  !s.fab.mirrorQueue.isEmpty && ((s.fab.mirrorDest == 1 && 0 < mirrorSlots s) || (s.fab.mirrorDest == 2 && s.fab.mirrorSession.isSome))

/-- TRACE_RECORD_WRITE (R562, R564): the oldest queued record is written. (DEDUCED, assumption 104). -/
def doTraceRecordWrite (s : State) : State :=
  match s.dbg.queue with
  | r :: rest => if s.dbg.running && !mirrorWaits s then writeTrace { s with dbg := { s.dbg with queue := rest } } r else s
  | [] => s

/-- TRACE_DRAIN_COMPLETE (R563): after STOP the queue drains and writing stops. (DEDUCED, assumption 104). -/
def doTraceDrainComplete (s : State) : State :=
  if s.dbg.running && s.dbg.draining then
    let t := s.dbg.queue.foldl writeTrace { s with dbg := { s.dbg with queue := [] } }
    { t with dbg := { t.dbg with running := false, draining := false } }
  else s

/-! ### Mirror records -/

/-- MIRROR_DATA (R548): a datagram of 1 to 51 records to the mirror session. -/
def doMirrorData (s : State) : State :=
  match s.fab.mirrorSession with
  | some k =>
    if s.fab.mirrorDest != 2 || s.fab.mirrorQueue.isEmpty || s.mgt.st == .safe then s
    else
      let rs := s.fab.mirrorQueue.take 51
      let s := { s with fab := { s.fab with mirrorQueue := s.fab.mirrorQueue.drop 51 } }
      setMgt s (fun m => { m with replies :=
        { session := k, tag := 0xFFFF, opcode := 0x80, result := 0, attn := 0, payload := rs.flatMap MirrorRec.bytes160 } :: m.replies })
  | none => s

/-- MIRROR_RING_WRITE (R388): the oldest queued record goes to the ring, which overwrites its oldest record. -/
def doMirrorRingWrite (s : State) : State :=
  let n := mirrorSlots s
  match s.fab.mirrorQueue with
  | r :: rest =>
    if s.fab.mirrorDest != 1 || n = 0 then s
    else
      let i := s.fab.mirrorIndex
      let last := n ≤ i + 1
      { s with
        comp := { s.comp with mem := s.comp.mem.writeRun (memKey 2 0 (Config.mirrorBase + 160 * i)) r.bytes160 }
        fab := { s.fab with
          mirrorQueue := rest, mirrorIndex := if last then 0 else i + 1
          mirrorWraps := if last then min (2 ^ 32 - 1) (s.fab.mirrorWraps + 1) else s.fab.mirrorWraps } }
  | [] => s

/-! ### I3C and JTAG -/

/-- I3C_PRIVATE_READ (R587): from BOOT step 2 on and in SAFE; the module is past BOOT once a boot state follows it.
(DEDUCED, assumption 107). -/
def doI3cPrivateRead (s : State) : State :=
  if s.mgt.st = .off || s.mgt.st = .boot then s
  else { s with dbg := { s.dbg with
    i3cOut := leBytes 8 (stateReg s) ++ leBytes 8 (feedReg s) ++ leBytes 8 (thermReg s) ++ leBytes 8 (twinStatus s) } }

/-- I3C_WRITE (R587): the target ignores every write. (DEDUCED, assumption 107). -/
def doI3cWrite (_bytes : List Byte) (s : State) : State := s

/-- The data register that a JTAG instruction shifts out, and its length (R569); the TAP runs on VSVC.
(PRESUMED, assumption 106). -/
def jtagShift (s : State) (bits out : Nat) : State :=
  if s.mgt.st = .off then s else { s with dbg := { s.dbg with jtagBits := bits, jtagOut := out } }

/-- A boundary scan (R569): what it captures is a free value. -/
def boundary (s : State) : State :=
  let (_, t) := drawFree s
  jtagShift t Config.boundaryLength (Config.boundaryScan s.freeCtr)

/-- EXTEST (R569): acts as BYPASS unless the module is in RECOVERY or SAFE. -/
def doExtest (_scan : Nat) (s : State) : State :=
  if s.mgt.st = .recovery || s.mgt.st = .safe then boundary s else jtagShift s 1 0

/-- IDCODE (R569). -/
def doIdcode (s : State) : State :=
  jtagShift s 32 ((s.mgt.silicon % 16) <<< 28 + (if s.grade = 0 then 0x6400 else 0x4800) <<< 12 + Config.jedecCode.toNat <<< 1 + 1)

/-- SAMPLE/PRELOAD (R569). -/
def doSamplePreload (_scan : Nat) (s : State) : State := boundary s

/-- RING_SEL (R569): RING in bits [23:8] and the index in bits [5:0]. -/
def doRingSel (dr : BitVec 24) (s : State) : State :=
  if s.mgt.st = .off then s
  else jtagShift { s with dbg := { s.dbg with jtagRing := natField dr.toNat 23 8, jtagIndex := natField dr.toNat 5 0 } } 24 dr.toNat

/-- RING_DATA (R569): all zeros for a reserved or absent ring. -/
def doRingData (s : State) : State :=
  let r := s.dbg.jtagRing
  jtagShift s 128 (if ringOk r && !(s.grade != 0 && ringDie3 r) then leVal (ringBytes s r s.dbg.jtagIndex) else 0)

/-- STATE (R569). -/
def doJtagState (s : State) : State := jtagShift s 64 (stateReg s)

/-- BYPASS (R569): 0xFF and every code without an instruction of its own. (PRESUMED, assumption 106). -/
def doBypass (code : BitVec 8) (s : State) : State :=
  if [0x00, 0x01, 0x02, 0x20, 0x21, 0x22].contains code.toNat then s else jtagShift s 1 0

end Sys2Proof.Machine
end

