-- ==== Sys2Proof/Machine/Trace.lean ====
section
/-! DEFINITION. The traced events of R565: which records one command's change of state makes, and how they enter the
trace queue (R562, R563). An event is read off the difference of the states before and after the command. -/

namespace Sys2Proof.Machine

/-- A trace record at the fabric time of the event. -/
def traceRec (s : State) (source kind die job ordinal aux1 aux2 data : Nat) : TraceRec :=
  { time := s.fabricTime % 2 ^ 64, source := source, kind := kind, die := die % 256, job := job % 256, ordinal := ordinal % 2 ^ 32
    aux1 := aux1 % 2 ^ 32, aux2 := aux2 % 2 ^ 32, data := data % 2 ^ 64 }

/-- SOURCE 0: queue state changes. -/
def traceQueues (old new : State) : List TraceRec :=
  (List.range 64).filterMap (fun q =>
    let Q := queueAt new q
    if Q.bound && (queueAt old q).st != Q.st then some (traceRec new 0 1 Q.die Q.job 0 q Q.st.code (qstatReg new q)) else none)

/-- SOURCE 1: ordinals that become eligible, complete or abort. -/
def traceColls (old new : State) : List TraceRec :=
  new.coll.colls.flatMap (fun c =>
    let o := (old.coll.colls.find? (fun x => x.job == c.job && x.epoch == c.epoch && x.ordinal == c.ordinal)).getD
      { job := c.job, epoch := c.epoch, ordinal := c.ordinal }
    let reg := new.coll.abortLast.getD c.job 0
    let r (k d : Nat) := traceRec new 1 k 4 c.job c.ordinal (c.epoch % 4) 0 d
    (if c.eligible && !o.eligible then [r 1 0] else []) ++ (if c.completed && !o.completed then [r 2 reg] else [])
      ++ (if c.aborted && !o.aborted then [r 3 reg] else []))

/-- SOURCE 2 at the inputs of an ordinal: ACKs and NAK_CHUNKs sent. -/
def traceInputs (new : State) (die : Nat) (o c : Coll) : List TraceRec :=
  c.inputs.flatMap (fun i =>
    let p := (o.inputs.find? (fun x => x.rank == i.rank && x.chunk == i.chunk)).getD { rank := i.rank, chunk := i.chunk }
    (if i.acked && !p.acked then [traceRec new 2 3 die c.job c.ordinal i.chunk i.rank i.ackCrc] else [])
      ++ (if p.naks < i.naks then [traceRec new 2 4 die c.job c.ordinal i.chunk i.rank (i.nakCrc - i.nakCrc % 256 + i.nakCause % 256)] else []))

/-- SOURCE 2 at the outputs of an ordinal: DIGESTs and RETRACTs sent and replays begun. -/
def traceOutputs (new : State) (die : Nat) (o c : Coll) : List TraceRec :=
  c.outputs.flatMap (fun x =>
    match o.outputs.find? (fun y => y.lo == x.lo && y.hi == x.hi && y.chunk == x.chunk) with
    | some y =>
      let r (k : Nat) := traceRec new 2 k die c.job c.ordinal x.chunk x.lo (crc64 x.bytes)
      ((List.range x.consumers.length).filterMap (fun i =>
        match x.consumers[i]?, y.consumers[i]? with
        | some a, some b => if a.sentAt.isSome && a.sentAt != b.sentAt then some (r 2) else none
        | _, _ => none))
        ++ (if y.failures < x.failures then [r 5, r 6] else [])
    | none => [])

/-- SOURCE 2: events of chunks. (DEDUCED, assumption 105). -/
def traceChunks (old new : State) : List TraceRec :=
  new.coll.colls.flatMap (fun c =>
    let o := (old.coll.colls.find? (fun x => x.job == c.job && x.epoch == c.epoch && x.ordinal == c.ordinal)).getD
      { job := c.job, epoch := c.epoch, ordinal := c.ordinal }
    if o == c then []
    else
      let die := match entryOf new c.job c.ordinal with | some e => entryDie e | none => 0
      (c.reached.filter (fun k => !o.reached.contains k)).map (fun k => traceRec new 2 1 die c.job c.ordinal k 0 0)
        ++ traceOutputs new die o c ++ traceInputs new die o c)

/-- SOURCE 3: flags set, and waits of FLAG_WAIT. (DEDUCED, assumption 105). -/
def traceFlags (old new : State) : List TraceRec :=
  (new.comp.jobFlags.flatMap (fun x =>
    let was := lookupD old.comp.jobFlags x.1 0
    if was = x.2 then []
    else (List.range 256).filterMap (fun f =>
      if natBit x.2 f && !natBit was f then some (traceRec new 3 1 0 x.1 0 f 0 0) else none)))
  ++ (List.range 64).flatMap (fun q =>
    let Q := queueAt new q
    match (queueAt old q).wait, Q.wait with
    | .flag f, .flag g => if f = g then [] else [traceRec new 3 3 Q.die Q.job 0 f q 0, traceRec new 3 2 Q.die Q.job 0 g q 0]
    | .flag f, _ => [traceRec new 3 3 Q.die Q.job 0 f q 0]
    | _, .flag g => [traceRec new 3 2 Q.die Q.job 0 g q 0]
    | _, _ => [])

/-- SOURCE 4: stretch requests, swaps and expiries. (DEDUCED, assumption 105). -/
def traceSched (old new : State) : List TraceRec :=
  let a := old.fab.tim.sched
  let b := new.fab.tim.sched
  ((b.held.filter (fun h => !a.held.any (fun g => g.1 == h.1))).map (fun h =>
    traceRec new 4 (if h.1 % 65536 = new.fab.moduleIndex % 2 ^ 15 then 1 else 2) 4 0 0 h.2.2 (h.1 / 65536) h.2.1))
  ++ (if b.active && b.activeSince != a.activeSince then
      [traceRec new 4 (if a.pending.any (fun p => p.1 == b.base) then 3 else 4) 4 0 0 b.factor 0 b.base] else [])

/-- SOURCE 5: VCOMP steps and current gating. -/
def tracePower (old new : State) : List TraceRec :=
  (List.range 4).flatMap (fun d =>
    let a := diePwr old d
    let b := diePwr new d
    let r (k : Nat) := traceRec new 5 k d 0 0 d b.vcompMv (dieReg new d)
    (if a.vcompMv != b.vcompMv then [r 1] else []) ++ (if b.gated && !a.gated then [r 2] else [])
      ++ (if a.gated && !b.gated then [r 3] else []))

/-- SOURCE 6: the twin's state. -/
def traceTwin (old new : State) : List TraceRec :=
  if old.fab.twin.st = new.fab.twin.st then []
  else [traceRec new 6 1 4 0 0 old.fab.twin.st.code new.fab.twin.st.code (twinStatus new)]

/-- What a frame of the tier cache did: pages written back and moved in. -/
def traceFrame (new : State) (die job : Nat) (a b : Frame) : List TraceRec :=
  match a.st, b.st with
  | .writeBack _ _ q, .writeBack _ _ _ => if a.st = b.st then [] else [traceRec new 7 3 die job 0 q 0 a.hbmPage]
  | .writeBack _ _ q, _ => [traceRec new 7 3 die job 0 q 0 a.hbmPage]
  | .filling _ q, .resident _ => [traceRec new 7 2 die job 0 q 0 a.hbmPage]
  | _, _ => []

/-- SOURCE 7: tier faults, page moves, pre-emption and resumption. -/
def traceMem (old new : State) : List TraceRec :=
  ((new.comp.tierFaults.filter (fun f => !old.comp.tierFaults.any (fun g => g.queue == f.queue))).map (fun f =>
    traceRec new 7 1 f.die f.job 0 f.queue 0 (f.pages.headD 0 * 2 ^ 21)))
  ++ (new.comp.frames.flatMap (fun x =>
    let was := lookupD old.comp.frames x.1 []
    if was == x.2 then []
    else (List.zip was x.2).flatMap (fun p => traceFrame new (x.1 / 16) (x.1 % 16) p.1 p.2)))
  ++ (List.range 64).flatMap (fun q =>
    let Q := queueAt new q
    match (queueAt old q).st, Q.st with
    | .preempted, .preempted => []
    | .preempted, .run => [traceRec new 7 5 Q.die Q.job 0 q 0 0]
    | _, .preempted => [traceRec new 7 4 Q.die Q.job 0 q 0 0]
    | _, _ => [])

/-- CAUSE of the newest lane-down entry of a lane's ring (R567). -/
def downCause (s : State) (l : Nat) : Nat :=
  match (lookupD s.rings (0x500 + l) []).find? (fun e => e.code == 2) with
  | some e => natField e.data 15 9
  | none => 0

/-- SOURCE 8: retrains and LINK_NAKs. (DEDUCED, assumption 105). -/
def traceLinks (old new : State) : List TraceRec :=
  new.fab.lanes.flatMap (fun x =>
    let l := x.1
    let b := x.2
    let a := laneAt old l
    let up (k : Nat) : Bool := a.cnt.getD k 0 < b.cnt.getD k 0
    let r (k cause : Nat) := traceRec new 8 k 4 0 0 l cause (lnkReg new l)
    (if up 15 then [r 1 (downCause new l)] else []) ++ (if up 3 then [r 2 b.nakCause] else [])
      ++ (if up 4 then [r 3 b.nakHeard] else []))

/-- SOURCE 9: levels, freezes and releases of an instance. -/
def traceBpm (old new : State) (i : Nat) : List TraceRec :=
  let a := bpmAt old i
  let b := bpmAt new i
  let die := if i = 0 then 4 else i - 1
  let viol (B : Bpm) (r : Nat) : Nat := (B.viol.find? (fun v => natBit v 63 && natField v 55 40 == r)).getD 0
  ((List.range b.pools.length).filterMap (fun p =>
    let was := (a.pools.getD p {}).level
    let lv := (b.pools.getD p {}).level
    if was = lv then none else some (traceRec new 9 1 die 0 0 i p lv)))
  ++ ((b.frozen.filter (fun r => !a.frozen.contains r)).map (fun r => traceRec new 9 2 die (reqJob r) 0 i 0 (viol b r)))
  ++ ((a.frozen.filter (fun r => !b.frozen.contains r)).map (fun r => traceRec new 9 3 die (reqJob r) 0 i 0 (viol a r)))

/-- Every record of one command, in the order of the table of R565. (DEDUCED, assumption 105). -/
def traceRecords (old new : State) : List TraceRec :=
  traceQueues old new ++ traceColls old new ++ traceChunks old new ++ traceFlags old new ++ traceSched old new
    ++ tracePower old new ++ traceTwin old new ++ traceMem old new ++ traceLinks old new
    ++ (List.range 5).flatMap (traceBpm old new)

/-- Whether the filter passes a record: its source, and its job where the source has one (R565). -/
def tracePasses (g : Dbg) (r : TraceRec) : Bool :=
  natBit g.sources r.source && ([4, 5, 6, 8].contains r.source || (r.source == 9 && r.kind == 1) || natBit g.jobs r.job)

/-- A record enters the queue of 256, or is dropped and counted (R562). -/
def pushTrace (g : Dbg) (r : TraceRec) : Dbg :=
  if !tracePasses g r then g
  else if 256 ≤ g.queue.length then { g with drops := min 127 (g.drops + 1) }
  else { g with queue := g.queue ++ [r] }

/-- The state after a command with its trace records queued (R562, R563): only while tracing runs, before STOP.
(DEDUCED, assumption 105). -/
def traced (old new : State) : State :=
  { new with dbg := if old.dbg.running && new.dbg.running && !new.dbg.draining then (traceRecords old new).foldl pushTrace new.dbg else new.dbg }

end Sys2Proof.Machine
end

