-- ==== Sys2Proof/Machine/MeanBoot.lean ====
section
/-! DEFINITION. The meanings of the commands, one for each: start-up, pins, JTAG, transport, sessions and completions. A meaning is the
operation of its command, with the trace records of what it changed (R565). -/

namespace Sys2Proof.Machine

/-- POWER_ON (R509). -/
def execPowerOn (feed : Nat) (v10 : Int) (s : State) : Host.Outcome State Fault Refusal :=
  .next (traced s (doPowerOn feed v10 s))

/-- CONFIG_APPLY (R524). -/
def execConfigApply (s : State) : Host.Outcome State Fault Refusal :=
  .next (traced s (doConfigApply s))

/-- TRAINING_COMPLETE (R510). -/
def execTrainingComplete (hbm : List Bool) (ddr : List DimmRead) (s : State) : Host.Outcome State Fault Refusal :=
  .next (traced s (doTrainingComplete hbm ddr s))

/-- SYNC_TIMEOUT (R510). -/
def execSyncTimeout (s : State) : Host.Outcome State Fault Refusal :=
  .next (traced s (doSyncTimeout s))

/-- IMAGE_REQUEST_REPEAT (R518). -/
def execImageRequestRepeat (s : State) : Host.Outcome State Fault Refusal :=
  .next (traced s (doImageRequestRepeat s))

/-- IMAGE_VERIFY_COMPLETE (R517). -/
def execImageVerifyComplete (src : ImageSrc) (s : State) : Host.Outcome State Fault Refusal :=
  .next (traced s (doImageVerifyComplete src s))

/-- CARRIER_RESET_ASSERT (R588). -/
def execCarrierResetAssert (s : State) : Host.Outcome State Fault Refusal :=
  .next (traced s (doCarrierResetAssert s))

/-- CARRIER_RESET_RELEASE (R588). -/
def execCarrierResetRelease (s : State) : Host.Outcome State Fault Refusal :=
  .next (traced s (doCarrierResetRelease s))

/-- LSR_EN_CHANGE (R590). -/
def execLsrEnChange (level : Bool) (s : State) : Host.Outcome State Fault Refusal :=
  .next (traced s (doLsrEnChange level s))

/-- SB3V3_LOSS (R596). -/
def execSb3v3Loss (s : State) : Host.Outcome State Fault Refusal :=
  .next (traced s (doSb3v3Loss s))

/-- I3C_PRIVATE_READ (R587). -/
def execI3cPrivateRead (s : State) : Host.Outcome State Fault Refusal :=
  .next (traced s (doI3cPrivateRead s))

/-- I3C_WRITE (R587). -/
def execI3cWrite (bytes : List Byte) (s : State) : Host.Outcome State Fault Refusal :=
  .next (traced s (doI3cWrite bytes s))

/-- EXTEST (R569). -/
def execExtest (scan : Nat) (s : State) : Host.Outcome State Fault Refusal :=
  .next (traced s (doExtest scan s))

/-- IDCODE (R569). -/
def execIdcode (s : State) : Host.Outcome State Fault Refusal :=
  .next (traced s (doIdcode s))

/-- SAMPLE_PRELOAD (R569). -/
def execSamplePreload (scan : Nat) (s : State) : Host.Outcome State Fault Refusal :=
  .next (traced s (doSamplePreload scan s))

/-- RING_SEL (R569). -/
def execRingSel (dr : BitVec 24) (s : State) : Host.Outcome State Fault Refusal :=
  .next (traced s (doRingSel dr s))

/-- RING_DATA (R569). -/
def execRingData (s : State) : Host.Outcome State Fault Refusal :=
  .next (traced s (doRingData s))

/-- STATE (R569). -/
def execJtagState (s : State) : Host.Outcome State Fault Refusal :=
  .next (traced s (doJtagState s))

/-- BYPASS (R569). -/
def execBypass (code : BitVec 8) (s : State) : Host.Outcome State Fault Refusal :=
  .next (traced s (doBypass code s))

/-- FMD_DISCARD (R534). -/
def execFmdDiscard (port : Nat) (s : State) : Host.Outcome State Fault Refusal :=
  .next (traced s (doFmdDiscard port s))

/-- SECURED_MESSAGE_DISCARD (R535). -/
def execSecuredMessageDiscard (sessionId : Nat) (tagOk : Bool) (seq : Nat) (s : State) : Host.Outcome State Fault Refusal :=
  .next (traced s (doSecuredMessageDiscard sessionId tagOk seq s))

/-- ARP_ND_REQUEST (R533). -/
def execArpNdRequest (port : Nat) (target : List Byte) (s : State) : Host.Outcome State Fault Refusal :=
  .next (traced s (doArpNdRequest port target s))

/-- ICMP_ECHO (R533). -/
def execIcmpEcho (port : Nat) (target : List Byte) (body : List Byte) (s : State) : Host.Outcome State Fault Refusal :=
  .next (traced s (doIcmpEcho port target body s))

/-- SPDM (R526). -/
def execSpdm (h : FmdReq) (m : SpdmMsg) (s : State) : Host.Outcome State Fault Refusal :=
  .next (traced s (doSpdm h m s))

/-- KEY_EXCHANGE (R527). -/
def execKeyExchange (h : FmdReq) (sessionId : Nat) (s : State) : Host.Outcome State Fault Refusal :=
  .next (traced s (doKeyExchange h sessionId s))

/-- FINISH (R527). -/
def execFinish (h : FmdReq) (sessionId : Nat) (rootKey : List Byte) (proofOk : Bool) (s : State) : Host.Outcome State Fault Refusal :=
  .next (traced s (doFinish h sessionId rootKey proofOk s))

/-- END_SESSION (R538). -/
def execEndSession (h : FmdReq) (s : State) : Host.Outcome State Fault Refusal :=
  .next (traced s (doEndSession h s))

/-- GET_MEASUREMENTS (R528). -/
def execGetMeasurements (h : FmdReq) (index : Nat) (s : State) : Host.Outcome State Fault Refusal :=
  .next (traced s (doGetMeasurements h index s))

/-- SESSION_TIMEOUT (R527). -/
def execSessionTimeout (slot : Nat) (s : State) : Host.Outcome State Fault Refusal :=
  .next (traced s (doSessionTimeout slot s))

/-- TOPIARY_ACTIVATE (R279). -/
def execTopiaryActivate (job : Nat) (s : State) : Host.Outcome State Fault Refusal :=
  .next (traced s (doTopiaryActivate job s))

/-- TOPIARY_UNLOAD_COMPLETE (R283). -/
def execTopiaryUnloadComplete (job : Nat) (s : State) : Host.Outcome State Fault Refusal :=
  .next (traced s (doTopiaryUnloadComplete job s))

/-- CHECKPOINT_READ_TIMEOUT (R545). -/
def execCheckpointReadTimeout (job : Nat) (shard : Nat) (s : State) : Host.Outcome State Fault Refusal :=
  .next (traced s (doCheckpointReadTimeout job shard s))

/-- NVM_WRITE_COMPLETE (R513). -/
def execNvmWriteComplete (readBack : List Byte) (s : State) : Host.Outcome State Fault Refusal :=
  .next (traced s (doNvmWriteComplete readBack s))

/-- FUSE_BURN_COMPLETE (R531). -/
def execFuseBurnComplete (s : State) : Host.Outcome State Fault Refusal :=
  .next (traced s (doFuseBurnComplete s))

/-- MASTER_SYNC_ELAPSED (R509). -/
def execMasterSyncElapsed (s : State) : Host.Outcome State Fault Refusal :=
  .next (traced s (doMasterSyncElapsed s))

/-- MGT_PORT_LINK_CHANGE (R553). -/
def execMgtPortLinkChange (port : Nat) (st : Nat) (fec : Bool) (s : State) : Host.Outcome State Fault Refusal :=
  .next (traced s (doMgtPortLinkChange port st fec s))

/-- RECOVERY_OPERATION_COMPLETE (R472). -/
def execRecoveryOperationComplete (idx : Nat) (s : State) : Host.Outcome State Fault Refusal :=
  .next (traced s (doRecoveryOperationComplete idx s))

end Sys2Proof.Machine
end

