-- ==== Sys2Proof/Machine/MeanEvents.lean ====
section
/-! DEFINITION. The meanings of the commands, one for each: collective, optimizer, time, twin and power events. A meaning is the
operation of its command, with the trace records of what it changed (R565). -/

namespace Sys2Proof.Machine

/-- ORDINAL_ELIGIBLE (R150); cast weights that waited for the ordinal leave (R61). -/
def execOrdinalEligible (job : Nat) (epoch : Nat) (ordinal : Nat) (s : State) : Host.Outcome State Fault Refusal :=
  .next (traced s (emitCasts (doOrdinalEligible job epoch ordinal s) job))

/-- ORDINAL_TIMEOUT (R154). -/
def execOrdinalTimeout (job : Nat) (epoch : Nat) (ordinal : Nat) (s : State) : Host.Outcome State Fault Refusal :=
  .next (traced s (doOrdinalTimeout job epoch ordinal s))

/-- CHUNK_TIMER_EXPIRY (R447). -/
def execChunkTimerExpiry (job : Nat) (epoch : Nat) (ordinal : Nat) (s : State) : Host.Outcome State Fault Refusal :=
  .next (traced s (doChunkTimerExpiry job epoch ordinal s))

/-- SHORT_WAIT_EXPIRY (R442). -/
def execShortWaitExpiry (job : Nat) (epoch : Nat) (ordinal : Nat) (rank : Nat) (chunk : Nat) (s : State) : Host.Outcome State Fault Refusal :=
  .next (traced s (doShortWaitExpiry job epoch ordinal rank chunk s))

/-- DIGEST_SEND (R441). -/
def execDigestSend (job : Nat) (epoch : Nat) (ordinal : Nat) (lo : Nat) (hi : Nat) (chunk : Nat) (s : State) : Host.Outcome State Fault Refusal :=
  .next (traced s (doDigestSend job epoch ordinal lo hi chunk s))

/-- DIGEST_RESEND (R441). -/
def execDigestResend (job : Nat) (epoch : Nat) (ordinal : Nat) (lo : Nat) (hi : Nat) (chunk : Nat) (idx : Nat) (s : State) : Host.Outcome State Fault Refusal :=
  .next (traced s (doDigestResend job epoch ordinal lo hi chunk idx s))

/-- SHARD_FLIP (R63). -/
def execShardFlip (job : Nat) (shard : Nat) (s : State) : Host.Outcome State Fault Refusal :=
  .next (traced s (doShardFlip job shard s))

/-- OPTIMIZER_STEP_START (R188). -/
def execOptimizerStepStart (job shard reg : Nat) (s : State) : Host.Outcome State Fault Refusal :=
  .next (traced s (doOptimizerStepStart job shard reg s))

/-- EPOCH_BOUNDARY (R65). -/
def execEpochBoundary (job : Nat) (s : State) : Host.Outcome State Fault Refusal :=
  .next (traced s (doEpochBoundary job s))

/-- VOTE_WINDOW_EXPIRY (R450). -/
def execVoteWindowExpiry (job : Nat) (epoch : Nat) (s : State) : Host.Outcome State Fault Refusal :=
  .next (traced s (doVoteWindowExpiry job epoch s))

/-- VOTE_CLOSE (R451). -/
def execVoteClose (job : Nat) (epoch : Nat) (s : State) : Host.Outcome State Fault Refusal :=
  .next (traced s (doVoteClose job epoch s))

/-- TIME_SEND (R303). -/
def execTimeSend (s : State) : Host.Outcome State Fault Refusal :=
  .next (traced s (doTimeSend s))

/-- TIME_PARENT_TIMEOUT (R306). -/
def execTimeParentTimeout (s : State) : Host.Outcome State Fault Refusal :=
  .next (traced s (doTimeParentTimeout s))

/-- MASTER_TIME_START (R302). -/
def execMasterTimeStart (s : State) : Host.Outcome State Fault Refusal :=
  .next (traced s (doMasterTimeStart s))

/-- STRETCH_RENEW (R319). -/
def execStretchRenew (s : State) : Host.Outcome State Fault Refusal :=
  .next (traced s (doStretchRenew s))

/-- GATE_SWAP (R311). -/
def execGateSwap (s : State) : Host.Outcome State Fault Refusal :=
  .next (traced s (doGateSwap s))

/-- STRETCH_EXPIRY (R322). -/
def execStretchExpiry (s : State) : Host.Outcome State Fault Refusal :=
  .next (traced s (doStretchExpiry s))

/-- SCHED_MISMATCH (R324). -/
def execSchedMismatch (port : Nat) (s : State) : Host.Outcome State Fault Refusal :=
  .next (traced s (doSchedMismatch port s))

/-- HELLO_SEND (R478). -/
def execHelloSend (s : State) : Host.Outcome State Fault Refusal :=
  .next (traced s (doHelloSend s))

/-- TWIN_SILENCE_TIMEOUT (R479). -/
def execTwinSilenceTimeout (s : State) : Host.Outcome State Fault Refusal :=
  .next (traced s (doTwinSilenceTimeout s))

/-- POWER_WINDOW (R493). -/
def execPowerWindow (m : WindowMeas) (s : State) : Host.Outcome State Fault Refusal :=
  .next (traced s (doPowerWindow m s))

/-- CURRENT_SAMPLE (R489). -/
def execCurrentSample (rail : Nat) (iDa : Nat) (mv : Nat) (s : State) : Host.Outcome State Fault Refusal :=
  .next (traced s (doCurrentSample rail iDa mv s))

/-- RAIL_SHORT_DETECT (R489). -/
def execRailShortDetect (rail : Nat) (iDa : Nat) (collapsed : Bool) (s : State) : Host.Outcome State Fault Refusal :=
  .next (traced s (doRailShortDetect rail iDa collapsed s))

/-- SENSE_OPEN_DETECT (R490). -/
def execSenseOpenDetect (rail : Nat) (s : State) : Host.Outcome State Fault Refusal :=
  .next (traced s (doSenseOpenDetect rail s))

/-- FEED_STATE_CHANGE (R486). -/
def execFeedStateChange (feed : Nat) (v10 : Int) (s : State) : Host.Outcome State Fault Refusal :=
  .next (traced s (doFeedStateChange feed v10 s))

/-- FEED_SWITCHOVER (R487). -/
def execFeedSwitchover (s : State) : Host.Outcome State Fault Refusal :=
  .next (traced s (doFeedSwitchover s))

/-- FEEDS_LOST (R487). -/
def execFeedsLost (s : State) : Host.Outcome State Fault Refusal :=
  .next (traced s (doFeedsLost s))

/-- THERMAL_THRESHOLD (R496). -/
def execThermalThreshold (g : SensorGroup) (tempC : Nat) (s : State) : Host.Outcome State Fault Refusal :=
  .next (traced s (doThermalThreshold g tempC s))

/-- INLET_TEMPERATURE (R497). -/
def execInletTemperature (inletMc : Nat) (outletMc : Nat) (s : State) : Host.Outcome State Fault Refusal :=
  .next (traced s (doInletTemperature inletMc outletMc s))

/-- FLOW_LOW_DETECT (R497). -/
def execFlowLowDetect (s : State) : Host.Outcome State Fault Refusal :=
  .next (traced s (doFlowLowDetect s))

end Sys2Proof.Machine
end

