-- ==== Sys2Proof/Machine/MeanFmd.lean ====
section
/-! DEFINITION. The meanings of the commands, one for each: management requests. A meaning is the
operation of its command, with the trace records of what it changed (R565). -/

namespace Sys2Proof.Machine

/-- READ_REG (R543). -/
def execReadReg (h : FmdReq) (addr : Word32) (s : State) : Host.Outcome State Fault Refusal :=
  .next (traced s (doReadReg h addr s))

/-- WRITE_REG (R19). -/
def execWriteReg (h : FmdReq) (addr : Word32) (v : Word) (s : State) : Host.Outcome State Fault Refusal :=
  .next (traced s (doWriteReg h addr v s))

/-- READ_BLOCK (R543). -/
def execReadBlock (h : FmdReq) (addr : Word32) (count : Nat) (s : State) : Host.Outcome State Fault Refusal :=
  .next (traced s (doReadBlock h addr count s))

/-- REG_ACCESS_TIMEOUT (R28). -/
def execRegAccessTimeout (h : FmdReq) (acc : RegAccess) (s : State) : Host.Outcome State Fault Refusal :=
  .next (traced s (doRegAccessTimeout h acc s))

/-- COUNTER_SNAPSHOT_TAKE (R546). -/
def execCounterSnapshotTake (h : FmdReq) (s : State) : Host.Outcome State Fault Refusal :=
  .next (traced s (doCounterSnapshotTake h s))

/-- COUNTER_SNAPSHOT_RELEASE (R546). -/
def execCounterSnapshotRelease (h : FmdReq) (s : State) : Host.Outcome State Fault Refusal :=
  .next (traced s (doCounterSnapshotRelease h s))

/-- SNAPSHOT_FREEZE (R546). -/
def execSnapshotFreeze (s : State) : Host.Outcome State Fault Refusal :=
  .next (traced s (doSnapshotFreeze s))

/-- SNAPSHOT_EXPIRY (R546). -/
def execSnapshotExpiry (s : State) : Host.Outcome State Fault Refusal :=
  .next (traced s (doSnapshotExpiry s))

/-- EVENT_RING_READ (R568). -/
def execEventRingRead (h : FmdReq) (ring : Nat) (first : Nat) (count : Nat) (s : State) : Host.Outcome State Fault Refusal :=
  .next (traced s (doEventRingRead h ring first count s))

/-- TRACE_CTRL_START (R563). -/
def execTraceCtrlStart (h : FmdReq) (mode : Nat) (s : State) : Host.Outcome State Fault Refusal :=
  .next (traced s (doTraceCtrlStart h mode s))

/-- TRACE_CTRL_STOP (R563). -/
def execTraceCtrlStop (h : FmdReq) (s : State) : Host.Outcome State Fault Refusal :=
  .next (traced s (doTraceCtrlStop h s))

/-- TRACE_CTRL_STATUS (R563). -/
def execTraceCtrlStatus (h : FmdReq) (s : State) : Host.Outcome State Fault Refusal :=
  .next (traced s (doTraceCtrlStatus h s))

/-- TRACE_CTRL_FILTER (R563). -/
def execTraceCtrlFilter (h : FmdReq) (sources : Word) (jobs : BitVec 16) (s : State) : Host.Outcome State Fault Refusal :=
  .next (traced s (doTraceCtrlFilter h sources jobs s))

/-- TRACE_DRAIN_COMPLETE (R563). -/
def execTraceDrainComplete (s : State) : Host.Outcome State Fault Refusal :=
  .next (traced s (doTraceDrainComplete s))

/-- TRACE_RECORD_WRITE (R562). -/
def execTraceRecordWrite (s : State) : Host.Outcome State Fault Refusal :=
  .next (traced s (doTraceRecordWrite s))

/-- ATTN_ACK (R550). -/
def execAttnAck (h : FmdReq) (mask : BitVec 16) (s : State) : Host.Outcome State Fault Refusal :=
  .next (traced s (doAttnAck h mask s))

/-- QUEUE_PUSH (R291). -/
def execQueuePush (h : FmdReq) (q : Nat) (seq : BitVec 16) (words : List Word) (s : State) : Host.Outcome State Fault Refusal :=
  .next (traced s (doQueuePush h q seq words s))

/-- TOPIARY_LOAD (R279). -/
def execTopiaryLoad (h : FmdReq) (job : Nat) (s : State) : Host.Outcome State Fault Refusal :=
  .next (traced s (doTopiaryLoad h job s))

/-- TOPIARY_COMMIT (R279). -/
def execTopiaryCommit (h : FmdReq) (job : Nat) (tid : Word) (s : State) : Host.Outcome State Fault Refusal :=
  .next (traced s (doTopiaryCommit h job tid s))

/-- TOPIARY_UNLOAD (R283). -/
def execTopiaryUnload (h : FmdReq) (job : Nat) (s : State) : Host.Outcome State Fault Refusal :=
  .next (traced s (doTopiaryUnload h job s))

/-- CHECKPOINT_READ (R545). -/
def execCheckpointRead (h : FmdReq) (job : Nat) (close : Bool) (shard : Nat) (plane : Nat) (epoch : Nat) (offset : Nat) (len : Nat) (s : State) : Host.Outcome State Fault Refusal :=
  .next (traced s (doCheckpointRead h job close shard plane epoch offset len s))

/-- IMAGE_PUSH (R544). -/
def execImagePush (h : FmdReq) (kind : Nat) (job : Nat) (offset : Nat) (bytes : List Byte) (s : State) : Host.Outcome State Fault Refusal :=
  .next (traced s (doImagePush h kind job offset bytes s))

/-- NVM_WRITE (R513). -/
def execNvmWrite (h : FmdReq) (region : Nat) (s : State) : Host.Outcome State Fault Refusal :=
  .next (traced s (doNvmWrite h region s))

/-- RESET_COLLECTIVE (R470). -/
def execResetCollective (h : FmdReq) (job : Nat) (ordinal : Nat) (epoch : Nat) (s : State) : Host.Outcome State Fault Refusal :=
  .next (traced s (doResetCollective h job ordinal epoch s))

/-- ROLLBACK_EPOCH (R471). -/
def execRollbackEpoch (h : FmdReq) (job : Nat) (epoch : Nat) (s : State) : Host.Outcome State Fault Refusal :=
  .next (traced s (doRollbackEpoch h job epoch s))

/-- REMAP_UNIT (R469). -/
def execRemapUnit (h : FmdReq) (die : Nat) (unit : Nat) (logical : Nat) (s : State) : Host.Outcome State Fault Refusal :=
  .next (traced s (doRemapUnit h die unit logical s))

/-- RESYNC_TWIN (R482). -/
def execResyncTwin (h : FmdReq) (s : State) : Host.Outcome State Fault Refusal :=
  .next (traced s (doResyncTwin h s))

/-- REQUEUE (R297). -/
def execRequeue (h : FmdReq) (q : Nat) (epoch : Nat) (s : State) : Host.Outcome State Fault Refusal :=
  .next (traced s (doRequeue h q epoch s))

/-- MASTER_RELEASE (R383). -/
def execMasterRelease (h : FmdReq) (inst : Nat) (req : Nat) (s : State) : Host.Outcome State Fault Refusal :=
  .next (traced s (doMasterRelease h inst req s))

/-- MODULE_RESET (R547). -/
def execModuleReset (h : FmdReq) (confirm : Word32) (s : State) : Host.Outcome State Fault Refusal :=
  .next (traced s (doModuleReset h confirm s))

/-- TIM_SET (R330). -/
def execTimSet (h : FmdReq) (v : Word) (s : State) : Host.Outcome State Fault Refusal :=
  .next (traced s (doTimSet h v s))

/-- DETACH (R484). -/
def execDetach (h : FmdReq) (s : State) : Host.Outcome State Fault Refusal :=
  .next (traced s (doDetach h s))

/-- FORCE_SOLO (R484). -/
def execForceSolo (h : FmdReq) (s : State) : Host.Outcome State Fault Refusal :=
  .next (traced s (doForceSolo h s))

/-- RETRAIN (R362). -/
def execRetrain (h : FmdReq) (lane : Nat) (nakLimit : Nat) (enable : Bool) (s : State) : Host.Outcome State Fault Refusal :=
  .next (traced s (doRetrain h lane nakLimit enable s))

/-- LANE_ENABLE (R362). -/
def execLaneEnable (h : FmdReq) (lane : Nat) (nakLimit : Nat) (enable : Bool) (s : State) : Host.Outcome State Fault Refusal :=
  .next (traced s (doLaneEnable h lane nakLimit enable s))

/-- BURN_CUST (R531). -/
def execBurnCust (h : FmdReq) (s : State) : Host.Outcome State Fault Refusal :=
  .next (traced s (doBurnCust h s))

/-- SVN_ADVANCE (R531). -/
def execSvnAdvance (h : FmdReq) (svn : Nat) (s : State) : Host.Outcome State Fault Refusal :=
  .next (traced s (doSvnAdvance h svn s))

/-- LAG_CLEAR (R158). -/
def execLagClear (h : FmdReq) (die : Nat) (v : Word) (s : State) : Host.Outcome State Fault Refusal :=
  .next (traced s (doLagClear h die v s))

/-- MIRROR_DEST_WRITE (R548). -/
def execMirrorDestWrite (h : FmdReq) (v : Word) (s : State) : Host.Outcome State Fault Refusal :=
  .next (traced s (doMirrorDestWrite h v s))

/-- MIRROR_CFG_WRITE (R386). -/
def execMirrorCfgWrite (h : FmdReq) (port : Nat) (v : Word) (s : State) : Host.Outcome State Fault Refusal :=
  .next (traced s (doMirrorCfgWrite h port v s))

/-- POL_DATA_WRITE (R401). -/
def execPolDataWrite (h : FmdReq) (v : Word) (s : State) : Host.Outcome State Fault Refusal :=
  .next (traced s (doPolDataWrite h v s))

/-- PROFILE_WRITE (R401). -/
def execProfileWrite (h : FmdReq) (n : Nat) (w : Nat) (v : Word) (s : State) : Host.Outcome State Fault Refusal :=
  .next (traced s (doProfileWrite h n w v s))

/-- WEIGHT_WRITE (R397). -/
def execWeightWrite (h : FmdReq) (reg : WeightReg) (v : Word) (s : State) : Host.Outcome State Fault Refusal :=
  .next (traced s (doWeightWrite h reg v s))

/-- AGE_LIMIT_WRITE (R357). -/
def execAgeLimitWrite (h : FmdReq) (k : Nat) (v : Word) (s : State) : Host.Outcome State Fault Refusal :=
  .next (traced s (doAgeLimitWrite h k v s))

/-- CAP_WRITE (R502). -/
def execCapWrite (h : FmdReq) (v : Word) (s : State) : Host.Outcome State Fault Refusal :=
  .next (traced s (doCapWrite h v s))

/-- RAIL_LIMIT_WRITE (R503). -/
def execRailLimitWrite (h : FmdReq) (rail : Nat) (v : Word) (s : State) : Host.Outcome State Fault Refusal :=
  .next (traced s (doRailLimitWrite h rail v s))

/-- LAG_SEL_WRITE (R559). -/
def execLagSelWrite (h : FmdReq) (v : Word) (s : State) : Host.Outcome State Fault Refusal :=
  .next (traced s (doLagSelWrite h v s))

/-- FMD_NOP (R541). -/
def execFmdNop (h : FmdReq) (s : State) : Host.Outcome State Fault Refusal :=
  .next (traced s (doFmdNop h s))

/-- RESERVED_OPCODE (R539). -/
def execReservedOpcode (h : FmdReq) (opcode : Nat) (bytes : List Byte) (s : State) : Host.Outcome State Fault Refusal :=
  .next (traced s (doReservedOpcode h opcode bytes s))

end Sys2Proof.Machine
end

