-- ==== Sys2Proof/Machine/Scalar.lean ====
section
/-! DEFINITION. Scalar, branch, comparator and handle instructions (R244 to R248, R252), SLD and SST
(R246), the exception flags and digests (R272, R273), and SEG_RUN (R286). -/

namespace Sys2Proof.Machine

/-- A scalar instruction that writes s[SD] (R245). -/
def scalarOp (op : Nat) (f : Word → Queue → Word32) (q : Nat) (s : State) : State :=
  issue op q s (fun w Q s => .done (setQueue s q (fun Q' => writeS Q' (wR3 w) (f w Q))))

/-- A scalar FP32 operation (R246): one rounding, flags to every group of the gang. -/
def scalarFp (op : Nat) (f : Nat → Nat → Nat × FpFlags) (q : Nat) (s : State) : State :=
  issue op q s (fun w Q s =>
    let r := f (sreg Q (wR2 w)).toNat (operand2 Q w).toNat
    .done (flagGang (setQueue s q (fun Q' => writeS Q' (wR3 w) (BitVec.ofNat 32 r.1))) Q r.2))

/-- The tensor of SLD and SST: dense, with FP32, INT32 or UINT32 elements (R246). -/
def scalarTensor (s : State) (Q : Queue) (r : Nat) : Except Res Tensor :=
  match topOf s Q.job with
  | none => .error .format
  | some t =>
    match resolve t (Q.h.getD r {}) with
    | .error e => .error e
    | .ok x =>
      if !x.sparse && (x.fmt == .fp32 || x.fmt == .int32 || x.fmt == .uint32) then .ok x
      else .error .format

/-- The checks and pre-check of SLD and SST, then `f` with the element's coordinates. -/
def scalarMem (op : Nat) (write : Bool) (q : Nat) (s : State)
    (f : Word → Queue → Tensor → List Nat → State → State) : State :=
  issue op q s (fun w Q s =>
    match scalarTensor s Q (wR2 w) with
    | .error r => .refuse r
    | .ok x =>
      let i := (wImm w).toNat
      if !baseAligned x then .refuse (if elemCount x ≤ i then .range else .align)
      else if elemCount x ≤ i then .refuse .range
      else
        let coords := coordsOf x.sizes i
        let accs := [elemAcc x coords write]
        match preCheck s Q.job Q.die .group accs with
        | .fault k va wr => .stay (translationFault s q k .group va wr)
        | .tier ps => .stay (tierFault s q ps)
        | .ok =>
          .done (f w Q x coords
            ((gangGroups Q).foldl (fun s g => tlbTouch s Q.die g 32 Q.job (accPages s Q.job accs)) s)))

/-- The branch of R247 to a word offset from this word. -/
def branchTo (s : State) (q : Nat) (off : Int) : Issue :=
  let Q := queueAt s q
  let tgt := (Q.pc : Int) + off
  if tgt < 0 ∨ (segWords s Q.job Q.seg).length ≤ tgt.toNat then .refuse .range
  else .stay (setQueue s q (fun Q => { Q with pc := tgt.toNat }))

/-- NOP (R240). A word whose opcode no command of its own decodes is refused here by R240. -/
def doNop (q : Nat) (s : State) : State := issue 0x00 q s (fun _ _ s => .done s)

/-- END (R247, R286, R292): a segment's END frees the slot of its SEG_RUN word. -/
def doEnd (q : Nat) (s : State) : State :=
  issue 0x01 q s (fun _ _ s =>
    .done (setQueue s q (fun Q => { Q with inSeg := false, pc := 0 })))

/-- BR (R247). -/
def doBr (q : Nat) (s : State) : State := issue 0x02 q s (fun w _ s => branchTo s q (wOff w))

/-- DBNZ (R247): the counter wraps, and a result that is not 0 jumps. A target outside the program
fails the word at issue with nothing done (R241, R242). -/
def doDbnz (q : Nat) (s : State) : State :=
  issue 0x03 q s (fun w Q s =>
    let v := Q.c.getD (wCnt w) 0 - 1
    let s' := setQueue s q (fun Q => writeC Q (wCnt w) v)
    if v = 0 then .done s' else branchTo s' q (wOff w))

/-- CMPARM (R248). -/
def armComparator (w : Word) (Q : Queue) : Queue :=
  let k : Comparator :=
    { armed := true, scalar := field w 48 48 == 1
      src := if field w 48 48 = 1 then field w 47 44 else field w 46 44
      cond := field w 43 41, pred := field w 40 38, bound := wImm w }
  let ks := Q.k.map (fun c => if c.armed && c.pred == k.pred then { c with armed := false } else c)
  driveComparators { Q with k := ks.set (field w 50 49) k }

/-- CMPARM (R248). -/
def doCmparm (q : Nat) (s : State) : State :=
  issue 0x04 q s (fun w _ s => .done (setQueue s q (armComparator w)))

/-- CMPOFF (R248). -/
def doCmpoff (q : Nat) (s : State) : State :=
  issue 0x05 q s (fun w _ s => .done (setQueue s q (fun Q =>
    { Q with k := Q.k.modify (field w 50 49) (fun c => { c with armed := false }) })))

/-- PSET (R245, R248): a comparator that drives the predicate is disarmed first. -/
def writePred (i : Nat) (b : Bool) (Q : Queue) : Queue :=
  { Q with k := Q.k.map (fun c => if c.armed && c.pred == i then { c with armed := false } else c)
           p := Q.p.set i b }

/-- PSET (R245). -/
def doPset (q : Nat) (s : State) : State :=
  issue 0x06 q s (fun w _ s =>
    .done (setQueue s q (writePred (field w 49 47) (field w 0 0 == 1))))

/-- SMOV (R245). -/
def doSmov (q : Nat) (s : State) : State := scalarOp 0x08 (fun w Q => operand2 Q w) q s
/-- SADD (R245). -/
def doSadd (q : Nat) (s : State) : State :=
  scalarOp 0x09 (fun w Q => sreg Q (wR2 w) + operand2 Q w) q s
/-- SSUB (R245). -/
def doSsub (q : Nat) (s : State) : State :=
  scalarOp 0x0A (fun w Q => sreg Q (wR2 w) - operand2 Q w) q s
/-- SMUL (R245). -/
def doSmul (q : Nat) (s : State) : State :=
  scalarOp 0x0B (fun w Q => sreg Q (wR2 w) * operand2 Q w) q s
/-- SAND (R245). -/
def doSand (q : Nat) (s : State) : State :=
  scalarOp 0x0C (fun w Q => sreg Q (wR2 w) &&& operand2 Q w) q s
/-- SOR (R245). -/
def doSor (q : Nat) (s : State) : State :=
  scalarOp 0x0D (fun w Q => sreg Q (wR2 w) ||| operand2 Q w) q s
/-- SXOR (R245). -/
def doSxor (q : Nat) (s : State) : State :=
  scalarOp 0x0E (fun w Q => sreg Q (wR2 w) ^^^ operand2 Q w) q s
/-- SSHL (R245). -/
def doSshl (q : Nat) (s : State) : State :=
  scalarOp 0x0F (fun w Q => sreg Q (wR2 w) <<< ((operand2 Q w).toNat % 32)) q s
/-- SSHR (R245). -/
def doSshr (q : Nat) (s : State) : State :=
  scalarOp 0x10 (fun w Q => sreg Q (wR2 w) >>> ((operand2 Q w).toNat % 32)) q s
/-- SSRA (R245). -/
def doSsra (q : Nat) (s : State) : State :=
  scalarOp 0x11 (fun w Q => (sreg Q (wR2 w)).sshiftRight ((operand2 Q w).toNat % 32)) q s

/-- CSET (R245). -/
def doCset (q : Nat) (s : State) : State :=
  issue 0x12 q s (fun w Q s =>
    .done (setQueue s q (fun Q' => writeC Q' (field w 49 47) (operand2 Q w))))

/-- CGET (R245). -/
def doCget (q : Nat) (s : State) : State :=
  scalarOp 0x13 (fun w Q => Q.c.getD (field w 45 43) 0) q s

/-- SFADD (R246). -/
def doSfadd (q : Nat) (s : State) : State := scalarFp 0x14 fadd q s
/-- SFSUB (R246). -/
def doSfsub (q : Nat) (s : State) : State := scalarFp 0x15 fsub q s
/-- SFMUL (R246). -/
def doSfmul (q : Nat) (s : State) : State := scalarFp 0x16 fmul q s
/-- SFDIV (R246, R88). -/
def doSfdiv (q : Nat) (s : State) : State := scalarFp 0x17 fdiv q s
/-- SFSQRT of s[SA] (R246, R88). -/
def doSfsqrt (q : Nat) (s : State) : State := scalarFp 0x18 (fun a _ => fsqrt a) q s

/-- SLD (R246). -/
def doSld (q : Nat) (s : State) : State :=
  scalarMem 0x1A false q s (fun w Q x coords s =>
    let v := BitVec.ofNat 32 (readElem s Q.job x coords)
    setQueue s q (fun Q' => writeS Q' (wR3 w) v))

/-- SST (R246). -/
def doSst (q : Nat) (s : State) : State :=
  scalarMem 0x1B true q s (fun w Q x coords s =>
    commitWrites s q Q.job [elemWrite x coords (sreg Q (wR1 w)).toNat])

/-- The OR of the FPFLAGS that FLAGS_RD reads (R272). -/
def flagsOr (s : State) (Q : Queue) : FpFlags :=
  match Q.qtype with
  | .mtx => (lookupD s.comp.fpMtx Q.die {}).flags
  | _ => (gangGroups Q).foldl (fun f g => f ||| (lookupD s.comp.fpVec (128 * Q.die + g) {}).flags) 0

/-- FLAGS_RD (R272). -/
def doFlagsRd (q : Nat) (s : State) : State :=
  issue 0x1C q s (fun w Q s =>
    .done (setQueue s q (fun Q' => writeS Q' (wR3 w) ((flagsOr s Q).setWidth 32))))

/-- Clear flags of an FPFLAGS register by ones (R19, R95). -/
def FpReg.w1c (r : FpReg) (m : FpFlags) : FpReg := { r with flags := r.flags &&& ~~~ m }

/-- W1C on a register of a list; an unlisted register stands at its reset value. -/
def fpClear (rs : List (Nat × FpReg)) (i : Nat) (m : FpFlags) : List (Nat × FpReg) :=
  rs.map (fun p => if p.1 = i then (i, p.2.w1c m) else p)

/-- FLAGS_CLR (R272). -/
def doFlagsClr (q : Nat) (s : State) : State :=
  issue 0x1D q s (fun w Q s =>
    let m : FpFlags := BitVec.ofNat 8 (field w 7 0)
    match Q.qtype with
    | .mtx => .done { s with comp := { s.comp with fpMtx := fpClear s.comp.fpMtx Q.die m } }
    | _ => .done { s with comp := { s.comp with
        fpVec := (gangGroups Q).foldl (fun rs g => fpClear rs (128 * Q.die + g) m) s.comp.fpVec } })

/-- DIGEST_RD (R273): low half to s[SD], high half to s[(SD + 1) mod 16]; the slot restarts. -/
def doDigestRd (q : Nat) (s : State) : State :=
  issue 0x1E q s (fun w Q s =>
    let k := field w 3 0
    let d := Q.digests.getD k 0
    .done (setQueue s q (fun Q' =>
      writeS (writeS { Q' with digests := Q'.digests.set k 0 } (wR3 w) (BitVec.ofNat 32 d))
        ((wR3 w + 1) % 16) (BitVec.ofNat 32 (d >>> 32)))))

/-- HSET (R252). -/
def doHset (q : Nat) (s : State) : State :=
  issue 0x20 q s (fun w _ s => .done (setQueue s q (fun Q =>
    { Q with h := Q.h.set (wR3 w) ⟨(wImm w).setWidth 12, 0⟩ })))

/-- HOFF (R252). -/
def doHoff (q : Nat) (s : State) : State :=
  issue 0x21 q s (fun w _ s => .done (setQueue s q (fun Q =>
    { Q with h := Q.h.modify (wR3 w) (fun h => { h with offset := wImm w }) })))

/-- HADD (R252). -/
def doHadd (q : Nat) (s : State) : State :=
  issue 0x22 q s (fun w Q s => .done (setQueue s q (fun Q' =>
    { Q' with h := Q'.h.modify (wR3 w) (fun h => { h with offset := h.offset + sreg Q (wR2 w) }) })))

/-- SEG_RUN (R286): the segment runs from its word 0; the ring word keeps its slot until END. -/
def doSegRun (q : Nat) (s : State) : State :=
  issue 0xE0 q s (fun w _ s => .stay (setQueue s q (fun Q =>
    { Q with inSeg := true, seg := field w 11 0, pc := 0 })))

end Sys2Proof.Machine
end

