-- ==== Sys2Proof/Machine/MeanScalar.lean ====
section
/-! DEFINITION. The meanings of the commands, one for each: scalar and queue-control words. A meaning is the
operation of its command, with the trace records of what it changed (R565). -/

namespace Sys2Proof.Machine

/-- NOP (R240). -/
def execNop (q : Nat) (s : State) : Host.Outcome State Fault Refusal :=
  .next (traced s (doNop q s))

/-- END (R247). -/
def execEndProg (q : Nat) (s : State) : Host.Outcome State Fault Refusal :=
  .next (traced s (doEnd q s))

/-- BR (R247). -/
def execBr (q : Nat) (s : State) : Host.Outcome State Fault Refusal :=
  .next (traced s (doBr q s))

/-- DBNZ (R247). -/
def execDbnz (q : Nat) (s : State) : Host.Outcome State Fault Refusal :=
  .next (traced s (doDbnz q s))

/-- CMPARM (R248). -/
def execCmparm (q : Nat) (s : State) : Host.Outcome State Fault Refusal :=
  .next (traced s (doCmparm q s))

/-- CMPOFF (R248). -/
def execCmpoff (q : Nat) (s : State) : Host.Outcome State Fault Refusal :=
  .next (traced s (doCmpoff q s))

/-- PSET (R245). -/
def execPset (q : Nat) (s : State) : Host.Outcome State Fault Refusal :=
  .next (traced s (doPset q s))

/-- SMOV (R245). -/
def execSmov (q : Nat) (s : State) : Host.Outcome State Fault Refusal :=
  .next (traced s (doSmov q s))

/-- SADD (R245). -/
def execSadd (q : Nat) (s : State) : Host.Outcome State Fault Refusal :=
  .next (traced s (doSadd q s))

/-- SSUB (R245). -/
def execSsub (q : Nat) (s : State) : Host.Outcome State Fault Refusal :=
  .next (traced s (doSsub q s))

/-- SMUL (R245). -/
def execSmul (q : Nat) (s : State) : Host.Outcome State Fault Refusal :=
  .next (traced s (doSmul q s))

/-- SAND (R245). -/
def execSand (q : Nat) (s : State) : Host.Outcome State Fault Refusal :=
  .next (traced s (doSand q s))

/-- SOR (R245). -/
def execSor (q : Nat) (s : State) : Host.Outcome State Fault Refusal :=
  .next (traced s (doSor q s))

/-- SXOR (R245). -/
def execSxor (q : Nat) (s : State) : Host.Outcome State Fault Refusal :=
  .next (traced s (doSxor q s))

/-- SSHL (R245). -/
def execSshl (q : Nat) (s : State) : Host.Outcome State Fault Refusal :=
  .next (traced s (doSshl q s))

/-- SSHR (R245). -/
def execSshr (q : Nat) (s : State) : Host.Outcome State Fault Refusal :=
  .next (traced s (doSshr q s))

/-- SSRA (R245). -/
def execSsra (q : Nat) (s : State) : Host.Outcome State Fault Refusal :=
  .next (traced s (doSsra q s))

/-- CSET (R245). -/
def execCset (q : Nat) (s : State) : Host.Outcome State Fault Refusal :=
  .next (traced s (doCset q s))

/-- CGET (R245). -/
def execCget (q : Nat) (s : State) : Host.Outcome State Fault Refusal :=
  .next (traced s (doCget q s))

/-- SFADD (R246). -/
def execSfadd (q : Nat) (s : State) : Host.Outcome State Fault Refusal :=
  .next (traced s (doSfadd q s))

/-- SFSUB (R246). -/
def execSfsub (q : Nat) (s : State) : Host.Outcome State Fault Refusal :=
  .next (traced s (doSfsub q s))

/-- SFMUL (R246). -/
def execSfmul (q : Nat) (s : State) : Host.Outcome State Fault Refusal :=
  .next (traced s (doSfmul q s))

/-- SFDIV (R246). -/
def execSfdiv (q : Nat) (s : State) : Host.Outcome State Fault Refusal :=
  .next (traced s (doSfdiv q s))

/-- SFSQRT (R246). -/
def execSfsqrt (q : Nat) (s : State) : Host.Outcome State Fault Refusal :=
  .next (traced s (doSfsqrt q s))

/-- SLD (R246). -/
def execSld (q : Nat) (s : State) : Host.Outcome State Fault Refusal :=
  .next (traced s (doSld q s))

/-- SST (R246). -/
def execSst (q : Nat) (s : State) : Host.Outcome State Fault Refusal :=
  .next (traced s (doSst q s))

/-- FLAGS_RD (R272). -/
def execFlagsRd (q : Nat) (s : State) : Host.Outcome State Fault Refusal :=
  .next (traced s (doFlagsRd q s))

/-- FLAGS_CLR (R272). -/
def execFlagsClr (q : Nat) (s : State) : Host.Outcome State Fault Refusal :=
  .next (traced s (doFlagsClr q s))

/-- DIGEST_RD (R273). -/
def execDigestRd (q : Nat) (s : State) : Host.Outcome State Fault Refusal :=
  .next (traced s (doDigestRd q s))

/-- HSET (R252). -/
def execHset (q : Nat) (s : State) : Host.Outcome State Fault Refusal :=
  .next (traced s (doHset q s))

/-- HOFF (R252). -/
def execHoff (q : Nat) (s : State) : Host.Outcome State Fault Refusal :=
  .next (traced s (doHoff q s))

/-- HADD (R252). -/
def execHadd (q : Nat) (s : State) : Host.Outcome State Fault Refusal :=
  .next (traced s (doHadd q s))

end Sys2Proof.Machine
end

