-- ==== Sys2Proof/Machine/MeanSync.lean ====
section
/-! DEFINITION. The meanings of the commands, one for each: synchronisation, collectives, copies and the events of the compute dies. A meaning is the
operation of its command, with the trace records of what it changed (R565). -/

namespace Sys2Proof.Machine

/-- FLAG_SET (R268). -/
def execFlagSet (q : Nat) (s : State) : Host.Outcome State Fault Refusal :=
  .next (traced s (doFlagSet q s))

/-- FLAG_SET_EFFECT (R268). -/
def execFlagSetEffect (q : Nat) (s : State) : Host.Outcome State Fault Refusal :=
  .next (traced s (doFlagSetEffect q s))

/-- FLAG_CLEAR (R268). -/
def execFlagClear (q : Nat) (s : State) : Host.Outcome State Fault Refusal :=
  .next (traced s (doFlagClear q s))

/-- FLAG_WAIT (R269). -/
def execFlagWait (q : Nat) (s : State) : Host.Outcome State Fault Refusal :=
  .next (traced s (doFlagWait q s))

/-- FLAG_WAIT_SATISFIED (R269). -/
def execFlagWaitSatisfied (q : Nat) (s : State) : Host.Outcome State Fault Refusal :=
  .next (traced s (doFlagWaitSatisfied q s))

/-- FLAG_WAIT_DEADLINE (R269). -/
def execFlagWaitDeadline (q : Nat) (s : State) : Host.Outcome State Fault Refusal :=
  .next (traced s (doFlagWaitDeadline q s))

/-- FENCE (R270). -/
def execFence (q : Nat) (s : State) : Host.Outcome State Fault Refusal :=
  .next (traced s (doFence q s))

/-- FENCE_COMPLETE (R270). -/
def execFenceComplete (q : Nat) (s : State) : Host.Outcome State Fault Refusal :=
  .next (traced s (doFenceComplete q s))

/-- CALL_COLL (R267). -/
def execCallColl (q : Nat) (s : State) : Host.Outcome State Fault Refusal :=
  .next (traced s (doCallColl q s))

/-- DMA_COPY (R266). -/
def execDmaCopy (q : Nat) (s : State) : Host.Outcome State Fault Refusal :=
  .next (traced s (doDmaCopy q s))

/-- SEG_RUN (R286). -/
def execSegRun (q : Nat) (s : State) : Host.Outcome State Fault Refusal :=
  .next (traced s (doSegRun q s))

/-- DMA_RUN_AHEAD (R420). -/
def execDmaRunAhead (q : Nat) (s : State) : Host.Outcome State Fault Refusal :=
  .next (traced s (doDmaRunAhead q s))

/-- DMA_BLOCK (R419). -/
def execDmaBlock (die : Nat) (ch : Nat) (u : Upset) (ptr : Option Nat) (s : State) : Host.Outcome State Fault Refusal :=
  .next (traced s (doDmaBlock die ch u ptr s))

/-- HAWTHORN_BATCH (R236). -/
def execHawthornBatch (w : BatchWork) (u : Upset) (s : State) : Host.Outcome State Fault Refusal :=
  .next (traced s (doHawthornBatch w u s))

/-- LAUREL_BLOCK_PASS (R220). -/
def execLaurelBlockPass (die : Nat) (u : Upset) (s : State) : Host.Outcome State Fault Refusal :=
  .next (traced s (doLaurelBlockPass die u s))

/-- TIER_FRAME_RESERVE (R417). -/
def execTierFrameReserve (q : Nat) (s : State) : Host.Outcome State Fault Refusal :=
  .next (traced s (doTierFrameReserve q s))

/-- TIER_WRITE_BACK_DONE (R416). -/
def execTierWriteBackDone (die : Nat) (job : Nat) (idx : Nat) (s : State) : Host.Outcome State Fault Refusal :=
  .next (traced s (doTierWriteBackDone die job idx s))

/-- TIER_MOVE_IN_DONE (R416). -/
def execTierMoveInDone (die : Nat) (job : Nat) (idx : Nat) (s : State) : Host.Outcome State Fault Refusal :=
  .next (traced s (doTierMoveInDone die job idx s))

/-- PREEMPT_STOP (R425). -/
def execPreemptStop (q : Nat) (s : State) : Host.Outcome State Fault Refusal :=
  .next (traced s (doPreemptStop q s))

/-- PRIVET_CHUNK (R211). -/
def execPrivetChunk (job : Nat) (epoch : Nat) (ordinal : Nat) (chunk : Nat) (u : Upset) (ptr : Option Nat) (s : State) : Host.Outcome State Fault Refusal :=
  .next (traced s (doPrivetChunk job epoch ordinal chunk u ptr s))

/-- DUPLICATE_EXECUTION (R436). -/
def execDuplicateExecution (idx : Nat) (v : DupVerdict) (s : State) : Host.Outcome State Fault Refusal :=
  .next (traced s (doDuplicateExecution idx v s))

/-- SELF_TEST (R455). -/
def execSelfTest (unit : Nat) (die : Nat) (logical : Nat) (pass : Bool) (s : State) : Host.Outcome State Fault Refusal :=
  .next (traced s (doSelfTest unit die logical pass s))

/-- REMAP_APPLY (R229). -/
def execRemapApply (unit : Nat) (die : Nat) (logical : Nat) (s : State) : Host.Outcome State Fault Refusal :=
  .next (traced s (doRemapApply unit die logical s))

end Sys2Proof.Machine
end

