-- ==== Sys2Proof/Machine/MeanUnits.lean ====
section
/-! DEFINITION. The meanings of the commands, one for each: units received, the links and mirroring. A meaning is the
operation of its command, with the trace records of what it changed (R565). -/

namespace Sys2Proof.Machine

/-- DATA (R345). -/
def execDataFrame (lane : Nat) (u : LinkUnit) (s : State) : Host.Outcome State Fault Refusal :=
  .next (traced s (receiveAs 0 lane u s))

/-- EXPRESS (R146). -/
def execExpressCell (lane : Nat) (u : LinkUnit) (s : State) : Host.Outcome State Fault Refusal :=
  .next (traced s (receiveAs 1 lane u s))

/-- DIGEST (R442). -/
def execDigestFrame (lane : Nat) (u : LinkUnit) (s : State) : Host.Outcome State Fault Refusal :=
  .next (traced s (receiveAs 2 lane u s))

/-- ACK (R441). -/
def execAckFrame (lane : Nat) (u : LinkUnit) (s : State) : Host.Outcome State Fault Refusal :=
  .next (traced s (receiveAs 3 lane u s))

/-- NAK_CHUNK (R444). -/
def execNakChunk (lane : Nat) (u : LinkUnit) (s : State) : Host.Outcome State Fault Refusal :=
  .next (traced s (receiveAs 4 lane u s))

/-- RETRACT (R443). -/
def execRetractFrame (lane : Nat) (u : LinkUnit) (s : State) : Host.Outcome State Fault Refusal :=
  .next (traced s (receiveAs 5 lane u s))

/-- ABORT (R463). -/
def execAbortCell (lane : Nat) (u : LinkUnit) (s : State) : Host.Outcome State Fault Refusal :=
  .next (traced s (receiveAs 6 lane u s))

/-- COUNTS (R133). -/
def execCountsFrame (lane : Nat) (u : LinkUnit) (s : State) : Host.Outcome State Fault Refusal :=
  .next (traced s (receiveAs 7 lane u s))

/-- CREDIT (R352). -/
def execCreditCell (lane : Nat) (u : LinkUnit) (s : State) : Host.Outcome State Fault Refusal :=
  .next (traced s (receiveAs 8 lane u s))

/-- LINK_NAK (R351). -/
def execLinkNak (lane : Nat) (u : LinkUnit) (s : State) : Host.Outcome State Fault Refusal :=
  .next (traced s (receiveAs 9 lane u s))

/-- TIME (R304). -/
def execTimeFrame (lane : Nat) (u : LinkUnit) (s : State) : Host.Outcome State Fault Refusal :=
  .next (traced s (receiveAs 10 lane u s))

/-- VOTE (R450). -/
def execVoteFrame (lane : Nat) (u : LinkUnit) (s : State) : Host.Outcome State Fault Refusal :=
  .next (traced s (receiveAs 11 lane u s))

/-- STRETCH (R320). -/
def execStretchCell (lane : Nat) (u : LinkUnit) (s : State) : Host.Outcome State Fault Refusal :=
  .next (traced s (receiveAs 13 lane u s))

/-- TWIN_GRAD (R477). -/
def execTwinGrad (lane : Nat) (u : LinkUnit) (s : State) : Host.Outcome State Fault Refusal :=
  .next (traced s (receiveTwin 0 lane u s))

/-- TWIN_FLIP (R477). -/
def execTwinFlip (lane : Nat) (u : LinkUnit) (s : State) : Host.Outcome State Fault Refusal :=
  .next (traced s (receiveTwin 1 lane u s))

/-- TWIN_VOTE (R451). -/
def execTwinVote (lane : Nat) (u : LinkUnit) (s : State) : Host.Outcome State Fault Refusal :=
  .next (traced s (receiveTwin 2 lane u s))

/-- TWIN_HELLO (R478). -/
def execTwinHello (lane : Nat) (u : LinkUnit) (s : State) : Host.Outcome State Fault Refusal :=
  .next (traced s (receiveTwin 3 lane u s))

/-- TWIN_LEAVE (R479). -/
def execTwinLeave (lane : Nat) (u : LinkUnit) (s : State) : Host.Outcome State Fault Refusal :=
  .next (traced s (receiveTwin 4 lane u s))

/-- TWIN_SYNC (R482). -/
def execTwinSync (lane : Nat) (u : LinkUnit) (s : State) : Host.Outcome State Fault Refusal :=
  .next (traced s (receiveTwin 5 lane u s))

/-- TWIN_IMAGE_REQUEST (R518). -/
def execTwinImageRequest (lane : Nat) (u : LinkUnit) (s : State) : Host.Outcome State Fault Refusal :=
  .next (traced s (receiveImage true lane u s))

/-- TWIN_IMAGE_DATA (R518). -/
def execTwinImageData (lane : Nat) (u : LinkUnit) (s : State) : Host.Outcome State Fault Refusal :=
  .next (traced s (receiveImage false lane u s))

/-- UNIT_SELECT (R393). -/
def execUnitSelect (lane : Nat) (s : State) : Host.Outcome State Fault Refusal :=
  .next (traced s (doUnitSelect lane s))

/-- UNIT_TX_DONE (R368). -/
def execUnitTxDone (lane : Nat) (ptr : Option Nat) (s : State) : Host.Outcome State Fault Refusal :=
  .next (traced s (doUnitTxDone lane ptr s))

/-- LINK_RETRY_TIMEOUT (R351). -/
def execLinkRetryTimeout (lane : Nat) (s : State) : Host.Outcome State Fault Refusal :=
  .next (traced s (doLinkRetryTimeout lane s))

/-- LINK_NAK_REPEAT (R350). -/
def execLinkNakRepeat (lane : Nat) (s : State) : Host.Outcome State Fault Refusal :=
  .next (traced s (doLinkNakRepeat lane s))

/-- CREDIT_SEND (R350). -/
def execCreditSend (lane : Nat) (s : State) : Host.Outcome State Fault Refusal :=
  .next (traced s (doCreditSend lane s))

/-- LANE_SIGNAL_DETECT (R359). -/
def execLaneSignalDetect (lane : Nat) (s : State) : Host.Outcome State Fault Refusal :=
  .next (traced s (doLaneSignalDetect lane s))

/-- FEC_ALIGNMENT_LOCK (R359). -/
def execFecAlignmentLock (lane : Nat) (s : State) : Host.Outcome State Fault Refusal :=
  .next (traced s (doFecAlignmentLock lane s))

/-- PEER_IDENTITY_CHECK (R359). -/
def execPeerIdentityCheck (port : Nat) (words : List Nat) (pol : Bool) (s : State) : Host.Outcome State Fault Refusal :=
  .next (traced s (doPeerIdentityCheck port words pol s))

/-- LANE_DOWN (R359). -/
def execLaneDown (lane : Nat) (loss : LaneLoss) (s : State) : Host.Outcome State Fault Refusal :=
  .next (traced s (doLaneDown lane loss s))

/-- EARLY_ARRIVAL_ADMIT (R153). -/
def execEarlyArrivalAdmit (port : Nat) (s : State) : Host.Outcome State Fault Refusal :=
  .next (traced s (doEarlyArrivalAdmit port s))

/-- ALLOC_WAIT_GRANT (R375). -/
def execAllocWaitGrant (inst : Nat) (s : State) : Host.Outcome State Fault Refusal :=
  .next (traced s (doAllocWaitGrant inst s))

/-- MIRROR_DATA (R548). -/
def execMirrorData (s : State) : Host.Outcome State Fault Refusal :=
  .next (traced s (doMirrorData s))

/-- MIRROR_RING_WRITE (R388). -/
def execMirrorRingWrite (s : State) : Host.Outcome State Fault Refusal :=
  .next (traced s (doMirrorRingWrite s))

/-- DELIMITATION_LOST (R345). -/
def execDelimitationLost (lane : Nat) (s : State) : Host.Outcome State Fault Refusal :=
  .next (traced s (doDelimitationLost lane s))

/-- MIRROR (R345). -/
def execMirrorUnit (lane : Nat) (u : LinkUnit) (s : State) : Host.Outcome State Fault Refusal :=
  .next (traced s (receiveAs 14 lane u s))

end Sys2Proof.Machine
end

