-- ==== Sys2Proof/Machine/MeanVector.lean ====
section
/-! DEFINITION. The meanings of the commands, one for each: vector, matrix and chain words. A meaning is the
operation of its command, with the trace records of what it changed (R565). -/

namespace Sys2Proof.Machine

/-- VCOPY (R254). -/
def execVcopy (q : Nat) (s : State) : Host.Outcome State Fault Refusal :=
  .next (traced s (vecIssue 0x40 q s))

/-- VCVT (R257). -/
def execVcvt (q : Nat) (s : State) : Host.Outcome State Fault Refusal :=
  .next (traced s (vecIssue 0x41 q s))

/-- VFILL (R254). -/
def execVfill (q : Nat) (s : State) : Host.Outcome State Fault Refusal :=
  .next (traced s (vecIssue 0x42 q s))

/-- VADD (R254). -/
def execVadd (q : Nat) (s : State) : Host.Outcome State Fault Refusal :=
  .next (traced s (vecIssue 0x43 q s))

/-- VSUB (R254). -/
def execVsub (q : Nat) (s : State) : Host.Outcome State Fault Refusal :=
  .next (traced s (vecIssue 0x44 q s))

/-- VMUL (R254). -/
def execVmul (q : Nat) (s : State) : Host.Outcome State Fault Refusal :=
  .next (traced s (vecIssue 0x45 q s))

/-- VMULADD (R254). -/
def execVmuladd (q : Nat) (s : State) : Host.Outcome State Fault Refusal :=
  .next (traced s (vecIssue 0x46 q s))

/-- VDIV (R254). -/
def execVdiv (q : Nat) (s : State) : Host.Outcome State Fault Refusal :=
  .next (traced s (vecIssue 0x47 q s))

/-- VSQRT (R254). -/
def execVsqrt (q : Nat) (s : State) : Host.Outcome State Fault Refusal :=
  .next (traced s (vecIssue 0x48 q s))

/-- VEXP (R90). -/
def execVexp (q : Nat) (s : State) : Host.Outcome State Fault Refusal :=
  .next (traced s (vecIssue 0x49 q s))

/-- VLOG (R91). -/
def execVlog (q : Nat) (s : State) : Host.Outcome State Fault Refusal :=
  .next (traced s (vecIssue 0x4A q s))

/-- VRSQRT (R92). -/
def execVrsqrt (q : Nat) (s : State) : Host.Outcome State Fault Refusal :=
  .next (traced s (vecIssue 0x4B q s))

/-- VMAX (R86). -/
def execVmax (q : Nat) (s : State) : Host.Outcome State Fault Refusal :=
  .next (traced s (vecIssue 0x4C q s))

/-- VMIN (R86). -/
def execVmin (q : Nat) (s : State) : Host.Outcome State Fault Refusal :=
  .next (traced s (vecIssue 0x4D q s))

/-- VABS (R254). -/
def execVabs (q : Nat) (s : State) : Host.Outcome State Fault Refusal :=
  .next (traced s (vecIssue 0x4E q s))

/-- VNEG (R254). -/
def execVneg (q : Nat) (s : State) : Host.Outcome State Fault Refusal :=
  .next (traced s (vecIssue 0x4F q s))

/-- VSIGN (R254). -/
def execVsign (q : Nat) (s : State) : Host.Outcome State Fault Refusal :=
  .next (traced s (vecIssue 0x50 q s))

/-- VAND (R254). -/
def execVand (q : Nat) (s : State) : Host.Outcome State Fault Refusal :=
  .next (traced s (vecIssue 0x51 q s))

/-- VOR (R254). -/
def execVor (q : Nat) (s : State) : Host.Outcome State Fault Refusal :=
  .next (traced s (vecIssue 0x52 q s))

/-- VXOR (R254). -/
def execVxor (q : Nat) (s : State) : Host.Outcome State Fault Refusal :=
  .next (traced s (vecIssue 0x53 q s))

/-- VSHL (R254). -/
def execVshl (q : Nat) (s : State) : Host.Outcome State Fault Refusal :=
  .next (traced s (vecIssue 0x54 q s))

/-- VSHR (R254). -/
def execVshr (q : Nat) (s : State) : Host.Outcome State Fault Refusal :=
  .next (traced s (vecIssue 0x55 q s))

/-- VCMP (R254). -/
def execVcmp (q : Nat) (s : State) : Host.Outcome State Fault Refusal :=
  .next (traced s (vecIssue 0x56 q s))

/-- VSEL (R254). -/
def execVsel (q : Nat) (s : State) : Host.Outcome State Fault Refusal :=
  .next (traced s (vecIssue 0x57 q s))

/-- VDOT (R254). -/
def execVdot (q : Nat) (s : State) : Host.Outcome State Fault Refusal :=
  .next (traced s (vecIssue 0x58 q s))

/-- MMUL (R263). -/
def execMmul (q : Nat) (s : State) : Host.Outcome State Fault Refusal :=
  .next (traced s (matrixIssue 0x60 q s))

/-- MMAC (R263). -/
def execMmac (q : Nat) (s : State) : Host.Outcome State Fault Refusal :=
  .next (traced s (matrixIssue 0x61 q s))

/-- TLOAD (R264). -/
def execTload (q : Nat) (s : State) : Host.Outcome State Fault Refusal :=
  .next (traced s (matrixIssue 0x62 q s))

/-- CHAIN (R258). -/
def execChain (q : Nat) (s : State) : Host.Outcome State Fault Refusal :=
  .next (traced s (doChain q s))

/-- CRUN (R258). -/
def execCrun (q : Nat) (s : State) : Host.Outcome State Fault Refusal :=
  .next (traced s (doCrun q s))

end Sys2Proof.Machine
end

