-- ==== Sys2Proof/Machine/Dispatch.lean ====
section
/-! DEFINITION. The dispatch of a command to its meaning: one arm for each constructor of Instr. -/

namespace Sys2Proof.Machine

def exec (i : Instr) (s : State) : Host.Outcome State Fault Refusal :=
  match i with
  | .nop q => Sys2Proof.Machine.execNop q s
  | .endProg q => Sys2Proof.Machine.execEndProg q s
  | .br q => Sys2Proof.Machine.execBr q s
  | .dbnz q => Sys2Proof.Machine.execDbnz q s
  | .cmparm q => Sys2Proof.Machine.execCmparm q s
  | .cmpoff q => Sys2Proof.Machine.execCmpoff q s
  | .pset q => Sys2Proof.Machine.execPset q s
  | .smov q => Sys2Proof.Machine.execSmov q s
  | .sadd q => Sys2Proof.Machine.execSadd q s
  | .ssub q => Sys2Proof.Machine.execSsub q s
  | .smul q => Sys2Proof.Machine.execSmul q s
  | .sand q => Sys2Proof.Machine.execSand q s
  | .sor q => Sys2Proof.Machine.execSor q s
  | .sxor q => Sys2Proof.Machine.execSxor q s
  | .sshl q => Sys2Proof.Machine.execSshl q s
  | .sshr q => Sys2Proof.Machine.execSshr q s
  | .ssra q => Sys2Proof.Machine.execSsra q s
  | .cset q => Sys2Proof.Machine.execCset q s
  | .cget q => Sys2Proof.Machine.execCget q s
  | .sfadd q => Sys2Proof.Machine.execSfadd q s
  | .sfsub q => Sys2Proof.Machine.execSfsub q s
  | .sfmul q => Sys2Proof.Machine.execSfmul q s
  | .sfdiv q => Sys2Proof.Machine.execSfdiv q s
  | .sfsqrt q => Sys2Proof.Machine.execSfsqrt q s
  | .sld q => Sys2Proof.Machine.execSld q s
  | .sst q => Sys2Proof.Machine.execSst q s
  | .flagsRd q => Sys2Proof.Machine.execFlagsRd q s
  | .flagsClr q => Sys2Proof.Machine.execFlagsClr q s
  | .digestRd q => Sys2Proof.Machine.execDigestRd q s
  | .hset q => Sys2Proof.Machine.execHset q s
  | .hoff q => Sys2Proof.Machine.execHoff q s
  | .hadd q => Sys2Proof.Machine.execHadd q s
  | .vcopy q => Sys2Proof.Machine.execVcopy q s
  | .vcvt q => Sys2Proof.Machine.execVcvt q s
  | .vfill q => Sys2Proof.Machine.execVfill q s
  | .vadd q => Sys2Proof.Machine.execVadd q s
  | .vsub q => Sys2Proof.Machine.execVsub q s
  | .vmul q => Sys2Proof.Machine.execVmul q s
  | .vmuladd q => Sys2Proof.Machine.execVmuladd q s
  | .vdiv q => Sys2Proof.Machine.execVdiv q s
  | .vsqrt q => Sys2Proof.Machine.execVsqrt q s
  | .vexp q => Sys2Proof.Machine.execVexp q s
  | .vlog q => Sys2Proof.Machine.execVlog q s
  | .vrsqrt q => Sys2Proof.Machine.execVrsqrt q s
  | .vmax q => Sys2Proof.Machine.execVmax q s
  | .vmin q => Sys2Proof.Machine.execVmin q s
  | .vabs q => Sys2Proof.Machine.execVabs q s
  | .vneg q => Sys2Proof.Machine.execVneg q s
  | .vsign q => Sys2Proof.Machine.execVsign q s
  | .vand q => Sys2Proof.Machine.execVand q s
  | .vor q => Sys2Proof.Machine.execVor q s
  | .vxor q => Sys2Proof.Machine.execVxor q s
  | .vshl q => Sys2Proof.Machine.execVshl q s
  | .vshr q => Sys2Proof.Machine.execVshr q s
  | .vcmp q => Sys2Proof.Machine.execVcmp q s
  | .vsel q => Sys2Proof.Machine.execVsel q s
  | .vdot q => Sys2Proof.Machine.execVdot q s
  | .mmul q => Sys2Proof.Machine.execMmul q s
  | .mmac q => Sys2Proof.Machine.execMmac q s
  | .tload q => Sys2Proof.Machine.execTload q s
  | .chain q => Sys2Proof.Machine.execChain q s
  | .crun q => Sys2Proof.Machine.execCrun q s
  | .flagSet q => Sys2Proof.Machine.execFlagSet q s
  | .flagSetEffect q => Sys2Proof.Machine.execFlagSetEffect q s
  | .flagClear q => Sys2Proof.Machine.execFlagClear q s
  | .flagWait q => Sys2Proof.Machine.execFlagWait q s
  | .flagWaitSatisfied q => Sys2Proof.Machine.execFlagWaitSatisfied q s
  | .flagWaitDeadline q => Sys2Proof.Machine.execFlagWaitDeadline q s
  | .fence q => Sys2Proof.Machine.execFence q s
  | .fenceComplete q => Sys2Proof.Machine.execFenceComplete q s
  | .callColl q => Sys2Proof.Machine.execCallColl q s
  | .dmaCopy q => Sys2Proof.Machine.execDmaCopy q s
  | .segRun q => Sys2Proof.Machine.execSegRun q s
  | .dmaRunAhead q => Sys2Proof.Machine.execDmaRunAhead q s
  | .dmaBlock die ch u ptr => Sys2Proof.Machine.execDmaBlock die ch u ptr s
  | .hawthornBatch w u => Sys2Proof.Machine.execHawthornBatch w u s
  | .laurelBlockPass die u => Sys2Proof.Machine.execLaurelBlockPass die u s
  | .tierFrameReserve q => Sys2Proof.Machine.execTierFrameReserve q s
  | .tierWriteBackDone die job idx => Sys2Proof.Machine.execTierWriteBackDone die job idx s
  | .tierMoveInDone die job idx => Sys2Proof.Machine.execTierMoveInDone die job idx s
  | .preemptStop q => Sys2Proof.Machine.execPreemptStop q s
  | .privetChunk job epoch ordinal chunk u ptr => Sys2Proof.Machine.execPrivetChunk job epoch ordinal chunk u ptr s
  | .duplicateExecution idx v => Sys2Proof.Machine.execDuplicateExecution idx v s
  | .selfTest unit die logical pass => Sys2Proof.Machine.execSelfTest unit die logical pass s
  | .remapApply unit die logical => Sys2Proof.Machine.execRemapApply unit die logical s
  | .dataFrame lane u => Sys2Proof.Machine.execDataFrame lane u s
  | .expressCell lane u => Sys2Proof.Machine.execExpressCell lane u s
  | .digestFrame lane u => Sys2Proof.Machine.execDigestFrame lane u s
  | .ackFrame lane u => Sys2Proof.Machine.execAckFrame lane u s
  | .nakChunk lane u => Sys2Proof.Machine.execNakChunk lane u s
  | .retractFrame lane u => Sys2Proof.Machine.execRetractFrame lane u s
  | .abortCell lane u => Sys2Proof.Machine.execAbortCell lane u s
  | .countsFrame lane u => Sys2Proof.Machine.execCountsFrame lane u s
  | .creditCell lane u => Sys2Proof.Machine.execCreditCell lane u s
  | .linkNak lane u => Sys2Proof.Machine.execLinkNak lane u s
  | .timeFrame lane u => Sys2Proof.Machine.execTimeFrame lane u s
  | .voteFrame lane u => Sys2Proof.Machine.execVoteFrame lane u s
  | .stretchCell lane u => Sys2Proof.Machine.execStretchCell lane u s
  | .twinGrad lane u => Sys2Proof.Machine.execTwinGrad lane u s
  | .twinFlip lane u => Sys2Proof.Machine.execTwinFlip lane u s
  | .twinVote lane u => Sys2Proof.Machine.execTwinVote lane u s
  | .twinHello lane u => Sys2Proof.Machine.execTwinHello lane u s
  | .twinLeave lane u => Sys2Proof.Machine.execTwinLeave lane u s
  | .twinSync lane u => Sys2Proof.Machine.execTwinSync lane u s
  | .twinImageRequest lane u => Sys2Proof.Machine.execTwinImageRequest lane u s
  | .twinImageData lane u => Sys2Proof.Machine.execTwinImageData lane u s
  | .unitSelect lane => Sys2Proof.Machine.execUnitSelect lane s
  | .unitTxDone lane ptr => Sys2Proof.Machine.execUnitTxDone lane ptr s
  | .linkRetryTimeout lane => Sys2Proof.Machine.execLinkRetryTimeout lane s
  | .linkNakRepeat lane => Sys2Proof.Machine.execLinkNakRepeat lane s
  | .creditSend lane => Sys2Proof.Machine.execCreditSend lane s
  | .laneSignalDetect lane => Sys2Proof.Machine.execLaneSignalDetect lane s
  | .fecAlignmentLock lane => Sys2Proof.Machine.execFecAlignmentLock lane s
  | .peerIdentityCheck port words pol => Sys2Proof.Machine.execPeerIdentityCheck port words pol s
  | .laneDown lane loss => Sys2Proof.Machine.execLaneDown lane loss s
  | .earlyArrivalAdmit port => Sys2Proof.Machine.execEarlyArrivalAdmit port s
  | .allocWaitGrant inst => Sys2Proof.Machine.execAllocWaitGrant inst s
  | .mirrorData => Sys2Proof.Machine.execMirrorData s
  | .ordinalEligible job epoch ordinal => Sys2Proof.Machine.execOrdinalEligible job epoch ordinal s
  | .ordinalTimeout job epoch ordinal => Sys2Proof.Machine.execOrdinalTimeout job epoch ordinal s
  | .chunkTimerExpiry job epoch ordinal => Sys2Proof.Machine.execChunkTimerExpiry job epoch ordinal s
  | .shortWaitExpiry job epoch ordinal rank chunk => Sys2Proof.Machine.execShortWaitExpiry job epoch ordinal rank chunk s
  | .digestSend job epoch ordinal lo hi chunk => Sys2Proof.Machine.execDigestSend job epoch ordinal lo hi chunk s
  | .digestResend job epoch ordinal lo hi chunk idx => Sys2Proof.Machine.execDigestResend job epoch ordinal lo hi chunk idx s
  | .shardFlip job shard => Sys2Proof.Machine.execShardFlip job shard s
  | .optimizerStepStart job shard reg => Sys2Proof.Machine.execOptimizerStepStart job shard reg s
  | .epochBoundary job => Sys2Proof.Machine.execEpochBoundary job s
  | .voteWindowExpiry job epoch => Sys2Proof.Machine.execVoteWindowExpiry job epoch s
  | .voteClose job epoch => Sys2Proof.Machine.execVoteClose job epoch s
  | .timeSend => Sys2Proof.Machine.execTimeSend s
  | .timeParentTimeout => Sys2Proof.Machine.execTimeParentTimeout s
  | .masterTimeStart => Sys2Proof.Machine.execMasterTimeStart s
  | .stretchRenew => Sys2Proof.Machine.execStretchRenew s
  | .gateSwap => Sys2Proof.Machine.execGateSwap s
  | .stretchExpiry => Sys2Proof.Machine.execStretchExpiry s
  | .schedMismatch port => Sys2Proof.Machine.execSchedMismatch port s
  | .helloSend => Sys2Proof.Machine.execHelloSend s
  | .twinSilenceTimeout => Sys2Proof.Machine.execTwinSilenceTimeout s
  | .powerWindow m => Sys2Proof.Machine.execPowerWindow m s
  | .currentSample rail iDa mv => Sys2Proof.Machine.execCurrentSample rail iDa mv s
  | .railShortDetect rail iDa collapsed => Sys2Proof.Machine.execRailShortDetect rail iDa collapsed s
  | .senseOpenDetect rail => Sys2Proof.Machine.execSenseOpenDetect rail s
  | .feedStateChange feed v10 => Sys2Proof.Machine.execFeedStateChange feed v10 s
  | .feedSwitchover => Sys2Proof.Machine.execFeedSwitchover s
  | .feedsLost => Sys2Proof.Machine.execFeedsLost s
  | .thermalThreshold g tempC => Sys2Proof.Machine.execThermalThreshold g tempC s
  | .inletTemperature inletMc outletMc => Sys2Proof.Machine.execInletTemperature inletMc outletMc s
  | .flowLowDetect => Sys2Proof.Machine.execFlowLowDetect s
  | .powerOn feed v10 => Sys2Proof.Machine.execPowerOn feed v10 s
  | .configApply => Sys2Proof.Machine.execConfigApply s
  | .trainingComplete hbm ddr => Sys2Proof.Machine.execTrainingComplete hbm ddr s
  | .syncTimeout => Sys2Proof.Machine.execSyncTimeout s
  | .imageRequestRepeat => Sys2Proof.Machine.execImageRequestRepeat s
  | .imageVerifyComplete src => Sys2Proof.Machine.execImageVerifyComplete src s
  | .carrierResetAssert => Sys2Proof.Machine.execCarrierResetAssert s
  | .carrierResetRelease => Sys2Proof.Machine.execCarrierResetRelease s
  | .lsrEnChange level => Sys2Proof.Machine.execLsrEnChange level s
  | .sb3v3Loss => Sys2Proof.Machine.execSb3v3Loss s
  | .i3cPrivateRead => Sys2Proof.Machine.execI3cPrivateRead s
  | .i3cWrite bytes => Sys2Proof.Machine.execI3cWrite bytes s
  | .extest scan => Sys2Proof.Machine.execExtest scan s
  | .idcode => Sys2Proof.Machine.execIdcode s
  | .samplePreload scan => Sys2Proof.Machine.execSamplePreload scan s
  | .ringSel dr => Sys2Proof.Machine.execRingSel dr s
  | .ringData => Sys2Proof.Machine.execRingData s
  | .jtagState => Sys2Proof.Machine.execJtagState s
  | .bypass code => Sys2Proof.Machine.execBypass code s
  | .fmdDiscard port => Sys2Proof.Machine.execFmdDiscard port s
  | .securedMessageDiscard sessionId tagOk seq => Sys2Proof.Machine.execSecuredMessageDiscard sessionId tagOk seq s
  | .arpNdRequest port target => Sys2Proof.Machine.execArpNdRequest port target s
  | .icmpEcho port target body => Sys2Proof.Machine.execIcmpEcho port target body s
  | .spdm h m => Sys2Proof.Machine.execSpdm h m s
  | .keyExchange h sessionId => Sys2Proof.Machine.execKeyExchange h sessionId s
  | .finish h sessionId rootKey proofOk => Sys2Proof.Machine.execFinish h sessionId rootKey proofOk s
  | .endSession h => Sys2Proof.Machine.execEndSession h s
  | .getMeasurements h index => Sys2Proof.Machine.execGetMeasurements h index s
  | .sessionTimeout slot => Sys2Proof.Machine.execSessionTimeout slot s
  | .readReg h addr => Sys2Proof.Machine.execReadReg h addr s
  | .writeReg h addr v => Sys2Proof.Machine.execWriteReg h addr v s
  | .readBlock h addr count => Sys2Proof.Machine.execReadBlock h addr count s
  | .regAccessTimeout h acc => Sys2Proof.Machine.execRegAccessTimeout h acc s
  | .counterSnapshotTake h => Sys2Proof.Machine.execCounterSnapshotTake h s
  | .counterSnapshotRelease h => Sys2Proof.Machine.execCounterSnapshotRelease h s
  | .snapshotFreeze => Sys2Proof.Machine.execSnapshotFreeze s
  | .snapshotExpiry => Sys2Proof.Machine.execSnapshotExpiry s
  | .eventRingRead h ring first count => Sys2Proof.Machine.execEventRingRead h ring first count s
  | .traceCtrlStart h mode => Sys2Proof.Machine.execTraceCtrlStart h mode s
  | .traceCtrlStop h => Sys2Proof.Machine.execTraceCtrlStop h s
  | .traceCtrlStatus h => Sys2Proof.Machine.execTraceCtrlStatus h s
  | .traceCtrlFilter h sources jobs => Sys2Proof.Machine.execTraceCtrlFilter h sources jobs s
  | .traceDrainComplete => Sys2Proof.Machine.execTraceDrainComplete s
  | .traceRecordWrite => Sys2Proof.Machine.execTraceRecordWrite s
  | .attnAck h mask => Sys2Proof.Machine.execAttnAck h mask s
  | .queuePush h q seq words => Sys2Proof.Machine.execQueuePush h q seq words s
  | .topiaryLoad h job => Sys2Proof.Machine.execTopiaryLoad h job s
  | .topiaryCommit h job tid => Sys2Proof.Machine.execTopiaryCommit h job tid s
  | .topiaryActivate job => Sys2Proof.Machine.execTopiaryActivate job s
  | .topiaryUnload h job => Sys2Proof.Machine.execTopiaryUnload h job s
  | .topiaryUnloadComplete job => Sys2Proof.Machine.execTopiaryUnloadComplete job s
  | .checkpointRead h job close shard plane epoch offset len => Sys2Proof.Machine.execCheckpointRead h job close shard plane epoch offset len s
  | .checkpointReadTimeout job shard => Sys2Proof.Machine.execCheckpointReadTimeout job shard s
  | .imagePush h kind job offset bytes => Sys2Proof.Machine.execImagePush h kind job offset bytes s
  | .nvmWrite h region => Sys2Proof.Machine.execNvmWrite h region s
  | .nvmWriteComplete readBack => Sys2Proof.Machine.execNvmWriteComplete readBack s
  | .resetCollective h job ordinal epoch => Sys2Proof.Machine.execResetCollective h job ordinal epoch s
  | .rollbackEpoch h job epoch => Sys2Proof.Machine.execRollbackEpoch h job epoch s
  | .remapUnit h die unit logical => Sys2Proof.Machine.execRemapUnit h die unit logical s
  | .resyncTwin h => Sys2Proof.Machine.execResyncTwin h s
  | .requeue h q epoch => Sys2Proof.Machine.execRequeue h q epoch s
  | .masterRelease h inst req => Sys2Proof.Machine.execMasterRelease h inst req s
  | .moduleReset h confirm => Sys2Proof.Machine.execModuleReset h confirm s
  | .timSet h v => Sys2Proof.Machine.execTimSet h v s
  | .detach h => Sys2Proof.Machine.execDetach h s
  | .forceSolo h => Sys2Proof.Machine.execForceSolo h s
  | .retrain h lane nakLimit enable => Sys2Proof.Machine.execRetrain h lane nakLimit enable s
  | .laneEnable h lane nakLimit enable => Sys2Proof.Machine.execLaneEnable h lane nakLimit enable s
  | .burnCust h => Sys2Proof.Machine.execBurnCust h s
  | .svnAdvance h svn => Sys2Proof.Machine.execSvnAdvance h svn s
  | .fuseBurnComplete => Sys2Proof.Machine.execFuseBurnComplete s
  | .lagClear h die v => Sys2Proof.Machine.execLagClear h die v s
  | .mirrorDestWrite h v => Sys2Proof.Machine.execMirrorDestWrite h v s
  | .mirrorCfgWrite h port v => Sys2Proof.Machine.execMirrorCfgWrite h port v s
  | .polDataWrite h v => Sys2Proof.Machine.execPolDataWrite h v s
  | .profileWrite h n w v => Sys2Proof.Machine.execProfileWrite h n w v s
  | .weightWrite h reg v => Sys2Proof.Machine.execWeightWrite h reg v s
  | .ageLimitWrite h k v => Sys2Proof.Machine.execAgeLimitWrite h k v s
  | .capWrite h v => Sys2Proof.Machine.execCapWrite h v s
  | .railLimitWrite h rail v => Sys2Proof.Machine.execRailLimitWrite h rail v s
  | .lagSelWrite h v => Sys2Proof.Machine.execLagSelWrite h v s
  | .masterSyncElapsed => Sys2Proof.Machine.execMasterSyncElapsed s
  | .mirrorRingWrite => Sys2Proof.Machine.execMirrorRingWrite s
  | .mgtPortLinkChange port st fec => Sys2Proof.Machine.execMgtPortLinkChange port st fec s
  | .recoveryOperationComplete idx => Sys2Proof.Machine.execRecoveryOperationComplete idx s
  | .delimitationLost lane => Sys2Proof.Machine.execDelimitationLost lane s
  | .mirrorUnit lane u => Sys2Proof.Machine.execMirrorUnit lane u s
  | .fmdNop h => Sys2Proof.Machine.execFmdNop h s
  | .reservedOpcode h opcode bytes => Sys2Proof.Machine.execReservedOpcode h opcode bytes s

end Sys2Proof.Machine
end

