-- ==== Sys2Proof/Safety.lean ====
section
/-! DEFINITION. What holds of every state that a run can reach, and what a command leaves alone, in the terms that the
statements use. -/

namespace Sys2Proof.Machine

/-- The state is well formed: memory is in canonical form (R411) and all 64 command queues stand (R291). -/
def State.Ok (s : State) : Prop := s.comp.mem.wf = true ∧ s.comp.queues.length = 64

/-- The scalar state of a queue's executor (R244) and its digest accumulators (R273). -/
structure QRegs where
  s : List Word32
  c : List Word32
  p : List Bool
  h : List Handle
  k : List Comparator
  digests : List Nat
  deriving DecidableEq, Repr

/-- The scalar state of queue `q`. -/
def regsOf (s : State) (q : Nat) : QRegs :=
  let Q := queueAt s q
  ⟨Q.s, Q.c, Q.p, Q.h, Q.k, Q.digests⟩

/-- Queue `q` can issue the word `w` of opcode `op`: the word passes the checks of R240 and R241 and its guard lets it
execute (R239). -/
structure Issues (s : State) (q op : Nat) (w : Word) : Prop where
  stands : canIssue s q op = some w
  passes : wordCheck s (queueAt s q) w = none
  guarded : guardOff (queueAt s q) w = false

/-- Every unit outside the compute dies, and every loaded Topiary, stands as it stood. -/
structure KeepsOutside (s t : State) : Prop where
  tops : t.tops = s.tops
  fab : t.fab = s.fab
  coll : t.coll = s.coll
  integ : t.integ = s.integ
  pwr : t.pwr = s.pwr
  mgt : t.mgt = s.mgt
  snap : t.snap = s.snap
  pins : t.pins = s.pins

/-- The job flags, the FPFLAGS registers, the Laurel lists and the DMA channels stand as they stood. -/
structure KeepsEngines (s t : State) : Prop where
  jobFlags : t.comp.jobFlags = s.comp.jobFlags
  fpVec : t.comp.fpVec = s.comp.fpVec
  fpRde : t.comp.fpRde = s.comp.fpRde
  fpMtx : t.comp.fpMtx = s.comp.fpMtx
  laurel : t.comp.laurel = s.comp.laurel
  mtxPasses : t.comp.mtxPasses = s.comp.mtxPasses
  chans : t.comp.chans = s.comp.chans

/-- The scalar state of every queue but `q` stands as it stood. -/
def KeepsOthers (s t : State) (q : Nat) : Prop := ∀ r, r ≠ q → regsOf t r = regsOf s r

/-- The frame of a word that changes scalar state alone: memory, engines, other queues' registers and everything
outside the compute dies stand as they stood. -/
structure ScalarFrame (s t : State) (q : Nat) : Prop where
  mem : t.comp.mem = s.comp.mem
  engines : KeepsEngines s t
  others : KeepsOthers s t q
  outside : KeepsOutside s t

/-- Queue `q` has left its word (R292): the next word of the segment, or the next ring word. -/
def Moved (s t : State) (q : Nat) : Prop :=
  let Q := queueAt s q
  let R := queueAt t q
  if Q.inSeg then R.inSeg = true ∧ R.seg = Q.seg ∧ R.pc = Q.pc + 1 ∧ R.ring = Q.ring ∧ R.head = Q.head
  else R.inSeg = false ∧ R.ring = Q.ring.tail ∧ R.head = (Q.head + 1) % 2 ^ 14

/-- Queue `q` stands at the word at which it stood. -/
def Stands (s t : State) (q : Nat) : Prop :=
  let Q := queueAt s q
  let R := queueAt t q
  R.inSeg = Q.inSeg ∧ R.seg = Q.seg ∧ R.pc = Q.pc ∧ R.ring = Q.ring ∧ R.head = Q.head

end Sys2Proof.Machine
end

