-- ==== Sys2Proof/Certificates/Slice0/Obligations.lean ====
section
/-! DEFINITION. What the provers are asked to prove of the model. -/

set_option autoImplicit false

namespace Sys2Proof.Machine

/-! ### Terms of the statements -/

/-- The words that write s[SD] and nothing else (R245): their queue, opcode and value. -/
def aluOf : Instr → Option (Nat × Nat × (Queue → Word → Word32))
  | .smov q => some (q, 0x08, fun Q w => operand2 Q w)
  | .sadd q => some (q, 0x09, fun Q w => sreg Q (wR2 w) + operand2 Q w)
  | .ssub q => some (q, 0x0A, fun Q w => sreg Q (wR2 w) - operand2 Q w)
  | .smul q => some (q, 0x0B, fun Q w => sreg Q (wR2 w) * operand2 Q w)
  | .sand q => some (q, 0x0C, fun Q w => sreg Q (wR2 w) &&& operand2 Q w)
  | .sor q => some (q, 0x0D, fun Q w => sreg Q (wR2 w) ||| operand2 Q w)
  | .sxor q => some (q, 0x0E, fun Q w => sreg Q (wR2 w) ^^^ operand2 Q w)
  | .sshl q => some (q, 0x0F, fun Q w => sreg Q (wR2 w) <<< ((operand2 Q w).toNat % 32))
  | .sshr q => some (q, 0x10, fun Q w => sreg Q (wR2 w) >>> ((operand2 Q w).toNat % 32))
  | .ssra q => some (q, 0x11, fun Q w => (sreg Q (wR2 w)).sshiftRight ((operand2 Q w).toNat % 32))
  | .cget q => some (q, 0x13, fun Q w => Q.c.getD (field w 45 43) 0)
  | _ => none

/-- The scalar FP32 words (R246): queue, opcode and operation on the two operands' patterns. -/
def fpOf : Instr → Option (Nat × Nat × (Nat → Nat → Nat × FpFlags))
  | .sfadd q => some (q, 0x14, fadd)
  | .sfsub q => some (q, 0x15, fsub)
  | .sfmul q => some (q, 0x16, fmul)
  | .sfdiv q => some (q, 0x17, fdiv)
  | .sfsqrt q => some (q, 0x18, fun a _ => fsqrt a)
  | _ => none

/-- SLD and SST name an element: the tensor of h[SA] is dense with 32-bit elements, its base is aligned, the index
lies inside it and the pre-check of its access finds nothing (R246, R253, R413). -/
def elementReady (s : State) (q : Nat) (w : Word) (write : Bool) (x : Tensor) : Prop :=
  let Q := queueAt s q
  let i := (wImm w).toNat
  scalarTensor s Q (wR2 w) = .ok x ∧ baseAligned x = true ∧ i < elemCount x ∧
  preCheck s Q.job Q.die .group [elemAcc x (coordsOf x.sizes i) write] = .ok

/-- The commands that issue a queue's word, with the word's queue and opcode (R240). -/
def wordOf : Instr → Option (Nat × Nat)
  | .nop q => some (q, 0x00) | .endProg q => some (q, 0x01) | .br q => some (q, 0x02) | .dbnz q => some (q, 0x03)
  | .cmparm q => some (q, 0x04) | .cmpoff q => some (q, 0x05) | .pset q => some (q, 0x06) | .smov q => some (q, 0x08)
  | .sadd q => some (q, 0x09) | .ssub q => some (q, 0x0A) | .smul q => some (q, 0x0B) | .sand q => some (q, 0x0C)
  | .sor q => some (q, 0x0D) | .sxor q => some (q, 0x0E) | .sshl q => some (q, 0x0F) | .sshr q => some (q, 0x10)
  | .ssra q => some (q, 0x11) | .cset q => some (q, 0x12) | .cget q => some (q, 0x13) | .sfadd q => some (q, 0x14)
  | .sfsub q => some (q, 0x15) | .sfmul q => some (q, 0x16) | .sfdiv q => some (q, 0x17) | .sfsqrt q => some (q, 0x18)
  | .sld q => some (q, 0x1A) | .sst q => some (q, 0x1B) | .flagsRd q => some (q, 0x1C) | .flagsClr q => some (q, 0x1D)
  | .digestRd q => some (q, 0x1E) | .hset q => some (q, 0x20) | .hoff q => some (q, 0x21) | .hadd q => some (q, 0x22)
  | .vcopy q => some (q, 0x40) | .vcvt q => some (q, 0x41) | .vfill q => some (q, 0x42) | .vadd q => some (q, 0x43)
  | .vsub q => some (q, 0x44) | .vmul q => some (q, 0x45) | .vmuladd q => some (q, 0x46) | .vdiv q => some (q, 0x47)
  | .vsqrt q => some (q, 0x48) | .vexp q => some (q, 0x49) | .vlog q => some (q, 0x4A) | .vrsqrt q => some (q, 0x4B)
  | .vmax q => some (q, 0x4C) | .vmin q => some (q, 0x4D) | .vabs q => some (q, 0x4E) | .vneg q => some (q, 0x4F)
  | .vsign q => some (q, 0x50) | .vand q => some (q, 0x51) | .vor q => some (q, 0x52) | .vxor q => some (q, 0x53)
  | .vshl q => some (q, 0x54) | .vshr q => some (q, 0x55) | .vcmp q => some (q, 0x56) | .vsel q => some (q, 0x57)
  | .vdot q => some (q, 0x58) | .mmul q => some (q, 0x60) | .mmac q => some (q, 0x61) | .tload q => some (q, 0x62)
  | .chain q => some (q, 0x70) | .crun q => some (q, 0x72) | .flagSet q => some (q, 0xA0) | .flagClear q => some (q, 0xA1)
  | .flagWait q => some (q, 0xA2) | .fence q => some (q, 0xA3) | .callColl q => some (q, 0xB0)
  | .dmaCopy q => some (q, 0xC0) | .segRun q => some (q, 0xE0)
  | _ => none

/-- Everything but the fabric, the event rings, the attention bits and the trace stands as it stood. -/
def FabricOnly (s t : State) : Prop :=
  t = { s with fab := t.fab, rings := t.rings, attn := t.attn, freeCtr := t.freeCtr, dbg := t.dbg }

/-- Memory, the scalar state of every queue, the FPFLAGS registers, every Topiary, the power unit and the service
registers stand as they stood. -/
structure KeepsData (s t : State) : Prop where
  mem : t.comp.mem = s.comp.mem
  regs : ∀ q, regsOf t q = regsOf s q
  fpVec : t.comp.fpVec = s.comp.fpVec
  fpMtx : t.comp.fpMtx = s.comp.fpMtx
  fpRde : t.comp.fpRde = s.comp.fpRde
  tops : t.tops = s.tops
  pwr : t.pwr = s.pwr
  mgt : t.mgt = s.mgt

/-- A unit of type `typ` as its row names it: the type and its form (R341). -/
def asType (typ : Nat) (u : LinkUnit) : LinkUnit := { u with typ := typ, cell := isCellType typ }

/-- A TWIN unit of a subtype (R475). -/
def asTwin (sub : Nat) (u : LinkUnit) : LinkUnit := asType 12 { u with rank := u.rank / 16 * 16 + sub }

/-- The commands that receive a unit: the lane and the unit; an IMAGE request is the one of ORDINAL 0xFFFFFFFF (R518). -/
def unitOf : Instr → Option (Nat × LinkUnit)
  | .dataFrame l u => some (l, asType 0 u) | .expressCell l u => some (l, asType 1 u)
  | .digestFrame l u => some (l, asType 2 u) | .ackFrame l u => some (l, asType 3 u)
  | .nakChunk l u => some (l, asType 4 u) | .retractFrame l u => some (l, asType 5 u)
  | .abortCell l u => some (l, asType 6 u) | .countsFrame l u => some (l, asType 7 u)
  | .creditCell l u => some (l, asType 8 u) | .linkNak l u => some (l, asType 9 u)
  | .timeFrame l u => some (l, asType 10 u) | .voteFrame l u => some (l, asType 11 u)
  | .stretchCell l u => some (l, asType 13 u) | .mirrorUnit l u => some (l, asType 14 u)
  | .twinGrad l u => some (l, asTwin 0 u) | .twinFlip l u => some (l, asTwin 1 u)
  | .twinVote l u => some (l, asTwin 2 u) | .twinHello l u => some (l, asTwin 3 u)
  | .twinLeave l u => some (l, asTwin 4 u) | .twinSync l u => some (l, asTwin 5 u)
  | .twinImageRequest l u => if u.ordinal = 0xFFFFFFFF then some (l, asTwin 6 u) else none
  | .twinImageData l u => if u.ordinal = 0xFFFFFFFF then none else some (l, asTwin 6 u)
  | _ => none

/-- A lane after LINK_NAK of a cause for the LINK_SEQ that it awaits has been sent on it (R344, R350). -/
def nakked (L : Lane) (l p cause now : Nat) : Lane :=
  let u : LinkUnit := { cell := true, typ := 9
                        payload := padTo 40 (leBytes 1 (l - p) ++ leBytes 1 cause ++ leBytes 2 L.rxExpect) }
  let L := { L with locals := L.locals ++ [sealUnit u], cnt := bumpAt L.cnt 3 1 }
  if cause = 1 then L else { L with nakAt := some (L.rxExpect, now), missing := true, nakCause := cause }

/-- A lane with LNK.CNT[k] one higher. -/
def counted (L : Lane) (k : Nat) : Lane := { L with cnt := bumpAt L.cnt k 1 }

/-- Lane `l` becomes `L` and nothing else of the module changes but the trace. -/
def OnlyLane (s t : State) (l : Nat) (L : Lane) : Prop :=
  laneAt t l = L ∧ (∀ j, j ≠ l → laneAt t j = laneAt s j) ∧
  t = { s with fab := { s.fab with lanes := t.fab.lanes }, dbg := t.dbg }

/-- A unit that passes the checks of its own, at the front of its lane's numbering (R345 checks 1 to 3). -/
structure Accepted (s : State) (l p : Nat) (u : LinkUnit) : Prop where
  port : portOf s l = some p
  up : (laneAt s l).st = .up
  header : unitHeaderOk u = true
  crc : crc32c u.payload = u.crc
  sequenced : isLinkLocal u.typ = false
  expected : (u.linkSeq + 1024 - (laneAt s l).rxExpect) % 1024 = 0

/-- A lane that has accepted a unit: EXPECT has advanced and the acceptance is to be acknowledged (R350). -/
def acceptedLane (L : Lane) (u : LinkUnit) (now : Nat) : Lane :=
  { L with rxExpect := (L.rxExpect + 1) % 1024, rxAny := true, missing := false, nakAt := none
           ackUnits := L.ackUnits + 1, ackBytes := L.ackBytes + unitSize u, cnt := bumpAt L.cnt 0 1
           ackSince := match L.ackSince with | some t => some t | none => some now }

/-- The LNK counter of the check that an accepted unit fails, in the order of R345 (checks 4 to 7). -/
def discardCode (s : State) (p l : Nat) (u : LinkUnit) : Option Nat :=
  if creditLeft (portAt s p).grantRx (portAt s p).usedRx (unitClass u) < unitCost u then some 7
  else if !typeAllowed s l u then some 8
  else match routeOf s u with
    | .error n => some n
    | .ok d => if tooOld s d u then some 12 else none

/-- An accepted unit that every check of R345 lets through, whose requester is not frozen, that its meter does not
colour red, that nothing of its class waits before, and for which the packet buffer has room below PRESS. -/
structure Delivered (s : State) (l p : Nat) (u : LinkUnit) (d : Dest) : Prop where
  accepted : Accepted s l p u
  credit : unitCost u ≤ creditLeft (portAt s p).grantRx (portAt s p).usedRx (unitClass u)
  allowed : typeAllowed s l u = true
  route : routeOf s u = .ok d
  young : tooOld s d u = false
  thawed : frozenFor s p d u = none
  metered : (meterUnit s p u).2 ≠ 2
  first : (portAt s p).held.any (fun h => unitClass h.unit == unitClass u) = false
  room : u.cell = false → ∃ pool n, poolFor (bpmAt s 0) u.length = some (pool, n) ∧
    allocCheck (bpmAt s 0) pool (reqId 0 p u.job) n = 0 ∧ ((bpmAt s 0).pools.getD pool {}).level < 2

/-- Room of one frame in the staging memory of a die, below PRESS (R212, R373). -/
def StagingRoom (s : State) (inst q job len : Nat) : Prop :=
  ∃ pool n, poolFor (bpmAt s inst) len = some (pool, n) ∧ allocCheck (bpmAt s inst) pool (reqId 0 q job) n = 0 ∧
    ((bpmAt s inst).pools.getD pool {}).level < 2

/-- A collective unit that its checks let through (R38, R54, R66, R129, R130, R146, R152, R465): its epoch, its entry
and that it lies within the early-arrival quota. -/
structure TakesColl (s : State) (l : Nat) (u : LinkUnit) (ep : Nat) (e : CollEntry) : Prop where
  judged : judgeColl s l u = .take ep e
  quota : let c := collAt s u.job ep e.ordinal
    overQuota s u.job (if u.cell then (if c.eligible then 0 else 1) else if isEarly c e u then earlyCells u else 0) = false

/-- The conditions of a run of a chunk on its engine `g` (R53, R211, R230, R380). -/
structure ChunkReady (s : State) (job ep ord chunk : Nat) (top : Topiary) (e : CollEntry) (g : Nat) : Prop where
  loaded : topOf s job = some top
  entry : entryOf s job ord = some e
  eligible : (collAt s job ep ord).eligible = true
  live : (collAt s job ep ord).aborted = false ∧ (collAt s job ep ord).completed = false
  window : (jobAt s job).oldest ≤ ep ∧ ep < (jobAt s job).oldest + top.epochLimit
  engine : engineFree s (entryDie e) (engineOf e chunk) job = true ∧ engineFree s (entryDie e) g job = true ∧
    (engineUnits s (entryDie e) (engineOf e chunk)).head? = some g
  inside : chunk < e.chunks ∧ chunk ≠ 0xFFFFFF ∧ ownHalf s job e chunk = true
  plain : e.express = false ∧ countsPhase e = false ∧ e.inputs ≠ []
  turn : isReduction e.kind = true → planTurn s job ep e chunk = true

/-- The newest entry of an event ring (R567). -/
def newest (s : State) (ring : Nat) : Option RingEntry := (lookupD s.rings ring []).head?

/-- The module has entered SAFE for a cause (R498): every rail but VSVC that was on is shut, the compute dies and the
switch hold nothing but the DDR5 tier, which VSVC feeds (R39), the event ring names the cause, and POWER and FAULT are set. -/
structure EnteredSafe (s t : State) (cause : Nat) : Prop where
  state : t.mgt.st = .safe
  rails : ∀ r, r ≠ 7 → (railAt s r).st ≠ 0 → (railAt t r).st = 3
  lost : t.comp = { mem := ddrOnly s.comp.mem } ∧ t.tops = [] ∧ t.coll = {} ∧ t.fab.ports = [] ∧ t.fab.lanes = [] ∧ t.fab.twin.st = .detached
  ring : newest t 2 = some ⟨s.fabricTime % 2 ^ 48, 8, false, cause % 256⟩
  attn : t.attn &&& (aPower ||| aFault) = aPower ||| aFault
  kept : t.mgt = { s.mgt with st := .safe, loads := [], running := [], unloading := [], hbm := t.mgt.hbm } ∧ t.pins = s.pins

/-- The temperature at which a sensor group is critical (R496). -/
def critTemp : SensorGroup → Nat
  | .die _ => 110 | .hbm _ => 105 | .optical _ => 85 | .switchDie => 110 | .serviceDie => 110

/-- The temperature at which a sensor group is noticed (R496). -/
def noticeTemp : SensorGroup → Nat
  | .die _ => 90 | .hbm _ => 85 | .optical _ => 75 | .switchDie => 95 | .serviceDie => 95

/-- What a module reset leaves (R22, R509, R588, R595): BOOT, with the reset cause, no session, no Topiary, no lane, and
what lies outside the reset kept: fuses, the NOR, the feeds, the event rings and the quarantines; the remaps in the repair fuses apply as BOOT goes on (R49). -/
structure HasReset (s t : State) (cause : Nat) : Prop where
  cause : t.mgt.resetCause = cause
  empty : (∀ k, (sessAt t k).valid = false) ∧ t.tops = [] ∧ t.coll = {} ∧ t.snap = none ∧ t.attn = 0 ∧ t.fabricTime = 0 ∧
    t.comp = { mem := ddrOnly s.comp.mem }
  kept : t.mgt.fuses = s.mgt.fuses ∧ t.mgt.nor = s.mgt.nor ∧ t.pwr.feeds = s.pwr.feeds ∧ t.rings = s.rings ∧
    (let i := if t.pins.carrierReset then s.integ else (applyFused s).integ
     t.integ.quar = i.quar ∧ t.integ.remaps = i.remaps ∧ t.integ.spares = i.spares) ∧ t.mgt.serial = s.mgt.serial ∧ t.now = s.now ∧
    t.mgt.replies = s.mgt.replies ∧ t.grade = s.grade

/-- Where Holly comes to from BOOT step 2 (R510, R511, R515 to R517, R521): RECOVERY with the cause of what failed, or
CONFIG once firmware runs and a configuration image has verified. -/
def hollyEnds (s t : State) : Prop :=
  let s1 := setMgt s (fun m => { m with custKey := m.fuses.custHash })
  if s.mgt.nor.answers = false then t.mgt.st = .recovery ∧ t.mgt.cause = 1 ∧ t.mgt.fwRunning = false
  else if firmwareCause s s.mgt.nor.firmware ≠ 0 then
    t.mgt.st = .recovery ∧ t.mgt.cause = firmwareCause s s.mgt.nor.firmware ∧ t.mgt.fwRunning = false
  else t.mgt.fwRunning = true ∧ t.mgt.fwSource = 0 ∧ t.mgt.fwBytes = imageOf s.mgt.nor.firmware ∧
    (if configCause s1 s.mgt.nor.config = 0 then t.mgt.st = .config ∧ t.mgt.cfgBytes = imageOf s.mgt.nor.config
     else t.mgt.st = .recovery ∧ t.mgt.cause = configCause s1 s.mgt.nor.config)

/-- The debug block stands as it stood but for the data register that JTAG shifts out and for queued trace records. -/
def Shifts (s t : State) (bits out : Nat) : Prop :=
  t = { s with dbg := { s.dbg with jtagBits := bits, jtagOut := out, queue := t.dbg.queue, drops := t.dbg.drops } }

/-- A register write of a row that names one register, or WRITE_REG: address and value (R541, R551). -/
def regWriteOf : Instr → Option (FmdReq × Nat × Nat)
  | .writeReg h a v => some (h, a.toNat, v.toNat)
  | .lagClear h d v => some (h, 0x10009080 + d * 0x1000000, v.toNat)
  | .mirrorDestWrite h v => some (h, 0x08001000, v.toNat)
  | .mirrorCfgWrite h p v => some (h, 0x08002000 + 8 * p, v.toNat)
  | .polDataWrite h v => some (h, 0x0A000208, v.toNat)
  | .profileWrite h n w v => some (h, 0x0A006000 + 16 * n + 8 * w, v.toNat)
  | .weightWrite h (.classW j) v => some (h, 0x0A000100 + 8 * j, v.toNat)
  | .weightWrite h (.jobW p x) v => some (h, 0x0A002000 + 16 * p + 8 * x, v.toNat)
  | .ageLimitWrite h k v => some (h, 0x0800D000 + 8 * k, v.toNat)
  | .capWrite h v => some (h, 0x02000008, v.toNat)
  | .railLimitWrite h r v => some (h, 0x02000100 + 8 * r, v.toNat)
  | .lagSelWrite h v => some (h, 0x30000100, v.toNat)
  | .timSet h v => some (h, 0x0C000030, v.toNat)
  | .detach h => some (h, 0x03000008, 2)
  | .forceSolo h => some (h, 0x03000008, 1)
  | .retrain h l n e => some (h, 0x04000010 + 0x1000 * l, (n % 16) * 16 + 2 + if e then 1 else 0)
  | .laneEnable h l n e => some (h, 0x04000010 + 0x1000 * l, (n % 16) * 16 + if e then 1 else 0)
  | .burnCust h => some (h, 0x01000008, 1)
  | .svnAdvance h v => some (h, 0x01000008, 4 * (v % 64) + 2)
  | _ => none

/-- A management request as its datagram carries it (R536, R541): header, opcode, operand bytes, whether its form is
refused, what R542 distinguishes in it (the KIND of an IMAGE_PUSH, 1 for a WRITE_REG of the SEC block), and whether a
frozen session may send it (row 4 of R539). -/
def fmdOf (c : Instr) : Option (FmdReq × Nat × List Byte × Bool × Nat × Bool) :=
  match c with
  | .readReg h a => some (h, 0x10, beBytes 4 a.toNat, false, 0, true)
  | .regAccessTimeout h ⟨a, .read⟩ => some (h, 0x10, beBytes 4 a.toNat, false, 0, true)
  | .regAccessTimeout h ⟨a, .write v⟩ =>
    some (h, 0x11, beBytes 4 a.toNat ++ beBytes 8 v.toNat, false, if inSec a.toNat then 1 else 0, false)
  | .regAccessTimeout h ⟨a, .block n _⟩ => some (h, 0x12, beBytes 4 a.toNat ++ beBytes 2 n, n < 1 || 512 < n, 0, false)
  | .readBlock h a n => some (h, 0x12, beBytes 4 a.toNat ++ beBytes 2 n, n < 1 || 512 < n, 0, false)
  | .counterSnapshotTake h => some (h, 0x13, [0], false, 0, false)
  | .counterSnapshotRelease h => some (h, 0x13, [1], false, 0, false)
  | .eventRingRead h r f n =>
    some (h, 0x14, beBytes 2 r ++ leBytes 1 f ++ leBytes 1 n, 63 < f || n < 1 || 64 < n, 0, true)
  | .traceCtrlStart h m => some (h, 0x15, traceOps 0 m, 1 < m, 0, false)
  | .traceCtrlStop h => some (h, 0x15, traceOps 1 0, false, 0, false)
  | .traceCtrlStatus h => some (h, 0x15, traceOps 2 0, false, 0, false)
  | .traceCtrlFilter h x j =>
    some (h, 0x15, traceOps 3 0 ++ beBytes 8 x.toNat ++ beBytes 2 j.toNat ++ List.replicate 6 0, false, 0, false)
  | .attnAck h m => some (h, 0x16, beBytes 2 m.toNat, false, 0, true)
  | .fmdNop h => some (h, 0x17, [], false, 0, false)
  | .reservedOpcode h op bs => some (h, op, bs, true, 0, false)
  | .queuePush h q n ws => some (h, 0x20, leBytes 1 q ++ [0] ++ beBytes 2 n.toNat ++ leBytes 1 ws.length ++ [0, 0, 0]
      ++ ws.flatMap (fun w => beBytes 8 w.toNat), ws.isEmpty || 128 < ws.length, 0, false)
  | .topiaryLoad h j => some (h, 0x30, leBytes 1 j, false, 0, false)
  | .topiaryCommit h j t => some (h, 0x31, leBytes 1 j ++ List.replicate 7 0 ++ beBytes 8 t.toNat, false, 0, false)
  | .topiaryUnload h j => some (h, 0x32, leBytes 1 j, false, 0, false)
  | .checkpointRead h j c x p e o n => some (h, 0x33, leBytes 1 j ++ [if c then 1 else 0] ++ beBytes 2 x ++ leBytes 1 p
      ++ [0, 0, 0] ++ beBytes 8 e ++ beBytes 8 o ++ beBytes 4 n, 4 ≤ p || 8160 < n, 0, false)
  | .imagePush h k j o bs => some (h, 0x40, pushOps k j o bs, 2 < k || bs.isEmpty || 8168 < bs.length, k, false)
  | .nvmWrite h r => some (h, 0x41, leBytes 1 r, 1 < r, 0, false)
  | .resetCollective h j o e => some (h, 0x50, leBytes 1 j ++ [0, 0, 0] ++ beBytes 4 o ++ beBytes 8 e, false, 0, false)
  | .rollbackEpoch h j e => some (h, 0x51, leBytes 1 j ++ List.replicate 7 0 ++ beBytes 8 e, false, 0, false)
  | .remapUnit h d u l => some (h, 0x52, leBytes 1 d ++ leBytes 1 u ++ beBytes 2 l, 4 < u, 0, false)
  | .resyncTwin h => some (h, 0x53, [], false, 0, false)
  | .requeue h q e => some (h, 0x54, leBytes 1 q ++ List.replicate 7 0 ++ beBytes 8 e, false, 0, false)
  | .masterRelease h i r => some (h, 0x55, leBytes 1 i ++ [0] ++ beBytes 2 r, 4 ≤ reqKind r, 0, true)
  | .moduleReset h x => some (h, 0x60, beBytes 4 x.toNat, false, 0, false)
  | c => (regWriteOf c).map (fun x =>
      (x.1, 0x11, beBytes 4 x.2.1 ++ beBytes 8 x.2.2, false, if inSec x.2.1 then 1 else 0, false))

/-- The cached reply of a request (R539 row 1, R540). -/
def cached (s : State) (k tag op : Nat) (ops : List Byte) : Option CacheRec :=
  (sessAt s k).cache.find? (fun c => c.tag == tag && c.opcode == op && c.crc == crc32c ops)

/-- A command whose operation runs for session `k` in state `u`: no row of R539 before the last applies, and `u` is the
state with the message noted and its cells charged (R535, R538, R539). -/
def Runs (c : Instr) (s : State) (k : Nat) (u : State) : Prop :=
  ∃ h op ops sub free x, fmdOf c = some (h, op, ops, false, sub, free) ∧ h.slot = some k ∧ listens s = true ∧
    (sessAt s k).valid = true ∧ seqOk (sessAt s k) h.seq = true ∧ cached s k h.tag op ops = none ∧ h.tag ≠ 0xFFFF ∧
    serves s op sub = true ∧ (free = true ∨ isFrozen s 0 (reqId 3 k 0) = false) ∧
    sessionCells (noteMessage s k h) k (8 + ops.length) = some (u, x)

/-- The command is answered with a result and a payload: the reply is the newest, it is cached unless BUSY, and it is
counted (R536, R540, R549, R553). -/
def Answers (c : Instr) (s t : State) (k : Nat) (r : Res) (pl : List Byte) : Prop :=
  ∀ h op ops bad sub free, fmdOf c = some (h, op, ops, bad, sub, free) →
    t.mgt.replies = { session := k, tag := h.tag, opcode := op, result := r.code, attn := attnByte t, payload := pl } ::
      s.mgt.replies ∧
    (r ≠ .busy → (sessAt t k).cache.head? = some ⟨h.tag, op, crc32c ops, r.code, pl⟩) ∧
    t.mgt.fmdCnt = bumpAt s.mgt.fmdCnt (if r = .busy then 4 else 2) 1 ∧ (sessAt t k).lastAt = s.now ∧
    (sessAt t k).valid = true

/-- A port without what credits for buffer space change in it (R352, R377). -/
def creditless (P : Port) : Port := { P with grantRx := [], creditDue := none, withheld := [] }

/-- `t` is `v` but for what every request changes: the reply, the session's own record, the request counters, the
session's cells in instance 0 with the levels and credits that follow them, and queued trace records. -/
structure Settled (k : Nat) (v t : State) : Prop where
  rest : t = { v with
    mgt := { v.mgt with replies := t.mgt.replies, sessions := t.mgt.sessions, fmdCnt := t.mgt.fmdCnt }
    fab := { v.fab with bpm := t.fab.bpm, ports := t.fab.ports, nextAlloc := t.fab.nextAlloc }
    attn := t.attn, freeCtr := t.freeCtr, dbg := { v.dbg with queue := t.dbg.queue, drops := t.dbg.drops } }
  attn : t.attn ||| aFault = v.attn ||| aFault
  pools : ∀ i, i ≠ 0 → bpmAt t i = bpmAt v i
  ports : ∀ p, creditless (portAt t p) = creditless (portAt v p)
  sessions : ∀ j, j ≠ k → sessAt t j = sessAt v j

/-- A row of R539 turns the request away: the reply alone, and nothing else but the session's record. -/
def TurnedAway (c : Instr) (s t : State) (k : Nat) (r : Res) : Prop :=
  ∀ h op ops bad sub free, fmdOf c = some (h, op, ops, bad, sub, free) →
    t.mgt.replies = { session := k, tag := h.tag, opcode := op, result := r.code, attn := attnByte s } :: s.mgt.replies ∧
    (r ≠ .busy → (sessAt t k).cache.head? = some ⟨h.tag, op, crc32c ops, r.code, []⟩) ∧
    t.mgt.fmdCnt = (if r = .busy then bumpAt s.mgt.fmdCnt 4 1 else s.mgt.fmdCnt) ∧
    (∀ j, j ≠ k → sessAt t j = sessAt s j) ∧
    t = { s with mgt := { s.mgt with replies := t.mgt.replies, sessions := t.mgt.sessions, fmdCnt := t.mgt.fmdCnt }, dbg := t.dbg }

/-- The SPDM requests (R526): header, bytes, whether SPDM sends the message unsecured, and the response. -/
def spdmOf (s : State) : Instr → Option (FmdReq × List Byte × Bool × List Byte)
  | .spdm h m => some (h, Config.spdmRequest (spdmCode m).1 (spdmCode m).2, plainSpdm m, spdmAnswer s m)
  | .keyExchange h id => some (h, Config.spdmRequest 0xE4 id, true,
      if (freeSlot s).isSome then Config.spdmResponse .keyExchangeRsp (beBytes 4 id) else Config.spdmResponse .sessionLimitExceeded [])
  | .getMeasurements h i => some (h, Config.spdmRequest 0xE0 i, true,
      if i = 0xFF then Config.spdmResponse .measurements (measIndices.flatMap (fun j => (measurement s j).getD []))
      else match measurement s i with
        | some b => Config.spdmResponse .measurements b
        | none => Config.spdmResponse .invalidRequest [])
  | _ => none

/-- A session has ended (R538): its slot is free, its loads and staged images are gone, its snapshot is released, its
checkpoint reads are closed, and the mirror session's DEST is 0. -/
structure SessionEnded (s t : State) (k : Nat) : Prop where
  slot : (sessAt t k).valid = false
  others : ∀ j, j ≠ k → sessAt t j = sessAt s j
  loads : ∀ l, l ∈ t.mgt.loads → l.session ≠ k
  staged : (∀ x, t.mgt.stagedFw = some x → x.session ≠ k) ∧ (∀ x, t.mgt.stagedCfg = some x → x.session ≠ k)
  snap : ∀ x, t.snap = some x → x.owner ≠ k
  reads : ∀ h, h ∈ t.coll.shards → ∀ r, r ∈ h.reads → r.1 ≠ k
  mirror : s.fab.mirrorSession = some k → s.fab.mirrorDest = 2 → t.fab.mirrorDest = 0
  kept : t.comp = s.comp ∧ t.tops = s.tops ∧ t.pwr = s.pwr ∧ t.mgt.st = s.mgt.st ∧ t.coll.colls = s.coll.colls

end Sys2Proof.Machine

open Sys2Proof Sys2Proof.Machine

/-! ### The queue of commands, time and reset -/

/-- A step takes the command at the front of the queue and runs it on the rest (the block's own protocol). -/
def Obligations.StepRunsFront : Prop :=
  ∀ (c : Instr) (rest : List Instr) (s : State),
    step { s with pending := c :: rest } = exec c { s with pending := rest }

/-- A step on an empty queue is one nanosecond of the module's clock (the model's choice, assumption 4; R301 bounds
the slew): nothing in memory, no register of a queue and no table of a Topiary changes. -/
def Obligations.IdleStepTicks : Prop :=
  ∀ s : State, s.pending = [] →
    ∃ t, step s = .next t ∧ t.now = s.now + 1 ∧ t.fabricTime ≤ s.fabricTime + 2 ∧ s.fabricTime ≤ t.fabricTime ∧
      t.pending = [] ∧ t.comp.mem = s.comp.mem ∧ (∀ q, regsOf t q = regsOf s q) ∧ t.tops = s.tops ∧ t.mgt = s.mgt ∧
      t.coll = s.coll ∧ t.pwr = s.pwr ∧ t.integ = s.integ

/-- What reset leaves: BOOT, no session, no snapshot, no Topiary, memory of zeros, idle unbound queues, and the
attention bits clear (R22, R291, R411, R509, R550). -/
def Obligations.ResetLeaves : Prop :=
  State.reset.pending = [] ∧ State.reset.mgt.st = .boot ∧ State.reset.attn = 0 ∧ State.reset.tops = [] ∧
  State.reset.snap = none ∧ (∀ k, State.reset.comp.mem.get k = 0) ∧
  (∀ q, q < 64 → (queueAt State.reset q).st = .idle ∧ (queueAt State.reset q).bound = false ∧
    (queueAt State.reset q).ring = [] ∧ ∀ i, sreg (queueAt State.reset q) i = 0)

/-- The reset state is well formed. -/
def Obligations.ResetIsOk : Prop := State.reset.Ok

/-- Whatever command waits, a step keeps memory in canonical form and all 64 queues. -/
def Obligations.StepKeepsOk : Prop :=
  ∀ s t : State, s.Ok → step s = .next t → t.Ok

/-- No command touches the queue of waiting commands: first in, first out is the sender's order. -/
def Obligations.CommandsKeepTheQueue : Prop :=
  ∀ (c : Instr) (s t : State), exec c s = .next t → s.Ok → t.pending = s.pending

/-! ### Words of command queues: scalar state -/

/-- The scalar integer words (R245) and the comparators (R248). SMOV, SADD, SSUB, SMUL, SAND, SOR, SXOR, SSHL, SSHR, SSRA
and CGET: s[SD] takes the value, armed comparators drive their predicates, the queue moves past the word and nothing else
changes. CSET, PSET, CMPARM and CMPOFF: counters, predicates and comparators. -/
def Obligations.ScalarWordsAct : Prop :=
  (∀ (c : Instr) (q op : Nat) (f : Queue → Word → Word32) (s : State) (w : Word),
      aluOf c = some (q, op, f) → Issues s q op w →
      ∃ t, exec c s = .next t ∧
        (let Q := queueAt s q
         let s' := Q.s.set (wR3 w) (f Q w)
         regsOf t q = ⟨s', Q.c, (driveComparators { Q with s := s' }).p, Q.h, Q.k, Q.digests⟩) ∧
        Moved s t q ∧ ScalarFrame s t q) ∧
  (∀ q s w, Issues s q 0x06 w →
    ∃ t, exec (.pset q) s = .next t ∧
      (let Q := queueAt s q
       let i := field w 49 47
       regsOf t q = ⟨Q.s, Q.c, Q.p.set i (field w 0 0 == 1), Q.h,
         Q.k.map (fun k => if k.armed && k.pred == i then { k with armed := false } else k), Q.digests⟩) ∧
      Moved s t q ∧ ScalarFrame s t q) ∧
  (∀ q s w, Issues s q 0x12 w →
    ∃ t, exec (.cset q) s = .next t ∧
      (let Q := queueAt s q
       let c' := Q.c.set (field w 49 47) (operand2 Q w)
       regsOf t q = ⟨Q.s, c', (driveComparators { Q with c := c' }).p, Q.h, Q.k, Q.digests⟩) ∧
      Moved s t q ∧ ScalarFrame s t q) ∧
  (∀ q s w, Issues s q 0x04 w →
    ∃ t, exec (.cmparm q) s = .next t ∧
      (let Q := queueAt s q
       let k : Comparator := ⟨true, field w 48 48 == 1, if field w 48 48 = 1 then field w 47 44 else field w 46 44,
         field w 43 41, field w 40 38, wImm w⟩
       let ks := (Q.k.map (fun c => if c.armed && c.pred == k.pred then { c with armed := false } else c)).set
         (field w 50 49) k
       regsOf t q = ⟨Q.s, Q.c, (driveComparators { Q with k := ks }).p, Q.h, ks, Q.digests⟩) ∧
      Moved s t q ∧ ScalarFrame s t q) ∧
  (∀ q s w, Issues s q 0x05 w →
    ∃ t, exec (.cmpoff q) s = .next t ∧
      (let Q := queueAt s q
       regsOf t q = ⟨Q.s, Q.c, Q.p, Q.h, Q.k.modify (field w 50 49) (fun c => { c with armed := false }), Q.digests⟩) ∧
      Moved s t q ∧ ScalarFrame s t q)

/-- SFADD, SFSUB, SFMUL, SFDIV and SFSQRT (R246): s[SD] takes the rounded result, and its flags go to the FPFLAGS
of every group of the gang and of no other. -/
def Obligations.ScalarFpWordsWriteSdAndFlags : Prop :=
  ∀ (c : Instr) (q op : Nat) (f : Nat → Nat → Nat × FpFlags) (s : State) (w : Word),
    fpOf c = some (q, op, f) → Issues s q op w →
    ∃ t, exec c s = .next t ∧
      (let Q := queueAt s q
       let r := f (sreg Q (wR2 w)).toNat (operand2 Q w).toNat
       let s' := Q.s.set (wR3 w) (BitVec.ofNat 32 r.1)
       regsOf t q = ⟨s', Q.c, (driveComparators { Q with s := s' }).p, Q.h, Q.k, Q.digests⟩ ∧
       (∀ i, lookupD t.comp.fpVec i {} = if i ∈ (gangGroups Q).map (128 * Q.die + ·)
          then (lookupD s.comp.fpVec i {}).setFlags r.2 Q.job else lookupD s.comp.fpVec i {})) ∧
      Moved s t q ∧ KeepsOthers s t q ∧ KeepsOutside s t ∧ t.comp.mem = s.comp.mem ∧
      t.comp.jobFlags = s.comp.jobFlags ∧ t.comp.fpMtx = s.comp.fpMtx ∧ t.comp.fpRde = s.comp.fpRde

/-- NOP, END, BR, DBNZ and SEG_RUN (R240, R247, R286): where the queue stands next. -/
def Obligations.ControlWordsMoveTheQueue : Prop :=
  (∀ q s w, Issues s q 0x00 w →
    ∃ t, exec (.nop q) s = .next t ∧ regsOf t q = regsOf s q ∧ Moved s t q ∧ ScalarFrame s t q) ∧
  (∀ q s w, Issues s q 0x01 w →
    ∃ t, exec (.endProg q) s = .next t ∧ regsOf t q = regsOf s q ∧ (queueAt t q).inSeg = false ∧
      (queueAt t q).ring = (queueAt s q).ring.tail ∧ (queueAt t q).head = ((queueAt s q).head + 1) % 2 ^ 14 ∧
      ((queueAt s q).ring.tail = [] → (queueAt t q).st = .idle) ∧ ScalarFrame s t q) ∧
  (∀ q s w, Issues s q 0x02 w →
    let Q := queueAt s q
    let tgt := (Q.pc : Int) + wOff w
    0 ≤ tgt → tgt.toNat < (segWords s Q.job Q.seg).length →
    ∃ t, exec (.br q) s = .next t ∧ regsOf t q = regsOf s q ∧ (queueAt t q).pc = tgt.toNat ∧
      (queueAt t q).inSeg = Q.inSeg ∧ (queueAt t q).seg = Q.seg ∧ (queueAt t q).ring = Q.ring ∧ ScalarFrame s t q) ∧
  (∀ q s w, Issues s q 0x03 w →
    let Q := queueAt s q
    let v := Q.c.getD (wCnt w) 0 - 1
    let c' := Q.c.set (wCnt w) v
    let tgt := (Q.pc : Int) + wOff w
    (v ≠ 0 → 0 ≤ tgt ∧ tgt.toNat < (segWords s Q.job Q.seg).length) →
    ∃ t, exec (.dbnz q) s = .next t ∧
      regsOf t q = ⟨Q.s, c', (driveComparators { Q with c := c' }).p, Q.h, Q.k, Q.digests⟩ ∧
      (if v = 0 then Moved s t q else (queueAt t q).pc = tgt.toNat ∧ (queueAt t q).inSeg = Q.inSeg ∧
        (queueAt t q).ring = Q.ring) ∧ ScalarFrame s t q) ∧
  (∀ q s w, Issues s q 0xE0 w →
    ∃ t, exec (.segRun q) s = .next t ∧ regsOf t q = regsOf s q ∧ (queueAt t q).inSeg = true ∧
      (queueAt t q).seg = field w 11 0 ∧ (queueAt t q).pc = 0 ∧ (queueAt t q).ring = (queueAt s q).ring ∧
      ScalarFrame s t q)

/-- An armed comparator holds its predicate at (source COND BOUND) (R248): true of whatever comparators are armed, as
long as no two armed ones name one predicate, which arming (R248) sees to. -/
def Obligations.ArmedComparatorDrivesItsPredicate : Prop :=
  ∀ (Q : Queue) (i : Nat) (k : Comparator), Q.k[i]? = some k → k.armed = true → k.pred < Q.p.length →
    (∀ j x, Q.k[j]? = some x → x.armed = true → x.pred = k.pred → j = i) →
    (driveComparators Q).p[k.pred]? = some (condHolds k.cond (compSource Q k) k.bound)

/-- FLAGS_RD, FLAGS_CLR and DIGEST_RD (R272, R273). -/
def Obligations.FlagAndDigestWords : Prop :=
  (∀ q s w, Issues s q 0x1C w →
    ∃ t, exec (.flagsRd q) s = .next t ∧
      (let Q := queueAt s q
       let f : FpFlags := if Q.qtype = .mtx then (lookupD s.comp.fpMtx Q.die {}).flags
         else (gangGroups Q).foldl (fun f g => f ||| (lookupD s.comp.fpVec (128 * Q.die + g) {}).flags) 0
       let s' := Q.s.set (wR3 w) (f.setWidth 32)
       regsOf t q = ⟨s', Q.c, (driveComparators { Q with s := s' }).p, Q.h, Q.k, Q.digests⟩) ∧
      Moved s t q ∧ ScalarFrame s t q) ∧
  (∀ q s w, Issues s q 0x1D w →
    ∃ t, exec (.flagsClr q) s = .next t ∧ regsOf t q = regsOf s q ∧
      (let Q := queueAt s q
       let clear (r : FpReg) : FpReg := { r with flags := r.flags &&& ~~~(BitVec.ofNat 8 (field w 7 0)) }
       if Q.qtype = .mtx then
         t.comp.fpVec = s.comp.fpVec ∧ ∀ d, lookupD t.comp.fpMtx d {} =
           if d = Q.die then clear (lookupD s.comp.fpMtx d {}) else lookupD s.comp.fpMtx d {}
       else t.comp.fpMtx = s.comp.fpMtx ∧ ∀ i, lookupD t.comp.fpVec i {} =
         if i ∈ (gangGroups Q).map (128 * Q.die + ·) then clear (lookupD s.comp.fpVec i {}) else lookupD s.comp.fpVec i {}) ∧
      Moved s t q ∧ KeepsOthers s t q ∧ KeepsOutside s t ∧ t.comp.mem = s.comp.mem) ∧
  (∀ q s w, Issues s q 0x1E w →
    ∃ t, exec (.digestRd q) s = .next t ∧
      (let Q := queueAt s q
       let d := Q.digests.getD (field w 3 0) 0
       let s1 := Q.s.set (wR3 w) (BitVec.ofNat 32 d)
       (regsOf t q).s = s1.set ((wR3 w + 1) % 16) (BitVec.ofNat 32 (d >>> 32)) ∧
       (regsOf t q).digests = Q.digests.set (field w 3 0) 0 ∧ (regsOf t q).c = Q.c ∧ (regsOf t q).h = Q.h) ∧
      Moved s t q ∧ ScalarFrame s t q)

/-- HSET, HOFF and HADD (R252): handle registers alone. -/
def Obligations.HandleWords : Prop :=
  (∀ q s w, Issues s q 0x20 w →
    ∃ t, exec (.hset q) s = .next t ∧
      regsOf t q = { regsOf s q with h := (queueAt s q).h.set (wR3 w) ⟨(wImm w).setWidth 12, 0⟩ } ∧
      Moved s t q ∧ ScalarFrame s t q) ∧
  (∀ q s w, Issues s q 0x21 w →
    ∃ t, exec (.hoff q) s = .next t ∧
      regsOf t q = { regsOf s q with h := (queueAt s q).h.modify (wR3 w) (fun h => ⟨h.handle, wImm w⟩) } ∧
      Moved s t q ∧ ScalarFrame s t q) ∧
  (∀ q s w, Issues s q 0x22 w →
    ∃ t, exec (.hadd q) s = .next t ∧
      regsOf t q = { regsOf s q with
        h := (queueAt s q).h.modify (wR3 w) (fun h => ⟨h.handle, h.offset + sreg (queueAt s q) (wR2 w)⟩) } ∧
      Moved s t q ∧ ScalarFrame s t q)

/-- SLD reads one element into s[SD]; SST writes s[SB] to one element and to no other byte (R246). -/
def Obligations.ScalarLoadAndStore : Prop :=
  (∀ q s w x, Issues s q 0x1A w → elementReady s q w false x →
    ∃ t, exec (.sld q) s = .next t ∧
      (let Q := queueAt s q
       let s' := Q.s.set (wR3 w) (BitVec.ofNat 32 (readElem s Q.job x (coordsOf x.sizes (wImm w).toNat)))
       regsOf t q = ⟨s', Q.c, (driveComparators { Q with s := s' }).p, Q.h, Q.k, Q.digests⟩) ∧
      Moved s t q ∧ ScalarFrame s t q) ∧
  (∀ q s w x, s.Ok → Issues s q 0x1B w → elementReady s q w true x →
    let Q := queueAt s q
    let va := (elemAddr x (coordsOf x.sizes (wImm w).toNat)).1
    ∃ t, exec (.sst q) s = .next t ∧ (regsOf t q).s = Q.s ∧ (regsOf t q).c = Q.c ∧ (regsOf t q).h = Q.h ∧
      t.comp.mem = (writeVAs s Q.job va (leBytes 4 (sreg Q (wR1 w)).toNat)).comp.mem ∧
      (∀ key, (∀ j : Nat, j < 4 → xlate s Q.job (va + j) ≠ some key) → t.comp.mem.get key = s.comp.mem.get key) ∧
      Moved s t q ∧ KeepsOthers s t q ∧ KeepsOutside s t ∧ KeepsEngines s t)

/-! ### Words of command queues: checks, guards and work -/

/-- A word that its guard turns off changes nothing and the queue moves past it; a guarded CHAIN skips to the word after
its CRUN (R239). CRUN carries no guard. -/
def Obligations.GuardedOffWordsDoNothing : Prop :=
  (∀ c q op s w, wordOf c = some (q, op) → op ≠ 0x70 → op ≠ 0x72 → canIssue s q op = some w →
    wordCheck s (queueAt s q) w = none → guardOff (queueAt s q) w = true →
    ∃ t, exec c s = .next t ∧ regsOf t q = regsOf s q ∧ Moved s t q ∧ ScalarFrame s t q) ∧
  (∀ q s w body i, canIssue s q 0x70 = some w → wordCheck s (queueAt s q) w = none → guardOff (queueAt s q) w = true →
    chainBody (segWords s (queueAt s q).job (queueAt s q).seg) (queueAt s q).pc = some (body, i) →
    ∃ t, exec (.chain q) s = .next t ∧ regsOf t q = regsOf s q ∧ (queueAt t q).pc = i + 1 ∧
      (queueAt t q).inSeg = (queueAt s q).inSeg ∧ ScalarFrame s t q)

/-- A word that fails a check of the word itself, or whose operands fail a check (a vector or matrix word,
DMA_COPY, the streams of a CHAIN), is refused: no part of it executes and the queue halts at it with that check's result as cause (R240, R241,
R251, R253, R254, R294). -/
def Obligations.RefusedWordsHaltTheQueue : Prop :=
  (∀ c q op s w r, wordOf c = some (q, op) → canIssue s q op = some w → wordCheck s (queueAt s q) w = some r →
    ∃ t, exec c s = .next t ∧ (queueAt t q).st = .halted ∧ (queueAt t q).cause = some r ∧ Stands s t q ∧
      regsOf t q = regsOf s q ∧ ScalarFrame s t q) ∧
  (∀ c q op s w r, wordOf c = some (q, op) → 0x40 ≤ op → op ≤ 0x58 → Issues s q op w →
    vecSetup s (queueAt s q) w = .error r →
    ∃ t, exec c s = .next t ∧ (queueAt t q).st = .halted ∧ (queueAt t q).cause = some r ∧ Stands s t q ∧
      regsOf t q = regsOf s q ∧ ScalarFrame s t q) ∧
  (∀ c q op s w r, wordOf c = some (q, op) → 0x60 ≤ op → op ≤ 0x62 → Issues s q op w →
    matrixSetup s q (queueAt s q) w = .error r →
    ∃ t, exec c s = .next t ∧ (queueAt t q).st = .halted ∧ (queueAt t q).cause = some r ∧ Stands s t q ∧
      regsOf t q = regsOf s q ∧ ScalarFrame s t q) ∧
  (∀ q s w r, Issues s q 0xC0 w → dmaTensors s (queueAt s q) w = .error r →
    ∃ t, exec (.dmaCopy q) s = .next t ∧ (queueAt t q).st = .halted ∧ (queueAt t q).cause = some r ∧ Stands s t q ∧
      regsOf t q = regsOf s q ∧ ScalarFrame s t q) ∧
  (∀ q s w body i ch r, Issues s q 0x70 w →
    chainBody (segWords s (queueAt s q).job (queueAt s q).seg) (queueAt s q).pc = some (body, i) →
    decodeChain false w body = some ch → chainStreams s (queueAt s q) ch = .error r →
    ∃ t, exec (.chain q) s = .next t ∧ (queueAt t q).st = .halted ∧ (queueAt t q).cause = some r ∧ Stands s t q ∧
      regsOf t q = regsOf s q ∧ ScalarFrame s t q)

/-- Vector words VCOPY to VDOT, and CHAIN with CRUN, begin: the gang holds the decoded work, and no element has been
computed (R236, R237, R254, R258). -/
def Obligations.VectorWordsBegin : Prop :=
  (∀ c q op s w wk, wordOf c = some (q, op) → 0x40 ≤ op → op ≤ 0x58 → Issues s q op w →
    vecSetup s (queueAt s q) w = .ok wk →
    ∃ t, exec c s = .next t ∧ (queueAt t q).work = some wk ∧ wk.batch = 0 ∧ (queueAt t q).st = .run ∧ Stands s t q ∧
      regsOf t q = regsOf s q ∧ ScalarFrame s t q) ∧
  (∀ q s w body i ch, Issues s q 0x70 w →
    chainBody (segWords s (queueAt s q).job (queueAt s q).seg) (queueAt s q).pc = some (body, i) →
    decodeChain false w body = some ch → (chainStreams s (queueAt s q) ch).toOption.isSome = true →
    ∃ t, exec (.chain q) s = .next t ∧ (queueAt t q).chain = some ch ∧ (queueAt t q).pc = i ∧
      regsOf t q = regsOf s q ∧ ScalarFrame s t q) ∧
  (∀ q s w wk, canIssue s q 0x72 = some w → wordCheck s (queueAt s q) w = none → crunSetup s (queueAt s q) w = .ok wk →
    ∃ t, exec (.crun q) s = .next t ∧ (queueAt t q).work = some wk ∧ wk.isChain = true ∧ Stands s t q ∧
      regsOf t q = regsOf s q ∧ ScalarFrame s t q)

/-- MMUL, MMAC and TLOAD join their die's Laurel list, and DMA_COPY its channel; a matrix word of an MTX queue keeps its
queue at it, and every other queue goes on (R237, R265, R266, R419). -/
def Obligations.MatrixAndCopyWordsDispatch : Prop :=
  (∀ c q op s w wk, wordOf c = some (q, op) → 0x60 ≤ op → op ≤ 0x62 → Issues s q op w →
    matrixSetup s q (queueAt s q) w = .ok wk →
    ∃ t, exec c s = .next t ∧ t.comp.laurel = s.comp.laurel.modify (queueAt s q).die (· ++ [wk]) ∧ wk.pass = 0 ∧
      (if wk.fromMtx then Stands s t q ∧ (queueAt t q).mtxBusy = true else Moved s t q) ∧
      regsOf t q = regsOf s q ∧ KeepsOthers s t q ∧ KeepsOutside s t ∧ t.comp.mem = s.comp.mem ∧
      t.comp.chans = s.comp.chans ∧ t.comp.jobFlags = s.comp.jobFlags) ∧
  (∀ q s w d x, Issues s q 0xC0 w → dmaTensors s (queueAt s q) w = .ok (d, x) →
    let Q := queueAt s q
    ((chanAt s (chanOf Q q)).copies.filter (fun k => k.job == Q.job)).length < 64 →
    ∃ t k, exec (.dmaCopy q) s = .next t ∧
      (chanAt t (chanOf Q q)).copies = (chanAt s (chanOf Q q)).copies ++ [k] ∧
      k.queue = q ∧ k.job = Q.job ∧ k.src = x ∧ k.dst = d ∧ k.block = 0 ∧
      k.flag = (if field w 42 42 = 1 then some (field w 41 34) else none) ∧
      (∀ i, i ≠ chanOf Q q → chanAt t i = chanAt s i) ∧ Moved s t q ∧
      regsOf t q = regsOf s q ∧ KeepsOthers s t q ∧ KeepsOutside s t ∧ t.comp.mem = s.comp.mem ∧
      t.comp.laurel = s.comp.laurel ∧ t.comp.jobFlags = s.comp.jobFlags)

/-- A batch of a queue's vector work or chain that meets no fault, no error and no sampling: its flags are in the FPFLAGS
of the group that ran it, and the work stands at its next batch or is complete. A chain's results are in memory; those of
a single instruction are kept and go to memory with its last batch (R94, R228, R236, R255). -/
def Obligations.CleanBatchCommits : Prop :=
  ∀ q s wk, let Q := queueAt s q
    Q.work = some wk → Q.bound = true → Q.st = .run → batchHeld s q Q.job 0 = false → sampleD s.integ = none →
    (∀ k, k < 8 → unitOut s 1 Q.die (8 * batchGroup Q wk + k) = false) →
    let o := workBatch s Q wk
    let ws := wk.held ++ o.writes
    preCheck s Q.job Q.die .group (workAccs s Q wk o) = .ok →
    ∃ t, exec (.hawthornBatch (.queue q) .clean) s = .next t ∧
      t.comp.mem = (if wk.isChain = true ∨ batchCount wk ≤ wk.batch + 1 then (writeOps s Q.job ws).comp.mem
        else s.comp.mem) ∧
      lookupD t.comp.fpVec (128 * Q.die + batchGroup Q wk) {} =
        (lookupD s.comp.fpVec (128 * Q.die + batchGroup Q wk) {}).setFlags o.flags Q.job ∧
      (if batchCount wk ≤ wk.batch + 1 then (queueAt t q).work = none ∧ Moved s t q
       else Stands s t q ∧ ∃ k, (queueAt t q).work = some k ∧ k.batch = wk.batch + 1 ∧ k.word = wk.word ∧
         k.held = (if wk.isChain then [] else ws)) ∧
      KeepsOthers s t q ∧ t.fab = s.fab ∧ t.coll = s.coll ∧ t.mgt = s.mgt ∧ t.pwr = s.pwr ∧ t.tops = s.tops ∧
      t.comp.jobFlags = s.comp.jobFlags ∧ t.comp.laurel = s.comp.laurel ∧ t.comp.chans = s.comp.chans

/-- A block pass that meets no fault, no error and no sampling: its writes are in memory, the pass is counted, and after
the last pass the work leaves the list with its flag set (R220, R233, R265). -/
def Obligations.CleanBlockPassCommits : Prop :=
  ∀ die s i wk, nextLaurel s die = some (i, wk) → passHeld s die = false → sampleD s.integ = none →
    let o := laurelPass s wk.job wk
    preCheck s wk.job die .laurel o.accs = .ok →
    ∃ t, exec (.laurelBlockPass die .clean) s = .next t ∧
      t.comp.mem = (writeOps s wk.job o.writes).comp.mem ∧
      lookupD t.comp.mtxPasses die 0 = (lookupD s.comp.mtxPasses die 0 + 1) % 2 ^ 32 ∧
      (if (if o.last then wk.pass + 1 else wk.pass) < wk.total then t.comp.laurel =
          s.comp.laurel.modify die (fun ws => ws.modify i (fun w => { w with
            pass := if o.last then wk.pass + 1 else wk.pass, kLo := o.kLo, acc := o.acc, tileOff := o.tileOff
            fed := wk.fed ++ o.writes.filter (·.slot.isSome) }))
       else t.comp.laurel = s.comp.laurel.modify die (fun ws => ws.eraseIdx i) ∧
         (∀ f, wk.flag = some f → jobFlag t wk.job f = true)) ∧
      t.fab = s.fab ∧ t.coll = s.coll ∧ t.mgt = s.mgt ∧ t.pwr = s.pwr ∧ t.tops = s.tops ∧ t.comp.chans = s.comp.chans ∧
      t.comp.fpVec = s.comp.fpVec

/-- A block of a DMA copy that meets no fault and needs no bounce buffer: its bytes are moved, and the copy stands at its
next block or is complete with its flag set (R266, R419). DMA_RUN_AHEAD prefetches one more word and changes no data
(R420). -/
def Obligations.DmaBlockMovesItsBytes : Prop :=
  (∀ die ch s k, let i := 32 * die + ch
    let req := reqId 2 i k.job
    nextCopy s (chanAt s i) = some k → isFrozen s (1 + die) req = false →
    (bpmAt s (1 + die)).waiting.any (fun w => w.1 == req) = false →
    preCheck s k.job die .dma (blockAccs k k.block) = .ok → (blockAccs k k.block).any (pageMoving s k.job) = false →
    bounces s k = false →
    ∃ t, exec (.dmaBlock die ch .clean none) s = .next t ∧ t.comp.mem = (moveBlock s k none).comp.mem ∧
      (if k.block + 1 < copyBlocks k.src then (chanAt t i).copies =
          updateFirst (fun x => x == k) (fun x => { x with block := x.block + 1, fed := x.fed ++ feedsOf (blockWrites s k) }) (chanAt s i).copies
       else (chanAt t i).copies = (chanAt s i).copies.erase k ∧ (∀ f, k.flag = some f → jobFlag t k.job f = true)) ∧
      (∀ j, j ≠ i → chanAt t j = chanAt s j) ∧ KeepsOutside s t ∧ t.comp.laurel = s.comp.laurel ∧
      t.comp.fpVec = s.comp.fpVec) ∧
  (∀ q s w, let Q := queueAt s q
    Q.bound = true → Q.qtype = .dma → Q.st = .run → Q.runAhead < 64 →
    ((wordsAhead s q).take (Q.runAhead + 2)).any stopsRunAhead = false → (wordsAhead s q)[Q.runAhead + 1]? = some w →
    ∃ t, exec (.dmaRunAhead q) s = .next t ∧ (queueAt t q).runAhead = Q.runAhead + 1 ∧ Stands s t q ∧
      regsOf t q = regsOf s q ∧ ScalarFrame s t q)

/-- FLAG_SET, FLAG_SET_EFFECT and FLAG_CLEAR (R237, R268): a set is issued and takes effect later, the queue
going on or waiting for it (which of the two is a free value, assumption 7); a clear takes effect at once; no other flag
changes. FLAG_WAIT, its end and its deadline (R269, R296): a flag that is 1 lets the queue pass;
else the queue waits DL × 8 ns times the stretch factor; at the end of that time it halts with DEADLINE. -/
def Obligations.FlagsAreSetClearedAndAwaited : Prop :=
  (∀ q s w, Issues s q 0xA0 w →
    ∃ t, exec (.flagSet q) s = .next t ∧ (queueAt t q).flagSets = (queueAt s q).flagSets ++ [wYFlag w] ∧
      (Moved s t q ∨
        (Stands s t q ∧ (queueAt t q).st = .wait ∧ (queueAt t q).wait = .flagSet (wYFlag w))) ∧
      regsOf t q = regsOf s q ∧ ScalarFrame s t q) ∧
  (∀ q s f rest, (queueAt s q).flagSets = f :: rest →
    ∃ t, exec (.flagSetEffect q) s = .next t ∧ (queueAt t q).flagSets = rest ∧
      jobFlag t (queueAt s q).job f = true ∧
      (∀ j g, ¬(j = (queueAt s q).job ∧ g = f) → jobFlag t j g = jobFlag s j g) ∧
      (∀ g, (queueAt s q).wait = .flagSet g → rest = [] → (queueAt t q).wait = .none ∧ Moved s t q) ∧
      ((∀ g, (queueAt s q).wait ≠ .flagSet g) → Stands s t q) ∧
      regsOf t q = regsOf s q ∧ KeepsOthers s t q ∧ KeepsOutside s t ∧ t.comp.mem = s.comp.mem ∧
      t.comp.fpVec = s.comp.fpVec ∧ t.comp.chans = s.comp.chans ∧ t.comp.laurel = s.comp.laurel) ∧
  (∀ q s w, Issues s q 0xA1 w →
    ∃ t, exec (.flagClear q) s = .next t ∧ jobFlag t (queueAt s q).job (wYFlag w) = false ∧
      (∀ j g, ¬(j = (queueAt s q).job ∧ g = wYFlag w) → jobFlag t j g = jobFlag s j g) ∧
      Moved s t q ∧ regsOf t q = regsOf s q ∧ KeepsOthers s t q ∧ KeepsOutside s t ∧ t.comp.mem = s.comp.mem ∧
      t.comp.fpVec = s.comp.fpVec ∧ t.comp.chans = s.comp.chans ∧ t.comp.laurel = s.comp.laurel) ∧
  (∀ q s w, Issues s q 0xA2 w →
    ∃ t, exec (.flagWait q) s = .next t ∧
      (if jobFlag s (queueAt s q).job (wYFlag w) then Moved s t q
       else Stands s t q ∧ (queueAt t q).st = .wait ∧ (queueAt t q).wait = .flag (wYFlag w) ∧
         (queueAt t q).deadline = wDL w * 8 * s.stretchQ / 4) ∧
      regsOf t q = regsOf s q ∧ ScalarFrame s t q) ∧
  (∀ q s f, (queueAt s q).st = .wait → (queueAt s q).wait = .flag f → jobFlag s (queueAt s q).job f = true →
    q < s.comp.queues.length →
    ∃ t, exec (.flagWaitSatisfied q) s = .next t ∧ (queueAt t q).wait = .none ∧ Moved s t q ∧
      regsOf t q = regsOf s q ∧ ScalarFrame s t q) ∧
  (∀ q s f, (queueAt s q).st = .wait → (queueAt s q).wait = .flag f → (queueAt s q).deadline = 0 →
    q < s.comp.queues.length →
    ∃ t, exec (.flagWaitDeadline q) s = .next t ∧ (queueAt t q).st = .halted ∧
      (queueAt t q).cause = some .deadline ∧ Stands s t q ∧ regsOf t q = regsOf s q ∧ ScalarFrame s t q)

/-- FENCE and FENCE_COMPLETE (R270): a fence waits while work of its queue is outstanding. -/
def Obligations.FencesWaitForOutstandingWork : Prop :=
  (∀ q s w, Issues s q 0xA3 w →
    ∃ t, exec (.fence q) s = .next t ∧
      (if outstanding s q then Stands s t q ∧ (queueAt t q).st = .wait ∧ (queueAt t q).wait = .fence else Moved s t q) ∧
      regsOf t q = regsOf s q ∧ ScalarFrame s t q) ∧
  (∀ q s, (queueAt s q).st = .wait → (queueAt s q).wait = .fence → outstanding s q = false → q < s.comp.queues.length →
    ∃ t, exec (.fenceComplete q) s = .next t ∧ (queueAt t q).wait = .none ∧ Moved s t q ∧
      regsOf t q = regsOf s q ∧ ScalarFrame s t q)

/-- CALL_COLL (R151, R243, R267): an ordinal absent from the table halts the queue with RANGE; an eligible ordinal's
synchronous call waits for the collective and its asynchronous call lets the queue go on; any other call waits until
the ordinal is eligible. -/
def Obligations.CallCollWaitsOrGoesOn : Prop :=
  ∀ q s w, Issues s q 0xB0 w →
    let Q := queueAt s q
    let ord := field w 31 0
    let ep := callEpochOf Q ord (Q.calls.length + 1) Q.callEpoch
    let c := collAt s Q.job ep ord
    let async := field w 50 50 == 1
    ∃ t, exec (.callColl q) s = .next t ∧ regsOf t q = regsOf s q ∧
      (if entryOf s Q.job ord = none then (queueAt t q).st = .halted ∧ (queueAt t q).cause = some .range ∧ Stands s t q
       else (queueAt t q).calls = Q.calls ++ [(ord, ep)] ∧
         (if collDone s Q.job ep ord then Moved s t q
          else if c.eligible && !c.aborted then
            (if async then Moved s t q ∧ (queueAt t q).asyncs = Q.asyncs ++ [(ord, ep, field w 49 42)]
             else Stands s t q ∧ (queueAt t q).st = .wait ∧ (queueAt t q).wait = .collective ord ep)
          else Stands s t q ∧ (queueAt t q).st = .wait ∧ (queueAt t q).wait = .eligible ord ep async (field w 49 42))) ∧
      t.comp.mem = s.comp.mem ∧ KeepsOthers s t q ∧ KeepsOutside s t

/-- PREEMPT_STOP (R421, R425): at its restart point the executor stops, its context is saved in its areas of the CONTEXT
page (R427) and counted, run-ahead is discarded, and the freed executor is handed out. -/
def Obligations.PreemptionStopsAtARestartPoint : Prop :=
  ∀ q s, (queueAt s q).st = .run → (queueAt s q).stopAsked = true → atRestartPoint (queueAt s q) = true →
    q < s.comp.queues.length →
    ∃ u, exec (.preemptStop q) s = .next (traced s (schedule u)) ∧ (queueAt u q).st = .preempted ∧
      (queueAt u q).ctxSaved = true ∧ (queueAt u q).runAhead = 0 ∧ (queueAt u q).stopAsked = false ∧
      lookupD u.comp.mmuCnt (16 * (queueAt s q).die + 9) 0 = satAdd (lookupD s.comp.mmuCnt (16 * (queueAt s q).die + 9) 0) 1 ∧
      (∀ r, regsOf u r = regsOf s r) ∧ Stands s u q ∧ KeepsOutside s u ∧
      (∀ key, (∀ a, a ∈ contextAreas s q → key < a.1 ∨ a.1 + a.2 ≤ key) → u.comp.mem.get key = s.comp.mem.get key)

/-- A tiered page's journey (R416, R417): a suspended queue's missing page gets a free frame; a dirty victim
goes home; the page that has come in is resident and clean. -/
def Obligations.TieredPagesMove : Prop :=
  (∀ q s x pg, s.comp.tierFaults.find? (fun t => t.queue == q && !t.reserved) = some x → x.pages = [pg] →
    (framesOf s x.job x.die).any (fun f => f.st == .resident pg) = false →
    (framesOf s x.job x.die).all (fun f => f.st == .free && f.heldBy.isEmpty) = true →
    framesOf s x.job x.die ≠ [] →
    ∃ t, exec (.tierFrameReserve q) s = .next t ∧
      ((framesOf t x.job x.die).head?.map (fun f => (f.st, f.heldBy))) = some (.filling pg q, [q]) ∧
      (∀ y, y ∈ t.comp.tierFaults → y = { x with reserved := true } ∨ (y ∈ s.comp.tierFaults ∧ y ≠ x)) ∧
      t.comp.mem = s.comp.mem ∧ (∀ r, regsOf t r = regsOf s r) ∧ KeepsOutside s t) ∧
  (∀ die job i s f old new q, (framesOf s job die)[i]? = some f → f.st = .writeBack old new q →
    ∃ t, exec (.tierWriteBackDone die job i) s = .next t ∧
      (framesOf t job die)[i]? = some { f with st := .filling new q, dirty := false } ∧
      t.comp.mem = (match homeKey s job old with
        | some h => s.comp.mem.copyRange (memKey 1 die (f.hbmPage * 2 ^ 21)) h (2 ^ 21)
        | none => s.comp.mem) ∧
      lookupD t.comp.mmuCnt (16 * die + 2) 0 = satAdd (lookupD s.comp.mmuCnt (16 * die + 2) 0) 1 ∧
      (∀ r, regsOf t r = regsOf s r) ∧ KeepsOutside s t) ∧
  (∀ die job i s f pg q, (framesOf s job die)[i]? = some f → f.st = .filling pg q →
    ∃ t, exec (.tierMoveInDone die job i) s = .next t ∧
      (framesOf t job die)[i]? = some { f with st := .resident pg, dirty := false, filledAt := s.now } ∧
      t.comp.mem = (match homeKey s job pg with
        | some h => s.comp.mem.copyRange h (memKey 1 die (f.hbmPage * 2 ^ 21)) (2 ^ 21)
        | none => s.comp.mem) ∧
      lookupD t.comp.mmuCnt (16 * die + 1) 0 = satAdd (lookupD s.comp.mmuCnt (16 * die + 1) 0) 1 ∧
      (∀ r, regsOf t r = regsOf s r) ∧ KeepsOutside s t)

/-! ### Units on a lane -/

/-- A unit that fails a check of its own, and units that follow a gap (R345 checks 1 to 3, R350): what is counted and
what LINK_NAK goes out. -/
def Obligations.UnitsThatFailTheLinkChecks : Prop :=
  (∀ c l p u s, unitOf c = some (l, u) → portOf s l = some p → (laneAt s l).st = .up →
    let L := laneAt s l
    let d := (u.linkSeq + 1024 - L.rxExpect) % 1024
    (unitHeaderOk u = false → ∃ t, exec c s = .next t ∧ OnlyLane s t l (nakked (counted L 1) l p 1 s.now)) ∧
    (unitHeaderOk u = true → crc32c u.payload ≠ u.crc → isLinkLocal u.typ = false →
      ∃ t, exec c s = .next t ∧ OnlyLane s t l (nakked (counted L 2) l p 2 s.now)) ∧
    (unitHeaderOk u = true → crc32c u.payload ≠ u.crc → isLinkLocal u.typ = true →
      ∃ t, exec c s = .next t ∧ OnlyLane s t l (counted L 2)) ∧
    (unitHeaderOk u = true → crc32c u.payload = u.crc → isLinkLocal u.typ = false → d ≠ 0 →
      ∃ t, exec c s = .next t ∧ OnlyLane s t l
        (if 512 ≤ d then counted L 6
         else match L.nakAt with
           | some (e, n) => if e = L.rxExpect && s.now < n + 5000 then counted L 6 else nakked (counted L 6) l p 3 s.now
           | none => nakked (counted L 6) l p 3 s.now))) ∧
  (∀ l p s, portOf s l = some p → (laneAt s l).st = .up →
    ∃ t, exec (.delimitationLost l) s = .next t ∧ OnlyLane s t l (nakked (counted (laneAt s l) 1) l p 1 s.now))

/-- An accepted unit that fails a later check is discarded on its ingress lane's counter and its credit goes back; a
MIRROR unit always fails check 5 at the latest (R345, R348, R353 to R355). -/
def Obligations.AcceptedUnitsAreDiscardedAndCounted : Prop :=
  (∀ c l p u s k, unitOf c = some (l, u) → Accepted s l p u → discardCode s p l u = some k →
    ∃ t, exec c s = .next t ∧ laneAt t l = counted (acceptedLane (laneAt s l) u s.now) k ∧
      (∀ j, j ≠ l → laneAt t j = laneAt s j) ∧
      (let P := portAt s p
       let add (g : List Nat) := g.modify (unitClass u) (fun x => (x + unitCost u) % 2 ^ 32)
       portAt t p = creditDirty s { P with usedRx := add P.usedRx, grantRx := add P.grantRx }) ∧
      (∀ j, j ≠ p → portAt t j = portAt s j) ∧ t.fab.bpm = s.fab.bpm ∧ t.coll = s.coll ∧ FabricOnly s t) ∧
  (∀ s l p u, discardCode s p l (asType 14 u) = some 7 ∨ discardCode s p l (asType 14 u) = some 8)

/-- A sequenced unit on its way to another port joins that port's output queue with its hop pointer advanced and
every other bit as it came; a frame holds packet-buffer cells of its INGRESS requester (R346, R366, R368, R373). -/
def Obligations.UnitsArePassedOn : Prop :=
  ∀ c l p u s q, unitOf c = some (l, u) → Delivered s l p u (.egress q) → (u.cell = true → slotsUsed s q < 32) →
    ∃ t, exec c s = .next t ∧ laneAt t l = acceptedLane (laneAt s l) u s.now ∧
      (∀ j, j ≠ l → laneAt t j = laneAt s j) ∧
      (portAt t q).out = (portAt s q).out ++
        [{ unit := advanceHop u, ready := s.fabricTime, alloc := if u.cell then none else some s.fab.nextAlloc
           ingress := some l }] ∧
      (∀ j, j ≠ q → (portAt t j).out = (portAt s j).out) ∧
      (u.cell = false → ∃ a, a ∈ (bpmAt t 0).allocs ∧ a.id = s.fab.nextAlloc ∧ a.req = reqId 0 p u.job) ∧
      t.coll = s.coll ∧ FabricOnly s t

/-- CREDIT, LINK_NAK and TIME that pass their checks (R303, R344, R349, R351, R352, R359). -/
def Obligations.LinkLocalUnitsAct : Prop :=
  (∀ l p u s, let v := asType 8 u
    let g (off n : Nat) := leVal (slice u.payload off n)
    portOf s l = some p → ((laneAt s l).st = .up ∨ ((laneAt s l).st = .ident ∧ (laneAt s l).peerOk = true)) →
    unitHeaderOk v = true → crc32c u.payload = u.crc → typeAllowed s l v = true →
    ∃ t, exec (.creditCell l u) s = .next t ∧ (laneAt t l).st = .up ∧
      (portAt t p).grantTx = (List.range 8).map (fun k => g (4 * k) 4) ∧
      (∀ i, i < min 4 (portAt s p).lanes →
        let a := g (32 + 2 * i) 2
        let L := laneAt s (p + i)
        (laneAt t (p + i)).retry = if natBit a 15 then
            (match L.retry.findIdx? (fun r => r.unit.linkSeq == a % 1024) with
              | some k => L.retry.drop (k + 1) | none => L.retry)
          else L.retry) ∧
      t.fab.bpm = s.fab.bpm ∧ FabricOnly s t) ∧
  (∀ l p u s i, let v := asType 9 u
    let m := p + leVal (u.payload.take 1) % 4
    let L := laneAt s m
    portOf s l = some p → (laneAt s l).st = .up → unitHeaderOk v = true → crc32c u.payload = u.crc →
    typeAllowed s l v = true →
    let from' := leVal (slice u.payload 2 2) % 1024
    let rounds := if L.roundFrom = from' then L.rounds else 0
    L.retry.findIdx? (fun r => r.unit.linkSeq == from') = some i → rounds < max 1 L.nakLimit →
    ∃ t, exec (.linkNak l u) s = .next t ∧ (laneAt t m).resend = (L.retry.drop i).map (·.unit) ∧
      (laneAt t m).rounds = rounds + 1 ∧ (laneAt t m).roundFrom = from' ∧ (laneAt t l).nakHeard = leVal (slice u.payload 1 1) ∧
      (∀ j, j ≠ l → j ≠ m → laneAt t j = laneAt s j) ∧ t.fab.ports = s.fab.ports ∧ FabricOnly s t) ∧
  (∀ l p u s, let v := asType 10 u
    let g (off n : Nat) := leVal (slice u.payload off n)
    portOf s l = some p → (laneAt s l).st = .up → unitHeaderOk v = true → crc32c u.payload = u.crc →
    typeAllowed s l v = true → keepsTime s = false →
    ∃ t, exec (.timeFrame l u) s = .next t ∧ (portAt t p).timeRx = (g 0 8, s.fabricTime) ∧
      (portAt t p).peerSched = (g 24 8, g 41 1 % 4, g 32 8) ∧ (portAt t p).peerStratum = g 40 1 ∧
      (portAt t p).timeAt = some s.now ∧ (laneAt t l).cnt = bumpAt (laneAt s l).cnt 0 1 ∧
      (∀ j, j ≠ p → portAt t j = portAt s j) ∧ t.fab.tim = s.fab.tim ∧ FabricOnly s t)

/-- Units for this module's control logic (R38): ACK and NAK_CHUNK at a producer (R441, R444), RETRACT at a consumer
(R443), the first ABORT of a key (R463), an endpoint's VOTE and a leaf's endorsement (R450), and a valid STRETCH
request (R320, R321). -/
def Obligations.ControlUnitsAct : Prop :=
  (∀ l p u s ep o i, let v := asType 3 u
    let c := collAt s u.job ep u.ordinal
    Delivered s l p v .control → epochOf s u.job u.epoch = some ep → c.aborted = false →
    answeredOut c v = some o → answering o (some p) = some i →
    ∃ t, exec (.ackFrame l u) s = .next t ∧ (collAt t u.job ep u.ordinal).outputs = (putOut c
        { o with consumers := o.consumers.modify i (fun k => { k with acked := true }) }).outputs ∧
      t.integ.cnt = bumpAt s.integ.cnt 4 1 ∧ KeepsData s t) ∧
  (∀ l p u s ep o i k, let v := asType 4 u
    let c := collAt s u.job ep u.ordinal
    let again (g : Nat) : List Outp := (putOut c { o with
      failures := o.failures + 1, engine := g, consumers := o.consumers.set i { k with sentAt := none, resends := 0 } }).outputs
    Delivered s l p v .control → epochOf s u.job u.epoch = some ep → c.aborted = false →
    answeredOut c v = some o → answering o (some p) = some i → o.consumers[i]? = some k → o.failures < 2 →
    ∃ t, exec (.nakChunk l u) s = .next t ∧
      (o.copied = true → (collAt t u.job ep u.ordinal).outputs = again o.engine ∧
        t.integ.cnt = bumpAt (bumpAt (bumpAt s.integ.cnt 6 1) 7 1) 8 1 ∧ KeepsData s t) ∧
      (∀ e, entryOf s u.job u.ordinal = some e → o.copied = false → e.kind ≠ 11 →
        (∀ g rest, engineAlts s (entryDie e) o.engine = g :: rest → (collAt t u.job ep u.ordinal).outputs = again g ∧
          t.integ.cnt = bumpAt (bumpAt (bumpAt s.integ.cnt 6 1) 7 1) 8 1 ∧ t.comp.mem = s.comp.mem ∧
          (∀ q, regsOf t q = regsOf s q) ∧ t.comp.fpVec = s.comp.fpVec ∧ t.comp.fpMtx = s.comp.fpMtx ∧
          (∀ j, j ≠ 16 * entryDie e + g → lookupD t.comp.fpRde j {} = lookupD s.comp.fpRde j {}) ∧ t.tops = s.tops ∧
          t.pwr = s.pwr ∧ t.mgt = s.mgt) ∧
        (engineAlts s (entryDie e) o.engine = [] →
          (collAt t u.job ep u.ordinal).aborted = true ∧ t.attn &&& aInteg = aInteg))) ∧
  (∀ l p u s ep, let v := asType 5 u
    let c := collAt s u.job ep u.ordinal
    let i := inpAt c u.rank u.chunk
    Delivered s l p v .control → epochOf s u.job u.epoch = some ep → c.aborted = false → i.acked = false →
    ∃ t, exec (.retractFrame l u) s = .next t ∧ collAt t u.job ep u.ordinal = putInp c { i with
        frames := i.frames.filter (fun f => !stampBefore f.inject u.inject)
        digest := (match i.digest with
          | some d => if stampBefore d.inject u.inject then none else some d
          | none => none)
        boundary := (match i.boundary with
          | some b => if stampBefore b u.inject then some u.inject else some b
          | none => some u.inject) } ∧
      t.integ = s.integ ∧ KeepsData s t) ∧
  (∀ l p u s ep e, let v := asType 6 u
    let ord := leVal (u.payload.take 4)
    let key := (leVal (slice u.payload 6 2), leVal (slice u.payload 8 8))
    let c := collAt s u.job ep ord
    Delivered s l p v .control → epochOf s u.job u.epoch = some ep → c.aborted = false → c.aborts.contains key = false →
    entryOf s u.job ord = some e →
    ∃ t, exec (.abortCell l u) s = .next t ∧ (collAt t u.job ep ord).aborted = true ∧
      (collAt t u.job ep ord).aborts = c.aborts ++ [key] ∧ (collAt t u.job ep ord).inputs = [] ∧
      t.attn &&& aFault = aFault ∧ t.integ = s.integ ∧ KeepsData s t) ∧
  (∀ l p u s, let v := asType 11 u
    let epoch := leVal (u.payload.take 8)
    let J := jobAt s u.job
    Delivered s l p v .control → pastWindow s u.job epoch = false →
    ∃ t, exec (.voteFrame l u) s = .next t ∧
      (if natBit (laneAt s l).idleWord 59 then
         (jobAt t u.job).votes = if J.windowEnded.contains epoch || J.votes.any (fun v => v.1 == epoch && v.2.1 == u.rank)
           then J.votes else J.votes ++ [(epoch, u.rank, slice u.payload 8 64 == expectedVote s u.job epoch l)]
       else (jobAt t u.job).endorsed = if J.endorsed.any (fun x => x.1 == epoch && x.2.1 == u.rank) then J.endorsed
         else J.endorsed ++ [(epoch, u.rank, slice u.payload 8 64)]) ∧
      t.coll.colls = s.coll.colls ∧ t.integ = s.integ ∧ KeepsData s t) ∧
  (∀ l p u s, let v := asType 13 u
    let g (off n : Nat) : Nat := leVal (slice u.payload off n)
    let sc := s.fab.tim.sched
    Delivered s l p v .control → sc.held.any (fun h => h.1 == g 24 4) = false →
    stretchValid sc (g 0 8) (g 8 8) (g 16 8) (g 28 1 % 4) = true → s.fabricTime + 10000 ≤ g 8 8 →
    ∃ t, exec (.stretchCell l u) s = .next t ∧ t.fab.tim.sched =
        applyStretch { sc with held := sc.held ++ [(g 24 4, g 8 8, g 28 1 % 4)] } (g 8 8) (g 28 1 % 4) ∧
      t.coll = s.coll ∧ FabricOnly s t)

/-- DATA and COUNTS frames are held for their input, DIGESTs and express cells likewise (R129, R146, R443). -/
def Obligations.CollectiveUnitsAreHeld : Prop :=
  (∀ c n l p u s q d ep e, (c = .dataFrame l u ∧ n = 0 ∨ c = .countsFrame l u ∧ n = 7) →
    let v := asType n u
    let C := collAt s u.job ep e.ordinal
    let i := inpAt C u.rank u.chunk
    Delivered s l p v (.die q d) → TakesColl s l v ep e → heldCheck s l ep e v = none → i.digest = none →
    StagingRoom s (1 + entryDie e) q u.job u.length →
    ∃ t, exec c s = .next t ∧ (inpAt (collAt t u.job ep e.ordinal) u.rank u.chunk).frames =
        i.frames.filter (fun x => x.seq != u.flowSeq) ++
          [{ seq := u.flowSeq, payload := u.payload, inject := u.inject, resend := natBit u.flags 2
             check := natField u.res 15 14 }] ∧
      (∀ r k, (r, k) ≠ (u.rank, u.chunk) → inpAt (collAt t u.job ep e.ordinal) r k = inpAt C r k) ∧
      t.integ = s.integ ∧ KeepsData s t) ∧
  (∀ l p u s q d ep e, let v := asType 2 u
    let C := collAt s u.job ep e.ordinal
    let i := inpAt C u.rank u.chunk
    Delivered s l p v (.die q d) → TakesColl s l v ep e → digestCheck s ep e v = none →
    (List.range (leVal (slice u.payload 8 2))).any (fun k => !(i.frames.any (fun f => f.seq == k))) = true →
    StagingRoom s (1 + entryDie e) q u.job u.length →
    ∃ t, exec (.digestFrame l u) s = .next t ∧ (inpAt (collAt t u.job ep e.ordinal) u.rank u.chunk).digest =
        some { crc := leVal (u.payload.take 8), count := leVal (slice u.payload 8 2)
               clean := natBit (leVal (slice u.payload 10 1)) 0, retRoute := beVal (slice u.payload 16 10)
               inject := u.inject, since := (match i.digest with | some d => d.since | none => s.now) } ∧
      (inpAt (collAt t u.job ep e.ordinal) u.rank u.chunk).frames = i.frames ∧
      (inpAt (collAt t u.job ep e.ordinal) u.rank u.chunk).arrival =
        (match i.digest with | some _ => i.arrival | none => s.fabricTime) ∧ t.integ = s.integ ∧ KeepsData s t) ∧
  (∀ l p u s q d ep e, let v := asType 1 u
    let C := collAt s u.job ep e.ordinal
    Delivered s l p v (.die q d) → TakesColl s l v ep e → expressDiffers e v = false →
    C.express.any (fun x => x.rank == u.rank) = false → StagingRoom s (1 + entryDie e) q u.job 256 →
    ∃ t, exec (.expressCell l u) s = .next t ∧ (collAt t u.job ep e.ordinal).express =
        C.express ++ [{ rank := u.rank, bytes := u.payload, arrival := s.fabricTime }] ∧
      t.integ = s.integ ∧ KeepsData s t)

/-- TWIN frames at this module (R475 to R482, R518). -/
def Obligations.TwinFramesAct : Prop :=
  (∀ l p u s q d ep x, let v := asTwin 0 u
    Delivered s l p v (.die q d) → s.fab.twin.st ≠ .detached → epochOf s u.job u.epoch = some ep →
    stateWhere s u.job (fun x => (x.rep || s.fab.twin.st == .syncing) && x.die == d && x.gradOrdinal == u.ordinal
      && x.chunkFirst ≤ u.chunk && u.chunk < x.chunkFirst + x.chunkCount) = some x →
    s.fab.twin.grads.any (fun g => g.job == u.job && g.epoch == ep && g.ordinal == u.ordinal && g.chunk == u.chunk
      && g.seq == u.flowSeq) = false →
    ∃ t, exec (.twinGrad l u) s = .next t ∧ t.fab.twin.grads = s.fab.twin.grads ++
        [{ job := u.job, epoch := ep, ordinal := u.ordinal, chunk := u.chunk, seq := u.flowSeq, bytes := u.payload }] ∧
      t.coll = s.coll ∧ FabricOnly s t) ∧
  (∀ l p u s i x, let v := asTwin 1 u
    let listed (i : Nat) := stateWhere s u.job (fun x => x.twinShard == leVal (slice u.payload (16 + 8 * i) 2) &&
      (x.rep || s.fab.twin.st == .syncing))
    Delivered s l p v .service → s.fab.twin.st ≠ .detached → i < leVal (slice u.payload 8 2) → listed i = some x →
    (∀ j y, i < j → j < leVal (slice u.payload 8 2) → listed j = some y → y.shard ≠ x.shard) →
    s.coll.shards.any (fun h => h.job == u.job && h.id == x.shard) = true →
    ∃ t, exec (.twinFlip l u) s = .next t ∧ shardAt t u.job x.shard = { shardAt s u.job x.shard with
        report := some (leVal (u.payload.take 8), leVal (slice u.payload (20 + 8 * i) 4))
        listed := if (shardAt s u.job x.shard).listed.contains (leVal (u.payload.take 8)) then (shardAt s u.job x.shard).listed
          else (shardAt s u.job x.shard).listed ++ [leVal (u.payload.take 8)] } ∧
      t.coll.colls = s.coll.colls ∧ t.coll.jobs = s.coll.jobs ∧ KeepsData s t) ∧
  (∀ l p u s, let v := asTwin 2 u
    Delivered s l p v .service → s.fab.twin.st ≠ .detached → leVal (slice u.payload 8 1) = 0 →
    ∃ t, exec (.twinVote l u) s = .next t ∧
      peerVote t u.job (leVal (u.payload.take 8)) 0 = some (slice u.payload 64 256) ∧ t.coll = s.coll ∧ FabricOnly s t) ∧
  (∀ l p u s, let v := asTwin 3 u
    Delivered s l p v .service →
    ∃ t, exec (.twinHello l u) s = .next t ∧ t.fab.twin.peerHello = u.payload ∧
      (s.fab.twin.st = .detached → t.fab.twin.st = if pairOk (setTwin s (fun t => { t with peerHello := u.payload }))
        then .paired else .detached) ∧
      (s.fab.twin.st ≠ .detached → t.fab.twin.st = s.fab.twin.st) ∧ t.coll = s.coll ∧ FabricOnly s t) ∧
  (∀ l p u s, let v := asTwin 4 u
    Delivered s l p v .service →
    ∃ t, exec (.twinLeave l u) s = .next t ∧ t.fab.twin.lastLoss = 1 ∧ t.fab.twin.peerCause = leVal (u.payload.take 1) ∧
      t.fab.twin.st = (match s.fab.twin.st with
        | .paired => .solo | .syncing => .detached | st => st) ∧ KeepsData s t) ∧
  (∀ l p u s q d x, let v := asTwin 5 u
    let plane := natField u.ordinal 15 14
    let page := u.chunk / 512
    Delivered s l p v (.die q d) → s.fab.twin.st = .syncing →
    stateWhere s u.job (fun x => x.twinShard == natField u.ordinal 31 16 && x.die == d) = some x →
    page < planePages x plane →
    ∃ t, exec (.twinSync l u) s = .next t ∧ t.comp.mem = s.comp.mem.writeRun
        (pageKey s u.job x (if natBit u.ordinal 13 then !(shardAt s u.job x.shard).cur else (shardAt s u.job x.shard).cur)
          plane page + 4096 * (u.chunk % 512)) u.payload ∧
      t.fab.twin.pagesDone = s.fab.twin.pagesDone + (if u.chunk % 512 = 511 then 1 else 0) ∧
      (∀ q, regsOf t q = regsOf s q) ∧ t.tops = s.tops ∧ t.coll = s.coll ∧ t.mgt = s.mgt ∧ t.pwr = s.pwr) ∧
  (∀ l p u s, let v := asTwin 6 u
    Delivered s l p v .service → u.ordinal = 0xFFFFFFFF →
    ∃ t, exec (.twinImageRequest l u) s = .next t ∧
      (portAt t s.fab.twin.port).out.length = (portAt s s.fab.twin.port).out.length +
        (if (s.mgt.st = .sync ∨ s.mgt.st = .ready ∨ s.mgt.st = .run ∨ s.mgt.st = .degraded) ∧
            portUp s s.fab.twin.port = true ∧ s.fab.twin.port < 272 then imageBlockCount s - u.chunk else 0) ∧
      t.coll = s.coll ∧ FabricOnly s t) ∧
  (∀ l p u s, let v := asTwin 6 u
    Delivered s l p v .service → u.ordinal ≠ 0xFFFFFFFF → s.mgt.st = .recovery → u.chunk < u.ordinal →
    ∃ t, exec (.twinImageData l u) s = .next t ∧ t.fab.twin.imageBlocks = u.ordinal ∧
      t.fab.twin.image = insertKey s.fab.twin.image u.chunk u.payload ∧ t.coll = s.coll ∧ FabricOnly s t)

/-! ### Lanes: selection, retry, bring-up -/

/-- UNIT_SELECT takes retransmissions first, then link-local units, then what the schedulers select, and numbers a new
sequenced unit (R303, R346, R349, R351, R352, R355, R393); UNIT_TX_DONE frees the lane and the unit's cells (R368,
R378 to R380). -/
def Obligations.LanesSendTheirUnits : Prop :=
  (∀ l s u rest, l < 272 → (laneAt s l).tx = none → (laneAt s l).st = .up → (laneAt s l).resend = u :: rest →
    ∃ t, exec (.unitSelect l) s = .next t ∧
      OnlyLane s t l { laneAt s l with tx := some { unit := u, again := true }, resend := rest }) ∧
  (∀ l s u rest, l < 272 → (laneAt s l).tx = none → ((laneAt s l).st = .up ∨ (laneAt s l).st = .ident) →
    (laneAt s l).resend = [] → (laneAt s l).locals = u :: rest →
    ∃ t, exec (.unitSelect l) s = .next t ∧
      OnlyLane s t l { laneAt s l with tx := some { unit := stampTime s u, again := true }, locals := rest }) ∧
  (∀ l p s e, l < 272 → (laneAt s l).tx = none → (laneAt s l).resend = [] → (laneAt s l).locals = [] →
    portOf s l = some p → portUp s p = true →
    let s' := dropAged (markLate s p) p
    let L := laneAt s' l
    selectUnit s' p = some e → (laneAt s l).retry.length < 512 → retryBytes (laneAt s l) + unitSize e.unit ≤ 65536 →
    let u := sealHeader { e.unit with
      linkSeq := L.txSeq
      inject := if e.ingress.isNone && !e.unit.cell then s.fabricTime % 2 ^ 32 else e.unit.inject }
    ∃ t, exec (.unitSelect l) s = .next t ∧
      laneAt t l = { L with tx := some { unit := u, alloc := e.alloc, slot := e.unit.cell && e.ingress.isSome }
                            txSeq := (L.txSeq + 1) % 1024
                            retry := L.retry ++ [{ unit := u, sentAt := s.now }] } ∧
      (∀ j, j ≠ l → laneAt t j = laneAt s' j) ∧ (portAt t p).out = (portAt s' p).out.erase e ∧
      (portAt t p).usedTx = (portAt s' p).usedTx.modify (unitClass e.unit) (fun x => (x + unitCost e.unit) % 2 ^ 32) ∧
      (∀ j, j ≠ p → portAt t j = portAt s' j) ∧ t.coll = s.coll ∧ FabricOnly s t) ∧
  (∀ l s e, 272 ≤ l → portIdOk l = true → (laneAt s l).tx = none →
    let s' := dropAged (markLate s l) l
    selectUnit s' l = some e →
    ∃ t, exec (.unitSelect l) s = .next t ∧ (laneAt t l).tx = some { unit := e.unit, alloc := e.alloc, slot := e.unit.cell && e.ingress.isSome } ∧
      (portAt t l).out = (portAt s' l).out.erase e ∧ t.coll = s.coll ∧ FabricOnly s t) ∧
  (∀ l s x ptr, l < 272 → (laneAt s l).tx = some x → (x.again = true ∨ x.alloc = none) →
    ∃ t, exec (.unitTxDone l ptr) s = .next t ∧ OnlyLane s t l { laneAt s l with tx := none }) ∧
  (∀ l s x id a, l < 272 → (laneAt s l).tx = some x → x.again = false → x.alloc = some id → allocAt s 0 id = some a →
    a.req / 2 ^ 13 % 8 = 0 →
    ∃ t, exec (.unitTxDone l none) s = .next t ∧ (laneAt t l).tx = none ∧
      (bpmAt t 0).allocs = (bpmAt s 0).allocs.filter (fun y => y.id != id) ∧ t.coll = s.coll ∧ FabricOnly s t) ∧
  (∀ l s x id a v w, l < 272 → (laneAt s l).tx = some x → x.again = false → x.alloc = some id → allocAt s 0 id = some a →
    pointerCheck (bpmAt s 0) a.req a.pool (v % 2 ^ 20) = some w →
    ∃ t, exec (.unitTxDone l (some v)) s = .next t ∧ (laneAt t l).tx = none ∧ isFrozen t 0 a.req = true ∧
      (bpmAt t 0).allocs = (bpmAt s 0).allocs ∧ t.attn &&& aFault = aFault ∧ t.coll = s.coll ∧ KeepsData s t) ∧
  (∀ l s x d s1 keep, 272 ≤ l → (laneAt s l).tx = some x → localDest l x.unit s = some d →
    place s l l d x.unit false = .ok s1 keep →
    ∃ t, exec (.unitTxDone l none) s = .next t ∧ (laneAt t l).tx = none ∧ t.coll = s1.coll ∧ t.comp = s1.comp ∧
      t.fab.twin = s1.fab.twin)

/-- A retransmission round after 20 µs, or a retrain when NAK_LIMIT rounds have gone (R351); the repeated LINK_NAK
(R350); and the CREDIT cell with grants and acknowledgements (R344, R350, R352). -/
def Obligations.RetryAndCreditKeepGoing : Prop :=
  (∀ l s r rest, let L := laneAt s l
    let rounds := if L.roundFrom = r.unit.linkSeq then L.rounds else 0
    L.retry = r :: rest → L.st = .up → r.sentAt + 20000 ≤ s.now → L.resend = [] → rounds < max 1 L.nakLimit →
    ∃ t, exec (.linkRetryTimeout l) s = .next t ∧ OnlyLane s t l { L with
      resend := L.retry.map (·.unit), rounds := rounds + 1, roundFrom := r.unit.linkSeq, cnt := bumpAt L.cnt 5 L.retry.length
      retry := L.retry.map (fun r => { r with sentAt := s.now }) }) ∧
  (∀ l s r rest, let L := laneAt s l
    L.retry = r :: rest → L.st = .up → r.sentAt + 20000 ≤ s.now → L.resend = [] → L.roundFrom = r.unit.linkSeq →
    max 1 L.nakLimit ≤ L.rounds →
    ∃ t, exec (.linkRetryTimeout l) s = .next t ∧ (laneAt t l).st = (if L.enable then .down else .disabled) ∧
      (laneAt t l).retry = [] ∧ (laneAt t l).txSeq = 0 ∧ (laneAt t l).rxExpect = 0 ∧ t.attn &&& aFault = aFault ∧
      t.coll = s.coll ∧ FabricOnly s t) ∧
  (∀ l s n, let L := laneAt s l
    L.nakAt = some (L.rxExpect, n) → L.st = .up → L.missing = true → n + 5000 ≤ s.now →
    ∃ t, exec (.linkNakRepeat l) s = .next t ∧ OnlyLane s t l (nakked L l ((portOf s l).getD l) L.nakCause s.now)) ∧
  (∀ l p s, portOf s l = some p → (laneAt s l).st = .up → creditDueNow s p = true →
    ∃ t, exec (.creditSend l) s = .next t ∧ (laneAt t l).locals = (laneAt s l).locals ++ [sealUnit (creditUnit s p)] ∧
      (∀ j, j ∈ portLanes s p → (laneAt t j).ackUnits = 0 ∧ (laneAt t j).ackBytes = 0 ∧ (laneAt t j).ackSince = none) ∧
      portAt t p = { portAt s p with creditDue := none, creditAt := s.now } ∧ t.coll = s.coll ∧ FabricOnly s t)

/-- The steps of bring-up, and lanes that go down: one that loses light, signal or alignment, and those of an engine whose
laser input is absent (R45, R46, R359, R567, R590). -/
def Obligations.LanesComeUpAndGoDown : Prop :=
  (∀ l s, l < 272 → (laneAt s l).enable = true → ((laneAt s l).st = .down ∨ (laneAt s l).st = .disabled) →
    (256 ≤ l ∨ s.pins.lsrEn = true) →
    ∃ t, exec (.laneSignalDetect l) s = .next t ∧
      laneAt t l = { laneAt s l with st := .light, lightRx := true, laserIn := true } ∧
      (∀ j, j ≠ l → laneAt t j = if l < 256 ∧ j / 16 = l / 16 then { laneAt s j with laserIn := true } else laneAt s j) ∧
      t = { s with fab := { s.fab with lanes := t.fab.lanes }, dbg := t.dbg }) ∧
  (∀ l s, (laneAt s l).st = .light →
    ∃ t, exec (.fecAlignmentLock l) s = .next t ∧ OnlyLane s t l { laneAt s l with st := .ident }) ∧
  (∀ p s words pol, isLanePort s p = true → words.length = (portAt s p).lanes →
    (∀ l, l ∈ portLanes s p → awaitsPeer (laneAt s l) = true ∨ (laneAt s l).st = .up) →
    (∃ l, l ∈ portLanes s p ∧ awaitsPeer (laneAt s l) = true) → identityOk s p words = true →
    ∃ t, exec (.peerIdentityCheck p words pol) s = .next t ∧
      (∀ i w, words[i]? = some w → (laneAt t (p + i)).idleWord = w ∧ (laneAt t (p + i)).st = (laneAt s (p + i)).st ∧
        (awaitsPeer (laneAt s (p + i)) = true → (laneAt t (p + i)).peerOk = true ∧
          (laneAt t (p + i)).locals.length = (laneAt s (p + i)).locals.length + 1)) ∧
      (portAt t p).grantRx = (8 * words.length) :: List.replicate 7 (35 * words.length) ∧
      (portAt t p).usedRx = List.replicate 8 0 ∧ (portAt t p).grantTx = List.replicate 8 0 ∧
      (portAt t p).usedTx = List.replicate 8 0 ∧ t.coll = s.coll ∧ FabricOnly s t) ∧
  (∀ p s words pol, isLanePort s p = true → words.length = (portAt s p).lanes →
    (∀ l, l ∈ portLanes s p → awaitsPeer (laneAt s l) = true ∨ (laneAt s l).st = .up) →
    (∃ l, l ∈ portLanes s p ∧ awaitsPeer (laneAt s l) = true) → identityOk s p words = false →
    ∃ t, exec (.peerIdentityCheck p words pol) s = .next t ∧
      (∀ l, l ∈ portLanes s p → (laneAt t l).st = if awaitsPeer (laneAt s l) = false then .up
        else if (laneAt s l).enable then .down else .disabled) ∧
      t.attn &&& aFault = aFault ∧ t.coll = s.coll ∧ FabricOnly s t) ∧
  (∀ l s loss, loss ≠ .laser → (laneAt s l).st ≠ .down → (laneAt s l).st ≠ .disabled →
    ∃ t, exec (.laneDown l loss) s = .next t ∧ (laneAt t l).st = (if (laneAt s l).enable then .down else .disabled) ∧
      (laneAt t l).retry = [] ∧ (laneAt t l).tx = none ∧ (laneAt t l).txSeq = 0 ∧ (laneAt t l).rxExpect = 0 ∧
      (∀ p, portOf s l = some p → (portAt t p).out = []) ∧
      (lookupD t.rings (0x500 + l) []).head? = some (⟨s.fabricTime % 2 ^ 48, 2, false,
        (l + (if loss = .fec then 2 else 1) <<< 9) % 2 ^ 64⟩ : RingEntry) ∧
      t.attn &&& aFault = aFault ∧ t.coll = s.coll ∧ FabricOnly s t) ∧
  (∀ l s, l < 256 →
    ∃ t, exec (.laneDown l .laser) s = .next t ∧
      (∀ j, j / 16 = l / 16 → (laneAt t j).laserIn = false ∧ (laneAt t j).lightRx = (laneAt s j).lightRx ∧
        ((laneAt s j).st ≠ .down → (laneAt s j).st ≠ .disabled →
          (laneAt t j).st = (if (laneAt s j).enable then .down else .disabled) ∧ (laneAt t j).retry = [] ∧
          (laneAt t j).tx = none ∧ (laneAt t j).txSeq = 0 ∧ (laneAt t j).rxExpect = 0 ∧ t.attn &&& aFault = aFault)) ∧
      (∀ j, j / 16 ≠ l / 16 → (laneAt t j).st = (laneAt s j).st ∧ (laneAt t j).laserIn = (laneAt s j).laserIn) ∧
      t.coll = s.coll ∧ FabricOnly s t)

/-- A unit in its ingress buffer goes on when it fits (R153, R365, R375); a waiting allocation that fits is granted
(R375, R381); mirror records leave by the service port or for their ring (R387, R388, R548). -/
def Obligations.WaitingUnitsAndRecordsLeave : Prop :=
  (∀ p s h d s1 keep, (portAt s p).held = [h] → routeOf s h.unit = .ok d → tooOld s d h.unit = false →
    (h.unit.cell = true → s.now - h.since ≤ 10000) → frozenFor s p d h.unit = none →
    place s h.lane p d h.unit h.yellow = .ok s1 keep →
    ∃ t, exec (.earlyArrivalAdmit p) s = .next t ∧ (portAt t p).held = (portAt s1 p).held.erase h ∧ t.coll = s1.coll ∧
      t.comp = s1.comp ∧ t.fab.twin = s1.fab.twin ∧ t.fab.bpm = s1.fab.bpm) ∧
  (∀ p s h rest d, (portAt s p).held = h :: rest → (∀ x, x ∈ rest → unitClass x.unit = unitClass h.unit) →
    routeOf s h.unit = .ok d → tooOld s d h.unit = false → (h.unit.cell = true → s.now - h.since ≤ 10000) →
    frozenFor s p d h.unit = none → place s h.lane p d h.unit h.yellow = .hold →
    ∃ t, exec (.earlyArrivalAdmit p) s = .next t ∧ t = { s with dbg := t.dbg }) ∧
  (∀ i s w, i < s.fab.bpm.length → (bpmAt s i).waiting.find? (waitFits (bpmAt s i)) = some w →
    ∃ t, exec (.allocWaitGrant i) s = .next t ∧ bpmAt t i = { bpmAt s i with waiting := (bpmAt s i).waiting.erase w } ∧
      (∀ j, j ≠ i → bpmAt t j = bpmAt s j) ∧ t.fab.lanes = s.fab.lanes ∧ t.fab.ports = s.fab.ports ∧ FabricOnly s t) ∧
  (∀ s k, s.fab.mirrorSession = some k → s.fab.mirrorDest = 2 → s.fab.mirrorQueue ≠ [] → s.mgt.st ≠ .safe →
    ∃ t, exec .mirrorData s = .next t ∧ t = { s with
      fab := { s.fab with mirrorQueue := s.fab.mirrorQueue.drop 51 }
      mgt := { s.mgt with replies := { session := k, tag := 0xFFFF, opcode := 0x80, result := 0, attn := 0
                                       payload := (s.fab.mirrorQueue.take 51).flatMap MirrorRec.bytes160 } :: s.mgt.replies }
      dbg := t.dbg }) ∧
  (∀ s r rest, s.fab.mirrorQueue = r :: rest → s.fab.mirrorDest = 1 → mirrorSlots s ≠ 0 →
    let last := mirrorSlots s ≤ s.fab.mirrorIndex + 1
    ∃ t, exec .mirrorRingWrite s = .next t ∧ t.fab = { s.fab with
        mirrorQueue := rest, mirrorIndex := if last then 0 else s.fab.mirrorIndex + 1
        mirrorWraps := if last then min (2 ^ 32 - 1) (s.fab.mirrorWraps + 1) else s.fab.mirrorWraps } ∧
      t.comp.mem = s.comp.mem.writeRun (memKey 2 0 (Config.mirrorBase + 160 * s.fab.mirrorIndex)) r.bytes160 ∧
      t = { s with comp := { s.comp with mem := t.comp.mem }, fab := t.fab, dbg := t.dbg })

/-! ### Collectives -/

/-- ORDINAL_ELIGIBLE (R150, R151, R154): the ordinal is eligible, its timer runs, and the calls that waited for it go on:
a synchronous call waits for the collective, an asynchronous one is done. Then cast chunks that waited for it leave
(R61). -/
def Obligations.OrdinalsBecomeEligible : Prop :=
  ∀ job ep ord s e top, entryOf s job ord = some e → topOf s job = some top →
    (collAt s job ep ord).eligible = false → (collAt s job ep ord).completed = false → takesPart s job e = true →
    mayBegin s job ep ord = true → (jobAt s job).oldest ≤ ep → ep < (jobAt s job).oldest + top.epochLimit →
    ∃ u, exec (.ordinalEligible job ep ord) s = .next (traced s (emitCasts u job)) ∧
      (collAt u job ep ord).eligible = true ∧ (collAt u job ep ord).restarted = false ∧
      (collAt u job ep ord).timer = some (s.now + 1000 * e.timeoutUs) ∧
      (∀ q async flag, (queueAt s q).bound = true → (queueAt s q).job = job →
        (queueAt s q).wait = .eligible ord ep async flag → q < 64 →
        if async then (queueAt u q).wait = .none ∧ (queueAt u q).asyncs = (queueAt s q).asyncs ++ [(ord, ep, flag)]
        else (queueAt u q).wait = .collective ord ep ∧ ((queueAt s q).st = .wait → (queueAt u q).st = .wait)) ∧
      (∀ j x o, (j, x, o) ≠ (job, ep, ord) → collAt u j x o = collAt s j x o) ∧ u.integ = s.integ ∧ KeepsData s u

/-- The timers of an ordinal and of its chunks (R154, R447): with an input of the chunk silent, or a second expiry, the
ordinal aborts with DEADLINE; else the timer restarts once. SHORT_WAIT_US ends the wait of a short input: it is answered
(R442), and a third NAK_CHUNK is an abort (R446). -/
def Obligations.TimersEndWaits : Prop :=
  (∀ job ep ord s e n, entryOf s job ord = some e → let c := collAt s job ep ord
    c.timer = some n → n ≤ s.now → c.eligible = true → c.first = false → c.completed = false → c.aborted = false →
    ∃ t, exec (.ordinalTimeout job ep ord) s = .next t ∧
      (if e.express || c.restarted || !(chunkShort e c (firstChunk s job e)).1 then
         (collAt t job ep ord).aborted = true ∧ t.attn &&& aFault = aFault
       else if (chunkShort e c (firstChunk s job e)).2 = [] then
         collAt t job ep ord = { c with restarted := true, timer := some (s.now + 1000 * e.timeoutUs) }
       else True) ∧ KeepsData s t) ∧
  (∀ job ep ord s e n, entryOf s job ord = some e → let c := collAt s job ep ord
    c.timer = some n → n ≤ s.now → c.eligible = true → c.first = true → c.completed = false → c.aborted = false →
    headChunks s e c ≠ [] →
    let rs := (headChunks s e c).map (chunkShort e c)
    ∃ t, exec (.chunkTimerExpiry job ep ord) s = .next t ∧
      (if e.express || c.restarted || rs.any (fun r => !r.1) then
         (collAt t job ep ord).aborted = true ∧ t.attn &&& aFault = aFault
       else if rs.flatMap (·.2) = [] then
         collAt t job ep ord = { c with restarted := true, timer := some (s.now + 1000 * e.timeoutUs) }
       else True) ∧ KeepsData s t) ∧
  (∀ job ep ord rank chunk s top e r d, topOf s job = some top → entryOf s job ord = some e →
    let i := inpAt (collAt s job ep ord) rank chunk
    inputFor e rank chunk = some r → i.digest = some d → i.acked = false → (collAt s job ep ord).aborted = false →
    d.since + 1000 * s.integ.shortWaitUs ≤ s.now →
    ∃ t, exec (.shortWaitExpiry job ep ord rank chunk) s = .next t ∧
      (if inputAnswer top (collAt s job ep ord) e r i d = 0 then (inpAt (collAt t job ep ord) rank chunk).acked = true ∧
         (inpAt (collAt t job ep ord) rank chunk).ackCrc = d.crc
       else if i.naks < 2 then
         (inpAt (collAt t job ep ord) rank chunk).naks = i.naks + 1 ∧
         (inpAt (collAt t job ep ord) rank chunk).frames = [] ∧ (inpAt (collAt t job ep ord) rank chunk).digest = none ∧
         (inpAt (collAt t job ep ord) rank chunk).boundary = some (s.fabricTime % 2 ^ 32) ∧
         t.integ.cnt = bumpAt s.integ.cnt 5 1
       else (collAt t job ep ord).aborted = true ∧ t.attn &&& aFault = aFault) ∧
      KeepsData s t)

/-- PRIVET_CHUNK (R106, R125, R128, R211, R212, R446): a reduction's root is formed from the ACKed inputs; a chunk of a
moving kind becomes an output with its bytes, padded, and CHECK 0; three failed executions abort the ordinal. -/
def Obligations.EnginesFormChunks : Prop :=
  (∀ job ep ord chunk s top e g, ChunkReady s job ep ord chunk top e g → isReduction e.kind = true → e.outputs = [] →
    e.buffers = [] →
    let s' := noteEngine (if chunkFirst s job ep e chunk then sampleChunk s job ep ord chunk (entryDie e)
      (engineOf e chunk) g 0 else s) (entryDie e) g job ord chunk (e.fAcc == .pair)
    let c := collAt s job ep ord
    let x : ChunkCtx := { s := s', job := job, top := top, e := e, coll := c, a := (chunkRange e chunk).1,
                          n := (chunkRange e chunk).2 - (chunkRange e chunk).1 }
    ∀ bs v, (reduceChunk x chunk (rootWaits s' job ep e chunk)).root = some (bs, v) → c.roots.any (fun y => y.1 == chunk) = false →
    ∃ t, exec (.privetChunk job ep ord chunk .clean none) s = .next t ∧
      (collAt t job ep ord).roots = c.roots ++ [(chunk, bs)] ∧
      (e.inputs.all (fun i => (inpAt c i.rank chunk).acked) = true → (collAt t job ep ord).formed.contains chunk = true) ∧
      (collAt t job ep ord).outputs = c.outputs ∧ t.comp.mem = s.comp.mem ∧ (∀ q, regsOf t q = regsOf s q) ∧
      t.tops = s.tops ∧ t.pwr = s.pwr ∧ t.mgt = s.mgt) ∧
  (∀ job ep ord chunk s top e g o bs, ChunkReady s job ep ord chunk top e g → isReduction e.kind = false →
    isSelect e.kind = false → e.outputs = [o] → e.buffers = [] →
    let c := collAt s job ep ord
    movedBytes top c e chunk o = some (true, bs) → outAt c o.lo o.hi chunk = none → bs.length ≤ o.f * (256 * max 1 o.p256) →
    let ks := consumersOf s job e o.lo o.hi chunk
    ks.length ≤ 1 →
    ∃ t, exec (.privetChunk job ep ord chunk .clean none) s = .next t ∧
      (collAt t job ep ord).outputs = c.outputs ++
        [{ lo := o.lo, hi := o.hi, chunk := chunk, bytes := padFrames bs, payload := 256 * max 1 o.p256, check := 0,
           engine := g, copied := true, consumers := ks }] ∧
      t.integ = s.integ ∧ KeepsData s t) ∧
  (∀ job ep ord chunk s top e g, ChunkReady s job ep ord chunk top e g → s.integ.residue = true →
    computesNow s job ep e chunk = true → ∀ f1 f2 f3 : FaultAt,
    ∃ t, exec (.privetChunk job ep ord chunk (.residue [f1, f2, f3]) none) s = .next t ∧ (collAt t job ep ord).aborted = true ∧
      t.attn &&& aInteg = aInteg ∧ t.attn &&& aFault = aFault ∧ KeepsData s t)

/-- DIGEST_SEND and DIGEST_RESEND (R61, R441): the DIGEST goes to every consumer that waits for it, the output is
closed; after ten microseconds without an answer it goes again, and after the third time the ordinal aborts. -/
def Obligations.DigestsAreSentAndRepeated : Prop :=
  (∀ job ep ord lo hi chunk s o, let c := collAt s job ep ord
    outAt c lo hi chunk = some o → c.aborted = false → o.dup = false → framesGone s c o = true →
    (∀ sh, o.shard = some sh → gradsPassed s job ep sh chunk = true) →
    o.consumers.any (fun k => !k.acked && k.sentAt.isNone) = true →
    ∃ t, exec (.digestSend job ep ord lo hi chunk) s = .next t ∧ collAt t job ep ord = putOut c { o with
        closed := true, consumers := o.consumers.map (fun k =>
          if !k.acked && k.sentAt.isNone then { k with sentAt := some s.now } else k) } ∧
      (let n := (o.consumers.filter (fun k => !k.acked && k.sentAt.isNone)).length
       t.integ = { s.integ with cnt := bumpAt s.integ.cnt 3 n }) ∧ KeepsData s t) ∧
  (∀ job ep ord lo hi chunk i s o k n, let c := collAt s job ep ord
    outAt c lo hi chunk = some o → o.consumers[i]? = some k → k.sentAt = some n → k.acked = false → n + 10000 ≤ s.now →
    ∃ t, exec (.digestResend job ep ord lo hi chunk i) s = .next t ∧
      (k.resends < 3 → collAt t job ep ord = putOut c { o with
          consumers := o.consumers.set i { k with sentAt := some s.now, resends := k.resends + 1 } } ∧
        t.integ = { s.integ with cnt := bumpAt s.integ.cnt 3 1 }) ∧
      (3 ≤ k.resends → c.aborted = false → (entryOf s job ord).isSome = true →
        (collAt t job ep ord).aborted = true ∧ t.attn &&& aFault = aFault) ∧ KeepsData s t)

/-! ### Optimizer, epochs and votes -/

/-- OPTIMIZER_STEP_START, SHARD_FLIP and EPOCH_BOUNDARY (R63, R65, R187, R188, R193, R229). -/
def Obligations.ShardsStepAndFlip : Prop :=
  (∀ job id reg s x, stateOf s job id = some x → mayStep s job id = true →
    let clip := clipOf s job x.die reg
    ∃ t, exec (.optimizerStepStart job id reg) s = .next t ∧
      (let h := shardAt s job id
       shardAt t job id = { h with
         step := some { epoch := nextEpoch h, clip := clip, skip := isSkip x clip }, casts := [], pageCrcs := [] }) ∧
      t.coll.colls = s.coll.colls ∧ t = { s with coll := t.coll, dbg := t.dbg }) ∧
  (∀ job id s x, stateOf s job id = some x → mayFlip s job x = true →
    ∃ t, exec (.shardFlip job id) s = .next t ∧
      (let h := shardAt s job id
       shardAt t job id = { h with
         cur := !h.cur, shadow := h.flipped, rollbackOk := true, flipped := some (nextEpoch h)
         listed := h.listed.filter (nextEpoch h < ·), skippedPrev := h.skippedLast, skippedLast := h.skipNext }) ∧
      t.coll.colls = s.coll.colls ∧ t = { s with coll := t.coll, fab := t.fab, dbg := t.dbg }) ∧
  (∀ job s, boundaryReached s job = true →
    ∃ t, exec (.epochBoundary job) s = .next t ∧
      (let e := (jobAt s job).oldest
       (jobAt t job).oldest = e + 1 ∧
       t.coll.colls = s.coll.colls.filter (fun c => !(c.job == job && c.epoch < e)) ∧
       t.integ = { s.integ with remapReady := s.integ.remapReady ++ s.integ.remapPending, remapPending := [] }) ∧
      KeepsData s t)

/-- VOTE_WINDOW_EXPIRY counts the ranks that have not voted (R450); VOTE_CLOSE compares the digests (R451): both
directions pass, or the odd module leaves, or nothing is decided. -/
def Obligations.VotesAreClosed : Prop :=
  (∀ job ep s top, topOf s job = some top → let J := jobAt s job
    J.windowEnded.contains ep = false → bcastsOver s job ep = true → J.ackAt.any (fun a => a.1 == ep) = true →
    lookupD J.ackAt ep 0 + 1000 * (top.voteWindowUs + 10) ≤ s.now →
    ∃ t, exec (.voteWindowExpiry job ep) s = .next t ∧ (jobAt t job).windowEnded = J.windowEnded ++ [ep] ∧
      (∀ r, lookupD (jobAt t job).voteMiss r 0 =
        if r ∈ servedRanks s job ∧ J.votes.any (fun v => v.1 == ep && v.2.1 == r) = false then
          satAdd (lookupD J.voteMiss r 0) 1 else lookupD J.voteMiss r 0) ∧
      t.coll.colls = s.coll.colls ∧ t = { s with coll := t.coll, dbg := t.dbg }) ∧
  (∀ job ep s own, let J := jobAt s job
    let peer := (peerVote s job ep 0).getD []
    let o (i : Nat) := own.getD i []
    let p (i : Nat) := slice peer (64 * i) 64
    let E := endorsedOf s job ep
    let W := match topOf s job with | some t => t.voteWindowUs | none => 100
    J.formed.find? (fun f => f.1 == ep) = some (ep, own) → J.closed.contains ep = false → s.fab.twin.st = .paired →
    ((o 0 = p 1 ∧ p 0 = o 1) ∨ (bcastsOver s job ep = true ∧ lookupD J.commitAt ep 0 + 1000 * (W + 50) ≤ s.now) ∨
      (peer ≠ [] ∧ E.isSome = true)) →
    let d1 := voteDir (o 0) (p 1) (o 2) (p 3) E
    let d2 := voteDir (p 0) (o 1) (p 2) (o 3) none
    ∃ t, exec (.voteClose job ep) s = .next t ∧
      (if d1 = .pass ∧ d2 = .pass then (jobAt t job).voteHold = false ∧ (jobAt t job).closed = J.closed ++ [ep] ∧
         t.fab.twin = s.fab.twin ∧ t.integ = { s.integ with cnt := bumpAt s.integ.cnt 12 1 }
       else if d1 = .oddH then t.integ.expelled = true ∧ t.fab.twin.st = .detached ∧
         (∀ f, f ∈ J.formed → f.1 ∈ (jobAt t job).closed)
       else if d1 = .oddR then t.fab.twin.st = .solo ∧ (∀ f, f ∈ J.formed → f.1 ∈ (jobAt t job).closed)
       else t.integ = { s.integ with undecided := true, cnt := bumpAt s.integ.cnt 13 1 } ∧ t.attn = s.attn ||| aInteg ∧
         t.fab = s.fab ∧ (jobAt t job).closed = J.closed ++ [ep] ∧ (jobAt t job).voteHold = J.voteHold ∧
         t.coll.colls = s.coll.colls ∧ t.coll.shards = s.coll.shards) ∧ KeepsData s t)

/-! ### Units, duplicates and remaps -/

/-- DUPLICATE_EXECUTION, SELF_TEST and REMAP_APPLY (R48, R49, R229, R436, R455). -/
def Obligations.SuspectUnitsAreTestedAndReplaced : Prop :=
  (∀ i s d v, s.integ.dups[i]? = some d →
    let u : State := { s with integ := { s.integ with dups := s.integ.dups.eraseIdx i } }
    let r : State := icnt u 1 1
    ∃ t, exec (.duplicateExecution i v) s = .next t ∧
      (dupAlts u d = [] → t = traced s (failHeld u d)) ∧
      (∀ a, dupAlts u d = [a] → t = traced s (if v = .equal then commitHeld (noteHeld r d a none) d
        else failHeld (icnt (faultHeld r d [a]) 2 1) d)) ∧
      (∀ a b rest, dupAlts u d = a :: b :: rest → t = traced s (match v with
        | .equal => commitHeld (noteHeld r d a none) d
        | .thirdFirst f => settleThird (dupLogged (noteHeld (faultHeld r d [a]) d b none) d a true f) d true b
        | .thirdDup f =>
          settleThird (dupLogged (noteHeld (noteHeld (faultHeld r d [d.unit]) d a none) d b none) d d.unit false f) d false b
        | .allDiffer => failHeld (icnt (faultHeld r d [a, b]) 2 1) d))) ∧
  (∀ unit die logical s r, s.integ.quar.find? (fun r => r.unit == unit && r.die == die && r.logical == logical &&
      r.st != 2 && !r.failed) = some r → natBit r.bands (tempBand (s.pwr.dies.getD die {}).tmaxC) = true →
    (∃ t, exec (.selfTest unit die logical true) s = .next t ∧ t = { s with
      integ := { s.integ with cnt := bumpAt s.integ.cnt 10 1
                              quar := s.integ.quar.map (fun x => if x == r then { x with testedAt := s.now } else x) }
      dbg := t.dbg }) ∧
    (∃ t, exec (.selfTest unit die logical false) s = .next t ∧
      (∀ x, x ∈ t.integ.quar → x.unit = unit → x.die = die → x.logical = logical → x.st ≠ 2 → x.failed = true) ∧
      t.integ.cnt = bumpAt (bumpAt s.integ.cnt 10 1) 11 1 ∧
      (spareFree s unit die logical = 0 → t.integ.degraded = true ∧
        ∀ x, x ∈ t.integ.quar → x.unit = unit → x.die = die → x.logical = logical → x.st = 2 ∨ x.st = 3))) ∧
  (∀ unit die logical s, s.integ.remapReady.any (fun r => r.unit == unit && r.die == die && r.logical == logical) = true →
    unitBusy s unit die logical = false → spareFree s unit die logical ≠ 0 →
    ∃ t, exec (.remapApply unit die logical) s = .next t ∧
      physOf t unit die logical = spareIndex (s.integ.spares.getD die {}) unit logical ∧
      t.integ.spares = s.integ.spares.modify die (fun p => takeSpare p unit logical) ∧
      (∀ x, x ∈ t.integ.quar → x.unit = unit → x.die = die → x.logical = logical → x.st = 2) ∧
      t.comp.mem = s.comp.mem ∧ (∀ q, regsOf t q = regsOf s q) ∧ t.coll = s.coll ∧ t.fab = s.fab ∧ t.tops = s.tops)

/-! ### Time, schedules and the twin -/

/-- TIME_SEND, TIME_PARENT_TIMEOUT, MASTER_TIME_START, MASTER_SYNC_ELAPSED, SYNC_TIMEOUT, and a TIME frame from the
parent (R302 to R304, R306, R509, R510): the offset of the exchange steps the time in SYNC and steers it after, more
than 1 µs is TIME_FAULT, and the third exchange within 2 ns is the lock. -/
def Obligations.FabricTimeIsKept : Prop :=
  (∀ s, s.fab.tim.lastSend + 1000000 ≤ s.fabricTime →
    ∃ t, exec .timeSend s = .next t ∧
      (∀ p, (laneAt t p).locals = (laneAt s p).locals ++
        List.replicate (if portUp s p then (s.fab.ports.map (·.1)).count p else 0) (sealUnit (timeUnit s p))) ∧
      (∀ p, { laneAt t p with locals := [] } = { laneAt s p with locals := [] }) ∧
      t = { s with fab := { s.fab with lanes := t.fab.lanes, tim := { s.fab.tim with lastSend := s.fabricTime } }, dbg := t.dbg }) ∧
  (∀ s, keepsTime s = true → steersAlone s = false → s.fab.tim.lastParent + 3000000 ≤ s.now →
    ∃ t, exec .timeParentTimeout s = .next t ∧ t = { s with fab := { s.fab with tim := t.fab.tim }, attn := t.attn, dbg := t.dbg } ∧
      (∀ p, chooseParent s = some p → t.attn = s.attn ∧
        t.fab.tim = { s.fab.tim with
          parent := some p, good := 0, lastParent := s.now
          stratum := if s.fab.tim.stratum = 0xFF then 0xFF else min 254 ((portAt s p).peerStratum + 1) }) ∧
      (chooseParent s = none → s.fab.tim.state ≠ 0 → t.attn = s.attn ||| aSched ∧
        t.fab.tim = { s.fab.tim with state := 2, parent := none, good := 0, slew := 0, lastParent := s.now,
                                     errBits := s.fab.tim.errBits ||| 4 }) ∧
      (chooseParent s = none → s.fab.tim.state = 0 → t.attn = s.attn ∧
        t.fab.tim = { s.fab.tim with parent := none, good := 0, slew := 0, lastParent := s.now })) ∧
  (∀ s, s.fab.tim.master = true → s.fab.tim.started = false → s.mgt.st = .sync → s.mgt.syncAt + 3000000 ≤ s.now →
    chooseParent s = none →
    ∃ t, exec .masterTimeStart s = .next t ∧ t = { s with
      fabricTime := 0, dbg := t.dbg
      fab := { s.fab with tim := { s.fab.tim with started := true, state := 1, stratum := 0, parent := none, lastSend := 0 } } }) ∧
  (∀ s, s.mgt.st = .sync → s.fab.tim.master = true → s.mgt.syncAt + 1000000000 ≤ s.now →
    ∃ t, exec .masterSyncElapsed s = .next t ∧ t = { s with
      mgt := { s.mgt with st := .ready, bootMs := (s.now - s.mgt.bootAt) / 1000000 % 2 ^ 32 }, dbg := t.dbg }) ∧
  (∀ s, s.mgt.st = .sync → s.fab.tim.state ≠ 1 → s.mgt.syncAt + 10000000000 ≤ s.now →
    ∃ t, exec .syncTimeout s = .next t ∧ t = { s with attn := s.attn ||| aSched, dbg := t.dbg }) ∧
  (∀ l p u s, let v := asType 10 u
    let g (off n : Nat) := leVal (slice u.payload off n)
    let heard := setPort s p (fun P => { P with
      timeRx := (g 0 8, s.fabricTime), peerSched := (g 24 8, g 41 1 % 4, g 32 8), peerStratum := g 40 1,
      peerHold := natBit (g 41 1) 2 || natBit (g 41 1) 3, timeAt := some s.now })
    let off : Int := 1000 * ((g 0 8 : Nat) - (s.fabricTime : Int)) + 500 * (((s.fabricTime : Int) - (g 8 8 : Nat)) - ((g 0 8 : Nat) - (g 16 8 : Nat)))
    let ns := (off + 500) / 1000
    let T := s.fab.tim
    portOf s l = some p → (laneAt s l).st = .up → unitHeaderOk v = true → crc32c u.payload = u.crc →
    typeAllowed s l v = true → keepsTime s = true → steersAlone s = false → T.parent = some p →
    chooseParent heard = some p → g 8 8 ≠ 0 →
    ∃ t, exec (.timeFrame l u) s = .next t ∧ t.fab.tim.offsetPs = off ∧ t.fab.tim.lastParent = s.now ∧
      t.fab.tim.good = (if off.natAbs ≤ 2000 then T.good + 1 else 0) ∧
      t.fabricTime = (if s.mgt.st = .sync then ((s.fabricTime : Int) + ns).toNat else s.fabricTime) ∧
      (let locks := off.natAbs ≤ 2000 ∧ 2 ≤ T.good
       (¬ locks → s.mgt.st ≠ .sync → t.fab.tim.slew = ns) ∧
       (¬ locks → s.mgt.st ≠ .sync → 1000000 < off.natAbs →
         t.fab.tim.state = 3 ∧ t.fab.tim.errBits = T.errBits ||| 8 ∧ t.attn = s.attn ||| aSched) ∧
       (off.natAbs ≤ 1000000 → t.attn = s.attn ∧ t.fab.tim.errBits = T.errBits) ∧
       (¬ locks → t.mgt = s.mgt ∧ t.fab.tim.parent = some p ∧
         t.fab.tim.stratum = if T.stratum = 0xFF then 0xFF else min 254 (g 40 1 + 1)) ∧
       (locks → t.fab.tim.state = 1 ∧
         (if T.master then t.fab.tim.stratum = 0 ∧ t.fab.tim.started = true ∧ t.fab.tim.parent = none ∧ t.fab.tim.slew = 0 ∧
            t.mgt = s.mgt
          else t.fab.tim.stratum = min 254 (g 40 1 + 1) ∧ t.mgt = (if s.mgt.st = .sync then
            { s.mgt with st := .ready, bootMs := (s.now - s.mgt.bootAt) / 1000000 % 2 ^ 32 } else s.mgt)))) ∧
      t.coll = s.coll ∧ t.comp = s.comp ∧ t.tops = s.tops ∧ t.pwr = s.pwr ∧ t.integ = s.integ ∧ t.fab.bpm = s.fab.bpm)

/-- GATE_SWAP and STRETCH_EXPIRY (R269, R310, R311, R317, R322): the lists of the new factor take over at the stated
boundary, a factor above 1.0 begins a hold, and the FLAG_WAIT deadlines scale. STRETCH_RENEW (R316, R319) originates the
request for the expiry boundary. SCHED_MISMATCH (R324) reports a neighbour on the same schedule that differs. -/
def Obligations.SchedulesSwapAndStretch : Prop :=
  (∀ s b f, s.fab.tim.sched.pending = some (b, f) → s.fab.tim.sched.loaded = true → b ≤ s.fabricTime →
    ∃ t, exec .gateSwap s = .next t ∧
      (let sc := s.fab.tim.sched
       t.fab.tim = { s.fab.tim with sched := { sc with
         pending := sc.queued, queued := none, active := true, oldFactor := sc.factor, factor := f, base := b, activeSince := b,
         expiry := if f = 0 then 0 else b + sc.hold * cycleLen sc.cycleNs f, expiryFactor := 0,
         held := sc.held.filter (fun h => s.fabricTime < h.2.1) } } ∧
       t.stretchQ = 4 + f ∧ (sc.active = true → t.fab.ports = s.fab.ports) ∧
       (∀ q, (queueAt t q).deadline = if f = sc.factor then (queueAt s q).deadline
         else (queueAt s q).deadline * (4 + f) / (4 + sc.factor))) ∧
      t.fab.lanes = s.fab.lanes ∧ t.coll = s.coll ∧ t.integ = s.integ ∧ KeepsData s t) ∧
  (∀ s, let sc := s.fab.tim.sched
    sc.active = true → sc.factor ≠ 0 → sc.expiry ≤ s.fabricTime →
    ∃ t, exec .stretchExpiry s = .next t ∧
      t.fab = { s.fab with tim := { s.fab.tim with sched := { sc with
         oldFactor := sc.factor, factor := sc.expiryFactor, base := sc.expiry, activeSince := sc.expiry,
         expiry := if sc.expiryFactor = 0 then 0 else sc.expiry + sc.hold * cycleLen sc.cycleNs sc.expiryFactor, expiryFactor := 0,
         held := sc.held.filter (fun h => s.fabricTime < h.2.1) } } } ∧
      t.stretchQ = 4 + sc.expiryFactor ∧
      (∀ q, (queueAt t q).deadline = if sc.expiryFactor = sc.factor then (queueAt s q).deadline
         else (queueAt s q).deadline * (4 + sc.expiryFactor) / (4 + sc.factor)) ∧
      t.coll = s.coll ∧ KeepsData s t) ∧
  (∀ s, let sc := s.fab.tim.sched
    sc.active = true → sc.factor ≠ 0 → sc.renewed ≠ sc.expiry → neededFactor s ≠ 0 →
    sc.expiry ≤ s.fabricTime + 2000 * sc.swapLeadUs → s.fabricTime < sc.expiry →
    ∃ t, exec .stretchRenew s = .next t ∧ t.fab.tim.sched.renewed = sc.expiry ∧
      t.fab.tim.sched.ownSeq = (sc.ownSeq + 1) % 2 ^ 16 ∧ (isUnmet s = true → t.fab.tim.errBits &&& 32 = 32 ∧ t.attn &&& aSched = aSched) ∧
      (let key := (s.fab.moduleIndex % 2 ^ 15) % 2 ^ 16 + ((sc.ownSeq + 1) % 2 ^ 16) * 2 ^ 16
       sc.held.any (fun h => h.1 == key) = false → sc.schedId < 2 ^ 64 → sc.expiry < 2 ^ 64 → neededFactor s < 3 →
       stretchValid sc sc.schedId sc.expiry s.fabricTime (neededFactor s) = true → s.fabricTime + 10000 ≤ sc.expiry →
       t.fab.tim.sched.held = sc.held ++ [(key, sc.expiry, neededFactor s)] ∧
       (sc.pending = none → t.fab.tim.sched.expiryFactor = max sc.expiryFactor (neededFactor s))) ∧
      t.coll = s.coll ∧ KeepsData s t) ∧
  (∀ p s, let sc := s.fab.tim.sched
    let n := (portAt s p).peerSched
    isLanePort s p = true → sc.active = true → n.1 = sc.schedId → (n.2.1 ≠ sc.factor ∨ n.2.2 ≠ sc.activeSince) →
    max n.2.2 sc.activeSince + 1000000 < s.fabricTime →
    ∃ t, exec (.schedMismatch p) s = .next t ∧ t = { s with
      fab := { s.fab with tim := { s.fab.tim with errBits := s.fab.tim.errBits ||| 16 } }, attn := s.attn ||| aSched, dbg := t.dbg })

/-- HELLO_SEND (R478) sends the HELLO of the module's state by the twin port. TWIN_SILENCE_TIMEOUT (R479 to R482): after
1 ms without a unit from the twin, ROLE 0 of a pair goes on alone and ROLE 1 is DETACHED, with its work halted; a
resync ends on both sides. -/
def Obligations.TwinsSpeakAndFallSilent : Prop :=
  (∀ s, s.fab.twin.present = true → portUp s s.fab.twin.port = true →
    (helloBytes s ≠ s.fab.twin.helloLast ∨ s.fab.twin.helloAt + 100000 ≤ s.now) →
    ∃ t, exec .helloSend s = .next t ∧ t.fab.twin = { s.fab.twin with helloAt := s.now, helloLast := helloBytes s } ∧
      t.fab.lanes = s.fab.lanes ∧ t.coll = s.coll ∧ FabricOnly s t) ∧
  (∀ s, s.fab.twin.heardAt + 1000000 ≤ s.now → s.fab.twin.st = .paired → s.fab.twin.role = 0 →
    ∃ t, exec .twinSilenceTimeout s = .next t ∧ t.fab.twin.st = .solo ∧ t.fab.twin.lastLoss = 2 ∧ t.fab.twin.gradsOut = [] ∧
      (∀ j, (jobAt t j).voteHold = false) ∧ t.attn &&& aTwin = aTwin ∧ KeepsData s t) ∧
  (∀ s, s.fab.twin.heardAt + 1000000 ≤ s.now → s.fab.twin.st = .paired → s.fab.twin.role ≠ 0 →
    ∃ t, exec .twinSilenceTimeout s = .next t ∧ t.fab.twin.st = .detached ∧ t.fab.twin.lastLoss = 2 ∧ t.fab.twin.intact = true ∧
      (∀ q, q < 64 → (queueAt s q).bound = true → (queueAt s q).qtype ≠ .coll → (queueAt s q).st ≠ .frozen →
        (queueAt s q).st ≠ .idle → (queueAt t q).st = .halted) ∧
      t.attn &&& aTwin = aTwin ∧ KeepsData s t) ∧
  (∀ s, s.fab.twin.heardAt + 1000000 ≤ s.now → s.fab.twin.st = .syncing →
    ∃ t, exec .twinSilenceTimeout s = .next t ∧ t.fab.twin.st = .detached ∧ t.fab.twin.lastLoss = 2 ∧ t.coll = s.coll ∧ KeepsData s t) ∧
  (∀ s, s.fab.twin.heardAt + 1000000 ≤ s.now → s.fab.twin.st = .solo → s.fab.twin.serving ≠ [] →
    ∃ t, exec .twinSilenceTimeout s = .next t ∧ t.fab.twin = { s.fab.twin with serving := [], synced := [] } ∧
      (∀ h, h ∈ t.coll.shards → ∀ r, r ∈ h.reads → r.1 ≠ 8) ∧ KeepsData s t)

/-! ### Power and thermal -/

/-- FEED_STATE_CHANGE, FEED_SWITCHOVER and FEEDS_LOST (R486, R487): the state of a feed is that of its voltage, in units
of 10 mV; the other feed takes the load; with neither the module is OFF and holds nothing. -/
def Obligations.FeedsCarryTheModule : Prop :=
  (∀ feed v s, feed < 2 → s.mgt.st ≠ .off →
    let f : FeedSt := if v < 0 then .reversed else if v < 3800 then .absent else if v < 4000 then .marginal
      else if v ≤ 6000 then .good else if v ≤ 6300 then .marginal else .overvolt
    ∃ t, exec (.feedStateChange feed v) s = .next t ∧ t.pwr.feeds = s.pwr.feeds.set feed f ∧
      t.pwr.feedV10 = s.pwr.feedV10.set feed v.toNat ∧
      t.pwr.active = (if feedStopped { s.pwr with feeds := t.pwr.feeds, feedV10 := t.pwr.feedV10 } then s.pwr.active
        else conducting { s.pwr with feeds := t.pwr.feeds, feedV10 := t.pwr.feedV10 }) ∧
      (if f ≠ s.pwr.feeds.getD feed .absent ∧ (f = .marginal ∨ f = .overvolt ∨ f = .reversed) then
        t.attn = s.attn ||| aPower ∧ newest t 2 = some ⟨s.fabricTime % 2 ^ 48, 7, false, feedReg t % 2 ^ 64⟩
       else t.attn = s.attn ∧ t.rings = s.rings) ∧
      t = { s with pwr := { s.pwr with feeds := t.pwr.feeds, feedV10 := t.pwr.feedV10, active := t.pwr.active },
                   attn := t.attn, rings := t.rings, dbg := t.dbg }) ∧
  (∀ s, s.mgt.st ≠ .off → feedStopped s.pwr = true → s.pwr.feeds.any (·.carries) = true →
    ∃ t, exec .feedSwitchover s = .next t ∧
      t.pwr = { s.pwr with active := conducting s.pwr, switchovers := min 0xFFF (s.pwr.switchovers + 1) } ∧
      t.attn = s.attn ||| aPower ∧ newest t 2 = some ⟨s.fabricTime % 2 ^ 48, 7, false, feedReg t % 2 ^ 64⟩ ∧
      t = { s with pwr := t.pwr, attn := t.attn, rings := t.rings, dbg := t.dbg }) ∧
  (∀ s, s.mgt.st ≠ .off → s.pwr.feeds.any (·.carries) = false →
    ∃ t, exec .feedsLost s = .next t ∧ t.mgt.st = .off ∧ (∀ r, (railAt t r).st = 0) ∧ t.comp = {} ∧ t.tops = [] ∧ t.coll = {} ∧
      (∀ k, (sessAt t k).valid = false) ∧ t.mgt.stagedFw = none ∧ t.mgt.stagedCfg = none ∧ t.mgt.loads = [] ∧
      t.mgt.fuses = s.mgt.fuses ∧ t.pwr.feeds = s.pwr.feeds ∧ t.pins = s.pins ∧ t.attn = s.attn)

/-- CURRENT_SAMPLE, RAIL_SHORT_DETECT and SENSE_OPEN_DETECT (R489, R490): above 125 % of its limit a rail is shut and the
module enters SAFE; VCOMP is gated and stepped down, VHBM gates the memory requests, and the others set OVER. -/
def Obligations.RailsAreLimited : Prop :=
  (∀ rail i mv s, railOn s rail = true → powered s = true → (railAt s rail).limitDa * 5 < i * 4 →
    ∃ t, exec (.currentSample rail i mv) s = .next t ∧ EnteredSafe s t rail ∧ (railAt t rail).short = true ∧
      (railAt t rail).st = 3) ∧
  (∀ d i mv s, railOn s d = true → d < 4 → d < s.pwr.dies.length → i * 4 ≤ (railAt s d).limitDa * 5 →
    let D := diePwr s d
    let L := limitOf s d
    let ungated := if D.gated then i * 100 / max 1 D.dutyPct else i
    ∃ t, exec (.currentSample d i mv) s = .next t ∧
      (forwardOnly s = true → diePwr t d = D ∧ railAt t d = { railAt s d with iDa := i, measMv := mv }) ∧
      (forwardOnly s = false → L < ungated →
          diePwr t d = { D with gated := true, dutyPct := max 1 (min 99 (L * 100 / max 1 ungated)),
                                vcompMv := max 550 (D.vcompMv - 5) } ∧
        railAt t d = { railAt s d with iDa := i, measMv := mv, st := 2, setMv := max 550 ((railAt s d).setMv - 5) }) ∧
      (forwardOnly s = false → ungated ≤ L → D.gated = true → diePwr t d = { D with gated := false, dutyPct := 100 } ∧
        railAt t d = { railAt s d with iDa := i, measMv := mv, st := 1 }) ∧
      (ungated ≤ L → D.gated = false → diePwr t d = D ∧ railAt t d = { railAt s d with iDa := i, measMv := mv }) ∧
      (∀ r, r ≠ d → railAt t r = railAt s r ∧ diePwr t r = diePwr s r) ∧
      t = { s with pwr := { s.pwr with rails := t.pwr.rails, dies := t.pwr.dies }, dbg := t.dbg }) ∧
  (∀ i mv s, railOn s 5 = true → i * 4 ≤ (railAt s 5).limitDa * 5 →
    let L := (railAt s 5).limitDa
    ∃ t, exec (.currentSample 5 i mv) s = .next t ∧
      t.pwr.hbmGate = (List.range 4).map (fun d => min (if L < i then L * 100 / max 1 i else 100) (thermalGate s d)) ∧
      railAt t 5 = { railAt s 5 with iDa := i, measMv := mv, st := if L < i then 2 else 1 } ∧
      (∀ r, r ≠ 5 → railAt t r = railAt s r) ∧
      t = { s with pwr := { s.pwr with rails := t.pwr.rails, hbmGate := t.pwr.hbmGate }, dbg := t.dbg }) ∧
  (∀ rail i mv s, railOn s rail = true → (rail = 4 ∨ rail = 6 ∨ rail = 7) → i * 4 ≤ (railAt s rail).limitDa * 5 →
    ∃ t, exec (.currentSample rail i mv) s = .next t ∧
      (if (railAt s rail).limitDa < i then railAt t rail = { railAt s rail with iDa := i, measMv := mv, overLim := true } ∧
          t.attn = s.attn ||| aPower ∧ newest t 2 = some ⟨s.fabricTime % 2 ^ 48, 7, false, railReg t rail % 2 ^ 64⟩
       else railAt t rail = { railAt s rail with iDa := i, measMv := mv } ∧ t.attn = s.attn ∧ t.rings = s.rings) ∧
      (∀ r, r ≠ rail → railAt t r = railAt s r) ∧
      t = { s with pwr := { s.pwr with rails := t.pwr.rails }, attn := t.attn, rings := t.rings, dbg := t.dbg }) ∧
  (∀ rail i c s, railOn s rail = true → powered s = true → (c = true ∨ (railAt s rail).limitDa * 5 < i * 4) →
    ∃ t, exec (.railShortDetect rail i c) s = .next t ∧ EnteredSafe s t rail ∧ (railAt t rail).short = true ∧
      (railAt t rail).st = 3) ∧
  (∀ rail s, railOn s rail = true → (railAt s rail).senseOpen = false →
    ∃ t, exec (.senseOpenDetect rail) s = .next t ∧ railAt t rail = { railAt s rail with senseOpen := true } ∧
      (∀ r, r ≠ rail → railAt t r = railAt s r) ∧ t.attn = s.attn ||| aPower ∧
      newest t 2 = some ⟨s.fabricTime % 2 ^ 48, 7, false, railReg t rail % 2 ^ 64⟩ ∧
      t = { s with pwr := { s.pwr with rails := t.pwr.rails }, attn := t.attn, rings := t.rings, dbg := t.dbg })

/-- POWER_WINDOW (R491 to R493, R489, R496, R500): the achievable rate of each die, its voltage step, its limit within its
rail's, and the energy. THERMAL_THRESHOLD (R496), INLET_TEMPERATURE and FLOW_LOW_DETECT (R497). -/
def Obligations.PowerAndHeatAreHeld : Prop :=
  (∀ m s, powered s = true → s.pwr.windowAt + 1000 * s.pwr.windowUs ≤ s.now →
    ∃ t, exec (.powerWindow m) s = .next t ∧ t.pwr.windowAt = s.now ∧ t.pwr.pInW = m.pInW ∧
      t.pwr.ejob = s.pwr.ejob.zipIdx.map (fun x => satAdd x.1 (m.eJob.getD x.2 0)) ∧
      t.pwr.equeue = s.pwr.equeue.zipIdx.map (fun x => satAdd x.1 (m.eQueue.getD x.2 0)) ∧
      t.pwr.eother = satAdd s.pwr.eother m.eOther ∧
      (∀ d, d < 4 → dieExists s d = true → d < s.pwr.dies.length →
        let D := diePwr s d
        let a := m.rate.getD d 0 * min 100 (m.duty.getD d 100) * 97 / 10000
        let low := !D.gated && m.iDa.getD d 0 * 10 < D.limitDa * 9
        let v := if forwardOnly s then 550 else if D.thermal && 93 < D.tmaxC then max 550 (D.vcompMv - 5)
          else if low && 7 ≤ D.lowWindows && !D.thermal && D.vcompMv + 5 ≤ s.pwr.vcompMax then D.vcompMv + 5 else D.vcompMv
        (diePwr t d).aMts = min 0xFFF a ∧ (diePwr t d).vcompMv = v ∧
        (d < s.pwr.rails.length → (railAt t d).setMv = v) ∧
        (diePwr t d).lowWindows = (if low && !forwardOnly s then min 8 (D.lowWindows + 1) else 0) ∧
        (diePwr t d).limitDa ≤ (railAt s d).limitDa ∧ (diePwr t d).phase = phaseAt s d s.fabricTime ∧
        (s.fab.tim.sched.active = true →
          ((diePwr t d).needed, (diePwr t d).unmet) = neededOf a s.fab.tim.sched.schedRate)) ∧
      t.comp = s.comp ∧ t.coll = s.coll ∧ t.tops = s.tops ∧ t.mgt = s.mgt ∧ t.integ = s.integ) ∧
  (∀ g tc s, powered s = true → critTemp g ≤ tc →
    ∃ t, exec (.thermalThreshold g tc) s = .next t ∧ EnteredSafe s t (0x80 + sensorKey g) ∧
      (∀ k, k < s.mgt.hbm.length → (t.mgt.hbm.getD k (0, 0)).2 = if g = .hbm k then min 255 tc else (s.mgt.hbm.getD k (0, 0)).2)) ∧
  (∀ g tc s, powered s = true → lookupD s.pwr.levels (sensorKey g) 0 < 3 → tc < critTemp g →
    ∃ t, exec (.thermalThreshold g tc) s = .next t ∧
      (lookupD s.pwr.levels (sensorKey g) 0 = 0 → (if noticeTemp g ≤ tc then
          t.attn = s.attn ||| aPower ∧ newest t 2 = some ⟨s.fabricTime % 2 ^ 48, 7, false, thermReg s % 2 ^ 64⟩
        else t.attn = s.attn ∧ t.rings = s.rings ∧ lookupD t.pwr.levels (sensorKey g) 0 = 0)) ∧
      (lookupD s.pwr.levels (sensorKey g) 0 ≠ 0 → t.attn = s.attn ∧ t.rings = s.rings ∧
        (tc + 3 ≤ noticeTemp g → lookupD t.pwr.levels (sensorKey g) 0 = 0)) ∧
      (∀ d, g = .die d → d < s.pwr.dies.length → (diePwr t d).tmaxC = min 255 tc ∧
        (95 ≤ tc → (diePwr t d).thermal = true) ∧ (tc + 3 ≤ 95 → (diePwr t d).thermal = false)) ∧
      (∀ k d, g = .hbm k → d < 4 → k / 3 = d → 95 ≤ tc → t.pwr.hbmGate.getD d 100 ≤ 50) ∧
      (∀ k, g = .hbm k → k < s.mgt.hbm.length → (t.mgt.hbm.getD k (0, 0)).2 = min 255 tc) ∧
      t = { s with pwr := { s.pwr with levels := t.pwr.levels, dies := t.pwr.dies, hbmGate := t.pwr.hbmGate },
                   mgt := { s.mgt with hbm := t.mgt.hbm }, attn := t.attn, rings := t.rings, dbg := t.dbg }) ∧
  (∀ i o s, powered s = true →
    ∃ t, exec (.inletTemperature i o) s = .next t ∧
      (let flow := if o ≤ i then 0xFFF else min 0xFFF (s.pwr.pInW * 6000000 / (4186 * (o - i)))
       t.pwr = { s.pwr with
         inletC := min 255 (i / 1000), outletC := min 255 (o / 1000), flowCl := flow, inletHigh := 45000 < i,
         capReduced := if 50000 < i then true else if i ≤ 45000 then false else s.pwr.capReduced,
         flowSince := if flow < 240 ∧ 400 ≤ s.pwr.pInW then some (s.pwr.flowSince.getD s.now) else none,
         flowLow := s.pwr.flowLow && decide (flow < 240 ∧ 400 ≤ s.pwr.pInW) }) ∧
      (if 45000 < i ∧ s.pwr.inletHigh = false then
        t.attn = s.attn ||| aPower ∧ newest t 2 = some ⟨s.fabricTime % 2 ^ 48, 7, false, thermReg t % 2 ^ 64⟩
       else t.attn = s.attn ∧ t.rings = s.rings) ∧
      t = { s with pwr := t.pwr, attn := t.attn, rings := t.rings, dbg := t.dbg }) ∧
  (∀ n s, powered s = true → s.pwr.flowSince = some n → n + 1000000000 ≤ s.now → s.pwr.flowLow = false →
    ∃ t, exec .flowLowDetect s = .next t ∧ t.pwr = { s.pwr with flowLow := true } ∧ t.attn = s.attn ||| aPower ∧
      newest t 2 = some ⟨s.fabricTime % 2 ^ 48, 7, false, thermReg t % 2 ^ 64⟩ ∧
      t = { s with pwr := t.pwr, attn := t.attn, rings := t.rings, dbg := t.dbg })

/-! ### Start-up, pins and debug ports -/

/-- POWER_ON (R509 to R511): with a GOOD feed an OFF module resets and Holly starts, unless CARRIER_RESET_N holds it.
CONFIG_APPLY (R523, R524): the first record that breaks its rule, or a missing type, is reported and the module stays in
CONFIG; else the records hold, the rails rise and TRAIN begins. -/
def Obligations.HollyStartsAndConfigures : Prop :=
  (∀ feed v s, feed < 2 → 4000 ≤ v → v ≤ 6000 →
    (s.mgt.st = .off ∨ (s.mgt.st = .boot ∧ s.pwr.feeds.all (· == .absent) = true)) →
    ∃ t, exec (.powerOn feed v) s = .next t ∧
      HasReset (setPwr { s with rings := [], comp := {} } (fun p => { p with feeds := p.feeds.set feed .good })) t 0 ∧
      (if s.pins.carrierReset then t.mgt.st = .boot else hollyEnds s t)) ∧
  (∀ s rs bad, s.mgt.st = .config → acceptRecords s (imageIndex s.mgt.records) s.mgt.records [] 0 = (rs, bad) →
    (∀ i, bad = some i → ∃ t, exec .configApply s = .next t ∧
      t = { s with mgt := { s.mgt with cfgRecord := i % 2 ^ 16 }, attn := s.attn ||| aFault, dbg := t.dbg }) ∧
    (bad = none → (∃ k, k ∈ [1, 2, 4, 0xE, 0xF, 0x10, 0x11] ∧ ∀ r, r ∈ rs → r.typ ≠ k) →
      ∃ t, exec .configApply s = .next t ∧ t.mgt.st = .config ∧ t.attn = s.attn ||| aFault ∧ t.fab = s.fab ∧ t.pwr = s.pwr) ∧
    (bad = none → (∀ k, k ∈ [1, 2, 4, 0xE, 0xF, 0x10, 0x11] → ∃ r, r ∈ rs ∧ r.typ = k) →
      ∃ t, exec .configApply s = .next t ∧ t.mgt.st = .train ∧
        (∀ d i, .domain d i ∈ rs → t.fab.domain = d ∧ t.fab.moduleIndex = i) ∧
        (∀ js, .queues js ∈ rs → t.mgt.queueJobs = js) ∧ (∀ ks, .topiaryKeys ks ∈ rs → t.mgt.topiaryKeys = ks) ∧
        (∀ ks, .hostRoots ks ∈ rs → t.mgt.hostRoots = ks) ∧ (∀ as n, .mgmt as n ∈ rs → t.mgt.addrs = as ∧ t.mgt.udpPort = n) ∧
        (∀ r, r < 7 → r < s.pwr.rails.length → (r ≠ 3 ∨ s.grade = 0) → (railAt t r).st = 1) ∧
        t.comp = s.comp ∧ t.coll = s.coll ∧ t.tops = s.tops ∧ t.attn = s.attn))

/-- TRAINING_COMPLETE, IMAGE_REQUEST_REPEAT and IMAGE_VERIFY_COMPLETE (R43, R44, R510, R515 to R518, R520, R544). -/
def Obligations.TrainingAndImagesEnd : Prop :=
  (∀ hbm ddr s, s.mgt.st = .train →
    (s.mgt.trainAt + 500000000 ≤ s.now ∨ ∀ x, x ∈ s.fab.lanes → x.2.enable = true → x.2.st = .up) →
    ∃ t, exec (.trainingComplete hbm ddr) s = .next t ∧ t.mgt.ddr = (List.range 8).map (ddrTrained ddr) ∧
      (∀ k, k < 12 → dieExists s (k / 3) = true → (t.mgt.hbm.getD k (0, 0)).1 = if hbm.getD k false then 1 else 2) ∧
      t.mgt.st = (if (List.range 12).any (fun k => dieExists s (k / 3) && !hbm.getD k false) || s.integ.degraded then
        MState.degraded else MState.sync) ∧
      (t.mgt.st = .sync → t.mgt.syncAt = s.now) ∧ (populationOk ddr = false → t.attn &&& aFault = aFault) ∧
      (tierGib t < s.dbg.traceGib + s.fab.mirrorGib ∨ tierGib t = 0 → t.dbg.traceGib = 0 ∧ t.fab.mirrorGib = 0 ∧ t.attn &&& aFault = aFault) ∧
      t.comp = s.comp ∧ t.coll = s.coll ∧ t.tops = s.tops ∧ t.pwr = s.pwr ∧ t.fab.lanes = s.fab.lanes) ∧
  (∀ s, s.mgt.st = .recovery → s.mgt.fwRunning = false → imageComplete s.fab.twin = false → portUp s 0x100 = true →
    (s.fab.twin.imageAskAt = 0 ∨ s.fab.twin.imageAskAt + 1000000000 ≤ s.now) →
    ∃ t, exec .imageRequestRepeat s = .next t ∧ t.fab.twin = { s.fab.twin with imageAskAt := s.now } ∧
      (portUp s s.fab.twin.port = true → ((portAt t s.fab.twin.port).out.getLast?).map (·.unit) =
        some (sealUnit (twinFrame 6 5 0x180 0 0 0xFFFFFFFF (firstMissing s.fab.twin) 0 (padTo 256 [])))) ∧
      t.coll = s.coll ∧ FabricOnly s t) ∧
  (∀ s, s.mgt.st = .recovery → s.mgt.fwRunning = false → imageComplete s.fab.twin = true →
    let bs := twinImage s.fab.twin
    ∃ t, exec (.imageVerifyComplete .twin) s = .next t ∧ t.fab.twin.image = [] ∧
      (firmwareCause s bs ≠ 0 → t.mgt = s.mgt ∧ t.attn = s.attn ||| aSec) ∧
      (firmwareCause s bs = 0 → t.mgt.fwRunning = true ∧ t.mgt.fwSource = 1 ∧ t.mgt.fwBytes = imageOf bs ∧ t.mgt.stagedFw = none ∧
        (t.mgt.st = .config ∨ (t.mgt.st = .recovery ∧ t.mgt.cause = configCause s s.mgt.nor.config))) ∧
      t.comp = s.comp ∧ t.coll = s.coll) ∧
  (∀ s x, s.mgt.stagedFw = some x → x.complete = true → x.verified = false →
    ∃ t, exec (.imageVerifyComplete .firmware) s = .next t ∧
      (firmwareCause s x.bytes ≠ 0 → t.mgt.stagedFw = none ∧ t.mgt.st = s.mgt.st ∧ t.attn = s.attn ||| aSec ∧
        (∀ k tag crc, x.ask = some (k, tag, crc) → (sessAt s k).valid = true →
          (t.mgt.replies.head?).map (fun r => (r.session, r.tag, r.result)) = some (k, tag, Res.verify.code))) ∧
      (firmwareCause s x.bytes = 0 → s.mgt.st = .recovery → s.mgt.fwRunning = false →
        t.mgt.fwRunning = true ∧ t.mgt.fwSource = 2 ∧ t.mgt.fwBytes = imageOf x.bytes) ∧
      (firmwareCause s x.bytes = 0 → s.mgt.st ≠ .recovery → t.mgt.stagedFw = some { x with verified := true, ask := none } ∧
        (∀ k tag crc, x.ask = some (k, tag, crc) → (sessAt s k).valid = true →
          (t.mgt.replies.head?).map (fun r => (r.session, r.tag, r.result)) = some (k, tag, Res.ok.code))) ∧
      t.comp = s.comp ∧ t.coll = s.coll) ∧
  (∀ s x, s.mgt.stagedCfg = some x → x.complete = true → x.verified = false →
    ∃ t, exec (.imageVerifyComplete .config) s = .next t ∧
      (configCause s x.bytes ≠ 0 → t.mgt.stagedCfg = none ∧ t.mgt.st = s.mgt.st ∧ t.attn = s.attn ||| aSec) ∧
      (configCause s x.bytes = 0 → t.mgt.stagedCfg = some { x with verified := true, ask := none } ∧ t.attn = s.attn ∧
        (if (s.mgt.st = .recovery ∧ s.mgt.fwRunning = true) ∨ s.mgt.st = .config then
          t.mgt.st = .config ∧ t.mgt.cfgBytes = imageOf x.bytes else t.mgt.st = s.mgt.st)) ∧
      t.comp = s.comp ∧ t.coll = s.coll)

/-- CARRIER_RESET_N, LSR_EN, SB3V3 and the management ports' links (R553, R588, R590, R596). I3C and JTAG (R569, R587):
what each read or instruction shifts out; no debug port writes module state. What a boundary scan captures is a free
value (R569 gives no cells). -/
def Obligations.PinsActAndDebugPortsRead : Prop :=
  (∀ s, s.mgt.st ≠ .off → ∃ t, exec .carrierResetAssert s = .next t ∧ HasReset s t 2 ∧ t.mgt.st = .boot ∧
    t.pins.carrierReset = true ∧ t.fab.ports = []) ∧
  (∀ s, s.mgt.st = .off → ∃ t, exec .carrierResetAssert s = .next t ∧
    t = { s with pins := { s.pins with carrierReset := true }, dbg := t.dbg }) ∧
  (∀ s, s.pins.carrierReset = true → s.mgt.st = .boot → s.pwr.feeds.any (·.carries) = true →
    ∃ t, exec .carrierResetRelease s = .next t ∧ hollyEnds s t ∧ t.pins.carrierReset = false ∧ t.comp = { s.comp with tlb := t.comp.tlb }) ∧
  (∀ s, ∃ t, exec (.lsrEnChange false) s = .next t ∧ t.pins = { s.pins with lsrEn := false } ∧
    (∀ l, l < 256 → (laneAt t l).st = .down ∨ (laneAt t l).st = .disabled) ∧ t.coll = s.coll ∧ KeepsData s t) ∧
  (∀ s, s.pins.sideband = true → ∃ t, exec (.lsrEnChange true) s = .next t ∧
    t = { s with pins := { s.pins with lsrEn := true }, dbg := t.dbg }) ∧
  (∀ s, s.mgt.st ≠ .off → ∃ t, exec .sb3v3Loss s = .next t ∧ t.mgt.st = .boot ∧ t.mgt.resetCause = 2 ∧
    t.pins = { s.pins with sideband := false, lsrEn := false, carrierReset := true, ddrSpd := 0 } ∧ t.tops = [] ∧
    (∀ k, (sessAt t k).valid = false)) ∧
  (∀ port st fec s, port < 2 → st < 3 → s.mgt.st ≠ .off → ∃ t, exec (.mgtPortLinkChange port st fec) s = .next t ∧
    t = { s with mgt := { s.mgt with ports := s.mgt.ports.set port (st, fec) }, dbg := t.dbg }) ∧
  (∀ s, s.mgt.st ≠ .off → s.mgt.st ≠ .boot → ∃ t, exec .i3cPrivateRead s = .next t ∧
    t = { s with dbg := { s.dbg with queue := t.dbg.queue, drops := t.dbg.drops,
                                     i3cOut := leBytes 8 (stateReg s) ++ leBytes 8 (feedReg s) ++ leBytes 8 (thermReg s) ++
                                       leBytes 8 (twinStatus s) } }) ∧
  (∀ bs s, ∃ t, exec (.i3cWrite bs) s = .next t ∧ t = { s with dbg := { s.dbg with queue := t.dbg.queue, drops := t.dbg.drops } }) ∧
  (∀ s, s.mgt.st ≠ .off →
    (∀ x, (s.mgt.st = .recovery ∨ s.mgt.st = .safe) → ∃ t, exec (.extest x) s = .next t ∧
      Shifts { s with freeCtr := s.freeCtr + 1 } t Config.boundaryLength (Config.boundaryScan s.freeCtr)) ∧
    (∀ x, s.mgt.st ≠ .recovery → s.mgt.st ≠ .safe → ∃ t, exec (.extest x) s = .next t ∧ Shifts s t 1 0) ∧
    (∃ t, exec .idcode s = .next t ∧ Shifts s t 32
      ((s.mgt.silicon % 16) <<< 28 + (if s.grade = 0 then 0x6400 else 0x4800) <<< 12 + Config.jedecCode.toNat <<< 1 + 1)) ∧
    (∀ x, ∃ t, exec (.samplePreload x) s = .next t ∧
      Shifts { s with freeCtr := s.freeCtr + 1 } t Config.boundaryLength (Config.boundaryScan s.freeCtr)) ∧
    (∀ dr : BitVec 24, ∃ t, exec (.ringSel dr) s = .next t ∧
      Shifts { s with dbg := { s.dbg with jtagRing := natField dr.toNat 23 8, jtagIndex := natField dr.toNat 5 0 } } t 24 dr.toNat) ∧
    (∃ t, exec .ringData s = .next t ∧
      Shifts s t 128 (if ringOk s.dbg.jtagRing = true ∧ (s.grade = 0 ∨ ringDie3 s.dbg.jtagRing = false) then
        leVal (ringBytes s s.dbg.jtagRing s.dbg.jtagIndex) else 0)) ∧
    (∃ t, exec .jtagState s = .next t ∧ Shifts s t 64 (stateReg s)) ∧
    (∀ code : BitVec 8, code.toNat ∉ [0x00, 0x01, 0x02, 0x20, 0x21, 0x22] → ∃ t, exec (.bypass code) s = .next t ∧ Shifts s t 1 0))

/-! ### Management requests -/

/-- What becomes of a management request that does not run (R534, R535, R539, R540): AUTH outside a session, a silent
discard for a bad session or sequence number, the cached reply for a repeat, and FORMAT, STATE, FROZEN and BUSY. -/
def Obligations.RequestsAreTurnedAway : Prop :=
  ∀ c h op ops bad sub free s, fmdOf c = some (h, op, ops, bad, sub, free) →
    (listens s = false → ∃ t, exec c s = .next t ∧ t = { s with dbg := t.dbg }) ∧
    (listens s = true → h.slot = none → ∃ t, exec c s = .next t ∧ t = { s with dbg := t.dbg, mgt := { s.mgt with replies :=
      { session := 8, tag := h.tag, opcode := op, result := Res.auth.code, attn := 0 } :: s.mgt.replies } }) ∧
    (∀ k, listens s = true → h.slot = some k →
      (((sessAt s k).valid = false ∨ seqOk (sessAt s k) h.seq = false) → ∃ t, exec c s = .next t ∧
        t = { s with mgt := { s.mgt with fmdCnt := bumpAt s.mgt.fmdCnt 1 1, secFailAt := t.mgt.secFailAt }, attn := t.attn,
                     dbg := t.dbg } ∧
        (if (∃ n, s.mgt.secFailAt = some n ∧ s.now < n + 1000000000) then
          t.attn = s.attn ∧ t.mgt.secFailAt = s.mgt.secFailAt
         else t.attn = s.attn ||| aSec ∧ t.mgt.secFailAt = some s.now)) ∧
      ((sessAt s k).valid = true → seqOk (sessAt s k) h.seq = true →
        (∀ e, cached s k h.tag op ops = some e → ∃ t, exec c s = .next t ∧
          t = { s with dbg := t.dbg, mgt := { s.mgt with
            fmdCnt := bumpAt s.mgt.fmdCnt 3 1, sessions := t.mgt.sessions
            replies := { session := k, tag := h.tag, opcode := op, result := e.result, attn := attnByte s, payload := e.payload } ::
              s.mgt.replies } } ∧
          (sessAt t k).cache = (sessAt s k).cache ∧ (∀ j, j ≠ k → sessAt t j = sessAt s j)) ∧
        (cached s k h.tag op ops = none →
          ((h.tag = 0xFFFF ∨ bad = true) → ∃ t, exec c s = .next t ∧ TurnedAway c s t k .format) ∧
          (h.tag ≠ 0xFFFF → bad = false → serves s op sub = false → ∃ t, exec c s = .next t ∧ TurnedAway c s t k .state) ∧
          (h.tag ≠ 0xFFFF → bad = false → serves s op sub = true → free = false → isFrozen s 0 (reqId 3 k 0) = true →
            ∃ t, exec c s = .next t ∧ TurnedAway c s t k .frozen) ∧
          (h.tag ≠ 0xFFFF → bad = false → serves s op sub = true → (free = true ∨ isFrozen s 0 (reqId 3 k 0) = false) →
            sessionCells (noteMessage s k h) k (8 + ops.length) = none →
            ∃ t, exec c s = .next t ∧ TurnedAway c s t k .busy))))

/-- FMD_DISCARD, SECURED_MESSAGE_DISCARD, ARP_ND_REQUEST, ICMP_ECHO, SPDM, KEY_EXCHANGE, FINISH, GET_MEASUREMENTS,
END_SESSION and SESSION_TIMEOUT (R526 to R528, R533 to R535, R538). -/
def Obligations.NetworkAndSessions : Prop :=
  (∀ p s, listens s = true → p < 2 → ∃ t, exec (.fmdDiscard p) s = .next t ∧
    t = { s with mgt := { s.mgt with fmdCnt := bumpAt s.mgt.fmdCnt 0 1 }, dbg := t.dbg }) ∧
  (∀ id tagOk seq s, listens s = true →
    (∀ x, s.mgt.sessions.find? (fun x => x.valid && x.id == id) = some x → tagOk = false ∨ seqOk x seq = false) →
    ∃ t, exec (.securedMessageDiscard id tagOk seq) s = .next t ∧ t.mgt.fmdCnt = bumpAt s.mgt.fmdCnt 1 1 ∧
      t.mgt.replies = s.mgt.replies ∧ (s.mgt.secFailAt = none → t.attn = s.attn ||| aSec) ∧
      t = { s with mgt := { s.mgt with fmdCnt := t.mgt.fmdCnt, secFailAt := t.mgt.secFailAt }, attn := t.attn, dbg := t.dbg }) ∧
  (∀ p target body s, listens s = true →
    (ownAddr s p target = true →
      (∃ t, exec (.arpNdRequest p target) s = .next t ∧
        t = { s with mgt := { s.mgt with netOut := (p, beBytes 6 (s.mgt.macs.getD p 0)) :: s.mgt.netOut }, dbg := t.dbg }) ∧
      (∃ t, exec (.icmpEcho p target body) s = .next t ∧
        t = { s with mgt := { s.mgt with netOut := (p, body) :: s.mgt.netOut }, dbg := t.dbg })) ∧
    (ownAddr s p target = false →
      (∃ t, exec (.arpNdRequest p target) s = .next t ∧
        t = { s with mgt := { s.mgt with fmdCnt := bumpAt s.mgt.fmdCnt 0 1 }, dbg := t.dbg }) ∧
      (∃ t, exec (.icmpEcho p target body) s = .next t ∧
        t = { s with mgt := { s.mgt with fmdCnt := bumpAt s.mgt.fmdCnt 0 1 }, dbg := t.dbg }))) ∧
  (∀ c h bs plain s rsp, spdmOf s c = some (h, bs, plain, rsp) → listens s = true → h.slot = none →
    ∃ t, exec c s = .next t ∧
      t = { s with dbg := t.dbg, mgt := { s.mgt with
        fmdCnt := if plain then bumpAt s.mgt.fmdCnt 2 1 else s.mgt.fmdCnt, handshake := t.mgt.handshake
        replies := { session := 8, tag := h.tag, opcode := 1, result := if plain then 0 else Res.auth.code, attn := 0
                     payload := if plain then rsp else [] } :: s.mgt.replies } } ∧
      (∀ id, c = .keyExchange h id → ∀ k, freeSlot s = some k → t.mgt.handshake = some { slot := k, id := id })) ∧
  (∀ c h bs plain s rsp k x u, spdmOf u c = some (h, bs, plain, rsp) →
    h.slot = some k → listens s = true → (sessAt s k).valid = true → seqOk (sessAt s k) h.seq = true →
    cached s k h.tag 1 bs = none → h.tag ≠ 0xFFFF → serves s 1 0 = true → isFrozen s 0 (reqId 3 k 0) = false →
    sessionCells (noteMessage s k h) k (8 + bs.length) = some (u, x) →
    ∃ t, exec c s = .next t ∧ t.mgt.fmdCnt = bumpAt s.mgt.fmdCnt 2 1 ∧ t.mgt.replies =
      { session := k, tag := h.tag, opcode := 1, result := 0, attn := attnByte t, payload := rsp } :: s.mgt.replies ∧
      t.comp = s.comp ∧ t.coll = s.coll ∧ t.pwr = s.pwr ∧ t.integ = s.integ) ∧
  (∀ h id key proof s x k, listens s = true → s.mgt.handshake = some x → x.id = id → freeSlot s = some k →
    k < s.mgt.sessions.length →
    let s1 := setMgt s (fun m => { m with handshake := none })
    ∃ t, exec (.finish h id key proof) s = .next t ∧ t.mgt.handshake = none ∧
      (if proof = true ∧ requesterOk s (sha512Bytes key) = true then
        sessAt t k = { valid := true, port := h.port, ipv6 := h.ipv6, id := id, lastAt := s.now } ∧ t.attn = s.attn
       else t.mgt.sessions = s.mgt.sessions ∧ t.attn = s.attn ||| aSec ∧ (t.mgt.replies.head?).map (·.result) = some Res.auth.code) ∧
      (∀ j, j ≠ k → sessAt t j = sessAt s j) ∧
      t = { s1 with mgt := { s1.mgt with sessions := t.mgt.sessions, replies := t.mgt.replies, fmdCnt := t.mgt.fmdCnt },
                    attn := t.attn, dbg := t.dbg }) ∧
  (∀ h s k x u, let bs := Config.spdmRequest 0xEC 0
    h.slot = some k → listens s = true → (sessAt s k).valid = true → seqOk (sessAt s k) h.seq = true →
    cached s k h.tag 1 bs = none → h.tag ≠ 0xFFFF → serves s 1 0 = true → isFrozen s 0 (reqId 3 k 0) = false →
    sessionCells (noteMessage s k h) k (8 + bs.length) = some (u, x) →
    ∃ t, exec (.endSession h) s = .next t ∧ SessionEnded s t k ∧
      (t.mgt.replies.head?).map (fun r => (r.session, r.tag, r.result, r.payload)) =
        some (k, h.tag, 0, Config.spdmResponse .endSessionAck [])) ∧
  (∀ k s, k < 8 → (sessAt s k).valid = true → (sessAt s k).lastAt + 120000000000 ≤ s.now →
    ∃ t, exec (.sessionTimeout k) s = .next t ∧ SessionEnded s t k ∧ t.attn = s.attn ||| aSec ∧ t.mgt.replies = s.mgt.replies)

/-- READ_REG, READ_BLOCK and REG_ACCESS_TIMEOUT (R17, R18, R28, R531, R543): the value that the map gives, or the result
of the first access that fails with the values before it; an access that its die does not complete is DEADLINE. -/
def Obligations.RegistersAreRead : Prop :=
  (∀ h a s k u, let c : Instr := .readReg h a
    Runs c s k u → (dieSilent s a.toNat = false ∨ accessCheck u a.toNat ≠ none) →
    ∃ t, exec c s = .next t ∧ Settled k s t ∧
      (match readRegister u a.toNat with
        | .ok v => Answers c s t k .ok (beBytes 8 v)
        | .error r => Answers c s t k r [])) ∧
  (∀ h a s k u, let c : Instr := .readReg h a
    Runs c s k u → dieSilent s a.toNat = true → accessCheck u a.toNat = none →
    ∃ t, exec c s = .next t ∧ Answers c s t k .deadline [] ∧ t.attn &&& aFault = aFault ∧
      newest t 0 = some ⟨s.fabricTime % 2 ^ 48, 1, false, a.toNat % 2 ^ 32⟩ ∧
      Settled k { s with rings := t.rings, attn := s.attn ||| aFault } t) ∧
  (∀ h a n s k u m (vs : List Nat), let c : Instr := .readBlock h a n
    let at8 (i : Nat) := a.toNat + 8 * i
    let done (m : Nat) := beBytes 2 m ++ List.replicate 6 0 ++ vs.flatMap (beBytes 8)
    Runs c s k u → m ≤ n → vs.length = m →
    (∀ i v, vs[i]? = some v → readRegister u (at8 i) = .ok v ∧ dieSilent s (at8 i) = false) →
    (∀ r, m < n → readRegister u (at8 m) = .error r → (dieSilent s (at8 m) = false ∨ accessCheck u (at8 m) ≠ none) →
      ∃ t, exec c s = .next t ∧ Settled k s t ∧ Answers c s t k r (done m)) ∧
    (m < n → dieSilent s (at8 m) = true → accessCheck u (at8 m) = none →
      ∃ t, exec c s = .next t ∧ Answers c s t k .deadline (done m) ∧ t.attn &&& aFault = aFault ∧
        Settled k { s with rings := t.rings, attn := s.attn ||| aFault } t) ∧
    (m = n → ∃ t, exec c s = .next t ∧ Settled k s t ∧ Answers c s t k .ok (done n))) ∧
  (∀ h acc a s k u, let c : Instr := .regAccessTimeout h ⟨a, acc⟩
    let late (t : State) (at' : Nat) (pl : List Byte) : Prop := Answers c s t k .deadline pl ∧ t.attn &&& aFault = aFault ∧
      newest t 0 = some ⟨s.fabricTime % 2 ^ 48, 1, false, at' % 2 ^ 32⟩ ∧
      Settled k { s with rings := t.rings, attn := s.attn ||| aFault } t
    Runs c s k u →
    (acc = .read → accessCheck u a.toNat = none → ∃ t, exec c s = .next t ∧ late t a.toNat []) ∧
    (∀ v, acc = .write v → (s.mgt.custKey.isSome = true ∨ inSec a.toNat = true) → accessCheck u a.toNat = none →
      ∃ t, exec c s = .next t ∧ late t a.toNat []) ∧
    (∀ v, acc = .write v → s.mgt.custKey = none → inSec a.toNat = false →
      ∃ t, exec c s = .next t ∧ Settled k s t ∧ Answers c s t k .auth []) ∧
    (∀ n m (vs : List Nat), acc = .block n m → m < n → vs.length = m →
      (∀ i v, vs[i]? = some v → readRegister u (a.toNat + 8 * i) = .ok v ∧ dieSilent s (a.toNat + 8 * i) = false) →
      accessCheck u (a.toNat + 8 * m) = none →
      ∃ t, exec c s = .next t ∧
        late t (a.toNat + 8 * m) (beBytes 2 m ++ List.replicate 6 0 ++ vs.flatMap (beBytes 8))))

/-- WRITE_REG and the rows that name one register (R19, R158, R330, R357, R359, R362, R386, R397, R401, R484, R502, R503,
R527, R531, R548, R559, R566): a write whose condition holds has its effect and answers OK; any other changes nothing.
FUSE_BURN_COMPLETE (R531). -/
def Obligations.RegistersAreWritten : Prop :=
  (∀ c h a v s k u, regWriteOf c = some (h, a, v) → Runs c s k u →
    (s.mgt.custKey = none → inSec a = false → ∃ t, exec c s = .next t ∧ Settled k s t ∧ Answers c s t k .auth []) ∧
    ((s.mgt.custKey.isSome = true ∨ inSec a = true) →
      (∀ r, accessCheck u a = some r → ∃ t, exec c s = .next t ∧ Settled k s t ∧ Answers c s t k r []) ∧
      (accessCheck u a = none → ∀ r w, writeAt u k a (v % 2 ^ 64) = (r, w) →
        ∃ t, exec c s = .next t ∧ Settled k w t ∧ Answers c s t k r []))) ∧
  (∀ h v s k u, let c : Instr := .capWrite h v
    let cap := natField v.toNat 44 33
    let w := natField v.toNat 32 28
    let m := natField v.toNat 27 18
    Runs c s k u → s.mgt.custKey.isSome = true →
    ∃ t, exec c s = .next t ∧ (if 600 ≤ cap ∧ cap ≤ tdp s ∧ 1 ≤ w ∧ w ≤ 16 ∧ 550 ≤ m ∧ m ≤ 850 ∧ m % 5 = 0 then
      Answers c s t k .ok [] ∧ Settled k { s with pwr := { s.pwr with capW := cap, windowUs := w, vcompMax := m } } t
     else Answers c s t k .range [] ∧ Settled k s t)) ∧
  (∀ h r v s k u, let c : Instr := .railLimitWrite h r v
    let l := natField v.toNat 15 2
    let x := railAt s r
    Runs c s k u → s.mgt.custKey.isSome = true → r < 8 → (r ≠ 3 ∨ s.grade = 0) →
    ∃ t, exec c s = .next t ∧ (if (limitRange r).1 ≤ l ∧ l ≤ (limitRange r).2 then
      Answers c s t k .ok [] ∧ Settled k { s with pwr := { s.pwr with
        rails := s.pwr.rails.set r { x with limitDa := l, overLim := x.overLim && !natBit v.toNat 59 } } } t
     else Answers c s t k .range [] ∧ Settled k s t)) ∧
  (∀ h i v s k u, let c : Instr := .ageLimitWrite h i v
    let n := v.toNat % 2 ^ 32
    Runs c s k u → s.mgt.custKey.isSome = true → i < 8 →
    ∃ t, exec c s = .next t ∧ (if 1000 ≤ n ∧ n ≤ 10000000 then
      Answers c s t k .ok [] ∧ Settled k { s with fab := { s.fab with ageLimit := s.fab.ageLimit.set i n } } t
     else Answers c s t k .range [] ∧ Settled k s t)) ∧
  (∀ h j v s k u, let c : Instr := .weightWrite h (.classW j) v
    let ws := (List.range 7).map (fun i => natField v.toNat (8 * i + 7) (8 * i))
    Runs c s k u → s.mgt.custKey.isSome = true → j < 16 →
    ∃ t, exec c s = .next t ∧ (if 0 ∈ ws then Answers c s t k .range [] ∧ Settled k s t
     else Answers c s t k .ok [] ∧ Settled k { s with fab := { s.fab with classW := s.fab.classW.set j ws } } t)) ∧
  (∀ h p x v s k u, let c : Instr := .weightWrite h (.jobW p x) v
    let ws := (List.range 8).map (fun i => natField v.toNat (8 * i + 7) (8 * i))
    let P := portAt s p
    Runs c s k u → s.mgt.custKey.isSome = true → (isLanePort s p = true ∨ (272 ≤ p ∧ portIdOk p = true)) → x < 2 →
    ∃ t, exec c s = .next t ∧ (if 0 ∈ ws then Answers c s t k .range [] ∧ Settled k s t
     else Answers c s t k .ok [] ∧ Settled k
       (setPort s p (fun _ => { P with jobW := if x = 0 then ws ++ slice P.jobW 8 8 else slice P.jobW 0 8 ++ ws })) t)) ∧
  (∀ h n w v s k u, let c : Instr := .profileWrite h n w v
    let o := s.fab.profiles.getD n {}
    let f (i j : Nat) := natField v.toNat i j
    let p : Profile := if w = 0 then { o with cir := f 63 40, pir := f 39 16, policed := f 15 8, yellowIn := f 7 0 }
      else { o with cbs := f 63 40, pbs := f 39 16, aware := natBit v.toNat 0 }
    Runs c s k u → s.mgt.custKey.isSome = true → n < 64 → w < 2 →
    ∃ t, exec c s = .next t ∧ (if 1 ≤ p.cir ∧ p.cir ≤ p.pir ∧ 64 ≤ p.cbs ∧ 64 ≤ p.pbs then
      Answers c s t k .ok [] ∧ Settled k { s with fab := { s.fab with profiles := s.fab.profiles.set n p } } t
     else Answers c s t k .range [] ∧ Settled k s t)) ∧
  (∀ h v s k u, let c : Instr := .polDataWrite h v
    let p := natField s.fab.polSel 15 7
    let j := natField s.fab.polSel 3 0
    let n := natField v.toNat 62 57
    let F := s.fab.profiles.getD n {}
    Runs c s k u → s.mgt.custKey.isSome = true → (isLanePort s p = true ∨ 272 ≤ p) →
    ∃ t, exec c s = .next t ∧ Answers c s t k .ok [] ∧ Settled k (setPort s p (fun P => { P with
      meters := insertKey P.meters j { lookupD P.meters j {} with
        enable := natBit v.toNat 63, profile := n, tc := F.cbs * 1000, tp := F.pbs * 1000, last := s.fabricTime } })) t) ∧
  (∀ h v s k u, let c : Instr := .mirrorDestWrite h v
    Runs c s k u → s.mgt.custKey.isSome = true →
    ∃ t, exec c s = .next t ∧
      (v.toNat % 4 = 0 → Answers c s t k .ok [] ∧ Settled k { s with fab := { s.fab with mirrorDest := 0 } } t) ∧
      (v.toNat % 4 = 1 → (if s.fab.mirrorGib = 0 then Answers c s t k .state [] ∧ Settled k s t
        else Answers c s t k .ok [] ∧ Settled k { s with fab := { s.fab with mirrorDest := 1 } } t)) ∧
      (v.toNat % 4 = 2 → Answers c s t k .ok [] ∧
        Settled k { s with fab := { s.fab with mirrorDest := 2, mirrorSession := some k } } t) ∧
      (v.toNat % 4 = 3 → Answers c s t k .format [] ∧ Settled k s t)) ∧
  (∀ h p v s k u, let c : Instr := .mirrorCfgWrite h p v
    let ls := (List.range 8).map (fun i => natField v.toNat (5 * i + 4) (5 * i))
    Runs c s k u → s.mgt.custKey.isSome = true → (isLanePort s p = true ∨ (272 ≤ p ∧ portIdOk p = true)) →
    ∃ t, exec c s = .next t ∧ (if ∀ n, n ∈ ls → n ≤ 20 ∨ n = 31 then Answers c s t k .ok [] ∧
        Settled k (setPort s p (fun P => { P with mirrorLog := ls, mirrorSeq := List.replicate 8 0 })) t
     else Answers c s t k .format [] ∧ Settled k s t)) ∧
  (∀ h v s k u, let c : Instr := .lagSelWrite h v
    Runs c s k u → s.mgt.custKey.isSome = true →
    ∃ t, exec c s = .next t ∧ (if dieExists s (natField v.toNat 63 62) then Answers c s t k .ok [] ∧
        Settled k { s with dbg := { s.dbg with lagSel := v.toNat - v.toNat % 2 ^ 43 } } t
     else Answers c s t k .unitAbsent [] ∧ Settled k s t)) ∧
  (∀ h d v s k u, let c : Instr := .lagClear h d v
    Runs c s k u → s.mgt.custKey.isSome = true → d < 4 →
    ∃ t, exec c s = .next t ∧ (if dieExists s d then Answers c s t k .ok [] ∧
        Settled k { s with coll := { s.coll with lagWorst := t.coll.lagWorst, lag := t.coll.lag, lagFull := t.coll.lagFull } } t ∧
        (∀ x, x ∈ t.coll.lagWorst ↔ x ∈ s.coll.lagWorst ∧ ¬(x.1 / 16 = d ∧ natBit v.toNat (x.1 % 16) = true)) ∧
        (∀ x, x ∈ t.coll.lag ↔ x ∈ s.coll.lag ∧ ¬(x.1 / 2 ^ 15 / 16 = d ∧ natBit v.toNat (x.1 / 2 ^ 15 % 16) = true))
     else Answers c s t k .unitAbsent [] ∧ Settled k s t)) ∧
  (∀ h v s k u, let c : Instr := .timSet h v
    Runs c s k u → s.mgt.custKey.isSome = true →
    ∃ t, exec c s = .next t ∧ (if s.fab.tim.master = true ∧ s.mgt.st = .sync ∧ s.fab.tim.setDone = false then
      Answers c s t k .ok [] ∧ Settled k { s with fabricTime := v.toNat, fab := { s.fab with tim := { s.fab.tim with
        started := true, setDone := true, state := 1, stratum := 0, parent := none
        lastSend := v.toNat - (s.fabricTime - s.fab.tim.lastSend) } } } t
     else Answers c s t k .state [] ∧ Settled k s t)) ∧
  (∀ h s k u, let c : Instr := .detach h
    Runs c s k u → s.mgt.custKey.isSome = true →
    ∃ t, exec c s = .next t ∧ (if s.fab.twin.st = .paired ∨ s.fab.twin.st = .solo then
      Answers c s t k .ok [] ∧ t.fab.twin.st = .detached ∧ t.fab.twin.lastLoss = 3 ∧ t.fab.twin.intact = false ∧
        t.attn &&& aTwin = aTwin ∧ t.comp.mem = s.comp.mem ∧ (∀ q, regsOf t q = regsOf s q) ∧ t.tops = s.tops ∧ t.pwr = s.pwr
     else Answers c s t k .state [] ∧ Settled k s t)) ∧
  (∀ h s k u, let c : Instr := .forceSolo h
    Runs c s k u → s.mgt.custKey.isSome = true →
    ∃ t, exec c s = .next t ∧ (if s.fab.twin.st = .detached ∧ s.fab.twin.intact = true ∧ portUp s s.fab.twin.port = false then
      Answers c s t k .ok [] ∧ t.fab.twin.st = .solo ∧ t.attn &&& aTwin = aTwin ∧ t.comp.mem = s.comp.mem ∧
        (∀ q, regsOf t q = regsOf s q) ∧ t.tops = s.tops ∧ t.pwr = s.pwr
     else Answers c s t k .state [] ∧ Settled k s t)) ∧
  (∀ h l n e s k u, let c : Instr := .retrain h l n e
    let L := laneAt s l
    Runs c s k u → s.mgt.custKey.isSome = true → l < 272 → L.enable = true →
    ∃ t, exec c s = .next t ∧ Answers c s t k .ok [] ∧ (laneAt t l).nakLimit = n % 16 ∧ (laneAt t l).enable = e ∧
      (laneAt t l).st = (if e then .down else .disabled) ∧ (laneAt t l).retry = (if e ∧ L.st = .down then L.retry else []) ∧
      (e = true → L.st ≠ .down → t.attn &&& aFault = aFault) ∧
      t.comp = s.comp ∧ t.coll = s.coll ∧ t.pwr = s.pwr) ∧
  (∀ h l n e s k u, let c : Instr := .laneEnable h l n e
    let L := laneAt s l
    Runs c s k u → s.mgt.custKey.isSome = true → l < 272 →
    ∃ t, exec c s = .next t ∧ Answers c s t k .ok [] ∧ (laneAt t l).nakLimit = n % 16 ∧ (laneAt t l).enable = e ∧
      (laneAt t l).st = (if L.enable then (if e then L.st else .disabled) else (if e then .down else L.st)) ∧
      t.comp = s.comp ∧ t.coll = s.coll ∧ t.pwr = s.pwr) ∧
  (∀ h s k u, let c : Instr := .burnCust h
    Runs c s k u →
    ∃ t, exec c s = .next t ∧ (if s.mgt.burn ≠ .none then Answers c s t k .busy [] ∧ Settled k s t
     else if s.mgt.fuses.custHash.isSome then Answers c s t k .state [] ∧ Settled k s t
     else Answers c s t k .ok [] ∧ Settled k { s with mgt := { s.mgt with burn := .cust (s.mgt.custStage.flatMap (leBytes 8)) } } t)) ∧
  (∀ h v s k u, let c : Instr := .svnAdvance h v
    Runs c s k u →
    ∃ t, exec c s = .next t ∧ (if s.mgt.burn ≠ .none then Answers c s t k .busy [] ∧ Settled k s t
     else if s.mgt.fuses.svnMin < v % 64 ∧ v % 64 ≤ s.mgt.fwSvn then
       Answers c s t k .ok [] ∧ Settled k { s with mgt := { s.mgt with burn := .svn (v % 64) } } t
     else Answers c s t k .range [] ∧ Settled k s t)) ∧
  (∀ s, s.mgt.burn ≠ .none → ∃ t, exec .fuseBurnComplete s = .next t ∧
    t = { s with mgt := { s.mgt with fuses := t.mgt.fuses, burn := .none }, attn := s.attn ||| aSec, dbg := t.dbg } ∧
    (∀ x, s.mgt.burn = .cust x → t.mgt.fuses = { s.mgt.fuses with custHash := some x }) ∧
    (∀ v, s.mgt.burn = .svn v → t.mgt.fuses = { s.mgt.fuses with svnMin := v }) ∧
    (∀ x v, s.mgt.burn = .both x v → t.mgt.fuses = { s.mgt.fuses with custHash := some x, svnMin := v }))

/-! ### Snapshots, rings and traces -/

/-- COUNTER_SNAPSHOT and its events (R546), EVENT_RING_READ (R568), TRACE_CTRL and the writing of records (R562 to R564),
ATTN_ACK (R550), NOP and RESERVED_OPCODE (R539, R541). -/
def Obligations.SnapshotsRingsAndTraces : Prop :=
  (∀ h s k u, let c : Instr := .counterSnapshotTake h
    Runs c s k u →
    ∃ t, exec c s = .next t ∧ (if s.snap.any (fun x => x.owner != k) then Answers c s t k .state [] ∧ Settled k s t
     else t.mgt.replies = s.mgt.replies ∧ Settled k { s with
       snap := some { owner := k, time := s.fabricTime + 10000 }
       dbg := { s.dbg with snapOwed := s.dbg.snapOwed ++ [(k, h.tag, s.fabricTime + 10000)] } } t)) ∧
  (∀ h s k u, let c : Instr := .counterSnapshotRelease h
    Runs c s k u →
    ∃ t, exec c s = .next t ∧ (if s.snap.any (fun x => x.owner == k) then
        Answers c s t k .ok [] ∧ Settled k { s with snap := none } t
     else Answers c s t k .state [] ∧ Settled k s t)) ∧
  (∀ s x k tag n, s.snap = some x → x.copy = none → x.time ≤ s.fabricTime → s.dbg.snapOwed = [(k, tag, n)] → n ≤ s.fabricTime →
    (sessAt s k).valid = true →
    ∃ t, exec .snapshotFreeze s = .next t ∧ t.snap = some { x with copy := some (counters s) } ∧ t.dbg.snapOwed = [] ∧
      t.mgt.replies = { session := k, tag := tag, opcode := 0x13, result := 0, attn := attnByte s, payload := beBytes 8 n } ::
        s.mgt.replies ∧ t.comp = s.comp ∧ t.fab = s.fab ∧ t.coll = s.coll ∧ t.integ = s.integ ∧ t.pwr = s.pwr) ∧
  (∀ s x, s.snap = some x → x.time + 60000000000 ≤ s.fabricTime →
    ∃ t, exec .snapshotExpiry s = .next t ∧ t = { s with snap := none, dbg := t.dbg }) ∧
  (∀ h r f n s k u, let c : Instr := .eventRingRead h r f n
    Runs c s k u →
    ∃ t, exec c s = .next t ∧ Settled k s t ∧ (if 64 < f + n ∨ ringOk r = false then Answers c s t k .range []
     else if s.grade ≠ 0 ∧ ringDie3 r = true then Answers c s t k .unitAbsent []
     else Answers c s t k .ok ((List.range n).flatMap (fun i => ringBytes s r (f + i))))) ∧
  (∀ h m s k u, let c : Instr := .traceCtrlStart h m
    Runs c s k u →
    ∃ t, exec c s = .next t ∧ (if s.dbg.traceGib = 0 ∨ tierGib s = 0 ∨ s.dbg.running = true then
        Answers c s t k .state [] ∧ Settled k s t
     else Answers c s t k .ok [] ∧ Settled k { s with
       dbg := { s.dbg with running := true, draining := false, stopFull := m == 1, wrIndex := 0 } } t)) ∧
  (∀ h s k u, let c : Instr := .traceCtrlStop h
    Runs c s k u → ∃ t, exec c s = .next t ∧ Answers c s t k .ok [] ∧
      Settled k { s with dbg := { s.dbg with draining := s.dbg.running } } t) ∧
  (∀ h s k u, let c : Instr := .traceCtrlStatus h
    Runs c s k u → ∃ t, exec c s = .next t ∧ Settled k s t ∧
      Answers c s t k .ok (beBytes 8 (traceStatusReg s) ++ beBytes 8 (traceFilterReg s))) ∧
  (∀ h x j s k u, let c : Instr := .traceCtrlFilter h x j
    Runs c s k u → ∃ t, exec c s = .next t ∧ Answers c s t k .ok [] ∧
      Settled k { s with dbg := { s.dbg with sources := x.toNat % 2 ^ 10, jobs := j.toNat } } t) ∧
  (∀ s, s.dbg.running = true → s.dbg.draining = true →
    ∃ t, exec .traceDrainComplete s = .next t ∧ t.dbg.running = false ∧ t.dbg.draining = false ∧ t.dbg.queue = [] ∧
      t = { s with comp := { s.comp with mem := t.comp.mem }, attn := t.attn, dbg := t.dbg } ∧
      (s.dbg.queue = [] → t = { s with dbg := { s.dbg with running := false, draining := false } })) ∧
  (∀ s r rest, s.dbg.queue = r :: rest → s.dbg.running = true → mirrorWaits s = false →
    let n := traceSlots s
    ∃ t, exec .traceRecordWrite s = .next t ∧
      (if n ≤ s.dbg.wrIndex + 1 ∧ s.dbg.stopFull = true then
        t = { s with dbg := { s.dbg with queue := [], running := false, draining := false }, attn := s.attn ||| aTraceWrap }
       else t.comp = { s.comp with mem := s.comp.mem.writeRun (memKey 2 0 (Config.traceBase + 32 * s.dbg.wrIndex)) r.bytes32 } ∧
        t.dbg = { s.dbg with
          queue := rest, wrIndex := if s.dbg.wrIndex + 1 < n then s.dbg.wrIndex + 1 else 0
          wraps := if s.dbg.wrIndex + 1 < n then s.dbg.wraps else min (2 ^ 22 - 1) (s.dbg.wraps + 1) } ∧
        t.attn = (if s.dbg.wrIndex + 1 < n then s.attn else s.attn ||| aTraceWrap) ∧
        t = { s with comp := t.comp, dbg := t.dbg, attn := t.attn })) ∧
  (∀ h m s k u, let c : Instr := .attnAck h m
    Runs c s k u → ∃ t, exec c s = .next t ∧ Answers c s t k .ok [] ∧ Settled k { s with attn := s.attn &&& ~~~(m &&& 0x7F00) } t) ∧
  (∀ h s k u, let c : Instr := .fmdNop h
    Runs c s k u → ∃ t, exec c s = .next t ∧ Answers c s t k .ok [] ∧ Settled k s t) ∧
  (∀ h op bs s k, let c : Instr := .reservedOpcode h op bs
    h.slot = some k → listens s = true → (sessAt s k).valid = true → seqOk (sessAt s k) h.seq = true →
    cached s k h.tag op bs = none → ∃ t, exec c s = .next t ∧ TurnedAway c s t k .format)

/-! ### Queues, loads and images -/

/-- QUEUE_PUSH (R291): the first row of "Push outcomes" that applies. NEXT_SEQ is 0 when a Topiary binds the queue, and
REQUEUE (R297) leaves it: it empties the ring, zeroes the scalar state and records the epoch. -/
def Obligations.QueuesArePushedAndRequeued : Prop :=
  (∀ h q n ws s k u, let c : Instr := .queuePush h q n ws
    let Q := queueAt s q
    Runs c s k u →
    ∃ t, exec c s = .next t ∧
      (if Q.bound = false ∨ Q.st = .halted ∨ Q.st = .frozen then Answers c s t k .state [] ∧ Settled k s t
       else if n = Q.nextSeq - 1 then Answers c s t k .ok [] ∧ Settled k s t
       else if n ≠ Q.nextSeq then Answers c s t k .state [] ∧ Settled k s t
       else if 8192 < Q.ring.length + ws.length then
         Answers c s t k .busy [] ∧ Settled k { s with dbg := { s.dbg with queCnt := t.dbg.queCnt } } t
       else Answers c s t k .ok [] ∧ (queueAt t q).ring = Q.ring ++ ws ∧ (queueAt t q).nextSeq = n + 1 ∧
         (∀ r, r ≠ q → (queueAt t r).ring = (queueAt s r).ring ∧ (queueAt t r).st = (queueAt s r).st) ∧
         (∀ r, regsOf t r = regsOf s r) ∧ t.comp.mem = s.comp.mem ∧
         (Q.st ≠ .idle → (queueAt t q).st = Q.st) ∧
         (Q.st = .idle → blockers s q ≠ [] → (queueAt t q).st = .preempted) ∧
         (Q.st = .idle → blockers s q = [] → Q.wait = .none → Q.ctxSaved = false → (queueAt t q).st = .run) ∧
         Settled k { s with comp := { s.comp with queues := t.comp.queues }, rings := t.rings, attn := t.attn,
                            dbg := { s.dbg with queCnt := t.dbg.queCnt } } t)) ∧
  (∀ j b, (boundQueue j b).nextSeq = 0 ∧ (boundQueue j b).st = .idle ∧ (boundQueue j b).ring = []) ∧
  (∀ h q e s k u, let c : Instr := .requeue h q e
    let Q := queueAt s q
    Runs c s k u →
    ∃ t, exec c s = .next t ∧
      (if Q.bound = false then Answers c s t k .state [] ∧ Settled k s t
       else if Q.st = .halted then Answers c s t k .ok [] ∧
         Settled k { s with comp := { s.comp with queues := t.comp.queues } } t ∧
         (∀ r, r ≠ q → queueAt t r = queueAt s r) ∧
         regsOf t q = ⟨List.replicate 16 0, List.replicate 8 0, List.replicate 8 false, List.replicate 16 {},
           List.replicate 4 {}, List.replicate 16 0⟩ ∧
         (queueAt t q).st = .idle ∧ (queueAt t q).ring = [] ∧ (queueAt t q).pc = 0 ∧ (queueAt t q).inSeg = false ∧
         (queueAt t q).callEpoch = e ∧ (queueAt t q).bound = true ∧ (queueAt t q).job = Q.job ∧ (queueAt t q).nextSeq = Q.nextSeq
       else if Q.st = .idle ∧ Q.requeued = some e then Answers c s t k .ok [] ∧ Settled k s t
       else Answers c s t k .state [] ∧ Settled k s t))

/-- The load session of a Topiary (R279 to R283), CHECKPOINT_READ (R191, R545), IMAGE_PUSH (R544) and
NVM_WRITE (R513). -/
def Obligations.LoadsAndImages : Prop :=
  (∀ h j s k u, let c : Instr := .topiaryLoad h j
    Runs c s k u →
    ∃ t, exec c s = .next t ∧
      (if 16 ≤ j then Answers c s t k .range [] ∧ Settled k s t
       else if (s.mgt.st = .ready ∨ s.mgt.st = .run ∨ s.mgt.st = .degraded) ∧ topOf s j = none ∧ loadOf s j = none ∧
           j ∉ s.mgt.unloading then
         Answers c s t k .ok [] ∧ Settled k { s with mgt := { s.mgt with
           loads := s.mgt.loads ++ [{ job := j, session := k }]
           loadResults := s.mgt.loadResults.filter (fun x => x.1 != j) } } t
       else Answers c s t k .state [] ∧ Settled k s t)) ∧
  (∀ h j o bs s k u, let c : Instr := .imagePush h 0 j o bs
    Runs c s k u →
    ∃ t, exec c s = .next t ∧
      (loadOf s j = none → Answers c s t k .state [] ∧ Settled k s t) ∧
      (∀ L, loadOf s j = some L →
        let all := L.bytes ++ bs
        if L.session ≠ k ∨ L.committed = true ∨ o ≠ L.bytes.length then Answers c s t k .state [] ∧ Settled k s t
        else
          let closed := { s with mgt := { s.mgt with loads := s.mgt.loads.filter (fun l => l.job != j) } }
          match (if 256 ≤ all.length then headerFault s j all else none) with
          | some r => Answers c s t k r [] ∧ Settled k closed t
          | none =>
            if 256 ≤ all.length ∧ topLen all < all.length then Answers c s t k .range [] ∧ Settled k closed t
            else Answers c s t k .ok [] ∧ Settled k { s with mgt := { s.mgt with
              loads := s.mgt.loads.map (fun l => if l.job == j then { l with bytes := all } else l) } } t)) ∧
  (∀ h i j o bs s k u, let c : Instr := .imagePush h i j o bs
    (i = 1 ∨ i = 2) → Runs c s k u →
    let held := if o = 0 then some [] else ((stagedOf s i).filter (fun x =>
      x.session == k && !x.complete && o == x.bytes.length)).map (·.bytes)
    let staged (x : Option Staged) : State := { s with mgt :=
      if i = 1 then { s.mgt with stagedFw := x } else { s.mgt with stagedCfg := x } }
    ∃ t, exec c s = .next t ∧
      (if s.mgt.st = .recovery ∧ s.mgt.fwRunning = true ∧ i = 1 then Answers c s t k .state [] ∧ Settled k s t
       else match held with
        | none => Answers c s t k .state [] ∧ Settled k s t
        | some old =>
          let all := old ++ bs
          if imageMax i < all.length ∨ (16 ≤ all.length ∧ imageLen all < all.length) then
            Answers c s t k .range [] ∧ Settled k (staged none) t
          else if 16 ≤ all.length ∧ imageLen all = all.length then
            let ask := some (k, h.tag, crc32c (pushOps i j o bs))
            t.mgt.replies = s.mgt.replies ∧
              Settled k (staged (some { session := k, bytes := all, complete := true, ask := ask })) t
          else Answers c s t k .ok [] ∧ Settled k (staged (some { session := k, bytes := all })) t)) ∧
  (∀ h j x s k u, let c : Instr := .topiaryCommit h j x
    Runs c s k u →
    ∃ t, exec c s = .next t ∧
      (∀ L, loadOf s j = some L →
        if L.session ≠ k ∨ L.bytes.length < 256 ∨ L.bytes.length < topLen L.bytes ∨ (topHeader L.bytes).topiaryId ≠ x.toNat then
          Answers c s t k .state [] ∧ Settled k s t
        else Answers c s t k .busy [] ∧ Settled k { s with mgt := { s.mgt with
          loads := s.mgt.loads.map (fun l => if l.job == j then { l with committed := true } else l) } } t) ∧
      (loadOf s j = none → Settled k s t ∧ Answers c s t k
        (match s.mgt.loadResults.find? (fun r => r.1 == j) with
          | some r => if r.2.1 = x.toNat then r.2.2 else .state
          | none => .state) [])) ∧
  (∀ j s L, s.Ok → loadOf s j = some L → L.committed = true →
    let id := (topHeader L.bytes).topiaryId
    ∃ t, exec (.topiaryActivate j) s = .next t ∧ loadOf t j = none ∧ (∀ r, regsOf t r = regsOf s r ∨ (queueAt t r).bound = true) ∧
      (∀ r, loadCheck s L.bytes = .error r →
        t = { s with dbg := t.dbg, mgt := { s.mgt with
          loads := s.mgt.loads.filter (fun l => l.job != j)
          loadResults := (j, id, r) :: s.mgt.loadResults.filter (fun x => x.1 != j) } }) ∧
      (∀ x, loadCheck s L.bytes = .ok x → t.tops = s.tops ++ [x.top] ∧
        t.mgt.loadResults = (j, id, .ok) :: s.mgt.loadResults.filter (fun x => x.1 != j) ∧
        t.mgt.st = (if s.mgt.st = .ready then .run else s.mgt.st) ∧
        (∀ b, b ∈ x.top.qbinds → b.queue < 64 → (queueAt t b.queue).bound = true ∧ (queueAt t b.queue).job = x.top.job ∧
          (queueAt t b.queue).st = .idle ∧ (queueAt t b.queue).ring = [] ∧ (queueAt t b.queue).nextSeq = 0) ∧
        (∀ r, r ∉ x.top.qbinds.map (·.queue) → queueAt t r = queueAt s r) ∧
        (∀ a, (∀ r, r ∈ x.top.maps → a < homeOf r ∨ homeOf r + r.bytes ≤ a) →
          (∀ e b, e ∈ x.top.states → a < recordKey t x.top.job e b ∨ recordKey t x.top.job e b + 64 ≤ a) →
          t.comp.mem.get a = s.comp.mem.get a))) ∧
  (∀ h j s k u, let c : Instr := .topiaryUnload h j
    s.Ok → Runs c s k u →
    ∃ t, exec c s = .next t ∧
      (if 16 ≤ j then Answers c s t k .range [] ∧ Settled k s t
       else if j ∈ s.mgt.unloading then Answers c s t k .busy [] ∧ Settled k s t
       else if (loadOf s j).isSome = true then Answers c s t k .ok [] ∧
         Settled k { s with mgt := { s.mgt with loads := s.mgt.loads.filter (fun l => l.job != j) } } t
       else match topOf s j with
        | none => Answers c s t k .ok [] ∧ Settled k s t
        | some T =>
          if unloadRefused u T = true then Answers c s t k .state [] ∧ Settled k s t
          else Answers c s t k .busy [] ∧ t.tops = s.tops.filter (fun x => x.job != j) ∧
            t.mgt.unloading = j :: s.mgt.unloading ∧ t.mgt.st = s.mgt.st ∧
            (∀ r, queueAt t r = if (queueAt s r).bound = true ∧ (queueAt s r).job = j then {} else queueAt s r) ∧
            (∀ a, t.comp.mem.get a = if ∃ r, r ∈ T.maps ∧ homeOf r ≤ a ∧ a < homeOf r + r.bytes then 0 else s.comp.mem.get a) ∧
            (∀ x, x ∈ t.coll.colls → x.job ≠ j) ∧ (∀ x, x ∈ t.coll.shards → x.job ≠ j))) ∧
  (∀ j s, j ∈ s.mgt.unloading → ∃ t, exec (.topiaryUnloadComplete j) s = .next t ∧
    let left := s.mgt.unloading.filter (fun x => x != j)
    t = { s with dbg := t.dbg, mgt := { s.mgt with
      unloading := left, st := if left = [] ∧ s.tops = [] ∧ s.mgt.st = .run then .ready else s.mgt.st } }) ∧
  (∀ h j e x p n o len s k u, let c : Instr := .checkpointRead h j e x p n o len
    let H := shardAt s j x
    Runs c s k u →
    ∃ t, exec c s = .next t ∧
      (stateOf s j x = none → Answers c s t k .state [] ∧ Settled k s t) ∧
      (∀ y, stateOf s j x = some y →
        if o % 8 ≠ 0 ∨ len % 8 ≠ 0 ∨ planePages y p * 2 ^ 21 < o + len then Answers c s t k .range [] ∧ Settled k s t
        else match bankOf H n with
          | none => Answers c s t k .state [] ∧ Settled k s t
          | some b => Answers c s t k .ok (planeBytes s j y b p o len) ∧
            Settled k { s with coll := { s.coll with shards := t.coll.shards } } t ∧
            (H ∈ s.coll.shards → shardAt t j x = { H with reads := H.reads.filter (fun r => !(r.1 == k && r.2.1 == n)) ++
              if e then [] else [(k, n, s.now)] }) ∧
            (∀ i, i ≠ x → shardAt t j i = shardAt s j i))) ∧
  (∀ j x s, ∃ t, exec (.checkpointReadTimeout j x) s = .next t ∧
    (∀ r, r ∈ (shardAt t j x).reads → r.1 = 8 ∨ s.now < r.2.2 + 100000000) ∧
    (∀ i, i ≠ x → shardAt t j i = shardAt s j i) ∧
    t = { s with coll := { s.coll with shards := t.coll.shards }, dbg := t.dbg }) ∧
  (∀ h r s k u, let c : Instr := .nvmWrite h r
    Runs c s k u →
    ∃ t, exec c s = .next t ∧
      (if s.mgt.nvm.isSome = true then Answers c s t k .busy [] ∧ Settled k s t
       else match s.mgt.nvmResult.filter (fun x => x.1 == r), nvmSource s r with
        | some x, _ => Answers c s t k x.2 [] ∧ Settled k { s with mgt := { s.mgt with nvmResult := none } } t
        | none, none => Answers c s t k .state [] ∧ Settled k s t
        | none, some bs => Answers c s t k .busy [] ∧ Settled k { s with mgt := { s.mgt with
            nvm := some (k, r, bs)
            nor := if r = 1 then { s.mgt.nor with config := [] } else { s.mgt.nor with firmware := [] } } } t)) ∧
  (∀ read s k r bs, s.mgt.nvm = some (k, r, bs) → ∃ t, exec (.nvmWriteComplete read) s = .next t ∧
    t = { s with dbg := t.dbg, mgt := { s.mgt with
      nvm := none, nvmResult := some (r, if read = bs then .ok else .verify)
      nor := if r = 1 then { s.mgt.nor with config := read } else { s.mgt.nor with firmware := read } } })

/-! ### Recovery operations -/

/-- RESET_COLLECTIVE, ROLLBACK_EPOCH, REMAP_UNIT, RESYNC_TWIN, MASTER_RELEASE and MODULE_RESET, and the end of
those that run (R383, R469 to R472, R482, R547). -/
def Obligations.RecoveryOperations : Prop :=
  (∀ c s k u op key r, Runs c s k u →
    ((∃ h j o e, c = .resetCollective h j o e ∧ op = 0x50 ∧ key = [j, e, o]) ∨
      (∃ h j e, c = .rollbackEpoch h j e ∧ op = 0x51 ∧ key = [j, e]) ∨
      ∃ h d i l, c = .remapUnit h d i l ∧ op = 0x52 ∧ key = [d, i, l]) →
    runningOp s op key = some r → ∃ t, exec c s = .next t ∧
      (match r.result with
        | none => Answers c s t k .busy [] ∧ Settled k s t
        | some x => Answers c s t k x [] ∧ Settled k { s with mgt := { s.mgt with
            running := s.mgt.running.filter (fun y => !(y.opcode == op && y.key == key)) } } t)) ∧
  (∀ h j o e s k u, let c : Instr := .resetCollective h j o e
    let x := collAt s j e o
    let first := (jobAt s j).oldest
    Runs c s k u → runningOp s 0x50 [j, e, o] = none →
    ∃ t, exec c s = .next t ∧
      (entryOf s j o = none → Answers c s t k .range [] ∧ Settled k s t) ∧
      (∀ T, topOf s j = some T → (entryOf s j o).isSome = true →
        if e < first ∨ first + T.epochLimit ≤ e then Answers c s t k .state [] ∧ Settled k s t
        else if x.completed = true ∨ x.resetMark = true then Answers c s t k .ok [] ∧ Settled k s t
        else Answers c s t k .busy [] ∧ runningOp t 0x50 [j, e, o] = some { opcode := 0x50, key := [j, e, o] } ∧
          collAt t j e o = { job := j, epoch := e, ordinal := o, resetMark := true, retRoutes := x.retRoutes
                             aborts := if x.aborted then x.aborts else x.aborts ++ [(ownOrigin s, s.fabricTime)] } ∧
          (∀ j' e' o', (j', e', o') ≠ (j, e, o) → collAt t j' e' o' = collAt s j' e' o') ∧
          t.comp.mem = s.comp.mem ∧ (∀ r, regsOf t r = regsOf s r) ∧ t.tops = s.tops ∧ t.pwr = s.pwr ∧ t.integ = s.integ)) ∧
  (∀ h j e s k u, let c : Instr := .rollbackEpoch h j e
    Runs c s k u → runningOp s 0x51 [j, e] = none →
    ∃ t, exec c s = .next t ∧
      (if topOf s j = none then Answers c s t k .state [] ∧ Settled k s t
       else if (jobAt s j).rollMark = some e then Answers c s t k .ok [] ∧ Settled k s t
       else if rollRefused s j e = true then Answers c s t k .state [] ∧ Settled k s t
       else Answers c s t k .busy [] ∧ runningOp t 0x51 [j, e] = some { opcode := 0x51, key := [j, e] } ∧
         (j < s.coll.jobs.length → (jobAt t j).oldest = e ∧ (jobAt t j).rollMark = some e ∧ (jobAt t j).voteHold = false) ∧
         (∀ r, r < 64 → (queueAt s r).bound = true → (queueAt s r).job = j →
           ((queueAt s r).st = .run ∨ (queueAt s r).st = .wait ∨ (queueAt s r).st = .preempted) → (queueAt t r).st = .halted) ∧
         (∀ x, x ∈ t.coll.colls → x.job = j → e ≤ x.epoch → x.eligible = false ∧ x.inputs = [] ∧ x.outputs = []) ∧
         (∀ r, regsOf t r = regsOf s r) ∧ t.comp.mem = s.comp.mem ∧ t.tops = s.tops ∧ t.pwr = s.pwr)) ∧
  (∀ h d i l s k u, let c : Instr := .remapUnit h d i l
    let named : List QuarRec := s.integ.quar.filter (fun r => r.unit == i && r.die == d && r.logical == l)
    let shown : List QuarRec := (s.integ.quar.take 32).filter (fun r => r.unit == i && r.die == d && r.logical == l)
    let waits := (s.integ.remapPending ++ s.integ.remapReady).any (fun r => r.unit == i && r.die == d && r.logical == l &&
      r.phys != 0)
    Runs c s k u → runningOp s 0x52 [d, i, l] = none →
    ∃ t, exec c s = .next t ∧
      (if hasDie s d = false then Answers c s t k .unitAbsent [] ∧ Settled k s t
       else if shown.any (fun (r : QuarRec) => r.st ≤ 1) = true then
         (if waits = true then Answers c s t k .ok [] ∧ Settled k s t
          else if spareFree s i d l = 0 then Answers c s t k .state [] ∧ Settled k s t
          else Answers c s t k .busy [] ∧ Settled k { s with mgt := { s.mgt with
            running := s.mgt.running ++ [{ opcode := 0x52, key := [d, i, l] }] } } t)
       else if named.any (fun (r : QuarRec) => r.st == 2) = true then Answers c s t k .ok [] ∧ Settled k s t
       else Answers c s t k .state [] ∧ Settled k s t)) ∧
  (∀ h s k u, let c : Instr := .resyncTwin h
    Runs c s k u →
    ∃ t, exec c s = .next t ∧
      (match s.fab.twin.st with
        | .syncing => Answers c s t k .busy [] ∧ Settled k s t
        | .paired => Answers c s t k (if (runningOp s 0x53 []).isSome then .ok else .state) [] ∧ Settled k s t
        | .solo => Answers c s t k .state [] ∧ Settled k s t
        | .detached => if resyncOk u = true then
            Answers c s t k .busy [] ∧ t.fab.twin.st = .syncing ∧ t.fab.twin.pagesDone = 0 ∧
              (runningOp t 0x53 []).isSome = true ∧ t.attn &&& aTwin = aTwin ∧ t.comp = s.comp ∧ t.coll = s.coll ∧
              t.tops = s.tops ∧ t.pwr = s.pwr
          else Answers c s t k .state [] ∧ Settled k s t)) ∧
  (∀ h i req s k, let c : Instr := .masterRelease h i req
    4 ≤ reqKind req → h.slot = some k → listens s = true → (sessAt s k).valid = true → seqOk (sessAt s k) h.seq = true →
    cached s k h.tag 0x55 (leBytes 1 i ++ [0] ++ beBytes 2 req) = none →
    ∃ t, exec c s = .next t ∧ TurnedAway c s t k .format) ∧
  (∀ h i req s k u, let c : Instr := .masterRelease h i req
    let B := bpmAt s i
    Runs c s k u →
    ∃ t, exec c s = .next t ∧
      (if 4 < i then Answers c s t k .range [] ∧ Settled k s t
       else if i = 4 ∧ s.grade ≠ 0 then Answers c s t k .unitAbsent [] ∧ Settled k s t
       else if req ∉ B.frozen then Answers c s t k .ok [] ∧ Settled k s t
       else if B.viol.any (fun r => natBit r 63 && natField r 55 40 == req && natField r 62 59 != 0) = true then
         Answers c s t k .state [] ∧ Settled k s t
       else Answers c s t k .ok [] ∧ (bpmAt t i).frozen = B.frozen.filter (fun r => r != req) ∧
         (∀ r, r ∈ (bpmAt t i).viol → natBit r 63 = true → natField r 55 40 ≠ req) ∧
         (∀ j, j ≠ i → (bpmAt t j).frozen = (bpmAt s j).frozen ∧ (bpmAt t j).viol = (bpmAt s j).viol) ∧
         (∀ r, regsOf t r = regsOf s r) ∧ t.comp.mem = s.comp.mem ∧ t.tops = s.tops ∧ t.coll = s.coll ∧ t.pwr = s.pwr ∧
         (∀ r, (queueAt s r).st ≠ .frozen → (queueAt s r).st ≠ .preempted → (queueAt t r).st = (queueAt s r).st) ∧
         (∀ r, r < 64 → (queueAt s r).bound = true → (queueAt s r).job = reqJob req → (queueAt s r).frozenFrom ≠ .frozen →
           ((reqKind req = 1 ∧ (queueAt s r).qtype = .coll) ∨
            (reqKind req = 2 ∧ (queueAt s r).qtype = .dma ∧ (queueAt s r).die = reqUnit req / 32)) →
           stillFrozen t r = false → (queueAt t r).st ≠ .frozen))) ∧
  (∀ h x s k u, let c : Instr := .moduleReset h x
    Runs c s k u →
    ∃ t, exec c s = .next t ∧
      (if x.toNat ≠ s.mgt.serial % 2 ^ 32 then Answers c s t k .range [] ∧ Settled k s t
       else if s.mgt.nvm.isSome = true ∨ s.mgt.burn ≠ .none then Answers c s t k .state [] ∧ Settled k s t
       else (∃ a, t.mgt.replies = { session := k, tag := h.tag, opcode := 0x60, result := 0, attn := a } :: s.mgt.replies) ∧
         t.mgt.resetCause = 1 ∧ (∀ j, (sessAt t j).valid = false) ∧ t.tops = [] ∧ t.coll = {} ∧ t.snap = none ∧
         t.comp = { mem := ddrOnly s.comp.mem } ∧ t.attn = 0 ∧ t.fabricTime = 0 ∧ t.mgt.fuses = s.mgt.fuses ∧
         t.mgt.nor = s.mgt.nor ∧ t.pwr.feeds = s.pwr.feeds ∧
         (let i := if s.pins.carrierReset then s.integ else (applyFused s).integ
          t.integ.quar = i.quar ∧ t.integ.remaps = i.remaps ∧ t.integ.spares = i.spares) ∧
         (if s.pins.carrierReset then t.mgt.st = .boot else hollyEnds s t))) ∧
  (∀ i s r, s.mgt.running[i]? = some r → r.result = none → ∃ t, exec (.recoveryOperationComplete i) s = .next t ∧
    (t.mgt = if r.opcode = 0x53 then s.mgt
      else { s.mgt with running := s.mgt.running.set i { r with result := some .ok } }) ∧
    (r.opcode ≠ 0x52 → t = { s with mgt := t.mgt, dbg := t.dbg }) ∧
    (∀ d j l, r.opcode = 0x52 → r.key = [d, j, l] →
      let fuse (xs : List Remap) : List Remap := xs.map (fun x => if x.unit == j && x.die == d && x.logical == l then
        ⟨j, d, l, spareIndex (s.integ.spares.getD d {}) j l⟩ else x)
      (if unitInUse s j d l = true then t = { s with mgt := t.mgt, dbg := t.dbg, integ := { s.integ with
          remapPending := fuse s.integ.remapPending ++ (if (s.integ.remapPending ++ s.integ.remapReady).any (fun x =>
              x.unit == j && x.die == d && x.logical == l) then [] else [⟨j, d, l, spareIndex (s.integ.spares.getD d {}) j l⟩])
          remapReady := fuse s.integ.remapReady } }
       else (spareFree s j d l ≠ 0 → (⟨j, d, l, spareIndex (s.integ.spares.getD d {}) j l⟩ : Remap) ∈ t.integ.remaps ∧
           (∀ y, y ∈ t.integ.quar → y.unit = j → y.die = d → y.logical = l → y.st = 2)) ∧
         t = { s with mgt := t.mgt, dbg := t.dbg, integ := t.integ, comp := { s.comp with tlb := t.comp.tlb } })))
end

