-- ==== Sys2Proof/Laws/Frame.lean ====
section
/-! SUPPORT. What the shared queue operations leave alone: halting, moving past a word, waiting and scheduling change
no scalar state, no memory and nothing outside the compute dies. -/

namespace Sys2Proof.Machine

/-! ### Keyed lists -/

@[simp] theorem lookupD_insertKey {α : Type} (v d : α) (k j : Nat) :
    ∀ xs : List (Nat × α), lookupD (insertKey xs k v) j d = if k = j then v else lookupD xs j d
  | [] => by simp [insertKey, lookupD]
  | (i, w) :: rest => by
    unfold insertKey
    split
    · simp [lookupD]
    · split
      · rename_i h; subst h
        by_cases hj : k = j <;> simp [lookupD, hj]
      · have := lookupD_insertKey v d k j rest
        by_cases hi : i = j
        · subst hi; simp [lookupD, Ne.symm, *]
        · simp [lookupD, hi, this]

/-! ### Queue access -/

@[simp] theorem setQueue_comp_mem {s : State} {q f} : (setQueue s q f).comp.mem = s.comp.mem := rfl
@[simp] theorem setQueue_comp_jobFlags {s : State} {q f} : (setQueue s q f).comp.jobFlags = s.comp.jobFlags := rfl

theorem queueAt_setQueue {s : State} {q r : Nat} {f : Queue → Queue} :
    queueAt (setQueue s q f) r = if q = r ∧ r < s.comp.queues.length then f (queueAt s r) else queueAt s r := by
  unfold queueAt setQueue
  simp only [List.getD_eq_getElem?_getD, List.getElem?_modify]
  by_cases h : r < s.comp.queues.length
  · by_cases e : q = r <;> simp [h, e]
  · simp [h]

/-- A bound queue is one of the 64. -/
theorem bound_lt {s : State} {q : Nat} (h : (queueAt s q).bound = true) : q < s.comp.queues.length := by
  by_cases hq : q < s.comp.queues.length
  · exact hq
  · exfalso; simp [queueAt, List.getD_eq_getElem?_getD, List.getElem?_eq_none (Nat.le_of_not_lt hq)] at h

theorem queueAt_setQueue_self {s : State} {q : Nat} {f : Queue → Queue} (h : q < s.comp.queues.length) :
    queueAt (setQueue s q f) q = f (queueAt s q) := by simp [queueAt_setQueue, h]

theorem queueAt_setQueue_ne {s : State} {q r : Nat} {f : Queue → Queue} (h : r ≠ q) :
    queueAt (setQueue s q f) r = queueAt s r := by simp [queueAt_setQueue, Ne.symm h]

@[simp] theorem setQueue_length {s : State} {q f} : (setQueue s q f).comp.queues.length = s.comp.queues.length := by
  simp [setQueue]

/-! ### What queue control leaves alone -/

/-- The scalar state of every queue, memory, the engines and everything outside the compute dies. -/
def coreView (s : State) := (regsOf s, s.comp.mem, s.comp.jobFlags, s.comp.fpVec, s.comp.fpRde, s.comp.fpMtx, s.comp.laurel,
  s.comp.mtxPasses, s.comp.chans, s.tops, s.fab, s.coll, s.integ, s.pwr, s.mgt, s.snap, s.pins, s.comp.queues.length)

/-- Where every queue stands. -/
def posView (s : State) (q : Nat) :=
  let Q := queueAt s q
  (Q.inSeg, Q.seg, Q.pc, Q.ring, Q.head)

theorem coreView_setQueue {s : State} {q : Nat} {f : Queue → Queue}
    (hf : ∀ Q, (f Q).s = Q.s ∧ (f Q).c = Q.c ∧ (f Q).p = Q.p ∧ (f Q).h = Q.h ∧ (f Q).k = Q.k ∧ (f Q).digests = Q.digests) :
    coreView (setQueue s q f) = coreView s := by
  have : regsOf (setQueue s q f) = regsOf s := by
    funext r
    unfold regsOf
    rw [queueAt_setQueue]
    split
    · obtain ⟨a, b, c, d, e, g⟩ := hf (queueAt s r)
      simp [a, b, c, d, e, g]
    · rfl
  unfold coreView
  rw [this, setQueue_length]
  rfl

theorem posView_setQueue {s : State} {q : Nat} {f : Queue → Queue}
    (hf : ∀ Q, (f Q).inSeg = Q.inSeg ∧ (f Q).seg = Q.seg ∧ (f Q).pc = Q.pc ∧ (f Q).ring = Q.ring ∧ (f Q).head = Q.head) :
    posView (setQueue s q f) = posView s := by
  funext r
  unfold posView
  rw [queueAt_setQueue]
  split
  · obtain ⟨a, b, c, d, e⟩ := hf (queueAt s r)
    simp [a, b, c, d, e]
  · rfl

/-- A relation that an operation keeps, kept by a fold of it. -/
theorem foldl_keeps {α β : Type} {v : State → β} {f : State → α → State} (hf : ∀ s x, v (f s x) = v s) :
    ∀ (l : List α) (s : State), v (l.foldl f s) = v s
  | [], _ => rfl
  | x :: l, s => (foldl_keeps hf l (f s x)).trans (hf s x)

@[simp] theorem coreView_bumpQue {s : State} {q k : Nat} : coreView (bumpQue s q k) = coreView s := by
  unfold bumpQue; dsimp only; split <;> rfl
@[simp] theorem posView_bumpQue {s : State} {q k : Nat} : posView (bumpQue s q k) = posView s := by
  unfold bumpQue; dsimp only; split <;> rfl
@[simp] theorem coreView_haltRecord {s : State} {q d g pc : Nat} {c : Res} {i : Bool} {w : Word} :
    coreView (haltRecord s q c d i g pc w) = coreView s := rfl
@[simp] theorem posView_haltRecord {s : State} {q d g pc : Nat} {c : Res} {i : Bool} {w : Word} :
    posView (haltRecord s q c d i g pc w) = posView s := rfl
@[simp] theorem coreView_bumpMmu {s : State} {d k n : Nat} : coreView (bumpMmu s d k n) = coreView s := rfl
@[simp] theorem posView_bumpMmu {s : State} {d k n : Nat} : posView (bumpMmu s d k n) = posView s := rfl
@[simp] theorem coreView_releaseFrames {s : State} {q : Nat} : coreView (releaseFrames s q) = coreView s := rfl
@[simp] theorem posView_releaseFrames {s : State} {q : Nat} : posView (releaseFrames s q) = posView s := rfl

@[simp] theorem coreView_enterRun {s : State} {q : Nat} : coreView (enterRun s q) = coreView s := by
  unfold enterRun; dsimp only
  split
  · refine (coreView_setQueue ?_).trans coreView_haltRecord
    exact fun _ => ⟨rfl, rfl, rfl, rfl, rfl, rfl⟩
  · split
    · refine coreView_releaseFrames.trans (coreView_setQueue ?_)
      exact fun _ => ⟨rfl, rfl, rfl, rfl, rfl, rfl⟩
    · exact coreView_setQueue (fun _ => ⟨rfl, rfl, rfl, rfl, rfl, rfl⟩)
@[simp] theorem posView_enterRun {s : State} {q : Nat} : posView (enterRun s q) = posView s := by
  unfold enterRun; dsimp only
  split
  · refine (posView_setQueue ?_).trans posView_haltRecord
    exact fun _ => ⟨rfl, rfl, rfl, rfl, rfl⟩
  · split
    · refine posView_releaseFrames.trans (posView_setQueue ?_)
      exact fun _ => ⟨rfl, rfl, rfl, rfl, rfl⟩
    · exact posView_setQueue (fun _ => ⟨rfl, rfl, rfl, rfl, rfl⟩)

@[simp] theorem coreView_arbitrate {s : State} {q : Nat} : coreView (arbitrate s q) = coreView s := by
  unfold arbitrate; dsimp only
  split
  · exact coreView_enterRun
  · split
    · refine (foldl_keeps (fun s r => ?_) _ _).trans ?_
      · exact coreView_setQueue (fun _ => ⟨rfl, rfl, rfl, rfl, rfl, rfl⟩)
      exact coreView_setQueue (fun _ => ⟨rfl, rfl, rfl, rfl, rfl, rfl⟩)
    · exact coreView_setQueue (fun _ => ⟨rfl, rfl, rfl, rfl, rfl, rfl⟩)
@[simp] theorem posView_arbitrate {s : State} {q : Nat} : posView (arbitrate s q) = posView s := by
  unfold arbitrate; dsimp only
  split
  · exact posView_enterRun
  · split
    · refine (foldl_keeps (fun s r => ?_) _ _).trans ?_
      · exact posView_setQueue (fun _ => ⟨rfl, rfl, rfl, rfl, rfl⟩)
      exact posView_setQueue (fun _ => ⟨rfl, rfl, rfl, rfl, rfl⟩)
    · exact posView_setQueue (fun _ => ⟨rfl, rfl, rfl, rfl, rfl⟩)
@[simp] theorem coreView_schedule {s : State} : coreView (schedule s) = coreView s := by
  unfold schedule
  refine foldl_keeps (fun s p => foldl_keeps (fun s q => ?_) _ _) _ _
  split
  · exact coreView_arbitrate
  · rfl
@[simp] theorem posView_schedule {s : State} : posView (schedule s) = posView s := by
  unfold schedule
  refine foldl_keeps (fun s p => foldl_keeps (fun s q => ?_) _ _) _ _
  split
  · exact posView_arbitrate
  · rfl

@[simp] theorem coreView_squash {s : State} {q : Nat} : coreView (squash s q) = coreView s := by
  unfold squash; dsimp only
  split
  · rfl
  · rw [coreView_bumpMmu, coreView_setQueue]
    all_goals exact fun _ => ⟨rfl, rfl, rfl, rfl, rfl, rfl⟩
@[simp] theorem posView_squash {s : State} {q : Nat} : posView (squash s q) = posView s := by
  unfold squash; dsimp only
  split
  · rfl
  · rw [posView_bumpMmu, posView_setQueue]
    all_goals exact fun _ => ⟨rfl, rfl, rfl, rfl, rfl⟩

@[simp] theorem coreView_haltAt {s : State} {q d g pc : Nat} {c : Res} {i : Bool} {w : Word} :
    coreView (haltAt s q c d i g pc w) = coreView s := by
  unfold haltAt; dsimp only
  split
  · rfl
  · rfl
  · exact coreView_setQueue (fun _ => ⟨rfl, rfl, rfl, rfl, rfl, rfl⟩)
  · rw [coreView_schedule, coreView_releaseFrames, coreView_setQueue, coreView_squash, coreView_bumpQue,
      coreView_haltRecord]
    all_goals exact fun _ => ⟨rfl, rfl, rfl, rfl, rfl, rfl⟩
@[simp] theorem posView_haltAt {s : State} {q d g pc : Nat} {c : Res} {i : Bool} {w : Word} :
    posView (haltAt s q c d i g pc w) = posView s := by
  unfold haltAt; dsimp only
  split
  · rfl
  · rfl
  · exact posView_setQueue (fun _ => ⟨rfl, rfl, rfl, rfl, rfl⟩)
  · rw [posView_schedule, posView_releaseFrames, posView_setQueue, posView_squash, posView_bumpQue,
      posView_haltRecord]
    all_goals exact fun _ => ⟨rfl, rfl, rfl, rfl, rfl⟩

@[simp] theorem coreView_haltQueue {s : State} {q d : Nat} {c : Res} : coreView (haltQueue s q c d) = coreView s := coreView_haltAt
@[simp] theorem posView_haltQueue {s : State} {q d : Nat} {c : Res} : posView (haltQueue s q c d) = posView s := posView_haltAt

@[simp] theorem coreView_advance {s : State} {q : Nat} : coreView (advance s q) = coreView s := by
  unfold advance; dsimp only
  split
  · rw [coreView_schedule, coreView_releaseFrames, coreView_setQueue, coreView_setQueue]
    all_goals (intro Q; first | exact ⟨rfl, rfl, rfl, rfl, rfl, rfl⟩ | (split <;> exact ⟨rfl, rfl, rfl, rfl, rfl, rfl⟩))
  · exact coreView_setQueue (fun Q => by split <;> exact ⟨rfl, rfl, rfl, rfl, rfl, rfl⟩)

/-- `advance` moves its queue past its word. -/
theorem advance_moved {s : State} {q : Nat} (h : q < s.comp.queues.length) : Moved s (advance s q) q := by
  have key : ∀ {u t : State}, posView t = posView u → Moved s u q → Moved s t q := by
    intro u t e hm
    have e := congrFun e q
    simp only [posView, Prod.mk.injEq] at e
    obtain ⟨h1, h2, h3, h4, h5⟩ := e
    unfold Moved at hm ⊢
    dsimp only at hm ⊢
    rw [h1, h2, h3, h4, h5]; exact hm
  unfold advance; dsimp only
  generalize hu : setQueue s q _ = u
  have hm : Moved s u q := by
    unfold Moved; dsimp only
    rw [← hu, queueAt_setQueue_self h]
    split <;> simp_all
  split
  · refine key ?_ hm
    rw [posView_schedule, posView_releaseFrames]
    exact posView_setQueue (fun _ => ⟨rfl, rfl, rfl, rfl, rfl⟩)
  · exact hm

@[simp] theorem coreView_enterWait {s : State} {q : Nat} {w : WaitKind} : coreView (enterWait s q w) = coreView s := by
  have h : coreView (match w with
    | .flag _ => bumpQue s q 7
    | _ => s) = coreView s := by
    split
    · exact coreView_bumpQue
    · rfl
  unfold enterWait; dsimp only
  rw [coreView_schedule]
  refine Eq.trans ?_ h
  exact coreView_setQueue (fun _ => ⟨rfl, rfl, rfl, rfl, rfl, rfl⟩)
@[simp] theorem posView_enterWait {s : State} {q : Nat} {w : WaitKind} : posView (enterWait s q w) = posView s := by
  have h : posView (match w with
    | .flag _ => bumpQue s q 7
    | _ => s) = posView s := by
    split
    · exact posView_bumpQue
    · rfl
  unfold enterWait; dsimp only
  rw [posView_schedule]
  refine Eq.trans ?_ h
  exact posView_setQueue (fun _ => ⟨rfl, rfl, rfl, rfl, rfl⟩)

@[simp] theorem coreView_leaveWord {s : State} {q : Nat} : coreView (leaveWord s q) = coreView s :=
  coreView_setQueue (fun Q => by split <;> exact ⟨rfl, rfl, rfl, rfl, rfl, rfl⟩)

@[simp] theorem coreView_resumeQueue {s : State} {q : Nat} : coreView (resumeQueue s q) = coreView s := by
  unfold resumeQueue; dsimp only
  split <;> simp

@[simp] theorem coreView_endWait {s : State} {q : Nat} : coreView (endWait s q) = coreView s := by
  unfold endWait; dsimp only
  split <;> simp

/-- States with one core view have the frame of a word that changes nothing. -/
theorem ScalarFrame.of_coreView {s t : State} {q : Nat} (h : coreView t = coreView s) : ScalarFrame s t q := by
  simp only [coreView, Prod.mk.injEq] at h
  obtain ⟨h1, h2, h3, h4, h5, h6, h7, h8, h9, h10, h11, h12, h13, h14, h15, h16, h17, -⟩ := h
  exact ⟨h2, ⟨h3, h4, h5, h6, h7, h8, h9⟩, fun r _ => congrFun h1 r, ⟨h10, h11, h12, h13, h14, h15, h16, h17⟩⟩

theorem regsOf_of_coreView {s t : State} (h : coreView t = coreView s) (q : Nat) : regsOf t q = regsOf s q := by
  simp only [coreView, Prod.mk.injEq] at h
  exact congrFun h.1 q

/-! ### Trace records -/

@[simp] theorem traced_comp {s t : State} : (traced s t).comp = t.comp := rfl
@[simp] theorem traced_queueAt {s t : State} {q : Nat} : queueAt (traced s t) q = queueAt t q := rfl
@[simp] theorem traced_regsOf {s t : State} {q : Nat} : regsOf (traced s t) q = regsOf t q := rfl
@[simp] theorem traced_mgt {s t : State} : (traced s t).mgt = t.mgt := rfl
@[simp] theorem traced_fab {s t : State} : (traced s t).fab = t.fab := rfl
@[simp] theorem traced_coll {s t : State} : (traced s t).coll = t.coll := rfl
@[simp] theorem traced_integ {s t : State} : (traced s t).integ = t.integ := rfl
@[simp] theorem traced_pwr {s t : State} : (traced s t).pwr = t.pwr := rfl
@[simp] theorem traced_tops {s t : State} : (traced s t).tops = t.tops := rfl
@[simp] theorem traced_rings {s t : State} : (traced s t).rings = t.rings := rfl
@[simp] theorem traced_attn {s t : State} : (traced s t).attn = t.attn := rfl
@[simp] theorem traced_snap {s t : State} : (traced s t).snap = t.snap := rfl
@[simp] theorem traced_pins {s t : State} : (traced s t).pins = t.pins := rfl
@[simp] theorem traced_now {s t : State} : (traced s t).now = t.now := rfl
@[simp] theorem traced_fabricTime {s t : State} : (traced s t).fabricTime = t.fabricTime := rfl
@[simp] theorem traced_stretchQ {s t : State} : (traced s t).stretchQ = t.stretchQ := rfl
@[simp] theorem traced_pending {s t : State} : (traced s t).pending = t.pending := rfl

@[simp] theorem coreView_traced {s t : State} : coreView (traced s t) = coreView t := rfl
@[simp] theorem posView_traced {s t : State} : posView (traced s t) = posView t := rfl

/-! ### The issue of a word -/

/-- A word whose effect is complete: the queue moves past it. -/
theorem issue_done {s u : State} {q op : Nat} {w : Word} {eff : Word → Queue → State → Issue} (h : Issues s q op w)
    (he : eff w (queueAt s q) (bumpQue s q 0) = .done u) : issue op q s eff = advance u q := by
  unfold issue issueWith
  rw [h.stands]
  simp only [h.passes, h.guarded, he]
  rfl

/-- A word whose effect keeps the queue at it. -/
theorem issue_stay {s u : State} {q op : Nat} {w : Word} {eff : Word → Queue → State → Issue} (h : Issues s q op w)
    (he : eff w (queueAt s q) (bumpQue s q 0) = .stay u) : issue op q s eff = u := by
  unfold issue issueWith
  rw [h.stands]
  simp only [h.passes, h.guarded, he]
  rfl

/-- A word that its effect refuses halts its queue. -/
theorem issue_refuse {s : State} {q op : Nat} {w : Word} {r : Res} {eff : Word → Queue → State → Issue} (h : Issues s q op w)
    (he : eff w (queueAt s q) (bumpQue s q 0) = .refuse r) :
    issue op q s eff = haltQueue (bumpQue (bumpQue s q 0) q 1) q r 0 := by
  unfold issue issueWith
  rw [h.stands]
  simp only [h.passes, h.guarded, he]
  rfl

/-- A queue that can issue is bound, in RUN and one of the 64. -/
theorem Issues.lt {s : State} {q op : Nat} {w : Word} (h : Issues s q op w) : q < s.comp.queues.length := by
  have := h.stands
  unfold canIssue at this
  dsimp only at this
  split at this
  · rename_i hb; exact bound_lt hb.1
  · cases this

@[simp] theorem bumpQue_queueAt {s : State} {q k r : Nat} : queueAt (bumpQue s q k) r = queueAt s r := by
  unfold bumpQue; dsimp only; split <;> rfl
@[simp] theorem bumpQue_comp {s : State} {q k : Nat} : (bumpQue s q k).comp = s.comp := by
  unfold bumpQue; dsimp only; split <;> rfl
@[simp] theorem bumpQue_tops {s : State} {q k : Nat} : (bumpQue s q k).tops = s.tops := by
  unfold bumpQue; dsimp only; split <;> rfl
@[simp] theorem bumpQue_stretchQ {s : State} {q k : Nat} : (bumpQue s q k).stretchQ = s.stretchQ := by
  unfold bumpQue; dsimp only; split <;> rfl

/-- A change of queue `q` alone, whatever it writes, has the frame of a word that changes scalar state alone. -/
theorem ScalarFrame.of_setQueue {s t : State} {q : Nat} {f : Queue → Queue} (h : coreView t = coreView (setQueue s q f)) :
    ScalarFrame s t q := by
  simp only [coreView, Prod.mk.injEq] at h
  obtain ⟨h1, h2, h3, h4, h5, h6, h7, h8, h9, h10, h11, h12, h13, h14, h15, h16, h17, -⟩ := h
  refine ⟨h2, ⟨h3, h4, h5, h6, h7, h8, h9⟩, fun r hr => ?_, ⟨h10, h11, h12, h13, h14, h15, h16, h17⟩⟩
  rw [congrFun h1 r]
  unfold regsOf
  rw [queueAt_setQueue_ne hr]

/-! ### Scheduling moves only pre-empted queues -/

/-- A queue but for the request to stop that a waiting queue may make of it. -/
def stillOf (s : State) (q : Nat) : Queue := { queueAt s q with stopAsked := false }

theorem stillOf_setQueue_ne {s : State} {q r : Nat} {f : Queue → Queue} (h : r ≠ q) : stillOf (setQueue s q f) r = stillOf s r := by
  unfold stillOf; rw [queueAt_setQueue_ne h]

theorem stillOf_foldl_stop {q : Nat} : ∀ (l : List Nat) (s : State),
    stillOf (l.foldl (fun s r => setQueue s r (fun R => { R with stopAsked := true })) s) q = stillOf s q
  | [], _ => rfl
  | r :: l, s => by
    refine (stillOf_foldl_stop l _).trans ?_
    unfold stillOf
    rw [queueAt_setQueue]
    split <;> rfl

theorem stillOf_arbitrate_ne {s : State} {q r : Nat} (h : r ≠ q) : stillOf (arbitrate s q) r = stillOf s r := by
  unfold arbitrate; dsimp only
  split
  · unfold enterRun; dsimp only
    split
    · exact stillOf_setQueue_ne h
    · split
      · exact stillOf_setQueue_ne h
      · exact stillOf_setQueue_ne h
  · split
    · exact (stillOf_foldl_stop _ _).trans (stillOf_setQueue_ne h)
    · exact stillOf_setQueue_ne h

/-- Scheduling leaves a queue that does not wait for its executor as it stands, but for a request to stop. -/
theorem schedule_still {s : State} {q : Nat} (h : (queueAt s q).st ≠ .preempted) : stillOf (schedule s) q = stillOf s q := by
  have st_of : ∀ {s t : State}, stillOf t q = stillOf s q → (queueAt t q).st = (queueAt s q).st := by
    intro s t e
    have := congrArg Queue.st e
    exact this
  have inner : ∀ (p : Nat) (l : List Nat) (s : State), (queueAt s q).st ≠ .preempted →
      stillOf (l.foldl (fun s q => if (queueAt s q).st == .preempted && jobPriority s (queueAt s q).job == p
        then arbitrate s q else s) s) q = stillOf s q := by
    intro p l
    induction l with
    | nil => intro s _; rfl
    | cons r l ih =>
      intro s hs
      simp only [List.foldl_cons]
      split
      · rename_i hc
        have hne : q ≠ r := by
          intro e; subst e
          simp only [Bool.and_eq_true, beq_iff_eq] at hc
          exact hs hc.1
        have e := stillOf_arbitrate_ne (s := s) hne
        exact (ih _ (by rw [st_of e]; exact hs)).trans e
      · exact ih _ hs
  unfold schedule; dsimp only
  generalize (List.range 64).filter _ = l
  have outer : ∀ (ps : List Nat) (s : State), (queueAt s q).st ≠ .preempted →
      stillOf (ps.foldl (fun s p => l.foldl (fun s q => if (queueAt s q).st == .preempted && jobPriority s (queueAt s q).job == p
        then arbitrate s q else s) s) s) q = stillOf s q := by
    intro ps
    induction ps with
    | nil => intro s _; rfl
    | cons p ps ih =>
      intro s hs
      simp only [List.foldl_cons]
      have e := inner p l s hs
      exact (ih _ (by rw [st_of e]; exact hs)).trans e
  exact outer _ _ h

/-- A queue in RUN that halts: HALTED with its cause, standing where it stood. -/
theorem haltQueue_run {s : State} {q d : Nat} {c : Res} (hq : q < s.comp.queues.length) (h : (queueAt s q).st = .run) :
    (queueAt (haltQueue s q c d) q).st = .halted ∧ (queueAt (haltQueue s q c d) q).cause = some c := by
  have key : ∀ u : State, (queueAt u q).st = .halted → (queueAt u q).cause = some c →
      (queueAt (schedule (releaseFrames u q)) q).st = .halted ∧ (queueAt (schedule (releaseFrames u q)) q).cause = some c := by
    intro u h1 h2
    have e := schedule_still (s := releaseFrames u q) (q := q) (by show (queueAt u q).st ≠ _; rw [h1]; decide)
    have e1 := congrArg Queue.st e
    have e2 := congrArg Queue.cause e
    exact ⟨e1.trans h1, e2.trans h2⟩
  unfold haltQueue haltAt; dsimp only
  rw [h]
  refine key _ ?_ ?_ <;>
  · rw [queueAt_setQueue_self]
    unfold squash; dsimp only
    split <;> simpa [bumpQue_comp, haltRecord, setAttn, ringLog, bumpMmu, setQueue] using hq

/-! ### A word that changes its queue alone -/

/-- Driving the comparators writes predicates alone. -/
theorem driveComparators_eq (Q : Queue) : driveComparators Q = { Q with p := (driveComparators Q).p } := by
  have key : ∀ (ks : List Comparator) (Q : Queue), ∃ p, ks.foldl (fun Q k =>
      if k.armed then { Q with p := Q.p.set k.pred (condHolds k.cond (compSource Q k) k.bound) } else Q) Q = { Q with p := p } := by
    intro ks
    induction ks with
    | nil => intro Q; exact ⟨Q.p, rfl⟩
    | cons k ks ih =>
      intro Q
      simp only [List.foldl_cons]
      split
      · obtain ⟨p, hp⟩ := ih { Q with p := Q.p.set k.pred (condHolds k.cond (compSource Q k) k.bound) }
        exact ⟨p, hp⟩
      · exact ih Q
  obtain ⟨p, hp⟩ := key Q.k Q
  unfold driveComparators
  rw [hp]

/-- The scalar state of a queue value. -/
def Queue.regs (Q : Queue) : QRegs := ⟨Q.s, Q.c, Q.p, Q.h, Q.k, Q.digests⟩

/-- A word whose effect is a change of its queue's scalar state: the registers, the move past the word and the frame. -/
theorem scalar_word {s : State} {q op : Nat} {w : Word} {eff : Word → Queue → State → Issue} {g : Queue → Queue}
    (h : Issues s q op w)
    (he : eff w (queueAt s q) (bumpQue s q 0) = .done (setQueue (bumpQue s q 0) q g))
    (hp : (g (queueAt s q)).inSeg = (queueAt s q).inSeg ∧ (g (queueAt s q)).seg = (queueAt s q).seg ∧
      (g (queueAt s q)).pc = (queueAt s q).pc ∧ (g (queueAt s q)).ring = (queueAt s q).ring ∧
      (g (queueAt s q)).head = (queueAt s q).head) :
    regsOf (issue op q s eff) q = (g (queueAt s q)).regs ∧ Moved s (issue op q s eff) q ∧
      ScalarFrame s (issue op q s eff) q := by
  rw [issue_done h he]
  have hq : q < (bumpQue s q 0).comp.queues.length := by rw [bumpQue_comp]; exact h.lt
  have hq' : q < (setQueue (bumpQue s q 0) q g).comp.queues.length := by rw [setQueue_length]; exact hq
  have hat : queueAt (setQueue (bumpQue s q 0) q g) q = g (queueAt s q) := by
    rw [queueAt_setQueue_self hq, bumpQue_queueAt]
  refine ⟨?_, ?_, ?_⟩
  · rw [regsOf_of_coreView coreView_advance]
    unfold regsOf; rw [hat]; rfl
  · have hm := advance_moved hq'
    obtain ⟨a, b, c, d, e⟩ := hp
    unfold Moved at hm ⊢
    dsimp only at hm ⊢
    rw [hat, a, b, c, d, e] at hm
    exact hm
  · have f := ScalarFrame.of_setQueue (s := bumpQue s q 0) (q := q) (f := g) (t := advance (setQueue (bumpQue s q 0) q g) q) coreView_advance
    have hb := ScalarFrame.of_coreView (q := q) (coreView_bumpQue (s := s) (q := q) (k := 0))
    exact ⟨f.mem.trans hb.mem, ⟨f.engines.1.trans hb.engines.1, f.engines.2.trans hb.engines.2, f.engines.3.trans hb.engines.3,
      f.engines.4.trans hb.engines.4, f.engines.5.trans hb.engines.5, f.engines.6.trans hb.engines.6,
      f.engines.7.trans hb.engines.7⟩, fun r hr => (f.others r hr).trans (hb.others r hr),
      ⟨f.outside.1.trans hb.outside.1, f.outside.2.trans hb.outside.2, f.outside.3.trans hb.outside.3,
      f.outside.4.trans hb.outside.4, f.outside.5.trans hb.outside.5, f.outside.6.trans hb.outside.6,
      f.outside.7.trans hb.outside.7, f.outside.8.trans hb.outside.8⟩⟩

theorem KeepsOutside.traced {s t u : State} (h : KeepsOutside s t) : KeepsOutside s (traced u t) := ⟨h.1, h.2, h.3, h.4, h.5, h.6, h.7, h.8⟩
theorem KeepsEngines.traced {s t u : State} (h : KeepsEngines s t) : KeepsEngines s (traced u t) := ⟨h.1, h.2, h.3, h.4, h.5, h.6, h.7⟩
theorem KeepsOthers.traced {s t u : State} {q : Nat} (h : KeepsOthers s t q) : KeepsOthers s (traced u t) q := h
theorem ScalarFrame.traced {s t u : State} {q : Nat} (h : ScalarFrame s t q) : ScalarFrame s (traced u t) q :=
  ⟨h.mem, h.engines.traced, h.others.traced, h.outside.traced⟩

/-- `scalar_word` with the trace records of the command. -/
theorem scalar_command {s : State} {q op : Nat} {w : Word} {eff : Word → Queue → State → Issue} (g : Queue → Queue)
    (h : Issues s q op w)
    (he : eff w (queueAt s q) (bumpQue s q 0) = .done (setQueue (bumpQue s q 0) q g))
    (hp : (g (queueAt s q)).inSeg = (queueAt s q).inSeg ∧ (g (queueAt s q)).seg = (queueAt s q).seg ∧
      (g (queueAt s q)).pc = (queueAt s q).pc ∧ (g (queueAt s q)).ring = (queueAt s q).ring ∧
      (g (queueAt s q)).head = (queueAt s q).head) :
    regsOf (Sys2Proof.Machine.traced s (issue op q s eff)) q = (g (queueAt s q)).regs ∧
      Moved s (Sys2Proof.Machine.traced s (issue op q s eff)) q ∧
      ScalarFrame s (Sys2Proof.Machine.traced s (issue op q s eff)) q := by
  obtain ⟨a, b, c⟩ := scalar_word h he hp
  exact ⟨a, b, c.traced⟩

end Sys2Proof.Machine
end

