-- ==== Sys2Proof/Laws/Mem.lean ====
section
/-! SUPPORT. The canonical form of memory (R411): every operation on memory keeps it, and a read after a write. -/

namespace Sys2Proof.Machine

theorem cellsWf_weaken {lo lo' : Nat} (h : lo' ≤ lo) : ∀ {cs}, cellsWf lo cs = true → cellsWf lo' cs = true
  | [], _ => rfl
  | (k, b) :: rest, hc => by
    simp only [cellsWf, Bool.and_eq_true, decide_eq_true_eq] at hc ⊢
    exact ⟨⟨Nat.le_trans h hc.1.1, hc.1.2⟩, hc.2⟩

theorem cellSet_wf {lo k : Nat} {b : Byte} (hk : lo ≤ k) : ∀ {cs}, cellsWf lo cs = true → cellsWf lo (cellSet cs k b) = true := by
  intro cs
  induction cs generalizing lo with
  | nil => intro _; simp only [cellSet]; split <;> simp_all [cellsWf]
  | cons c rest ih =>
    obtain ⟨j, c⟩ := c
    intro h
    have h' := h
    simp only [cellsWf, Bool.and_eq_true, decide_eq_true_eq] at h
    obtain ⟨⟨h1, h2⟩, h3⟩ := h
    simp only [cellSet]
    split
    · split
      · exact h'
      · simp only [cellsWf, Bool.and_eq_true, decide_eq_true_eq]
        refine ⟨⟨hk, by simp_all⟩, ⟨by omega, h2⟩, h3⟩
    · split
      · split
        · exact cellsWf_weaken (by omega) h3
        · subst_vars
          simp only [cellsWf, Bool.and_eq_true, decide_eq_true_eq]
          exact ⟨⟨h1, by simp_all⟩, h3⟩
      · simp only [cellsWf, Bool.and_eq_true, decide_eq_true_eq]
        exact ⟨⟨h1, h2⟩, ih (by omega) h3⟩

theorem filter_wf {lo : Nat} (p : Nat × Byte → Bool) : ∀ {cs}, cellsWf lo cs = true → cellsWf lo (cs.filter p) = true := by
  intro cs
  induction cs generalizing lo with
  | nil => intro _; rfl
  | cons c rest ih =>
    obtain ⟨j, c⟩ := c
    intro h
    simp only [cellsWf, Bool.and_eq_true, decide_eq_true_eq] at h
    rw [List.filter_cons]
    split
    · simp only [cellsWf, Bool.and_eq_true, decide_eq_true_eq]
      exact ⟨h.1, ih h.2⟩
    · exact cellsWf_weaken (by omega) (ih h.2)

theorem Memory.put_wf {m : Memory} {k : Nat} {b : Byte} (h : m.wf = true) : (m.put k b).wf = true :=
  cellSet_wf (Nat.zero_le k) h

theorem Memory.putBytes_wf : ∀ {bs : List Byte} {m : Memory} {k : Nat}, m.wf = true → (m.putBytes k bs).wf = true
  | [], _, _, h => h
  | _ :: bs, _, _, h => Memory.putBytes_wf (bs := bs) (Memory.put_wf h)

theorem Memory.cleanWords_wf {m : Memory} {k n : Nat} (h : m.wf = true) : (m.cleanWords k n).wf = true := h

theorem Memory.writeRun_wf {m : Memory} {k : Nat} {bs : List Byte} (h : m.wf = true) : (m.writeRun k bs).wf = true :=
  Memory.putBytes_wf (bs := bs) h

theorem Memory.setPoison_wf {m : Memory} {k : Nat} (h : m.wf = true) : (m.setPoison k).wf = true := by
  unfold Memory.setPoison; dsimp only; split <;> exact h

theorem Memory.zeroRange_wf {m : Memory} {k n : Nat} (h : m.wf = true) : (m.zeroRange k n).wf = true := filter_wf _ h

theorem foldl_mem_wf {α : Type} {f : Memory → α → Memory} (hf : ∀ m x, m.wf = true → (f m x).wf = true) :
    ∀ {l : List α} {m : Memory}, m.wf = true → (l.foldl f m).wf = true
  | [], _, h => h
  | x :: l, m, h => foldl_mem_wf (l := l) (m := f m x) hf (hf m x h)

theorem Memory.copyRange_wf {m : Memory} {src dst n : Nat} (h : m.wf = true) : (m.copyRange src dst n).wf = true :=
  foldl_mem_wf (fun _ _ h => Memory.setPoison_wf h) (foldl_mem_wf (fun _ _ h => Memory.put_wf h) (Memory.zeroRange_wf h))

/-! ### Read after write -/

theorem cellGet_below {lo k : Nat} (hk : k < lo) : ∀ {cs}, cellsWf lo cs = true → cellGet cs k = unlistedByte
  | [], _ => rfl
  | (j, b) :: rest, h => by
    simp only [cellsWf, Bool.and_eq_true, decide_eq_true_eq] at h
    simp only [cellGet]
    rw [if_neg (by omega), if_pos (by omega)]

theorem cellGet_set {k : Nat} {b : Byte} (a : Nat) : ∀ {cs lo}, cellsWf lo cs = true →
    cellGet (cellSet cs k b) a = if a = k then b else cellGet cs a := by
  intro cs
  induction cs with
  | nil => intro lo _; simp only [cellSet, cellGet]; split <;> split <;> simp_all [cellGet] <;> omega
  | cons c rest ih =>
    obtain ⟨j, c⟩ := c
    intro lo h
    simp only [cellsWf, Bool.and_eq_true, decide_eq_true_eq] at h
    obtain ⟨⟨h1, h2⟩, h3⟩ := h
    have low : ∀ x, x < j + 1 → cellGet rest x = unlistedByte := fun x hx => cellGet_below hx h3
    simp only [cellSet]
    split
    · split
      · by_cases ha : a = k
        · subst ha; simp only [cellGet, if_true]; rw [if_neg (by omega), if_pos (by omega)]; simp_all
        · simp [ha]
      · by_cases ha : a = k
        · subst ha; simp [cellGet]
        · simp only [cellGet, if_neg ha, if_neg (Ne.symm ha)]
          split <;> [(rw [if_neg (by omega), if_pos (by omega)]); rfl]
    · split
      · subst_vars
        split
        · by_cases ha : a = j
          · subst ha; rw [low _ (by omega)]; simp_all
          · simp only [cellGet, if_neg ha, if_neg (Ne.symm ha)]
            split <;> [exact low _ (by omega); rfl]
        · by_cases ha : a = j
          · subst ha; simp [cellGet]
          · simp [cellGet, ha, Ne.symm ha]
      · simp only [cellGet]
        by_cases ha : a = k
        · subst ha
          rw [if_neg (by omega), if_neg (by omega), ih h3]; simp
        · rw [ih h3]; simp [ha]

/-- Reading a byte after writing one (R411). -/
theorem Memory.get_put {m : Memory} {k : Nat} {b : Byte} (h : m.wf = true) (a : Nat) :
    (m.put k b).get a = if a = k then b else m.get a := cellGet_set a h

end Sys2Proof.Machine
end

