-- ==== Sys2Proof/Laws/Ok.lean ====
section
/-! SUPPORT. How a well-formed state stays well formed (`State.Ok`): record updates and folds. -/

namespace Sys2Proof.Machine

/-- The state is well formed and `pend` is what waits in its command queue. -/
def State.Sound (pend : List Instr) (s : State) : Prop :=
  (s.comp.mem.wf = true ∧ s.comp.queues.length = 64) ∧ s.pending = pend

variable {pend : List Instr}

theorem State.Sound.of {s t : State} (h1 : t.comp.mem = s.comp.mem) (h2 : t.comp.queues.length = s.comp.queues.length)
    (h3 : t.pending = s.pending) (h : s.Sound pend) : t.Sound pend := ⟨⟨h1 ▸ h.1.1, h2 ▸ h.1.2⟩, h3.trans h.2⟩

theorem foldl_ok {α : Type} {f : State → α → State} (hf : ∀ s x, s.Sound pend → (f s x).Sound pend) :
    ∀ {l : List α} {s : State}, s.Sound pend → (l.foldl f s).Sound pend
  | [], _, h => h
  | x :: l, s, h => foldl_ok (l := l) (s := f s x) hf (hf s x h)

theorem State.Sound.mk' {s : State} {a n f c ts rs at' d st g fa co i p m db sn pi}
    (h1 : c.mem = s.comp.mem) (h2 : c.queues.length = s.comp.queues.length) (h3 : a = s.pending)
    (h : s.Sound pend) :
    (State.mk a n f c ts rs at' d st g fa co i p m db sn pi).Sound pend := State.Sound.of (s := s) h1 h2 h3 h

theorem State.Sound.mk_mem {s : State} {a n f c ts rs at' d st g fa co i p m db sn pi}
    (h1 : c.mem.wf = true) (h2 : c.queues.length = s.comp.queues.length) (h3 : a = s.pending)
    (h : s.Sound pend) :
    (State.mk a n f c ts rs at' d st g fa co i p m db sn pi).Sound pend := ⟨⟨h1, h2 ▸ h.1.2⟩, h3.trans h.2⟩

theorem State.Sound.mk_put {s : State} {a n f c ts rs at' d st g fa co i p m db sn pi} {k b}
    (h1 : c.mem = s.comp.mem.put k b) (h2 : c.queues.length = s.comp.queues.length) (h3 : a = s.pending)
    (h : s.Sound pend) :
    (State.mk a n f c ts rs at' d st g fa co i p m db sn pi).Sound pend := ⟨⟨h1 ▸ Memory.put_wf h.1.1, h2 ▸ h.1.2⟩, h3.trans h.2⟩

theorem State.Sound.mk_putBytes {s : State} {a n f c ts rs at' d st g fa co i p m db sn pi} {k bs}
    (h1 : c.mem = s.comp.mem.putBytes k bs) (h2 : c.queues.length = s.comp.queues.length) (h3 : a = s.pending)
    (h : s.Sound pend) :
    (State.mk a n f c ts rs at' d st g fa co i p m db sn pi).Sound pend := ⟨⟨h1 ▸ Memory.putBytes_wf h.1.1, h2 ▸ h.1.2⟩, h3.trans h.2⟩

theorem State.Sound.mk_writeRun {s : State} {a n f c ts rs at' d st g fa co i p m db sn pi} {k bs}
    (h1 : c.mem = s.comp.mem.writeRun k bs) (h2 : c.queues.length = s.comp.queues.length) (h3 : a = s.pending)
    (h : s.Sound pend) :
    (State.mk a n f c ts rs at' d st g fa co i p m db sn pi).Sound pend := ⟨⟨h1 ▸ Memory.writeRun_wf h.1.1, h2 ▸ h.1.2⟩, h3.trans h.2⟩

theorem State.Sound.mk_cleanWords {s : State} {a n f c ts rs at' d st g fa co i p m db sn pi} {k l}
    (h1 : c.mem = s.comp.mem.cleanWords k l) (h2 : c.queues.length = s.comp.queues.length) (h3 : a = s.pending)
    (h : s.Sound pend) :
    (State.mk a n f c ts rs at' d st g fa co i p m db sn pi).Sound pend := ⟨⟨h1 ▸ Memory.cleanWords_wf h.1.1, h2 ▸ h.1.2⟩, h3.trans h.2⟩

theorem State.Sound.mk_setPoison {s : State} {a n f c ts rs at' d st g fa co i p m db sn pi} {k}
    (h1 : c.mem = s.comp.mem.setPoison k) (h2 : c.queues.length = s.comp.queues.length) (h3 : a = s.pending)
    (h : s.Sound pend) :
    (State.mk a n f c ts rs at' d st g fa co i p m db sn pi).Sound pend := ⟨⟨h1 ▸ Memory.setPoison_wf h.1.1, h2 ▸ h.1.2⟩, h3.trans h.2⟩

theorem State.Sound.mk_copyRange {s : State} {a n f c ts rs at' d st g fa co i p m db sn pi} {x y l}
    (h1 : c.mem = s.comp.mem.copyRange x y l) (h2 : c.queues.length = s.comp.queues.length) (h3 : a = s.pending)
    (h : s.Sound pend) :
    (State.mk a n f c ts rs at' d st g fa co i p m db sn pi).Sound pend := ⟨⟨h1 ▸ Memory.copyRange_wf h.1.1, h2 ▸ h.1.2⟩, h3.trans h.2⟩

theorem hav {p q : Prop} (h : p) (k : p → q) : q := k h

theorem pair1_ok {β : Type} {p : State × β} {t : State} {b : β} (h : p.1.Sound pend) (e : p = (t, b)) : t.Sound pend := by
  subst e; exact h

theorem pair2_ok {β : Type} {p : β × State} {t : State} {b : β} (h : p.2.Sound pend) (e : p = (b, t)) : t.Sound pend := by
  subst e; exact h

theorem ite_ok {c : Prop} [Decidable c] {s t : State} (hs : s.Sound pend) (ht : t.Sound pend) : (if c then s else t).Sound pend := by
  split <;> assumption

theorem iteFst_ok {β : Type} {c : Prop} [Decidable c] {s t : State × β} (hs : s.1.Sound pend) (ht : t.1.Sound pend) :
    (if c then s else t).1.Sound pend := by split <;> assumption

theorem iteSnd_ok {β : Type} {c : Prop} [Decidable c] {s t : β × State} (hs : s.2.Sound pend) (ht : t.2.Sound pend) :
    (if c then s else t).2.Sound pend := by split <;> assumption

theorem fst_ok {β : Type} {s : State} {b : β} (h : s.Sound pend) : (s, b).1.Sound pend := h

theorem snd_ok {β : Type} {s : State} {b : β} (h : s.Sound pend) : (b, s).2.Sound pend := h

/-- What an effect leaves is well formed. -/
def Issue.Sound (pend : List Instr) : Issue → Prop
  | .done s => s.Sound pend
  | .stay s => s.Sound pend
  | .refuse _ => True

theorem done_ok {s : State} (h : s.Sound pend) : (Issue.done s).Sound pend := h

theorem stay_ok {s : State} (h : s.Sound pend) : (Issue.stay s).Sound pend := h

theorem refuse_ok {r : Res} : (Issue.refuse r).Sound pend := trivial

/-- The state of a granted allocation is well formed. -/
def AllocRes.Sound (pend : List Instr) : AllocRes → Prop
  | .ok s _ => s.Sound pend
  | _ => True

theorem granted_ok {s : State} {k : Nat} (h : s.Sound pend) : (AllocRes.ok s k).Sound pend := h

theorem wait_ok : AllocRes.wait.Sound pend := trivial

theorem quota_ok : AllocRes.quota.Sound pend := trivial

theorem of_granted {r : AllocRes} {t : State} {k : Nat} (h : r.Sound pend) (e : r = .ok t k) : t.Sound pend := by subst e; exact h

/-- A state, if there is one, is well formed. -/
def OptSound (pend : List Instr) : Option State → Prop
  | some s => s.Sound pend
  | none => True

theorem some_ok {s : State} (h : s.Sound pend) : OptSound pend (some s) := h

theorem none_ok : OptSound pend none := trivial

theorem of_some {o : Option State} {t : State} (h : OptSound pend o) (e : o = some t) : t.Sound pend := by subst e; exact h

/-- The state of an optional pair is well formed. -/
def OptPairSound (pend : List Instr) {β : Type} : Option (State × β) → Prop
  | some p => p.1.Sound pend
  | none => True

theorem somePair_ok {β : Type} {p : State × β} (h : p.1.Sound pend) : OptPairSound pend (some p) := h

theorem nonePair_ok {β : Type} : OptPairSound pend (none : Option (State × β)) := trivial

theorem of_somePair {β : Type} {o : Option (State × β)} {t : State} {b : β} (h : OptPairSound pend o) (e : o = some (t, b)) : t.Sound pend := by
  subst e; exact h

/-- A state that an operation gives, unless it fails, is well formed. -/
def ExSound (pend : List Instr) : Except Res State → Prop
  | .ok s => s.Sound pend
  | .error _ => True

theorem exOk_ok {s : State} (h : s.Sound pend) : ExSound pend (.ok s) := h

theorem exError_ok {r : Res} : ExSound pend (.error r) := trivial

theorem of_exOk {o : Except Res State} {t : State} (h : ExSound pend o) (e : o = .ok t) : t.Sound pend := by subst e; exact h

end Sys2Proof.Machine
end

