-- ==== Sys2Proof/Laws/OkOps.lean ====
section
/-! SUPPORT. The operations of Ops.lean keep the state well formed. -/

set_option linter.unusedTactic false
set_option linter.unreachableTactic false

namespace Sys2Proof.Machine

variable {pend : List Instr}

theorem setAttn_ok {s : State} {bits : BitVec 16} (hs : s.Sound pend) : (setAttn s bits).Sound pend := by
  unfold setAttn
  repeat'
    first
    | (with_reducible assumption)
    | ((try lift_lets -underBinder); with_reducible intro x; with_reducible refine hav (p := State.Sound pend x) ?_ (fun _ => ?_); (on_goal 1 => dsimp only [x]); (on_goal 2 => clear_value x))
    | ((try lift_lets -underBinder); with_reducible intro x; refine hav (p := (x : Comp) = x) rfl (fun _ => ?_))
    | ((try lift_lets -underBinder); with_reducible intro x; refine hav (p := (fun y => x y) = x) rfl (fun _ => ?_))
    | ((try lift_lets -underBinder); with_reducible intro x; clear_value x)
    | (with_reducible intro _)
    | (split)
    | (with_reducible refine State.Sound.mk' rfl (by first | rfl | simp) rfl ?_)

theorem ringLog_ok {s : State} {ring code : Nat} {datas : List Nat} (hs : s.Sound pend) : (ringLog s ring code datas).Sound pend := by
  unfold ringLog
  repeat'
    first
    | (with_reducible assumption)
    | ((try lift_lets -underBinder); with_reducible intro x; with_reducible refine hav (p := State.Sound pend x) ?_ (fun _ => ?_); (on_goal 1 => dsimp only [x]); (on_goal 2 => clear_value x))
    | ((try lift_lets -underBinder); with_reducible intro x; refine hav (p := (x : Comp) = x) rfl (fun _ => ?_))
    | ((try lift_lets -underBinder); with_reducible intro x; refine hav (p := (fun y => x y) = x) rfl (fun _ => ?_))
    | ((try lift_lets -underBinder); with_reducible intro x; clear_value x)
    | (with_reducible intro _)
    | (split)
    | (dsimp only)
    | (with_reducible refine State.Sound.mk' rfl (by first | rfl | simp) rfl ?_)

theorem bumpMmu_ok {s : State} {die k n : Nat} (hs : s.Sound pend) : (bumpMmu s die k n).Sound pend := by
  unfold bumpMmu
  repeat'
    first
    | (with_reducible assumption)
    | ((try lift_lets -underBinder); with_reducible intro x; with_reducible refine hav (p := State.Sound pend x) ?_ (fun _ => ?_); (on_goal 1 => dsimp only [x]); (on_goal 2 => clear_value x))
    | ((try lift_lets -underBinder); with_reducible intro x; refine hav (p := (x : Comp) = x) rfl (fun _ => ?_))
    | ((try lift_lets -underBinder); with_reducible intro x; refine hav (p := (fun y => x y) = x) rfl (fun _ => ?_))
    | ((try lift_lets -underBinder); with_reducible intro x; clear_value x)
    | (with_reducible intro _)
    | (split)
    | (with_reducible refine State.Sound.mk' rfl (by first | rfl | simp) rfl ?_)

theorem drawFree_ok {s : State} (hs : s.Sound pend) : (drawFree s).2.Sound pend := by
  unfold drawFree
  repeat'
    first
    | (with_reducible assumption)
    | ((try lift_lets -underBinder); with_reducible intro x; with_reducible refine hav (p := State.Sound pend x) ?_ (fun _ => ?_); (on_goal 1 => dsimp only [x]); (on_goal 2 => clear_value x))
    | ((try lift_lets -underBinder); with_reducible intro x; refine hav (p := (x : Comp) = x) rfl (fun _ => ?_))
    | ((try lift_lets -underBinder); with_reducible intro x; refine hav (p := (fun y => x y) = x) rfl (fun _ => ?_))
    | ((try lift_lets -underBinder); with_reducible intro x; clear_value x)
    | (with_reducible intro _)
    | (split)
    | (dsimp only)
    | (dsimp only)
    | (with_reducible refine State.Sound.mk' rfl (by first | rfl | simp) rfl ?_)

theorem setQueue_ok {s : State} {q : Nat} {f : Queue → Queue} (hs : s.Sound pend) : (setQueue s q f).Sound pend := by
  unfold setQueue
  repeat'
    first
    | (with_reducible assumption)
    | ((try lift_lets -underBinder); with_reducible intro x; with_reducible refine hav (p := State.Sound pend x) ?_ (fun _ => ?_); (on_goal 1 => dsimp only [x]); (on_goal 2 => clear_value x))
    | ((try lift_lets -underBinder); with_reducible intro x; refine hav (p := (x : Comp) = x) rfl (fun _ => ?_))
    | ((try lift_lets -underBinder); with_reducible intro x; refine hav (p := (fun y => x y) = x) rfl (fun _ => ?_))
    | ((try lift_lets -underBinder); with_reducible intro x; clear_value x)
    | (with_reducible intro _)
    | (split)
    | (with_reducible refine State.Sound.mk' rfl (by first | rfl | simp) rfl ?_)

theorem haltRecord_ok {s : State} {q : Nat} {cause : Res} {detail : Nat} {inSeg : Bool} {seg pc : Nat} {w : Word} (hs : s.Sound pend) : (haltRecord s q cause detail inSeg seg pc w).Sound pend := by
  unfold haltRecord
  repeat'
    first
    | (with_reducible assumption)
    | ((try lift_lets -underBinder); with_reducible intro x; with_reducible refine hav (p := State.Sound pend x) ?_ (fun _ => ?_); (on_goal 1 => dsimp only [x]); (on_goal 2 => clear_value x))
    | ((try lift_lets -underBinder); with_reducible intro x; refine hav (p := (x : Comp) = x) rfl (fun _ => ?_))
    | ((try lift_lets -underBinder); with_reducible intro x; refine hav (p := (fun y => x y) = x) rfl (fun _ => ?_))
    | ((try lift_lets -underBinder); with_reducible intro x; clear_value x)
    | (with_reducible intro _)
    | (split)
    | (with_reducible refine setAttn_ok ?_)
    | (with_reducible refine ringLog_ok ?_)
    | (dsimp only)
    | (with_reducible refine State.Sound.mk' rfl (by first | rfl | simp) rfl ?_)

theorem bumpQue_ok {s : State} {q k : Nat} (hs : s.Sound pend) : (bumpQue s q k).Sound pend := by
  unfold bumpQue
  repeat'
    first
    | (with_reducible assumption)
    | ((try lift_lets -underBinder); with_reducible intro x; with_reducible refine hav (p := State.Sound pend x) ?_ (fun _ => ?_); (on_goal 1 => dsimp only [x]); (on_goal 2 => clear_value x))
    | ((try lift_lets -underBinder); with_reducible intro x; refine hav (p := (x : Comp) = x) rfl (fun _ => ?_))
    | ((try lift_lets -underBinder); with_reducible intro x; refine hav (p := (fun y => x y) = x) rfl (fun _ => ?_))
    | ((try lift_lets -underBinder); with_reducible intro x; clear_value x)
    | (with_reducible intro _)
    | (split)
    | (with_reducible refine State.Sound.mk' rfl (by first | rfl | simp) rfl ?_)

theorem saveContext_ok {s : State} {q : Nat} (hs : s.Sound pend) : (saveContext s q).Sound pend := by
  unfold saveContext
  repeat'
    first
    | (with_reducible assumption)
    | ((try lift_lets -underBinder); with_reducible intro x; with_reducible refine hav (p := State.Sound pend x) ?_ (fun _ => ?_); (on_goal 1 => dsimp only [x]); (on_goal 2 => clear_value x))
    | ((try lift_lets -underBinder); with_reducible intro x; refine hav (p := (x : Comp) = x) rfl (fun _ => ?_))
    | ((try lift_lets -underBinder); with_reducible intro x; refine hav (p := (fun y => x y) = x) rfl (fun _ => ?_))
    | ((try lift_lets -underBinder); with_reducible intro x; clear_value x)
    | (with_reducible intro _)
    | (split)
    | (with_reducible refine drawFree_ok ?_)
    | (with_reducible refine setQueue_ok ?_)
    | (with_reducible refine foldl_ok (fun _ _ _ => ?_) ?_)
    | (dsimp only)
    | (with_reducible refine pair2_ok ?_ (by assumption))
    | (with_reducible refine State.Sound.mk_putBytes rfl (by first | rfl | simp) rfl ?_)
    | (with_reducible refine State.Sound.mk_cleanWords rfl (by first | rfl | simp) rfl ?_)
    | (with_reducible refine State.Sound.mk' rfl (by first | rfl | simp) rfl ?_)

theorem releaseFrames_ok {s : State} {q : Nat} (hs : s.Sound pend) : (releaseFrames s q).Sound pend := by
  unfold releaseFrames
  repeat'
    first
    | (with_reducible assumption)
    | ((try lift_lets -underBinder); with_reducible intro x; with_reducible refine hav (p := State.Sound pend x) ?_ (fun _ => ?_); (on_goal 1 => dsimp only [x]); (on_goal 2 => clear_value x))
    | ((try lift_lets -underBinder); with_reducible intro x; refine hav (p := (x : Comp) = x) rfl (fun _ => ?_))
    | ((try lift_lets -underBinder); with_reducible intro x; refine hav (p := (fun y => x y) = x) rfl (fun _ => ?_))
    | ((try lift_lets -underBinder); with_reducible intro x; clear_value x)
    | (with_reducible intro _)
    | (split)
    | (dsimp only)
    | (with_reducible refine State.Sound.mk' rfl (by first | rfl | simp) rfl ?_)

theorem enterRun_ok {s : State} {q : Nat} (hs : s.Sound pend) : (enterRun s q).Sound pend := by
  unfold enterRun
  repeat'
    first
    | (with_reducible assumption)
    | ((try lift_lets -underBinder); with_reducible intro x; with_reducible refine hav (p := State.Sound pend x) ?_ (fun _ => ?_); (on_goal 1 => dsimp only [x]); (on_goal 2 => clear_value x))
    | ((try lift_lets -underBinder); with_reducible intro x; refine hav (p := (x : Comp) = x) rfl (fun _ => ?_))
    | ((try lift_lets -underBinder); with_reducible intro x; refine hav (p := (fun y => x y) = x) rfl (fun _ => ?_))
    | ((try lift_lets -underBinder); with_reducible intro x; clear_value x)
    | (with_reducible intro _)
    | (split)
    | (with_reducible refine setQueue_ok ?_)
    | (with_reducible refine haltRecord_ok ?_)
    | (with_reducible refine releaseFrames_ok ?_)
    | (dsimp only)
    | (with_reducible refine State.Sound.mk' rfl (by first | rfl | simp) rfl ?_)

theorem arbitrate_ok {s : State} {q : Nat} (hs : s.Sound pend) : (arbitrate s q).Sound pend := by
  unfold arbitrate
  repeat'
    first
    | (with_reducible assumption)
    | ((try lift_lets -underBinder); with_reducible intro x; with_reducible refine hav (p := State.Sound pend x) ?_ (fun _ => ?_); (on_goal 1 => dsimp only [x]); (on_goal 2 => clear_value x))
    | ((try lift_lets -underBinder); with_reducible intro x; refine hav (p := (x : Comp) = x) rfl (fun _ => ?_))
    | ((try lift_lets -underBinder); with_reducible intro x; refine hav (p := (fun y => x y) = x) rfl (fun _ => ?_))
    | ((try lift_lets -underBinder); with_reducible intro x; clear_value x)
    | (with_reducible intro _)
    | (split)
    | (with_reducible refine setQueue_ok ?_)
    | (with_reducible refine enterRun_ok ?_)
    | (with_reducible refine foldl_ok (fun _ _ _ => ?_) ?_)
    | (with_reducible refine State.Sound.mk' rfl (by first | rfl | simp) rfl ?_)

theorem schedule_ok {s : State} (hs : s.Sound pend) : (schedule s).Sound pend := by
  unfold schedule
  repeat'
    first
    | (with_reducible assumption)
    | ((try lift_lets -underBinder); with_reducible intro x; with_reducible refine hav (p := State.Sound pend x) ?_ (fun _ => ?_); (on_goal 1 => dsimp only [x]); (on_goal 2 => clear_value x))
    | ((try lift_lets -underBinder); with_reducible intro x; refine hav (p := (x : Comp) = x) rfl (fun _ => ?_))
    | ((try lift_lets -underBinder); with_reducible intro x; refine hav (p := (fun y => x y) = x) rfl (fun _ => ?_))
    | ((try lift_lets -underBinder); with_reducible intro x; clear_value x)
    | (with_reducible intro _)
    | (split)
    | (with_reducible refine arbitrate_ok ?_)
    | (with_reducible refine foldl_ok (fun _ _ _ => ?_) ?_)
    | (dsimp only)
    | (with_reducible refine State.Sound.mk' rfl (by first | rfl | simp) rfl ?_)

theorem squash_ok {s : State} {q : Nat} (hs : s.Sound pend) : (squash s q).Sound pend := by
  unfold squash
  repeat'
    first
    | (with_reducible assumption)
    | ((try lift_lets -underBinder); with_reducible intro x; with_reducible refine hav (p := State.Sound pend x) ?_ (fun _ => ?_); (on_goal 1 => dsimp only [x]); (on_goal 2 => clear_value x))
    | ((try lift_lets -underBinder); with_reducible intro x; refine hav (p := (x : Comp) = x) rfl (fun _ => ?_))
    | ((try lift_lets -underBinder); with_reducible intro x; refine hav (p := (fun y => x y) = x) rfl (fun _ => ?_))
    | ((try lift_lets -underBinder); with_reducible intro x; clear_value x)
    | (with_reducible intro _)
    | (split)
    | (with_reducible refine bumpMmu_ok ?_)
    | (with_reducible refine setQueue_ok ?_)
    | (with_reducible refine State.Sound.mk' rfl (by first | rfl | simp) rfl ?_)

theorem squashJob_ok {s : State} {job : Nat} (hs : s.Sound pend) : (squashJob s job).Sound pend := by
  unfold squashJob
  repeat'
    first
    | (with_reducible assumption)
    | ((try lift_lets -underBinder); with_reducible intro x; with_reducible refine hav (p := State.Sound pend x) ?_ (fun _ => ?_); (on_goal 1 => dsimp only [x]); (on_goal 2 => clear_value x))
    | ((try lift_lets -underBinder); with_reducible intro x; refine hav (p := (x : Comp) = x) rfl (fun _ => ?_))
    | ((try lift_lets -underBinder); with_reducible intro x; refine hav (p := (fun y => x y) = x) rfl (fun _ => ?_))
    | ((try lift_lets -underBinder); with_reducible intro x; clear_value x)
    | (with_reducible intro _)
    | (split)
    | (with_reducible refine squash_ok ?_)
    | (with_reducible refine foldl_ok (fun _ _ _ => ?_) ?_)
    | (with_reducible refine State.Sound.mk' rfl (by first | rfl | simp) rfl ?_)

theorem haltAt_ok {s : State} {q : Nat} {cause : Res} {detail : Nat} {inSeg : Bool} {seg pc : Nat} {w : Word} (hs : s.Sound pend) : (haltAt s q cause detail inSeg seg pc w).Sound pend := by
  unfold haltAt
  repeat'
    first
    | (with_reducible assumption)
    | ((try lift_lets -underBinder); with_reducible intro x; with_reducible refine hav (p := State.Sound pend x) ?_ (fun _ => ?_); (on_goal 1 => dsimp only [x]); (on_goal 2 => clear_value x))
    | ((try lift_lets -underBinder); with_reducible intro x; refine hav (p := (x : Comp) = x) rfl (fun _ => ?_))
    | ((try lift_lets -underBinder); with_reducible intro x; refine hav (p := (fun y => x y) = x) rfl (fun _ => ?_))
    | ((try lift_lets -underBinder); with_reducible intro x; clear_value x)
    | (with_reducible intro _)
    | (split)
    | (with_reducible refine setQueue_ok ?_)
    | (with_reducible refine haltRecord_ok ?_)
    | (with_reducible refine bumpQue_ok ?_)
    | (with_reducible refine releaseFrames_ok ?_)
    | (with_reducible refine schedule_ok ?_)
    | (with_reducible refine squash_ok ?_)
    | (dsimp only)
    | (with_reducible refine State.Sound.mk' rfl (by first | rfl | simp) rfl ?_)

theorem haltQueue_ok {s : State} {q : Nat} {cause : Res} {detail : Nat} (hs : s.Sound pend) : (haltQueue s q cause detail).Sound pend := by
  unfold haltQueue
  repeat'
    first
    | (with_reducible assumption)
    | ((try lift_lets -underBinder); with_reducible intro x; with_reducible refine hav (p := State.Sound pend x) ?_ (fun _ => ?_); (on_goal 1 => dsimp only [x]); (on_goal 2 => clear_value x))
    | ((try lift_lets -underBinder); with_reducible intro x; refine hav (p := (x : Comp) = x) rfl (fun _ => ?_))
    | ((try lift_lets -underBinder); with_reducible intro x; refine hav (p := (fun y => x y) = x) rfl (fun _ => ?_))
    | ((try lift_lets -underBinder); with_reducible intro x; clear_value x)
    | (with_reducible intro _)
    | (split)
    | (with_reducible refine haltAt_ok ?_)
    | (with_reducible refine State.Sound.mk' rfl (by first | rfl | simp) rfl ?_)

theorem advance_ok {s : State} {q : Nat} (hs : s.Sound pend) : (advance s q).Sound pend := by
  unfold advance
  repeat'
    first
    | (with_reducible assumption)
    | ((try lift_lets -underBinder); with_reducible intro x; with_reducible refine hav (p := State.Sound pend x) ?_ (fun _ => ?_); (on_goal 1 => dsimp only [x]); (on_goal 2 => clear_value x))
    | ((try lift_lets -underBinder); with_reducible intro x; refine hav (p := (x : Comp) = x) rfl (fun _ => ?_))
    | ((try lift_lets -underBinder); with_reducible intro x; refine hav (p := (fun y => x y) = x) rfl (fun _ => ?_))
    | ((try lift_lets -underBinder); with_reducible intro x; clear_value x)
    | (with_reducible intro _)
    | (split)
    | (with_reducible refine setQueue_ok ?_)
    | (with_reducible refine releaseFrames_ok ?_)
    | (with_reducible refine schedule_ok ?_)
    | (dsimp only)
    | (with_reducible refine State.Sound.mk' rfl (by first | rfl | simp) rfl ?_)

theorem enterWait_ok {s : State} {q : Nat} {w : WaitKind} (hs : s.Sound pend) : (enterWait s q w).Sound pend := by
  unfold enterWait
  repeat'
    first
    | (with_reducible assumption)
    | ((try lift_lets -underBinder); with_reducible intro x; with_reducible refine hav (p := State.Sound pend x) ?_ (fun _ => ?_); (on_goal 1 => dsimp only [x]); (on_goal 2 => clear_value x))
    | ((try lift_lets -underBinder); with_reducible intro x; refine hav (p := (x : Comp) = x) rfl (fun _ => ?_))
    | ((try lift_lets -underBinder); with_reducible intro x; refine hav (p := (fun y => x y) = x) rfl (fun _ => ?_))
    | ((try lift_lets -underBinder); with_reducible intro x; clear_value x)
    | (with_reducible intro _)
    | (split)
    | (with_reducible refine setQueue_ok ?_)
    | (with_reducible refine bumpQue_ok ?_)
    | (with_reducible refine schedule_ok ?_)
    | (dsimp only)
    | (with_reducible refine State.Sound.mk' rfl (by first | rfl | simp) rfl ?_)

theorem leaveWord_ok {s : State} {q : Nat} (hs : s.Sound pend) : (leaveWord s q).Sound pend := by
  unfold leaveWord
  repeat'
    first
    | (with_reducible assumption)
    | ((try lift_lets -underBinder); with_reducible intro x; with_reducible refine hav (p := State.Sound pend x) ?_ (fun _ => ?_); (on_goal 1 => dsimp only [x]); (on_goal 2 => clear_value x))
    | ((try lift_lets -underBinder); with_reducible intro x; refine hav (p := (x : Comp) = x) rfl (fun _ => ?_))
    | ((try lift_lets -underBinder); with_reducible intro x; refine hav (p := (fun y => x y) = x) rfl (fun _ => ?_))
    | ((try lift_lets -underBinder); with_reducible intro x; clear_value x)
    | (with_reducible intro _)
    | (split)
    | (with_reducible refine setQueue_ok ?_)
    | (dsimp only)
    | (with_reducible refine State.Sound.mk' rfl (by first | rfl | simp) rfl ?_)

theorem resumeQueue_ok {s : State} {q : Nat} (hs : s.Sound pend) : (resumeQueue s q).Sound pend := by
  unfold resumeQueue
  repeat'
    first
    | (with_reducible assumption)
    | ((try lift_lets -underBinder); with_reducible intro x; with_reducible refine hav (p := State.Sound pend x) ?_ (fun _ => ?_); (on_goal 1 => dsimp only [x]); (on_goal 2 => clear_value x))
    | ((try lift_lets -underBinder); with_reducible intro x; refine hav (p := (x : Comp) = x) rfl (fun _ => ?_))
    | ((try lift_lets -underBinder); with_reducible intro x; refine hav (p := (fun y => x y) = x) rfl (fun _ => ?_))
    | ((try lift_lets -underBinder); with_reducible intro x; clear_value x)
    | (with_reducible intro _)
    | (split)
    | (with_reducible refine arbitrate_ok ?_)
    | (with_reducible refine schedule_ok ?_)
    | (with_reducible refine State.Sound.mk' rfl (by first | rfl | simp) rfl ?_)

theorem endWait_ok {s : State} {q : Nat} (hs : s.Sound pend) : (endWait s q).Sound pend := by
  unfold endWait
  repeat'
    first
    | (with_reducible assumption)
    | ((try lift_lets -underBinder); with_reducible intro x; with_reducible refine hav (p := State.Sound pend x) ?_ (fun _ => ?_); (on_goal 1 => dsimp only [x]); (on_goal 2 => clear_value x))
    | ((try lift_lets -underBinder); with_reducible intro x; refine hav (p := (x : Comp) = x) rfl (fun _ => ?_))
    | ((try lift_lets -underBinder); with_reducible intro x; refine hav (p := (fun y => x y) = x) rfl (fun _ => ?_))
    | ((try lift_lets -underBinder); with_reducible intro x; clear_value x)
    | (with_reducible intro _)
    | (split)
    | (with_reducible refine leaveWord_ok ?_)
    | (with_reducible refine resumeQueue_ok ?_)
    | (with_reducible refine State.Sound.mk' rfl (by first | rfl | simp) rfl ?_)

theorem flagVec_ok {s : State} {die g : Nat} {f : FpFlags} {job : Nat} (hs : s.Sound pend) : (flagVec s die g f job).Sound pend := by
  unfold flagVec
  repeat'
    first
    | (with_reducible assumption)
    | ((try lift_lets -underBinder); with_reducible intro x; with_reducible refine hav (p := State.Sound pend x) ?_ (fun _ => ?_); (on_goal 1 => dsimp only [x]); (on_goal 2 => clear_value x))
    | ((try lift_lets -underBinder); with_reducible intro x; refine hav (p := (x : Comp) = x) rfl (fun _ => ?_))
    | ((try lift_lets -underBinder); with_reducible intro x; refine hav (p := (fun y => x y) = x) rfl (fun _ => ?_))
    | ((try lift_lets -underBinder); with_reducible intro x; clear_value x)
    | (with_reducible intro _)
    | (split)
    | (with_reducible refine State.Sound.mk' rfl (by first | rfl | simp) rfl ?_)

theorem flagRde_ok {s : State} {die e : Nat} {f : FpFlags} {job : Nat} (hs : s.Sound pend) : (flagRde s die e f job).Sound pend := by
  unfold flagRde
  repeat'
    first
    | (with_reducible assumption)
    | ((try lift_lets -underBinder); with_reducible intro x; with_reducible refine hav (p := State.Sound pend x) ?_ (fun _ => ?_); (on_goal 1 => dsimp only [x]); (on_goal 2 => clear_value x))
    | ((try lift_lets -underBinder); with_reducible intro x; refine hav (p := (x : Comp) = x) rfl (fun _ => ?_))
    | ((try lift_lets -underBinder); with_reducible intro x; refine hav (p := (fun y => x y) = x) rfl (fun _ => ?_))
    | ((try lift_lets -underBinder); with_reducible intro x; clear_value x)
    | (with_reducible intro _)
    | (split)
    | (with_reducible refine State.Sound.mk' rfl (by first | rfl | simp) rfl ?_)

theorem flagMtx_ok {s : State} {die : Nat} {f : FpFlags} {job : Nat} (hs : s.Sound pend) : (flagMtx s die f job).Sound pend := by
  unfold flagMtx
  repeat'
    first
    | (with_reducible assumption)
    | ((try lift_lets -underBinder); with_reducible intro x; with_reducible refine hav (p := State.Sound pend x) ?_ (fun _ => ?_); (on_goal 1 => dsimp only [x]); (on_goal 2 => clear_value x))
    | ((try lift_lets -underBinder); with_reducible intro x; refine hav (p := (x : Comp) = x) rfl (fun _ => ?_))
    | ((try lift_lets -underBinder); with_reducible intro x; refine hav (p := (fun y => x y) = x) rfl (fun _ => ?_))
    | ((try lift_lets -underBinder); with_reducible intro x; clear_value x)
    | (with_reducible intro _)
    | (split)
    | (with_reducible refine State.Sound.mk' rfl (by first | rfl | simp) rfl ?_)

theorem flagGang_ok {s : State} {Q : Queue} {f : FpFlags} (hs : s.Sound pend) : (flagGang s Q f).Sound pend := by
  unfold flagGang
  repeat'
    first
    | (with_reducible assumption)
    | ((try lift_lets -underBinder); with_reducible intro x; with_reducible refine hav (p := State.Sound pend x) ?_ (fun _ => ?_); (on_goal 1 => dsimp only [x]); (on_goal 2 => clear_value x))
    | ((try lift_lets -underBinder); with_reducible intro x; refine hav (p := (x : Comp) = x) rfl (fun _ => ?_))
    | ((try lift_lets -underBinder); with_reducible intro x; refine hav (p := (fun y => x y) = x) rfl (fun _ => ?_))
    | ((try lift_lets -underBinder); with_reducible intro x; clear_value x)
    | (with_reducible intro _)
    | (split)
    | (with_reducible refine flagVec_ok ?_)
    | (with_reducible refine foldl_ok (fun _ _ _ => ?_) ?_)
    | (with_reducible refine State.Sound.mk' rfl (by first | rfl | simp) rfl ?_)

theorem setJobFlag_ok {s : State} {job f : Nat} {b : Bool} (hs : s.Sound pend) : (setJobFlag s job f b).Sound pend := by
  unfold setJobFlag
  repeat'
    first
    | (with_reducible assumption)
    | ((try lift_lets -underBinder); with_reducible intro x; with_reducible refine hav (p := State.Sound pend x) ?_ (fun _ => ?_); (on_goal 1 => dsimp only [x]); (on_goal 2 => clear_value x))
    | ((try lift_lets -underBinder); with_reducible intro x; refine hav (p := (x : Comp) = x) rfl (fun _ => ?_))
    | ((try lift_lets -underBinder); with_reducible intro x; refine hav (p := (fun y => x y) = x) rfl (fun _ => ?_))
    | ((try lift_lets -underBinder); with_reducible intro x; clear_value x)
    | (with_reducible intro _)
    | (split)
    | (with_reducible refine State.Sound.mk' rfl (by first | rfl | simp) rfl ?_)

theorem setFrames_ok {s : State} {job die : Nat} {fs : List Frame} (hs : s.Sound pend) : (setFrames s job die fs).Sound pend := by
  unfold setFrames
  repeat'
    first
    | (with_reducible assumption)
    | ((try lift_lets -underBinder); with_reducible intro x; with_reducible refine hav (p := State.Sound pend x) ?_ (fun _ => ?_); (on_goal 1 => dsimp only [x]); (on_goal 2 => clear_value x))
    | ((try lift_lets -underBinder); with_reducible intro x; refine hav (p := (x : Comp) = x) rfl (fun _ => ?_))
    | ((try lift_lets -underBinder); with_reducible intro x; refine hav (p := (fun y => x y) = x) rfl (fun _ => ?_))
    | ((try lift_lets -underBinder); with_reducible intro x; clear_value x)
    | (with_reducible intro _)
    | (split)
    | (with_reducible refine State.Sound.mk' rfl (by first | rfl | simp) rfl ?_)

theorem touchDirty_ok {s : State} {job : Nat} {va : Int} (hs : s.Sound pend) : (touchDirty s job va).Sound pend := by
  unfold touchDirty
  repeat'
    first
    | (with_reducible assumption)
    | ((try lift_lets -underBinder); with_reducible intro x; with_reducible refine hav (p := State.Sound pend x) ?_ (fun _ => ?_); (on_goal 1 => dsimp only [x]); (on_goal 2 => clear_value x))
    | ((try lift_lets -underBinder); with_reducible intro x; refine hav (p := (x : Comp) = x) rfl (fun _ => ?_))
    | ((try lift_lets -underBinder); with_reducible intro x; refine hav (p := (fun y => x y) = x) rfl (fun _ => ?_))
    | ((try lift_lets -underBinder); with_reducible intro x; clear_value x)
    | (with_reducible intro _)
    | (split)
    | (with_reducible refine setFrames_ok ?_)
    | (with_reducible refine State.Sound.mk' rfl (by first | rfl | simp) rfl ?_)

theorem writeVA_ok {s : State} {job : Nat} {va : Int} {b : Byte} (hs : s.Sound pend) : (writeVA s job va b).Sound pend := by
  unfold writeVA
  repeat'
    first
    | (with_reducible assumption)
    | ((try lift_lets -underBinder); with_reducible intro x; with_reducible refine hav (p := State.Sound pend x) ?_ (fun _ => ?_); (on_goal 1 => dsimp only [x]); (on_goal 2 => clear_value x))
    | ((try lift_lets -underBinder); with_reducible intro x; refine hav (p := (x : Comp) = x) rfl (fun _ => ?_))
    | ((try lift_lets -underBinder); with_reducible intro x; refine hav (p := (fun y => x y) = x) rfl (fun _ => ?_))
    | ((try lift_lets -underBinder); with_reducible intro x; clear_value x)
    | (with_reducible intro _)
    | (split)
    | (with_reducible refine State.Sound.mk_put rfl (by first | rfl | simp) rfl ?_)
    | (with_reducible refine State.Sound.mk' rfl (by first | rfl | simp) rfl ?_)

theorem writeVAs_ok {s : State} {job : Nat} {va : Int} {bs : List Byte} (hs : s.Sound pend) : (writeVAs s job va bs).Sound pend := by
  unfold writeVAs
  repeat'
    first
    | (with_reducible assumption)
    | ((try lift_lets -underBinder); with_reducible intro x; with_reducible refine hav (p := State.Sound pend x) ?_ (fun _ => ?_); (on_goal 1 => dsimp only [x]); (on_goal 2 => clear_value x))
    | ((try lift_lets -underBinder); with_reducible intro x; refine hav (p := (x : Comp) = x) rfl (fun _ => ?_))
    | ((try lift_lets -underBinder); with_reducible intro x; refine hav (p := (fun y => x y) = x) rfl (fun _ => ?_))
    | ((try lift_lets -underBinder); with_reducible intro x; clear_value x)
    | (with_reducible intro _)
    | (split)
    | (with_reducible refine touchDirty_ok ?_)
    | (with_reducible refine writeVA_ok ?_)
    | (with_reducible refine foldl_ok (fun _ _ _ => ?_) ?_)
    | (with_reducible refine State.Sound.mk_cleanWords rfl (by first | rfl | simp) rfl ?_)
    | (with_reducible refine State.Sound.mk' rfl (by first | rfl | simp) rfl ?_)

theorem recordFault_ok {s : State} {job die : Nat} {kind : Nat} {u : MUnit} {write : Bool} {q : Nat} {va : Int} (hs : s.Sound pend) : (recordFault s job die kind u write q va).Sound pend := by
  unfold recordFault
  repeat'
    first
    | (with_reducible assumption)
    | ((try lift_lets -underBinder); with_reducible intro x; with_reducible refine hav (p := State.Sound pend x) ?_ (fun _ => ?_); (on_goal 1 => dsimp only [x]); (on_goal 2 => clear_value x))
    | ((try lift_lets -underBinder); with_reducible intro x; refine hav (p := (x : Comp) = x) rfl (fun _ => ?_))
    | ((try lift_lets -underBinder); with_reducible intro x; refine hav (p := (fun y => x y) = x) rfl (fun _ => ?_))
    | ((try lift_lets -underBinder); with_reducible intro x; clear_value x)
    | (with_reducible intro _)
    | (split)
    | (with_reducible refine bumpMmu_ok ?_)
    | (with_reducible refine State.Sound.mk' rfl (by first | rfl | simp) rfl ?_)

theorem translationFault_ok {s : State} {q : Nat} {kind : Nat} {u : MUnit} {va : Int} {write : Bool} (hs : s.Sound pend) : (translationFault s q kind u va write).Sound pend := by
  unfold translationFault
  repeat'
    first
    | (with_reducible assumption)
    | ((try lift_lets -underBinder); with_reducible intro x; with_reducible refine hav (p := State.Sound pend x) ?_ (fun _ => ?_); (on_goal 1 => dsimp only [x]); (on_goal 2 => clear_value x))
    | ((try lift_lets -underBinder); with_reducible intro x; refine hav (p := (x : Comp) = x) rfl (fun _ => ?_))
    | ((try lift_lets -underBinder); with_reducible intro x; refine hav (p := (fun y => x y) = x) rfl (fun _ => ?_))
    | ((try lift_lets -underBinder); with_reducible intro x; clear_value x)
    | (with_reducible intro _)
    | (split)
    | (with_reducible refine haltQueue_ok ?_)
    | (with_reducible refine recordFault_ok ?_)
    | (with_reducible refine State.Sound.mk' rfl (by first | rfl | simp) rfl ?_)

theorem tierFault_ok {s : State} {q : Nat} {pages : List Nat} (hs : s.Sound pend) : (tierFault s q pages).Sound pend := by
  unfold tierFault
  repeat'
    first
    | (with_reducible assumption)
    | ((try lift_lets -underBinder); with_reducible intro x; with_reducible refine hav (p := State.Sound pend x) ?_ (fun _ => ?_); (on_goal 1 => dsimp only [x]); (on_goal 2 => clear_value x))
    | ((try lift_lets -underBinder); with_reducible intro x; refine hav (p := (x : Comp) = x) rfl (fun _ => ?_))
    | ((try lift_lets -underBinder); with_reducible intro x; refine hav (p := (fun y => x y) = x) rfl (fun _ => ?_))
    | ((try lift_lets -underBinder); with_reducible intro x; clear_value x)
    | (with_reducible intro _)
    | (split)
    | (with_reducible refine bumpMmu_ok ?_)
    | (with_reducible refine saveContext_ok ?_)
    | (with_reducible refine haltQueue_ok ?_)
    | (with_reducible refine enterWait_ok ?_)
    | (dsimp only)
    | (with_reducible refine State.Sound.mk' rfl (by first | rfl | simp) rfl ?_)

theorem holdFrames_ok {s : State} {q : Nat} {pages : List Nat} (hs : s.Sound pend) : (holdFrames s q pages).Sound pend := by
  unfold holdFrames
  repeat'
    first
    | (with_reducible assumption)
    | ((try lift_lets -underBinder); with_reducible intro x; with_reducible refine hav (p := State.Sound pend x) ?_ (fun _ => ?_); (on_goal 1 => dsimp only [x]); (on_goal 2 => clear_value x))
    | ((try lift_lets -underBinder); with_reducible intro x; refine hav (p := (x : Comp) = x) rfl (fun _ => ?_))
    | ((try lift_lets -underBinder); with_reducible intro x; refine hav (p := (fun y => x y) = x) rfl (fun _ => ?_))
    | ((try lift_lets -underBinder); with_reducible intro x; clear_value x)
    | (with_reducible intro _)
    | (split)
    | (with_reducible refine setFrames_ok ?_)
    | (with_reducible refine State.Sound.mk' rfl (by first | rfl | simp) rfl ?_)

theorem tlbTouch_ok {s : State} {die unit cap job : Nat} {pages : List Nat} (hs : s.Sound pend) : (tlbTouch s die unit cap job pages).Sound pend := by
  unfold tlbTouch
  repeat'
    first
    | (with_reducible assumption)
    | ((try lift_lets -underBinder); with_reducible intro x; with_reducible refine hav (p := State.Sound pend x) ?_ (fun _ => ?_); (on_goal 1 => dsimp only [x]); (on_goal 2 => clear_value x))
    | ((try lift_lets -underBinder); with_reducible intro x; refine hav (p := (x : Comp) = x) rfl (fun _ => ?_))
    | ((try lift_lets -underBinder); with_reducible intro x; refine hav (p := (fun y => x y) = x) rfl (fun _ => ?_))
    | ((try lift_lets -underBinder); with_reducible intro x; clear_value x)
    | (with_reducible intro _)
    | (split)
    | (with_reducible refine bumpMmu_ok ?_)
    | (with_reducible refine foldl_ok (fun _ _ _ => ?_) ?_)
    | (dsimp only)
    | (with_reducible refine State.Sound.mk' rfl (by first | rfl | simp) rfl ?_)

theorem tlbDrop_ok {s : State} {die : Nat} {p : Nat × Nat → Bool} (hs : s.Sound pend) : (tlbDrop s die p).Sound pend := by
  unfold tlbDrop
  repeat'
    first
    | (with_reducible assumption)
    | ((try lift_lets -underBinder); with_reducible intro x; with_reducible refine hav (p := State.Sound pend x) ?_ (fun _ => ?_); (on_goal 1 => dsimp only [x]); (on_goal 2 => clear_value x))
    | ((try lift_lets -underBinder); with_reducible intro x; refine hav (p := (x : Comp) = x) rfl (fun _ => ?_))
    | ((try lift_lets -underBinder); with_reducible intro x; refine hav (p := (fun y => x y) = x) rfl (fun _ => ?_))
    | ((try lift_lets -underBinder); with_reducible intro x; clear_value x)
    | (with_reducible intro _)
    | (split)
    | (dsimp only)
    | (with_reducible refine State.Sound.mk' rfl (by first | rfl | simp) rfl ?_)

theorem uncorrectableNote_ok {s : State} {die key : Nat} (hs : s.Sound pend) : (uncorrectableNote s die key).Sound pend := by
  unfold uncorrectableNote
  repeat'
    first
    | (with_reducible assumption)
    | ((try lift_lets -underBinder); with_reducible intro x; with_reducible refine hav (p := State.Sound pend x) ?_ (fun _ => ?_); (on_goal 1 => dsimp only [x]); (on_goal 2 => clear_value x))
    | ((try lift_lets -underBinder); with_reducible intro x; refine hav (p := (x : Comp) = x) rfl (fun _ => ?_))
    | ((try lift_lets -underBinder); with_reducible intro x; refine hav (p := (fun y => x y) = x) rfl (fun _ => ?_))
    | ((try lift_lets -underBinder); with_reducible intro x; clear_value x)
    | (with_reducible intro _)
    | (split)
    | (with_reducible refine setAttn_ok ?_)
    | (with_reducible refine ringLog_ok ?_)
    | (with_reducible refine bumpMmu_ok ?_)
    | (with_reducible refine State.Sound.mk' rfl (by first | rfl | simp) rfl ?_)

end Sys2Proof.Machine
end

