-- ==== Sys2Proof/Laws/OkBpm.lean ====
section
/-! SUPPORT. The operations of Bpm.lean keep the state well formed. -/

set_option linter.unusedTactic false
set_option linter.unreachableTactic false

namespace Sys2Proof.Machine

variable {pend : List Instr}

theorem setLane_ok {s : State} {l : Nat} {f : Lane → Lane} (hs : s.Sound pend) : (setLane s l f).Sound pend := by
  unfold setLane
  repeat'
    first
    | (with_reducible assumption)
    | ((try lift_lets -underBinder); with_reducible intro x; with_reducible refine hav (p := State.Sound pend x) ?_ (fun _ => ?_); (on_goal 1 => dsimp only [x]); (on_goal 2 => clear_value x))
    | ((try lift_lets -underBinder); with_reducible intro x; refine hav (p := (x : Comp) = x) rfl (fun _ => ?_))
    | ((try lift_lets -underBinder); with_reducible intro x; refine hav (p := (fun y => x y) = x) rfl (fun _ => ?_))
    | ((try lift_lets -underBinder); with_reducible intro x; clear_value x)
    | (with_reducible intro _)
    | (split)
    | (with_reducible refine State.Sound.mk' rfl (by first | rfl | simp) rfl ?_)

theorem setPort_ok {s : State} {p : Nat} {f : Port → Port} (hs : s.Sound pend) : (setPort s p f).Sound pend := by
  unfold setPort
  repeat'
    first
    | (with_reducible assumption)
    | ((try lift_lets -underBinder); with_reducible intro x; with_reducible refine hav (p := State.Sound pend x) ?_ (fun _ => ?_); (on_goal 1 => dsimp only [x]); (on_goal 2 => clear_value x))
    | ((try lift_lets -underBinder); with_reducible intro x; refine hav (p := (x : Comp) = x) rfl (fun _ => ?_))
    | ((try lift_lets -underBinder); with_reducible intro x; refine hav (p := (fun y => x y) = x) rfl (fun _ => ?_))
    | ((try lift_lets -underBinder); with_reducible intro x; clear_value x)
    | (with_reducible intro _)
    | (split)
    | (with_reducible refine State.Sound.mk' rfl (by first | rfl | simp) rfl ?_)

theorem cntLane_ok {s : State} {l k n : Nat} (hs : s.Sound pend) : (cntLane s l k n).Sound pend := by
  unfold cntLane
  repeat'
    first
    | (with_reducible assumption)
    | ((try lift_lets -underBinder); with_reducible intro x; with_reducible refine hav (p := State.Sound pend x) ?_ (fun _ => ?_); (on_goal 1 => dsimp only [x]); (on_goal 2 => clear_value x))
    | ((try lift_lets -underBinder); with_reducible intro x; refine hav (p := (x : Comp) = x) rfl (fun _ => ?_))
    | ((try lift_lets -underBinder); with_reducible intro x; refine hav (p := (fun y => x y) = x) rfl (fun _ => ?_))
    | ((try lift_lets -underBinder); with_reducible intro x; clear_value x)
    | (with_reducible intro _)
    | (split)
    | (with_reducible refine setLane_ok ?_)
    | (with_reducible refine State.Sound.mk' rfl (by first | rfl | simp) rfl ?_)

theorem setBpm_ok {s : State} {i : Nat} {f : Bpm → Bpm} (hs : s.Sound pend) : (setBpm s i f).Sound pend := by
  unfold setBpm
  repeat'
    first
    | (with_reducible assumption)
    | ((try lift_lets -underBinder); with_reducible intro x; with_reducible refine hav (p := State.Sound pend x) ?_ (fun _ => ?_); (on_goal 1 => dsimp only [x]); (on_goal 2 => clear_value x))
    | ((try lift_lets -underBinder); with_reducible intro x; refine hav (p := (x : Comp) = x) rfl (fun _ => ?_))
    | ((try lift_lets -underBinder); with_reducible intro x; refine hav (p := (fun y => x y) = x) rfl (fun _ => ?_))
    | ((try lift_lets -underBinder); with_reducible intro x; clear_value x)
    | (with_reducible intro _)
    | (split)
    | (with_reducible refine State.Sound.mk' rfl (by first | rfl | simp) rfl ?_)

theorem cntBpm_ok {s : State} {i k n : Nat} (hs : s.Sound pend) : (cntBpm s i k n).Sound pend := by
  unfold cntBpm
  repeat'
    first
    | (with_reducible assumption)
    | ((try lift_lets -underBinder); with_reducible intro x; with_reducible refine hav (p := State.Sound pend x) ?_ (fun _ => ?_); (on_goal 1 => dsimp only [x]); (on_goal 2 => clear_value x))
    | ((try lift_lets -underBinder); with_reducible intro x; refine hav (p := (x : Comp) = x) rfl (fun _ => ?_))
    | ((try lift_lets -underBinder); with_reducible intro x; refine hav (p := (fun y => x y) = x) rfl (fun _ => ?_))
    | ((try lift_lets -underBinder); with_reducible intro x; clear_value x)
    | (with_reducible intro _)
    | (split)
    | (with_reducible refine setBpm_ok ?_)
    | (with_reducible refine State.Sound.mk' rfl (by first | rfl | simp) rfl ?_)

theorem returnCredit_ok {s : State} {p cls n : Nat} (hs : s.Sound pend) : (returnCredit s p cls n).Sound pend := by
  unfold returnCredit
  repeat'
    first
    | (with_reducible assumption)
    | ((try lift_lets -underBinder); with_reducible intro x; with_reducible refine hav (p := State.Sound pend x) ?_ (fun _ => ?_); (on_goal 1 => dsimp only [x]); (on_goal 2 => clear_value x))
    | ((try lift_lets -underBinder); with_reducible intro x; refine hav (p := (x : Comp) = x) rfl (fun _ => ?_))
    | ((try lift_lets -underBinder); with_reducible intro x; refine hav (p := (fun y => x y) = x) rfl (fun _ => ?_))
    | ((try lift_lets -underBinder); with_reducible intro x; clear_value x)
    | (with_reducible intro _)
    | (split)
    | (with_reducible refine setPort_ok ?_)
    | (with_reducible refine State.Sound.mk' rfl (by first | rfl | simp) rfl ?_)

theorem releaseWithheld_ok {s : State} {inst pool : Nat} (hs : s.Sound pend) : (releaseWithheld s inst pool).Sound pend := by
  unfold releaseWithheld
  repeat'
    first
    | (with_reducible assumption)
    | ((try lift_lets -underBinder); with_reducible intro x; with_reducible refine hav (p := State.Sound pend x) ?_ (fun _ => ?_); (on_goal 1 => dsimp only [x]); (on_goal 2 => clear_value x))
    | ((try lift_lets -underBinder); with_reducible intro x; refine hav (p := (x : Comp) = x) rfl (fun _ => ?_))
    | ((try lift_lets -underBinder); with_reducible intro x; refine hav (p := (fun y => x y) = x) rfl (fun _ => ?_))
    | ((try lift_lets -underBinder); with_reducible intro x; clear_value x)
    | (with_reducible intro _)
    | (split)
    | (with_reducible refine setPort_ok ?_)
    | (with_reducible refine returnCredit_ok ?_)
    | (with_reducible refine foldl_ok (fun _ _ _ => ?_) ?_)
    | (with_reducible refine State.Sound.mk' rfl (by first | rfl | simp) rfl ?_)

theorem relevel_ok {s : State} {inst pool : Nat} (hs : s.Sound pend) : (relevel s inst pool).Sound pend := by
  unfold relevel
  repeat'
    first
    | (with_reducible assumption)
    | ((try lift_lets -underBinder); with_reducible intro x; with_reducible refine hav (p := State.Sound pend x) ?_ (fun _ => ?_); (on_goal 1 => dsimp only [x]); (on_goal 2 => clear_value x))
    | ((try lift_lets -underBinder); with_reducible intro x; refine hav (p := (x : Comp) = x) rfl (fun _ => ?_))
    | ((try lift_lets -underBinder); with_reducible intro x; refine hav (p := (fun y => x y) = x) rfl (fun _ => ?_))
    | ((try lift_lets -underBinder); with_reducible intro x; clear_value x)
    | (with_reducible intro _)
    | (split)
    | (with_reducible refine setAttn_ok ?_)
    | (with_reducible refine setBpm_ok ?_)
    | (with_reducible refine cntBpm_ok ?_)
    | (with_reducible refine releaseWithheld_ok ?_)
    | (with_reducible refine State.Sound.mk' rfl (by first | rfl | simp) rfl ?_)

theorem bpmAlloc_ok {s : State} {inst req bytes : Nat} {holders : List Holder} (hs : s.Sound pend) : (bpmAlloc s inst req bytes holders).Sound pend := by
  unfold bpmAlloc
  repeat'
    first
    | (with_reducible assumption)
    | ((try lift_lets -underBinder); with_reducible intro x; with_reducible refine hav (p := State.Sound pend x) ?_ (fun _ => ?_); (on_goal 1 => dsimp only [x]); (on_goal 2 => clear_value x))
    | ((try lift_lets -underBinder); with_reducible intro x; refine hav (p := (x : Comp) = x) rfl (fun _ => ?_))
    | ((try lift_lets -underBinder); with_reducible intro x; refine hav (p := (fun y => x y) = x) rfl (fun _ => ?_))
    | ((try lift_lets -underBinder); with_reducible intro x; clear_value x)
    | (with_reducible intro _)
    | (split)
    | (with_reducible refine setBpm_ok ?_)
    | (with_reducible refine cntBpm_ok ?_)
    | (with_reducible refine relevel_ok ?_)
    | (dsimp only)
    | (with_reducible exact wait_ok)
    | (with_reducible exact quota_ok)
    | (with_reducible refine granted_ok ?_)
    | (with_reducible refine of_granted ?_ (by assumption))
    | (with_reducible refine State.Sound.mk' rfl (by first | rfl | simp) rfl ?_)

theorem settleAlloc_ok {s : State} {inst id : Nat} (hs : s.Sound pend) : (settleAlloc s inst id).Sound pend := by
  unfold settleAlloc
  repeat'
    first
    | (with_reducible assumption)
    | ((try lift_lets -underBinder); with_reducible intro x; with_reducible refine hav (p := State.Sound pend x) ?_ (fun _ => ?_); (on_goal 1 => dsimp only [x]); (on_goal 2 => clear_value x))
    | ((try lift_lets -underBinder); with_reducible intro x; refine hav (p := (x : Comp) = x) rfl (fun _ => ?_))
    | ((try lift_lets -underBinder); with_reducible intro x; refine hav (p := (fun y => x y) = x) rfl (fun _ => ?_))
    | ((try lift_lets -underBinder); with_reducible intro x; clear_value x)
    | (with_reducible intro _)
    | (split)
    | (with_reducible refine setBpm_ok ?_)
    | (with_reducible refine relevel_ok ?_)
    | (with_reducible refine State.Sound.mk' rfl (by first | rfl | simp) rfl ?_)

theorem releaseHolder_ok {s : State} {inst id : Nat} {h : Holder} (hs : s.Sound pend) : (releaseHolder s inst id h).Sound pend := by
  unfold releaseHolder
  repeat'
    first
    | (with_reducible assumption)
    | ((try lift_lets -underBinder); with_reducible intro x; with_reducible refine hav (p := State.Sound pend x) ?_ (fun _ => ?_); (on_goal 1 => dsimp only [x]); (on_goal 2 => clear_value x))
    | ((try lift_lets -underBinder); with_reducible intro x; refine hav (p := (x : Comp) = x) rfl (fun _ => ?_))
    | ((try lift_lets -underBinder); with_reducible intro x; refine hav (p := (fun y => x y) = x) rfl (fun _ => ?_))
    | ((try lift_lets -underBinder); with_reducible intro x; clear_value x)
    | (with_reducible intro _)
    | (split)
    | (with_reducible refine setBpm_ok ?_)
    | (with_reducible refine settleAlloc_ok ?_)
    | (with_reducible refine State.Sound.mk' rfl (by first | rfl | simp) rfl ?_)

theorem freeAlloc_ok {s : State} {inst id : Nat} (hs : s.Sound pend) : (freeAlloc s inst id).Sound pend := by
  unfold freeAlloc
  repeat'
    first
    | (with_reducible assumption)
    | ((try lift_lets -underBinder); with_reducible intro x; with_reducible refine hav (p := State.Sound pend x) ?_ (fun _ => ?_); (on_goal 1 => dsimp only [x]); (on_goal 2 => clear_value x))
    | ((try lift_lets -underBinder); with_reducible intro x; refine hav (p := (x : Comp) = x) rfl (fun _ => ?_))
    | ((try lift_lets -underBinder); with_reducible intro x; refine hav (p := (fun y => x y) = x) rfl (fun _ => ?_))
    | ((try lift_lets -underBinder); with_reducible intro x; clear_value x)
    | (with_reducible intro _)
    | (split)
    | (with_reducible refine setBpm_ok ?_)
    | (with_reducible refine settleAlloc_ok ?_)
    | (with_reducible refine State.Sound.mk' rfl (by first | rfl | simp) rfl ?_)

theorem dropAlloc_ok {s : State} {inst id : Nat} (hs : s.Sound pend) : (dropAlloc s inst id).Sound pend := by
  unfold dropAlloc
  repeat'
    first
    | (with_reducible assumption)
    | ((try lift_lets -underBinder); with_reducible intro x; with_reducible refine hav (p := State.Sound pend x) ?_ (fun _ => ?_); (on_goal 1 => dsimp only [x]); (on_goal 2 => clear_value x))
    | ((try lift_lets -underBinder); with_reducible intro x; refine hav (p := (x : Comp) = x) rfl (fun _ => ?_))
    | ((try lift_lets -underBinder); with_reducible intro x; refine hav (p := (fun y => x y) = x) rfl (fun _ => ?_))
    | ((try lift_lets -underBinder); with_reducible intro x; clear_value x)
    | (with_reducible intro _)
    | (split)
    | (with_reducible refine setBpm_ok ?_)
    | (with_reducible refine relevel_ok ?_)
    | (with_reducible refine State.Sound.mk' rfl (by first | rfl | simp) rfl ?_)

theorem leaveAlloc_ok {s : State} {a : Option Nat} {p cls job : Nat} (hs : s.Sound pend) : (leaveAlloc s a p cls job).Sound pend := by
  unfold leaveAlloc
  repeat'
    first
    | (with_reducible assumption)
    | ((try lift_lets -underBinder); with_reducible intro x; with_reducible refine hav (p := State.Sound pend x) ?_ (fun _ => ?_); (on_goal 1 => dsimp only [x]); (on_goal 2 => clear_value x))
    | ((try lift_lets -underBinder); with_reducible intro x; refine hav (p := (x : Comp) = x) rfl (fun _ => ?_))
    | ((try lift_lets -underBinder); with_reducible intro x; refine hav (p := (fun y => x y) = x) rfl (fun _ => ?_))
    | ((try lift_lets -underBinder); with_reducible intro x; clear_value x)
    | (with_reducible intro _)
    | (split)
    | (with_reducible refine releaseHolder_ok ?_)
    | (with_reducible refine dropAlloc_ok ?_)
    | (with_reducible refine State.Sound.mk' rfl (by first | rfl | simp) rfl ?_)

theorem holdAlloc_ok {s : State} {id p cls job : Nat} (hs : s.Sound pend) : (holdAlloc s id p cls job).Sound pend := by
  unfold holdAlloc
  repeat'
    first
    | (with_reducible assumption)
    | ((try lift_lets -underBinder); with_reducible intro x; with_reducible refine hav (p := State.Sound pend x) ?_ (fun _ => ?_); (on_goal 1 => dsimp only [x]); (on_goal 2 => clear_value x))
    | ((try lift_lets -underBinder); with_reducible intro x; refine hav (p := (x : Comp) = x) rfl (fun _ => ?_))
    | ((try lift_lets -underBinder); with_reducible intro x; refine hav (p := (fun y => x y) = x) rfl (fun _ => ?_))
    | ((try lift_lets -underBinder); with_reducible intro x; clear_value x)
    | (with_reducible intro _)
    | (split)
    | (with_reducible refine setBpm_ok ?_)
    | (with_reducible refine State.Sound.mk' rfl (by first | rfl | simp) rfl ?_)

theorem freeze_ok {s : State} {inst req pool : Nat} {v : Violation} {ptr : Nat} (hs : s.Sound pend) : (freeze s inst req pool v ptr).Sound pend := by
  unfold freeze
  repeat'
    first
    | (with_reducible assumption)
    | ((try lift_lets -underBinder); with_reducible intro x; with_reducible refine hav (p := State.Sound pend x) ?_ (fun _ => ?_); (on_goal 1 => dsimp only [x]); (on_goal 2 => clear_value x))
    | ((try lift_lets -underBinder); with_reducible intro x; refine hav (p := (x : Comp) = x) rfl (fun _ => ?_))
    | ((try lift_lets -underBinder); with_reducible intro x; refine hav (p := (fun y => x y) = x) rfl (fun _ => ?_))
    | ((try lift_lets -underBinder); with_reducible intro x; clear_value x)
    | (with_reducible intro _)
    | (split)
    | (with_reducible refine setAttn_ok ?_)
    | (with_reducible refine ringLog_ok ?_)
    | (with_reducible refine setQueue_ok ?_)
    | (with_reducible refine setBpm_ok ?_)
    | (with_reducible refine cntBpm_ok ?_)
    | (with_reducible refine foldl_ok (fun _ _ _ => ?_) ?_)
    | (with_reducible refine State.Sound.mk' rfl (by first | rfl | simp) rfl ?_)

end Sys2Proof.Machine
end

