-- ==== Sys2Proof/Laws/OkLink.lean ====
section
/-! SUPPORT. The operations of Link.lean keep the state well formed. -/

set_option linter.unusedTactic false
set_option linter.unreachableTactic false

namespace Sys2Proof.Machine

variable {pend : List Instr}

theorem enqueue_ok {s : State} {p : Nat} {e : OutEntry} (hs : s.Sound pend) : (enqueue s p e).Sound pend := by
  unfold enqueue
  repeat'
    first
    | (with_reducible assumption)
    | ((try lift_lets -underBinder); with_reducible intro x; with_reducible refine hav (p := State.Sound pend x) ?_ (fun _ => ?_); (on_goal 1 => dsimp only [x]); (on_goal 2 => clear_value x))
    | ((try lift_lets -underBinder); with_reducible intro x; refine hav (p := (x : Comp) = x) rfl (fun _ => ?_))
    | ((try lift_lets -underBinder); with_reducible intro x; refine hav (p := (fun y => x y) = x) rfl (fun _ => ?_))
    | ((try lift_lets -underBinder); with_reducible intro x; clear_value x)
    | (with_reducible intro _)
    | (split)
    | (with_reducible refine setPort_ok ?_)
    | (with_reducible refine State.Sound.mk' rfl (by first | rfl | simp) rfl ?_)

theorem originateFrom_ok {buf : Option Nat} {s : State} {u : LinkUnit} (hs : s.Sound pend) : (originateFrom buf s u).Sound pend := by
  unfold originateFrom
  repeat'
    first
    | (with_reducible assumption)
    | ((try lift_lets -underBinder); with_reducible intro x; with_reducible refine hav (p := State.Sound pend x) ?_ (fun _ => ?_); (on_goal 1 => dsimp only [x]); (on_goal 2 => clear_value x))
    | ((try lift_lets -underBinder); with_reducible intro x; refine hav (p := (x : Comp) = x) rfl (fun _ => ?_))
    | ((try lift_lets -underBinder); with_reducible intro x; refine hav (p := (fun y => x y) = x) rfl (fun _ => ?_))
    | ((try lift_lets -underBinder); with_reducible intro x; clear_value x)
    | (with_reducible intro _)
    | (split)
    | (with_reducible refine holdAlloc_ok ?_)
    | (with_reducible refine enqueue_ok ?_)
    | (dsimp only)
    | (with_reducible refine State.Sound.mk' rfl (by first | rfl | simp) rfl ?_)

theorem originate_ok {s : State} {u : LinkUnit} (hs : s.Sound pend) : (originate s u).Sound pend := by
  unfold originate
  repeat'
    first
    | (with_reducible assumption)
    | ((try lift_lets -underBinder); with_reducible intro x; with_reducible refine hav (p := State.Sound pend x) ?_ (fun _ => ?_); (on_goal 1 => dsimp only [x]); (on_goal 2 => clear_value x))
    | ((try lift_lets -underBinder); with_reducible intro x; refine hav (p := (x : Comp) = x) rfl (fun _ => ?_))
    | ((try lift_lets -underBinder); with_reducible intro x; refine hav (p := (fun y => x y) = x) rfl (fun _ => ?_))
    | ((try lift_lets -underBinder); with_reducible intro x; clear_value x)
    | (with_reducible intro _)
    | (split)
    | (with_reducible refine originateFrom_ok ?_)
    | (with_reducible refine State.Sound.mk' rfl (by first | rfl | simp) rfl ?_)

theorem sendLocal_ok {s : State} {l : Nat} {u : LinkUnit} (hs : s.Sound pend) : (sendLocal s l u).Sound pend := by
  unfold sendLocal
  repeat'
    first
    | (with_reducible assumption)
    | ((try lift_lets -underBinder); with_reducible intro x; with_reducible refine hav (p := State.Sound pend x) ?_ (fun _ => ?_); (on_goal 1 => dsimp only [x]); (on_goal 2 => clear_value x))
    | ((try lift_lets -underBinder); with_reducible intro x; refine hav (p := (x : Comp) = x) rfl (fun _ => ?_))
    | ((try lift_lets -underBinder); with_reducible intro x; refine hav (p := (fun y => x y) = x) rfl (fun _ => ?_))
    | ((try lift_lets -underBinder); with_reducible intro x; clear_value x)
    | (with_reducible intro _)
    | (split)
    | (with_reducible refine setLane_ok ?_)
    | (with_reducible refine State.Sound.mk' rfl (by first | rfl | simp) rfl ?_)

theorem sendCredit_ok {s : State} {p l : Nat} (hs : s.Sound pend) : (sendCredit s p l).Sound pend := by
  unfold sendCredit
  repeat'
    first
    | (with_reducible assumption)
    | ((try lift_lets -underBinder); with_reducible intro x; with_reducible refine hav (p := State.Sound pend x) ?_ (fun _ => ?_); (on_goal 1 => dsimp only [x]); (on_goal 2 => clear_value x))
    | ((try lift_lets -underBinder); with_reducible intro x; refine hav (p := (x : Comp) = x) rfl (fun _ => ?_))
    | ((try lift_lets -underBinder); with_reducible intro x; refine hav (p := (fun y => x y) = x) rfl (fun _ => ?_))
    | ((try lift_lets -underBinder); with_reducible intro x; clear_value x)
    | (with_reducible intro _)
    | (split)
    | (with_reducible refine setLane_ok ?_)
    | (with_reducible refine setPort_ok ?_)
    | (with_reducible refine sendLocal_ok ?_)
    | (with_reducible refine foldl_ok (fun _ _ _ => ?_) ?_)
    | (dsimp only)
    | (with_reducible refine State.Sound.mk' rfl (by first | rfl | simp) rfl ?_)

theorem doCreditSend_ok {l : Nat} {s : State} (hs : s.Sound pend) : (doCreditSend l s).Sound pend := by
  unfold doCreditSend
  repeat'
    first
    | (with_reducible assumption)
    | ((try lift_lets -underBinder); with_reducible intro x; with_reducible refine hav (p := State.Sound pend x) ?_ (fun _ => ?_); (on_goal 1 => dsimp only [x]); (on_goal 2 => clear_value x))
    | ((try lift_lets -underBinder); with_reducible intro x; refine hav (p := (x : Comp) = x) rfl (fun _ => ?_))
    | ((try lift_lets -underBinder); with_reducible intro x; refine hav (p := (fun y => x y) = x) rfl (fun _ => ?_))
    | ((try lift_lets -underBinder); with_reducible intro x; clear_value x)
    | (with_reducible intro _)
    | (split)
    | (with_reducible refine sendCredit_ok ?_)
    | (with_reducible refine State.Sound.mk' rfl (by first | rfl | simp) rfl ?_)

theorem sendNak_ok {s : State} {l cause : Nat} (hs : s.Sound pend) : (sendNak s l cause).Sound pend := by
  unfold sendNak
  repeat'
    first
    | (with_reducible assumption)
    | ((try lift_lets -underBinder); with_reducible intro x; with_reducible refine hav (p := State.Sound pend x) ?_ (fun _ => ?_); (on_goal 1 => dsimp only [x]); (on_goal 2 => clear_value x))
    | ((try lift_lets -underBinder); with_reducible intro x; refine hav (p := (x : Comp) = x) rfl (fun _ => ?_))
    | ((try lift_lets -underBinder); with_reducible intro x; refine hav (p := (fun y => x y) = x) rfl (fun _ => ?_))
    | ((try lift_lets -underBinder); with_reducible intro x; clear_value x)
    | (with_reducible intro _)
    | (split)
    | (with_reducible refine setLane_ok ?_)
    | (with_reducible refine cntLane_ok ?_)
    | (with_reducible refine sendLocal_ok ?_)
    | (dsimp only)
    | (with_reducible refine State.Sound.mk' rfl (by first | rfl | simp) rfl ?_)

theorem doLinkNakRepeat_ok {l : Nat} {s : State} (hs : s.Sound pend) : (doLinkNakRepeat l s).Sound pend := by
  unfold doLinkNakRepeat
  repeat'
    first
    | (with_reducible assumption)
    | ((try lift_lets -underBinder); with_reducible intro x; with_reducible refine hav (p := State.Sound pend x) ?_ (fun _ => ?_); (on_goal 1 => dsimp only [x]); (on_goal 2 => clear_value x))
    | ((try lift_lets -underBinder); with_reducible intro x; refine hav (p := (x : Comp) = x) rfl (fun _ => ?_))
    | ((try lift_lets -underBinder); with_reducible intro x; refine hav (p := (fun y => x y) = x) rfl (fun _ => ?_))
    | ((try lift_lets -underBinder); with_reducible intro x; clear_value x)
    | (with_reducible intro _)
    | (split)
    | (with_reducible refine sendNak_ok ?_)
    | (dsimp only)
    | (with_reducible refine State.Sound.mk' rfl (by first | rfl | simp) rfl ?_)

theorem flushPort_ok {s : State} {p : Nat} (hs : s.Sound pend) : (flushPort s p).Sound pend := by
  unfold flushPort
  repeat'
    first
    | (with_reducible assumption)
    | ((try lift_lets -underBinder); with_reducible intro x; with_reducible refine hav (p := State.Sound pend x) ?_ (fun _ => ?_); (on_goal 1 => dsimp only [x]); (on_goal 2 => clear_value x))
    | ((try lift_lets -underBinder); with_reducible intro x; refine hav (p := (x : Comp) = x) rfl (fun _ => ?_))
    | ((try lift_lets -underBinder); with_reducible intro x; refine hav (p := (fun y => x y) = x) rfl (fun _ => ?_))
    | ((try lift_lets -underBinder); with_reducible intro x; clear_value x)
    | (with_reducible intro _)
    | (split)
    | (with_reducible refine setPort_ok ?_)
    | (with_reducible refine cntLane_ok ?_)
    | (with_reducible refine leaveAlloc_ok ?_)
    | (with_reducible refine foldl_ok (fun _ _ _ => ?_) ?_)
    | (with_reducible refine State.Sound.mk' rfl (by first | rfl | simp) rfl ?_)

theorem laneGoesDown_ok {s : State} {l cause : Nat} {report : Bool} (hs : s.Sound pend) : (laneGoesDown s l cause report).Sound pend := by
  unfold laneGoesDown
  repeat'
    first
    | (with_reducible assumption)
    | ((try lift_lets -underBinder); with_reducible intro x; with_reducible refine hav (p := State.Sound pend x) ?_ (fun _ => ?_); (on_goal 1 => dsimp only [x]); (on_goal 2 => clear_value x))
    | ((try lift_lets -underBinder); with_reducible intro x; refine hav (p := (x : Comp) = x) rfl (fun _ => ?_))
    | ((try lift_lets -underBinder); with_reducible intro x; refine hav (p := (fun y => x y) = x) rfl (fun _ => ?_))
    | ((try lift_lets -underBinder); with_reducible intro x; clear_value x)
    | (with_reducible intro _)
    | (split)
    | (with_reducible refine setAttn_ok ?_)
    | (with_reducible refine ringLog_ok ?_)
    | (with_reducible refine setLane_ok ?_)
    | (with_reducible refine cntLane_ok ?_)
    | (with_reducible refine leaveAlloc_ok ?_)
    | (with_reducible refine flushPort_ok ?_)
    | (dsimp only)
    | (with_reducible refine State.Sound.mk' rfl (by first | rfl | simp) rfl ?_)

theorem loseLaser_ok {s : State} {l : Nat} (hs : s.Sound pend) : (loseLaser s l).Sound pend := by
  unfold loseLaser
  repeat'
    first
    | (with_reducible assumption)
    | ((try lift_lets -underBinder); with_reducible intro x; with_reducible refine hav (p := State.Sound pend x) ?_ (fun _ => ?_); (on_goal 1 => dsimp only [x]); (on_goal 2 => clear_value x))
    | ((try lift_lets -underBinder); with_reducible intro x; refine hav (p := (x : Comp) = x) rfl (fun _ => ?_))
    | ((try lift_lets -underBinder); with_reducible intro x; refine hav (p := (fun y => x y) = x) rfl (fun _ => ?_))
    | ((try lift_lets -underBinder); with_reducible intro x; clear_value x)
    | (with_reducible intro _)
    | (split)
    | (with_reducible refine setLane_ok ?_)
    | (with_reducible refine laneGoesDown_ok ?_)
    | (dsimp only)
    | (with_reducible refine State.Sound.mk' rfl (by first | rfl | simp) rfl ?_)

theorem doLaneSignalDetect_ok {l : Nat} {s : State} (hs : s.Sound pend) : (doLaneSignalDetect l s).Sound pend := by
  unfold doLaneSignalDetect
  repeat'
    first
    | (with_reducible assumption)
    | ((try lift_lets -underBinder); with_reducible intro x; with_reducible refine hav (p := State.Sound pend x) ?_ (fun _ => ?_); (on_goal 1 => dsimp only [x]); (on_goal 2 => clear_value x))
    | ((try lift_lets -underBinder); with_reducible intro x; refine hav (p := (x : Comp) = x) rfl (fun _ => ?_))
    | ((try lift_lets -underBinder); with_reducible intro x; refine hav (p := (fun y => x y) = x) rfl (fun _ => ?_))
    | ((try lift_lets -underBinder); with_reducible intro x; clear_value x)
    | (with_reducible intro _)
    | (split)
    | (with_reducible refine setLane_ok ?_)
    | (with_reducible refine foldl_ok (fun _ _ _ => ?_) ?_)
    | (dsimp only)
    | (with_reducible refine State.Sound.mk' rfl (by first | rfl | simp) rfl ?_)

theorem doFecAlignmentLock_ok {l : Nat} {s : State} (hs : s.Sound pend) : (doFecAlignmentLock l s).Sound pend := by
  unfold doFecAlignmentLock
  repeat'
    first
    | (with_reducible assumption)
    | ((try lift_lets -underBinder); with_reducible intro x; with_reducible refine hav (p := State.Sound pend x) ?_ (fun _ => ?_); (on_goal 1 => dsimp only [x]); (on_goal 2 => clear_value x))
    | ((try lift_lets -underBinder); with_reducible intro x; refine hav (p := (x : Comp) = x) rfl (fun _ => ?_))
    | ((try lift_lets -underBinder); with_reducible intro x; refine hav (p := (fun y => x y) = x) rfl (fun _ => ?_))
    | ((try lift_lets -underBinder); with_reducible intro x; clear_value x)
    | (with_reducible intro _)
    | (split)
    | (with_reducible refine setLane_ok ?_)
    | (with_reducible refine State.Sound.mk' rfl (by first | rfl | simp) rfl ?_)

theorem doPeerIdentityCheck_ok {p : Nat} {words : List Nat} {pol : Bool} {s : State} (hs : s.Sound pend) : (doPeerIdentityCheck p words pol s).Sound pend := by
  unfold doPeerIdentityCheck
  repeat'
    first
    | (with_reducible assumption)
    | ((try lift_lets -underBinder); with_reducible intro x; with_reducible refine hav (p := State.Sound pend x) ?_ (fun _ => ?_); (on_goal 1 => dsimp only [x]); (on_goal 2 => clear_value x))
    | ((try lift_lets -underBinder); with_reducible intro x; refine hav (p := (x : Comp) = x) rfl (fun _ => ?_))
    | ((try lift_lets -underBinder); with_reducible intro x; refine hav (p := (fun y => x y) = x) rfl (fun _ => ?_))
    | ((try lift_lets -underBinder); with_reducible intro x; clear_value x)
    | (with_reducible intro _)
    | (split)
    | (with_reducible refine setLane_ok ?_)
    | (with_reducible refine setPort_ok ?_)
    | (with_reducible refine sendCredit_ok ?_)
    | (with_reducible refine laneGoesDown_ok ?_)
    | (with_reducible refine foldl_ok (fun _ _ _ => ?_) ?_)
    | (dsimp only)
    | (with_reducible refine State.Sound.mk' rfl (by first | rfl | simp) rfl ?_)

theorem doLaneDown_ok {l : Nat} {loss : LaneLoss} {s : State} (hs : s.Sound pend) : (doLaneDown l loss s).Sound pend := by
  unfold doLaneDown
  repeat'
    first
    | (with_reducible assumption)
    | ((try lift_lets -underBinder); with_reducible intro x; with_reducible refine hav (p := State.Sound pend x) ?_ (fun _ => ?_); (on_goal 1 => dsimp only [x]); (on_goal 2 => clear_value x))
    | ((try lift_lets -underBinder); with_reducible intro x; refine hav (p := (x : Comp) = x) rfl (fun _ => ?_))
    | ((try lift_lets -underBinder); with_reducible intro x; refine hav (p := (fun y => x y) = x) rfl (fun _ => ?_))
    | ((try lift_lets -underBinder); with_reducible intro x; clear_value x)
    | (with_reducible intro _)
    | (split)
    | (with_reducible refine laneGoesDown_ok ?_)
    | (with_reducible refine loseLaser_ok ?_)
    | (with_reducible refine foldl_ok (fun _ _ _ => ?_) ?_)
    | (with_reducible refine State.Sound.mk' rfl (by first | rfl | simp) rfl ?_)

theorem retrainLane_ok {s : State} {l cause : Nat} (hs : s.Sound pend) : (retrainLane s l cause).Sound pend := by
  unfold retrainLane
  repeat'
    first
    | (with_reducible assumption)
    | ((try lift_lets -underBinder); with_reducible intro x; with_reducible refine hav (p := State.Sound pend x) ?_ (fun _ => ?_); (on_goal 1 => dsimp only [x]); (on_goal 2 => clear_value x))
    | ((try lift_lets -underBinder); with_reducible intro x; refine hav (p := (x : Comp) = x) rfl (fun _ => ?_))
    | ((try lift_lets -underBinder); with_reducible intro x; refine hav (p := (fun y => x y) = x) rfl (fun _ => ?_))
    | ((try lift_lets -underBinder); with_reducible intro x; clear_value x)
    | (with_reducible intro _)
    | (split)
    | (with_reducible refine cntLane_ok ?_)
    | (with_reducible refine laneGoesDown_ok ?_)
    | (with_reducible refine State.Sound.mk' rfl (by first | rfl | simp) rfl ?_)

theorem startRound_ok {s : State} {l expect : Nat} (hs : s.Sound pend) : (startRound s l expect).Sound pend := by
  unfold startRound
  repeat'
    first
    | (with_reducible assumption)
    | ((try lift_lets -underBinder); with_reducible intro x; with_reducible refine hav (p := State.Sound pend x) ?_ (fun _ => ?_); (on_goal 1 => dsimp only [x]); (on_goal 2 => clear_value x))
    | ((try lift_lets -underBinder); with_reducible intro x; refine hav (p := (x : Comp) = x) rfl (fun _ => ?_))
    | ((try lift_lets -underBinder); with_reducible intro x; refine hav (p := (fun y => x y) = x) rfl (fun _ => ?_))
    | ((try lift_lets -underBinder); with_reducible intro x; clear_value x)
    | (with_reducible intro _)
    | (split)
    | (with_reducible refine setLane_ok ?_)
    | (with_reducible refine cntLane_ok ?_)
    | (with_reducible refine retrainLane_ok ?_)
    | (dsimp only)
    | (with_reducible refine State.Sound.mk' rfl (by first | rfl | simp) rfl ?_)

theorem doLinkRetryTimeout_ok {l : Nat} {s : State} (hs : s.Sound pend) : (doLinkRetryTimeout l s).Sound pend := by
  unfold doLinkRetryTimeout
  repeat'
    first
    | (with_reducible assumption)
    | ((try lift_lets -underBinder); with_reducible intro x; with_reducible refine hav (p := State.Sound pend x) ?_ (fun _ => ?_); (on_goal 1 => dsimp only [x]); (on_goal 2 => clear_value x))
    | ((try lift_lets -underBinder); with_reducible intro x; refine hav (p := (x : Comp) = x) rfl (fun _ => ?_))
    | ((try lift_lets -underBinder); with_reducible intro x; refine hav (p := (fun y => x y) = x) rfl (fun _ => ?_))
    | ((try lift_lets -underBinder); with_reducible intro x; clear_value x)
    | (with_reducible intro _)
    | (split)
    | (with_reducible refine startRound_ok ?_)
    | (with_reducible refine State.Sound.mk' rfl (by first | rfl | simp) rfl ?_)

theorem ackLane_ok {s : State} {l a : Nat} (hs : s.Sound pend) : (ackLane s l a).Sound pend := by
  unfold ackLane
  repeat'
    first
    | (with_reducible assumption)
    | ((try lift_lets -underBinder); with_reducible intro x; with_reducible refine hav (p := State.Sound pend x) ?_ (fun _ => ?_); (on_goal 1 => dsimp only [x]); (on_goal 2 => clear_value x))
    | ((try lift_lets -underBinder); with_reducible intro x; refine hav (p := (x : Comp) = x) rfl (fun _ => ?_))
    | ((try lift_lets -underBinder); with_reducible intro x; refine hav (p := (fun y => x y) = x) rfl (fun _ => ?_))
    | ((try lift_lets -underBinder); with_reducible intro x; clear_value x)
    | (with_reducible intro _)
    | (split)
    | (with_reducible refine setLane_ok ?_)
    | (dsimp only)
    | (with_reducible refine State.Sound.mk' rfl (by first | rfl | simp) rfl ?_)

theorem markLate_ok {s : State} {p : Nat} (hs : s.Sound pend) : (markLate s p).Sound pend := by
  unfold markLate
  repeat'
    first
    | (with_reducible assumption)
    | ((try lift_lets -underBinder); with_reducible intro x; with_reducible refine hav (p := State.Sound pend x) ?_ (fun _ => ?_); (on_goal 1 => dsimp only [x]); (on_goal 2 => clear_value x))
    | ((try lift_lets -underBinder); with_reducible intro x; refine hav (p := (x : Comp) = x) rfl (fun _ => ?_))
    | ((try lift_lets -underBinder); with_reducible intro x; refine hav (p := (fun y => x y) = x) rfl (fun _ => ?_))
    | ((try lift_lets -underBinder); with_reducible intro x; clear_value x)
    | (with_reducible intro _)
    | (split)
    | (with_reducible refine setPort_ok ?_)
    | (dsimp only)
    | (with_reducible refine State.Sound.mk' rfl (by first | rfl | simp) rfl ?_)

theorem dropAged_ok {s : State} {p : Nat} (hs : s.Sound pend) : (dropAged s p).Sound pend := by
  unfold dropAged
  repeat'
    first
    | (with_reducible assumption)
    | ((try lift_lets -underBinder); with_reducible intro x; with_reducible refine hav (p := State.Sound pend x) ?_ (fun _ => ?_); (on_goal 1 => dsimp only [x]); (on_goal 2 => clear_value x))
    | ((try lift_lets -underBinder); with_reducible intro x; refine hav (p := (x : Comp) = x) rfl (fun _ => ?_))
    | ((try lift_lets -underBinder); with_reducible intro x; refine hav (p := (fun y => x y) = x) rfl (fun _ => ?_))
    | ((try lift_lets -underBinder); with_reducible intro x; clear_value x)
    | (with_reducible intro _)
    | (split)
    | (with_reducible refine setPort_ok ?_)
    | (with_reducible refine cntLane_ok ?_)
    | (with_reducible refine leaveAlloc_ok ?_)
    | (with_reducible refine foldl_ok (fun _ _ _ => ?_) ?_)
    | (with_reducible refine State.Sound.mk' rfl (by first | rfl | simp) rfl ?_)

theorem startUnit_ok {s : State} {p l : Nat} {e : OutEntry} (hs : s.Sound pend) : (startUnit s p l e).Sound pend := by
  unfold startUnit
  repeat'
    first
    | (with_reducible assumption)
    | ((try lift_lets -underBinder); with_reducible intro x; with_reducible refine hav (p := State.Sound pend x) ?_ (fun _ => ?_); (on_goal 1 => dsimp only [x]); (on_goal 2 => clear_value x))
    | ((try lift_lets -underBinder); with_reducible intro x; refine hav (p := (x : Comp) = x) rfl (fun _ => ?_))
    | ((try lift_lets -underBinder); with_reducible intro x; refine hav (p := (fun y => x y) = x) rfl (fun _ => ?_))
    | ((try lift_lets -underBinder); with_reducible intro x; clear_value x)
    | (with_reducible intro _)
    | (split)
    | (with_reducible refine setLane_ok ?_)
    | (with_reducible refine setPort_ok ?_)
    | (dsimp only)
    | (with_reducible refine State.Sound.mk' rfl (by first | rfl | simp) rfl ?_)

theorem doUnitSelect_ok {l : Nat} {s : State} (hs : s.Sound pend) : (doUnitSelect l s).Sound pend := by
  unfold doUnitSelect
  repeat'
    first
    | (with_reducible assumption)
    | ((try lift_lets -underBinder); with_reducible intro x; with_reducible refine hav (p := State.Sound pend x) ?_ (fun _ => ?_); (on_goal 1 => dsimp only [x]); (on_goal 2 => clear_value x))
    | ((try lift_lets -underBinder); with_reducible intro x; refine hav (p := (x : Comp) = x) rfl (fun _ => ?_))
    | ((try lift_lets -underBinder); with_reducible intro x; refine hav (p := (fun y => x y) = x) rfl (fun _ => ?_))
    | ((try lift_lets -underBinder); with_reducible intro x; clear_value x)
    | (with_reducible intro _)
    | (split)
    | (with_reducible refine setLane_ok ?_)
    | (with_reducible refine markLate_ok ?_)
    | (with_reducible refine dropAged_ok ?_)
    | (with_reducible refine startUnit_ok ?_)
    | (dsimp only)
    | (with_reducible refine State.Sound.mk' rfl (by first | rfl | simp) rfl ?_)

end Sys2Proof.Machine
end

