-- ==== Sys2Proof/Laws/OkOperands.lean ====
section
/-! SUPPORT. The operations of Operands.lean keep the state well formed. -/

set_option linter.unusedTactic false
set_option linter.unreachableTactic false

namespace Sys2Proof.Machine

variable {pend : List Instr}

theorem holdFeed_ok {s : State} {q : Nat} {id : Option Nat} (hs : s.Sound pend) : (holdFeed s q id).Sound pend := by
  unfold holdFeed
  repeat'
    first
    | (with_reducible assumption)
    | ((try lift_lets -underBinder); with_reducible intro x; with_reducible refine hav (p := State.Sound pend x) ?_ (fun _ => ?_); (on_goal 1 => dsimp only [x]); (on_goal 2 => clear_value x))
    | ((try lift_lets -underBinder); with_reducible intro x; refine hav (p := (x : Comp) = x) rfl (fun _ => ?_))
    | ((try lift_lets -underBinder); with_reducible intro x; refine hav (p := (fun y => x y) = x) rfl (fun _ => ?_))
    | ((try lift_lets -underBinder); with_reducible intro x; clear_value x)
    | (with_reducible intro _)
    | (split)
    | (with_reducible refine setQueue_ok ?_)
    | (dsimp only)
    | (with_reducible refine State.Sound.mk' rfl (by first | rfl | simp) rfl ?_)

theorem feedHeld_ok {s : State} {q : Nat} {id : Option Nat} {xs : List (Nat × List Byte)} (hs : s.Sound pend) : (feedHeld s q id xs).Sound pend := by
  unfold feedHeld
  repeat'
    first
    | (with_reducible assumption)
    | ((try lift_lets -underBinder); with_reducible intro x; with_reducible refine hav (p := State.Sound pend x) ?_ (fun _ => ?_); (on_goal 1 => dsimp only [x]); (on_goal 2 => clear_value x))
    | ((try lift_lets -underBinder); with_reducible intro x; refine hav (p := (x : Comp) = x) rfl (fun _ => ?_))
    | ((try lift_lets -underBinder); with_reducible intro x; refine hav (p := (fun y => x y) = x) rfl (fun _ => ?_))
    | ((try lift_lets -underBinder); with_reducible intro x; clear_value x)
    | (with_reducible intro _)
    | (split)
    | (with_reducible refine setQueue_ok ?_)
    | (with_reducible refine State.Sound.mk' rfl (by first | rfl | simp) rfl ?_)

theorem writeOps_ok {s : State} {job : Nat} {ws : List WriteOp} (hs : s.Sound pend) : (writeOps s job ws).Sound pend := by
  unfold writeOps
  repeat'
    first
    | (with_reducible assumption)
    | ((try lift_lets -underBinder); with_reducible intro x; with_reducible refine hav (p := State.Sound pend x) ?_ (fun _ => ?_); (on_goal 1 => dsimp only [x]); (on_goal 2 => clear_value x))
    | ((try lift_lets -underBinder); with_reducible intro x; refine hav (p := (x : Comp) = x) rfl (fun _ => ?_))
    | ((try lift_lets -underBinder); with_reducible intro x; refine hav (p := (fun y => x y) = x) rfl (fun _ => ?_))
    | ((try lift_lets -underBinder); with_reducible intro x; clear_value x)
    | (with_reducible intro _)
    | (split)
    | (with_reducible refine writeVAs_ok ?_)
    | (with_reducible refine foldl_ok (fun _ _ _ => ?_) ?_)
    | (with_reducible refine State.Sound.mk' rfl (by first | rfl | simp) rfl ?_)

theorem commitWrites_ok {s : State} {q job : Nat} {ws : List WriteOp} (hs : s.Sound pend) : (commitWrites s q job ws).Sound pend := by
  unfold commitWrites
  repeat'
    first
    | (with_reducible assumption)
    | ((try lift_lets -underBinder); with_reducible intro x; with_reducible refine hav (p := State.Sound pend x) ?_ (fun _ => ?_); (on_goal 1 => dsimp only [x]); (on_goal 2 => clear_value x))
    | ((try lift_lets -underBinder); with_reducible intro x; refine hav (p := (x : Comp) = x) rfl (fun _ => ?_))
    | ((try lift_lets -underBinder); with_reducible intro x; refine hav (p := (fun y => x y) = x) rfl (fun _ => ?_))
    | ((try lift_lets -underBinder); with_reducible intro x; clear_value x)
    | (with_reducible intro _)
    | (split)
    | (with_reducible refine setQueue_ok ?_)
    | (with_reducible refine writeOps_ok ?_)
    | (with_reducible refine State.Sound.mk' rfl (by first | rfl | simp) rfl ?_)

end Sys2Proof.Machine
end

