-- ==== Sys2Proof/Laws/OkColl.lean ====
section
/-! SUPPORT. The operations of Coll.lean keep the state well formed. -/

set_option linter.unusedTactic false
set_option linter.unreachableTactic false

namespace Sys2Proof.Machine

variable {pend : List Instr}

theorem setJob_ok {s : State} {job : Nat} {f : JobSt → JobSt} (hs : s.Sound pend) : (setJob s job f).Sound pend := by
  unfold setJob
  repeat'
    first
    | (with_reducible assumption)
    | ((try lift_lets -underBinder); with_reducible intro x; with_reducible refine hav (p := State.Sound pend x) ?_ (fun _ => ?_); (on_goal 1 => dsimp only [x]); (on_goal 2 => clear_value x))
    | ((try lift_lets -underBinder); with_reducible intro x; refine hav (p := (x : Comp) = x) rfl (fun _ => ?_))
    | ((try lift_lets -underBinder); with_reducible intro x; refine hav (p := (fun y => x y) = x) rfl (fun _ => ?_))
    | ((try lift_lets -underBinder); with_reducible intro x; clear_value x)
    | (with_reducible intro _)
    | (split)
    | (with_reducible refine State.Sound.mk' rfl (by first | rfl | simp) rfl ?_)

theorem windowError_ok {s : State} {job rank : Nat} (hs : s.Sound pend) : (windowError s job rank).Sound pend := by
  unfold windowError
  repeat'
    first
    | (with_reducible assumption)
    | ((try lift_lets -underBinder); with_reducible intro x; with_reducible refine hav (p := State.Sound pend x) ?_ (fun _ => ?_); (on_goal 1 => dsimp only [x]); (on_goal 2 => clear_value x))
    | ((try lift_lets -underBinder); with_reducible intro x; refine hav (p := (x : Comp) = x) rfl (fun _ => ?_))
    | ((try lift_lets -underBinder); with_reducible intro x; refine hav (p := (fun y => x y) = x) rfl (fun _ => ?_))
    | ((try lift_lets -underBinder); with_reducible intro x; clear_value x)
    | (with_reducible intro _)
    | (split)
    | (with_reducible refine setJob_ok ?_)
    | (with_reducible refine State.Sound.mk' rfl (by first | rfl | simp) rfl ?_)

theorem setColl_ok {s : State} {job epoch ord : Nat} {f : Coll → Coll} (hs : s.Sound pend) : (setColl s job epoch ord f).Sound pend := by
  unfold setColl
  repeat'
    first
    | (with_reducible assumption)
    | ((try lift_lets -underBinder); with_reducible intro x; with_reducible refine hav (p := State.Sound pend x) ?_ (fun _ => ?_); (on_goal 1 => dsimp only [x]); (on_goal 2 => clear_value x))
    | ((try lift_lets -underBinder); with_reducible intro x; refine hav (p := (x : Comp) = x) rfl (fun _ => ?_))
    | ((try lift_lets -underBinder); with_reducible intro x; refine hav (p := (fun y => x y) = x) rfl (fun _ => ?_))
    | ((try lift_lets -underBinder); with_reducible intro x; clear_value x)
    | (with_reducible intro _)
    | (split)
    | (with_reducible refine State.Sound.mk' rfl (by first | rfl | simp) rfl ?_)

theorem icnt_ok {s : State} {k n : Nat} (hs : s.Sound pend) : (icnt s k n).Sound pend := by
  unfold icnt
  repeat'
    first
    | (with_reducible assumption)
    | ((try lift_lets -underBinder); with_reducible intro x; with_reducible refine hav (p := State.Sound pend x) ?_ (fun _ => ?_); (on_goal 1 => dsimp only [x]); (on_goal 2 => clear_value x))
    | ((try lift_lets -underBinder); with_reducible intro x; refine hav (p := (x : Comp) = x) rfl (fun _ => ?_))
    | ((try lift_lets -underBinder); with_reducible intro x; refine hav (p := (fun y => x y) = x) rfl (fun _ => ?_))
    | ((try lift_lets -underBinder); with_reducible intro x; clear_value x)
    | (with_reducible intro _)
    | (split)
    | (with_reducible refine State.Sound.mk' rfl (by first | rfl | simp) rfl ?_)

theorem chargeEarly_ok {s : State} {job n : Nat} (hs : s.Sound pend) : (chargeEarly s job n).Sound pend := by
  unfold chargeEarly
  repeat'
    first
    | (with_reducible assumption)
    | ((try lift_lets -underBinder); with_reducible intro x; with_reducible refine hav (p := State.Sound pend x) ?_ (fun _ => ?_); (on_goal 1 => dsimp only [x]); (on_goal 2 => clear_value x))
    | ((try lift_lets -underBinder); with_reducible intro x; refine hav (p := (x : Comp) = x) rfl (fun _ => ?_))
    | ((try lift_lets -underBinder); with_reducible intro x; refine hav (p := (fun y => x y) = x) rfl (fun _ => ?_))
    | ((try lift_lets -underBinder); with_reducible intro x; clear_value x)
    | (with_reducible intro _)
    | (split)
    | (with_reducible refine State.Sound.mk' rfl (by first | rfl | simp) rfl ?_)

theorem releaseEarlyIf_ok {s : State} {job epoch ord : Nat} {p : Inp → Bool} (hs : s.Sound pend) : (releaseEarlyIf s job epoch ord p).Sound pend := by
  unfold releaseEarlyIf
  repeat'
    first
    | (with_reducible assumption)
    | ((try lift_lets -underBinder); with_reducible intro x; with_reducible refine hav (p := State.Sound pend x) ?_ (fun _ => ?_); (on_goal 1 => dsimp only [x]); (on_goal 2 => clear_value x))
    | ((try lift_lets -underBinder); with_reducible intro x; refine hav (p := (x : Comp) = x) rfl (fun _ => ?_))
    | ((try lift_lets -underBinder); with_reducible intro x; refine hav (p := (fun y => x y) = x) rfl (fun _ => ?_))
    | ((try lift_lets -underBinder); with_reducible intro x; clear_value x)
    | (with_reducible intro _)
    | (split)
    | (with_reducible refine setColl_ok ?_)
    | (with_reducible refine State.Sound.mk' rfl (by first | rfl | simp) rfl ?_)

theorem releaseEarly_ok {s : State} {job epoch ord : Nat} (hs : s.Sound pend) : (releaseEarly s job epoch ord).Sound pend := by
  unfold releaseEarly
  repeat'
    first
    | (with_reducible assumption)
    | ((try lift_lets -underBinder); with_reducible intro x; with_reducible refine hav (p := State.Sound pend x) ?_ (fun _ => ?_); (on_goal 1 => dsimp only [x]); (on_goal 2 => clear_value x))
    | ((try lift_lets -underBinder); with_reducible intro x; refine hav (p := (x : Comp) = x) rfl (fun _ => ?_))
    | ((try lift_lets -underBinder); with_reducible intro x; refine hav (p := (fun y => x y) = x) rfl (fun _ => ?_))
    | ((try lift_lets -underBinder); with_reducible intro x; clear_value x)
    | (with_reducible intro _)
    | (split)
    | (with_reducible refine releaseEarlyIf_ok ?_)
    | (with_reducible refine State.Sound.mk' rfl (by first | rfl | simp) rfl ?_)

theorem dropStaged_ok {s : State} {i : Inp} (hs : s.Sound pend) : (dropStaged s i).Sound pend := by
  unfold dropStaged
  repeat'
    first
    | (with_reducible assumption)
    | ((try lift_lets -underBinder); with_reducible intro x; with_reducible refine hav (p := State.Sound pend x) ?_ (fun _ => ?_); (on_goal 1 => dsimp only [x]); (on_goal 2 => clear_value x))
    | ((try lift_lets -underBinder); with_reducible intro x; refine hav (p := (x : Comp) = x) rfl (fun _ => ?_))
    | ((try lift_lets -underBinder); with_reducible intro x; refine hav (p := (fun y => x y) = x) rfl (fun _ => ?_))
    | ((try lift_lets -underBinder); with_reducible intro x; clear_value x)
    | (with_reducible intro _)
    | (split)
    | (with_reducible refine dropAlloc_ok ?_)
    | (with_reducible refine foldl_ok (fun _ _ _ => ?_) ?_)
    | (with_reducible refine State.Sound.mk' rfl (by first | rfl | simp) rfl ?_)

theorem sendFrames_ok {s : State} {c : Coll} {o : Outp} {i : Nat} {again : Bool} (hs : s.Sound pend) : (sendFrames s c o i again).Sound pend := by
  unfold sendFrames
  repeat'
    first
    | (with_reducible assumption)
    | ((try lift_lets -underBinder); with_reducible intro x; with_reducible refine hav (p := State.Sound pend x) ?_ (fun _ => ?_); (on_goal 1 => dsimp only [x]); (on_goal 2 => clear_value x))
    | ((try lift_lets -underBinder); with_reducible intro x; refine hav (p := (x : Comp) = x) rfl (fun _ => ?_))
    | ((try lift_lets -underBinder); with_reducible intro x; refine hav (p := (fun y => x y) = x) rfl (fun _ => ?_))
    | ((try lift_lets -underBinder); with_reducible intro x; clear_value x)
    | (with_reducible intro _)
    | (split)
    | (with_reducible refine originateFrom_ok ?_)
    | (with_reducible refine foldl_ok (fun _ _ _ => ?_) ?_)
    | (with_reducible refine State.Sound.mk' rfl (by first | rfl | simp) rfl ?_)

theorem quarNote_ok {s : State} {r : QuarRec} (hs : s.Sound pend) : (quarNote s r).Sound pend := by
  unfold quarNote
  repeat'
    first
    | (with_reducible assumption)
    | ((try lift_lets -underBinder); with_reducible intro x; with_reducible refine hav (p := State.Sound pend x) ?_ (fun _ => ?_); (on_goal 1 => dsimp only [x]); (on_goal 2 => clear_value x))
    | ((try lift_lets -underBinder); with_reducible intro x; refine hav (p := (x : Comp) = x) rfl (fun _ => ?_))
    | ((try lift_lets -underBinder); with_reducible intro x; refine hav (p := (fun y => x y) = x) rfl (fun _ => ?_))
    | ((try lift_lets -underBinder); with_reducible intro x; clear_value x)
    | (with_reducible intro _)
    | (split)
    | (with_reducible refine ringLog_ok ?_)
    | (with_reducible refine drawFree_ok ?_)
    | (dsimp only)
    | (with_reducible refine pair2_ok ?_ (by assumption))
    | (with_reducible refine State.Sound.mk' rfl (by first | rfl | simp) rfl ?_)

theorem quarantine_ok {s : State} {unit die logical trigger bands : Nat} (hs : s.Sound pend) : (quarantine s unit die logical trigger bands).Sound pend := by
  unfold quarantine
  repeat'
    first
    | (with_reducible assumption)
    | ((try lift_lets -underBinder); with_reducible intro x; with_reducible refine hav (p := State.Sound pend x) ?_ (fun _ => ?_); (on_goal 1 => dsimp only [x]); (on_goal 2 => clear_value x))
    | ((try lift_lets -underBinder); with_reducible intro x; refine hav (p := (x : Comp) = x) rfl (fun _ => ?_))
    | ((try lift_lets -underBinder); with_reducible intro x; refine hav (p := (fun y => x y) = x) rfl (fun _ => ?_))
    | ((try lift_lets -underBinder); with_reducible intro x; clear_value x)
    | (with_reducible intro _)
    | (split)
    | (with_reducible refine setAttn_ok ?_)
    | (with_reducible refine quarNote_ok ?_)
    | (dsimp only)
    | (with_reducible refine State.Sound.mk' rfl (by first | rfl | simp) rfl ?_)

theorem judgeUnit_ok {s : State} {unit die logical : Nat} (hs : s.Sound pend) : (judgeUnit s unit die logical).Sound pend := by
  unfold judgeUnit
  repeat'
    first
    | (with_reducible assumption)
    | ((try lift_lets -underBinder); with_reducible intro x; with_reducible refine hav (p := State.Sound pend x) ?_ (fun _ => ?_); (on_goal 1 => dsimp only [x]); (on_goal 2 => clear_value x))
    | ((try lift_lets -underBinder); with_reducible intro x; refine hav (p := (x : Comp) = x) rfl (fun _ => ?_))
    | ((try lift_lets -underBinder); with_reducible intro x; refine hav (p := (fun y => x y) = x) rfl (fun _ => ?_))
    | ((try lift_lets -underBinder); with_reducible intro x; clear_value x)
    | (with_reducible intro _)
    | (split)
    | (with_reducible refine quarantine_ok ?_)
    | (with_reducible refine foldl_ok (fun _ _ _ => ?_) ?_)
    | (with_reducible refine State.Sound.mk' rfl (by first | rfl | simp) rfl ?_)

theorem logErrorAt_ok {s : State} {phys kind unit die logical col job ordLow chunk pattern : Nat} (hs : s.Sound pend) : (logErrorAt s phys kind unit die logical col job ordLow chunk pattern).Sound pend := by
  unfold logErrorAt
  repeat'
    first
    | (with_reducible assumption)
    | ((try lift_lets -underBinder); with_reducible intro x; with_reducible refine hav (p := State.Sound pend x) ?_ (fun _ => ?_); (on_goal 1 => dsimp only [x]); (on_goal 2 => clear_value x))
    | ((try lift_lets -underBinder); with_reducible intro x; refine hav (p := (x : Comp) = x) rfl (fun _ => ?_))
    | ((try lift_lets -underBinder); with_reducible intro x; refine hav (p := (fun y => x y) = x) rfl (fun _ => ?_))
    | ((try lift_lets -underBinder); with_reducible intro x; clear_value x)
    | (with_reducible intro _)
    | (split)
    | (with_reducible refine judgeUnit_ok ?_)
    | (dsimp only)
    | (with_reducible refine State.Sound.mk' rfl (by first | rfl | simp) rfl ?_)

theorem logError_ok {s : State} {kind unit die logical col job ordLow chunk pattern : Nat} (hs : s.Sound pend) : (logError s kind unit die logical col job ordLow chunk pattern).Sound pend := logErrorAt_ok hs

theorem freeOut_ok {s : State} {job ord : Nat} {o : Outp} (hs : s.Sound pend) : (freeOut s job ord o).Sound pend := by
  unfold freeOut
  repeat'
    first
    | (with_reducible assumption)
    | ((try lift_lets -underBinder); with_reducible intro x; with_reducible refine hav (p := State.Sound pend x) ?_ (fun _ => ?_); (on_goal 1 => dsimp only [x]); (on_goal 2 => clear_value x))
    | ((try lift_lets -underBinder); with_reducible intro x; refine hav (p := (x : Comp) = x) rfl (fun _ => ?_))
    | ((try lift_lets -underBinder); with_reducible intro x; refine hav (p := (fun y => x y) = x) rfl (fun _ => ?_))
    | ((try lift_lets -underBinder); with_reducible intro x; clear_value x)
    | (with_reducible intro _)
    | (split)
    | (with_reducible refine freeAlloc_ok ?_)
    | (with_reducible refine dropAlloc_ok ?_)
    | (with_reducible refine foldl_ok (fun _ _ _ => ?_) ?_)
    | (dsimp only)
    | (with_reducible refine State.Sound.mk' rfl (by first | rfl | simp) rfl ?_)

theorem dropOverlapping_ok {s : State} {job epoch ord : Nat} (hs : s.Sound pend) : (dropOverlapping s job epoch ord).Sound pend := by
  unfold dropOverlapping
  repeat'
    first
    | (with_reducible assumption)
    | ((try lift_lets -underBinder); with_reducible intro x; with_reducible refine hav (p := State.Sound pend x) ?_ (fun _ => ?_); (on_goal 1 => dsimp only [x]); (on_goal 2 => clear_value x))
    | ((try lift_lets -underBinder); with_reducible intro x; refine hav (p := (x : Comp) = x) rfl (fun _ => ?_))
    | ((try lift_lets -underBinder); with_reducible intro x; refine hav (p := (fun y => x y) = x) rfl (fun _ => ?_))
    | ((try lift_lets -underBinder); with_reducible intro x; clear_value x)
    | (with_reducible intro _)
    | (split)
    | (with_reducible refine setJob_ok ?_)
    | (with_reducible refine setColl_ok ?_)
    | (with_reducible refine releaseEarly_ok ?_)
    | (with_reducible refine dropStaged_ok ?_)
    | (with_reducible refine foldl_ok (fun _ _ _ => ?_) ?_)
    | (dsimp only)
    | (with_reducible refine State.Sound.mk' rfl (by first | rfl | simp) rfl ?_)

theorem haltCallers_ok {s : State} {job epoch ord : Nat} (hs : s.Sound pend) : (haltCallers s job epoch ord).Sound pend := by
  unfold haltCallers
  repeat'
    first
    | (with_reducible assumption)
    | ((try lift_lets -underBinder); with_reducible intro x; with_reducible refine hav (p := State.Sound pend x) ?_ (fun _ => ?_); (on_goal 1 => dsimp only [x]); (on_goal 2 => clear_value x))
    | ((try lift_lets -underBinder); with_reducible intro x; refine hav (p := (x : Comp) = x) rfl (fun _ => ?_))
    | ((try lift_lets -underBinder); with_reducible intro x; refine hav (p := (fun y => x y) = x) rfl (fun _ => ?_))
    | ((try lift_lets -underBinder); with_reducible intro x; clear_value x)
    | (with_reducible intro _)
    | (split)
    | (with_reducible refine setQueue_ok ?_)
    | (with_reducible refine haltQueue_ok ?_)
    | (with_reducible refine foldl_ok (fun _ _ _ => ?_) ?_)
    | (with_reducible refine State.Sound.mk' rfl (by first | rfl | simp) rfl ?_)

theorem dropOwn_ok {s : State} {p : LinkUnit → Bool} {port : Option Nat} (hs : s.Sound pend) : (dropOwn s p port).Sound pend := by
  unfold dropOwn
  repeat'
    first
    | (with_reducible assumption)
    | ((try lift_lets -underBinder); with_reducible intro x; with_reducible refine hav (p := State.Sound pend x) ?_ (fun _ => ?_); (on_goal 1 => dsimp only [x]); (on_goal 2 => clear_value x))
    | ((try lift_lets -underBinder); with_reducible intro x; refine hav (p := (x : Comp) = x) rfl (fun _ => ?_))
    | ((try lift_lets -underBinder); with_reducible intro x; refine hav (p := (fun y => x y) = x) rfl (fun _ => ?_))
    | ((try lift_lets -underBinder); with_reducible intro x; clear_value x)
    | (with_reducible intro _)
    | (split)
    | (with_reducible refine setPort_ok ?_)
    | (with_reducible refine leaveAlloc_ok ?_)
    | (with_reducible refine foldl_ok (fun _ _ _ => ?_) ?_)
    | (with_reducible refine State.Sound.mk' rfl (by first | rfl | simp) rfl ?_)

theorem dropSteps_ok {s : State} {job epoch ord : Nat} (hs : s.Sound pend) : (dropSteps s job epoch ord).Sound pend := by
  unfold dropSteps
  repeat'
    first
    | (with_reducible assumption)
    | ((try lift_lets -underBinder); with_reducible intro x; with_reducible refine hav (p := State.Sound pend x) ?_ (fun _ => ?_); (on_goal 1 => dsimp only [x]); (on_goal 2 => clear_value x))
    | ((try lift_lets -underBinder); with_reducible intro x; refine hav (p := (x : Comp) = x) rfl (fun _ => ?_))
    | ((try lift_lets -underBinder); with_reducible intro x; refine hav (p := (fun y => x y) = x) rfl (fun _ => ?_))
    | ((try lift_lets -underBinder); with_reducible intro x; clear_value x)
    | (with_reducible intro _)
    | (split)
    | (dsimp only)
    | (with_reducible refine State.Sound.mk' rfl (by first | rfl | simp) rfl ?_)

theorem abortColl_ok {s : State} {job epoch ord : Nat} {cause : Nat} {origin time : Nat} (hs : s.Sound pend) : (abortColl s job epoch ord cause origin time).Sound pend := by
  unfold abortColl
  repeat'
    first
    | (with_reducible assumption)
    | ((try lift_lets -underBinder); with_reducible intro x; with_reducible refine hav (p := State.Sound pend x) ?_ (fun _ => ?_); (on_goal 1 => dsimp only [x]); (on_goal 2 => clear_value x))
    | ((try lift_lets -underBinder); with_reducible intro x; refine hav (p := (x : Comp) = x) rfl (fun _ => ?_))
    | ((try lift_lets -underBinder); with_reducible intro x; refine hav (p := (fun y => x y) = x) rfl (fun _ => ?_))
    | ((try lift_lets -underBinder); with_reducible intro x; clear_value x)
    | (with_reducible intro _)
    | (split)
    | (with_reducible refine setAttn_ok ?_)
    | (with_reducible refine ringLog_ok ?_)
    | (with_reducible refine squashJob_ok ?_)
    | (with_reducible refine originate_ok ?_)
    | (with_reducible refine setColl_ok ?_)
    | (with_reducible refine releaseEarly_ok ?_)
    | (with_reducible refine dropStaged_ok ?_)
    | (with_reducible refine freeOut_ok ?_)
    | (with_reducible refine dropOverlapping_ok ?_)
    | (with_reducible refine haltCallers_ok ?_)
    | (with_reducible refine dropOwn_ok ?_)
    | (with_reducible refine dropSteps_ok ?_)
    | (with_reducible refine foldl_ok (fun _ _ _ => ?_) ?_)
    | (dsimp only)
    | (with_reducible refine State.Sound.mk' rfl (by first | rfl | simp) rfl ?_)

theorem abortHere_ok {s : State} {job epoch ord : Nat} {cause : Res} (hs : s.Sound pend) : (abortHere s job epoch ord cause).Sound pend := abortColl_ok hs

theorem releaseSpent_ok {s : State} {job epoch ord chunk : Nat} (hs : s.Sound pend) : (releaseSpent s job epoch ord chunk).Sound pend := by
  unfold releaseSpent
  repeat'
    first
    | (with_reducible assumption)
    | ((try lift_lets -underBinder); with_reducible intro x; with_reducible refine hav (p := State.Sound pend x) ?_ (fun _ => ?_); (on_goal 1 => dsimp only [x]); (on_goal 2 => clear_value x))
    | ((try lift_lets -underBinder); with_reducible intro x; refine hav (p := (x : Comp) = x) rfl (fun _ => ?_))
    | ((try lift_lets -underBinder); with_reducible intro x; refine hav (p := (fun y => x y) = x) rfl (fun _ => ?_))
    | ((try lift_lets -underBinder); with_reducible intro x; clear_value x)
    | (with_reducible intro _)
    | (split)
    | (with_reducible refine setColl_ok ?_)
    | (with_reducible refine dropStaged_ok ?_)
    | (with_reducible refine foldl_ok (fun _ _ _ => ?_) ?_)
    | (dsimp only)
    | (with_reducible refine State.Sound.mk' rfl (by first | rfl | simp) rfl ?_)

theorem completeCallers_ok {s : State} {job epoch ord : Nat} (hs : s.Sound pend) : (completeCallers s job epoch ord).Sound pend := by
  unfold completeCallers
  repeat'
    first
    | (with_reducible assumption)
    | ((try lift_lets -underBinder); with_reducible intro x; with_reducible refine hav (p := State.Sound pend x) ?_ (fun _ => ?_); (on_goal 1 => dsimp only [x]); (on_goal 2 => clear_value x))
    | ((try lift_lets -underBinder); with_reducible intro x; refine hav (p := (x : Comp) = x) rfl (fun _ => ?_))
    | ((try lift_lets -underBinder); with_reducible intro x; refine hav (p := (fun y => x y) = x) rfl (fun _ => ?_))
    | ((try lift_lets -underBinder); with_reducible intro x; clear_value x)
    | (with_reducible intro _)
    | (split)
    | (with_reducible refine setQueue_ok ?_)
    | (with_reducible refine endWait_ok ?_)
    | (with_reducible refine setJobFlag_ok ?_)
    | (with_reducible refine foldl_ok (fun _ _ _ => ?_) ?_)
    | (with_reducible refine State.Sound.mk' rfl (by first | rfl | simp) rfl ?_)

theorem settleColl_ok {s : State} {job epoch ord : Nat} (hs : s.Sound pend) : (settleColl s job epoch ord).Sound pend := by
  unfold settleColl
  repeat'
    first
    | (with_reducible assumption)
    | ((try lift_lets -underBinder); with_reducible intro x; with_reducible refine hav (p := State.Sound pend x) ?_ (fun _ => ?_); (on_goal 1 => dsimp only [x]); (on_goal 2 => clear_value x))
    | ((try lift_lets -underBinder); with_reducible intro x; refine hav (p := (x : Comp) = x) rfl (fun _ => ?_))
    | ((try lift_lets -underBinder); with_reducible intro x; refine hav (p := (fun y => x y) = x) rfl (fun _ => ?_))
    | ((try lift_lets -underBinder); with_reducible intro x; clear_value x)
    | (with_reducible intro _)
    | (split)
    | (with_reducible refine setColl_ok ?_)
    | (with_reducible refine dropStaged_ok ?_)
    | (with_reducible refine freeOut_ok ?_)
    | (with_reducible refine completeCallers_ok ?_)
    | (with_reducible refine foldl_ok (fun _ _ _ => ?_) ?_)
    | (dsimp only)
    | (with_reducible refine State.Sound.mk' rfl (by first | rfl | simp) rfl ?_)

theorem doOrdinalEligible_ok {job epoch ord : Nat} {s : State} (hs : s.Sound pend) : (doOrdinalEligible job epoch ord s).Sound pend := by
  unfold doOrdinalEligible
  repeat'
    first
    | (with_reducible assumption)
    | ((try lift_lets -underBinder); with_reducible intro x; with_reducible refine hav (p := State.Sound pend x) ?_ (fun _ => ?_); (on_goal 1 => dsimp only [x]); (on_goal 2 => clear_value x))
    | ((try lift_lets -underBinder); with_reducible intro x; refine hav (p := (x : Comp) = x) rfl (fun _ => ?_))
    | ((try lift_lets -underBinder); with_reducible intro x; refine hav (p := (fun y => x y) = x) rfl (fun _ => ?_))
    | ((try lift_lets -underBinder); with_reducible intro x; clear_value x)
    | (with_reducible intro _)
    | (split)
    | (with_reducible refine setQueue_ok ?_)
    | (with_reducible refine endWait_ok ?_)
    | (with_reducible refine setColl_ok ?_)
    | (with_reducible refine releaseEarlyIf_ok ?_)
    | (with_reducible refine foldl_ok (fun _ _ _ => ?_) ?_)
    | (dsimp only)
    | (with_reducible refine State.Sound.mk' rfl (by first | rfl | simp) rfl ?_)

theorem addLag_ok {s : State} {die job ord rank ns : Nat} (hs : s.Sound pend) : (addLag s die job ord rank ns).Sound pend := by
  unfold addLag
  repeat'
    first
    | (with_reducible assumption)
    | ((try lift_lets -underBinder); with_reducible intro x; with_reducible refine hav (p := State.Sound pend x) ?_ (fun _ => ?_); (on_goal 1 => dsimp only [x]); (on_goal 2 => clear_value x))
    | ((try lift_lets -underBinder); with_reducible intro x; refine hav (p := (x : Comp) = x) rfl (fun _ => ?_))
    | ((try lift_lets -underBinder); with_reducible intro x; refine hav (p := (fun y => x y) = x) rfl (fun _ => ?_))
    | ((try lift_lets -underBinder); with_reducible intro x; clear_value x)
    | (with_reducible intro _)
    | (split)
    | (dsimp only)
    | (with_reducible refine State.Sound.mk' rfl (by first | rfl | simp) rfl ?_)

theorem chunkLags_ok {s : State} {e : CollEntry} {job epoch ord chunk : Nat} {ranks : List Nat} (hs : s.Sound pend) : (chunkLags s e job epoch ord chunk ranks).Sound pend := by
  unfold chunkLags
  repeat'
    first
    | (with_reducible assumption)
    | ((try lift_lets -underBinder); with_reducible intro x; with_reducible refine hav (p := State.Sound pend x) ?_ (fun _ => ?_); (on_goal 1 => dsimp only [x]); (on_goal 2 => clear_value x))
    | ((try lift_lets -underBinder); with_reducible intro x; refine hav (p := (x : Comp) = x) rfl (fun _ => ?_))
    | ((try lift_lets -underBinder); with_reducible intro x; refine hav (p := (fun y => x y) = x) rfl (fun _ => ?_))
    | ((try lift_lets -underBinder); with_reducible intro x; clear_value x)
    | (with_reducible intro _)
    | (split)
    | (with_reducible refine addLag_ok ?_)
    | (with_reducible refine foldl_ok (fun _ _ _ => ?_) ?_)
    | (dsimp only)
    | (with_reducible refine State.Sound.mk' rfl (by first | rfl | simp) rfl ?_)

theorem chunkReached_ok {s : State} {e : CollEntry} {job epoch ord chunk : Nat} (hs : s.Sound pend) : (chunkReached s e job epoch ord chunk).Sound pend := by
  unfold chunkReached
  repeat'
    first
    | (with_reducible assumption)
    | ((try lift_lets -underBinder); with_reducible intro x; with_reducible refine hav (p := State.Sound pend x) ?_ (fun _ => ?_); (on_goal 1 => dsimp only [x]); (on_goal 2 => clear_value x))
    | ((try lift_lets -underBinder); with_reducible intro x; refine hav (p := (x : Comp) = x) rfl (fun _ => ?_))
    | ((try lift_lets -underBinder); with_reducible intro x; refine hav (p := (fun y => x y) = x) rfl (fun _ => ?_))
    | ((try lift_lets -underBinder); with_reducible intro x; clear_value x)
    | (with_reducible intro _)
    | (split)
    | (with_reducible refine setColl_ok ?_)
    | (with_reducible refine chunkLags_ok ?_)
    | (dsimp only)
    | (with_reducible refine State.Sound.mk' rfl (by first | rfl | simp) rfl ?_)

theorem nakInput_ok {s : State} {job epoch ord : Nat} {i : Inp} {d : HeldDigest} {cause : Nat} (hs : s.Sound pend) : (nakInput s job epoch ord i d cause).Sound pend := by
  unfold nakInput
  repeat'
    first
    | (with_reducible assumption)
    | ((try lift_lets -underBinder); with_reducible intro x; with_reducible refine hav (p := State.Sound pend x) ?_ (fun _ => ?_); (on_goal 1 => dsimp only [x]); (on_goal 2 => clear_value x))
    | ((try lift_lets -underBinder); with_reducible intro x; refine hav (p := (x : Comp) = x) rfl (fun _ => ?_))
    | ((try lift_lets -underBinder); with_reducible intro x; refine hav (p := (fun y => x y) = x) rfl (fun _ => ?_))
    | ((try lift_lets -underBinder); with_reducible intro x; clear_value x)
    | (with_reducible intro _)
    | (split)
    | (with_reducible refine originate_ok ?_)
    | (with_reducible refine setColl_ok ?_)
    | (with_reducible refine icnt_ok ?_)
    | (with_reducible refine dropStaged_ok ?_)
    | (with_reducible refine abortHere_ok ?_)
    | (dsimp only)
    | (with_reducible refine State.Sound.mk' rfl (by first | rfl | simp) rfl ?_)

theorem answerInput_ok {s : State} {job epoch ord rank chunk : Nat} {force : Bool} (hs : s.Sound pend) : (answerInput s job epoch ord rank chunk force).Sound pend := by
  unfold answerInput
  repeat'
    first
    | (with_reducible assumption)
    | ((try lift_lets -underBinder); with_reducible intro x; with_reducible refine hav (p := State.Sound pend x) ?_ (fun _ => ?_); (on_goal 1 => dsimp only [x]); (on_goal 2 => clear_value x))
    | ((try lift_lets -underBinder); with_reducible intro x; refine hav (p := (x : Comp) = x) rfl (fun _ => ?_))
    | ((try lift_lets -underBinder); with_reducible intro x; refine hav (p := (fun y => x y) = x) rfl (fun _ => ?_))
    | ((try lift_lets -underBinder); with_reducible intro x; clear_value x)
    | (with_reducible intro _)
    | (split)
    | (with_reducible refine originate_ok ?_)
    | (with_reducible refine setJob_ok ?_)
    | (with_reducible refine setColl_ok ?_)
    | (with_reducible refine settleColl_ok ?_)
    | (with_reducible refine chunkReached_ok ?_)
    | (with_reducible refine nakInput_ok ?_)
    | (dsimp only)
    | (with_reducible refine State.Sound.mk' rfl (by first | rfl | simp) rfl ?_)

theorem doShortWaitExpiry_ok {job epoch ord rank chunk : Nat} {s : State} (hs : s.Sound pend) : (doShortWaitExpiry job epoch ord rank chunk s).Sound pend := by
  unfold doShortWaitExpiry
  repeat'
    first
    | (with_reducible assumption)
    | ((try lift_lets -underBinder); with_reducible intro x; with_reducible refine hav (p := State.Sound pend x) ?_ (fun _ => ?_); (on_goal 1 => dsimp only [x]); (on_goal 2 => clear_value x))
    | ((try lift_lets -underBinder); with_reducible intro x; refine hav (p := (x : Comp) = x) rfl (fun _ => ?_))
    | ((try lift_lets -underBinder); with_reducible intro x; refine hav (p := (fun y => x y) = x) rfl (fun _ => ?_))
    | ((try lift_lets -underBinder); with_reducible intro x; clear_value x)
    | (with_reducible intro _)
    | (split)
    | (with_reducible refine answerInput_ok ?_)
    | (with_reducible refine State.Sound.mk' rfl (by first | rfl | simp) rfl ?_)

theorem doDigestSend_ok {job epoch ord lo hi chunk : Nat} {s : State} (hs : s.Sound pend) : (doDigestSend job epoch ord lo hi chunk s).Sound pend := by
  unfold doDigestSend
  repeat'
    first
    | (with_reducible assumption)
    | ((try lift_lets -underBinder); with_reducible intro x; with_reducible refine hav (p := State.Sound pend x) ?_ (fun _ => ?_); (on_goal 1 => dsimp only [x]); (on_goal 2 => clear_value x))
    | ((try lift_lets -underBinder); with_reducible intro x; refine hav (p := (x : Comp) = x) rfl (fun _ => ?_))
    | ((try lift_lets -underBinder); with_reducible intro x; refine hav (p := (fun y => x y) = x) rfl (fun _ => ?_))
    | ((try lift_lets -underBinder); with_reducible intro x; clear_value x)
    | (with_reducible intro _)
    | (split)
    | (with_reducible refine originate_ok ?_)
    | (with_reducible refine setColl_ok ?_)
    | (with_reducible refine icnt_ok ?_)
    | (with_reducible refine foldl_ok (fun _ _ _ => ?_) ?_)
    | (dsimp only)
    | (with_reducible refine State.Sound.mk' rfl (by first | rfl | simp) rfl ?_)

theorem doDigestResend_ok {job epoch ord lo hi chunk i : Nat} {s : State} (hs : s.Sound pend) : (doDigestResend job epoch ord lo hi chunk i s).Sound pend := by
  unfold doDigestResend
  repeat'
    first
    | (with_reducible assumption)
    | ((try lift_lets -underBinder); with_reducible intro x; with_reducible refine hav (p := State.Sound pend x) ?_ (fun _ => ?_); (on_goal 1 => dsimp only [x]); (on_goal 2 => clear_value x))
    | ((try lift_lets -underBinder); with_reducible intro x; refine hav (p := (x : Comp) = x) rfl (fun _ => ?_))
    | ((try lift_lets -underBinder); with_reducible intro x; refine hav (p := (fun y => x y) = x) rfl (fun _ => ?_))
    | ((try lift_lets -underBinder); with_reducible intro x; clear_value x)
    | (with_reducible intro _)
    | (split)
    | (with_reducible refine originate_ok ?_)
    | (with_reducible refine setColl_ok ?_)
    | (with_reducible refine icnt_ok ?_)
    | (with_reducible refine abortHere_ok ?_)
    | (dsimp only)
    | (with_reducible refine State.Sound.mk' rfl (by first | rfl | simp) rfl ?_)

theorem liftMark_ok {s : State} {job ep : Nat} (hs : s.Sound pend) : (liftMark s job ep).Sound pend := by
  unfold liftMark
  repeat'
    first
    | (with_reducible assumption)
    | ((try lift_lets -underBinder); with_reducible intro x; with_reducible refine hav (p := State.Sound pend x) ?_ (fun _ => ?_); (on_goal 1 => dsimp only [x]); (on_goal 2 => clear_value x))
    | ((try lift_lets -underBinder); with_reducible intro x; refine hav (p := (x : Comp) = x) rfl (fun _ => ?_))
    | ((try lift_lets -underBinder); with_reducible intro x; refine hav (p := (fun y => x y) = x) rfl (fun _ => ?_))
    | ((try lift_lets -underBinder); with_reducible intro x; clear_value x)
    | (with_reducible intro _)
    | (split)
    | (with_reducible refine setJob_ok ?_)
    | (with_reducible refine State.Sound.mk' rfl (by first | rfl | simp) rfl ?_)

theorem recvAck_ok {s : State} {port : Option Nat} {u : LinkUnit} (hs : s.Sound pend) : (recvAck s port u).Sound pend := by
  unfold recvAck
  repeat'
    first
    | (with_reducible assumption)
    | ((try lift_lets -underBinder); with_reducible intro x; with_reducible refine hav (p := State.Sound pend x) ?_ (fun _ => ?_); (on_goal 1 => dsimp only [x]); (on_goal 2 => clear_value x))
    | ((try lift_lets -underBinder); with_reducible intro x; refine hav (p := (x : Comp) = x) rfl (fun _ => ?_))
    | ((try lift_lets -underBinder); with_reducible intro x; refine hav (p := (fun y => x y) = x) rfl (fun _ => ?_))
    | ((try lift_lets -underBinder); with_reducible intro x; clear_value x)
    | (with_reducible intro _)
    | (split)
    | (with_reducible refine windowError_ok ?_)
    | (with_reducible refine setColl_ok ?_)
    | (with_reducible refine icnt_ok ?_)
    | (with_reducible refine freeOut_ok ?_)
    | (with_reducible refine releaseSpent_ok ?_)
    | (with_reducible refine settleColl_ok ?_)
    | (with_reducible refine liftMark_ok ?_)
    | (with_reducible refine State.Sound.mk' rfl (by first | rfl | simp) rfl ?_)

theorem outputFails_ok {s : State} {job epoch ord chunk : Nat} (hs : s.Sound pend) : (outputFails s job epoch ord chunk).Sound pend := by
  unfold outputFails
  repeat'
    first
    | (with_reducible assumption)
    | ((try lift_lets -underBinder); with_reducible intro x; with_reducible refine hav (p := State.Sound pend x) ?_ (fun _ => ?_); (on_goal 1 => dsimp only [x]); (on_goal 2 => clear_value x))
    | ((try lift_lets -underBinder); with_reducible intro x; refine hav (p := (x : Comp) = x) rfl (fun _ => ?_))
    | ((try lift_lets -underBinder); with_reducible intro x; refine hav (p := (fun y => x y) = x) rfl (fun _ => ?_))
    | ((try lift_lets -underBinder); with_reducible intro x; clear_value x)
    | (with_reducible intro _)
    | (split)
    | (with_reducible refine setAttn_ok ?_)
    | (with_reducible refine logError_ok ?_)
    | (with_reducible refine abortHere_ok ?_)
    | (with_reducible refine State.Sound.mk' rfl (by first | rfl | simp) rfl ?_)

theorem recvRetract_ok {s : State} {u : LinkUnit} (hs : s.Sound pend) : (recvRetract s u).Sound pend := by
  unfold recvRetract
  repeat'
    first
    | (with_reducible assumption)
    | ((try lift_lets -underBinder); with_reducible intro x; with_reducible refine hav (p := State.Sound pend x) ?_ (fun _ => ?_); (on_goal 1 => dsimp only [x]); (on_goal 2 => clear_value x))
    | ((try lift_lets -underBinder); with_reducible intro x; refine hav (p := (x : Comp) = x) rfl (fun _ => ?_))
    | ((try lift_lets -underBinder); with_reducible intro x; refine hav (p := (fun y => x y) = x) rfl (fun _ => ?_))
    | ((try lift_lets -underBinder); with_reducible intro x; clear_value x)
    | (with_reducible intro _)
    | (split)
    | (with_reducible refine setJob_ok ?_)
    | (with_reducible refine windowError_ok ?_)
    | (with_reducible refine setColl_ok ?_)
    | (with_reducible refine dropStaged_ok ?_)
    | (dsimp only)
    | (with_reducible refine State.Sound.mk' rfl (by first | rfl | simp) rfl ?_)

theorem timerExpires_ok {s : State} {e : CollEntry} {job epoch ord : Nat} {chunks : List Nat} (hs : s.Sound pend) : (timerExpires s e job epoch ord chunks).Sound pend := by
  unfold timerExpires
  repeat'
    first
    | (with_reducible assumption)
    | ((try lift_lets -underBinder); with_reducible intro x; with_reducible refine hav (p := State.Sound pend x) ?_ (fun _ => ?_); (on_goal 1 => dsimp only [x]); (on_goal 2 => clear_value x))
    | ((try lift_lets -underBinder); with_reducible intro x; refine hav (p := (x : Comp) = x) rfl (fun _ => ?_))
    | ((try lift_lets -underBinder); with_reducible intro x; refine hav (p := (fun y => x y) = x) rfl (fun _ => ?_))
    | ((try lift_lets -underBinder); with_reducible intro x; clear_value x)
    | (with_reducible intro _)
    | (split)
    | (with_reducible refine setColl_ok ?_)
    | (with_reducible refine abortHere_ok ?_)
    | (with_reducible refine nakInput_ok ?_)
    | (with_reducible refine foldl_ok (fun _ _ _ => ?_) ?_)
    | (dsimp only)
    | (with_reducible refine State.Sound.mk' rfl (by first | rfl | simp) rfl ?_)

theorem doOrdinalTimeout_ok {job epoch ord : Nat} {s : State} (hs : s.Sound pend) : (doOrdinalTimeout job epoch ord s).Sound pend := by
  unfold doOrdinalTimeout
  repeat'
    first
    | (with_reducible assumption)
    | ((try lift_lets -underBinder); with_reducible intro x; with_reducible refine hav (p := State.Sound pend x) ?_ (fun _ => ?_); (on_goal 1 => dsimp only [x]); (on_goal 2 => clear_value x))
    | ((try lift_lets -underBinder); with_reducible intro x; refine hav (p := (x : Comp) = x) rfl (fun _ => ?_))
    | ((try lift_lets -underBinder); with_reducible intro x; refine hav (p := (fun y => x y) = x) rfl (fun _ => ?_))
    | ((try lift_lets -underBinder); with_reducible intro x; clear_value x)
    | (with_reducible intro _)
    | (split)
    | (with_reducible refine timerExpires_ok ?_)
    | (with_reducible refine State.Sound.mk' rfl (by first | rfl | simp) rfl ?_)

theorem doChunkTimerExpiry_ok {job epoch ord : Nat} {s : State} (hs : s.Sound pend) : (doChunkTimerExpiry job epoch ord s).Sound pend := by
  unfold doChunkTimerExpiry
  repeat'
    first
    | (with_reducible assumption)
    | ((try lift_lets -underBinder); with_reducible intro x; with_reducible refine hav (p := State.Sound pend x) ?_ (fun _ => ?_); (on_goal 1 => dsimp only [x]); (on_goal 2 => clear_value x))
    | ((try lift_lets -underBinder); with_reducible intro x; refine hav (p := (x : Comp) = x) rfl (fun _ => ?_))
    | ((try lift_lets -underBinder); with_reducible intro x; refine hav (p := (fun y => x y) = x) rfl (fun _ => ?_))
    | ((try lift_lets -underBinder); with_reducible intro x; clear_value x)
    | (with_reducible intro _)
    | (split)
    | (with_reducible refine timerExpires_ok ?_)
    | (with_reducible refine State.Sound.mk' rfl (by first | rfl | simp) rfl ?_)

end Sys2Proof.Machine
end

