-- ==== Sys2Proof/Laws/OkIssue.lean ====
section
/-! SUPPORT. The operations of Issue.lean keep the state well formed. -/

set_option linter.unusedTactic false
set_option linter.unreachableTactic false

namespace Sys2Proof.Machine

variable {pend : List Instr}

theorem settle_ok {s : State} {q : Nat} {i : Issue} (hs : s.Sound pend) (hi : i.Sound pend) : (settle s q i).Sound pend := by
  cases i with
  | done t => exact advance_ok (q := q) hi
  | stay t => exact hi
  | refuse r => exact haltQueue_ok (bumpQue_ok hs)

theorem issueWith_ok {op : Nat} {skip : Word → State → Issue} {q : Nat} {s : State} {eff : Word → Queue → State → Issue} (hskip : ∀ x0 x1, x1.Sound pend → (skip x0 x1).Sound pend) (hs : s.Sound pend) (heff : ∀ x0 x1 x2, x2.Sound pend → (eff x0 x1 x2).Sound pend) : (issueWith op skip q s eff).Sound pend := by
  unfold issueWith
  repeat'
    first
    | (with_reducible assumption)
    | ((try lift_lets -underBinder); with_reducible intro x; with_reducible refine hav (p := State.Sound pend x) ?_ (fun _ => ?_); (on_goal 1 => dsimp only [x]); (on_goal 2 => clear_value x))
    | ((try lift_lets -underBinder); with_reducible intro x; refine hav (p := (x : Comp) = x) rfl (fun _ => ?_))
    | ((try lift_lets -underBinder); with_reducible intro x; refine hav (p := (fun y => x y) = x) rfl (fun _ => ?_))
    | ((try lift_lets -underBinder); with_reducible intro x; clear_value x)
    | (with_reducible intro _)
    | (split)
    | (with_reducible refine bumpQue_ok ?_)
    | (with_reducible refine haltQueue_ok ?_)
    | (with_reducible refine settle_ok ?_ ?_)
    | (with_reducible refine hskip _ _ ?_)
    | (with_reducible refine heff _ _ _ ?_)
    | (with_reducible refine State.Sound.mk' rfl (by first | rfl | simp) rfl ?_)

theorem issue_ok {op q : Nat} {s : State} {eff : Word → Queue → State → Issue} (hs : s.Sound pend) (heff : ∀ x0 x1 x2, x2.Sound pend → (eff x0 x1 x2).Sound pend) : (issue op q s eff).Sound pend := by
  unfold issue
  repeat'
    first
    | (with_reducible assumption)
    | ((try lift_lets -underBinder); with_reducible intro x; with_reducible refine hav (p := State.Sound pend x) ?_ (fun _ => ?_); (on_goal 1 => dsimp only [x]); (on_goal 2 => clear_value x))
    | ((try lift_lets -underBinder); with_reducible intro x; refine hav (p := (x : Comp) = x) rfl (fun _ => ?_))
    | ((try lift_lets -underBinder); with_reducible intro x; refine hav (p := (fun y => x y) = x) rfl (fun _ => ?_))
    | ((try lift_lets -underBinder); with_reducible intro x; clear_value x)
    | (with_reducible intro _)
    | (split)
    | (with_reducible exact refuse_ok)
    | (with_reducible refine done_ok ?_)
    | (with_reducible refine stay_ok ?_)
    | (with_reducible refine issueWith_ok ?_ ?_ ?_)
    | (with_reducible refine heff _ _ _ ?_)
    | (with_reducible refine State.Sound.mk' rfl (by first | rfl | simp) rfl ?_)

end Sys2Proof.Machine
end

