-- ==== Sys2Proof/Laws/OkProduce.lean ====
section
/-! SUPPORT. The operations of Produce.lean keep the state well formed. -/

set_option linter.unusedTactic false
set_option linter.unreachableTactic false

namespace Sys2Proof.Machine

variable {pend : List Instr}

/-- The state that an output has left is well formed. -/
def Made.Sound (pend : List Instr) : Made → Prop
  | .ok s => s.Sound pend
  | _ => True

theorem madeOk_ok {s : State} (h : s.Sound pend) : (Made.ok s).Sound pend := h

theorem madeInv_ok {s : State} (h : (Made.ok s).Sound pend) : s.Sound pend := h

theorem madeWait_ok {a b c : Nat} : (Made.wait a b c).Sound pend := trivial

theorem madeQuota_ok {a b c : Nat} : (Made.quota a b c).Sound pend := trivial

theorem of_made {r : Made} {t : State} (h : r.Sound pend) (e : r = .ok t) : t.Sound pend := by subst e; exact h

/-- The state after buffers were taken, or the refusal, is well formed. -/
def ExMadeSound (pend : List Instr) {β : Type} : Except Made (State × β) → Prop
  | .ok p => p.1.Sound pend
  | .error m => m.Sound pend

theorem of_exMade {β : Type} {r : Except Made (State × β)} {t : State} {b : β} (h : ExMadeSound pend r) (e : r = .ok (t, b)) : t.Sound pend := by
  subst e; exact h

theorem of_exMadeErr {β : Type} {r : Except Made (State × β)} {m : Made} (h : ExMadeSound pend r) (e : r = .error m) : m.Sound pend := by
  subst e; exact h

theorem takeBufs_ok {inst req : Nat} : ∀ {ns : List Nat} {s : State} {got : List Nat}, s.Sound pend → ExMadeSound pend (takeBufs inst req s got ns)
  | [], _, _, h => h
  | n :: ns, s, got, h => by
    unfold takeBufs
    have hb : ∀ {t k}, bpmAlloc s inst req n [] = .ok t k → t.Sound pend := fun e => of_granted (bpmAlloc_ok h) e
    dsimp only
    split
    · exact takeBufs_ok (hb (by assumption))
    · trivial
    · trivial

theorem settleMade_ok {s : State} {die engine job : Nat} {m : Made} (hs : s.Sound pend) (hm : m.Sound pend) : (settleMade s die engine job m).Sound pend := by
  cases m with
  | ok t => exact hm
  | wait i p n => exact setBpm_ok hs
  | quota i p n => exact freeze_ok (setBpm_ok hs)

theorem foldlMade_ok {α : Type} {f : Made → α → Made} (hf : ∀ m x, m.Sound pend → (f m x).Sound pend) : ∀ {l : List α} {m : Made}, m.Sound pend → (l.foldl f m).Sound pend
  | [], _, h => h
  | x :: l, m, h => foldlMade_ok (l := l) (m := f m x) hf (hf m x h)


theorem placeOutput_ok {s : State} {job epoch ord : Nat} {o : Outp} {die : Nat} (hs : s.Sound pend) : (placeOutput s job epoch ord o die).Sound pend := by
  unfold placeOutput
  repeat'
    first
    | (with_reducible assumption)
    | ((try lift_lets -underBinder); with_reducible intro x; with_reducible refine hav (p := State.Sound pend x) ?_ (fun _ => ?_); (on_goal 1 => dsimp only [x]); (on_goal 2 => clear_value x))
    | ((try lift_lets -underBinder); with_reducible intro x; refine hav (p := (x : Comp) = x) rfl (fun _ => ?_))
    | ((try lift_lets -underBinder); with_reducible intro x; refine hav (p := (fun y => x y) = x) rfl (fun _ => ?_))
    | ((try lift_lets -underBinder); with_reducible intro x; clear_value x)
    | (with_reducible intro _)
    | (split)
    | (with_reducible refine setColl_ok ?_)
    | (with_reducible refine sendFrames_ok ?_)
    | (with_reducible refine foldl_ok (fun _ _ _ => ?_) ?_)
    | (dsimp only)
    | (with_reducible exact madeInv_ok (by assumption))
    | (with_reducible exact madeWait_ok)
    | (with_reducible exact madeQuota_ok)
    | (with_reducible refine madeOk_ok ?_)
    | (with_reducible refine of_made ?_ (by assumption))
    | (with_reducible refine of_exMade ?_ (by assumption))
    | (with_reducible refine of_exMadeErr ?_ (by assumption))
    | (with_reducible refine takeBufs_ok ?_)
    | (with_reducible refine foldlMade_ok (fun _ _ _ => ?_) ?_)
    | (with_reducible refine State.Sound.mk' rfl (by first | rfl | simp) rfl ?_)

theorem emitOutput_ok {s : State} {job epoch : Nat} {e : CollEntry} {lo hi chunk : Nat} {bs : List Byte} {engine : Nat} {copied dup : Bool} {shard : Option Nat} (hs : s.Sound pend) : (emitOutput s job epoch e lo hi chunk bs engine copied dup shard).Sound pend := by
  unfold emitOutput
  repeat'
    first
    | (with_reducible assumption)
    | ((try lift_lets -underBinder); with_reducible intro x; with_reducible refine hav (p := State.Sound pend x) ?_ (fun _ => ?_); (on_goal 1 => dsimp only [x]); (on_goal 2 => clear_value x))
    | ((try lift_lets -underBinder); with_reducible intro x; refine hav (p := (x : Comp) = x) rfl (fun _ => ?_))
    | ((try lift_lets -underBinder); with_reducible intro x; refine hav (p := (fun y => x y) = x) rfl (fun _ => ?_))
    | ((try lift_lets -underBinder); with_reducible intro x; clear_value x)
    | (with_reducible intro _)
    | (split)
    | (with_reducible refine abortHere_ok ?_)
    | (with_reducible refine placeOutput_ok ?_)
    | (dsimp only)
    | (with_reducible exact madeInv_ok (by assumption))
    | (with_reducible exact madeWait_ok)
    | (with_reducible exact madeQuota_ok)
    | (with_reducible refine madeOk_ok ?_)
    | (with_reducible refine of_made ?_ (by assumption))
    | (with_reducible refine of_exMade ?_ (by assumption))
    | (with_reducible refine of_exMadeErr ?_ (by assumption))
    | (with_reducible refine takeBufs_ok ?_)
    | (with_reducible refine foldlMade_ok (fun _ _ _ => ?_) ?_)
    | (with_reducible refine State.Sound.mk' rfl (by first | rfl | simp) rfl ?_)

theorem writeElemBits_ok {s : State} {job : Nat} {t : Tensor} {coords : List Nat} {raw : Nat} (hs : s.Sound pend) : (writeElemBits s job t coords raw).Sound pend := by
  unfold writeElemBits
  repeat'
    first
    | (with_reducible assumption)
    | ((try lift_lets -underBinder); with_reducible intro x; with_reducible refine hav (p := State.Sound pend x) ?_ (fun _ => ?_); (on_goal 1 => dsimp only [x]); (on_goal 2 => clear_value x))
    | ((try lift_lets -underBinder); with_reducible intro x; refine hav (p := (x : Comp) = x) rfl (fun _ => ?_))
    | ((try lift_lets -underBinder); with_reducible intro x; refine hav (p := (fun y => x y) = x) rfl (fun _ => ?_))
    | ((try lift_lets -underBinder); with_reducible intro x; clear_value x)
    | (with_reducible intro _)
    | (split)
    | (with_reducible refine writeVAs_ok ?_)
    | (dsimp only)
    | (with_reducible refine State.Sound.mk' rfl (by first | rfl | simp) rfl ?_)

theorem writeElems_ok {s : State} {job : Nat} {t : Tensor} {start : Nat} {x : Landing} (hs : s.Sound pend) : (writeElems s job t start x).Sound pend := by
  unfold writeElems
  repeat'
    first
    | (with_reducible assumption)
    | ((try lift_lets -underBinder); with_reducible intro x; with_reducible refine hav (p := State.Sound pend x) ?_ (fun _ => ?_); (on_goal 1 => dsimp only [x]); (on_goal 2 => clear_value x))
    | ((try lift_lets -underBinder); with_reducible intro x; refine hav (p := (x : Comp) = x) rfl (fun _ => ?_))
    | ((try lift_lets -underBinder); with_reducible intro x; refine hav (p := (fun y => x y) = x) rfl (fun _ => ?_))
    | ((try lift_lets -underBinder); with_reducible intro x; clear_value x)
    | (with_reducible intro _)
    | (split)
    | (with_reducible refine writeVAs_ok ?_)
    | (with_reducible refine writeElemBits_ok ?_)
    | (with_reducible refine foldl_ok (fun _ _ _ => ?_) ?_)
    | (with_reducible refine State.Sound.mk' rfl (by first | rfl | simp) rfl ?_)

theorem writeTiles_ok {s : State} {job : Nat} {t : Tensor} {start : Nat} {x : Landing} (hs : s.Sound pend) : (writeTiles s job t start x).Sound pend := by
  unfold writeTiles
  repeat'
    first
    | (with_reducible assumption)
    | ((try lift_lets -underBinder); with_reducible intro x; with_reducible refine hav (p := State.Sound pend x) ?_ (fun _ => ?_); (on_goal 1 => dsimp only [x]); (on_goal 2 => clear_value x))
    | ((try lift_lets -underBinder); with_reducible intro x; refine hav (p := (x : Comp) = x) rfl (fun _ => ?_))
    | ((try lift_lets -underBinder); with_reducible intro x; refine hav (p := (fun y => x y) = x) rfl (fun _ => ?_))
    | ((try lift_lets -underBinder); with_reducible intro x; clear_value x)
    | (with_reducible intro _)
    | (split)
    | (with_reducible refine writeVAs_ok ?_)
    | (with_reducible refine foldl_ok (fun _ _ _ => ?_) ?_)
    | (with_reducible refine State.Sound.mk' rfl (by first | rfl | simp) rfl ?_)

theorem toBuffer_ok {s : State} {job epoch : Nat} {e : CollEntry} {i start : Nat} {x : Landing} (hs : s.Sound pend) : (toBuffer s job epoch e i start x).Sound pend := by
  unfold toBuffer
  repeat'
    first
    | (with_reducible assumption)
    | ((try lift_lets -underBinder); with_reducible intro x; with_reducible refine hav (p := State.Sound pend x) ?_ (fun _ => ?_); (on_goal 1 => dsimp only [x]); (on_goal 2 => clear_value x))
    | ((try lift_lets -underBinder); with_reducible intro x; refine hav (p := (x : Comp) = x) rfl (fun _ => ?_))
    | ((try lift_lets -underBinder); with_reducible intro x; refine hav (p := (fun y => x y) = x) rfl (fun _ => ?_))
    | ((try lift_lets -underBinder); with_reducible intro x; clear_value x)
    | (with_reducible intro _)
    | (split)
    | (with_reducible refine abortHere_ok ?_)
    | (with_reducible refine writeElems_ok ?_)
    | (with_reducible refine writeTiles_ok ?_)
    | (dsimp only)
    | (with_reducible refine State.Sound.mk' rfl (by first | rfl | simp) rfl ?_)

theorem sendTwin_ok {s : State} {u : LinkUnit} (hs : s.Sound pend) : (sendTwin s u).Sound pend := by
  unfold sendTwin
  repeat'
    first
    | (with_reducible assumption)
    | ((try lift_lets -underBinder); with_reducible intro x; with_reducible refine hav (p := State.Sound pend x) ?_ (fun _ => ?_); (on_goal 1 => dsimp only [x]); (on_goal 2 => clear_value x))
    | ((try lift_lets -underBinder); with_reducible intro x; refine hav (p := (x : Comp) = x) rfl (fun _ => ?_))
    | ((try lift_lets -underBinder); with_reducible intro x; refine hav (p := (fun y => x y) = x) rfl (fun _ => ?_))
    | ((try lift_lets -underBinder); with_reducible intro x; clear_value x)
    | (with_reducible intro _)
    | (split)
    | (with_reducible refine enqueue_ok ?_)
    | (dsimp only)
    | (with_reducible refine State.Sound.mk' rfl (by first | rfl | simp) rfl ?_)

theorem setTwin_ok {s : State} {f : Twin → Twin} (hs : s.Sound pend) : (setTwin s f).Sound pend := by
  unfold setTwin
  repeat'
    first
    | (with_reducible assumption)
    | ((try lift_lets -underBinder); with_reducible intro x; with_reducible refine hav (p := State.Sound pend x) ?_ (fun _ => ?_); (on_goal 1 => dsimp only [x]); (on_goal 2 => clear_value x))
    | ((try lift_lets -underBinder); with_reducible intro x; refine hav (p := (x : Comp) = x) rfl (fun _ => ?_))
    | ((try lift_lets -underBinder); with_reducible intro x; refine hav (p := (fun y => x y) = x) rfl (fun _ => ?_))
    | ((try lift_lets -underBinder); with_reducible intro x; clear_value x)
    | (with_reducible intro _)
    | (split)
    | (with_reducible refine State.Sound.mk' rfl (by first | rfl | simp) rfl ?_)

theorem sendGrad_ok {s : State} {job epoch ord chunk die : Nat} {bs : List Byte} (hs : s.Sound pend) : (sendGrad s job epoch ord chunk die bs).Sound pend := by
  unfold sendGrad
  repeat'
    first
    | (with_reducible assumption)
    | ((try lift_lets -underBinder); with_reducible intro x; with_reducible refine hav (p := State.Sound pend x) ?_ (fun _ => ?_); (on_goal 1 => dsimp only [x]); (on_goal 2 => clear_value x))
    | ((try lift_lets -underBinder); with_reducible intro x; refine hav (p := (x : Comp) = x) rfl (fun _ => ?_))
    | ((try lift_lets -underBinder); with_reducible intro x; refine hav (p := (fun y => x y) = x) rfl (fun _ => ?_))
    | ((try lift_lets -underBinder); with_reducible intro x; clear_value x)
    | (with_reducible intro _)
    | (split)
    | (with_reducible refine sendTwin_ok ?_)
    | (with_reducible refine setTwin_ok ?_)
    | (with_reducible refine foldl_ok (fun _ _ _ => ?_) ?_)
    | (dsimp only)
    | (with_reducible refine State.Sound.mk' rfl (by first | rfl | simp) rfl ?_)

theorem gradRoot_ok {s : State} {job epoch : Nat} {e : CollEntry} {chunk : Nat} {bs : List Byte} (hs : s.Sound pend) : (gradRoot s job epoch e chunk bs).Sound pend := by
  unfold gradRoot
  repeat'
    first
    | (with_reducible assumption)
    | ((try lift_lets -underBinder); with_reducible intro x; with_reducible refine hav (p := State.Sound pend x) ?_ (fun _ => ?_); (on_goal 1 => dsimp only [x]); (on_goal 2 => clear_value x))
    | ((try lift_lets -underBinder); with_reducible intro x; refine hav (p := (x : Comp) = x) rfl (fun _ => ?_))
    | ((try lift_lets -underBinder); with_reducible intro x; refine hav (p := (fun y => x y) = x) rfl (fun _ => ?_))
    | ((try lift_lets -underBinder); with_reducible intro x; clear_value x)
    | (with_reducible intro _)
    | (split)
    | (with_reducible refine sendGrad_ok ?_)
    | (with_reducible refine foldl_ok (fun _ _ _ => ?_) ?_)
    | (dsimp only)
    | (with_reducible refine State.Sound.mk' rfl (by first | rfl | simp) rfl ?_)

theorem placeRoot_ok {s : State} {job epoch : Nat} {e : CollEntry} {chunk : Nat} {bs : List Byte} {tiles : List (List Byte)} (hs : s.Sound pend) : (placeRoot s job epoch e chunk bs tiles).Sound pend := by
  unfold placeRoot
  repeat'
    first
    | (with_reducible assumption)
    | ((try lift_lets -underBinder); with_reducible intro x; with_reducible refine hav (p := State.Sound pend x) ?_ (fun _ => ?_); (on_goal 1 => dsimp only [x]); (on_goal 2 => clear_value x))
    | ((try lift_lets -underBinder); with_reducible intro x; refine hav (p := (x : Comp) = x) rfl (fun _ => ?_))
    | ((try lift_lets -underBinder); with_reducible intro x; refine hav (p := (fun y => x y) = x) rfl (fun _ => ?_))
    | ((try lift_lets -underBinder); with_reducible intro x; clear_value x)
    | (with_reducible intro _)
    | (split)
    | (with_reducible refine setColl_ok ?_)
    | (with_reducible refine toBuffer_ok ?_)
    | (with_reducible refine gradRoot_ok ?_)
    | (with_reducible refine foldl_ok (fun _ _ _ => ?_) ?_)
    | (dsimp only)
    | (with_reducible refine State.Sound.mk' rfl (by first | rfl | simp) rfl ?_)

end Sys2Proof.Machine
end

