-- ==== Sys2Proof/Laws/OkReceive.lean ====
section
/-! SUPPORT. The operations of Receive.lean keep the state well formed. -/

set_option linter.unusedTactic false
set_option linter.unreachableTactic false

namespace Sys2Proof.Machine

variable {pend : List Instr}

/-- The state of a verdict is well formed. -/
def Verdict.Sound (pend : List Instr) : Verdict → Prop
  | .drop s => s.Sound pend
  | _ => True

theorem verdictDrop_ok {s : State} (h : s.Sound pend) : (Verdict.drop s).Sound pend := h

theorem verdictTake_ok {a : Nat} {e : CollEntry} : (Verdict.take a e).Sound pend := trivial

theorem of_verdict {r : Verdict} {t : State} (h : r.Sound pend) (e : r = .drop t) : t.Sound pend := by subst e; exact h

/-- The state of an admission is well formed. -/
def Adm.Sound (pend : List Instr) : Adm → Prop
  | .ok s _ => s.Sound pend
  | .gone s => s.Sound pend
  | .hold => True

theorem admOk_ok {s : State} {k : List Nat} (h : s.Sound pend) : (Adm.ok s k).Sound pend := h

theorem admGone_ok {s : State} (h : s.Sound pend) : (Adm.gone s).Sound pend := h

theorem admHold_ok : Adm.hold.Sound pend := trivial

theorem of_admOk {r : Adm} {t : State} {k : List Nat} (h : r.Sound pend) (e : r = .ok t k) : t.Sound pend := by subst e; exact h

theorem of_admGone {r : Adm} {t : State} (h : r.Sound pend) (e : r = .gone t) : t.Sound pend := by subst e; exact h

/-- The state of a request for cells is well formed. -/
def Cells.Sound (pend : List Instr) : Cells → Prop
  | .ok s _ _ => s.Sound pend
  | .gone s => s.Sound pend
  | .hold => True

theorem cellsOk_ok {s : State} {i : Nat} {k : List Nat} (h : s.Sound pend) : (Cells.ok s i k).Sound pend := h

theorem cellsGone_ok {s : State} (h : s.Sound pend) : (Cells.gone s).Sound pend := h

theorem cellsHold_ok : Cells.hold.Sound pend := trivial

theorem of_cellsOk {r : Cells} {t : State} {i : Nat} {k : List Nat} (h : r.Sound pend) (e : r = .ok t i k) : t.Sound pend := by subst e; exact h

theorem of_cellsGone {r : Cells} {t : State} (h : r.Sound pend) (e : r = .gone t) : t.Sound pend := by subst e; exact h


theorem giveBack_ok {s : State} {l : Nat} {u : LinkUnit} {keep : List Nat} (hs : s.Sound pend) : (giveBack s l u keep).Sound pend := by
  unfold giveBack
  repeat'
    first
    | (with_reducible assumption)
    | ((try lift_lets -underBinder); with_reducible intro x; with_reducible refine hav (p := State.Sound pend x) ?_ (fun _ => ?_); (on_goal 1 => dsimp only [x]); (on_goal 2 => clear_value x))
    | ((try lift_lets -underBinder); with_reducible intro x; refine hav (p := (x : Comp) = x) rfl (fun _ => ?_))
    | ((try lift_lets -underBinder); with_reducible intro x; refine hav (p := (fun y => x y) = x) rfl (fun _ => ?_))
    | ((try lift_lets -underBinder); with_reducible intro x; clear_value x)
    | (with_reducible intro _)
    | (split)
    | (with_reducible refine setPort_ok ?_)
    | (with_reducible refine returnCredit_ok ?_)
    | (with_reducible refine State.Sound.mk' rfl (by first | rfl | simp) rfl ?_)

theorem discard_ok {s : State} {l k : Nat} {u : LinkUnit} (hs : s.Sound pend) : (discard s l k u).Sound pend := by
  unfold discard
  repeat'
    first
    | (with_reducible assumption)
    | ((try lift_lets -underBinder); with_reducible intro x; with_reducible refine hav (p := State.Sound pend x) ?_ (fun _ => ?_); (on_goal 1 => dsimp only [x]); (on_goal 2 => clear_value x))
    | ((try lift_lets -underBinder); with_reducible intro x; refine hav (p := (x : Comp) = x) rfl (fun _ => ?_))
    | ((try lift_lets -underBinder); with_reducible intro x; refine hav (p := (fun y => x y) = x) rfl (fun _ => ?_))
    | ((try lift_lets -underBinder); with_reducible intro x; clear_value x)
    | (with_reducible intro _)
    | (split)
    | (with_reducible refine cntLane_ok ?_)
    | (with_reducible refine giveBack_ok ?_)
    | (with_reducible refine State.Sound.mk' rfl (by first | rfl | simp) rfl ?_)

theorem noteAccepted_ok {s : State} {l : Nat} (hs : s.Sound pend) : (noteAccepted s l).Sound pend := by
  unfold noteAccepted
  repeat'
    first
    | (with_reducible assumption)
    | ((try lift_lets -underBinder); with_reducible intro x; with_reducible refine hav (p := State.Sound pend x) ?_ (fun _ => ?_); (on_goal 1 => dsimp only [x]); (on_goal 2 => clear_value x))
    | ((try lift_lets -underBinder); with_reducible intro x; refine hav (p := (x : Comp) = x) rfl (fun _ => ?_))
    | ((try lift_lets -underBinder); with_reducible intro x; refine hav (p := (fun y => x y) = x) rfl (fun _ => ?_))
    | ((try lift_lets -underBinder); with_reducible intro x; clear_value x)
    | (with_reducible intro _)
    | (split)
    | (with_reducible refine cntLane_ok ?_)
    | (with_reducible refine setTwin_ok ?_)
    | (with_reducible refine State.Sound.mk' rfl (by first | rfl | simp) rfl ?_)

theorem acceptSeq_ok {s : State} {l : Nat} {u : LinkUnit} (hs : s.Sound pend) : (acceptSeq s l u).Sound pend := by
  unfold acceptSeq
  repeat'
    first
    | (with_reducible assumption)
    | ((try lift_lets -underBinder); with_reducible intro x; with_reducible refine hav (p := State.Sound pend x) ?_ (fun _ => ?_); (on_goal 1 => dsimp only [x]); (on_goal 2 => clear_value x))
    | ((try lift_lets -underBinder); with_reducible intro x; refine hav (p := (x : Comp) = x) rfl (fun _ => ?_))
    | ((try lift_lets -underBinder); with_reducible intro x; refine hav (p := (fun y => x y) = x) rfl (fun _ => ?_))
    | ((try lift_lets -underBinder); with_reducible intro x; clear_value x)
    | (with_reducible intro _)
    | (split)
    | (with_reducible refine setLane_ok ?_)
    | (with_reducible refine noteAccepted_ok ?_)
    | (dsimp only)
    | (with_reducible refine State.Sound.mk' rfl (by first | rfl | simp) rfl ?_)

theorem mirrorUnit_ok {s : State} {p : Nat} {u : LinkUnit} (hs : s.Sound pend) : (mirrorUnit s p u).Sound pend := by
  unfold mirrorUnit
  repeat'
    first
    | (with_reducible assumption)
    | ((try lift_lets -underBinder); with_reducible intro x; with_reducible refine hav (p := State.Sound pend x) ?_ (fun _ => ?_); (on_goal 1 => dsimp only [x]); (on_goal 2 => clear_value x))
    | ((try lift_lets -underBinder); with_reducible intro x; refine hav (p := (x : Comp) = x) rfl (fun _ => ?_))
    | ((try lift_lets -underBinder); with_reducible intro x; refine hav (p := (fun y => x y) = x) rfl (fun _ => ?_))
    | ((try lift_lets -underBinder); with_reducible intro x; clear_value x)
    | (with_reducible intro _)
    | (split)
    | (with_reducible refine setPort_ok ?_)
    | (dsimp only)
    | (with_reducible refine State.Sound.mk' rfl (by first | rfl | simp) rfl ?_)

theorem meterUnit_ok {s : State} {p : Nat} {u : LinkUnit} (hs : s.Sound pend) : (meterUnit s p u).1.Sound pend := by
  unfold meterUnit
  repeat'
    first
    | (with_reducible assumption)
    | ((try lift_lets -underBinder); with_reducible intro x; with_reducible refine hav (p := State.Sound pend x) ?_ (fun _ => ?_); (on_goal 1 => dsimp only [x]); (on_goal 2 => clear_value x))
    | ((try lift_lets -underBinder); with_reducible intro x; refine hav (p := (x : Comp) = x) rfl (fun _ => ?_))
    | ((try lift_lets -underBinder); with_reducible intro x; refine hav (p := (fun y => x y) = x) rfl (fun _ => ?_))
    | ((try lift_lets -underBinder); with_reducible intro x; clear_value x)
    | (with_reducible intro _)
    | (split)
    | (with_reducible refine setPort_ok ?_)
    | (dsimp only)
    | (with_reducible refine State.Sound.mk' rfl (by first | rfl | simp) rfl ?_)

theorem yellowDrop_ok {s : State} {p job : Nat} (hs : s.Sound pend) : (yellowDrop s p job).Sound pend := by
  unfold yellowDrop
  repeat'
    first
    | (with_reducible assumption)
    | ((try lift_lets -underBinder); with_reducible intro x; with_reducible refine hav (p := State.Sound pend x) ?_ (fun _ => ?_); (on_goal 1 => dsimp only [x]); (on_goal 2 => clear_value x))
    | ((try lift_lets -underBinder); with_reducible intro x; refine hav (p := (x : Comp) = x) rfl (fun _ => ?_))
    | ((try lift_lets -underBinder); with_reducible intro x; refine hav (p := (fun y => x y) = x) rfl (fun _ => ?_))
    | ((try lift_lets -underBinder); with_reducible intro x; clear_value x)
    | (with_reducible intro _)
    | (split)
    | (with_reducible refine setPort_ok ?_)
    | (with_reducible refine State.Sound.mk' rfl (by first | rfl | simp) rfl ?_)

theorem halfError_ok {s : State} {job rank : Nat} (hs : s.Sound pend) : (halfError s job rank).Sound pend := by
  unfold halfError
  repeat'
    first
    | (with_reducible assumption)
    | ((try lift_lets -underBinder); with_reducible intro x; with_reducible refine hav (p := State.Sound pend x) ?_ (fun _ => ?_); (on_goal 1 => dsimp only [x]); (on_goal 2 => clear_value x))
    | ((try lift_lets -underBinder); with_reducible intro x; refine hav (p := (x : Comp) = x) rfl (fun _ => ?_))
    | ((try lift_lets -underBinder); with_reducible intro x; refine hav (p := (fun y => x y) = x) rfl (fun _ => ?_))
    | ((try lift_lets -underBinder); with_reducible intro x; clear_value x)
    | (with_reducible intro _)
    | (split)
    | (with_reducible refine setJob_ok ?_)
    | (with_reducible refine State.Sound.mk' rfl (by first | rfl | simp) rfl ?_)

theorem dupError_ok {s : State} {job : Nat} (hs : s.Sound pend) : (dupError s job).Sound pend := by
  unfold dupError
  repeat'
    first
    | (with_reducible assumption)
    | ((try lift_lets -underBinder); with_reducible intro x; with_reducible refine hav (p := State.Sound pend x) ?_ (fun _ => ?_); (on_goal 1 => dsimp only [x]); (on_goal 2 => clear_value x))
    | ((try lift_lets -underBinder); with_reducible intro x; refine hav (p := (x : Comp) = x) rfl (fun _ => ?_))
    | ((try lift_lets -underBinder); with_reducible intro x; refine hav (p := (fun y => x y) = x) rfl (fun _ => ?_))
    | ((try lift_lets -underBinder); with_reducible intro x; clear_value x)
    | (with_reducible intro _)
    | (split)
    | (with_reducible refine setJob_ok ?_)
    | (with_reducible refine State.Sound.mk' rfl (by first | rfl | simp) rfl ?_)

theorem judgeColl_ok {s : State} {l : Nat} {u : LinkUnit} (hs : s.Sound pend) : (judgeColl s l u).Sound pend := by
  unfold judgeColl
  repeat'
    first
    | (with_reducible assumption)
    | ((try lift_lets -underBinder); with_reducible intro x; with_reducible refine hav (p := State.Sound pend x) ?_ (fun _ => ?_); (on_goal 1 => dsimp only [x]); (on_goal 2 => clear_value x))
    | ((try lift_lets -underBinder); with_reducible intro x; refine hav (p := (x : Comp) = x) rfl (fun _ => ?_))
    | ((try lift_lets -underBinder); with_reducible intro x; refine hav (p := (fun y => x y) = x) rfl (fun _ => ?_))
    | ((try lift_lets -underBinder); with_reducible intro x; clear_value x)
    | (with_reducible intro _)
    | (split)
    | (with_reducible refine cntLane_ok ?_)
    | (with_reducible refine setJob_ok ?_)
    | (with_reducible refine windowError_ok ?_)
    | (with_reducible refine halfError_ok ?_)
    | (with_reducible exact verdictTake_ok)
    | (with_reducible refine verdictDrop_ok ?_)
    | (with_reducible refine of_verdict ?_ (by assumption))
    | (with_reducible refine State.Sound.mk' rfl (by first | rfl | simp) rfl ?_)

theorem heldCheck_ok {s : State} {l ep : Nat} {e : CollEntry} {u : LinkUnit} (hs : s.Sound pend) : OptSound pend (heldCheck s l ep e u) := by
  unfold heldCheck
  repeat'
    first
    | (with_reducible assumption)
    | ((try lift_lets -underBinder); with_reducible intro x; with_reducible refine hav (p := State.Sound pend x) ?_ (fun _ => ?_); (on_goal 1 => dsimp only [x]); (on_goal 2 => clear_value x))
    | ((try lift_lets -underBinder); with_reducible intro x; refine hav (p := (x : Comp) = x) rfl (fun _ => ?_))
    | ((try lift_lets -underBinder); with_reducible intro x; refine hav (p := (fun y => x y) = x) rfl (fun _ => ?_))
    | ((try lift_lets -underBinder); with_reducible intro x; clear_value x)
    | (with_reducible intro _)
    | (split)
    | (with_reducible refine cntLane_ok ?_)
    | (with_reducible refine icnt_ok ?_)
    | (with_reducible refine dupError_ok ?_)
    | (with_reducible exact none_ok)
    | (with_reducible refine some_ok ?_)
    | (with_reducible refine of_some ?_ (by assumption))
    | (with_reducible refine State.Sound.mk' rfl (by first | rfl | simp) rfl ?_)

theorem placeFrame_ok {s : State} {ep : Nat} {e : CollEntry} {u : LinkUnit} {a : Option (Nat × Nat)} (hs : s.Sound pend) : (placeFrame s ep e u a).Sound pend := by
  unfold placeFrame
  repeat'
    first
    | (with_reducible assumption)
    | ((try lift_lets -underBinder); with_reducible intro x; with_reducible refine hav (p := State.Sound pend x) ?_ (fun _ => ?_); (on_goal 1 => dsimp only [x]); (on_goal 2 => clear_value x))
    | ((try lift_lets -underBinder); with_reducible intro x; refine hav (p := (x : Comp) = x) rfl (fun _ => ?_))
    | ((try lift_lets -underBinder); with_reducible intro x; refine hav (p := (fun y => x y) = x) rfl (fun _ => ?_))
    | ((try lift_lets -underBinder); with_reducible intro x; clear_value x)
    | (with_reducible intro _)
    | (split)
    | (with_reducible refine setColl_ok ?_)
    | (with_reducible refine chargeEarly_ok ?_)
    | (with_reducible refine answerInput_ok ?_)
    | (dsimp only)
    | (with_reducible refine State.Sound.mk' rfl (by first | rfl | simp) rfl ?_)

theorem digestCheck_ok {s : State} {ep : Nat} {e : CollEntry} {u : LinkUnit} (hs : s.Sound pend) : OptSound pend (digestCheck s ep e u) := by
  unfold digestCheck
  repeat'
    first
    | (with_reducible assumption)
    | ((try lift_lets -underBinder); with_reducible intro x; with_reducible refine hav (p := State.Sound pend x) ?_ (fun _ => ?_); (on_goal 1 => dsimp only [x]); (on_goal 2 => clear_value x))
    | ((try lift_lets -underBinder); with_reducible intro x; refine hav (p := (x : Comp) = x) rfl (fun _ => ?_))
    | ((try lift_lets -underBinder); with_reducible intro x; refine hav (p := (fun y => x y) = x) rfl (fun _ => ?_))
    | ((try lift_lets -underBinder); with_reducible intro x; clear_value x)
    | (with_reducible intro _)
    | (split)
    | (with_reducible refine originate_ok ?_)
    | (with_reducible refine icnt_ok ?_)
    | (dsimp only)
    | (with_reducible exact none_ok)
    | (with_reducible refine some_ok ?_)
    | (with_reducible refine of_some ?_ (by assumption))
    | (with_reducible refine State.Sound.mk' rfl (by first | rfl | simp) rfl ?_)

theorem placeDigest_ok {s : State} {ep : Nat} {e : CollEntry} {u : LinkUnit} {a : Option (Nat × Nat)} (hs : s.Sound pend) : (placeDigest s ep e u a).Sound pend := by
  unfold placeDigest
  repeat'
    first
    | (with_reducible assumption)
    | ((try lift_lets -underBinder); with_reducible intro x; with_reducible refine hav (p := State.Sound pend x) ?_ (fun _ => ?_); (on_goal 1 => dsimp only [x]); (on_goal 2 => clear_value x))
    | ((try lift_lets -underBinder); with_reducible intro x; refine hav (p := (x : Comp) = x) rfl (fun _ => ?_))
    | ((try lift_lets -underBinder); with_reducible intro x; refine hav (p := (fun y => x y) = x) rfl (fun _ => ?_))
    | ((try lift_lets -underBinder); with_reducible intro x; clear_value x)
    | (with_reducible intro _)
    | (split)
    | (with_reducible refine setColl_ok ?_)
    | (with_reducible refine chargeEarly_ok ?_)
    | (with_reducible refine answerInput_ok ?_)
    | (dsimp only)
    | (with_reducible refine State.Sound.mk' rfl (by first | rfl | simp) rfl ?_)

theorem placeExpress_ok {s : State} {ep : Nat} {e : CollEntry} {u : LinkUnit} {a : Nat × Nat} (hs : s.Sound pend) : (placeExpress s ep e u a).Sound pend := by
  unfold placeExpress
  repeat'
    first
    | (with_reducible assumption)
    | ((try lift_lets -underBinder); with_reducible intro x; with_reducible refine hav (p := State.Sound pend x) ?_ (fun _ => ?_); (on_goal 1 => dsimp only [x]); (on_goal 2 => clear_value x))
    | ((try lift_lets -underBinder); with_reducible intro x; refine hav (p := (x : Comp) = x) rfl (fun _ => ?_))
    | ((try lift_lets -underBinder); with_reducible intro x; refine hav (p := (fun y => x y) = x) rfl (fun _ => ?_))
    | ((try lift_lets -underBinder); with_reducible intro x; clear_value x)
    | (with_reducible intro _)
    | (split)
    | (with_reducible refine setColl_ok ?_)
    | (with_reducible refine chargeEarly_ok ?_)
    | (dsimp only)
    | (with_reducible refine State.Sound.mk' rfl (by first | rfl | simp) rfl ?_)

theorem recvAbort_ok {s : State} {u : LinkUnit} (hs : s.Sound pend) : (recvAbort s u).Sound pend := by
  unfold recvAbort
  repeat'
    first
    | (with_reducible assumption)
    | ((try lift_lets -underBinder); with_reducible intro x; with_reducible refine hav (p := State.Sound pend x) ?_ (fun _ => ?_); (on_goal 1 => dsimp only [x]); (on_goal 2 => clear_value x))
    | ((try lift_lets -underBinder); with_reducible intro x; refine hav (p := (x : Comp) = x) rfl (fun _ => ?_))
    | ((try lift_lets -underBinder); with_reducible intro x; refine hav (p := (fun y => x y) = x) rfl (fun _ => ?_))
    | ((try lift_lets -underBinder); with_reducible intro x; clear_value x)
    | (with_reducible intro _)
    | (split)
    | (with_reducible refine setJob_ok ?_)
    | (with_reducible refine windowError_ok ?_)
    | (with_reducible refine abortColl_ok ?_)
    | (dsimp only)
    | (with_reducible refine State.Sound.mk' rfl (by first | rfl | simp) rfl ?_)

theorem controlUnit_ok {s : State} {l : Nat} {u : LinkUnit} (hs : s.Sound pend) : (controlUnit s l u).Sound pend := by
  unfold controlUnit
  repeat'
    first
    | (with_reducible assumption)
    | ((try lift_lets -underBinder); with_reducible intro x; with_reducible refine hav (p := State.Sound pend x) ?_ (fun _ => ?_); (on_goal 1 => dsimp only [x]); (on_goal 2 => clear_value x))
    | ((try lift_lets -underBinder); with_reducible intro x; refine hav (p := (x : Comp) = x) rfl (fun _ => ?_))
    | ((try lift_lets -underBinder); with_reducible intro x; refine hav (p := (fun y => x y) = x) rfl (fun _ => ?_))
    | ((try lift_lets -underBinder); with_reducible intro x; clear_value x)
    | (with_reducible intro _)
    | (split)
    | (with_reducible refine recvAck_ok ?_)
    | (with_reducible refine recvRetract_ok ?_)
    | (with_reducible refine recvStretch_ok ?_)
    | (with_reducible refine recvNak_ok ?_)
    | (with_reducible refine recvVote_ok ?_)
    | (with_reducible refine noteBcastAck_ok ?_)
    | (with_reducible refine recvAbort_ok ?_)
    | (with_reducible refine State.Sound.mk' rfl (by first | rfl | simp) rfl ?_)

theorem serveImage_ok {s : State} {u : LinkUnit} (hs : s.Sound pend) : (serveImage s u).Sound pend := by
  unfold serveImage
  repeat'
    first
    | (with_reducible assumption)
    | ((try lift_lets -underBinder); with_reducible intro x; with_reducible refine hav (p := State.Sound pend x) ?_ (fun _ => ?_); (on_goal 1 => dsimp only [x]); (on_goal 2 => clear_value x))
    | ((try lift_lets -underBinder); with_reducible intro x; refine hav (p := (x : Comp) = x) rfl (fun _ => ?_))
    | ((try lift_lets -underBinder); with_reducible intro x; refine hav (p := (fun y => x y) = x) rfl (fun _ => ?_))
    | ((try lift_lets -underBinder); with_reducible intro x; clear_value x)
    | (with_reducible intro _)
    | (split)
    | (with_reducible refine sendTwin_ok ?_)
    | (with_reducible refine foldl_ok (fun _ _ _ => ?_) ?_)
    | (with_reducible refine State.Sound.mk' rfl (by first | rfl | simp) rfl ?_)

theorem recvImage_ok {s : State} {u : LinkUnit} (hs : s.Sound pend) : (recvImage s u).Sound pend := by
  unfold recvImage
  repeat'
    first
    | (with_reducible assumption)
    | ((try lift_lets -underBinder); with_reducible intro x; with_reducible refine hav (p := State.Sound pend x) ?_ (fun _ => ?_); (on_goal 1 => dsimp only [x]); (on_goal 2 => clear_value x))
    | ((try lift_lets -underBinder); with_reducible intro x; refine hav (p := (x : Comp) = x) rfl (fun _ => ?_))
    | ((try lift_lets -underBinder); with_reducible intro x; refine hav (p := (fun y => x y) = x) rfl (fun _ => ?_))
    | ((try lift_lets -underBinder); with_reducible intro x; clear_value x)
    | (with_reducible intro _)
    | (split)
    | (with_reducible refine setTwin_ok ?_)
    | (dsimp only)
    | (with_reducible refine State.Sound.mk' rfl (by first | rfl | simp) rfl ?_)

theorem serviceUnit_ok {s : State} {u : LinkUnit} (hs : s.Sound pend) : (serviceUnit s u).Sound pend := by
  unfold serviceUnit
  repeat'
    first
    | (with_reducible assumption)
    | ((try lift_lets -underBinder); with_reducible intro x; with_reducible refine hav (p := State.Sound pend x) ?_ (fun _ => ?_); (on_goal 1 => dsimp only [x]); (on_goal 2 => clear_value x))
    | ((try lift_lets -underBinder); with_reducible intro x; refine hav (p := (x : Comp) = x) rfl (fun _ => ?_))
    | ((try lift_lets -underBinder); with_reducible intro x; refine hav (p := (fun y => x y) = x) rfl (fun _ => ?_))
    | ((try lift_lets -underBinder); with_reducible intro x; clear_value x)
    | (with_reducible intro _)
    | (split)
    | (with_reducible refine recvHello_ok ?_)
    | (with_reducible refine recvLeave_ok ?_)
    | (with_reducible refine recvFlip_ok ?_)
    | (with_reducible refine recvTwinVote_ok ?_)
    | (with_reducible refine noteSyncing_ok ?_)
    | (with_reducible refine serveImage_ok ?_)
    | (with_reducible refine recvImage_ok ?_)
    | (with_reducible refine State.Sound.mk' rfl (by first | rfl | simp) rfl ?_)

theorem takeCells_ok {s : State} {inst q p : Nat} {u : LinkUnit} {yellow : Bool} (hs : s.Sound pend) :
    (takeCells s inst q p u yellow).Sound pend := by
  have key : ∀ {c : Prop} [Decidable c] {a b : Cells}, a.Sound pend → b.Sound pend → (if c then a else b).Sound pend := by
    intro c _ a b ha hb; split <;> assumption
  unfold takeCells; dsimp only
  split
  · trivial
  · split
    · refine key (yellowDrop_ok hs) (key (cntBpm_ok hs) ?_)
      split
      · exact of_granted (bpmAlloc_ok hs) (by assumption)
      · trivial
    · trivial

theorem crossBuffer_ok {s : State} {p : Nat} {u : LinkUnit} {yellow : Bool} (hs : s.Sound pend) : (crossBuffer s p u yellow).Sound pend := by
  unfold crossBuffer
  repeat'
    first
    | (with_reducible assumption)
    | ((try lift_lets -underBinder); with_reducible intro x; with_reducible refine hav (p := State.Sound pend x) ?_ (fun _ => ?_); (on_goal 1 => dsimp only [x]); (on_goal 2 => clear_value x))
    | ((try lift_lets -underBinder); with_reducible intro x; refine hav (p := (x : Comp) = x) rfl (fun _ => ?_))
    | ((try lift_lets -underBinder); with_reducible intro x; refine hav (p := (fun y => x y) = x) rfl (fun _ => ?_))
    | ((try lift_lets -underBinder); with_reducible intro x; clear_value x)
    | (with_reducible intro _)
    | (split)
    | (with_reducible refine dropAlloc_ok ?_)
    | (with_reducible refine takeCells_ok ?_)
    | (with_reducible exact cellsHold_ok)
    | (with_reducible refine cellsOk_ok ?_)
    | (with_reducible refine cellsGone_ok ?_)
    | (with_reducible refine of_cellsOk ?_ (by assumption))
    | (with_reducible refine of_cellsGone ?_ (by assumption))
    | (with_reducible refine State.Sound.mk' rfl (by first | rfl | simp) rfl ?_)

theorem crossing_ok {s : State} {p : Nat} {u : LinkUnit} {yellow : Bool} {f : State → Adm} (hs : s.Sound pend) (hf : ∀ x0, x0.Sound pend → (f x0).Sound pend) : (crossing s p u yellow f).Sound pend := by
  unfold crossing
  repeat'
    first
    | (with_reducible assumption)
    | ((try lift_lets -underBinder); with_reducible intro x; with_reducible refine hav (p := State.Sound pend x) ?_ (fun _ => ?_); (on_goal 1 => dsimp only [x]); (on_goal 2 => clear_value x))
    | ((try lift_lets -underBinder); with_reducible intro x; refine hav (p := (x : Comp) = x) rfl (fun _ => ?_))
    | ((try lift_lets -underBinder); with_reducible intro x; refine hav (p := (fun y => x y) = x) rfl (fun _ => ?_))
    | ((try lift_lets -underBinder); with_reducible intro x; clear_value x)
    | (with_reducible intro _)
    | (split)
    | (with_reducible refine crossBuffer_ok ?_)
    | (with_reducible refine hf _ ?_)
    | (with_reducible exact admHold_ok)
    | (with_reducible refine admOk_ok ?_)
    | (with_reducible refine admGone_ok ?_)
    | (with_reducible refine of_admOk ?_ (by assumption))
    | (with_reducible refine of_admGone ?_ (by assumption))
    | (with_reducible exact cellsHold_ok)
    | (with_reducible refine cellsOk_ok ?_)
    | (with_reducible refine cellsGone_ok ?_)
    | (with_reducible refine of_cellsOk ?_ (by assumption))
    | (with_reducible refine of_cellsGone ?_ (by assumption))
    | (with_reducible refine State.Sound.mk' rfl (by first | rfl | simp) rfl ?_)

theorem deliverDie_ok {s : State} {l p q d : Nat} {u : LinkUnit} {yellow : Bool} (hs : s.Sound pend) : (deliverDie s l p q d u yellow).Sound pend := by
  unfold deliverDie
  repeat'
    first
    | (with_reducible assumption)
    | ((try lift_lets -underBinder); with_reducible intro x; with_reducible refine hav (p := State.Sound pend x) ?_ (fun _ => ?_); (on_goal 1 => dsimp only [x]); (on_goal 2 => clear_value x))
    | ((try lift_lets -underBinder); with_reducible intro x; refine hav (p := (x : Comp) = x) rfl (fun _ => ?_))
    | ((try lift_lets -underBinder); with_reducible intro x; refine hav (p := (fun y => x y) = x) rfl (fun _ => ?_))
    | ((try lift_lets -underBinder); with_reducible intro x; clear_value x)
    | (with_reducible intro _)
    | (split)
    | (with_reducible refine cntLane_ok ?_)
    | (with_reducible refine recvGrad_ok ?_)
    | (with_reducible refine recvSync_ok ?_)
    | (with_reducible refine dupError_ok ?_)
    | (with_reducible refine judgeColl_ok ?_)
    | (with_reducible refine heldCheck_ok ?_)
    | (with_reducible refine placeFrame_ok ?_)
    | (with_reducible refine digestCheck_ok ?_)
    | (with_reducible refine placeDigest_ok ?_)
    | (with_reducible refine placeExpress_ok ?_)
    | (with_reducible refine takeCells_ok ?_)
    | (with_reducible refine crossing_ok ?_ ?_)
    | (dsimp only)
    | (with_reducible exact verdictTake_ok)
    | (with_reducible refine verdictDrop_ok ?_)
    | (with_reducible refine of_verdict ?_ (by assumption))
    | (with_reducible exact admHold_ok)
    | (with_reducible refine admOk_ok ?_)
    | (with_reducible refine admGone_ok ?_)
    | (with_reducible refine of_admOk ?_ (by assumption))
    | (with_reducible refine of_admGone ?_ (by assumption))
    | (with_reducible exact cellsHold_ok)
    | (with_reducible refine cellsOk_ok ?_)
    | (with_reducible refine cellsGone_ok ?_)
    | (with_reducible refine of_cellsOk ?_ (by assumption))
    | (with_reducible refine of_cellsGone ?_ (by assumption))
    | (with_reducible exact none_ok)
    | (with_reducible refine some_ok ?_)
    | (with_reducible refine of_some ?_ (by assumption))
    | (with_reducible refine State.Sound.mk' rfl (by first | rfl | simp) rfl ?_)

theorem place_ok {s : State} {l p : Nat} {d : Dest} {u : LinkUnit} {yellow : Bool} (hs : s.Sound pend) : (place s l p d u yellow).Sound pend := by
  unfold place
  repeat'
    first
    | (with_reducible assumption)
    | ((try lift_lets -underBinder); with_reducible intro x; with_reducible refine hav (p := State.Sound pend x) ?_ (fun _ => ?_); (on_goal 1 => dsimp only [x]); (on_goal 2 => clear_value x))
    | ((try lift_lets -underBinder); with_reducible intro x; refine hav (p := (x : Comp) = x) rfl (fun _ => ?_))
    | ((try lift_lets -underBinder); with_reducible intro x; refine hav (p := (fun y => x y) = x) rfl (fun _ => ?_))
    | ((try lift_lets -underBinder); with_reducible intro x; clear_value x)
    | (with_reducible intro _)
    | (split)
    | (with_reducible refine enqueue_ok ?_)
    | (with_reducible refine controlUnit_ok ?_)
    | (with_reducible refine serviceUnit_ok ?_)
    | (with_reducible refine takeCells_ok ?_)
    | (with_reducible refine crossBuffer_ok ?_)
    | (with_reducible refine deliverDie_ok ?_)
    | (dsimp only)
    | (with_reducible exact admHold_ok)
    | (with_reducible refine admOk_ok ?_)
    | (with_reducible refine admGone_ok ?_)
    | (with_reducible refine of_admOk ?_ (by assumption))
    | (with_reducible refine of_admGone ?_ (by assumption))
    | (with_reducible exact cellsHold_ok)
    | (with_reducible refine cellsOk_ok ?_)
    | (with_reducible refine cellsGone_ok ?_)
    | (with_reducible refine of_cellsOk ?_ (by assumption))
    | (with_reducible refine of_cellsGone ?_ (by assumption))
    | (with_reducible refine State.Sound.mk' rfl (by first | rfl | simp) rfl ?_)

theorem admitUnit_ok {s : State} {l p : Nat} {d : Dest} {u : LinkUnit} {yellow : Bool} (hs : s.Sound pend) : (admitUnit s l p d u yellow).Sound pend := by
  unfold admitUnit
  repeat'
    first
    | (with_reducible assumption)
    | ((try lift_lets -underBinder); with_reducible intro x; with_reducible refine hav (p := State.Sound pend x) ?_ (fun _ => ?_); (on_goal 1 => dsimp only [x]); (on_goal 2 => clear_value x))
    | ((try lift_lets -underBinder); with_reducible intro x; refine hav (p := (x : Comp) = x) rfl (fun _ => ?_))
    | ((try lift_lets -underBinder); with_reducible intro x; refine hav (p := (fun y => x y) = x) rfl (fun _ => ?_))
    | ((try lift_lets -underBinder); with_reducible intro x; clear_value x)
    | (with_reducible intro _)
    | (split)
    | (with_reducible refine setPort_ok ?_)
    | (with_reducible refine giveBack_ok ?_)
    | (with_reducible refine place_ok ?_)
    | (dsimp only)
    | (with_reducible exact admHold_ok)
    | (with_reducible refine admOk_ok ?_)
    | (with_reducible refine admGone_ok ?_)
    | (with_reducible refine of_admOk ?_ (by assumption))
    | (with_reducible refine of_admGone ?_ (by assumption))
    | (with_reducible refine State.Sound.mk' rfl (by first | rfl | simp) rfl ?_)

theorem ingress_ok {s : State} {l p : Nat} {u : LinkUnit} (hs : s.Sound pend) : (ingress s l p u).Sound pend := by
  unfold ingress
  repeat'
    first
    | (with_reducible assumption)
    | ((try lift_lets -underBinder); with_reducible intro x; with_reducible refine hav (p := State.Sound pend x) ?_ (fun _ => ?_); (on_goal 1 => dsimp only [x]); (on_goal 2 => clear_value x))
    | ((try lift_lets -underBinder); with_reducible intro x; refine hav (p := (x : Comp) = x) rfl (fun _ => ?_))
    | ((try lift_lets -underBinder); with_reducible intro x; refine hav (p := (fun y => x y) = x) rfl (fun _ => ?_))
    | ((try lift_lets -underBinder); with_reducible intro x; clear_value x)
    | (with_reducible intro _)
    | (split)
    | (with_reducible refine setPort_ok ?_)
    | (with_reducible refine cntBpm_ok ?_)
    | (with_reducible refine giveBack_ok ?_)
    | (with_reducible refine discard_ok ?_)
    | (with_reducible refine mirrorUnit_ok ?_)
    | (with_reducible refine meterUnit_ok ?_)
    | (with_reducible refine admitUnit_ok ?_)
    | (dsimp only)
    | (with_reducible refine pair1_ok ?_ (by assumption))
    | (with_reducible refine State.Sound.mk' rfl (by first | rfl | simp) rfl ?_)

theorem recvCredit_ok {s : State} {l p : Nat} {u : LinkUnit} (hs : s.Sound pend) : (recvCredit s l p u).Sound pend := by
  unfold recvCredit
  repeat'
    first
    | (with_reducible assumption)
    | ((try lift_lets -underBinder); with_reducible intro x; with_reducible refine hav (p := State.Sound pend x) ?_ (fun _ => ?_); (on_goal 1 => dsimp only [x]); (on_goal 2 => clear_value x))
    | ((try lift_lets -underBinder); with_reducible intro x; refine hav (p := (x : Comp) = x) rfl (fun _ => ?_))
    | ((try lift_lets -underBinder); with_reducible intro x; refine hav (p := (fun y => x y) = x) rfl (fun _ => ?_))
    | ((try lift_lets -underBinder); with_reducible intro x; clear_value x)
    | (with_reducible intro _)
    | (split)
    | (with_reducible refine setLane_ok ?_)
    | (with_reducible refine setPort_ok ?_)
    | (with_reducible refine ackLane_ok ?_)
    | (with_reducible refine foldl_ok (fun _ _ _ => ?_) ?_)
    | (with_reducible refine State.Sound.mk' rfl (by first | rfl | simp) rfl ?_)

theorem recvLinkNak_ok {s : State} {l p : Nat} {u : LinkUnit} (hs : s.Sound pend) : (recvLinkNak s l p u).Sound pend := by
  unfold recvLinkNak
  repeat'
    first
    | (with_reducible assumption)
    | ((try lift_lets -underBinder); with_reducible intro x; with_reducible refine hav (p := State.Sound pend x) ?_ (fun _ => ?_); (on_goal 1 => dsimp only [x]); (on_goal 2 => clear_value x))
    | ((try lift_lets -underBinder); with_reducible intro x; refine hav (p := (x : Comp) = x) rfl (fun _ => ?_))
    | ((try lift_lets -underBinder); with_reducible intro x; refine hav (p := (fun y => x y) = x) rfl (fun _ => ?_))
    | ((try lift_lets -underBinder); with_reducible intro x; clear_value x)
    | (with_reducible intro _)
    | (split)
    | (with_reducible refine setLane_ok ?_)
    | (with_reducible refine cntLane_ok ?_)
    | (with_reducible refine startRound_ok ?_)
    | (with_reducible refine State.Sound.mk' rfl (by first | rfl | simp) rfl ?_)

theorem linkLocal_ok {s : State} {l p : Nat} {u : LinkUnit} (hs : s.Sound pend) : (linkLocal s l p u).Sound pend := by
  unfold linkLocal
  repeat'
    first
    | (with_reducible assumption)
    | ((try lift_lets -underBinder); with_reducible intro x; with_reducible refine hav (p := State.Sound pend x) ?_ (fun _ => ?_); (on_goal 1 => dsimp only [x]); (on_goal 2 => clear_value x))
    | ((try lift_lets -underBinder); with_reducible intro x; refine hav (p := (x : Comp) = x) rfl (fun _ => ?_))
    | ((try lift_lets -underBinder); with_reducible intro x; refine hav (p := (fun y => x y) = x) rfl (fun _ => ?_))
    | ((try lift_lets -underBinder); with_reducible intro x; clear_value x)
    | (with_reducible intro _)
    | (split)
    | (with_reducible refine recvTime_ok ?_)
    | (with_reducible refine recvCredit_ok ?_)
    | (with_reducible refine recvLinkNak_ok ?_)
    | (with_reducible refine State.Sound.mk' rfl (by first | rfl | simp) rfl ?_)

theorem receiveSeq_ok {s : State} {l p : Nat} {u : LinkUnit} (hs : s.Sound pend) : (receiveSeq s l p u).Sound pend := by
  unfold receiveSeq
  repeat'
    first
    | (with_reducible assumption)
    | ((try lift_lets -underBinder); with_reducible intro x; with_reducible refine hav (p := State.Sound pend x) ?_ (fun _ => ?_); (on_goal 1 => dsimp only [x]); (on_goal 2 => clear_value x))
    | ((try lift_lets -underBinder); with_reducible intro x; refine hav (p := (x : Comp) = x) rfl (fun _ => ?_))
    | ((try lift_lets -underBinder); with_reducible intro x; refine hav (p := (fun y => x y) = x) rfl (fun _ => ?_))
    | ((try lift_lets -underBinder); with_reducible intro x; clear_value x)
    | (with_reducible intro _)
    | (split)
    | (with_reducible refine cntLane_ok ?_)
    | (with_reducible refine sendNak_ok ?_)
    | (with_reducible refine acceptSeq_ok ?_)
    | (with_reducible refine ingress_ok ?_)
    | (dsimp only)
    | (with_reducible refine State.Sound.mk' rfl (by first | rfl | simp) rfl ?_)

theorem receive_ok {s : State} {l : Nat} {u : LinkUnit} (hs : s.Sound pend) : (receive s l u).Sound pend := by
  unfold receive
  repeat'
    first
    | (with_reducible assumption)
    | ((try lift_lets -underBinder); with_reducible intro x; with_reducible refine hav (p := State.Sound pend x) ?_ (fun _ => ?_); (on_goal 1 => dsimp only [x]); (on_goal 2 => clear_value x))
    | ((try lift_lets -underBinder); with_reducible intro x; refine hav (p := (x : Comp) = x) rfl (fun _ => ?_))
    | ((try lift_lets -underBinder); with_reducible intro x; refine hav (p := (fun y => x y) = x) rfl (fun _ => ?_))
    | ((try lift_lets -underBinder); with_reducible intro x; clear_value x)
    | (with_reducible intro _)
    | (split)
    | (with_reducible refine cntLane_ok ?_)
    | (with_reducible refine sendNak_ok ?_)
    | (with_reducible refine noteAccepted_ok ?_)
    | (with_reducible refine linkLocal_ok ?_)
    | (with_reducible refine receiveSeq_ok ?_)
    | (with_reducible refine State.Sound.mk' rfl (by first | rfl | simp) rfl ?_)

theorem receiveAs_ok {typ : Nat} {l : Nat} {u : LinkUnit} {s : State} (hs : s.Sound pend) : (receiveAs typ l u s).Sound pend := receive_ok hs

theorem receiveTwin_ok {sub : Nat} {l : Nat} {u : LinkUnit} {s : State} (hs : s.Sound pend) : (receiveTwin sub l u s).Sound pend := receiveAs_ok hs

theorem receiveImage_ok {request : Bool} {l : Nat} {u : LinkUnit} {s : State} (hs : s.Sound pend) : (receiveImage request l u s).Sound pend := by
  unfold receiveImage
  repeat'
    first
    | (with_reducible assumption)
    | ((try lift_lets -underBinder); with_reducible intro x; with_reducible refine hav (p := State.Sound pend x) ?_ (fun _ => ?_); (on_goal 1 => dsimp only [x]); (on_goal 2 => clear_value x))
    | ((try lift_lets -underBinder); with_reducible intro x; refine hav (p := (x : Comp) = x) rfl (fun _ => ?_))
    | ((try lift_lets -underBinder); with_reducible intro x; refine hav (p := (fun y => x y) = x) rfl (fun _ => ?_))
    | ((try lift_lets -underBinder); with_reducible intro x; clear_value x)
    | (with_reducible intro _)
    | (split)
    | (with_reducible refine receiveTwin_ok ?_)
    | (with_reducible refine State.Sound.mk' rfl (by first | rfl | simp) rfl ?_)

theorem doDelimitationLost_ok {l : Nat} {s : State} (hs : s.Sound pend) : (doDelimitationLost l s).Sound pend := by
  unfold doDelimitationLost
  repeat'
    first
    | (with_reducible assumption)
    | ((try lift_lets -underBinder); with_reducible intro x; with_reducible refine hav (p := State.Sound pend x) ?_ (fun _ => ?_); (on_goal 1 => dsimp only [x]); (on_goal 2 => clear_value x))
    | ((try lift_lets -underBinder); with_reducible intro x; refine hav (p := (x : Comp) = x) rfl (fun _ => ?_))
    | ((try lift_lets -underBinder); with_reducible intro x; refine hav (p := (fun y => x y) = x) rfl (fun _ => ?_))
    | ((try lift_lets -underBinder); with_reducible intro x; clear_value x)
    | (with_reducible intro _)
    | (split)
    | (with_reducible refine cntLane_ok ?_)
    | (with_reducible refine sendNak_ok ?_)
    | (with_reducible refine State.Sound.mk' rfl (by first | rfl | simp) rfl ?_)

theorem retryHeld_ok {s : State} {p : Nat} {h : HeldUnit} (hs : s.Sound pend) : OptSound pend (retryHeld s p h) := by
  unfold retryHeld
  repeat'
    first
    | (with_reducible assumption)
    | ((try lift_lets -underBinder); with_reducible intro x; with_reducible refine hav (p := State.Sound pend x) ?_ (fun _ => ?_); (on_goal 1 => dsimp only [x]); (on_goal 2 => clear_value x))
    | ((try lift_lets -underBinder); with_reducible intro x; refine hav (p := (x : Comp) = x) rfl (fun _ => ?_))
    | ((try lift_lets -underBinder); with_reducible intro x; refine hav (p := (fun y => x y) = x) rfl (fun _ => ?_))
    | ((try lift_lets -underBinder); with_reducible intro x; clear_value x)
    | (with_reducible intro _)
    | (split)
    | (with_reducible refine setPort_ok ?_)
    | (with_reducible refine cntBpm_ok ?_)
    | (with_reducible refine giveBack_ok ?_)
    | (with_reducible refine discard_ok ?_)
    | (with_reducible refine place_ok ?_)
    | (with_reducible exact admHold_ok)
    | (with_reducible refine admOk_ok ?_)
    | (with_reducible refine admGone_ok ?_)
    | (with_reducible refine of_admOk ?_ (by assumption))
    | (with_reducible refine of_admGone ?_ (by assumption))
    | (with_reducible exact none_ok)
    | (with_reducible refine some_ok ?_)
    | (with_reducible refine of_some ?_ (by assumption))
    | (with_reducible refine State.Sound.mk' rfl (by first | rfl | simp) rfl ?_)

theorem admitHeld_ok {p : Nat} : ∀ {hs : List HeldUnit} {blocked : List Nat} {s : State}, s.Sound pend → (admitHeld p hs blocked s).Sound pend
  | [], _, _, h => h
  | x :: hs, blocked, s, h => by
    unfold admitHeld
    split
    · exact admitHeld_ok h
    · have hr : ∀ {t}, retryHeld s p x = some t → t.Sound pend := fun e => of_some (retryHeld_ok h) e
      split
      · exact admitHeld_ok (hr (by assumption))
      · exact admitHeld_ok h

theorem doEarlyArrivalAdmit_ok {p : Nat} {s : State} (hs : s.Sound pend) : (doEarlyArrivalAdmit p s).Sound pend := admitHeld_ok hs

theorem doAllocWaitGrant_ok {inst : Nat} {s : State} (hs : s.Sound pend) : (doAllocWaitGrant inst s).Sound pend := by
  unfold doAllocWaitGrant
  repeat'
    first
    | (with_reducible assumption)
    | ((try lift_lets -underBinder); with_reducible intro x; with_reducible refine hav (p := State.Sound pend x) ?_ (fun _ => ?_); (on_goal 1 => dsimp only [x]); (on_goal 2 => clear_value x))
    | ((try lift_lets -underBinder); with_reducible intro x; refine hav (p := (x : Comp) = x) rfl (fun _ => ?_))
    | ((try lift_lets -underBinder); with_reducible intro x; refine hav (p := (fun y => x y) = x) rfl (fun _ => ?_))
    | ((try lift_lets -underBinder); with_reducible intro x; clear_value x)
    | (with_reducible intro _)
    | (split)
    | (with_reducible refine setBpm_ok ?_)
    | (with_reducible refine doEarlyArrivalAdmit_ok ?_)
    | (with_reducible refine foldl_ok (fun _ _ _ => ?_) ?_)
    | (with_reducible refine State.Sound.mk' rfl (by first | rfl | simp) rfl ?_)

theorem releaseUnit_ok {s : State} {t : TxRec} {p : Nat} {ptr : Option Nat} (hs : s.Sound pend) : (releaseUnit s t p ptr).Sound pend := by
  unfold releaseUnit
  repeat'
    first
    | (with_reducible assumption)
    | ((try lift_lets -underBinder); with_reducible intro x; with_reducible refine hav (p := State.Sound pend x) ?_ (fun _ => ?_); (on_goal 1 => dsimp only [x]); (on_goal 2 => clear_value x))
    | ((try lift_lets -underBinder); with_reducible intro x; refine hav (p := (x : Comp) = x) rfl (fun _ => ?_))
    | ((try lift_lets -underBinder); with_reducible intro x; refine hav (p := (fun y => x y) = x) rfl (fun _ => ?_))
    | ((try lift_lets -underBinder); with_reducible intro x; clear_value x)
    | (with_reducible intro _)
    | (split)
    | (with_reducible refine leaveAlloc_ok ?_)
    | (with_reducible refine freeze_ok ?_)
    | (dsimp only)
    | (with_reducible refine State.Sound.mk' rfl (by first | rfl | simp) rfl ?_)

theorem doUnitTxDone_ok {l : Nat} {ptr : Option Nat} {s : State} (hs : s.Sound pend) : (doUnitTxDone l ptr s).Sound pend := by
  unfold doUnitTxDone
  repeat'
    first
    | (with_reducible assumption)
    | ((try lift_lets -underBinder); with_reducible intro x; with_reducible refine hav (p := State.Sound pend x) ?_ (fun _ => ?_); (on_goal 1 => dsimp only [x]); (on_goal 2 => clear_value x))
    | ((try lift_lets -underBinder); with_reducible intro x; refine hav (p := (x : Comp) = x) rfl (fun _ => ?_))
    | ((try lift_lets -underBinder); with_reducible intro x; refine hav (p := (fun y => x y) = x) rfl (fun _ => ?_))
    | ((try lift_lets -underBinder); with_reducible intro x; clear_value x)
    | (with_reducible intro _)
    | (split)
    | (with_reducible refine setLane_ok ?_)
    | (with_reducible refine place_ok ?_)
    | (with_reducible refine releaseUnit_ok ?_)
    | (with_reducible exact admHold_ok)
    | (with_reducible refine admOk_ok ?_)
    | (with_reducible refine admGone_ok ?_)
    | (with_reducible refine of_admOk ?_ (by assumption))
    | (with_reducible refine of_admGone ?_ (by assumption))
    | (with_reducible refine State.Sound.mk' rfl (by first | rfl | simp) rfl ?_)

end Sys2Proof.Machine
end

