-- ==== Sys2Proof/Laws/OkPrivet.lean ====
section
/-! SUPPORT. The operations of Privet.lean keep the state well formed. -/

set_option linter.unusedTactic false
set_option linter.unreachableTactic false

namespace Sys2Proof.Machine

variable {pend : List Instr}

theorem PrivetRun.noted_ok {r : PrivetRun} {s : State} {runs : List ChunkRun} (hs : s.Sound pend) : (PrivetRun.noted r s runs).Sound pend := by
  unfold PrivetRun.noted
  repeat'
    first
    | (with_reducible assumption)
    | ((try lift_lets -underBinder); with_reducible intro x; with_reducible refine hav (p := State.Sound pend x) ?_ (fun _ => ?_); (on_goal 1 => dsimp only [x]); (on_goal 2 => clear_value x))
    | ((try lift_lets -underBinder); with_reducible intro x; refine hav (p := (x : Comp) = x) rfl (fun _ => ?_))
    | ((try lift_lets -underBinder); with_reducible intro x; refine hav (p := (fun y => x y) = x) rfl (fun _ => ?_))
    | ((try lift_lets -underBinder); with_reducible intro x; clear_value x)
    | (with_reducible intro _)
    | (split)
    | (with_reducible refine setColl_ok ?_)
    | (with_reducible refine faultFlags_ok ?_ ?_)
    | (with_reducible refine noteRuns_ok ?_)
    | (dsimp only)
    | (with_reducible refine State.Sound.mk' rfl (by first | rfl | simp) rfl ?_)

theorem PrivetRun.emit_ok {r : PrivetRun} {s : State} {lo hi chunk : Nat} {copied : Bool} {bs : List Byte} (hs : s.Sound pend) : (PrivetRun.emit r s lo hi chunk copied bs).Sound pend := by
  unfold PrivetRun.emit
  repeat'
    first
    | (with_reducible assumption)
    | ((try lift_lets -underBinder); with_reducible intro x; with_reducible refine hav (p := State.Sound pend x) ?_ (fun _ => ?_); (on_goal 1 => dsimp only [x]); (on_goal 2 => clear_value x))
    | ((try lift_lets -underBinder); with_reducible intro x; refine hav (p := (x : Comp) = x) rfl (fun _ => ?_))
    | ((try lift_lets -underBinder); with_reducible intro x; refine hav (p := (fun y => x y) = x) rfl (fun _ => ?_))
    | ((try lift_lets -underBinder); with_reducible intro x; clear_value x)
    | (with_reducible intro _)
    | (split)
    | (with_reducible refine setColl_ok ?_)
    | (with_reducible refine settleMade_ok ?_ ?_)
    | (with_reducible refine emitOutput_ok ?_)
    | (with_reducible exact madeInv_ok (by assumption))
    | (with_reducible exact madeWait_ok)
    | (with_reducible exact madeQuota_ok)
    | (with_reducible refine madeOk_ok ?_)
    | (with_reducible refine of_made ?_ (by assumption))
    | (with_reducible refine of_exMade ?_ (by assumption))
    | (with_reducible refine of_exMadeErr ?_ (by assumption))
    | (with_reducible refine takeBufs_ok ?_)
    | (with_reducible refine foldlMade_ok (fun _ _ _ => ?_) ?_)
    | (with_reducible refine State.Sound.mk' rfl (by first | rfl | simp) rfl ?_)

theorem PrivetRun.emitCounts_ok {r : PrivetRun} {s : State} {lo hi : Nat} {ks : List Consumer} {copied : Bool} {bs : List Byte} (hs : s.Sound pend) : (PrivetRun.emitCounts r s lo hi ks copied bs).Sound pend := by
  unfold PrivetRun.emitCounts
  repeat'
    first
    | (with_reducible assumption)
    | ((try lift_lets -underBinder); with_reducible intro x; with_reducible refine hav (p := State.Sound pend x) ?_ (fun _ => ?_); (on_goal 1 => dsimp only [x]); (on_goal 2 => clear_value x))
    | ((try lift_lets -underBinder); with_reducible intro x; refine hav (p := (x : Comp) = x) rfl (fun _ => ?_))
    | ((try lift_lets -underBinder); with_reducible intro x; refine hav (p := (fun y => x y) = x) rfl (fun _ => ?_))
    | ((try lift_lets -underBinder); with_reducible intro x; clear_value x)
    | (with_reducible intro _)
    | (split)
    | (with_reducible refine settleMade_ok ?_ ?_)
    | (with_reducible refine placeOutput_ok ?_)
    | (dsimp only)
    | (with_reducible exact madeInv_ok (by assumption))
    | (with_reducible exact madeWait_ok)
    | (with_reducible exact madeQuota_ok)
    | (with_reducible refine madeOk_ok ?_)
    | (with_reducible refine of_made ?_ (by assumption))
    | (with_reducible refine of_exMade ?_ (by assumption))
    | (with_reducible refine of_exMadeErr ?_ (by assumption))
    | (with_reducible refine takeBufs_ok ?_)
    | (with_reducible refine foldlMade_ok (fun _ _ _ => ?_) ?_)
    | (with_reducible refine State.Sound.mk' rfl (by first | rfl | simp) rfl ?_)

theorem PrivetRun.markFormed_ok {r : PrivetRun} {s : State} {chunk : Nat} (hs : s.Sound pend) : (PrivetRun.markFormed r s chunk).Sound pend := by
  unfold PrivetRun.markFormed
  repeat'
    first
    | (with_reducible assumption)
    | ((try lift_lets -underBinder); with_reducible intro x; with_reducible refine hav (p := State.Sound pend x) ?_ (fun _ => ?_); (on_goal 1 => dsimp only [x]); (on_goal 2 => clear_value x))
    | ((try lift_lets -underBinder); with_reducible intro x; refine hav (p := (x : Comp) = x) rfl (fun _ => ?_))
    | ((try lift_lets -underBinder); with_reducible intro x; refine hav (p := (fun y => x y) = x) rfl (fun _ => ?_))
    | ((try lift_lets -underBinder); with_reducible intro x; clear_value x)
    | (with_reducible intro _)
    | (split)
    | (with_reducible refine setColl_ok ?_)
    | (with_reducible refine State.Sound.mk' rfl (by first | rfl | simp) rfl ?_)

theorem PrivetRun.fill_ok {r : PrivetRun} {s : State} {i start : Nat} {x : Landing} (hs : s.Sound pend) : (PrivetRun.fill r s i start x).Sound pend := by
  unfold PrivetRun.fill
  repeat'
    first
    | (with_reducible assumption)
    | ((try lift_lets -underBinder); with_reducible intro x; with_reducible refine hav (p := State.Sound pend x) ?_ (fun _ => ?_); (on_goal 1 => dsimp only [x]); (on_goal 2 => clear_value x))
    | ((try lift_lets -underBinder); with_reducible intro x; refine hav (p := (x : Comp) = x) rfl (fun _ => ?_))
    | ((try lift_lets -underBinder); with_reducible intro x; refine hav (p := (fun y => x y) = x) rfl (fun _ => ?_))
    | ((try lift_lets -underBinder); with_reducible intro x; clear_value x)
    | (with_reducible intro _)
    | (split)
    | (with_reducible refine toBuffer_ok ?_)
    | (with_reducible refine State.Sound.mk' rfl (by first | rfl | simp) rfl ?_)

theorem PrivetRun.emitAll_ok {r : PrivetRun} {s : State} {chunk : Nat} {value : OutRec → Option (Bool × List Byte)} (hs : s.Sound pend) : (PrivetRun.emitAll r s chunk value).Sound pend := by
  unfold PrivetRun.emitAll
  repeat'
    first
    | (with_reducible assumption)
    | ((try lift_lets -underBinder); with_reducible intro x; with_reducible refine hav (p := State.Sound pend x) ?_ (fun _ => ?_); (on_goal 1 => dsimp only [x]); (on_goal 2 => clear_value x))
    | ((try lift_lets -underBinder); with_reducible intro x; refine hav (p := (x : Comp) = x) rfl (fun _ => ?_))
    | ((try lift_lets -underBinder); with_reducible intro x; refine hav (p := (fun y => x y) = x) rfl (fun _ => ?_))
    | ((try lift_lets -underBinder); with_reducible intro x; clear_value x)
    | (with_reducible intro _)
    | (split)
    | (with_reducible refine PrivetRun.emit_ok ?_)
    | (with_reducible refine foldl_ok (fun _ _ _ => ?_) ?_)
    | (dsimp only)
    | (with_reducible refine State.Sound.mk' rfl (by first | rfl | simp) rfl ?_)

theorem PrivetRun.reduce_ok {r : PrivetRun} {s : State} (hs : s.Sound pend) : (PrivetRun.reduce r s).Sound pend := by
  unfold PrivetRun.reduce
  repeat'
    first
    | (with_reducible assumption)
    | ((try lift_lets -underBinder); with_reducible intro x; with_reducible refine hav (p := State.Sound pend x) ?_ (fun _ => ?_); (on_goal 1 => dsimp only [x]); (on_goal 2 => clear_value x))
    | ((try lift_lets -underBinder); with_reducible intro x; refine hav (p := (x : Comp) = x) rfl (fun _ => ?_))
    | ((try lift_lets -underBinder); with_reducible intro x; refine hav (p := (fun y => x y) = x) rfl (fun _ => ?_))
    | ((try lift_lets -underBinder); with_reducible intro x; clear_value x)
    | (with_reducible intro _)
    | (split)
    | (with_reducible refine placeRoot_ok ?_)
    | (with_reducible refine PrivetRun.noted_ok ?_)
    | (with_reducible refine PrivetRun.markFormed_ok ?_)
    | (with_reducible refine PrivetRun.emitAll_ok ?_)
    | (dsimp only)
    | (with_reducible refine State.Sound.mk' rfl (by first | rfl | simp) rfl ?_)

theorem PrivetRun.landMoved_ok {r : PrivetRun} {s : State} {t : Topiary} {i : InRec} (hs : s.Sound pend) : (PrivetRun.landMoved r s t i).Sound pend := by
  unfold PrivetRun.landMoved
  repeat'
    first
    | (with_reducible assumption)
    | ((try lift_lets -underBinder); with_reducible intro x; with_reducible refine hav (p := State.Sound pend x) ?_ (fun _ => ?_); (on_goal 1 => dsimp only [x]); (on_goal 2 => clear_value x))
    | ((try lift_lets -underBinder); with_reducible intro x; refine hav (p := (x : Comp) = x) rfl (fun _ => ?_))
    | ((try lift_lets -underBinder); with_reducible intro x; refine hav (p := (fun y => x y) = x) rfl (fun _ => ?_))
    | ((try lift_lets -underBinder); with_reducible intro x; clear_value x)
    | (with_reducible intro _)
    | (split)
    | (with_reducible refine PrivetRun.fill_ok ?_)
    | (with_reducible refine foldl_ok (fun _ _ _ => ?_) ?_)
    | (with_reducible refine State.Sound.mk' rfl (by first | rfl | simp) rfl ?_)

theorem PrivetRun.move_ok {r : PrivetRun} {s : State} (hs : s.Sound pend) : (PrivetRun.move r s).Sound pend := by
  unfold PrivetRun.move
  repeat'
    first
    | (with_reducible assumption)
    | ((try lift_lets -underBinder); with_reducible intro x; with_reducible refine hav (p := State.Sound pend x) ?_ (fun _ => ?_); (on_goal 1 => dsimp only [x]); (on_goal 2 => clear_value x))
    | ((try lift_lets -underBinder); with_reducible intro x; refine hav (p := (x : Comp) = x) rfl (fun _ => ?_))
    | ((try lift_lets -underBinder); with_reducible intro x; refine hav (p := (fun y => x y) = x) rfl (fun _ => ?_))
    | ((try lift_lets -underBinder); with_reducible intro x; clear_value x)
    | (with_reducible intro _)
    | (split)
    | (with_reducible refine PrivetRun.noted_ok ?_)
    | (with_reducible refine PrivetRun.markFormed_ok ?_)
    | (with_reducible refine PrivetRun.emitAll_ok ?_)
    | (with_reducible refine PrivetRun.landMoved_ok ?_)
    | (with_reducible refine foldl_ok (fun _ _ _ => ?_) ?_)
    | (with_reducible refine State.Sound.mk' rfl (by first | rfl | simp) rfl ?_)

theorem countMoe_ok {s : State} {job : Nat} {fates : List (Nat × Nat × Nat × Nat)} (hs : s.Sound pend) : (countMoe s job fates).Sound pend := by
  unfold countMoe
  repeat'
    first
    | (with_reducible assumption)
    | ((try lift_lets -underBinder); with_reducible intro x; with_reducible refine hav (p := State.Sound pend x) ?_ (fun _ => ?_); (on_goal 1 => dsimp only [x]); (on_goal 2 => clear_value x))
    | ((try lift_lets -underBinder); with_reducible intro x; refine hav (p := (x : Comp) = x) rfl (fun _ => ?_))
    | ((try lift_lets -underBinder); with_reducible intro x; refine hav (p := (fun y => x y) = x) rfl (fun _ => ?_))
    | ((try lift_lets -underBinder); with_reducible intro x; clear_value x)
    | (with_reducible intro _)
    | (split)
    | (with_reducible refine foldl_ok (fun _ _ _ => ?_) ?_)
    | (dsimp only)
    | (with_reducible refine State.Sound.mk' rfl (by first | rfl | simp) rfl ?_)

theorem PrivetRun.counts_ok {r : PrivetRun} {s : State} (hs : s.Sound pend) : (PrivetRun.counts r s).Sound pend := by
  unfold PrivetRun.counts
  repeat'
    first
    | (with_reducible assumption)
    | ((try lift_lets -underBinder); with_reducible intro x; with_reducible refine hav (p := State.Sound pend x) ?_ (fun _ => ?_); (on_goal 1 => dsimp only [x]); (on_goal 2 => clear_value x))
    | ((try lift_lets -underBinder); with_reducible intro x; refine hav (p := (x : Comp) = x) rfl (fun _ => ?_))
    | ((try lift_lets -underBinder); with_reducible intro x; refine hav (p := (fun y => x y) = x) rfl (fun _ => ?_))
    | ((try lift_lets -underBinder); with_reducible intro x; clear_value x)
    | (with_reducible intro _)
    | (split)
    | (with_reducible refine setColl_ok ?_)
    | (with_reducible refine releaseEarly_ok ?_)
    | (with_reducible refine abortHere_ok ?_)
    | (with_reducible refine PrivetRun.emitCounts_ok ?_)
    | (with_reducible refine countMoe_ok ?_)
    | (with_reducible refine foldl_ok (fun _ _ _ => ?_) ?_)
    | (dsimp only)
    | (with_reducible refine State.Sound.mk' rfl (by first | rfl | simp) rfl ?_)

theorem PrivetRun.emitWhole_ok {r : PrivetRun} {s : State} {o : OutRec} {cut : Option (List (List Byte))} (hs : s.Sound pend) : (PrivetRun.emitWhole r s o cut).Sound pend := by
  unfold PrivetRun.emitWhole
  repeat'
    first
    | (with_reducible assumption)
    | ((try lift_lets -underBinder); with_reducible intro x; with_reducible refine hav (p := State.Sound pend x) ?_ (fun _ => ?_); (on_goal 1 => dsimp only [x]); (on_goal 2 => clear_value x))
    | ((try lift_lets -underBinder); with_reducible intro x; refine hav (p := (x : Comp) = x) rfl (fun _ => ?_))
    | ((try lift_lets -underBinder); with_reducible intro x; refine hav (p := (fun y => x y) = x) rfl (fun _ => ?_))
    | ((try lift_lets -underBinder); with_reducible intro x; clear_value x)
    | (with_reducible intro _)
    | (split)
    | (with_reducible refine abortHere_ok ?_)
    | (with_reducible refine PrivetRun.emit_ok ?_)
    | (with_reducible refine foldl_ok (fun _ _ _ => ?_) ?_)
    | (with_reducible refine State.Sound.mk' rfl (by first | rfl | simp) rfl ?_)

theorem PrivetRun.sendBlock_ok {r : PrivetRun} {s : State} {o : OutRec} {m : Nat × Nat} {bs : List Byte} (hs : s.Sound pend) : (PrivetRun.sendBlock r s o m bs).Sound pend := by
  unfold PrivetRun.sendBlock
  repeat'
    first
    | (with_reducible assumption)
    | ((try lift_lets -underBinder); with_reducible intro x; with_reducible refine hav (p := State.Sound pend x) ?_ (fun _ => ?_); (on_goal 1 => dsimp only [x]); (on_goal 2 => clear_value x))
    | ((try lift_lets -underBinder); with_reducible intro x; refine hav (p := (x : Comp) = x) rfl (fun _ => ?_))
    | ((try lift_lets -underBinder); with_reducible intro x; refine hav (p := (fun y => x y) = x) rfl (fun _ => ?_))
    | ((try lift_lets -underBinder); with_reducible intro x; clear_value x)
    | (with_reducible intro _)
    | (split)
    | (with_reducible refine abortHere_ok ?_)
    | (with_reducible refine settleMade_ok ?_ ?_)
    | (with_reducible refine placeOutput_ok ?_)
    | (with_reducible refine foldl_ok (fun _ _ _ => ?_) ?_)
    | (dsimp only)
    | (with_reducible exact madeInv_ok (by assumption))
    | (with_reducible exact madeWait_ok)
    | (with_reducible exact madeQuota_ok)
    | (with_reducible refine madeOk_ok ?_)
    | (with_reducible refine of_made ?_ (by assumption))
    | (with_reducible refine of_exMade ?_ (by assumption))
    | (with_reducible refine of_exMadeErr ?_ (by assumption))
    | (with_reducible refine takeBufs_ok ?_)
    | (with_reducible refine foldlMade_ok (fun _ _ _ => ?_) ?_)
    | (with_reducible refine State.Sound.mk' rfl (by first | rfl | simp) rfl ?_)

theorem PrivetRun.selFill_ok {r : PrivetRun} {s : State} {rs : List SelRec} (hs : s.Sound pend) : (PrivetRun.selFill r s rs).Sound pend := by
  unfold PrivetRun.selFill
  repeat'
    first
    | (with_reducible assumption)
    | ((try lift_lets -underBinder); with_reducible intro x; with_reducible refine hav (p := State.Sound pend x) ?_ (fun _ => ?_); (on_goal 1 => dsimp only [x]); (on_goal 2 => clear_value x))
    | ((try lift_lets -underBinder); with_reducible intro x; refine hav (p := (x : Comp) = x) rfl (fun _ => ?_))
    | ((try lift_lets -underBinder); with_reducible intro x; refine hav (p := (fun y => x y) = x) rfl (fun _ => ?_))
    | ((try lift_lets -underBinder); with_reducible intro x; clear_value x)
    | (with_reducible intro _)
    | (split)
    | (with_reducible refine PrivetRun.fill_ok ?_)
    | (with_reducible refine foldl_ok (fun _ _ _ => ?_) ?_)
    | (with_reducible refine State.Sound.mk' rfl (by first | rfl | simp) rfl ?_)

theorem PrivetRun.selRoot_ok {r : PrivetRun} {s : State} {c : Coll} {rs : List SelRec} (hs : s.Sound pend) : (PrivetRun.selRoot r s c rs).Sound pend := by
  unfold PrivetRun.selRoot
  repeat'
    first
    | (with_reducible assumption)
    | ((try lift_lets -underBinder); with_reducible intro x; with_reducible refine hav (p := State.Sound pend x) ?_ (fun _ => ?_); (on_goal 1 => dsimp only [x]); (on_goal 2 => clear_value x))
    | ((try lift_lets -underBinder); with_reducible intro x; refine hav (p := (x : Comp) = x) rfl (fun _ => ?_))
    | ((try lift_lets -underBinder); with_reducible intro x; refine hav (p := (fun y => x y) = x) rfl (fun _ => ?_))
    | ((try lift_lets -underBinder); with_reducible intro x; clear_value x)
    | (with_reducible intro _)
    | (split)
    | (with_reducible refine setColl_ok ?_)
    | (with_reducible refine abortHere_ok ?_)
    | (with_reducible refine PrivetRun.emitCounts_ok ?_)
    | (with_reducible refine PrivetRun.emitWhole_ok ?_)
    | (with_reducible refine PrivetRun.sendBlock_ok ?_)
    | (with_reducible refine PrivetRun.selFill_ok ?_)
    | (with_reducible refine foldl_ok (fun _ _ _ => ?_) ?_)
    | (dsimp only)
    | (with_reducible refine State.Sound.mk' rfl (by first | rfl | simp) rfl ?_)

theorem PrivetRun.selNodes_ok {r : PrivetRun} {s : State} (hs : s.Sound pend) : (PrivetRun.selNodes r s).Sound pend := by
  unfold PrivetRun.selNodes
  repeat'
    first
    | (with_reducible assumption)
    | ((try lift_lets -underBinder); with_reducible intro x; with_reducible refine hav (p := State.Sound pend x) ?_ (fun _ => ?_); (on_goal 1 => dsimp only [x]); (on_goal 2 => clear_value x))
    | ((try lift_lets -underBinder); with_reducible intro x; refine hav (p := (x : Comp) = x) rfl (fun _ => ?_))
    | ((try lift_lets -underBinder); with_reducible intro x; refine hav (p := (fun y => x y) = x) rfl (fun _ => ?_))
    | ((try lift_lets -underBinder); with_reducible intro x; clear_value x)
    | (with_reducible intro _)
    | (split)
    | (with_reducible refine PrivetRun.noted_ok ?_)
    | (with_reducible refine PrivetRun.emitWhole_ok ?_)
    | (with_reducible refine PrivetRun.selRoot_ok ?_)
    | (with_reducible refine foldl_ok (fun _ _ _ => ?_) ?_)
    | (dsimp only)
    | (with_reducible refine State.Sound.mk' rfl (by first | rfl | simp) rfl ?_)

theorem PrivetRun.selForward_ok {r : PrivetRun} {s : State} (hs : s.Sound pend) : (PrivetRun.selForward r s).Sound pend := by
  unfold PrivetRun.selForward
  repeat'
    first
    | (with_reducible assumption)
    | ((try lift_lets -underBinder); with_reducible intro x; with_reducible refine hav (p := State.Sound pend x) ?_ (fun _ => ?_); (on_goal 1 => dsimp only [x]); (on_goal 2 => clear_value x))
    | ((try lift_lets -underBinder); with_reducible intro x; refine hav (p := (x : Comp) = x) rfl (fun _ => ?_))
    | ((try lift_lets -underBinder); with_reducible intro x; refine hav (p := (fun y => x y) = x) rfl (fun _ => ?_))
    | ((try lift_lets -underBinder); with_reducible intro x; clear_value x)
    | (with_reducible intro _)
    | (split)
    | (with_reducible refine PrivetRun.emit_ok ?_)
    | (with_reducible refine foldl_ok (fun _ _ _ => ?_) ?_)
    | (with_reducible refine State.Sound.mk' rfl (by first | rfl | simp) rfl ?_)

theorem PrivetRun.selLand_ok {r : PrivetRun} {s : State} (hs : s.Sound pend) : (PrivetRun.selLand r s).Sound pend := by
  unfold PrivetRun.selLand
  repeat'
    first
    | (with_reducible assumption)
    | ((try lift_lets -underBinder); with_reducible intro x; with_reducible refine hav (p := State.Sound pend x) ?_ (fun _ => ?_); (on_goal 1 => dsimp only [x]); (on_goal 2 => clear_value x))
    | ((try lift_lets -underBinder); with_reducible intro x; refine hav (p := (x : Comp) = x) rfl (fun _ => ?_))
    | ((try lift_lets -underBinder); with_reducible intro x; refine hav (p := (fun y => x y) = x) rfl (fun _ => ?_))
    | ((try lift_lets -underBinder); with_reducible intro x; clear_value x)
    | (with_reducible intro _)
    | (split)
    | (with_reducible refine PrivetRun.selFill_ok ?_)
    | (with_reducible refine State.Sound.mk' rfl (by first | rfl | simp) rfl ?_)

theorem PrivetRun.select_ok {r : PrivetRun} {s : State} (hs : s.Sound pend) : (PrivetRun.select r s).Sound pend := by
  unfold PrivetRun.select
  repeat'
    first
    | (with_reducible assumption)
    | ((try lift_lets -underBinder); with_reducible intro x; with_reducible refine hav (p := State.Sound pend x) ?_ (fun _ => ?_); (on_goal 1 => dsimp only [x]); (on_goal 2 => clear_value x))
    | ((try lift_lets -underBinder); with_reducible intro x; refine hav (p := (x : Comp) = x) rfl (fun _ => ?_))
    | ((try lift_lets -underBinder); with_reducible intro x; refine hav (p := (fun y => x y) = x) rfl (fun _ => ?_))
    | ((try lift_lets -underBinder); with_reducible intro x; clear_value x)
    | (with_reducible intro _)
    | (split)
    | (with_reducible refine PrivetRun.markFormed_ok ?_)
    | (with_reducible refine PrivetRun.selNodes_ok ?_)
    | (with_reducible refine PrivetRun.selForward_ok ?_)
    | (with_reducible refine PrivetRun.selLand_ok ?_)
    | (with_reducible refine foldl_ok (fun _ _ _ => ?_) ?_)
    | (with_reducible refine State.Sound.mk' rfl (by first | rfl | simp) rfl ?_)

theorem PrivetRun.express_ok {r : PrivetRun} {s : State} (hs : s.Sound pend) : (PrivetRun.express r s).Sound pend := by
  unfold PrivetRun.express
  repeat'
    first
    | (with_reducible assumption)
    | ((try lift_lets -underBinder); with_reducible intro x; with_reducible refine hav (p := State.Sound pend x) ?_ (fun _ => ?_); (on_goal 1 => dsimp only [x]); (on_goal 2 => clear_value x))
    | ((try lift_lets -underBinder); with_reducible intro x; refine hav (p := (x : Comp) = x) rfl (fun _ => ?_))
    | ((try lift_lets -underBinder); with_reducible intro x; refine hav (p := (fun y => x y) = x) rfl (fun _ => ?_))
    | ((try lift_lets -underBinder); with_reducible intro x; clear_value x)
    | (with_reducible intro _)
    | (split)
    | (with_reducible refine originate_ok ?_)
    | (with_reducible refine setColl_ok ?_)
    | (with_reducible refine chunkReached_ok ?_)
    | (with_reducible refine placeRoot_ok ?_)
    | (with_reducible refine PrivetRun.noted_ok ?_)
    | (with_reducible refine foldl_ok (fun _ _ _ => ?_) ?_)
    | (dsimp only)
    | (with_reducible refine State.Sound.mk' rfl (by first | rfl | simp) rfl ?_)

theorem privetErrors_ok {s : State} {e : CollEntry} {job chunk : Nat} {failed : List (Nat × FaultAt)} {u : Upset} (hs : s.Sound pend) : (privetErrors s e job chunk failed u).Sound pend := by
  unfold privetErrors
  repeat'
    first
    | (with_reducible assumption)
    | ((try lift_lets -underBinder); with_reducible intro x; with_reducible refine hav (p := State.Sound pend x) ?_ (fun _ => ?_); (on_goal 1 => dsimp only [x]); (on_goal 2 => clear_value x))
    | ((try lift_lets -underBinder); with_reducible intro x; refine hav (p := (x : Comp) = x) rfl (fun _ => ?_))
    | ((try lift_lets -underBinder); with_reducible intro x; refine hav (p := (fun y => x y) = x) rfl (fun _ => ?_))
    | ((try lift_lets -underBinder); with_reducible intro x; clear_value x)
    | (with_reducible intro _)
    | (split)
    | (with_reducible refine bumpMmu_ok ?_)
    | (with_reducible refine icnt_ok ?_)
    | (with_reducible refine logError_ok ?_)
    | (with_reducible refine eccError_ok ?_)
    | (with_reducible refine residueErrors_ok ?_)
    | (with_reducible refine foldl_ok (fun _ _ _ => ?_) ?_)
    | (dsimp only)
    | (with_reducible refine State.Sound.mk' rfl (by first | rfl | simp) rfl ?_)

theorem noteEngine_ok {s : State} {die e job ord chunk : Nat} {pair : Bool} (hs : s.Sound pend) : (noteEngine s die e job ord chunk pair).Sound pend := by
  unfold noteEngine
  repeat'
    first
    | (with_reducible assumption)
    | ((try lift_lets -underBinder); with_reducible intro x; with_reducible refine hav (p := State.Sound pend x) ?_ (fun _ => ?_); (on_goal 1 => dsimp only [x]); (on_goal 2 => clear_value x))
    | ((try lift_lets -underBinder); with_reducible intro x; refine hav (p := (x : Comp) = x) rfl (fun _ => ?_))
    | ((try lift_lets -underBinder); with_reducible intro x; refine hav (p := (fun y => x y) = x) rfl (fun _ => ?_))
    | ((try lift_lets -underBinder); with_reducible intro x; clear_value x)
    | (with_reducible intro _)
    | (split)
    | (with_reducible refine State.Sound.mk' rfl (by first | rfl | simp) rfl ?_)

theorem sampleChunk_ok {s : State} {job epoch ord chunk die eng g failures : Nat} (hs : s.Sound pend) :
    (sampleChunk s job epoch ord chunk die eng g failures).Sound pend := by
  have h := sampleTile_ok (kind := 0) (die := die) (unit := eng) (job := job) (countTile_ok (kind := 0) (die := die) hs)
  unfold sampleChunk
  dsimp only
  split
  · exact setInteg_ok h
  · exact h

theorem runChunk_ok {s : State} {job epoch : Nat} {e : CollEntry} {chunk eng g : Nat} {failed : List Nat} (hs : s.Sound pend) : (runChunk s job epoch e chunk eng g failed).Sound pend := by
  unfold runChunk
  repeat'
    first
    | (with_reducible assumption)
    | ((try lift_lets -underBinder); with_reducible intro x; with_reducible refine hav (p := State.Sound pend x) ?_ (fun _ => ?_); (on_goal 1 => dsimp only [x]); (on_goal 2 => clear_value x))
    | ((try lift_lets -underBinder); with_reducible intro x; refine hav (p := (x : Comp) = x) rfl (fun _ => ?_))
    | ((try lift_lets -underBinder); with_reducible intro x; refine hav (p := (fun y => x y) = x) rfl (fun _ => ?_))
    | ((try lift_lets -underBinder); with_reducible intro x; clear_value x)
    | (with_reducible intro _)
    | (split)
    | (with_reducible refine releaseSpent_ok ?_)
    | (with_reducible refine settleColl_ok ?_)
    | (with_reducible refine PrivetRun.reduce_ok ?_)
    | (with_reducible refine PrivetRun.move_ok ?_)
    | (with_reducible refine PrivetRun.counts_ok ?_)
    | (with_reducible refine PrivetRun.select_ok ?_)
    | (with_reducible refine PrivetRun.express_ok ?_)
    | (with_reducible refine noteEngine_ok ?_)
    | (with_reducible refine sampleChunk_ok ?_)
    | (dsimp only)
    | (with_reducible refine State.Sound.mk' rfl (by first | rfl | simp) rfl ?_)

theorem chunkFails_ok {s : State} {job epoch : Nat} {e : CollEntry} {chunk : Nat} (hs : s.Sound pend) : (chunkFails s job epoch e chunk).Sound pend := by
  unfold chunkFails
  repeat'
    first
    | (with_reducible assumption)
    | ((try lift_lets -underBinder); with_reducible intro x; with_reducible refine hav (p := State.Sound pend x) ?_ (fun _ => ?_); (on_goal 1 => dsimp only [x]); (on_goal 2 => clear_value x))
    | ((try lift_lets -underBinder); with_reducible intro x; refine hav (p := (x : Comp) = x) rfl (fun _ => ?_))
    | ((try lift_lets -underBinder); with_reducible intro x; refine hav (p := (fun y => x y) = x) rfl (fun _ => ?_))
    | ((try lift_lets -underBinder); with_reducible intro x; clear_value x)
    | (with_reducible intro _)
    | (split)
    | (with_reducible refine abortHere_ok ?_)
    | (with_reducible refine outputFails_ok ?_)
    | (with_reducible refine PrivetRun.express_ok ?_)
    | (with_reducible refine State.Sound.mk' rfl (by first | rfl | simp) rfl ?_)

theorem executeChunk_ok {s : State} {job epoch : Nat} {e : CollEntry} {chunk : Nat} {u : Upset} (hs : s.Sound pend) : (executeChunk s job epoch e chunk u).Sound pend := by
  unfold executeChunk
  repeat'
    first
    | (with_reducible assumption)
    | ((try lift_lets -underBinder); with_reducible intro x; with_reducible refine hav (p := State.Sound pend x) ?_ (fun _ => ?_); (on_goal 1 => dsimp only [x]); (on_goal 2 => clear_value x))
    | ((try lift_lets -underBinder); with_reducible intro x; refine hav (p := (x : Comp) = x) rfl (fun _ => ?_))
    | ((try lift_lets -underBinder); with_reducible intro x; refine hav (p := (fun y => x y) = x) rfl (fun _ => ?_))
    | ((try lift_lets -underBinder); with_reducible intro x; clear_value x)
    | (with_reducible intro _)
    | (split)
    | (with_reducible refine PrivetRun.express_ok ?_)
    | (with_reducible refine privetErrors_ok ?_)
    | (with_reducible refine runChunk_ok ?_)
    | (with_reducible refine chunkFails_ok ?_)
    | (with_reducible refine State.Sound.mk' rfl (by first | rfl | simp) rfl ?_)

theorem doPrivetChunk_ok {job epoch ord chunk : Nat} {u : Upset} {ptr : Option Nat} {s : State} (hs : s.Sound pend) : (doPrivetChunk job epoch ord chunk u ptr s).Sound pend := by
  unfold doPrivetChunk
  repeat'
    first
    | (with_reducible assumption)
    | ((try lift_lets -underBinder); with_reducible intro x; with_reducible refine hav (p := State.Sound pend x) ?_ (fun _ => ?_); (on_goal 1 => dsimp only [x]); (on_goal 2 => clear_value x))
    | ((try lift_lets -underBinder); with_reducible intro x; refine hav (p := (x : Comp) = x) rfl (fun _ => ?_))
    | ((try lift_lets -underBinder); with_reducible intro x; refine hav (p := (fun y => x y) = x) rfl (fun _ => ?_))
    | ((try lift_lets -underBinder); with_reducible intro x; clear_value x)
    | (with_reducible intro _)
    | (split)
    | (with_reducible refine freeze_ok ?_)
    | (with_reducible refine emitCasts_ok ?_)
    | (with_reducible refine PrivetRun.express_ok ?_)
    | (with_reducible refine executeChunk_ok ?_)
    | (dsimp only)
    | (with_reducible refine State.Sound.mk' rfl (by first | rfl | simp) rfl ?_)

theorem doCallColl_ok {q : Nat} {s : State} (hs : s.Sound pend) : (doCallColl q s).Sound pend := by
  unfold doCallColl
  repeat'
    first
    | (with_reducible assumption)
    | ((try lift_lets -underBinder); with_reducible intro x; with_reducible refine hav (p := State.Sound pend x) ?_ (fun _ => ?_); (on_goal 1 => dsimp only [x]); (on_goal 2 => clear_value x))
    | ((try lift_lets -underBinder); with_reducible intro x; refine hav (p := (x : Comp) = x) rfl (fun _ => ?_))
    | ((try lift_lets -underBinder); with_reducible intro x; refine hav (p := (fun y => x y) = x) rfl (fun _ => ?_))
    | ((try lift_lets -underBinder); with_reducible intro x; clear_value x)
    | (with_reducible intro _)
    | (split)
    | (with_reducible exact refuse_ok)
    | (with_reducible refine done_ok ?_)
    | (with_reducible refine stay_ok ?_)
    | (with_reducible refine setQueue_ok ?_)
    | (with_reducible refine enterWait_ok ?_)
    | (with_reducible refine setJobFlag_ok ?_)
    | (with_reducible refine issue_ok ?_ ?_)
    | (dsimp only)
    | (with_reducible refine State.Sound.mk' rfl (by first | rfl | simp) rfl ?_)

end Sys2Proof.Machine
end

