-- ==== Sys2Proof/Laws/OkMatrix.lean ====
section
/-! SUPPORT. The operations of Matrix.lean keep the state well formed. -/

set_option linter.unusedTactic false
set_option linter.unreachableTactic false

namespace Sys2Proof.Machine

variable {pend : List Instr}

theorem pushLaurel_ok {s : State} {die : Nat} {wk : LaurelWork} (hs : s.Sound pend) : (pushLaurel s die wk).Sound pend := by
  unfold pushLaurel
  repeat'
    first
    | (with_reducible assumption)
    | ((try lift_lets -underBinder); with_reducible intro x; with_reducible refine hav (p := State.Sound pend x) ?_ (fun _ => ?_); (on_goal 1 => dsimp only [x]); (on_goal 2 => clear_value x))
    | ((try lift_lets -underBinder); with_reducible intro x; refine hav (p := (x : Comp) = x) rfl (fun _ => ?_))
    | ((try lift_lets -underBinder); with_reducible intro x; refine hav (p := (fun y => x y) = x) rfl (fun _ => ?_))
    | ((try lift_lets -underBinder); with_reducible intro x; clear_value x)
    | (with_reducible intro _)
    | (split)
    | (with_reducible refine State.Sound.mk' rfl (by first | rfl | simp) rfl ?_)

theorem matrixIssue_ok {op q : Nat} {s : State} (hs : s.Sound pend) : (matrixIssue op q s).Sound pend := by
  unfold matrixIssue
  repeat'
    first
    | (with_reducible assumption)
    | ((try lift_lets -underBinder); with_reducible intro x; with_reducible refine hav (p := State.Sound pend x) ?_ (fun _ => ?_); (on_goal 1 => dsimp only [x]); (on_goal 2 => clear_value x))
    | ((try lift_lets -underBinder); with_reducible intro x; refine hav (p := (x : Comp) = x) rfl (fun _ => ?_))
    | ((try lift_lets -underBinder); with_reducible intro x; refine hav (p := (fun y => x y) = x) rfl (fun _ => ?_))
    | ((try lift_lets -underBinder); with_reducible intro x; clear_value x)
    | (with_reducible intro _)
    | (split)
    | (with_reducible exact refuse_ok)
    | (with_reducible refine done_ok ?_)
    | (with_reducible refine stay_ok ?_)
    | (with_reducible refine setQueue_ok ?_)
    | (with_reducible refine holdFeed_ok ?_)
    | (with_reducible refine issue_ok ?_ ?_)
    | (with_reducible refine pushLaurel_ok ?_)
    | (with_reducible refine State.Sound.mk' rfl (by first | rfl | simp) rfl ?_)

end Sys2Proof.Machine
end

