-- ==== Sys2Proof/Laws/OkEngines.lean ====
section
/-! SUPPORT. The operations of Engines.lean keep the state well formed. -/

set_option linter.unusedTactic false
set_option linter.unreachableTactic false

namespace Sys2Proof.Machine

variable {pend : List Instr}

theorem tileFails_ok {s : State} {q job : Nat} (hs : s.Sound pend) : (tileFails s q job).Sound pend := by
  unfold tileFails
  repeat'
    first
    | (with_reducible assumption)
    | ((try lift_lets -underBinder); with_reducible intro x; with_reducible refine hav (p := State.Sound pend x) ?_ (fun _ => ?_); (on_goal 1 => dsimp only [x]); (on_goal 2 => clear_value x))
    | ((try lift_lets -underBinder); with_reducible intro x; refine hav (p := (x : Comp) = x) rfl (fun _ => ?_))
    | ((try lift_lets -underBinder); with_reducible intro x; refine hav (p := (fun y => x y) = x) rfl (fun _ => ?_))
    | ((try lift_lets -underBinder); with_reducible intro x; clear_value x)
    | (with_reducible intro _)
    | (split)
    | (with_reducible refine setAttn_ok ?_)
    | (with_reducible refine haltQueue_ok ?_)
    | (with_reducible refine logError_ok ?_)
    | (with_reducible refine State.Sound.mk' rfl (by first | rfl | simp) rfl ?_)

theorem noteBatch_ok {s : State} {q g : Nat} {o : BatchOut} (hs : s.Sound pend) : (noteBatch s q g o).Sound pend := by
  unfold noteBatch
  repeat'
    first
    | (with_reducible assumption)
    | ((try lift_lets -underBinder); with_reducible intro x; with_reducible refine hav (p := State.Sound pend x) ?_ (fun _ => ?_); (on_goal 1 => dsimp only [x]); (on_goal 2 => clear_value x))
    | ((try lift_lets -underBinder); with_reducible intro x; refine hav (p := (x : Comp) = x) rfl (fun _ => ?_))
    | ((try lift_lets -underBinder); with_reducible intro x; refine hav (p := (fun y => x y) = x) rfl (fun _ => ?_))
    | ((try lift_lets -underBinder); with_reducible intro x; clear_value x)
    | (with_reducible intro _)
    | (split)
    | (with_reducible refine flagVec_ok ?_)
    | (with_reducible refine noteAnomalies_ok ?_)
    | (dsimp only)
    | (with_reducible refine State.Sound.mk' rfl (by first | rfl | simp) rfl ?_)

theorem commitBatch_ok {s : State} {q : Nat} {wk : VecWork} {o : BatchOut} (hs : s.Sound pend) : (commitBatch s q wk o).Sound pend := by
  unfold commitBatch
  repeat'
    first
    | (with_reducible assumption)
    | ((try lift_lets -underBinder); with_reducible intro x; with_reducible refine hav (p := State.Sound pend x) ?_ (fun _ => ?_); (on_goal 1 => dsimp only [x]); (on_goal 2 => clear_value x))
    | ((try lift_lets -underBinder); with_reducible intro x; refine hav (p := (x : Comp) = x) rfl (fun _ => ?_))
    | ((try lift_lets -underBinder); with_reducible intro x; refine hav (p := (fun y => x y) = x) rfl (fun _ => ?_))
    | ((try lift_lets -underBinder); with_reducible intro x; clear_value x)
    | (with_reducible intro _)
    | (split)
    | (with_reducible refine setQueue_ok ?_)
    | (with_reducible refine releaseFrames_ok ?_)
    | (with_reducible refine advance_ok ?_)
    | (with_reducible refine commitWrites_ok ?_)
    | (dsimp only)
    | (with_reducible refine State.Sound.mk' rfl (by first | rfl | simp) rfl ?_)

theorem batchErrors_ok {s : State} {die job : Nat} {groups : List Nat} {fs : List FaultAt} (hs : s.Sound pend) : (batchErrors s die job groups fs).Sound pend := by
  unfold batchErrors
  repeat'
    first
    | (with_reducible assumption)
    | ((try lift_lets -underBinder); with_reducible intro x; with_reducible refine hav (p := State.Sound pend x) ?_ (fun _ => ?_); (on_goal 1 => dsimp only [x]); (on_goal 2 => clear_value x))
    | ((try lift_lets -underBinder); with_reducible intro x; refine hav (p := (x : Comp) = x) rfl (fun _ => ?_))
    | ((try lift_lets -underBinder); with_reducible intro x; refine hav (p := (fun y => x y) = x) rfl (fun _ => ?_))
    | ((try lift_lets -underBinder); with_reducible intro x; clear_value x)
    | (with_reducible intro _)
    | (split)
    | (with_reducible refine residueErrors_ok ?_)
    | (dsimp only)
    | (with_reducible refine State.Sound.mk' rfl (by first | rfl | simp) rfl ?_)

theorem failedBatches_ok {s : State} {q : Nat} {groups : List Nat} {fs : List FaultAt} {o : BatchOut} (hs : s.Sound pend) : (failedBatches s q groups fs o).Sound pend := by
  unfold failedBatches
  repeat'
    first
    | (with_reducible assumption)
    | ((try lift_lets -underBinder); with_reducible intro x; with_reducible refine hav (p := State.Sound pend x) ?_ (fun _ => ?_); (on_goal 1 => dsimp only [x]); (on_goal 2 => clear_value x))
    | ((try lift_lets -underBinder); with_reducible intro x; refine hav (p := (x : Comp) = x) rfl (fun _ => ?_))
    | ((try lift_lets -underBinder); with_reducible intro x; refine hav (p := (fun y => x y) = x) rfl (fun _ => ?_))
    | ((try lift_lets -underBinder); with_reducible intro x; clear_value x)
    | (with_reducible intro _)
    | (split)
    | (with_reducible refine faultFlags_ok ?_ ?_)
    | (with_reducible refine noteBatch_ok ?_)
    | (with_reducible refine batchErrors_ok ?_)
    | (with_reducible refine State.Sound.mk' rfl (by first | rfl | simp) rfl ?_)

theorem queueBatch_ok {s : State} {q : Nat} {u : Upset} (hs : s.Sound pend) : (queueBatch s q u).Sound pend := by
  unfold queueBatch
  repeat'
    first
    | (with_reducible assumption)
    | ((try lift_lets -underBinder); with_reducible intro x; with_reducible refine hav (p := State.Sound pend x) ?_ (fun _ => ?_); (on_goal 1 => dsimp only [x]); (on_goal 2 => clear_value x))
    | ((try lift_lets -underBinder); with_reducible intro x; refine hav (p := (x : Comp) = x) rfl (fun _ => ?_))
    | ((try lift_lets -underBinder); with_reducible intro x; refine hav (p := (fun y => x y) = x) rfl (fun _ => ?_))
    | ((try lift_lets -underBinder); with_reducible intro x; clear_value x)
    | (with_reducible intro _)
    | (split)
    | (with_reducible refine bumpMmu_ok ?_)
    | (with_reducible refine translationFault_ok ?_)
    | (with_reducible refine tierFault_ok ?_)
    | (with_reducible refine holdFrames_ok ?_)
    | (with_reducible refine tlbTouch_ok ?_)
    | (with_reducible refine setInteg_ok ?_)
    | (with_reducible refine countTile_ok ?_)
    | (with_reducible refine sampleTile_ok ?_)
    | (with_reducible refine eccError_ok ?_)
    | (with_reducible refine tileFails_ok ?_)
    | (with_reducible refine noteBatch_ok ?_)
    | (with_reducible refine commitBatch_ok ?_)
    | (with_reducible refine failedBatches_ok ?_)
    | (dsimp only)
    | (with_reducible refine pair1_ok ?_ (by assumption))
    | (with_reducible refine State.Sound.mk' rfl (by first | rfl | simp) rfl ?_)

theorem failedItems_ok {s : State} {die job : Nat} {groups : List Nat} {fs : List FaultAt} (hs : s.Sound pend) : (failedItems s die job groups fs).Sound pend := by
  unfold failedItems
  repeat'
    first
    | (with_reducible assumption)
    | ((try lift_lets -underBinder); with_reducible intro x; with_reducible refine hav (p := State.Sound pend x) ?_ (fun _ => ?_); (on_goal 1 => dsimp only [x]); (on_goal 2 => clear_value x))
    | ((try lift_lets -underBinder); with_reducible intro x; refine hav (p := (x : Comp) = x) rfl (fun _ => ?_))
    | ((try lift_lets -underBinder); with_reducible intro x; refine hav (p := (fun y => x y) = x) rfl (fun _ => ?_))
    | ((try lift_lets -underBinder); with_reducible intro x; clear_value x)
    | (with_reducible intro _)
    | (split)
    | (with_reducible refine flagVec_ok ?_)
    | (with_reducible refine faultFlags_ok ?_ ?_)
    | (with_reducible refine batchErrors_ok ?_)
    | (with_reducible refine State.Sound.mk' rfl (by first | rfl | simp) rfl ?_)

theorem shardBatch_ok {s : State} {job id : Nat} {u : Upset} (hs : s.Sound pend) : (shardBatch s job id u).Sound pend := by
  unfold shardBatch
  repeat'
    first
    | (with_reducible assumption)
    | ((try lift_lets -underBinder); with_reducible intro x; with_reducible refine hav (p := State.Sound pend x) ?_ (fun _ => ?_); (on_goal 1 => dsimp only [x]); (on_goal 2 => clear_value x))
    | ((try lift_lets -underBinder); with_reducible intro x; refine hav (p := (x : Comp) = x) rfl (fun _ => ?_))
    | ((try lift_lets -underBinder); with_reducible intro x; refine hav (p := (fun y => x y) = x) rfl (fun _ => ?_))
    | ((try lift_lets -underBinder); with_reducible intro x; clear_value x)
    | (with_reducible intro _)
    | (split)
    | (with_reducible refine setAttn_ok ?_)
    | (with_reducible refine bumpMmu_ok ?_)
    | (with_reducible refine logError_ok ?_)
    | (with_reducible refine setInteg_ok ?_)
    | (with_reducible refine countTile_ok ?_)
    | (with_reducible refine sampleTile_ok ?_)
    | (with_reducible refine eccError_ok ?_)
    | (with_reducible refine emitCasts_ok ?_)
    | (with_reducible refine noteItem_ok ?_)
    | (with_reducible refine stepItem_ok ?_)
    | (with_reducible refine failedItems_ok ?_)
    | (dsimp only)
    | (with_reducible refine pair1_ok ?_ (by assumption))
    | (with_reducible refine State.Sound.mk' rfl (by first | rfl | simp) rfl ?_)

theorem doHawthornBatch_ok {w : BatchWork} {u : Upset} {s : State} (hs : s.Sound pend) : (doHawthornBatch w u s).Sound pend := by
  unfold doHawthornBatch
  repeat'
    first
    | (with_reducible assumption)
    | ((try lift_lets -underBinder); with_reducible intro x; with_reducible refine hav (p := State.Sound pend x) ?_ (fun _ => ?_); (on_goal 1 => dsimp only [x]); (on_goal 2 => clear_value x))
    | ((try lift_lets -underBinder); with_reducible intro x; refine hav (p := (x : Comp) = x) rfl (fun _ => ?_))
    | ((try lift_lets -underBinder); with_reducible intro x; refine hav (p := (fun y => x y) = x) rfl (fun _ => ?_))
    | ((try lift_lets -underBinder); with_reducible intro x; clear_value x)
    | (with_reducible intro _)
    | (split)
    | (with_reducible refine queueBatch_ok ?_)
    | (with_reducible refine shardBatch_ok ?_)
    | (with_reducible refine State.Sound.mk' rfl (by first | rfl | simp) rfl ?_)

theorem setLaurel_ok {s : State} {die i : Nat} {f : LaurelWork → LaurelWork} (hs : s.Sound pend) : (setLaurel s die i f).Sound pend := by
  unfold setLaurel
  repeat'
    first
    | (with_reducible assumption)
    | ((try lift_lets -underBinder); with_reducible intro x; with_reducible refine hav (p := State.Sound pend x) ?_ (fun _ => ?_); (on_goal 1 => dsimp only [x]); (on_goal 2 => clear_value x))
    | ((try lift_lets -underBinder); with_reducible intro x; refine hav (p := (x : Comp) = x) rfl (fun _ => ?_))
    | ((try lift_lets -underBinder); with_reducible intro x; refine hav (p := (fun y => x y) = x) rfl (fun _ => ?_))
    | ((try lift_lets -underBinder); with_reducible intro x; clear_value x)
    | (with_reducible intro _)
    | (split)
    | (with_reducible refine State.Sound.mk' rfl (by first | rfl | simp) rfl ?_)

theorem dropLaurel_ok {s : State} {die i : Nat} (hs : s.Sound pend) : (dropLaurel s die i).Sound pend := by
  unfold dropLaurel
  repeat'
    first
    | (with_reducible assumption)
    | ((try lift_lets -underBinder); with_reducible intro x; with_reducible refine hav (p := State.Sound pend x) ?_ (fun _ => ?_); (on_goal 1 => dsimp only [x]); (on_goal 2 => clear_value x))
    | ((try lift_lets -underBinder); with_reducible intro x; refine hav (p := (x : Comp) = x) rfl (fun _ => ?_))
    | ((try lift_lets -underBinder); with_reducible intro x; refine hav (p := (fun y => x y) = x) rfl (fun _ => ?_))
    | ((try lift_lets -underBinder); with_reducible intro x; clear_value x)
    | (with_reducible intro _)
    | (split)
    | (with_reducible refine State.Sound.mk' rfl (by first | rfl | simp) rfl ?_)

theorem notePass_ok {s : State} {die : Nat} {wk : LaurelWork} {o : PassOut} (hs : s.Sound pend) : (notePass s die wk o).Sound pend := by
  unfold notePass
  repeat'
    first
    | (with_reducible assumption)
    | ((try lift_lets -underBinder); with_reducible intro x; with_reducible refine hav (p := State.Sound pend x) ?_ (fun _ => ?_); (on_goal 1 => dsimp only [x]); (on_goal 2 => clear_value x))
    | ((try lift_lets -underBinder); with_reducible intro x; refine hav (p := (x : Comp) = x) rfl (fun _ => ?_))
    | ((try lift_lets -underBinder); with_reducible intro x; refine hav (p := (fun y => x y) = x) rfl (fun _ => ?_))
    | ((try lift_lets -underBinder); with_reducible intro x; clear_value x)
    | (with_reducible intro _)
    | (split)
    | (with_reducible refine flagMtx_ok ?_)
    | (with_reducible refine countPass_ok ?_)
    | (with_reducible refine noteAnomalies_ok ?_)
    | (dsimp only)
    | (with_reducible refine State.Sound.mk' rfl (by first | rfl | simp) rfl ?_)

theorem failedPasses_ok {s : State} {die : Nat} {fs : List FaultAt} {wk : LaurelWork} {o : PassOut} (hs : s.Sound pend) : (failedPasses s die fs wk o).Sound pend := by
  unfold failedPasses
  repeat'
    first
    | (with_reducible assumption)
    | ((try lift_lets -underBinder); with_reducible intro x; with_reducible refine hav (p := State.Sound pend x) ?_ (fun _ => ?_); (on_goal 1 => dsimp only [x]); (on_goal 2 => clear_value x))
    | ((try lift_lets -underBinder); with_reducible intro x; refine hav (p := (x : Comp) = x) rfl (fun _ => ?_))
    | ((try lift_lets -underBinder); with_reducible intro x; refine hav (p := (fun y => x y) = x) rfl (fun _ => ?_))
    | ((try lift_lets -underBinder); with_reducible intro x; clear_value x)
    | (with_reducible intro _)
    | (split)
    | (with_reducible refine faultFlags_ok ?_ ?_)
    | (with_reducible refine passErrors_ok ?_)
    | (with_reducible refine notePass_ok ?_)
    | (with_reducible refine State.Sound.mk' rfl (by first | rfl | simp) rfl ?_)

theorem laurelFeeds_ok {s : State} {wk : LaurelWork} {ws : List WriteOp} (hs : s.Sound pend) : (laurelFeeds s wk ws).Sound pend := by
  unfold laurelFeeds
  repeat'
    first
    | (with_reducible assumption)
    | ((try lift_lets -underBinder); with_reducible intro x; with_reducible refine hav (p := State.Sound pend x) ?_ (fun _ => ?_); (on_goal 1 => dsimp only [x]); (on_goal 2 => clear_value x))
    | ((try lift_lets -underBinder); with_reducible intro x; refine hav (p := (x : Comp) = x) rfl (fun _ => ?_))
    | ((try lift_lets -underBinder); with_reducible intro x; refine hav (p := (fun y => x y) = x) rfl (fun _ => ?_))
    | ((try lift_lets -underBinder); with_reducible intro x; clear_value x)
    | (with_reducible intro _)
    | (split)
    | (with_reducible refine setQueue_ok ?_)
    | (with_reducible refine State.Sound.mk' rfl (by first | rfl | simp) rfl ?_)

theorem commitPass_ok {s : State} {die i : Nat} {wk : LaurelWork} {o : PassOut} (hs : s.Sound pend) : (commitPass s die i wk o).Sound pend := by
  unfold commitPass
  repeat'
    first
    | (with_reducible assumption)
    | ((try lift_lets -underBinder); with_reducible intro x; with_reducible refine hav (p := State.Sound pend x) ?_ (fun _ => ?_); (on_goal 1 => dsimp only [x]); (on_goal 2 => clear_value x))
    | ((try lift_lets -underBinder); with_reducible intro x; refine hav (p := (x : Comp) = x) rfl (fun _ => ?_))
    | ((try lift_lets -underBinder); with_reducible intro x; refine hav (p := (fun y => x y) = x) rfl (fun _ => ?_))
    | ((try lift_lets -underBinder); with_reducible intro x; clear_value x)
    | (with_reducible intro _)
    | (split)
    | (with_reducible refine setQueue_ok ?_)
    | (with_reducible refine advance_ok ?_)
    | (with_reducible refine setJobFlag_ok ?_)
    | (with_reducible refine writeOps_ok ?_)
    | (with_reducible refine setLaurel_ok ?_)
    | (with_reducible refine dropLaurel_ok ?_)
    | (with_reducible refine laurelFeeds_ok ?_)
    | (dsimp only)
    | (with_reducible refine State.Sound.mk' rfl (by first | rfl | simp) rfl ?_)

theorem passStops_ok {s : State} {die i : Nat} {wk : LaurelWork} {f : State → State} (hs : s.Sound pend) (hf : ∀ x0, x0.Sound pend → (f x0).Sound pend) : (passStops s die i wk f).Sound pend := by
  unfold passStops
  repeat'
    first
    | (with_reducible assumption)
    | ((try lift_lets -underBinder); with_reducible intro x; with_reducible refine hav (p := State.Sound pend x) ?_ (fun _ => ?_); (on_goal 1 => dsimp only [x]); (on_goal 2 => clear_value x))
    | ((try lift_lets -underBinder); with_reducible intro x; refine hav (p := (x : Comp) = x) rfl (fun _ => ?_))
    | ((try lift_lets -underBinder); with_reducible intro x; refine hav (p := (fun y => x y) = x) rfl (fun _ => ?_))
    | ((try lift_lets -underBinder); with_reducible intro x; clear_value x)
    | (with_reducible intro _)
    | (split)
    | (with_reducible refine setQueue_ok ?_)
    | (with_reducible refine dropLaurel_ok ?_)
    | (with_reducible refine laurelFeeds_ok ?_)
    | (with_reducible refine hf _ ?_)
    | (with_reducible refine State.Sound.mk' rfl (by first | rfl | simp) rfl ?_)

theorem doLaurelBlockPass_ok {die : Nat} {u : Upset} {s : State} (hs : s.Sound pend) : (doLaurelBlockPass die u s).Sound pend := by
  unfold doLaurelBlockPass
  repeat'
    first
    | (with_reducible assumption)
    | ((try lift_lets -underBinder); with_reducible intro x; with_reducible refine hav (p := State.Sound pend x) ?_ (fun _ => ?_); (on_goal 1 => dsimp only [x]); (on_goal 2 => clear_value x))
    | ((try lift_lets -underBinder); with_reducible intro x; refine hav (p := (x : Comp) = x) rfl (fun _ => ?_))
    | ((try lift_lets -underBinder); with_reducible intro x; refine hav (p := (fun y => x y) = x) rfl (fun _ => ?_))
    | ((try lift_lets -underBinder); with_reducible intro x; clear_value x)
    | (with_reducible intro _)
    | (split)
    | (with_reducible refine bumpMmu_ok ?_)
    | (with_reducible refine translationFault_ok ?_)
    | (with_reducible refine tlbTouch_ok ?_)
    | (with_reducible refine setInteg_ok ?_)
    | (with_reducible refine countTile_ok ?_)
    | (with_reducible refine sampleTile_ok ?_)
    | (with_reducible refine eccError_ok ?_)
    | (with_reducible refine tileFails_ok ?_)
    | (with_reducible refine notePass_ok ?_)
    | (with_reducible refine failedPasses_ok ?_)
    | (with_reducible refine commitPass_ok ?_)
    | (with_reducible refine passStops_ok ?_ ?_)
    | (dsimp only)
    | (with_reducible refine pair1_ok ?_ (by assumption))
    | (with_reducible refine State.Sound.mk' rfl (by first | rfl | simp) rfl ?_)

theorem bounceWait_ok {s : State} {i req : Nat} {quota : Bool} (hs : s.Sound pend) : (bounceWait s i req quota).Sound pend := by
  unfold bounceWait
  repeat'
    first
    | (with_reducible assumption)
    | ((try lift_lets -underBinder); with_reducible intro x; with_reducible refine hav (p := State.Sound pend x) ?_ (fun _ => ?_); (on_goal 1 => dsimp only [x]); (on_goal 2 => clear_value x))
    | ((try lift_lets -underBinder); with_reducible intro x; refine hav (p := (x : Comp) = x) rfl (fun _ => ?_))
    | ((try lift_lets -underBinder); with_reducible intro x; refine hav (p := (fun y => x y) = x) rfl (fun _ => ?_))
    | ((try lift_lets -underBinder); with_reducible intro x; clear_value x)
    | (with_reducible intro _)
    | (split)
    | (with_reducible refine setBpm_ok ?_)
    | (with_reducible refine freeze_ok ?_)
    | (with_reducible refine setChan_ok ?_)
    | (dsimp only)
    | (with_reducible refine State.Sound.mk' rfl (by first | rfl | simp) rfl ?_)

theorem doDmaBlock_ok {die ch : Nat} {u : Upset} {ptr : Option Nat} {s : State} (hs : s.Sound pend) : (doDmaBlock die ch u ptr s).Sound pend := by
  unfold doDmaBlock
  repeat'
    first
    | (with_reducible assumption)
    | ((try lift_lets -underBinder); with_reducible intro x; with_reducible refine hav (p := State.Sound pend x) ?_ (fun _ => ?_); (on_goal 1 => dsimp only [x]); (on_goal 2 => clear_value x))
    | ((try lift_lets -underBinder); with_reducible intro x; refine hav (p := (x : Comp) = x) rfl (fun _ => ?_))
    | ((try lift_lets -underBinder); with_reducible intro x; refine hav (p := (fun y => x y) = x) rfl (fun _ => ?_))
    | ((try lift_lets -underBinder); with_reducible intro x; clear_value x)
    | (with_reducible intro _)
    | (split)
    | (with_reducible refine bumpMmu_ok ?_)
    | (with_reducible refine tlbTouch_ok ?_)
    | (with_reducible refine bpmAlloc_ok ?_)
    | (with_reducible refine dropAlloc_ok ?_)
    | (with_reducible refine freeze_ok ?_)
    | (with_reducible refine eccError_ok ?_)
    | (with_reducible refine setChan_ok ?_)
    | (with_reducible refine dmaFault_ok ?_)
    | (with_reducible refine moveBlock_ok ?_)
    | (with_reducible refine finishBlock_ok ?_)
    | (with_reducible refine bounceWait_ok ?_)
    | (with_reducible exact wait_ok)
    | (with_reducible exact quota_ok)
    | (with_reducible refine granted_ok ?_)
    | (with_reducible refine of_granted ?_ (by assumption))
    | (with_reducible refine State.Sound.mk' rfl (by first | rfl | simp) rfl ?_)

theorem noteHeld_ok {s : State} {d : DupWait} {u : Nat} {faulty : Option FpFlags} (hs : s.Sound pend) : (noteHeld s d u faulty).Sound pend := by
  unfold noteHeld
  repeat'
    first
    | (with_reducible assumption)
    | ((try lift_lets -underBinder); with_reducible intro x; with_reducible refine hav (p := State.Sound pend x) ?_ (fun _ => ?_); (on_goal 1 => dsimp only [x]); (on_goal 2 => clear_value x))
    | ((try lift_lets -underBinder); with_reducible intro x; refine hav (p := (x : Comp) = x) rfl (fun _ => ?_))
    | ((try lift_lets -underBinder); with_reducible intro x; refine hav (p := (fun y => x y) = x) rfl (fun _ => ?_))
    | ((try lift_lets -underBinder); with_reducible intro x; clear_value x)
    | (with_reducible intro _)
    | (split)
    | (with_reducible refine flagVec_ok ?_)
    | (with_reducible refine noteRuns_ok ?_)
    | (with_reducible refine noteItem_ok ?_)
    | (with_reducible refine noteBatch_ok ?_)
    | (with_reducible refine notePass_ok ?_)
    | (dsimp only)
    | (with_reducible refine State.Sound.mk' rfl (by first | rfl | simp) rfl ?_)

theorem faultHeld_ok {s : State} {d : DupWait} {units : List Nat} (hs : s.Sound pend) : (faultHeld s d units).Sound pend := by
  unfold faultHeld
  repeat'
    first
    | (with_reducible assumption)
    | ((try lift_lets -underBinder); with_reducible intro x; with_reducible refine hav (p := State.Sound pend x) ?_ (fun _ => ?_); (on_goal 1 => dsimp only [x]); (on_goal 2 => clear_value x))
    | ((try lift_lets -underBinder); with_reducible intro x; refine hav (p := (x : Comp) = x) rfl (fun _ => ?_))
    | ((try lift_lets -underBinder); with_reducible intro x; refine hav (p := (fun y => x y) = x) rfl (fun _ => ?_))
    | ((try lift_lets -underBinder); with_reducible intro x; clear_value x)
    | (with_reducible intro _)
    | (split)
    | (with_reducible refine faultFlags_ok ?_ ?_)
    | (with_reducible refine noteHeld_ok ?_)
    | (with_reducible refine State.Sound.mk' rfl (by first | rfl | simp) rfl ?_)

theorem dupOutputs_ok {s : State} {d : DupWait} {f : Outp → Outp} (hs : s.Sound pend) : (dupOutputs s d f).Sound pend := by
  unfold dupOutputs
  repeat'
    first
    | (with_reducible assumption)
    | ((try lift_lets -underBinder); with_reducible intro x; with_reducible refine hav (p := State.Sound pend x) ?_ (fun _ => ?_); (on_goal 1 => dsimp only [x]); (on_goal 2 => clear_value x))
    | ((try lift_lets -underBinder); with_reducible intro x; refine hav (p := (x : Comp) = x) rfl (fun _ => ?_))
    | ((try lift_lets -underBinder); with_reducible intro x; refine hav (p := (fun y => x y) = x) rfl (fun _ => ?_))
    | ((try lift_lets -underBinder); with_reducible intro x; clear_value x)
    | (with_reducible intro _)
    | (split)
    | (with_reducible refine setColl_ok ?_)
    | (with_reducible refine State.Sound.mk' rfl (by first | rfl | simp) rfl ?_)

theorem withdrawChunk_ok {s : State} {d : DupWait} {g : Nat} (hs : s.Sound pend) : (withdrawChunk s d g).Sound pend := by
  unfold withdrawChunk
  repeat'
    first
    | (with_reducible assumption)
    | ((try lift_lets -underBinder); with_reducible intro x; with_reducible refine hav (p := State.Sound pend x) ?_ (fun _ => ?_); (on_goal 1 => dsimp only [x]); (on_goal 2 => clear_value x))
    | ((try lift_lets -underBinder); with_reducible intro x; refine hav (p := (x : Comp) = x) rfl (fun _ => ?_))
    | ((try lift_lets -underBinder); with_reducible intro x; refine hav (p := (fun y => x y) = x) rfl (fun _ => ?_))
    | ((try lift_lets -underBinder); with_reducible intro x; clear_value x)
    | (with_reducible intro _)
    | (split)
    | (with_reducible refine squashJob_ok ?_)
    | (with_reducible refine originate_ok ?_)
    | (with_reducible refine setColl_ok ?_)
    | (with_reducible refine icnt_ok ?_)
    | (with_reducible refine sendFrames_ok ?_)
    | (with_reducible refine dropOwn_ok ?_)
    | (with_reducible refine foldl_ok (fun _ _ _ => ?_) ?_)
    | (dsimp only)
    | (with_reducible refine State.Sound.mk' rfl (by first | rfl | simp) rfl ?_)

theorem commitHeld_ok {s : State} {d : DupWait} (hs : s.Sound pend) : (commitHeld s d).Sound pend := by
  unfold commitHeld
  repeat'
    first
    | (with_reducible assumption)
    | ((try lift_lets -underBinder); with_reducible intro x; with_reducible refine hav (p := State.Sound pend x) ?_ (fun _ => ?_); (on_goal 1 => dsimp only [x]); (on_goal 2 => clear_value x))
    | ((try lift_lets -underBinder); with_reducible intro x; refine hav (p := (x : Comp) = x) rfl (fun _ => ?_))
    | ((try lift_lets -underBinder); with_reducible intro x; refine hav (p := (fun y => x y) = x) rfl (fun _ => ?_))
    | ((try lift_lets -underBinder); with_reducible intro x; clear_value x)
    | (with_reducible intro _)
    | (split)
    | (with_reducible refine settleColl_ok ?_)
    | (with_reducible refine emitCasts_ok ?_)
    | (with_reducible refine stepItem_ok ?_)
    | (with_reducible refine commitBatch_ok ?_)
    | (with_reducible refine commitPass_ok ?_)
    | (with_reducible refine dupOutputs_ok ?_)
    | (dsimp only)
    | (with_reducible refine State.Sound.mk' rfl (by first | rfl | simp) rfl ?_)

theorem failHeld_ok {s : State} {d : DupWait} (hs : s.Sound pend) : (failHeld s d).Sound pend := by
  unfold failHeld
  repeat'
    first
    | (with_reducible assumption)
    | ((try lift_lets -underBinder); with_reducible intro x; with_reducible refine hav (p := State.Sound pend x) ?_ (fun _ => ?_); (on_goal 1 => dsimp only [x]); (on_goal 2 => clear_value x))
    | ((try lift_lets -underBinder); with_reducible intro x; refine hav (p := (x : Comp) = x) rfl (fun _ => ?_))
    | ((try lift_lets -underBinder); with_reducible intro x; refine hav (p := (fun y => x y) = x) rfl (fun _ => ?_))
    | ((try lift_lets -underBinder); with_reducible intro x; clear_value x)
    | (with_reducible intro _)
    | (split)
    | (with_reducible refine setAttn_ok ?_)
    | (with_reducible refine logError_ok ?_)
    | (with_reducible refine outputFails_ok ?_)
    | (with_reducible refine tileFails_ok ?_)
    | (with_reducible refine passStops_ok ?_ ?_)
    | (dsimp only)
    | (with_reducible refine State.Sound.mk' rfl (by first | rfl | simp) rfl ?_)

theorem dupLogged_ok {s : State} {d : DupWait} {u : Nat} {later : Bool} {f : FaultAt} (hs : s.Sound pend) : (dupLogged s d u later f).Sound pend := by
  unfold dupLogged
  repeat'
    first
    | (with_reducible assumption)
    | ((try lift_lets -underBinder); with_reducible intro x; with_reducible refine hav (p := State.Sound pend x) ?_ (fun _ => ?_); (on_goal 1 => dsimp only [x]); (on_goal 2 => clear_value x))
    | ((try lift_lets -underBinder); with_reducible intro x; refine hav (p := (x : Comp) = x) rfl (fun _ => ?_))
    | ((try lift_lets -underBinder); with_reducible intro x; refine hav (p := (fun y => x y) = x) rfl (fun _ => ?_))
    | ((try lift_lets -underBinder); with_reducible intro x; clear_value x)
    | (with_reducible intro _)
    | (split)
    | (with_reducible refine icnt_ok ?_)
    | (with_reducible refine logError_ok ?_)
    | (with_reducible refine logPass_ok ?_)
    | (with_reducible refine State.Sound.mk' rfl (by first | rfl | simp) rfl ?_)

theorem settleThird_ok {s : State} {d : DupWait} {firstStands : Bool} {third : Nat} (hs : s.Sound pend) : (settleThird s d firstStands third).Sound pend := by
  unfold settleThird
  repeat'
    first
    | (with_reducible assumption)
    | ((try lift_lets -underBinder); with_reducible intro x; with_reducible refine hav (p := State.Sound pend x) ?_ (fun _ => ?_); (on_goal 1 => dsimp only [x]); (on_goal 2 => clear_value x))
    | ((try lift_lets -underBinder); with_reducible intro x; refine hav (p := (x : Comp) = x) rfl (fun _ => ?_))
    | ((try lift_lets -underBinder); with_reducible intro x; refine hav (p := (fun y => x y) = x) rfl (fun _ => ?_))
    | ((try lift_lets -underBinder); with_reducible intro x; clear_value x)
    | (with_reducible intro _)
    | (split)
    | (with_reducible refine settleColl_ok ?_)
    | (with_reducible refine dupOutputs_ok ?_)
    | (with_reducible refine withdrawChunk_ok ?_)
    | (with_reducible refine commitHeld_ok ?_)
    | (with_reducible refine failHeld_ok ?_)
    | (with_reducible refine State.Sound.mk' rfl (by first | rfl | simp) rfl ?_)

theorem doDuplicateExecution_ok {i : Nat} {v : DupVerdict} {s : State} (hs : s.Sound pend) : (doDuplicateExecution i v s).Sound pend := by
  unfold doDuplicateExecution
  repeat'
    first
    | (with_reducible assumption)
    | ((try lift_lets -underBinder); with_reducible intro x; with_reducible refine hav (p := State.Sound pend x) ?_ (fun _ => ?_); (on_goal 1 => dsimp only [x]); (on_goal 2 => clear_value x))
    | ((try lift_lets -underBinder); with_reducible intro x; refine hav (p := (x : Comp) = x) rfl (fun _ => ?_))
    | ((try lift_lets -underBinder); with_reducible intro x; refine hav (p := (fun y => x y) = x) rfl (fun _ => ?_))
    | ((try lift_lets -underBinder); with_reducible intro x; clear_value x)
    | (with_reducible intro _)
    | (split)
    | (with_reducible refine icnt_ok ?_)
    | (with_reducible refine setInteg_ok ?_)
    | (with_reducible refine noteHeld_ok ?_)
    | (with_reducible refine faultHeld_ok ?_)
    | (with_reducible refine commitHeld_ok ?_)
    | (with_reducible refine failHeld_ok ?_)
    | (with_reducible refine dupLogged_ok ?_)
    | (with_reducible refine settleThird_ok ?_)
    | (dsimp only)
    | (with_reducible refine State.Sound.mk' rfl (by first | rfl | simp) rfl ?_)

theorem expelByDegraded_ok {s : State} (hs : s.Sound pend) : (expelByDegraded s).Sound pend := by
  unfold expelByDegraded
  repeat'
    first
    | (with_reducible assumption)
    | ((try lift_lets -underBinder); with_reducible intro x; with_reducible refine hav (p := State.Sound pend x) ?_ (fun _ => ?_); (on_goal 1 => dsimp only [x]); (on_goal 2 => clear_value x))
    | ((try lift_lets -underBinder); with_reducible intro x; refine hav (p := (x : Comp) = x) rfl (fun _ => ?_))
    | ((try lift_lets -underBinder); with_reducible intro x; refine hav (p := (fun y => x y) = x) rfl (fun _ => ?_))
    | ((try lift_lets -underBinder); with_reducible intro x; clear_value x)
    | (with_reducible intro _)
    | (split)
    | (with_reducible refine setAttn_ok ?_)
    | (with_reducible refine setInteg_ok ?_)
    | (with_reducible refine State.Sound.mk' rfl (by first | rfl | simp) rfl ?_)

theorem floorDie_ok {s : State} {d : Nat} (hs : s.Sound pend) : (floorDie s d).Sound pend := by
  unfold floorDie
  repeat'
    first
    | (with_reducible assumption)
    | ((try lift_lets -underBinder); with_reducible intro x; with_reducible refine hav (p := State.Sound pend x) ?_ (fun _ => ?_); (on_goal 1 => dsimp only [x]); (on_goal 2 => clear_value x))
    | ((try lift_lets -underBinder); with_reducible intro x; refine hav (p := (x : Comp) = x) rfl (fun _ => ?_))
    | ((try lift_lets -underBinder); with_reducible intro x; refine hav (p := (fun y => x y) = x) rfl (fun _ => ?_))
    | ((try lift_lets -underBinder); with_reducible intro x; clear_value x)
    | (with_reducible intro _)
    | (split)
    | (dsimp only)
    | (with_reducible refine State.Sound.mk' rfl (by first | rfl | simp) rfl ?_)

theorem enterDegraded_ok {s : State} (hs : s.Sound pend) : (enterDegraded s).Sound pend := by
  unfold enterDegraded
  repeat'
    first
    | (with_reducible assumption)
    | ((try lift_lets -underBinder); with_reducible intro x; with_reducible refine hav (p := State.Sound pend x) ?_ (fun _ => ?_); (on_goal 1 => dsimp only [x]); (on_goal 2 => clear_value x))
    | ((try lift_lets -underBinder); with_reducible intro x; refine hav (p := (x : Comp) = x) rfl (fun _ => ?_))
    | ((try lift_lets -underBinder); with_reducible intro x; refine hav (p := (fun y => x y) = x) rfl (fun _ => ?_))
    | ((try lift_lets -underBinder); with_reducible intro x; clear_value x)
    | (with_reducible intro _)
    | (split)
    | (with_reducible refine setAttn_ok ?_)
    | (with_reducible refine haltQueue_ok ?_)
    | (with_reducible refine abortHere_ok ?_)
    | (with_reducible refine setInteg_ok ?_)
    | (with_reducible refine leaveTwin_ok ?_)
    | (with_reducible refine expelByDegraded_ok ?_)
    | (with_reducible refine floorDie_ok ?_)
    | (with_reducible refine foldl_ok (fun _ _ _ => ?_) ?_)
    | (with_reducible refine State.Sound.mk' rfl (by first | rfl | simp) rfl ?_)

theorem applyRemap_ok {s : State} {unit die logical : Nat} (hs : s.Sound pend) : (applyRemap s unit die logical).Sound pend := by
  unfold applyRemap
  repeat'
    first
    | (with_reducible assumption)
    | ((try lift_lets -underBinder); with_reducible intro x; with_reducible refine hav (p := State.Sound pend x) ?_ (fun _ => ?_); (on_goal 1 => dsimp only [x]); (on_goal 2 => clear_value x))
    | ((try lift_lets -underBinder); with_reducible intro x; refine hav (p := (x : Comp) = x) rfl (fun _ => ?_))
    | ((try lift_lets -underBinder); with_reducible intro x; refine hav (p := (fun y => x y) = x) rfl (fun _ => ?_))
    | ((try lift_lets -underBinder); with_reducible intro x; clear_value x)
    | (with_reducible intro _)
    | (split)
    | (with_reducible refine setInteg_ok ?_)
    | (dsimp only)
    | (with_reducible refine State.Sound.mk' rfl (by first | rfl | simp) rfl ?_)

theorem doRemapApply_ok {unit die logical : Nat} {s : State} (hs : s.Sound pend) : (doRemapApply unit die logical s).Sound pend := by
  unfold doRemapApply
  repeat'
    first
    | (with_reducible assumption)
    | ((try lift_lets -underBinder); with_reducible intro x; with_reducible refine hav (p := State.Sound pend x) ?_ (fun _ => ?_); (on_goal 1 => dsimp only [x]); (on_goal 2 => clear_value x))
    | ((try lift_lets -underBinder); with_reducible intro x; refine hav (p := (x : Comp) = x) rfl (fun _ => ?_))
    | ((try lift_lets -underBinder); with_reducible intro x; refine hav (p := (fun y => x y) = x) rfl (fun _ => ?_))
    | ((try lift_lets -underBinder); with_reducible intro x; clear_value x)
    | (with_reducible intro _)
    | (split)
    | (with_reducible refine applyRemap_ok ?_)
    | (with_reducible refine State.Sound.mk' rfl (by first | rfl | simp) rfl ?_)

theorem doSelfTest_ok {unit die logical : Nat} {pass : Bool} {s : State} (hs : s.Sound pend) : (doSelfTest unit die logical pass s).Sound pend := by
  unfold doSelfTest
  repeat'
    first
    | (with_reducible assumption)
    | ((try lift_lets -underBinder); with_reducible intro x; with_reducible refine hav (p := State.Sound pend x) ?_ (fun _ => ?_); (on_goal 1 => dsimp only [x]); (on_goal 2 => clear_value x))
    | ((try lift_lets -underBinder); with_reducible intro x; refine hav (p := (x : Comp) = x) rfl (fun _ => ?_))
    | ((try lift_lets -underBinder); with_reducible intro x; refine hav (p := (fun y => x y) = x) rfl (fun _ => ?_))
    | ((try lift_lets -underBinder); with_reducible intro x; clear_value x)
    | (with_reducible intro _)
    | (split)
    | (with_reducible refine drawFree_ok ?_)
    | (with_reducible refine icnt_ok ?_)
    | (with_reducible refine logError_ok ?_)
    | (with_reducible refine setInteg_ok ?_)
    | (with_reducible refine enterDegraded_ok ?_)
    | (dsimp only)
    | (with_reducible refine pair2_ok ?_ (by assumption))
    | (with_reducible refine State.Sound.mk' rfl (by first | rfl | simp) rfl ?_)

end Sys2Proof.Machine
end

