-- ==== Sys2Proof/Laws/OkFmd.lean ====
section
/-! SUPPORT. The operations of Fmd.lean keep the state well formed. -/

set_option linter.unusedTactic false
set_option linter.unreachableTactic false

namespace Sys2Proof.Machine

variable {pend : List Instr}

theorem bumpFmd_ok {s : State} {k : Nat} (hs : s.Sound pend) : (bumpFmd s k).Sound pend := by
  unfold bumpFmd
  repeat'
    first
    | (with_reducible assumption)
    | ((try lift_lets -underBinder); with_reducible intro x; with_reducible refine hav (p := State.Sound pend x) ?_ (fun _ => ?_); (on_goal 1 => dsimp only [x]); (on_goal 2 => clear_value x))
    | ((try lift_lets -underBinder); with_reducible intro x; refine hav (p := (x : Comp) = x) rfl (fun _ => ?_))
    | ((try lift_lets -underBinder); with_reducible intro x; refine hav (p := (fun y => x y) = x) rfl (fun _ => ?_))
    | ((try lift_lets -underBinder); with_reducible intro x; clear_value x)
    | (with_reducible intro _)
    | (split)
    | (with_reducible refine setMgt_ok ?_)
    | (with_reducible refine State.Sound.mk' rfl (by first | rfl | simp) rfl ?_)

theorem sendReply_ok {s : State} {session tag op : Nat} {r : Res} {pl : List Byte} (hs : s.Sound pend) : (sendReply s session tag op r pl).Sound pend := by
  unfold sendReply
  repeat'
    first
    | (with_reducible assumption)
    | ((try lift_lets -underBinder); with_reducible intro x; with_reducible refine hav (p := State.Sound pend x) ?_ (fun _ => ?_); (on_goal 1 => dsimp only [x]); (on_goal 2 => clear_value x))
    | ((try lift_lets -underBinder); with_reducible intro x; refine hav (p := (x : Comp) = x) rfl (fun _ => ?_))
    | ((try lift_lets -underBinder); with_reducible intro x; refine hav (p := (fun y => x y) = x) rfl (fun _ => ?_))
    | ((try lift_lets -underBinder); with_reducible intro x; clear_value x)
    | (with_reducible intro _)
    | (split)
    | (with_reducible refine setMgt_ok ?_)
    | (dsimp only)
    | (with_reducible refine State.Sound.mk' rfl (by first | rfl | simp) rfl ?_)

theorem setSess_ok {s : State} {k : Nat} {f : Session → Session} (hs : s.Sound pend) : (setSess s k f).Sound pend := by
  unfold setSess
  repeat'
    first
    | (with_reducible assumption)
    | ((try lift_lets -underBinder); with_reducible intro x; with_reducible refine hav (p := State.Sound pend x) ?_ (fun _ => ?_); (on_goal 1 => dsimp only [x]); (on_goal 2 => clear_value x))
    | ((try lift_lets -underBinder); with_reducible intro x; refine hav (p := (x : Comp) = x) rfl (fun _ => ?_))
    | ((try lift_lets -underBinder); with_reducible intro x; refine hav (p := (fun y => x y) = x) rfl (fun _ => ?_))
    | ((try lift_lets -underBinder); with_reducible intro x; clear_value x)
    | (with_reducible intro _)
    | (split)
    | (with_reducible refine setMgt_ok ?_)
    | (with_reducible refine State.Sound.mk' rfl (by first | rfl | simp) rfl ?_)

theorem cacheReply_ok {s : State} {k tag op crc : Nat} {r : Res} {pl : List Byte} (hs : s.Sound pend) : (cacheReply s k tag op crc r pl).Sound pend := by
  unfold cacheReply
  repeat'
    first
    | (with_reducible assumption)
    | ((try lift_lets -underBinder); with_reducible intro x; with_reducible refine hav (p := State.Sound pend x) ?_ (fun _ => ?_); (on_goal 1 => dsimp only [x]); (on_goal 2 => clear_value x))
    | ((try lift_lets -underBinder); with_reducible intro x; refine hav (p := (x : Comp) = x) rfl (fun _ => ?_))
    | ((try lift_lets -underBinder); with_reducible intro x; refine hav (p := (fun y => x y) = x) rfl (fun _ => ?_))
    | ((try lift_lets -underBinder); with_reducible intro x; clear_value x)
    | (with_reducible intro _)
    | (split)
    | (with_reducible refine setSess_ok ?_)
    | (dsimp only)
    | (with_reducible refine State.Sound.mk' rfl (by first | rfl | simp) rfl ?_)

theorem finishReply_ok {s : State} {k tag op crc : Nat} {r : Res} {pl : List Byte} (hs : s.Sound pend) : (finishReply s k tag op crc r pl).Sound pend := by
  unfold finishReply
  repeat'
    first
    | (with_reducible assumption)
    | ((try lift_lets -underBinder); with_reducible intro x; with_reducible refine hav (p := State.Sound pend x) ?_ (fun _ => ?_); (on_goal 1 => dsimp only [x]); (on_goal 2 => clear_value x))
    | ((try lift_lets -underBinder); with_reducible intro x; refine hav (p := (x : Comp) = x) rfl (fun _ => ?_))
    | ((try lift_lets -underBinder); with_reducible intro x; refine hav (p := (fun y => x y) = x) rfl (fun _ => ?_))
    | ((try lift_lets -underBinder); with_reducible intro x; clear_value x)
    | (with_reducible intro _)
    | (split)
    | (with_reducible refine bumpFmd_ok ?_)
    | (with_reducible refine sendReply_ok ?_)
    | (with_reducible refine cacheReply_ok ?_)
    | (with_reducible refine State.Sound.mk' rfl (by first | rfl | simp) rfl ?_)

theorem noteMessage_ok {s : State} {k : Nat} {h : FmdReq} (hs : s.Sound pend) : (noteMessage s k h).Sound pend := by
  unfold noteMessage
  repeat'
    first
    | (with_reducible assumption)
    | ((try lift_lets -underBinder); with_reducible intro x; with_reducible refine hav (p := State.Sound pend x) ?_ (fun _ => ?_); (on_goal 1 => dsimp only [x]); (on_goal 2 => clear_value x))
    | ((try lift_lets -underBinder); with_reducible intro x; refine hav (p := (x : Comp) = x) rfl (fun _ => ?_))
    | ((try lift_lets -underBinder); with_reducible intro x; refine hav (p := (fun y => x y) = x) rfl (fun _ => ?_))
    | ((try lift_lets -underBinder); with_reducible intro x; clear_value x)
    | (with_reducible intro _)
    | (split)
    | (with_reducible refine setSess_ok ?_)
    | (dsimp only)
    | (with_reducible refine State.Sound.mk' rfl (by first | rfl | simp) rfl ?_)

theorem discardSecured_ok {s : State} (hs : s.Sound pend) : (discardSecured s).Sound pend := by
  unfold discardSecured
  repeat'
    first
    | (with_reducible assumption)
    | ((try lift_lets -underBinder); with_reducible intro x; with_reducible refine hav (p := State.Sound pend x) ?_ (fun _ => ?_); (on_goal 1 => dsimp only [x]); (on_goal 2 => clear_value x))
    | ((try lift_lets -underBinder); with_reducible intro x; refine hav (p := (x : Comp) = x) rfl (fun _ => ?_))
    | ((try lift_lets -underBinder); with_reducible intro x; refine hav (p := (fun y => x y) = x) rfl (fun _ => ?_))
    | ((try lift_lets -underBinder); with_reducible intro x; clear_value x)
    | (with_reducible intro _)
    | (split)
    | (with_reducible refine setAttn_ok ?_)
    | (with_reducible refine setMgt_ok ?_)
    | (with_reducible refine bumpFmd_ok ?_)
    | (with_reducible refine State.Sound.mk' rfl (by first | rfl | simp) rfl ?_)

theorem sessionCells_ok {s : State} {k n : Nat} (hs : s.Sound pend) : OptPairSound pend (sessionCells s k n) := by
  unfold sessionCells
  repeat'
    first
    | (with_reducible assumption)
    | ((try lift_lets -underBinder); with_reducible intro x; with_reducible refine hav (p := State.Sound pend x) ?_ (fun _ => ?_); (on_goal 1 => dsimp only [x]); (on_goal 2 => clear_value x))
    | ((try lift_lets -underBinder); with_reducible intro x; refine hav (p := (x : Comp) = x) rfl (fun _ => ?_))
    | ((try lift_lets -underBinder); with_reducible intro x; refine hav (p := (fun y => x y) = x) rfl (fun _ => ?_))
    | ((try lift_lets -underBinder); with_reducible intro x; clear_value x)
    | (with_reducible intro _)
    | (split)
    | (with_reducible refine bpmAlloc_ok ?_)
    | (dsimp only)
    | (with_reducible exact wait_ok)
    | (with_reducible exact quota_ok)
    | (with_reducible refine granted_ok ?_)
    | (with_reducible refine of_granted ?_ (by assumption))
    | (with_reducible exact nonePair_ok)
    | (with_reducible refine somePair_ok ?_)
    | (with_reducible refine of_somePair ?_ (by assumption))
    | (with_reducible refine State.Sound.mk' rfl (by first | rfl | simp) rfl ?_)

theorem answered_ok {s : State} {r : Res} {pl : List Byte} (hs : s.Sound pend) : (answered s r pl).1.Sound pend := by
  unfold answered
  repeat'
    first
    | (with_reducible assumption)
    | ((try lift_lets -underBinder); with_reducible intro x; with_reducible refine hav (p := State.Sound pend x) ?_ (fun _ => ?_); (on_goal 1 => dsimp only [x]); (on_goal 2 => clear_value x))
    | ((try lift_lets -underBinder); with_reducible intro x; refine hav (p := (x : Comp) = x) rfl (fun _ => ?_))
    | ((try lift_lets -underBinder); with_reducible intro x; refine hav (p := (fun y => x y) = x) rfl (fun _ => ?_))
    | ((try lift_lets -underBinder); with_reducible intro x; clear_value x)
    | (with_reducible intro _)
    | (split)
    | (dsimp only)
    | (with_reducible refine State.Sound.mk' rfl (by first | rfl | simp) rfl ?_)

theorem refuseReq_ok {s : State} {k tag op crc : Nat} {r : Res} (hs : s.Sound pend) : (refuseReq s k tag op crc r).Sound pend := finishReply_ok hs

theorem runThen_ok {after : State → State} {k tag op : Nat} {ops : List Byte} {bad served free : Bool} {act : State → Answer} {s : State} (hafter : ∀ x0, x0.Sound pend → (after x0).Sound pend) (hact : ∀ x0, x0.Sound pend → (act x0).1.Sound pend) (hs : s.Sound pend) : (runThen after k tag op ops bad served free act s).Sound pend := by
  unfold runThen
  repeat'
    first
    | (with_reducible assumption)
    | ((try lift_lets -underBinder); with_reducible intro x; with_reducible refine hav (p := State.Sound pend x) ?_ (fun _ => ?_); (on_goal 1 => dsimp only [x]); (on_goal 2 => clear_value x))
    | ((try lift_lets -underBinder); with_reducible intro x; refine hav (p := (x : Comp) = x) rfl (fun _ => ?_))
    | ((try lift_lets -underBinder); with_reducible intro x; refine hav (p := (fun y => x y) = x) rfl (fun _ => ?_))
    | ((try lift_lets -underBinder); with_reducible intro x; clear_value x)
    | (with_reducible intro _)
    | (split)
    | (with_reducible refine dropAlloc_ok ?_)
    | (with_reducible refine setMgt_ok ?_)
    | (with_reducible refine bumpFmd_ok ?_)
    | (with_reducible refine finishReply_ok ?_)
    | (with_reducible refine sessionCells_ok ?_)
    | (with_reducible refine refuseReq_ok ?_)
    | (with_reducible refine hafter _ ?_)
    | (with_reducible refine hact _ ?_)
    | (dsimp only)
    | (with_reducible refine pair1_ok ?_ (by assumption))
    | (with_reducible exact nonePair_ok)
    | (with_reducible refine somePair_ok ?_)
    | (with_reducible refine of_somePair ?_ (by assumption))
    | (with_reducible refine State.Sound.mk' rfl (by first | rfl | simp) rfl ?_)

theorem requestThen_ok {after : State → State} {h : FmdReq} {op : Nat} {ops : List Byte} {bad served free : Bool} {act : State → Answer} {s : State} (hafter : ∀ x0, x0.Sound pend → (after x0).Sound pend) (hact : ∀ x0, x0.Sound pend → (act x0).1.Sound pend) (hs : s.Sound pend) : (requestThen after h op ops bad served free act s).Sound pend := by
  unfold requestThen
  repeat'
    first
    | (with_reducible assumption)
    | ((try lift_lets -underBinder); with_reducible intro x; with_reducible refine hav (p := State.Sound pend x) ?_ (fun _ => ?_); (on_goal 1 => dsimp only [x]); (on_goal 2 => clear_value x))
    | ((try lift_lets -underBinder); with_reducible intro x; refine hav (p := (x : Comp) = x) rfl (fun _ => ?_))
    | ((try lift_lets -underBinder); with_reducible intro x; refine hav (p := (fun y => x y) = x) rfl (fun _ => ?_))
    | ((try lift_lets -underBinder); with_reducible intro x; clear_value x)
    | (with_reducible intro _)
    | (split)
    | (with_reducible refine sendReply_ok ?_)
    | (with_reducible refine noteMessage_ok ?_)
    | (with_reducible refine discardSecured_ok ?_)
    | (with_reducible refine runThen_ok ?_ ?_ ?_)
    | (with_reducible refine hafter _ ?_)
    | (with_reducible refine hact _ ?_)
    | (with_reducible refine pair1_ok ?_ (by assumption))
    | (with_reducible refine State.Sound.mk' rfl (by first | rfl | simp) rfl ?_)

theorem request_ok {h : FmdReq} {op : Nat} {ops : List Byte} {bad served free : Bool} {act : State → Answer} {s : State}
    (hact : ∀ x0, x0.Sound pend → (act x0).1.Sound pend) (hs : s.Sound pend) : (request h op ops bad served free act s).Sound pend :=
  requestThen_ok (fun _ h => h) hact hs

theorem writeMgt_ok {s : State} {a v : Nat} (hs : s.Sound pend) : (writeMgt s a v).2.Sound pend := by
  unfold writeMgt
  repeat'
    first
    | (with_reducible assumption)
    | ((try lift_lets -underBinder); with_reducible intro x; with_reducible refine hav (p := State.Sound pend x) ?_ (fun _ => ?_); (on_goal 1 => dsimp only [x]); (on_goal 2 => clear_value x))
    | ((try lift_lets -underBinder); with_reducible intro x; refine hav (p := (x : Comp) = x) rfl (fun _ => ?_))
    | ((try lift_lets -underBinder); with_reducible intro x; refine hav (p := (fun y => x y) = x) rfl (fun _ => ?_))
    | ((try lift_lets -underBinder); with_reducible intro x; clear_value x)
    | (with_reducible intro _)
    | (split)
    | (dsimp only)
    | (dsimp only)
    | (with_reducible refine State.Sound.mk' rfl (by first | rfl | simp) rfl ?_)

theorem writeSec_ok {s : State} {a v : Nat} (hs : s.Sound pend) : (writeSec s a v).2.Sound pend := by
  unfold writeSec
  repeat'
    first
    | (with_reducible assumption)
    | ((try lift_lets -underBinder); with_reducible intro x; with_reducible refine hav (p := State.Sound pend x) ?_ (fun _ => ?_); (on_goal 1 => dsimp only [x]); (on_goal 2 => clear_value x))
    | ((try lift_lets -underBinder); with_reducible intro x; refine hav (p := (x : Comp) = x) rfl (fun _ => ?_))
    | ((try lift_lets -underBinder); with_reducible intro x; refine hav (p := (fun y => x y) = x) rfl (fun _ => ?_))
    | ((try lift_lets -underBinder); with_reducible intro x; clear_value x)
    | (with_reducible intro _)
    | (split)
    | (with_reducible refine setMgt_ok ?_)
    | (dsimp only)
    | (dsimp only)
    | (with_reducible refine State.Sound.mk' rfl (by first | rfl | simp) rfl ?_)

theorem writeCap_ok {s : State} {v : Nat} (hs : s.Sound pend) : (writeCap s v).2.Sound pend := by
  unfold writeCap
  repeat'
    first
    | (with_reducible assumption)
    | ((try lift_lets -underBinder); with_reducible intro x; with_reducible refine hav (p := State.Sound pend x) ?_ (fun _ => ?_); (on_goal 1 => dsimp only [x]); (on_goal 2 => clear_value x))
    | ((try lift_lets -underBinder); with_reducible intro x; refine hav (p := (x : Comp) = x) rfl (fun _ => ?_))
    | ((try lift_lets -underBinder); with_reducible intro x; refine hav (p := (fun y => x y) = x) rfl (fun _ => ?_))
    | ((try lift_lets -underBinder); with_reducible intro x; clear_value x)
    | (with_reducible intro _)
    | (split)
    | (with_reducible refine setPwr_ok ?_)
    | (dsimp only)
    | (dsimp only)
    | (with_reducible refine State.Sound.mk' rfl (by first | rfl | simp) rfl ?_)

theorem writeRail_ok {s : State} {r v : Nat} (hs : s.Sound pend) : (writeRail s r v).2.Sound pend := by
  unfold writeRail
  repeat'
    first
    | (with_reducible assumption)
    | ((try lift_lets -underBinder); with_reducible intro x; with_reducible refine hav (p := State.Sound pend x) ?_ (fun _ => ?_); (on_goal 1 => dsimp only [x]); (on_goal 2 => clear_value x))
    | ((try lift_lets -underBinder); with_reducible intro x; refine hav (p := (x : Comp) = x) rfl (fun _ => ?_))
    | ((try lift_lets -underBinder); with_reducible intro x; refine hav (p := (fun y => x y) = x) rfl (fun _ => ?_))
    | ((try lift_lets -underBinder); with_reducible intro x; clear_value x)
    | (with_reducible intro _)
    | (split)
    | (with_reducible refine setRail_ok ?_)
    | (dsimp only)
    | (dsimp only)
    | (with_reducible refine State.Sound.mk' rfl (by first | rfl | simp) rfl ?_)

theorem writePwr_ok {s : State} {a v : Nat} (hs : s.Sound pend) : (writePwr s a v).2.Sound pend := by
  unfold writePwr
  repeat'
    first
    | (with_reducible assumption)
    | ((try lift_lets -underBinder); with_reducible intro x; with_reducible refine hav (p := State.Sound pend x) ?_ (fun _ => ?_); (on_goal 1 => dsimp only [x]); (on_goal 2 => clear_value x))
    | ((try lift_lets -underBinder); with_reducible intro x; refine hav (p := (x : Comp) = x) rfl (fun _ => ?_))
    | ((try lift_lets -underBinder); with_reducible intro x; refine hav (p := (fun y => x y) = x) rfl (fun _ => ?_))
    | ((try lift_lets -underBinder); with_reducible intro x; clear_value x)
    | (with_reducible intro _)
    | (split)
    | (with_reducible refine writeCap_ok ?_)
    | (with_reducible refine writeRail_ok ?_)
    | (dsimp only)
    | (dsimp only)
    | (with_reducible refine pair2_ok ?_ (by assumption))
    | (with_reducible refine State.Sound.mk' rfl (by first | rfl | simp) rfl ?_)

theorem writeTwn_ok {s : State} {a v : Nat} (hs : s.Sound pend) : (writeTwn s a v).2.Sound pend := by
  unfold writeTwn
  repeat'
    first
    | (with_reducible assumption)
    | ((try lift_lets -underBinder); with_reducible intro x; with_reducible refine hav (p := State.Sound pend x) ?_ (fun _ => ?_); (on_goal 1 => dsimp only [x]); (on_goal 2 => clear_value x))
    | ((try lift_lets -underBinder); with_reducible intro x; refine hav (p := (x : Comp) = x) rfl (fun _ => ?_))
    | ((try lift_lets -underBinder); with_reducible intro x; refine hav (p := (fun y => x y) = x) rfl (fun _ => ?_))
    | ((try lift_lets -underBinder); with_reducible intro x; clear_value x)
    | (with_reducible intro _)
    | (split)
    | (with_reducible refine ctrlDetach_ok ?_)
    | (with_reducible refine ctrlForceSolo_ok ?_)
    | (dsimp only)
    | (dsimp only)
    | (with_reducible exact none_ok)
    | (with_reducible refine some_ok ?_)
    | (with_reducible refine of_some ?_ (by assumption))
    | (with_reducible refine State.Sound.mk' rfl (by first | rfl | simp) rfl ?_)

theorem writeLane_ok {s : State} {l v : Nat} (hs : s.Sound pend) : (writeLane s l v).Sound pend := by
  unfold writeLane
  repeat'
    first
    | (with_reducible assumption)
    | ((try lift_lets -underBinder); with_reducible intro x; with_reducible refine hav (p := State.Sound pend x) ?_ (fun _ => ?_); (on_goal 1 => dsimp only [x]); (on_goal 2 => clear_value x))
    | ((try lift_lets -underBinder); with_reducible intro x; refine hav (p := (x : Comp) = x) rfl (fun _ => ?_))
    | ((try lift_lets -underBinder); with_reducible intro x; refine hav (p := (fun y => x y) = x) rfl (fun _ => ?_))
    | ((try lift_lets -underBinder); with_reducible intro x; clear_value x)
    | (with_reducible intro _)
    | (split)
    | (with_reducible refine setLane_ok ?_)
    | (with_reducible refine cntLane_ok ?_)
    | (with_reducible refine laneGoesDown_ok ?_)
    | (with_reducible refine retrainLane_ok ?_)
    | (dsimp only)
    | (with_reducible refine State.Sound.mk' rfl (by first | rfl | simp) rfl ?_)

theorem writeLnk_ok {s : State} {a v : Nat} (hs : s.Sound pend) : (writeLnk s a v).2.Sound pend := by
  unfold writeLnk
  repeat'
    first
    | (with_reducible assumption)
    | ((try lift_lets -underBinder); with_reducible intro x; with_reducible refine hav (p := State.Sound pend x) ?_ (fun _ => ?_); (on_goal 1 => dsimp only [x]); (on_goal 2 => clear_value x))
    | ((try lift_lets -underBinder); with_reducible intro x; refine hav (p := (x : Comp) = x) rfl (fun _ => ?_))
    | ((try lift_lets -underBinder); with_reducible intro x; refine hav (p := (fun y => x y) = x) rfl (fun _ => ?_))
    | ((try lift_lets -underBinder); with_reducible intro x; clear_value x)
    | (with_reducible intro _)
    | (split)
    | (with_reducible refine writeLane_ok ?_)
    | (dsimp only)
    | (dsimp only)
    | (with_reducible refine State.Sound.mk' rfl (by first | rfl | simp) rfl ?_)

theorem writeMirrorCtrl_ok {s : State} {slot v : Nat} (hs : s.Sound pend) : (writeMirrorCtrl s slot v).2.Sound pend := by
  unfold writeMirrorCtrl
  repeat'
    first
    | (with_reducible assumption)
    | ((try lift_lets -underBinder); with_reducible intro x; with_reducible refine hav (p := State.Sound pend x) ?_ (fun _ => ?_); (on_goal 1 => dsimp only [x]); (on_goal 2 => clear_value x))
    | ((try lift_lets -underBinder); with_reducible intro x; refine hav (p := (x : Comp) = x) rfl (fun _ => ?_))
    | ((try lift_lets -underBinder); with_reducible intro x; refine hav (p := (fun y => x y) = x) rfl (fun _ => ?_))
    | ((try lift_lets -underBinder); with_reducible intro x; clear_value x)
    | (with_reducible intro _)
    | (split)
    | (dsimp only)
    | (dsimp only)
    | (with_reducible refine State.Sound.mk' rfl (by first | rfl | simp) rfl ?_)

theorem writeMirrorCfg_ok {s : State} {p v : Nat} (hs : s.Sound pend) : (writeMirrorCfg s p v).2.Sound pend := by
  unfold writeMirrorCfg
  repeat'
    first
    | (with_reducible assumption)
    | ((try lift_lets -underBinder); with_reducible intro x; with_reducible refine hav (p := State.Sound pend x) ?_ (fun _ => ?_); (on_goal 1 => dsimp only [x]); (on_goal 2 => clear_value x))
    | ((try lift_lets -underBinder); with_reducible intro x; refine hav (p := (x : Comp) = x) rfl (fun _ => ?_))
    | ((try lift_lets -underBinder); with_reducible intro x; refine hav (p := (fun y => x y) = x) rfl (fun _ => ?_))
    | ((try lift_lets -underBinder); with_reducible intro x; clear_value x)
    | (with_reducible intro _)
    | (split)
    | (with_reducible refine setPort_ok ?_)
    | (dsimp only)
    | (dsimp only)
    | (with_reducible refine State.Sound.mk' rfl (by first | rfl | simp) rfl ?_)

theorem writeSwc_ok {s : State} {slot a v : Nat} (hs : s.Sound pend) : (writeSwc s slot a v).2.Sound pend := by
  unfold writeSwc
  repeat'
    first
    | (with_reducible assumption)
    | ((try lift_lets -underBinder); with_reducible intro x; with_reducible refine hav (p := State.Sound pend x) ?_ (fun _ => ?_); (on_goal 1 => dsimp only [x]); (on_goal 2 => clear_value x))
    | ((try lift_lets -underBinder); with_reducible intro x; refine hav (p := (x : Comp) = x) rfl (fun _ => ?_))
    | ((try lift_lets -underBinder); with_reducible intro x; refine hav (p := (fun y => x y) = x) rfl (fun _ => ?_))
    | ((try lift_lets -underBinder); with_reducible intro x; clear_value x)
    | (with_reducible intro _)
    | (split)
    | (with_reducible refine writeMirrorCtrl_ok ?_)
    | (with_reducible refine writeMirrorCfg_ok ?_)
    | (dsimp only)
    | (dsimp only)
    | (with_reducible refine pair2_ok ?_ (by assumption))
    | (with_reducible refine State.Sound.mk' rfl (by first | rfl | simp) rfl ?_)

theorem writeBpm_ok {s : State} {a v : Nat} (hs : s.Sound pend) : (writeBpm s a v).2.Sound pend := by
  unfold writeBpm
  repeat'
    first
    | (with_reducible assumption)
    | ((try lift_lets -underBinder); with_reducible intro x; with_reducible refine hav (p := State.Sound pend x) ?_ (fun _ => ?_); (on_goal 1 => dsimp only [x]); (on_goal 2 => clear_value x))
    | ((try lift_lets -underBinder); with_reducible intro x; refine hav (p := (x : Comp) = x) rfl (fun _ => ?_))
    | ((try lift_lets -underBinder); with_reducible intro x; refine hav (p := (fun y => x y) = x) rfl (fun _ => ?_))
    | ((try lift_lets -underBinder); with_reducible intro x; clear_value x)
    | (with_reducible intro _)
    | (split)
    | (with_reducible refine setBpm_ok ?_)
    | (dsimp only)
    | (dsimp only)
    | (with_reducible refine State.Sound.mk' rfl (by first | rfl | simp) rfl ?_)

theorem writeClassW_ok {s : State} {j v : Nat} (hs : s.Sound pend) : (writeClassW s j v).2.Sound pend := by
  unfold writeClassW
  repeat'
    first
    | (with_reducible assumption)
    | ((try lift_lets -underBinder); with_reducible intro x; with_reducible refine hav (p := State.Sound pend x) ?_ (fun _ => ?_); (on_goal 1 => dsimp only [x]); (on_goal 2 => clear_value x))
    | ((try lift_lets -underBinder); with_reducible intro x; refine hav (p := (x : Comp) = x) rfl (fun _ => ?_))
    | ((try lift_lets -underBinder); with_reducible intro x; refine hav (p := (fun y => x y) = x) rfl (fun _ => ?_))
    | ((try lift_lets -underBinder); with_reducible intro x; clear_value x)
    | (with_reducible intro _)
    | (split)
    | (dsimp only)
    | (dsimp only)
    | (with_reducible refine State.Sound.mk' rfl (by first | rfl | simp) rfl ?_)

theorem writeJobW_ok {s : State} {p h v : Nat} (hs : s.Sound pend) : (writeJobW s p h v).2.Sound pend := by
  unfold writeJobW
  repeat'
    first
    | (with_reducible assumption)
    | ((try lift_lets -underBinder); with_reducible intro x; with_reducible refine hav (p := State.Sound pend x) ?_ (fun _ => ?_); (on_goal 1 => dsimp only [x]); (on_goal 2 => clear_value x))
    | ((try lift_lets -underBinder); with_reducible intro x; refine hav (p := (x : Comp) = x) rfl (fun _ => ?_))
    | ((try lift_lets -underBinder); with_reducible intro x; refine hav (p := (fun y => x y) = x) rfl (fun _ => ?_))
    | ((try lift_lets -underBinder); with_reducible intro x; clear_value x)
    | (with_reducible intro _)
    | (split)
    | (with_reducible refine setPort_ok ?_)
    | (dsimp only)
    | (dsimp only)
    | (with_reducible refine State.Sound.mk' rfl (by first | rfl | simp) rfl ?_)

theorem writeProfile_ok {s : State} {n w v : Nat} (hs : s.Sound pend) : (writeProfile s n w v).2.Sound pend := by
  unfold writeProfile
  repeat'
    first
    | (with_reducible assumption)
    | ((try lift_lets -underBinder); with_reducible intro x; with_reducible refine hav (p := State.Sound pend x) ?_ (fun _ => ?_); (on_goal 1 => dsimp only [x]); (on_goal 2 => clear_value x))
    | ((try lift_lets -underBinder); with_reducible intro x; refine hav (p := (x : Comp) = x) rfl (fun _ => ?_))
    | ((try lift_lets -underBinder); with_reducible intro x; refine hav (p := (fun y => x y) = x) rfl (fun _ => ?_))
    | ((try lift_lets -underBinder); with_reducible intro x; clear_value x)
    | (with_reducible intro _)
    | (split)
    | (dsimp only)
    | (dsimp only)
    | (with_reducible refine State.Sound.mk' rfl (by first | rfl | simp) rfl ?_)

theorem writePolData_ok {s : State} {v : Nat} (hs : s.Sound pend) : (writePolData s v).2.Sound pend := by
  unfold writePolData
  repeat'
    first
    | (with_reducible assumption)
    | ((try lift_lets -underBinder); with_reducible intro x; with_reducible refine hav (p := State.Sound pend x) ?_ (fun _ => ?_); (on_goal 1 => dsimp only [x]); (on_goal 2 => clear_value x))
    | ((try lift_lets -underBinder); with_reducible intro x; refine hav (p := (x : Comp) = x) rfl (fun _ => ?_))
    | ((try lift_lets -underBinder); with_reducible intro x; refine hav (p := (fun y => x y) = x) rfl (fun _ => ?_))
    | ((try lift_lets -underBinder); with_reducible intro x; clear_value x)
    | (with_reducible intro _)
    | (split)
    | (with_reducible refine setPort_ok ?_)
    | (dsimp only)
    | (dsimp only)
    | (with_reducible refine State.Sound.mk' rfl (by first | rfl | simp) rfl ?_)

theorem writeTsc_ok {s : State} {a v : Nat} (hs : s.Sound pend) : (writeTsc s a v).2.Sound pend := by
  unfold writeTsc
  repeat'
    first
    | (with_reducible assumption)
    | ((try lift_lets -underBinder); with_reducible intro x; with_reducible refine hav (p := State.Sound pend x) ?_ (fun _ => ?_); (on_goal 1 => dsimp only [x]); (on_goal 2 => clear_value x))
    | ((try lift_lets -underBinder); with_reducible intro x; refine hav (p := (x : Comp) = x) rfl (fun _ => ?_))
    | ((try lift_lets -underBinder); with_reducible intro x; refine hav (p := (fun y => x y) = x) rfl (fun _ => ?_))
    | ((try lift_lets -underBinder); with_reducible intro x; clear_value x)
    | (with_reducible intro _)
    | (split)
    | (with_reducible refine cfgPort_ok ?_)
    | (with_reducible refine writeClassW_ok ?_)
    | (with_reducible refine writeJobW_ok ?_)
    | (with_reducible refine writeProfile_ok ?_)
    | (with_reducible refine writePolData_ok ?_)
    | (dsimp only)
    | (dsimp only)
    | (with_reducible refine pair2_ok ?_ (by assumption))
    | (with_reducible refine State.Sound.mk' rfl (by first | rfl | simp) rfl ?_)

theorem writeTim_ok {s : State} {a v : Nat} (hs : s.Sound pend) : (writeTim s a v).2.Sound pend := by
  unfold writeTim
  repeat'
    first
    | (with_reducible assumption)
    | ((try lift_lets -underBinder); with_reducible intro x; with_reducible refine hav (p := State.Sound pend x) ?_ (fun _ => ?_); (on_goal 1 => dsimp only [x]); (on_goal 2 => clear_value x))
    | ((try lift_lets -underBinder); with_reducible intro x; refine hav (p := (x : Comp) = x) rfl (fun _ => ?_))
    | ((try lift_lets -underBinder); with_reducible intro x; refine hav (p := (fun y => x y) = x) rfl (fun _ => ?_))
    | ((try lift_lets -underBinder); with_reducible intro x; clear_value x)
    | (with_reducible intro _)
    | (split)
    | (with_reducible refine setTim_ok ?_)
    | (with_reducible refine timSet_ok ?_)
    | (dsimp only)
    | (dsimp only)
    | (with_reducible exact none_ok)
    | (with_reducible refine some_ok ?_)
    | (with_reducible refine of_some ?_ (by assumption))
    | (with_reducible refine State.Sound.mk' rfl (by first | rfl | simp) rfl ?_)

theorem clearLag_ok {s : State} {d v : Nat} (hs : s.Sound pend) : (clearLag s d v).Sound pend := by
  unfold clearLag
  repeat'
    first
    | (with_reducible assumption)
    | ((try lift_lets -underBinder); with_reducible intro x; with_reducible refine hav (p := State.Sound pend x) ?_ (fun _ => ?_); (on_goal 1 => dsimp only [x]); (on_goal 2 => clear_value x))
    | ((try lift_lets -underBinder); with_reducible intro x; refine hav (p := (x : Comp) = x) rfl (fun _ => ?_))
    | ((try lift_lets -underBinder); with_reducible intro x; refine hav (p := (fun y => x y) = x) rfl (fun _ => ?_))
    | ((try lift_lets -underBinder); with_reducible intro x; clear_value x)
    | (with_reducible intro _)
    | (split)
    | (with_reducible refine State.Sound.mk' rfl (by first | rfl | simp) rfl ?_)

theorem writeDie_ok {s : State} {d a v : Nat} (hs : s.Sound pend) : (writeDie s d a v).2.Sound pend := by
  unfold writeDie
  repeat'
    first
    | (with_reducible assumption)
    | ((try lift_lets -underBinder); with_reducible intro x; with_reducible refine hav (p := State.Sound pend x) ?_ (fun _ => ?_); (on_goal 1 => dsimp only [x]); (on_goal 2 => clear_value x))
    | ((try lift_lets -underBinder); with_reducible intro x; refine hav (p := (x : Comp) = x) rfl (fun _ => ?_))
    | ((try lift_lets -underBinder); with_reducible intro x; refine hav (p := (fun y => x y) = x) rfl (fun _ => ?_))
    | ((try lift_lets -underBinder); with_reducible intro x; clear_value x)
    | (with_reducible intro _)
    | (split)
    | (with_reducible refine clearLag_ok ?_)
    | (dsimp only)
    | (dsimp only)
    | (with_reducible refine State.Sound.mk' rfl (by first | rfl | simp) rfl ?_)

theorem writeDbg_ok {s : State} {a v : Nat} (hs : s.Sound pend) : (writeDbg s a v).2.Sound pend := by
  unfold writeDbg
  repeat'
    first
    | (with_reducible assumption)
    | ((try lift_lets -underBinder); with_reducible intro x; with_reducible refine hav (p := State.Sound pend x) ?_ (fun _ => ?_); (on_goal 1 => dsimp only [x]); (on_goal 2 => clear_value x))
    | ((try lift_lets -underBinder); with_reducible intro x; refine hav (p := (x : Comp) = x) rfl (fun _ => ?_))
    | ((try lift_lets -underBinder); with_reducible intro x; refine hav (p := (fun y => x y) = x) rfl (fun _ => ?_))
    | ((try lift_lets -underBinder); with_reducible intro x; clear_value x)
    | (with_reducible intro _)
    | (split)
    | (dsimp only)
    | (dsimp only)
    | (with_reducible refine State.Sound.mk' rfl (by first | rfl | simp) rfl ?_)

theorem writeAt_ok {s : State} {slot a v : Nat} (hs : s.Sound pend) : (writeAt s slot a v).2.Sound pend := by
  unfold writeAt
  exact iteSnd_ok (writeMgt_ok hs) (iteSnd_ok (writeSec_ok hs) (iteSnd_ok (writePwr_ok hs) (iteSnd_ok (writeTwn_ok hs)
    (iteSnd_ok (writeLnk_ok hs) (iteSnd_ok (writeSwc_ok hs) (iteSnd_ok (writeBpm_ok hs) (iteSnd_ok (writeTsc_ok hs)
    (iteSnd_ok (writeTim_ok hs) (iteSnd_ok (writeDie_ok hs) (iteSnd_ok (writeDbg_ok hs) hs))))))))))

theorem accessTimesOut_ok {s : State} {a : Nat} (hs : s.Sound pend) : (accessTimesOut s a).Sound pend := by
  unfold accessTimesOut
  repeat'
    first
    | (with_reducible assumption)
    | ((try lift_lets -underBinder); with_reducible intro x; with_reducible refine hav (p := State.Sound pend x) ?_ (fun _ => ?_); (on_goal 1 => dsimp only [x]); (on_goal 2 => clear_value x))
    | ((try lift_lets -underBinder); with_reducible intro x; refine hav (p := (x : Comp) = x) rfl (fun _ => ?_))
    | ((try lift_lets -underBinder); with_reducible intro x; refine hav (p := (fun y => x y) = x) rfl (fun _ => ?_))
    | ((try lift_lets -underBinder); with_reducible intro x; clear_value x)
    | (with_reducible intro _)
    | (split)
    | (with_reducible refine setAttn_ok ?_)
    | (with_reducible refine ringLog_ok ?_)
    | (with_reducible refine State.Sound.mk' rfl (by first | rfl | simp) rfl ?_)

theorem readAct_ok {a : Nat} {s : State} (hs : s.Sound pend) : (readAct a s).1.Sound pend := by
  unfold readAct
  cases accessCheck s a with
  | some r => exact hs
  | none => exact iteFst_ok (accessTimesOut_ok hs) (by cases readRegister s a <;> exact hs)

theorem writeAct_ok {slot a v : Nat} {s : State} (hs : s.Sound pend) : (writeAct slot a v s).1.Sound pend := by
  unfold writeAct
  refine iteFst_ok hs ?_
  cases accessCheck s a with
  | some r => exact hs
  | none => exact iteFst_ok (accessTimesOut_ok hs) (writeAt_ok hs)

theorem doReadReg_ok {h : FmdReq} {addr : Word32} {s : State} (hs : s.Sound pend) : (doReadReg h addr s).Sound pend := by
  unfold doReadReg
  repeat'
    first
    | (with_reducible assumption)
    | ((try lift_lets -underBinder); with_reducible intro x; with_reducible refine hav (p := State.Sound pend x) ?_ (fun _ => ?_); (on_goal 1 => dsimp only [x]); (on_goal 2 => clear_value x))
    | ((try lift_lets -underBinder); with_reducible intro x; refine hav (p := (x : Comp) = x) rfl (fun _ => ?_))
    | ((try lift_lets -underBinder); with_reducible intro x; refine hav (p := (fun y => x y) = x) rfl (fun _ => ?_))
    | ((try lift_lets -underBinder); with_reducible intro x; clear_value x)
    | (with_reducible intro _)
    | (split)
    | (with_reducible refine request_ok ?_ ?_)
    | (with_reducible refine readAct_ok ?_)
    | (with_reducible refine pair1_ok ?_ (by assumption))
    | (with_reducible refine State.Sound.mk' rfl (by first | rfl | simp) rfl ?_)

theorem regWrite_ok {h : FmdReq} {a v : Nat} {s : State} (hs : s.Sound pend) : (regWrite h a v s).Sound pend := by
  unfold regWrite
  repeat'
    first
    | (with_reducible assumption)
    | ((try lift_lets -underBinder); with_reducible intro x; with_reducible refine hav (p := State.Sound pend x) ?_ (fun _ => ?_); (on_goal 1 => dsimp only [x]); (on_goal 2 => clear_value x))
    | ((try lift_lets -underBinder); with_reducible intro x; refine hav (p := (x : Comp) = x) rfl (fun _ => ?_))
    | ((try lift_lets -underBinder); with_reducible intro x; refine hav (p := (fun y => x y) = x) rfl (fun _ => ?_))
    | ((try lift_lets -underBinder); with_reducible intro x; clear_value x)
    | (with_reducible intro _)
    | (split)
    | (with_reducible refine request_ok ?_ ?_)
    | (with_reducible refine writeAct_ok ?_)
    | (with_reducible refine pair1_ok ?_ (by assumption))
    | (with_reducible refine State.Sound.mk' rfl (by first | rfl | simp) rfl ?_)

theorem doWriteReg_ok {h : FmdReq} {addr : Word32} {v : Word} {s : State} (hs : s.Sound pend) : (doWriteReg h addr v s).Sound pend := regWrite_ok hs

theorem readRun_ok {a : Nat} : ∀ {n : Nat} {s : State} {acc : List Byte}, s.Sound pend → (readRun a n s acc).1.Sound pend
  | 0, _, _, h => h
  | n + 1, s, acc, h => by
    have hr : (readAct a s).1.Sound pend := readAct_ok h
    unfold readRun
    split
    · exact readRun_ok (pair1_ok hr (by assumption))
    · exact pair1_ok hr (by assumption)
    · exact pair1_ok hr (by assumption)

theorem doReadBlock_ok {h : FmdReq} {addr : Word32} {count : Nat} {s : State} (hs : s.Sound pend) :
    (doReadBlock h addr count s).Sound pend :=
  request_ok (fun _ ht => readRun_ok ht) hs

theorem lateAccess_ok {a : Nat} {s : State} (hs : s.Sound pend) : (lateAccess a s).1.Sound pend := by
  unfold lateAccess
  repeat'
    first
    | (with_reducible assumption)
    | ((try lift_lets -underBinder); with_reducible intro x; with_reducible refine hav (p := State.Sound pend x) ?_ (fun _ => ?_); (on_goal 1 => dsimp only [x]); (on_goal 2 => clear_value x))
    | ((try lift_lets -underBinder); with_reducible intro x; refine hav (p := (x : Comp) = x) rfl (fun _ => ?_))
    | ((try lift_lets -underBinder); with_reducible intro x; refine hav (p := (fun y => x y) = x) rfl (fun _ => ?_))
    | ((try lift_lets -underBinder); with_reducible intro x; clear_value x)
    | (with_reducible intro _)
    | (split)
    | (with_reducible refine answered_ok ?_)
    | (with_reducible refine accessTimesOut_ok ?_)
    | (dsimp only)
    | (with_reducible refine pair1_ok ?_ (by assumption))
    | (with_reducible refine State.Sound.mk' rfl (by first | rfl | simp) rfl ?_)

theorem doRegAccessTimeout_ok {h : FmdReq} {acc : RegAccess} {s : State} (hs : s.Sound pend) :
    (doRegAccessTimeout h acc s).Sound pend := by
  obtain ⟨addr, kind⟩ := acc
  cases kind with
  | read => exact request_ok (fun _ ht => lateAccess_ok ht) hs
  | write v =>
    refine request_ok (fun t ht => ?_) hs
    split
    · exact ht
    · exact lateAccess_ok ht
  | block count done =>
    refine request_ok (fun t ht => ?_) hs
    have hr := readRun_ok (a := addr.toNat) (n := min done (count - 1)) (acc := []) ht
    dsimp only
    split
    · exact hr
    · have hl := lateAccess_ok (a := addr.toNat + 8 * min done (count - 1)) hr
      split
      · exact pair1_ok hl (by assumption)
      · exact pair1_ok hl (by assumption)

theorem doAttnAck_ok {h : FmdReq} {mask : BitVec 16} {s : State} (hs : s.Sound pend) : (doAttnAck h mask s).Sound pend :=
  request_ok (fun _ ht => State.Sound.mk' rfl rfl rfl ht) hs

theorem doFmdNop_ok {h : FmdReq} {s : State} (hs : s.Sound pend) : (doFmdNop h s).Sound pend := request_ok (fun _ ht => ht) hs

theorem doReservedOpcode_ok {h : FmdReq} {opcode : Nat} {bytes : List Byte} {s : State} (hs : s.Sound pend) :
    (doReservedOpcode h opcode bytes s).Sound pend := request_ok (fun _ ht => ht) hs

theorem doLagClear_ok {h : FmdReq} {die : Nat} {v : Word} {s : State} (hs : s.Sound pend) : (doLagClear h die v s).Sound pend := regWrite_ok hs

theorem doMirrorDestWrite_ok {h : FmdReq} {v : Word} {s : State} (hs : s.Sound pend) : (doMirrorDestWrite h v s).Sound pend := regWrite_ok hs

theorem doMirrorCfgWrite_ok {h : FmdReq} {port : Nat} {v : Word} {s : State} (hs : s.Sound pend) : (doMirrorCfgWrite h port v s).Sound pend := regWrite_ok hs

theorem doPolDataWrite_ok {h : FmdReq} {v : Word} {s : State} (hs : s.Sound pend) : (doPolDataWrite h v s).Sound pend := regWrite_ok hs

theorem doProfileWrite_ok {h : FmdReq} {n w : Nat} {v : Word} {s : State} (hs : s.Sound pend) : (doProfileWrite h n w v s).Sound pend := regWrite_ok hs

theorem doWeightWrite_ok {h : FmdReq} {reg : WeightReg} {v : Word} {s : State} (hs : s.Sound pend) : (doWeightWrite h reg v s).Sound pend := regWrite_ok hs

theorem doAgeLimitWrite_ok {h : FmdReq} {k : Nat} {v : Word} {s : State} (hs : s.Sound pend) : (doAgeLimitWrite h k v s).Sound pend := regWrite_ok hs

theorem doCapWrite_ok {h : FmdReq} {v : Word} {s : State} (hs : s.Sound pend) : (doCapWrite h v s).Sound pend := regWrite_ok hs

theorem doRailLimitWrite_ok {h : FmdReq} {rail : Nat} {v : Word} {s : State} (hs : s.Sound pend) : (doRailLimitWrite h rail v s).Sound pend := regWrite_ok hs

theorem doLagSelWrite_ok {h : FmdReq} {v : Word} {s : State} (hs : s.Sound pend) : (doLagSelWrite h v s).Sound pend := regWrite_ok hs

theorem doTimSet_ok {h : FmdReq} {v : Word} {s : State} (hs : s.Sound pend) : (doTimSet h v s).Sound pend := regWrite_ok hs

theorem doDetach_ok {h : FmdReq} {s : State} (hs : s.Sound pend) : (doDetach h s).Sound pend := regWrite_ok hs

theorem doForceSolo_ok {h : FmdReq} {s : State} (hs : s.Sound pend) : (doForceSolo h s).Sound pend := regWrite_ok hs

theorem doRetrain_ok {h : FmdReq} {lane nakLimit : Nat} {enable : Bool} {s : State} (hs : s.Sound pend) : (doRetrain h lane nakLimit enable s).Sound pend := regWrite_ok hs

theorem doLaneEnable_ok {h : FmdReq} {lane nakLimit : Nat} {enable : Bool} {s : State} (hs : s.Sound pend) : (doLaneEnable h lane nakLimit enable s).Sound pend := regWrite_ok hs

theorem doBurnCust_ok {h : FmdReq} {s : State} (hs : s.Sound pend) : (doBurnCust h s).Sound pend := regWrite_ok hs

theorem doSvnAdvance_ok {h : FmdReq} {svn : Nat} {s : State} (hs : s.Sound pend) : (doSvnAdvance h svn s).Sound pend := regWrite_ok hs

theorem doFuseBurnComplete_ok {s : State} (hs : s.Sound pend) : (doFuseBurnComplete s).Sound pend := by
  unfold doFuseBurnComplete
  repeat'
    first
    | (with_reducible assumption)
    | ((try lift_lets -underBinder); with_reducible intro x; with_reducible refine hav (p := State.Sound pend x) ?_ (fun _ => ?_); (on_goal 1 => dsimp only [x]); (on_goal 2 => clear_value x))
    | ((try lift_lets -underBinder); with_reducible intro x; refine hav (p := (x : Comp) = x) rfl (fun _ => ?_))
    | ((try lift_lets -underBinder); with_reducible intro x; refine hav (p := (fun y => x y) = x) rfl (fun _ => ?_))
    | ((try lift_lets -underBinder); with_reducible intro x; clear_value x)
    | (with_reducible intro _)
    | (split)
    | (with_reducible refine setAttn_ok ?_)
    | (with_reducible refine setMgt_ok ?_)
    | (dsimp only)
    | (with_reducible refine State.Sound.mk' rfl (by first | rfl | simp) rfl ?_)

end Sys2Proof.Machine
end

