-- ==== Sys2Proof/Laws/State.lean ====
section
/-! SUPPORT. One lemma per field and update: what each update of the state leaves as it was, and what a read of the
part that it changes gives. -/

namespace Sys2Proof.Machine

/-! ### setLane -/

@[simp] theorem setLane_pending {s : State} {l : Nat} {f : Lane → Lane} : (setLane s l f).pending = s.pending := rfl
@[simp] theorem setLane_now {s : State} {l : Nat} {f : Lane → Lane} : (setLane s l f).now = s.now := rfl
@[simp] theorem setLane_fabricTime {s : State} {l : Nat} {f : Lane → Lane} : (setLane s l f).fabricTime = s.fabricTime := rfl
@[simp] theorem setLane_comp {s : State} {l : Nat} {f : Lane → Lane} : (setLane s l f).comp = s.comp := rfl
@[simp] theorem setLane_tops {s : State} {l : Nat} {f : Lane → Lane} : (setLane s l f).tops = s.tops := rfl
@[simp] theorem setLane_rings {s : State} {l : Nat} {f : Lane → Lane} : (setLane s l f).rings = s.rings := rfl
@[simp] theorem setLane_attn {s : State} {l : Nat} {f : Lane → Lane} : (setLane s l f).attn = s.attn := rfl
@[simp] theorem setLane_freeCtr {s : State} {l : Nat} {f : Lane → Lane} : (setLane s l f).freeCtr = s.freeCtr := rfl
@[simp] theorem setLane_stretchQ {s : State} {l : Nat} {f : Lane → Lane} : (setLane s l f).stretchQ = s.stretchQ := rfl
@[simp] theorem setLane_grade {s : State} {l : Nat} {f : Lane → Lane} : (setLane s l f).grade = s.grade := rfl
@[simp] theorem setLane_coll {s : State} {l : Nat} {f : Lane → Lane} : (setLane s l f).coll = s.coll := rfl
@[simp] theorem setLane_integ {s : State} {l : Nat} {f : Lane → Lane} : (setLane s l f).integ = s.integ := rfl
@[simp] theorem setLane_pwr {s : State} {l : Nat} {f : Lane → Lane} : (setLane s l f).pwr = s.pwr := rfl
@[simp] theorem setLane_mgt {s : State} {l : Nat} {f : Lane → Lane} : (setLane s l f).mgt = s.mgt := rfl
@[simp] theorem setLane_dbg {s : State} {l : Nat} {f : Lane → Lane} : (setLane s l f).dbg = s.dbg := rfl
@[simp] theorem setLane_snap {s : State} {l : Nat} {f : Lane → Lane} : (setLane s l f).snap = s.snap := rfl
@[simp] theorem setLane_pins {s : State} {l : Nat} {f : Lane → Lane} : (setLane s l f).pins = s.pins := rfl
@[simp] theorem setLane_fab_ports {s : State} {l : Nat} {f : Lane → Lane} : (setLane s l f).fab.ports = s.fab.ports := rfl
@[simp] theorem setLane_fab_bpm {s : State} {l : Nat} {f : Lane → Lane} : (setLane s l f).fab.bpm = s.fab.bpm := rfl
@[simp] theorem setLane_fab_nextAlloc {s : State} {l : Nat} {f : Lane → Lane} : (setLane s l f).fab.nextAlloc = s.fab.nextAlloc := rfl
@[simp] theorem setLane_fab_profiles {s : State} {l : Nat} {f : Lane → Lane} : (setLane s l f).fab.profiles = s.fab.profiles := rfl
@[simp] theorem setLane_fab_classW {s : State} {l : Nat} {f : Lane → Lane} : (setLane s l f).fab.classW = s.fab.classW := rfl
@[simp] theorem setLane_fab_ageLimit {s : State} {l : Nat} {f : Lane → Lane} : (setLane s l f).fab.ageLimit = s.fab.ageLimit := rfl
@[simp] theorem setLane_fab_polSel {s : State} {l : Nat} {f : Lane → Lane} : (setLane s l f).fab.polSel = s.fab.polSel := rfl
@[simp] theorem setLane_fab_oqSel {s : State} {l : Nat} {f : Lane → Lane} : (setLane s l f).fab.oqSel = s.fab.oqSel := rfl
@[simp] theorem setLane_fab_mirrorDest {s : State} {l : Nat} {f : Lane → Lane} : (setLane s l f).fab.mirrorDest = s.fab.mirrorDest := rfl
@[simp] theorem setLane_fab_mirrorIndex {s : State} {l : Nat} {f : Lane → Lane} : (setLane s l f).fab.mirrorIndex = s.fab.mirrorIndex := rfl
@[simp] theorem setLane_fab_mirrorWraps {s : State} {l : Nat} {f : Lane → Lane} : (setLane s l f).fab.mirrorWraps = s.fab.mirrorWraps := rfl
@[simp] theorem setLane_fab_mirrorDrops {s : State} {l : Nat} {f : Lane → Lane} : (setLane s l f).fab.mirrorDrops = s.fab.mirrorDrops := rfl
@[simp] theorem setLane_fab_mirrorQueue {s : State} {l : Nat} {f : Lane → Lane} : (setLane s l f).fab.mirrorQueue = s.fab.mirrorQueue := rfl
@[simp] theorem setLane_fab_mirrorSession {s : State} {l : Nat} {f : Lane → Lane} : (setLane s l f).fab.mirrorSession = s.fab.mirrorSession := rfl
@[simp] theorem setLane_fab_mirrorGib {s : State} {l : Nat} {f : Lane → Lane} : (setLane s l f).fab.mirrorGib = s.fab.mirrorGib := rfl
@[simp] theorem setLane_fab_earlyQuota {s : State} {l : Nat} {f : Lane → Lane} : (setLane s l f).fab.earlyQuota = s.fab.earlyQuota := rfl
@[simp] theorem setLane_fab_earlyUsed {s : State} {l : Nat} {f : Lane → Lane} : (setLane s l f).fab.earlyUsed = s.fab.earlyUsed := rfl
@[simp] theorem setLane_fab_tim {s : State} {l : Nat} {f : Lane → Lane} : (setLane s l f).fab.tim = s.fab.tim := rfl
@[simp] theorem setLane_fab_twin {s : State} {l : Nat} {f : Lane → Lane} : (setLane s l f).fab.twin = s.fab.twin := rfl
@[simp] theorem setLane_fab_domain {s : State} {l : Nat} {f : Lane → Lane} : (setLane s l f).fab.domain = s.fab.domain := rfl
@[simp] theorem setLane_fab_moduleIndex {s : State} {l : Nat} {f : Lane → Lane} : (setLane s l f).fab.moduleIndex = s.fab.moduleIndex := rfl

/-! ### setPort -/

@[simp] theorem setPort_pending {s : State} {p : Nat} {f : Port → Port} : (setPort s p f).pending = s.pending := rfl
@[simp] theorem setPort_now {s : State} {p : Nat} {f : Port → Port} : (setPort s p f).now = s.now := rfl
@[simp] theorem setPort_fabricTime {s : State} {p : Nat} {f : Port → Port} : (setPort s p f).fabricTime = s.fabricTime := rfl
@[simp] theorem setPort_comp {s : State} {p : Nat} {f : Port → Port} : (setPort s p f).comp = s.comp := rfl
@[simp] theorem setPort_tops {s : State} {p : Nat} {f : Port → Port} : (setPort s p f).tops = s.tops := rfl
@[simp] theorem setPort_rings {s : State} {p : Nat} {f : Port → Port} : (setPort s p f).rings = s.rings := rfl
@[simp] theorem setPort_attn {s : State} {p : Nat} {f : Port → Port} : (setPort s p f).attn = s.attn := rfl
@[simp] theorem setPort_freeCtr {s : State} {p : Nat} {f : Port → Port} : (setPort s p f).freeCtr = s.freeCtr := rfl
@[simp] theorem setPort_stretchQ {s : State} {p : Nat} {f : Port → Port} : (setPort s p f).stretchQ = s.stretchQ := rfl
@[simp] theorem setPort_grade {s : State} {p : Nat} {f : Port → Port} : (setPort s p f).grade = s.grade := rfl
@[simp] theorem setPort_coll {s : State} {p : Nat} {f : Port → Port} : (setPort s p f).coll = s.coll := rfl
@[simp] theorem setPort_integ {s : State} {p : Nat} {f : Port → Port} : (setPort s p f).integ = s.integ := rfl
@[simp] theorem setPort_pwr {s : State} {p : Nat} {f : Port → Port} : (setPort s p f).pwr = s.pwr := rfl
@[simp] theorem setPort_mgt {s : State} {p : Nat} {f : Port → Port} : (setPort s p f).mgt = s.mgt := rfl
@[simp] theorem setPort_dbg {s : State} {p : Nat} {f : Port → Port} : (setPort s p f).dbg = s.dbg := rfl
@[simp] theorem setPort_snap {s : State} {p : Nat} {f : Port → Port} : (setPort s p f).snap = s.snap := rfl
@[simp] theorem setPort_pins {s : State} {p : Nat} {f : Port → Port} : (setPort s p f).pins = s.pins := rfl
@[simp] theorem setPort_fab_lanes {s : State} {p : Nat} {f : Port → Port} : (setPort s p f).fab.lanes = s.fab.lanes := rfl
@[simp] theorem setPort_fab_bpm {s : State} {p : Nat} {f : Port → Port} : (setPort s p f).fab.bpm = s.fab.bpm := rfl
@[simp] theorem setPort_fab_nextAlloc {s : State} {p : Nat} {f : Port → Port} : (setPort s p f).fab.nextAlloc = s.fab.nextAlloc := rfl
@[simp] theorem setPort_fab_profiles {s : State} {p : Nat} {f : Port → Port} : (setPort s p f).fab.profiles = s.fab.profiles := rfl
@[simp] theorem setPort_fab_classW {s : State} {p : Nat} {f : Port → Port} : (setPort s p f).fab.classW = s.fab.classW := rfl
@[simp] theorem setPort_fab_ageLimit {s : State} {p : Nat} {f : Port → Port} : (setPort s p f).fab.ageLimit = s.fab.ageLimit := rfl
@[simp] theorem setPort_fab_polSel {s : State} {p : Nat} {f : Port → Port} : (setPort s p f).fab.polSel = s.fab.polSel := rfl
@[simp] theorem setPort_fab_oqSel {s : State} {p : Nat} {f : Port → Port} : (setPort s p f).fab.oqSel = s.fab.oqSel := rfl
@[simp] theorem setPort_fab_mirrorDest {s : State} {p : Nat} {f : Port → Port} : (setPort s p f).fab.mirrorDest = s.fab.mirrorDest := rfl
@[simp] theorem setPort_fab_mirrorIndex {s : State} {p : Nat} {f : Port → Port} : (setPort s p f).fab.mirrorIndex = s.fab.mirrorIndex := rfl
@[simp] theorem setPort_fab_mirrorWraps {s : State} {p : Nat} {f : Port → Port} : (setPort s p f).fab.mirrorWraps = s.fab.mirrorWraps := rfl
@[simp] theorem setPort_fab_mirrorDrops {s : State} {p : Nat} {f : Port → Port} : (setPort s p f).fab.mirrorDrops = s.fab.mirrorDrops := rfl
@[simp] theorem setPort_fab_mirrorQueue {s : State} {p : Nat} {f : Port → Port} : (setPort s p f).fab.mirrorQueue = s.fab.mirrorQueue := rfl
@[simp] theorem setPort_fab_mirrorSession {s : State} {p : Nat} {f : Port → Port} : (setPort s p f).fab.mirrorSession = s.fab.mirrorSession := rfl
@[simp] theorem setPort_fab_mirrorGib {s : State} {p : Nat} {f : Port → Port} : (setPort s p f).fab.mirrorGib = s.fab.mirrorGib := rfl
@[simp] theorem setPort_fab_earlyQuota {s : State} {p : Nat} {f : Port → Port} : (setPort s p f).fab.earlyQuota = s.fab.earlyQuota := rfl
@[simp] theorem setPort_fab_earlyUsed {s : State} {p : Nat} {f : Port → Port} : (setPort s p f).fab.earlyUsed = s.fab.earlyUsed := rfl
@[simp] theorem setPort_fab_tim {s : State} {p : Nat} {f : Port → Port} : (setPort s p f).fab.tim = s.fab.tim := rfl
@[simp] theorem setPort_fab_twin {s : State} {p : Nat} {f : Port → Port} : (setPort s p f).fab.twin = s.fab.twin := rfl
@[simp] theorem setPort_fab_domain {s : State} {p : Nat} {f : Port → Port} : (setPort s p f).fab.domain = s.fab.domain := rfl
@[simp] theorem setPort_fab_moduleIndex {s : State} {p : Nat} {f : Port → Port} : (setPort s p f).fab.moduleIndex = s.fab.moduleIndex := rfl

/-! ### setBpm -/

@[simp] theorem setBpm_pending {s : State} {i : Nat} {f : Bpm → Bpm} : (setBpm s i f).pending = s.pending := rfl
@[simp] theorem setBpm_now {s : State} {i : Nat} {f : Bpm → Bpm} : (setBpm s i f).now = s.now := rfl
@[simp] theorem setBpm_fabricTime {s : State} {i : Nat} {f : Bpm → Bpm} : (setBpm s i f).fabricTime = s.fabricTime := rfl
@[simp] theorem setBpm_comp {s : State} {i : Nat} {f : Bpm → Bpm} : (setBpm s i f).comp = s.comp := rfl
@[simp] theorem setBpm_tops {s : State} {i : Nat} {f : Bpm → Bpm} : (setBpm s i f).tops = s.tops := rfl
@[simp] theorem setBpm_rings {s : State} {i : Nat} {f : Bpm → Bpm} : (setBpm s i f).rings = s.rings := rfl
@[simp] theorem setBpm_attn {s : State} {i : Nat} {f : Bpm → Bpm} : (setBpm s i f).attn = s.attn := rfl
@[simp] theorem setBpm_freeCtr {s : State} {i : Nat} {f : Bpm → Bpm} : (setBpm s i f).freeCtr = s.freeCtr := rfl
@[simp] theorem setBpm_stretchQ {s : State} {i : Nat} {f : Bpm → Bpm} : (setBpm s i f).stretchQ = s.stretchQ := rfl
@[simp] theorem setBpm_grade {s : State} {i : Nat} {f : Bpm → Bpm} : (setBpm s i f).grade = s.grade := rfl
@[simp] theorem setBpm_coll {s : State} {i : Nat} {f : Bpm → Bpm} : (setBpm s i f).coll = s.coll := rfl
@[simp] theorem setBpm_integ {s : State} {i : Nat} {f : Bpm → Bpm} : (setBpm s i f).integ = s.integ := rfl
@[simp] theorem setBpm_pwr {s : State} {i : Nat} {f : Bpm → Bpm} : (setBpm s i f).pwr = s.pwr := rfl
@[simp] theorem setBpm_mgt {s : State} {i : Nat} {f : Bpm → Bpm} : (setBpm s i f).mgt = s.mgt := rfl
@[simp] theorem setBpm_dbg {s : State} {i : Nat} {f : Bpm → Bpm} : (setBpm s i f).dbg = s.dbg := rfl
@[simp] theorem setBpm_snap {s : State} {i : Nat} {f : Bpm → Bpm} : (setBpm s i f).snap = s.snap := rfl
@[simp] theorem setBpm_pins {s : State} {i : Nat} {f : Bpm → Bpm} : (setBpm s i f).pins = s.pins := rfl
@[simp] theorem setBpm_fab_lanes {s : State} {i : Nat} {f : Bpm → Bpm} : (setBpm s i f).fab.lanes = s.fab.lanes := rfl
@[simp] theorem setBpm_fab_ports {s : State} {i : Nat} {f : Bpm → Bpm} : (setBpm s i f).fab.ports = s.fab.ports := rfl
@[simp] theorem setBpm_fab_nextAlloc {s : State} {i : Nat} {f : Bpm → Bpm} : (setBpm s i f).fab.nextAlloc = s.fab.nextAlloc := rfl
@[simp] theorem setBpm_fab_profiles {s : State} {i : Nat} {f : Bpm → Bpm} : (setBpm s i f).fab.profiles = s.fab.profiles := rfl
@[simp] theorem setBpm_fab_classW {s : State} {i : Nat} {f : Bpm → Bpm} : (setBpm s i f).fab.classW = s.fab.classW := rfl
@[simp] theorem setBpm_fab_ageLimit {s : State} {i : Nat} {f : Bpm → Bpm} : (setBpm s i f).fab.ageLimit = s.fab.ageLimit := rfl
@[simp] theorem setBpm_fab_polSel {s : State} {i : Nat} {f : Bpm → Bpm} : (setBpm s i f).fab.polSel = s.fab.polSel := rfl
@[simp] theorem setBpm_fab_oqSel {s : State} {i : Nat} {f : Bpm → Bpm} : (setBpm s i f).fab.oqSel = s.fab.oqSel := rfl
@[simp] theorem setBpm_fab_mirrorDest {s : State} {i : Nat} {f : Bpm → Bpm} : (setBpm s i f).fab.mirrorDest = s.fab.mirrorDest := rfl
@[simp] theorem setBpm_fab_mirrorIndex {s : State} {i : Nat} {f : Bpm → Bpm} : (setBpm s i f).fab.mirrorIndex = s.fab.mirrorIndex := rfl
@[simp] theorem setBpm_fab_mirrorWraps {s : State} {i : Nat} {f : Bpm → Bpm} : (setBpm s i f).fab.mirrorWraps = s.fab.mirrorWraps := rfl
@[simp] theorem setBpm_fab_mirrorDrops {s : State} {i : Nat} {f : Bpm → Bpm} : (setBpm s i f).fab.mirrorDrops = s.fab.mirrorDrops := rfl
@[simp] theorem setBpm_fab_mirrorQueue {s : State} {i : Nat} {f : Bpm → Bpm} : (setBpm s i f).fab.mirrorQueue = s.fab.mirrorQueue := rfl
@[simp] theorem setBpm_fab_mirrorSession {s : State} {i : Nat} {f : Bpm → Bpm} : (setBpm s i f).fab.mirrorSession = s.fab.mirrorSession := rfl
@[simp] theorem setBpm_fab_mirrorGib {s : State} {i : Nat} {f : Bpm → Bpm} : (setBpm s i f).fab.mirrorGib = s.fab.mirrorGib := rfl
@[simp] theorem setBpm_fab_earlyQuota {s : State} {i : Nat} {f : Bpm → Bpm} : (setBpm s i f).fab.earlyQuota = s.fab.earlyQuota := rfl
@[simp] theorem setBpm_fab_earlyUsed {s : State} {i : Nat} {f : Bpm → Bpm} : (setBpm s i f).fab.earlyUsed = s.fab.earlyUsed := rfl
@[simp] theorem setBpm_fab_tim {s : State} {i : Nat} {f : Bpm → Bpm} : (setBpm s i f).fab.tim = s.fab.tim := rfl
@[simp] theorem setBpm_fab_twin {s : State} {i : Nat} {f : Bpm → Bpm} : (setBpm s i f).fab.twin = s.fab.twin := rfl
@[simp] theorem setBpm_fab_domain {s : State} {i : Nat} {f : Bpm → Bpm} : (setBpm s i f).fab.domain = s.fab.domain := rfl
@[simp] theorem setBpm_fab_moduleIndex {s : State} {i : Nat} {f : Bpm → Bpm} : (setBpm s i f).fab.moduleIndex = s.fab.moduleIndex := rfl

/-! ### setTim -/

@[simp] theorem setTim_pending {s : State} {f : Tim → Tim} : (setTim s f).pending = s.pending := rfl
@[simp] theorem setTim_now {s : State} {f : Tim → Tim} : (setTim s f).now = s.now := rfl
@[simp] theorem setTim_fabricTime {s : State} {f : Tim → Tim} : (setTim s f).fabricTime = s.fabricTime := rfl
@[simp] theorem setTim_comp {s : State} {f : Tim → Tim} : (setTim s f).comp = s.comp := rfl
@[simp] theorem setTim_tops {s : State} {f : Tim → Tim} : (setTim s f).tops = s.tops := rfl
@[simp] theorem setTim_rings {s : State} {f : Tim → Tim} : (setTim s f).rings = s.rings := rfl
@[simp] theorem setTim_attn {s : State} {f : Tim → Tim} : (setTim s f).attn = s.attn := rfl
@[simp] theorem setTim_freeCtr {s : State} {f : Tim → Tim} : (setTim s f).freeCtr = s.freeCtr := rfl
@[simp] theorem setTim_stretchQ {s : State} {f : Tim → Tim} : (setTim s f).stretchQ = s.stretchQ := rfl
@[simp] theorem setTim_grade {s : State} {f : Tim → Tim} : (setTim s f).grade = s.grade := rfl
@[simp] theorem setTim_coll {s : State} {f : Tim → Tim} : (setTim s f).coll = s.coll := rfl
@[simp] theorem setTim_integ {s : State} {f : Tim → Tim} : (setTim s f).integ = s.integ := rfl
@[simp] theorem setTim_pwr {s : State} {f : Tim → Tim} : (setTim s f).pwr = s.pwr := rfl
@[simp] theorem setTim_mgt {s : State} {f : Tim → Tim} : (setTim s f).mgt = s.mgt := rfl
@[simp] theorem setTim_dbg {s : State} {f : Tim → Tim} : (setTim s f).dbg = s.dbg := rfl
@[simp] theorem setTim_snap {s : State} {f : Tim → Tim} : (setTim s f).snap = s.snap := rfl
@[simp] theorem setTim_pins {s : State} {f : Tim → Tim} : (setTim s f).pins = s.pins := rfl
@[simp] theorem setTim_fab_lanes {s : State} {f : Tim → Tim} : (setTim s f).fab.lanes = s.fab.lanes := rfl
@[simp] theorem setTim_fab_ports {s : State} {f : Tim → Tim} : (setTim s f).fab.ports = s.fab.ports := rfl
@[simp] theorem setTim_fab_bpm {s : State} {f : Tim → Tim} : (setTim s f).fab.bpm = s.fab.bpm := rfl
@[simp] theorem setTim_fab_nextAlloc {s : State} {f : Tim → Tim} : (setTim s f).fab.nextAlloc = s.fab.nextAlloc := rfl
@[simp] theorem setTim_fab_profiles {s : State} {f : Tim → Tim} : (setTim s f).fab.profiles = s.fab.profiles := rfl
@[simp] theorem setTim_fab_classW {s : State} {f : Tim → Tim} : (setTim s f).fab.classW = s.fab.classW := rfl
@[simp] theorem setTim_fab_ageLimit {s : State} {f : Tim → Tim} : (setTim s f).fab.ageLimit = s.fab.ageLimit := rfl
@[simp] theorem setTim_fab_polSel {s : State} {f : Tim → Tim} : (setTim s f).fab.polSel = s.fab.polSel := rfl
@[simp] theorem setTim_fab_oqSel {s : State} {f : Tim → Tim} : (setTim s f).fab.oqSel = s.fab.oqSel := rfl
@[simp] theorem setTim_fab_mirrorDest {s : State} {f : Tim → Tim} : (setTim s f).fab.mirrorDest = s.fab.mirrorDest := rfl
@[simp] theorem setTim_fab_mirrorIndex {s : State} {f : Tim → Tim} : (setTim s f).fab.mirrorIndex = s.fab.mirrorIndex := rfl
@[simp] theorem setTim_fab_mirrorWraps {s : State} {f : Tim → Tim} : (setTim s f).fab.mirrorWraps = s.fab.mirrorWraps := rfl
@[simp] theorem setTim_fab_mirrorDrops {s : State} {f : Tim → Tim} : (setTim s f).fab.mirrorDrops = s.fab.mirrorDrops := rfl
@[simp] theorem setTim_fab_mirrorQueue {s : State} {f : Tim → Tim} : (setTim s f).fab.mirrorQueue = s.fab.mirrorQueue := rfl
@[simp] theorem setTim_fab_mirrorSession {s : State} {f : Tim → Tim} : (setTim s f).fab.mirrorSession = s.fab.mirrorSession := rfl
@[simp] theorem setTim_fab_mirrorGib {s : State} {f : Tim → Tim} : (setTim s f).fab.mirrorGib = s.fab.mirrorGib := rfl
@[simp] theorem setTim_fab_earlyQuota {s : State} {f : Tim → Tim} : (setTim s f).fab.earlyQuota = s.fab.earlyQuota := rfl
@[simp] theorem setTim_fab_earlyUsed {s : State} {f : Tim → Tim} : (setTim s f).fab.earlyUsed = s.fab.earlyUsed := rfl
@[simp] theorem setTim_fab_twin {s : State} {f : Tim → Tim} : (setTim s f).fab.twin = s.fab.twin := rfl
@[simp] theorem setTim_fab_domain {s : State} {f : Tim → Tim} : (setTim s f).fab.domain = s.fab.domain := rfl
@[simp] theorem setTim_fab_moduleIndex {s : State} {f : Tim → Tim} : (setTim s f).fab.moduleIndex = s.fab.moduleIndex := rfl

/-! ### setSched -/

@[simp] theorem setSched_pending {s : State} {f : Sched → Sched} : (setSched s f).pending = s.pending := rfl
@[simp] theorem setSched_now {s : State} {f : Sched → Sched} : (setSched s f).now = s.now := rfl
@[simp] theorem setSched_fabricTime {s : State} {f : Sched → Sched} : (setSched s f).fabricTime = s.fabricTime := rfl
@[simp] theorem setSched_comp {s : State} {f : Sched → Sched} : (setSched s f).comp = s.comp := rfl
@[simp] theorem setSched_tops {s : State} {f : Sched → Sched} : (setSched s f).tops = s.tops := rfl
@[simp] theorem setSched_rings {s : State} {f : Sched → Sched} : (setSched s f).rings = s.rings := rfl
@[simp] theorem setSched_attn {s : State} {f : Sched → Sched} : (setSched s f).attn = s.attn := rfl
@[simp] theorem setSched_freeCtr {s : State} {f : Sched → Sched} : (setSched s f).freeCtr = s.freeCtr := rfl
@[simp] theorem setSched_stretchQ {s : State} {f : Sched → Sched} : (setSched s f).stretchQ = s.stretchQ := rfl
@[simp] theorem setSched_grade {s : State} {f : Sched → Sched} : (setSched s f).grade = s.grade := rfl
@[simp] theorem setSched_coll {s : State} {f : Sched → Sched} : (setSched s f).coll = s.coll := rfl
@[simp] theorem setSched_integ {s : State} {f : Sched → Sched} : (setSched s f).integ = s.integ := rfl
@[simp] theorem setSched_pwr {s : State} {f : Sched → Sched} : (setSched s f).pwr = s.pwr := rfl
@[simp] theorem setSched_mgt {s : State} {f : Sched → Sched} : (setSched s f).mgt = s.mgt := rfl
@[simp] theorem setSched_dbg {s : State} {f : Sched → Sched} : (setSched s f).dbg = s.dbg := rfl
@[simp] theorem setSched_snap {s : State} {f : Sched → Sched} : (setSched s f).snap = s.snap := rfl
@[simp] theorem setSched_pins {s : State} {f : Sched → Sched} : (setSched s f).pins = s.pins := rfl
@[simp] theorem setSched_fab_lanes {s : State} {f : Sched → Sched} : (setSched s f).fab.lanes = s.fab.lanes := rfl
@[simp] theorem setSched_fab_ports {s : State} {f : Sched → Sched} : (setSched s f).fab.ports = s.fab.ports := rfl
@[simp] theorem setSched_fab_bpm {s : State} {f : Sched → Sched} : (setSched s f).fab.bpm = s.fab.bpm := rfl
@[simp] theorem setSched_fab_nextAlloc {s : State} {f : Sched → Sched} : (setSched s f).fab.nextAlloc = s.fab.nextAlloc := rfl
@[simp] theorem setSched_fab_profiles {s : State} {f : Sched → Sched} : (setSched s f).fab.profiles = s.fab.profiles := rfl
@[simp] theorem setSched_fab_classW {s : State} {f : Sched → Sched} : (setSched s f).fab.classW = s.fab.classW := rfl
@[simp] theorem setSched_fab_ageLimit {s : State} {f : Sched → Sched} : (setSched s f).fab.ageLimit = s.fab.ageLimit := rfl
@[simp] theorem setSched_fab_polSel {s : State} {f : Sched → Sched} : (setSched s f).fab.polSel = s.fab.polSel := rfl
@[simp] theorem setSched_fab_oqSel {s : State} {f : Sched → Sched} : (setSched s f).fab.oqSel = s.fab.oqSel := rfl
@[simp] theorem setSched_fab_mirrorDest {s : State} {f : Sched → Sched} : (setSched s f).fab.mirrorDest = s.fab.mirrorDest := rfl
@[simp] theorem setSched_fab_mirrorIndex {s : State} {f : Sched → Sched} : (setSched s f).fab.mirrorIndex = s.fab.mirrorIndex := rfl
@[simp] theorem setSched_fab_mirrorWraps {s : State} {f : Sched → Sched} : (setSched s f).fab.mirrorWraps = s.fab.mirrorWraps := rfl
@[simp] theorem setSched_fab_mirrorDrops {s : State} {f : Sched → Sched} : (setSched s f).fab.mirrorDrops = s.fab.mirrorDrops := rfl
@[simp] theorem setSched_fab_mirrorQueue {s : State} {f : Sched → Sched} : (setSched s f).fab.mirrorQueue = s.fab.mirrorQueue := rfl
@[simp] theorem setSched_fab_mirrorSession {s : State} {f : Sched → Sched} : (setSched s f).fab.mirrorSession = s.fab.mirrorSession := rfl
@[simp] theorem setSched_fab_mirrorGib {s : State} {f : Sched → Sched} : (setSched s f).fab.mirrorGib = s.fab.mirrorGib := rfl
@[simp] theorem setSched_fab_earlyQuota {s : State} {f : Sched → Sched} : (setSched s f).fab.earlyQuota = s.fab.earlyQuota := rfl
@[simp] theorem setSched_fab_earlyUsed {s : State} {f : Sched → Sched} : (setSched s f).fab.earlyUsed = s.fab.earlyUsed := rfl
@[simp] theorem setSched_fab_twin {s : State} {f : Sched → Sched} : (setSched s f).fab.twin = s.fab.twin := rfl
@[simp] theorem setSched_fab_domain {s : State} {f : Sched → Sched} : (setSched s f).fab.domain = s.fab.domain := rfl
@[simp] theorem setSched_fab_moduleIndex {s : State} {f : Sched → Sched} : (setSched s f).fab.moduleIndex = s.fab.moduleIndex := rfl

/-! ### setTwin -/

@[simp] theorem setTwin_pending {s : State} {f : Twin → Twin} : (setTwin s f).pending = s.pending := rfl
@[simp] theorem setTwin_now {s : State} {f : Twin → Twin} : (setTwin s f).now = s.now := rfl
@[simp] theorem setTwin_fabricTime {s : State} {f : Twin → Twin} : (setTwin s f).fabricTime = s.fabricTime := rfl
@[simp] theorem setTwin_comp {s : State} {f : Twin → Twin} : (setTwin s f).comp = s.comp := rfl
@[simp] theorem setTwin_tops {s : State} {f : Twin → Twin} : (setTwin s f).tops = s.tops := rfl
@[simp] theorem setTwin_rings {s : State} {f : Twin → Twin} : (setTwin s f).rings = s.rings := rfl
@[simp] theorem setTwin_attn {s : State} {f : Twin → Twin} : (setTwin s f).attn = s.attn := rfl
@[simp] theorem setTwin_freeCtr {s : State} {f : Twin → Twin} : (setTwin s f).freeCtr = s.freeCtr := rfl
@[simp] theorem setTwin_stretchQ {s : State} {f : Twin → Twin} : (setTwin s f).stretchQ = s.stretchQ := rfl
@[simp] theorem setTwin_grade {s : State} {f : Twin → Twin} : (setTwin s f).grade = s.grade := rfl
@[simp] theorem setTwin_coll {s : State} {f : Twin → Twin} : (setTwin s f).coll = s.coll := rfl
@[simp] theorem setTwin_integ {s : State} {f : Twin → Twin} : (setTwin s f).integ = s.integ := rfl
@[simp] theorem setTwin_pwr {s : State} {f : Twin → Twin} : (setTwin s f).pwr = s.pwr := rfl
@[simp] theorem setTwin_mgt {s : State} {f : Twin → Twin} : (setTwin s f).mgt = s.mgt := rfl
@[simp] theorem setTwin_dbg {s : State} {f : Twin → Twin} : (setTwin s f).dbg = s.dbg := rfl
@[simp] theorem setTwin_snap {s : State} {f : Twin → Twin} : (setTwin s f).snap = s.snap := rfl
@[simp] theorem setTwin_pins {s : State} {f : Twin → Twin} : (setTwin s f).pins = s.pins := rfl
@[simp] theorem setTwin_fab_lanes {s : State} {f : Twin → Twin} : (setTwin s f).fab.lanes = s.fab.lanes := rfl
@[simp] theorem setTwin_fab_ports {s : State} {f : Twin → Twin} : (setTwin s f).fab.ports = s.fab.ports := rfl
@[simp] theorem setTwin_fab_bpm {s : State} {f : Twin → Twin} : (setTwin s f).fab.bpm = s.fab.bpm := rfl
@[simp] theorem setTwin_fab_nextAlloc {s : State} {f : Twin → Twin} : (setTwin s f).fab.nextAlloc = s.fab.nextAlloc := rfl
@[simp] theorem setTwin_fab_profiles {s : State} {f : Twin → Twin} : (setTwin s f).fab.profiles = s.fab.profiles := rfl
@[simp] theorem setTwin_fab_classW {s : State} {f : Twin → Twin} : (setTwin s f).fab.classW = s.fab.classW := rfl
@[simp] theorem setTwin_fab_ageLimit {s : State} {f : Twin → Twin} : (setTwin s f).fab.ageLimit = s.fab.ageLimit := rfl
@[simp] theorem setTwin_fab_polSel {s : State} {f : Twin → Twin} : (setTwin s f).fab.polSel = s.fab.polSel := rfl
@[simp] theorem setTwin_fab_oqSel {s : State} {f : Twin → Twin} : (setTwin s f).fab.oqSel = s.fab.oqSel := rfl
@[simp] theorem setTwin_fab_mirrorDest {s : State} {f : Twin → Twin} : (setTwin s f).fab.mirrorDest = s.fab.mirrorDest := rfl
@[simp] theorem setTwin_fab_mirrorIndex {s : State} {f : Twin → Twin} : (setTwin s f).fab.mirrorIndex = s.fab.mirrorIndex := rfl
@[simp] theorem setTwin_fab_mirrorWraps {s : State} {f : Twin → Twin} : (setTwin s f).fab.mirrorWraps = s.fab.mirrorWraps := rfl
@[simp] theorem setTwin_fab_mirrorDrops {s : State} {f : Twin → Twin} : (setTwin s f).fab.mirrorDrops = s.fab.mirrorDrops := rfl
@[simp] theorem setTwin_fab_mirrorQueue {s : State} {f : Twin → Twin} : (setTwin s f).fab.mirrorQueue = s.fab.mirrorQueue := rfl
@[simp] theorem setTwin_fab_mirrorSession {s : State} {f : Twin → Twin} : (setTwin s f).fab.mirrorSession = s.fab.mirrorSession := rfl
@[simp] theorem setTwin_fab_mirrorGib {s : State} {f : Twin → Twin} : (setTwin s f).fab.mirrorGib = s.fab.mirrorGib := rfl
@[simp] theorem setTwin_fab_earlyQuota {s : State} {f : Twin → Twin} : (setTwin s f).fab.earlyQuota = s.fab.earlyQuota := rfl
@[simp] theorem setTwin_fab_earlyUsed {s : State} {f : Twin → Twin} : (setTwin s f).fab.earlyUsed = s.fab.earlyUsed := rfl
@[simp] theorem setTwin_fab_tim {s : State} {f : Twin → Twin} : (setTwin s f).fab.tim = s.fab.tim := rfl
@[simp] theorem setTwin_fab_domain {s : State} {f : Twin → Twin} : (setTwin s f).fab.domain = s.fab.domain := rfl
@[simp] theorem setTwin_fab_moduleIndex {s : State} {f : Twin → Twin} : (setTwin s f).fab.moduleIndex = s.fab.moduleIndex := rfl

/-! ### setQueue -/

@[simp] theorem setQueue_pending {s : State} {q : Nat} {f : Queue → Queue} : (setQueue s q f).pending = s.pending := rfl
@[simp] theorem setQueue_now {s : State} {q : Nat} {f : Queue → Queue} : (setQueue s q f).now = s.now := rfl
@[simp] theorem setQueue_fabricTime {s : State} {q : Nat} {f : Queue → Queue} : (setQueue s q f).fabricTime = s.fabricTime := rfl
@[simp] theorem setQueue_tops {s : State} {q : Nat} {f : Queue → Queue} : (setQueue s q f).tops = s.tops := rfl
@[simp] theorem setQueue_rings {s : State} {q : Nat} {f : Queue → Queue} : (setQueue s q f).rings = s.rings := rfl
@[simp] theorem setQueue_attn {s : State} {q : Nat} {f : Queue → Queue} : (setQueue s q f).attn = s.attn := rfl
@[simp] theorem setQueue_freeCtr {s : State} {q : Nat} {f : Queue → Queue} : (setQueue s q f).freeCtr = s.freeCtr := rfl
@[simp] theorem setQueue_stretchQ {s : State} {q : Nat} {f : Queue → Queue} : (setQueue s q f).stretchQ = s.stretchQ := rfl
@[simp] theorem setQueue_grade {s : State} {q : Nat} {f : Queue → Queue} : (setQueue s q f).grade = s.grade := rfl
@[simp] theorem setQueue_fab {s : State} {q : Nat} {f : Queue → Queue} : (setQueue s q f).fab = s.fab := rfl
@[simp] theorem setQueue_coll {s : State} {q : Nat} {f : Queue → Queue} : (setQueue s q f).coll = s.coll := rfl
@[simp] theorem setQueue_integ {s : State} {q : Nat} {f : Queue → Queue} : (setQueue s q f).integ = s.integ := rfl
@[simp] theorem setQueue_pwr {s : State} {q : Nat} {f : Queue → Queue} : (setQueue s q f).pwr = s.pwr := rfl
@[simp] theorem setQueue_mgt {s : State} {q : Nat} {f : Queue → Queue} : (setQueue s q f).mgt = s.mgt := rfl
@[simp] theorem setQueue_dbg {s : State} {q : Nat} {f : Queue → Queue} : (setQueue s q f).dbg = s.dbg := rfl
@[simp] theorem setQueue_snap {s : State} {q : Nat} {f : Queue → Queue} : (setQueue s q f).snap = s.snap := rfl
@[simp] theorem setQueue_pins {s : State} {q : Nat} {f : Queue → Queue} : (setQueue s q f).pins = s.pins := rfl
@[simp] theorem setQueue_comp_frames {s : State} {q : Nat} {f : Queue → Queue} : (setQueue s q f).comp.frames = s.comp.frames := rfl
@[simp] theorem setQueue_comp_tierFaults {s : State} {q : Nat} {f : Queue → Queue} : (setQueue s q f).comp.tierFaults = s.comp.tierFaults := rfl
@[simp] theorem setQueue_comp_laurel {s : State} {q : Nat} {f : Queue → Queue} : (setQueue s q f).comp.laurel = s.comp.laurel := rfl
@[simp] theorem setQueue_comp_chans {s : State} {q : Nat} {f : Queue → Queue} : (setQueue s q f).comp.chans = s.comp.chans := rfl
@[simp] theorem setQueue_comp_fpVec {s : State} {q : Nat} {f : Queue → Queue} : (setQueue s q f).comp.fpVec = s.comp.fpVec := rfl
@[simp] theorem setQueue_comp_fpRde {s : State} {q : Nat} {f : Queue → Queue} : (setQueue s q f).comp.fpRde = s.comp.fpRde := rfl
@[simp] theorem setQueue_comp_fpMtx {s : State} {q : Nat} {f : Queue → Queue} : (setQueue s q f).comp.fpMtx = s.comp.fpMtx := rfl
@[simp] theorem setQueue_comp_mtxPasses {s : State} {q : Nat} {f : Queue → Queue} : (setQueue s q f).comp.mtxPasses = s.comp.mtxPasses := rfl
@[simp] theorem setQueue_comp_tlb {s : State} {q : Nat} {f : Queue → Queue} : (setQueue s q f).comp.tlb = s.comp.tlb := rfl
@[simp] theorem setQueue_comp_mmuFault {s : State} {q : Nat} {f : Queue → Queue} : (setQueue s q f).comp.mmuFault = s.comp.mmuFault := rfl
@[simp] theorem setQueue_comp_mmuCnt {s : State} {q : Nat} {f : Queue → Queue} : (setQueue s q f).comp.mmuCnt = s.comp.mmuCnt := rfl
@[simp] theorem setQueue_comp_metaCnt {s : State} {q : Nat} {f : Queue → Queue} : (setQueue s q f).comp.metaCnt = s.comp.metaCnt := rfl
@[simp] theorem setQueue_comp_metaLast {s : State} {q : Nat} {f : Queue → Queue} : (setQueue s q f).comp.metaLast = s.comp.metaLast := rfl

/-! ### setChan -/

@[simp] theorem setChan_pending {s : State} {i : Nat} {c : Channel} : (setChan s i c).pending = s.pending := rfl
@[simp] theorem setChan_now {s : State} {i : Nat} {c : Channel} : (setChan s i c).now = s.now := rfl
@[simp] theorem setChan_fabricTime {s : State} {i : Nat} {c : Channel} : (setChan s i c).fabricTime = s.fabricTime := rfl
@[simp] theorem setChan_tops {s : State} {i : Nat} {c : Channel} : (setChan s i c).tops = s.tops := rfl
@[simp] theorem setChan_rings {s : State} {i : Nat} {c : Channel} : (setChan s i c).rings = s.rings := rfl
@[simp] theorem setChan_attn {s : State} {i : Nat} {c : Channel} : (setChan s i c).attn = s.attn := rfl
@[simp] theorem setChan_freeCtr {s : State} {i : Nat} {c : Channel} : (setChan s i c).freeCtr = s.freeCtr := rfl
@[simp] theorem setChan_stretchQ {s : State} {i : Nat} {c : Channel} : (setChan s i c).stretchQ = s.stretchQ := rfl
@[simp] theorem setChan_grade {s : State} {i : Nat} {c : Channel} : (setChan s i c).grade = s.grade := rfl
@[simp] theorem setChan_fab {s : State} {i : Nat} {c : Channel} : (setChan s i c).fab = s.fab := rfl
@[simp] theorem setChan_coll {s : State} {i : Nat} {c : Channel} : (setChan s i c).coll = s.coll := rfl
@[simp] theorem setChan_integ {s : State} {i : Nat} {c : Channel} : (setChan s i c).integ = s.integ := rfl
@[simp] theorem setChan_pwr {s : State} {i : Nat} {c : Channel} : (setChan s i c).pwr = s.pwr := rfl
@[simp] theorem setChan_mgt {s : State} {i : Nat} {c : Channel} : (setChan s i c).mgt = s.mgt := rfl
@[simp] theorem setChan_dbg {s : State} {i : Nat} {c : Channel} : (setChan s i c).dbg = s.dbg := rfl
@[simp] theorem setChan_snap {s : State} {i : Nat} {c : Channel} : (setChan s i c).snap = s.snap := rfl
@[simp] theorem setChan_pins {s : State} {i : Nat} {c : Channel} : (setChan s i c).pins = s.pins := rfl
@[simp] theorem setChan_comp_queues {s : State} {i : Nat} {c : Channel} : (setChan s i c).comp.queues = s.comp.queues := rfl
@[simp] theorem setChan_comp_jobFlags {s : State} {i : Nat} {c : Channel} : (setChan s i c).comp.jobFlags = s.comp.jobFlags := rfl
@[simp] theorem setChan_comp_mem {s : State} {i : Nat} {c : Channel} : (setChan s i c).comp.mem = s.comp.mem := rfl
@[simp] theorem setChan_comp_frames {s : State} {i : Nat} {c : Channel} : (setChan s i c).comp.frames = s.comp.frames := rfl
@[simp] theorem setChan_comp_tierFaults {s : State} {i : Nat} {c : Channel} : (setChan s i c).comp.tierFaults = s.comp.tierFaults := rfl
@[simp] theorem setChan_comp_laurel {s : State} {i : Nat} {c : Channel} : (setChan s i c).comp.laurel = s.comp.laurel := rfl
@[simp] theorem setChan_comp_fpVec {s : State} {i : Nat} {c : Channel} : (setChan s i c).comp.fpVec = s.comp.fpVec := rfl
@[simp] theorem setChan_comp_fpRde {s : State} {i : Nat} {c : Channel} : (setChan s i c).comp.fpRde = s.comp.fpRde := rfl
@[simp] theorem setChan_comp_fpMtx {s : State} {i : Nat} {c : Channel} : (setChan s i c).comp.fpMtx = s.comp.fpMtx := rfl
@[simp] theorem setChan_comp_mtxPasses {s : State} {i : Nat} {c : Channel} : (setChan s i c).comp.mtxPasses = s.comp.mtxPasses := rfl
@[simp] theorem setChan_comp_tlb {s : State} {i : Nat} {c : Channel} : (setChan s i c).comp.tlb = s.comp.tlb := rfl
@[simp] theorem setChan_comp_mmuFault {s : State} {i : Nat} {c : Channel} : (setChan s i c).comp.mmuFault = s.comp.mmuFault := rfl
@[simp] theorem setChan_comp_mmuCnt {s : State} {i : Nat} {c : Channel} : (setChan s i c).comp.mmuCnt = s.comp.mmuCnt := rfl
@[simp] theorem setChan_comp_metaCnt {s : State} {i : Nat} {c : Channel} : (setChan s i c).comp.metaCnt = s.comp.metaCnt := rfl
@[simp] theorem setChan_comp_metaLast {s : State} {i : Nat} {c : Channel} : (setChan s i c).comp.metaLast = s.comp.metaLast := rfl

/-! ### setFrames -/

@[simp] theorem setFrames_pending {s : State} {j d : Nat} {fs : List Frame} : (setFrames s j d fs).pending = s.pending := rfl
@[simp] theorem setFrames_now {s : State} {j d : Nat} {fs : List Frame} : (setFrames s j d fs).now = s.now := rfl
@[simp] theorem setFrames_fabricTime {s : State} {j d : Nat} {fs : List Frame} : (setFrames s j d fs).fabricTime = s.fabricTime := rfl
@[simp] theorem setFrames_tops {s : State} {j d : Nat} {fs : List Frame} : (setFrames s j d fs).tops = s.tops := rfl
@[simp] theorem setFrames_rings {s : State} {j d : Nat} {fs : List Frame} : (setFrames s j d fs).rings = s.rings := rfl
@[simp] theorem setFrames_attn {s : State} {j d : Nat} {fs : List Frame} : (setFrames s j d fs).attn = s.attn := rfl
@[simp] theorem setFrames_freeCtr {s : State} {j d : Nat} {fs : List Frame} : (setFrames s j d fs).freeCtr = s.freeCtr := rfl
@[simp] theorem setFrames_stretchQ {s : State} {j d : Nat} {fs : List Frame} : (setFrames s j d fs).stretchQ = s.stretchQ := rfl
@[simp] theorem setFrames_grade {s : State} {j d : Nat} {fs : List Frame} : (setFrames s j d fs).grade = s.grade := rfl
@[simp] theorem setFrames_fab {s : State} {j d : Nat} {fs : List Frame} : (setFrames s j d fs).fab = s.fab := rfl
@[simp] theorem setFrames_coll {s : State} {j d : Nat} {fs : List Frame} : (setFrames s j d fs).coll = s.coll := rfl
@[simp] theorem setFrames_integ {s : State} {j d : Nat} {fs : List Frame} : (setFrames s j d fs).integ = s.integ := rfl
@[simp] theorem setFrames_pwr {s : State} {j d : Nat} {fs : List Frame} : (setFrames s j d fs).pwr = s.pwr := rfl
@[simp] theorem setFrames_mgt {s : State} {j d : Nat} {fs : List Frame} : (setFrames s j d fs).mgt = s.mgt := rfl
@[simp] theorem setFrames_dbg {s : State} {j d : Nat} {fs : List Frame} : (setFrames s j d fs).dbg = s.dbg := rfl
@[simp] theorem setFrames_snap {s : State} {j d : Nat} {fs : List Frame} : (setFrames s j d fs).snap = s.snap := rfl
@[simp] theorem setFrames_pins {s : State} {j d : Nat} {fs : List Frame} : (setFrames s j d fs).pins = s.pins := rfl
@[simp] theorem setFrames_comp_queues {s : State} {j d : Nat} {fs : List Frame} : (setFrames s j d fs).comp.queues = s.comp.queues := rfl
@[simp] theorem setFrames_comp_jobFlags {s : State} {j d : Nat} {fs : List Frame} : (setFrames s j d fs).comp.jobFlags = s.comp.jobFlags := rfl
@[simp] theorem setFrames_comp_mem {s : State} {j d : Nat} {fs : List Frame} : (setFrames s j d fs).comp.mem = s.comp.mem := rfl
@[simp] theorem setFrames_comp_tierFaults {s : State} {j d : Nat} {fs : List Frame} : (setFrames s j d fs).comp.tierFaults = s.comp.tierFaults := rfl
@[simp] theorem setFrames_comp_laurel {s : State} {j d : Nat} {fs : List Frame} : (setFrames s j d fs).comp.laurel = s.comp.laurel := rfl
@[simp] theorem setFrames_comp_chans {s : State} {j d : Nat} {fs : List Frame} : (setFrames s j d fs).comp.chans = s.comp.chans := rfl
@[simp] theorem setFrames_comp_fpVec {s : State} {j d : Nat} {fs : List Frame} : (setFrames s j d fs).comp.fpVec = s.comp.fpVec := rfl
@[simp] theorem setFrames_comp_fpRde {s : State} {j d : Nat} {fs : List Frame} : (setFrames s j d fs).comp.fpRde = s.comp.fpRde := rfl
@[simp] theorem setFrames_comp_fpMtx {s : State} {j d : Nat} {fs : List Frame} : (setFrames s j d fs).comp.fpMtx = s.comp.fpMtx := rfl
@[simp] theorem setFrames_comp_mtxPasses {s : State} {j d : Nat} {fs : List Frame} : (setFrames s j d fs).comp.mtxPasses = s.comp.mtxPasses := rfl
@[simp] theorem setFrames_comp_tlb {s : State} {j d : Nat} {fs : List Frame} : (setFrames s j d fs).comp.tlb = s.comp.tlb := rfl
@[simp] theorem setFrames_comp_mmuFault {s : State} {j d : Nat} {fs : List Frame} : (setFrames s j d fs).comp.mmuFault = s.comp.mmuFault := rfl
@[simp] theorem setFrames_comp_mmuCnt {s : State} {j d : Nat} {fs : List Frame} : (setFrames s j d fs).comp.mmuCnt = s.comp.mmuCnt := rfl
@[simp] theorem setFrames_comp_metaCnt {s : State} {j d : Nat} {fs : List Frame} : (setFrames s j d fs).comp.metaCnt = s.comp.metaCnt := rfl
@[simp] theorem setFrames_comp_metaLast {s : State} {j d : Nat} {fs : List Frame} : (setFrames s j d fs).comp.metaLast = s.comp.metaLast := rfl

/-! ### setJobFlag -/

@[simp] theorem setJobFlag_pending {s : State} {j g : Nat} {b : Bool} : (setJobFlag s j g b).pending = s.pending := rfl
@[simp] theorem setJobFlag_now {s : State} {j g : Nat} {b : Bool} : (setJobFlag s j g b).now = s.now := rfl
@[simp] theorem setJobFlag_fabricTime {s : State} {j g : Nat} {b : Bool} : (setJobFlag s j g b).fabricTime = s.fabricTime := rfl
@[simp] theorem setJobFlag_tops {s : State} {j g : Nat} {b : Bool} : (setJobFlag s j g b).tops = s.tops := rfl
@[simp] theorem setJobFlag_rings {s : State} {j g : Nat} {b : Bool} : (setJobFlag s j g b).rings = s.rings := rfl
@[simp] theorem setJobFlag_attn {s : State} {j g : Nat} {b : Bool} : (setJobFlag s j g b).attn = s.attn := rfl
@[simp] theorem setJobFlag_freeCtr {s : State} {j g : Nat} {b : Bool} : (setJobFlag s j g b).freeCtr = s.freeCtr := rfl
@[simp] theorem setJobFlag_stretchQ {s : State} {j g : Nat} {b : Bool} : (setJobFlag s j g b).stretchQ = s.stretchQ := rfl
@[simp] theorem setJobFlag_grade {s : State} {j g : Nat} {b : Bool} : (setJobFlag s j g b).grade = s.grade := rfl
@[simp] theorem setJobFlag_fab {s : State} {j g : Nat} {b : Bool} : (setJobFlag s j g b).fab = s.fab := rfl
@[simp] theorem setJobFlag_coll {s : State} {j g : Nat} {b : Bool} : (setJobFlag s j g b).coll = s.coll := rfl
@[simp] theorem setJobFlag_integ {s : State} {j g : Nat} {b : Bool} : (setJobFlag s j g b).integ = s.integ := rfl
@[simp] theorem setJobFlag_pwr {s : State} {j g : Nat} {b : Bool} : (setJobFlag s j g b).pwr = s.pwr := rfl
@[simp] theorem setJobFlag_mgt {s : State} {j g : Nat} {b : Bool} : (setJobFlag s j g b).mgt = s.mgt := rfl
@[simp] theorem setJobFlag_dbg {s : State} {j g : Nat} {b : Bool} : (setJobFlag s j g b).dbg = s.dbg := rfl
@[simp] theorem setJobFlag_snap {s : State} {j g : Nat} {b : Bool} : (setJobFlag s j g b).snap = s.snap := rfl
@[simp] theorem setJobFlag_pins {s : State} {j g : Nat} {b : Bool} : (setJobFlag s j g b).pins = s.pins := rfl
@[simp] theorem setJobFlag_comp_queues {s : State} {j g : Nat} {b : Bool} : (setJobFlag s j g b).comp.queues = s.comp.queues := rfl
@[simp] theorem setJobFlag_comp_mem {s : State} {j g : Nat} {b : Bool} : (setJobFlag s j g b).comp.mem = s.comp.mem := rfl
@[simp] theorem setJobFlag_comp_frames {s : State} {j g : Nat} {b : Bool} : (setJobFlag s j g b).comp.frames = s.comp.frames := rfl
@[simp] theorem setJobFlag_comp_tierFaults {s : State} {j g : Nat} {b : Bool} : (setJobFlag s j g b).comp.tierFaults = s.comp.tierFaults := rfl
@[simp] theorem setJobFlag_comp_laurel {s : State} {j g : Nat} {b : Bool} : (setJobFlag s j g b).comp.laurel = s.comp.laurel := rfl
@[simp] theorem setJobFlag_comp_chans {s : State} {j g : Nat} {b : Bool} : (setJobFlag s j g b).comp.chans = s.comp.chans := rfl
@[simp] theorem setJobFlag_comp_fpVec {s : State} {j g : Nat} {b : Bool} : (setJobFlag s j g b).comp.fpVec = s.comp.fpVec := rfl
@[simp] theorem setJobFlag_comp_fpRde {s : State} {j g : Nat} {b : Bool} : (setJobFlag s j g b).comp.fpRde = s.comp.fpRde := rfl
@[simp] theorem setJobFlag_comp_fpMtx {s : State} {j g : Nat} {b : Bool} : (setJobFlag s j g b).comp.fpMtx = s.comp.fpMtx := rfl
@[simp] theorem setJobFlag_comp_mtxPasses {s : State} {j g : Nat} {b : Bool} : (setJobFlag s j g b).comp.mtxPasses = s.comp.mtxPasses := rfl
@[simp] theorem setJobFlag_comp_tlb {s : State} {j g : Nat} {b : Bool} : (setJobFlag s j g b).comp.tlb = s.comp.tlb := rfl
@[simp] theorem setJobFlag_comp_mmuFault {s : State} {j g : Nat} {b : Bool} : (setJobFlag s j g b).comp.mmuFault = s.comp.mmuFault := rfl
@[simp] theorem setJobFlag_comp_mmuCnt {s : State} {j g : Nat} {b : Bool} : (setJobFlag s j g b).comp.mmuCnt = s.comp.mmuCnt := rfl
@[simp] theorem setJobFlag_comp_metaCnt {s : State} {j g : Nat} {b : Bool} : (setJobFlag s j g b).comp.metaCnt = s.comp.metaCnt := rfl
@[simp] theorem setJobFlag_comp_metaLast {s : State} {j g : Nat} {b : Bool} : (setJobFlag s j g b).comp.metaLast = s.comp.metaLast := rfl

/-! ### setLaurel -/

@[simp] theorem setLaurel_pending {s : State} {d i : Nat} {f : LaurelWork → LaurelWork} : (setLaurel s d i f).pending = s.pending := rfl
@[simp] theorem setLaurel_now {s : State} {d i : Nat} {f : LaurelWork → LaurelWork} : (setLaurel s d i f).now = s.now := rfl
@[simp] theorem setLaurel_fabricTime {s : State} {d i : Nat} {f : LaurelWork → LaurelWork} : (setLaurel s d i f).fabricTime = s.fabricTime := rfl
@[simp] theorem setLaurel_tops {s : State} {d i : Nat} {f : LaurelWork → LaurelWork} : (setLaurel s d i f).tops = s.tops := rfl
@[simp] theorem setLaurel_rings {s : State} {d i : Nat} {f : LaurelWork → LaurelWork} : (setLaurel s d i f).rings = s.rings := rfl
@[simp] theorem setLaurel_attn {s : State} {d i : Nat} {f : LaurelWork → LaurelWork} : (setLaurel s d i f).attn = s.attn := rfl
@[simp] theorem setLaurel_freeCtr {s : State} {d i : Nat} {f : LaurelWork → LaurelWork} : (setLaurel s d i f).freeCtr = s.freeCtr := rfl
@[simp] theorem setLaurel_stretchQ {s : State} {d i : Nat} {f : LaurelWork → LaurelWork} : (setLaurel s d i f).stretchQ = s.stretchQ := rfl
@[simp] theorem setLaurel_grade {s : State} {d i : Nat} {f : LaurelWork → LaurelWork} : (setLaurel s d i f).grade = s.grade := rfl
@[simp] theorem setLaurel_fab {s : State} {d i : Nat} {f : LaurelWork → LaurelWork} : (setLaurel s d i f).fab = s.fab := rfl
@[simp] theorem setLaurel_coll {s : State} {d i : Nat} {f : LaurelWork → LaurelWork} : (setLaurel s d i f).coll = s.coll := rfl
@[simp] theorem setLaurel_integ {s : State} {d i : Nat} {f : LaurelWork → LaurelWork} : (setLaurel s d i f).integ = s.integ := rfl
@[simp] theorem setLaurel_pwr {s : State} {d i : Nat} {f : LaurelWork → LaurelWork} : (setLaurel s d i f).pwr = s.pwr := rfl
@[simp] theorem setLaurel_mgt {s : State} {d i : Nat} {f : LaurelWork → LaurelWork} : (setLaurel s d i f).mgt = s.mgt := rfl
@[simp] theorem setLaurel_dbg {s : State} {d i : Nat} {f : LaurelWork → LaurelWork} : (setLaurel s d i f).dbg = s.dbg := rfl
@[simp] theorem setLaurel_snap {s : State} {d i : Nat} {f : LaurelWork → LaurelWork} : (setLaurel s d i f).snap = s.snap := rfl
@[simp] theorem setLaurel_pins {s : State} {d i : Nat} {f : LaurelWork → LaurelWork} : (setLaurel s d i f).pins = s.pins := rfl
@[simp] theorem setLaurel_comp_queues {s : State} {d i : Nat} {f : LaurelWork → LaurelWork} : (setLaurel s d i f).comp.queues = s.comp.queues := rfl
@[simp] theorem setLaurel_comp_jobFlags {s : State} {d i : Nat} {f : LaurelWork → LaurelWork} : (setLaurel s d i f).comp.jobFlags = s.comp.jobFlags := rfl
@[simp] theorem setLaurel_comp_mem {s : State} {d i : Nat} {f : LaurelWork → LaurelWork} : (setLaurel s d i f).comp.mem = s.comp.mem := rfl
@[simp] theorem setLaurel_comp_frames {s : State} {d i : Nat} {f : LaurelWork → LaurelWork} : (setLaurel s d i f).comp.frames = s.comp.frames := rfl
@[simp] theorem setLaurel_comp_tierFaults {s : State} {d i : Nat} {f : LaurelWork → LaurelWork} : (setLaurel s d i f).comp.tierFaults = s.comp.tierFaults := rfl
@[simp] theorem setLaurel_comp_chans {s : State} {d i : Nat} {f : LaurelWork → LaurelWork} : (setLaurel s d i f).comp.chans = s.comp.chans := rfl
@[simp] theorem setLaurel_comp_fpVec {s : State} {d i : Nat} {f : LaurelWork → LaurelWork} : (setLaurel s d i f).comp.fpVec = s.comp.fpVec := rfl
@[simp] theorem setLaurel_comp_fpRde {s : State} {d i : Nat} {f : LaurelWork → LaurelWork} : (setLaurel s d i f).comp.fpRde = s.comp.fpRde := rfl
@[simp] theorem setLaurel_comp_fpMtx {s : State} {d i : Nat} {f : LaurelWork → LaurelWork} : (setLaurel s d i f).comp.fpMtx = s.comp.fpMtx := rfl
@[simp] theorem setLaurel_comp_mtxPasses {s : State} {d i : Nat} {f : LaurelWork → LaurelWork} : (setLaurel s d i f).comp.mtxPasses = s.comp.mtxPasses := rfl
@[simp] theorem setLaurel_comp_tlb {s : State} {d i : Nat} {f : LaurelWork → LaurelWork} : (setLaurel s d i f).comp.tlb = s.comp.tlb := rfl
@[simp] theorem setLaurel_comp_mmuFault {s : State} {d i : Nat} {f : LaurelWork → LaurelWork} : (setLaurel s d i f).comp.mmuFault = s.comp.mmuFault := rfl
@[simp] theorem setLaurel_comp_mmuCnt {s : State} {d i : Nat} {f : LaurelWork → LaurelWork} : (setLaurel s d i f).comp.mmuCnt = s.comp.mmuCnt := rfl
@[simp] theorem setLaurel_comp_metaCnt {s : State} {d i : Nat} {f : LaurelWork → LaurelWork} : (setLaurel s d i f).comp.metaCnt = s.comp.metaCnt := rfl
@[simp] theorem setLaurel_comp_metaLast {s : State} {d i : Nat} {f : LaurelWork → LaurelWork} : (setLaurel s d i f).comp.metaLast = s.comp.metaLast := rfl

/-! ### bumpMmu -/

@[simp] theorem bumpMmu_pending {s : State} {d k n : Nat} : (bumpMmu s d k n).pending = s.pending := rfl
@[simp] theorem bumpMmu_now {s : State} {d k n : Nat} : (bumpMmu s d k n).now = s.now := rfl
@[simp] theorem bumpMmu_fabricTime {s : State} {d k n : Nat} : (bumpMmu s d k n).fabricTime = s.fabricTime := rfl
@[simp] theorem bumpMmu_tops {s : State} {d k n : Nat} : (bumpMmu s d k n).tops = s.tops := rfl
@[simp] theorem bumpMmu_rings {s : State} {d k n : Nat} : (bumpMmu s d k n).rings = s.rings := rfl
@[simp] theorem bumpMmu_attn {s : State} {d k n : Nat} : (bumpMmu s d k n).attn = s.attn := rfl
@[simp] theorem bumpMmu_freeCtr {s : State} {d k n : Nat} : (bumpMmu s d k n).freeCtr = s.freeCtr := rfl
@[simp] theorem bumpMmu_stretchQ {s : State} {d k n : Nat} : (bumpMmu s d k n).stretchQ = s.stretchQ := rfl
@[simp] theorem bumpMmu_grade {s : State} {d k n : Nat} : (bumpMmu s d k n).grade = s.grade := rfl
@[simp] theorem bumpMmu_fab {s : State} {d k n : Nat} : (bumpMmu s d k n).fab = s.fab := rfl
@[simp] theorem bumpMmu_coll {s : State} {d k n : Nat} : (bumpMmu s d k n).coll = s.coll := rfl
@[simp] theorem bumpMmu_integ {s : State} {d k n : Nat} : (bumpMmu s d k n).integ = s.integ := rfl
@[simp] theorem bumpMmu_pwr {s : State} {d k n : Nat} : (bumpMmu s d k n).pwr = s.pwr := rfl
@[simp] theorem bumpMmu_mgt {s : State} {d k n : Nat} : (bumpMmu s d k n).mgt = s.mgt := rfl
@[simp] theorem bumpMmu_dbg {s : State} {d k n : Nat} : (bumpMmu s d k n).dbg = s.dbg := rfl
@[simp] theorem bumpMmu_snap {s : State} {d k n : Nat} : (bumpMmu s d k n).snap = s.snap := rfl
@[simp] theorem bumpMmu_pins {s : State} {d k n : Nat} : (bumpMmu s d k n).pins = s.pins := rfl
@[simp] theorem bumpMmu_comp_queues {s : State} {d k n : Nat} : (bumpMmu s d k n).comp.queues = s.comp.queues := rfl
@[simp] theorem bumpMmu_comp_jobFlags {s : State} {d k n : Nat} : (bumpMmu s d k n).comp.jobFlags = s.comp.jobFlags := rfl
@[simp] theorem bumpMmu_comp_mem {s : State} {d k n : Nat} : (bumpMmu s d k n).comp.mem = s.comp.mem := rfl
@[simp] theorem bumpMmu_comp_frames {s : State} {d k n : Nat} : (bumpMmu s d k n).comp.frames = s.comp.frames := rfl
@[simp] theorem bumpMmu_comp_tierFaults {s : State} {d k n : Nat} : (bumpMmu s d k n).comp.tierFaults = s.comp.tierFaults := rfl
@[simp] theorem bumpMmu_comp_laurel {s : State} {d k n : Nat} : (bumpMmu s d k n).comp.laurel = s.comp.laurel := rfl
@[simp] theorem bumpMmu_comp_chans {s : State} {d k n : Nat} : (bumpMmu s d k n).comp.chans = s.comp.chans := rfl
@[simp] theorem bumpMmu_comp_fpVec {s : State} {d k n : Nat} : (bumpMmu s d k n).comp.fpVec = s.comp.fpVec := rfl
@[simp] theorem bumpMmu_comp_fpRde {s : State} {d k n : Nat} : (bumpMmu s d k n).comp.fpRde = s.comp.fpRde := rfl
@[simp] theorem bumpMmu_comp_fpMtx {s : State} {d k n : Nat} : (bumpMmu s d k n).comp.fpMtx = s.comp.fpMtx := rfl
@[simp] theorem bumpMmu_comp_mtxPasses {s : State} {d k n : Nat} : (bumpMmu s d k n).comp.mtxPasses = s.comp.mtxPasses := rfl
@[simp] theorem bumpMmu_comp_tlb {s : State} {d k n : Nat} : (bumpMmu s d k n).comp.tlb = s.comp.tlb := rfl
@[simp] theorem bumpMmu_comp_mmuFault {s : State} {d k n : Nat} : (bumpMmu s d k n).comp.mmuFault = s.comp.mmuFault := rfl
@[simp] theorem bumpMmu_comp_metaCnt {s : State} {d k n : Nat} : (bumpMmu s d k n).comp.metaCnt = s.comp.metaCnt := rfl
@[simp] theorem bumpMmu_comp_metaLast {s : State} {d k n : Nat} : (bumpMmu s d k n).comp.metaLast = s.comp.metaLast := rfl

/-! ### putWord -/

@[simp] theorem putWord_pending {s : State} {k v : Nat} : (putWord s k v).pending = s.pending := rfl
@[simp] theorem putWord_now {s : State} {k v : Nat} : (putWord s k v).now = s.now := rfl
@[simp] theorem putWord_fabricTime {s : State} {k v : Nat} : (putWord s k v).fabricTime = s.fabricTime := rfl
@[simp] theorem putWord_tops {s : State} {k v : Nat} : (putWord s k v).tops = s.tops := rfl
@[simp] theorem putWord_rings {s : State} {k v : Nat} : (putWord s k v).rings = s.rings := rfl
@[simp] theorem putWord_attn {s : State} {k v : Nat} : (putWord s k v).attn = s.attn := rfl
@[simp] theorem putWord_freeCtr {s : State} {k v : Nat} : (putWord s k v).freeCtr = s.freeCtr := rfl
@[simp] theorem putWord_stretchQ {s : State} {k v : Nat} : (putWord s k v).stretchQ = s.stretchQ := rfl
@[simp] theorem putWord_grade {s : State} {k v : Nat} : (putWord s k v).grade = s.grade := rfl
@[simp] theorem putWord_fab {s : State} {k v : Nat} : (putWord s k v).fab = s.fab := rfl
@[simp] theorem putWord_coll {s : State} {k v : Nat} : (putWord s k v).coll = s.coll := rfl
@[simp] theorem putWord_integ {s : State} {k v : Nat} : (putWord s k v).integ = s.integ := rfl
@[simp] theorem putWord_pwr {s : State} {k v : Nat} : (putWord s k v).pwr = s.pwr := rfl
@[simp] theorem putWord_mgt {s : State} {k v : Nat} : (putWord s k v).mgt = s.mgt := rfl
@[simp] theorem putWord_dbg {s : State} {k v : Nat} : (putWord s k v).dbg = s.dbg := rfl
@[simp] theorem putWord_snap {s : State} {k v : Nat} : (putWord s k v).snap = s.snap := rfl
@[simp] theorem putWord_pins {s : State} {k v : Nat} : (putWord s k v).pins = s.pins := rfl
@[simp] theorem putWord_comp_queues {s : State} {k v : Nat} : (putWord s k v).comp.queues = s.comp.queues := rfl
@[simp] theorem putWord_comp_jobFlags {s : State} {k v : Nat} : (putWord s k v).comp.jobFlags = s.comp.jobFlags := rfl
@[simp] theorem putWord_comp_frames {s : State} {k v : Nat} : (putWord s k v).comp.frames = s.comp.frames := rfl
@[simp] theorem putWord_comp_tierFaults {s : State} {k v : Nat} : (putWord s k v).comp.tierFaults = s.comp.tierFaults := rfl
@[simp] theorem putWord_comp_laurel {s : State} {k v : Nat} : (putWord s k v).comp.laurel = s.comp.laurel := rfl
@[simp] theorem putWord_comp_chans {s : State} {k v : Nat} : (putWord s k v).comp.chans = s.comp.chans := rfl
@[simp] theorem putWord_comp_fpVec {s : State} {k v : Nat} : (putWord s k v).comp.fpVec = s.comp.fpVec := rfl
@[simp] theorem putWord_comp_fpRde {s : State} {k v : Nat} : (putWord s k v).comp.fpRde = s.comp.fpRde := rfl
@[simp] theorem putWord_comp_fpMtx {s : State} {k v : Nat} : (putWord s k v).comp.fpMtx = s.comp.fpMtx := rfl
@[simp] theorem putWord_comp_mtxPasses {s : State} {k v : Nat} : (putWord s k v).comp.mtxPasses = s.comp.mtxPasses := rfl
@[simp] theorem putWord_comp_tlb {s : State} {k v : Nat} : (putWord s k v).comp.tlb = s.comp.tlb := rfl
@[simp] theorem putWord_comp_mmuFault {s : State} {k v : Nat} : (putWord s k v).comp.mmuFault = s.comp.mmuFault := rfl
@[simp] theorem putWord_comp_mmuCnt {s : State} {k v : Nat} : (putWord s k v).comp.mmuCnt = s.comp.mmuCnt := rfl
@[simp] theorem putWord_comp_metaCnt {s : State} {k v : Nat} : (putWord s k v).comp.metaCnt = s.comp.metaCnt := rfl
@[simp] theorem putWord_comp_metaLast {s : State} {k v : Nat} : (putWord s k v).comp.metaLast = s.comp.metaLast := rfl

/-! ### setColl -/

@[simp] theorem setColl_pending {s : State} {j e o : Nat} {f : Coll → Coll} : (setColl s j e o f).pending = s.pending := rfl
@[simp] theorem setColl_now {s : State} {j e o : Nat} {f : Coll → Coll} : (setColl s j e o f).now = s.now := rfl
@[simp] theorem setColl_fabricTime {s : State} {j e o : Nat} {f : Coll → Coll} : (setColl s j e o f).fabricTime = s.fabricTime := rfl
@[simp] theorem setColl_comp {s : State} {j e o : Nat} {f : Coll → Coll} : (setColl s j e o f).comp = s.comp := rfl
@[simp] theorem setColl_tops {s : State} {j e o : Nat} {f : Coll → Coll} : (setColl s j e o f).tops = s.tops := rfl
@[simp] theorem setColl_rings {s : State} {j e o : Nat} {f : Coll → Coll} : (setColl s j e o f).rings = s.rings := rfl
@[simp] theorem setColl_attn {s : State} {j e o : Nat} {f : Coll → Coll} : (setColl s j e o f).attn = s.attn := rfl
@[simp] theorem setColl_freeCtr {s : State} {j e o : Nat} {f : Coll → Coll} : (setColl s j e o f).freeCtr = s.freeCtr := rfl
@[simp] theorem setColl_stretchQ {s : State} {j e o : Nat} {f : Coll → Coll} : (setColl s j e o f).stretchQ = s.stretchQ := rfl
@[simp] theorem setColl_grade {s : State} {j e o : Nat} {f : Coll → Coll} : (setColl s j e o f).grade = s.grade := rfl
@[simp] theorem setColl_fab {s : State} {j e o : Nat} {f : Coll → Coll} : (setColl s j e o f).fab = s.fab := rfl
@[simp] theorem setColl_integ {s : State} {j e o : Nat} {f : Coll → Coll} : (setColl s j e o f).integ = s.integ := rfl
@[simp] theorem setColl_pwr {s : State} {j e o : Nat} {f : Coll → Coll} : (setColl s j e o f).pwr = s.pwr := rfl
@[simp] theorem setColl_mgt {s : State} {j e o : Nat} {f : Coll → Coll} : (setColl s j e o f).mgt = s.mgt := rfl
@[simp] theorem setColl_dbg {s : State} {j e o : Nat} {f : Coll → Coll} : (setColl s j e o f).dbg = s.dbg := rfl
@[simp] theorem setColl_snap {s : State} {j e o : Nat} {f : Coll → Coll} : (setColl s j e o f).snap = s.snap := rfl
@[simp] theorem setColl_pins {s : State} {j e o : Nat} {f : Coll → Coll} : (setColl s j e o f).pins = s.pins := rfl
@[simp] theorem setColl_coll_jobs {s : State} {j e o : Nat} {f : Coll → Coll} : (setColl s j e o f).coll.jobs = s.coll.jobs := rfl
@[simp] theorem setColl_coll_shards {s : State} {j e o : Nat} {f : Coll → Coll} : (setColl s j e o f).coll.shards = s.coll.shards := rfl
@[simp] theorem setColl_coll_abortLast {s : State} {j e o : Nat} {f : Coll → Coll} : (setColl s j e o f).coll.abortLast = s.coll.abortLast := rfl
@[simp] theorem setColl_coll_lag {s : State} {j e o : Nat} {f : Coll → Coll} : (setColl s j e o f).coll.lag = s.coll.lag := rfl
@[simp] theorem setColl_coll_lagWorst {s : State} {j e o : Nat} {f : Coll → Coll} : (setColl s j e o f).coll.lagWorst = s.coll.lagWorst := rfl
@[simp] theorem setColl_coll_lagFull {s : State} {j e o : Nat} {f : Coll → Coll} : (setColl s j e o f).coll.lagFull = s.coll.lagFull := rfl
@[simp] theorem setColl_coll_moeDrops {s : State} {j e o : Nat} {f : Coll → Coll} : (setColl s j e o f).coll.moeDrops = s.coll.moeDrops := rfl
@[simp] theorem setColl_coll_moeInvalid {s : State} {j e o : Nat} {f : Coll → Coll} : (setColl s j e o f).coll.moeInvalid = s.coll.moeInvalid := rfl
@[simp] theorem setColl_coll_engLast {s : State} {j e o : Nat} {f : Coll → Coll} : (setColl s j e o f).coll.engLast = s.coll.engLast := rfl

/-! ### setJob -/

@[simp] theorem setJob_pending {s : State} {j : Nat} {f : JobSt → JobSt} : (setJob s j f).pending = s.pending := rfl
@[simp] theorem setJob_now {s : State} {j : Nat} {f : JobSt → JobSt} : (setJob s j f).now = s.now := rfl
@[simp] theorem setJob_fabricTime {s : State} {j : Nat} {f : JobSt → JobSt} : (setJob s j f).fabricTime = s.fabricTime := rfl
@[simp] theorem setJob_comp {s : State} {j : Nat} {f : JobSt → JobSt} : (setJob s j f).comp = s.comp := rfl
@[simp] theorem setJob_tops {s : State} {j : Nat} {f : JobSt → JobSt} : (setJob s j f).tops = s.tops := rfl
@[simp] theorem setJob_rings {s : State} {j : Nat} {f : JobSt → JobSt} : (setJob s j f).rings = s.rings := rfl
@[simp] theorem setJob_attn {s : State} {j : Nat} {f : JobSt → JobSt} : (setJob s j f).attn = s.attn := rfl
@[simp] theorem setJob_freeCtr {s : State} {j : Nat} {f : JobSt → JobSt} : (setJob s j f).freeCtr = s.freeCtr := rfl
@[simp] theorem setJob_stretchQ {s : State} {j : Nat} {f : JobSt → JobSt} : (setJob s j f).stretchQ = s.stretchQ := rfl
@[simp] theorem setJob_grade {s : State} {j : Nat} {f : JobSt → JobSt} : (setJob s j f).grade = s.grade := rfl
@[simp] theorem setJob_fab {s : State} {j : Nat} {f : JobSt → JobSt} : (setJob s j f).fab = s.fab := rfl
@[simp] theorem setJob_integ {s : State} {j : Nat} {f : JobSt → JobSt} : (setJob s j f).integ = s.integ := rfl
@[simp] theorem setJob_pwr {s : State} {j : Nat} {f : JobSt → JobSt} : (setJob s j f).pwr = s.pwr := rfl
@[simp] theorem setJob_mgt {s : State} {j : Nat} {f : JobSt → JobSt} : (setJob s j f).mgt = s.mgt := rfl
@[simp] theorem setJob_dbg {s : State} {j : Nat} {f : JobSt → JobSt} : (setJob s j f).dbg = s.dbg := rfl
@[simp] theorem setJob_snap {s : State} {j : Nat} {f : JobSt → JobSt} : (setJob s j f).snap = s.snap := rfl
@[simp] theorem setJob_pins {s : State} {j : Nat} {f : JobSt → JobSt} : (setJob s j f).pins = s.pins := rfl
@[simp] theorem setJob_coll_colls {s : State} {j : Nat} {f : JobSt → JobSt} : (setJob s j f).coll.colls = s.coll.colls := rfl
@[simp] theorem setJob_coll_shards {s : State} {j : Nat} {f : JobSt → JobSt} : (setJob s j f).coll.shards = s.coll.shards := rfl
@[simp] theorem setJob_coll_abortLast {s : State} {j : Nat} {f : JobSt → JobSt} : (setJob s j f).coll.abortLast = s.coll.abortLast := rfl
@[simp] theorem setJob_coll_lag {s : State} {j : Nat} {f : JobSt → JobSt} : (setJob s j f).coll.lag = s.coll.lag := rfl
@[simp] theorem setJob_coll_lagWorst {s : State} {j : Nat} {f : JobSt → JobSt} : (setJob s j f).coll.lagWorst = s.coll.lagWorst := rfl
@[simp] theorem setJob_coll_lagFull {s : State} {j : Nat} {f : JobSt → JobSt} : (setJob s j f).coll.lagFull = s.coll.lagFull := rfl
@[simp] theorem setJob_coll_moeDrops {s : State} {j : Nat} {f : JobSt → JobSt} : (setJob s j f).coll.moeDrops = s.coll.moeDrops := rfl
@[simp] theorem setJob_coll_moeInvalid {s : State} {j : Nat} {f : JobSt → JobSt} : (setJob s j f).coll.moeInvalid = s.coll.moeInvalid := rfl
@[simp] theorem setJob_coll_engLast {s : State} {j : Nat} {f : JobSt → JobSt} : (setJob s j f).coll.engLast = s.coll.engLast := rfl

/-! ### setShard -/

@[simp] theorem setShard_pending {s : State} {j i : Nat} {f : Shard → Shard} : (setShard s j i f).pending = s.pending := rfl
@[simp] theorem setShard_now {s : State} {j i : Nat} {f : Shard → Shard} : (setShard s j i f).now = s.now := rfl
@[simp] theorem setShard_fabricTime {s : State} {j i : Nat} {f : Shard → Shard} : (setShard s j i f).fabricTime = s.fabricTime := rfl
@[simp] theorem setShard_comp {s : State} {j i : Nat} {f : Shard → Shard} : (setShard s j i f).comp = s.comp := rfl
@[simp] theorem setShard_tops {s : State} {j i : Nat} {f : Shard → Shard} : (setShard s j i f).tops = s.tops := rfl
@[simp] theorem setShard_rings {s : State} {j i : Nat} {f : Shard → Shard} : (setShard s j i f).rings = s.rings := rfl
@[simp] theorem setShard_attn {s : State} {j i : Nat} {f : Shard → Shard} : (setShard s j i f).attn = s.attn := rfl
@[simp] theorem setShard_freeCtr {s : State} {j i : Nat} {f : Shard → Shard} : (setShard s j i f).freeCtr = s.freeCtr := rfl
@[simp] theorem setShard_stretchQ {s : State} {j i : Nat} {f : Shard → Shard} : (setShard s j i f).stretchQ = s.stretchQ := rfl
@[simp] theorem setShard_grade {s : State} {j i : Nat} {f : Shard → Shard} : (setShard s j i f).grade = s.grade := rfl
@[simp] theorem setShard_fab {s : State} {j i : Nat} {f : Shard → Shard} : (setShard s j i f).fab = s.fab := rfl
@[simp] theorem setShard_integ {s : State} {j i : Nat} {f : Shard → Shard} : (setShard s j i f).integ = s.integ := rfl
@[simp] theorem setShard_pwr {s : State} {j i : Nat} {f : Shard → Shard} : (setShard s j i f).pwr = s.pwr := rfl
@[simp] theorem setShard_mgt {s : State} {j i : Nat} {f : Shard → Shard} : (setShard s j i f).mgt = s.mgt := rfl
@[simp] theorem setShard_dbg {s : State} {j i : Nat} {f : Shard → Shard} : (setShard s j i f).dbg = s.dbg := rfl
@[simp] theorem setShard_snap {s : State} {j i : Nat} {f : Shard → Shard} : (setShard s j i f).snap = s.snap := rfl
@[simp] theorem setShard_pins {s : State} {j i : Nat} {f : Shard → Shard} : (setShard s j i f).pins = s.pins := rfl
@[simp] theorem setShard_coll_colls {s : State} {j i : Nat} {f : Shard → Shard} : (setShard s j i f).coll.colls = s.coll.colls := rfl
@[simp] theorem setShard_coll_jobs {s : State} {j i : Nat} {f : Shard → Shard} : (setShard s j i f).coll.jobs = s.coll.jobs := rfl
@[simp] theorem setShard_coll_abortLast {s : State} {j i : Nat} {f : Shard → Shard} : (setShard s j i f).coll.abortLast = s.coll.abortLast := rfl
@[simp] theorem setShard_coll_lag {s : State} {j i : Nat} {f : Shard → Shard} : (setShard s j i f).coll.lag = s.coll.lag := rfl
@[simp] theorem setShard_coll_lagWorst {s : State} {j i : Nat} {f : Shard → Shard} : (setShard s j i f).coll.lagWorst = s.coll.lagWorst := rfl
@[simp] theorem setShard_coll_lagFull {s : State} {j i : Nat} {f : Shard → Shard} : (setShard s j i f).coll.lagFull = s.coll.lagFull := rfl
@[simp] theorem setShard_coll_moeDrops {s : State} {j i : Nat} {f : Shard → Shard} : (setShard s j i f).coll.moeDrops = s.coll.moeDrops := rfl
@[simp] theorem setShard_coll_moeInvalid {s : State} {j i : Nat} {f : Shard → Shard} : (setShard s j i f).coll.moeInvalid = s.coll.moeInvalid := rfl
@[simp] theorem setShard_coll_engLast {s : State} {j i : Nat} {f : Shard → Shard} : (setShard s j i f).coll.engLast = s.coll.engLast := rfl

/-! ### icnt -/

@[simp] theorem icnt_pending {s : State} {k n : Nat} : (icnt s k n).pending = s.pending := rfl
@[simp] theorem icnt_now {s : State} {k n : Nat} : (icnt s k n).now = s.now := rfl
@[simp] theorem icnt_fabricTime {s : State} {k n : Nat} : (icnt s k n).fabricTime = s.fabricTime := rfl
@[simp] theorem icnt_comp {s : State} {k n : Nat} : (icnt s k n).comp = s.comp := rfl
@[simp] theorem icnt_tops {s : State} {k n : Nat} : (icnt s k n).tops = s.tops := rfl
@[simp] theorem icnt_rings {s : State} {k n : Nat} : (icnt s k n).rings = s.rings := rfl
@[simp] theorem icnt_attn {s : State} {k n : Nat} : (icnt s k n).attn = s.attn := rfl
@[simp] theorem icnt_freeCtr {s : State} {k n : Nat} : (icnt s k n).freeCtr = s.freeCtr := rfl
@[simp] theorem icnt_stretchQ {s : State} {k n : Nat} : (icnt s k n).stretchQ = s.stretchQ := rfl
@[simp] theorem icnt_grade {s : State} {k n : Nat} : (icnt s k n).grade = s.grade := rfl
@[simp] theorem icnt_fab {s : State} {k n : Nat} : (icnt s k n).fab = s.fab := rfl
@[simp] theorem icnt_coll {s : State} {k n : Nat} : (icnt s k n).coll = s.coll := rfl
@[simp] theorem icnt_pwr {s : State} {k n : Nat} : (icnt s k n).pwr = s.pwr := rfl
@[simp] theorem icnt_mgt {s : State} {k n : Nat} : (icnt s k n).mgt = s.mgt := rfl
@[simp] theorem icnt_dbg {s : State} {k n : Nat} : (icnt s k n).dbg = s.dbg := rfl
@[simp] theorem icnt_snap {s : State} {k n : Nat} : (icnt s k n).snap = s.snap := rfl
@[simp] theorem icnt_pins {s : State} {k n : Nat} : (icnt s k n).pins = s.pins := rfl
@[simp] theorem icnt_integ_residue {s : State} {k n : Nat} : (icnt s k n).integ.residue = s.integ.residue := rfl
@[simp] theorem icnt_integ_dup {s : State} {k n : Nat} : (icnt s k n).integ.dup = s.integ.dup := rfl
@[simp] theorem icnt_integ_shortWaitUs {s : State} {k n : Nat} : (icnt s k n).integ.shortWaitUs = s.integ.shortWaitUs := rfl
@[simp] theorem icnt_integ_errlog {s : State} {k n : Nat} : (icnt s k n).integ.errlog = s.integ.errlog := rfl
@[simp] theorem icnt_integ_errCount {s : State} {k n : Nat} : (icnt s k n).integ.errCount = s.integ.errCount := rfl
@[simp] theorem icnt_integ_quar {s : State} {k n : Nat} : (icnt s k n).integ.quar = s.integ.quar := rfl
@[simp] theorem icnt_integ_quarFuse {s : State} {k n : Nat} : (icnt s k n).integ.quarFuse = s.integ.quarFuse := rfl
@[simp] theorem icnt_integ_spares {s : State} {k n : Nat} : (icnt s k n).integ.spares = s.integ.spares := rfl
@[simp] theorem icnt_integ_remaps {s : State} {k n : Nat} : (icnt s k n).integ.remaps = s.integ.remaps := rfl
@[simp] theorem icnt_integ_remapPending {s : State} {k n : Nat} : (icnt s k n).integ.remapPending = s.integ.remapPending := rfl
@[simp] theorem icnt_integ_remapReady {s : State} {k n : Nat} : (icnt s k n).integ.remapReady = s.integ.remapReady := rfl
@[simp] theorem icnt_integ_tiles {s : State} {k n : Nat} : (icnt s k n).integ.tiles = s.integ.tiles := rfl
@[simp] theorem icnt_integ_sampleCnt {s : State} {k n : Nat} : (icnt s k n).integ.sampleCnt = s.integ.sampleCnt := rfl
@[simp] theorem icnt_integ_dups {s : State} {k n : Nat} : (icnt s k n).integ.dups = s.integ.dups := rfl
@[simp] theorem icnt_integ_sparesBit {s : State} {k n : Nat} : (icnt s k n).integ.sparesBit = s.integ.sparesBit := rfl
@[simp] theorem icnt_integ_sparesDie {s : State} {k n : Nat} : (icnt s k n).integ.sparesDie = s.integ.sparesDie := rfl
@[simp] theorem icnt_integ_degraded {s : State} {k n : Nat} : (icnt s k n).integ.degraded = s.integ.degraded := rfl
@[simp] theorem icnt_integ_undecided {s : State} {k n : Nat} : (icnt s k n).integ.undecided = s.integ.undecided := rfl
@[simp] theorem icnt_integ_expelled {s : State} {k n : Nat} : (icnt s k n).integ.expelled = s.integ.expelled := rfl

/-! ### setInteg -/

@[simp] theorem setInteg_pending {s : State} {f : Integ → Integ} : (setInteg s f).pending = s.pending := rfl
@[simp] theorem setInteg_now {s : State} {f : Integ → Integ} : (setInteg s f).now = s.now := rfl
@[simp] theorem setInteg_fabricTime {s : State} {f : Integ → Integ} : (setInteg s f).fabricTime = s.fabricTime := rfl
@[simp] theorem setInteg_comp {s : State} {f : Integ → Integ} : (setInteg s f).comp = s.comp := rfl
@[simp] theorem setInteg_tops {s : State} {f : Integ → Integ} : (setInteg s f).tops = s.tops := rfl
@[simp] theorem setInteg_rings {s : State} {f : Integ → Integ} : (setInteg s f).rings = s.rings := rfl
@[simp] theorem setInteg_attn {s : State} {f : Integ → Integ} : (setInteg s f).attn = s.attn := rfl
@[simp] theorem setInteg_freeCtr {s : State} {f : Integ → Integ} : (setInteg s f).freeCtr = s.freeCtr := rfl
@[simp] theorem setInteg_stretchQ {s : State} {f : Integ → Integ} : (setInteg s f).stretchQ = s.stretchQ := rfl
@[simp] theorem setInteg_grade {s : State} {f : Integ → Integ} : (setInteg s f).grade = s.grade := rfl
@[simp] theorem setInteg_fab {s : State} {f : Integ → Integ} : (setInteg s f).fab = s.fab := rfl
@[simp] theorem setInteg_coll {s : State} {f : Integ → Integ} : (setInteg s f).coll = s.coll := rfl
@[simp] theorem setInteg_pwr {s : State} {f : Integ → Integ} : (setInteg s f).pwr = s.pwr := rfl
@[simp] theorem setInteg_mgt {s : State} {f : Integ → Integ} : (setInteg s f).mgt = s.mgt := rfl
@[simp] theorem setInteg_dbg {s : State} {f : Integ → Integ} : (setInteg s f).dbg = s.dbg := rfl
@[simp] theorem setInteg_snap {s : State} {f : Integ → Integ} : (setInteg s f).snap = s.snap := rfl
@[simp] theorem setInteg_pins {s : State} {f : Integ → Integ} : (setInteg s f).pins = s.pins := rfl

/-! ### setPwr -/

@[simp] theorem setPwr_pending {s : State} {f : Pwr → Pwr} : (setPwr s f).pending = s.pending := rfl
@[simp] theorem setPwr_now {s : State} {f : Pwr → Pwr} : (setPwr s f).now = s.now := rfl
@[simp] theorem setPwr_fabricTime {s : State} {f : Pwr → Pwr} : (setPwr s f).fabricTime = s.fabricTime := rfl
@[simp] theorem setPwr_comp {s : State} {f : Pwr → Pwr} : (setPwr s f).comp = s.comp := rfl
@[simp] theorem setPwr_tops {s : State} {f : Pwr → Pwr} : (setPwr s f).tops = s.tops := rfl
@[simp] theorem setPwr_rings {s : State} {f : Pwr → Pwr} : (setPwr s f).rings = s.rings := rfl
@[simp] theorem setPwr_attn {s : State} {f : Pwr → Pwr} : (setPwr s f).attn = s.attn := rfl
@[simp] theorem setPwr_freeCtr {s : State} {f : Pwr → Pwr} : (setPwr s f).freeCtr = s.freeCtr := rfl
@[simp] theorem setPwr_stretchQ {s : State} {f : Pwr → Pwr} : (setPwr s f).stretchQ = s.stretchQ := rfl
@[simp] theorem setPwr_grade {s : State} {f : Pwr → Pwr} : (setPwr s f).grade = s.grade := rfl
@[simp] theorem setPwr_fab {s : State} {f : Pwr → Pwr} : (setPwr s f).fab = s.fab := rfl
@[simp] theorem setPwr_coll {s : State} {f : Pwr → Pwr} : (setPwr s f).coll = s.coll := rfl
@[simp] theorem setPwr_integ {s : State} {f : Pwr → Pwr} : (setPwr s f).integ = s.integ := rfl
@[simp] theorem setPwr_mgt {s : State} {f : Pwr → Pwr} : (setPwr s f).mgt = s.mgt := rfl
@[simp] theorem setPwr_dbg {s : State} {f : Pwr → Pwr} : (setPwr s f).dbg = s.dbg := rfl
@[simp] theorem setPwr_snap {s : State} {f : Pwr → Pwr} : (setPwr s f).snap = s.snap := rfl
@[simp] theorem setPwr_pins {s : State} {f : Pwr → Pwr} : (setPwr s f).pins = s.pins := rfl

/-! ### setRail -/

@[simp] theorem setRail_pending {s : State} {r : Nat} {f : Rail → Rail} : (setRail s r f).pending = s.pending := rfl
@[simp] theorem setRail_now {s : State} {r : Nat} {f : Rail → Rail} : (setRail s r f).now = s.now := rfl
@[simp] theorem setRail_fabricTime {s : State} {r : Nat} {f : Rail → Rail} : (setRail s r f).fabricTime = s.fabricTime := rfl
@[simp] theorem setRail_comp {s : State} {r : Nat} {f : Rail → Rail} : (setRail s r f).comp = s.comp := rfl
@[simp] theorem setRail_tops {s : State} {r : Nat} {f : Rail → Rail} : (setRail s r f).tops = s.tops := rfl
@[simp] theorem setRail_rings {s : State} {r : Nat} {f : Rail → Rail} : (setRail s r f).rings = s.rings := rfl
@[simp] theorem setRail_attn {s : State} {r : Nat} {f : Rail → Rail} : (setRail s r f).attn = s.attn := rfl
@[simp] theorem setRail_freeCtr {s : State} {r : Nat} {f : Rail → Rail} : (setRail s r f).freeCtr = s.freeCtr := rfl
@[simp] theorem setRail_stretchQ {s : State} {r : Nat} {f : Rail → Rail} : (setRail s r f).stretchQ = s.stretchQ := rfl
@[simp] theorem setRail_grade {s : State} {r : Nat} {f : Rail → Rail} : (setRail s r f).grade = s.grade := rfl
@[simp] theorem setRail_fab {s : State} {r : Nat} {f : Rail → Rail} : (setRail s r f).fab = s.fab := rfl
@[simp] theorem setRail_coll {s : State} {r : Nat} {f : Rail → Rail} : (setRail s r f).coll = s.coll := rfl
@[simp] theorem setRail_integ {s : State} {r : Nat} {f : Rail → Rail} : (setRail s r f).integ = s.integ := rfl
@[simp] theorem setRail_mgt {s : State} {r : Nat} {f : Rail → Rail} : (setRail s r f).mgt = s.mgt := rfl
@[simp] theorem setRail_dbg {s : State} {r : Nat} {f : Rail → Rail} : (setRail s r f).dbg = s.dbg := rfl
@[simp] theorem setRail_snap {s : State} {r : Nat} {f : Rail → Rail} : (setRail s r f).snap = s.snap := rfl
@[simp] theorem setRail_pins {s : State} {r : Nat} {f : Rail → Rail} : (setRail s r f).pins = s.pins := rfl
@[simp] theorem setRail_pwr_feedV10 {s : State} {r : Nat} {f : Rail → Rail} : (setRail s r f).pwr.feedV10 = s.pwr.feedV10 := rfl
@[simp] theorem setRail_pwr_feeds {s : State} {r : Nat} {f : Rail → Rail} : (setRail s r f).pwr.feeds = s.pwr.feeds := rfl
@[simp] theorem setRail_pwr_active {s : State} {r : Nat} {f : Rail → Rail} : (setRail s r f).pwr.active = s.pwr.active := rfl
@[simp] theorem setRail_pwr_pInW {s : State} {r : Nat} {f : Rail → Rail} : (setRail s r f).pwr.pInW = s.pwr.pInW := rfl
@[simp] theorem setRail_pwr_switchovers {s : State} {r : Nat} {f : Rail → Rail} : (setRail s r f).pwr.switchovers = s.pwr.switchovers := rfl
@[simp] theorem setRail_pwr_capW {s : State} {r : Nat} {f : Rail → Rail} : (setRail s r f).pwr.capW = s.pwr.capW := rfl
@[simp] theorem setRail_pwr_windowUs {s : State} {r : Nat} {f : Rail → Rail} : (setRail s r f).pwr.windowUs = s.pwr.windowUs := rfl
@[simp] theorem setRail_pwr_vcompMax {s : State} {r : Nat} {f : Rail → Rail} : (setRail s r f).pwr.vcompMax = s.pwr.vcompMax := rfl
@[simp] theorem setRail_pwr_dies {s : State} {r : Nat} {f : Rail → Rail} : (setRail s r f).pwr.dies = s.pwr.dies := rfl
@[simp] theorem setRail_pwr_inletC {s : State} {r : Nat} {f : Rail → Rail} : (setRail s r f).pwr.inletC = s.pwr.inletC := rfl
@[simp] theorem setRail_pwr_outletC {s : State} {r : Nat} {f : Rail → Rail} : (setRail s r f).pwr.outletC = s.pwr.outletC := rfl
@[simp] theorem setRail_pwr_flowCl {s : State} {r : Nat} {f : Rail → Rail} : (setRail s r f).pwr.flowCl = s.pwr.flowCl := rfl
@[simp] theorem setRail_pwr_inletHigh {s : State} {r : Nat} {f : Rail → Rail} : (setRail s r f).pwr.inletHigh = s.pwr.inletHigh := rfl
@[simp] theorem setRail_pwr_flowLow {s : State} {r : Nat} {f : Rail → Rail} : (setRail s r f).pwr.flowLow = s.pwr.flowLow := rfl
@[simp] theorem setRail_pwr_capReduced {s : State} {r : Nat} {f : Rail → Rail} : (setRail s r f).pwr.capReduced = s.pwr.capReduced := rfl
@[simp] theorem setRail_pwr_flowSince {s : State} {r : Nat} {f : Rail → Rail} : (setRail s r f).pwr.flowSince = s.pwr.flowSince := rfl
@[simp] theorem setRail_pwr_learn {s : State} {r : Nat} {f : Rail → Rail} : (setRail s r f).pwr.learn = s.pwr.learn := rfl
@[simp] theorem setRail_pwr_phase {s : State} {r : Nat} {f : Rail → Rail} : (setRail s r f).pwr.phase = s.pwr.phase := rfl
@[simp] theorem setRail_pwr_ejob {s : State} {r : Nat} {f : Rail → Rail} : (setRail s r f).pwr.ejob = s.pwr.ejob := rfl
@[simp] theorem setRail_pwr_equeue {s : State} {r : Nat} {f : Rail → Rail} : (setRail s r f).pwr.equeue = s.pwr.equeue := rfl
@[simp] theorem setRail_pwr_eother {s : State} {r : Nat} {f : Rail → Rail} : (setRail s r f).pwr.eother = s.pwr.eother := rfl
@[simp] theorem setRail_pwr_levels {s : State} {r : Nat} {f : Rail → Rail} : (setRail s r f).pwr.levels = s.pwr.levels := rfl
@[simp] theorem setRail_pwr_hbmGate {s : State} {r : Nat} {f : Rail → Rail} : (setRail s r f).pwr.hbmGate = s.pwr.hbmGate := rfl
@[simp] theorem setRail_pwr_windowAt {s : State} {r : Nat} {f : Rail → Rail} : (setRail s r f).pwr.windowAt = s.pwr.windowAt := rfl

/-! ### setDiePwr -/

@[simp] theorem setDiePwr_pending {s : State} {d : Nat} {f : DiePwr → DiePwr} : (setDiePwr s d f).pending = s.pending := rfl
@[simp] theorem setDiePwr_now {s : State} {d : Nat} {f : DiePwr → DiePwr} : (setDiePwr s d f).now = s.now := rfl
@[simp] theorem setDiePwr_fabricTime {s : State} {d : Nat} {f : DiePwr → DiePwr} : (setDiePwr s d f).fabricTime = s.fabricTime := rfl
@[simp] theorem setDiePwr_comp {s : State} {d : Nat} {f : DiePwr → DiePwr} : (setDiePwr s d f).comp = s.comp := rfl
@[simp] theorem setDiePwr_tops {s : State} {d : Nat} {f : DiePwr → DiePwr} : (setDiePwr s d f).tops = s.tops := rfl
@[simp] theorem setDiePwr_rings {s : State} {d : Nat} {f : DiePwr → DiePwr} : (setDiePwr s d f).rings = s.rings := rfl
@[simp] theorem setDiePwr_attn {s : State} {d : Nat} {f : DiePwr → DiePwr} : (setDiePwr s d f).attn = s.attn := rfl
@[simp] theorem setDiePwr_freeCtr {s : State} {d : Nat} {f : DiePwr → DiePwr} : (setDiePwr s d f).freeCtr = s.freeCtr := rfl
@[simp] theorem setDiePwr_stretchQ {s : State} {d : Nat} {f : DiePwr → DiePwr} : (setDiePwr s d f).stretchQ = s.stretchQ := rfl
@[simp] theorem setDiePwr_grade {s : State} {d : Nat} {f : DiePwr → DiePwr} : (setDiePwr s d f).grade = s.grade := rfl
@[simp] theorem setDiePwr_fab {s : State} {d : Nat} {f : DiePwr → DiePwr} : (setDiePwr s d f).fab = s.fab := rfl
@[simp] theorem setDiePwr_coll {s : State} {d : Nat} {f : DiePwr → DiePwr} : (setDiePwr s d f).coll = s.coll := rfl
@[simp] theorem setDiePwr_integ {s : State} {d : Nat} {f : DiePwr → DiePwr} : (setDiePwr s d f).integ = s.integ := rfl
@[simp] theorem setDiePwr_mgt {s : State} {d : Nat} {f : DiePwr → DiePwr} : (setDiePwr s d f).mgt = s.mgt := rfl
@[simp] theorem setDiePwr_dbg {s : State} {d : Nat} {f : DiePwr → DiePwr} : (setDiePwr s d f).dbg = s.dbg := rfl
@[simp] theorem setDiePwr_snap {s : State} {d : Nat} {f : DiePwr → DiePwr} : (setDiePwr s d f).snap = s.snap := rfl
@[simp] theorem setDiePwr_pins {s : State} {d : Nat} {f : DiePwr → DiePwr} : (setDiePwr s d f).pins = s.pins := rfl
@[simp] theorem setDiePwr_pwr_feedV10 {s : State} {d : Nat} {f : DiePwr → DiePwr} : (setDiePwr s d f).pwr.feedV10 = s.pwr.feedV10 := rfl
@[simp] theorem setDiePwr_pwr_feeds {s : State} {d : Nat} {f : DiePwr → DiePwr} : (setDiePwr s d f).pwr.feeds = s.pwr.feeds := rfl
@[simp] theorem setDiePwr_pwr_active {s : State} {d : Nat} {f : DiePwr → DiePwr} : (setDiePwr s d f).pwr.active = s.pwr.active := rfl
@[simp] theorem setDiePwr_pwr_pInW {s : State} {d : Nat} {f : DiePwr → DiePwr} : (setDiePwr s d f).pwr.pInW = s.pwr.pInW := rfl
@[simp] theorem setDiePwr_pwr_switchovers {s : State} {d : Nat} {f : DiePwr → DiePwr} : (setDiePwr s d f).pwr.switchovers = s.pwr.switchovers := rfl
@[simp] theorem setDiePwr_pwr_capW {s : State} {d : Nat} {f : DiePwr → DiePwr} : (setDiePwr s d f).pwr.capW = s.pwr.capW := rfl
@[simp] theorem setDiePwr_pwr_windowUs {s : State} {d : Nat} {f : DiePwr → DiePwr} : (setDiePwr s d f).pwr.windowUs = s.pwr.windowUs := rfl
@[simp] theorem setDiePwr_pwr_vcompMax {s : State} {d : Nat} {f : DiePwr → DiePwr} : (setDiePwr s d f).pwr.vcompMax = s.pwr.vcompMax := rfl
@[simp] theorem setDiePwr_pwr_rails {s : State} {d : Nat} {f : DiePwr → DiePwr} : (setDiePwr s d f).pwr.rails = s.pwr.rails := rfl
@[simp] theorem setDiePwr_pwr_inletC {s : State} {d : Nat} {f : DiePwr → DiePwr} : (setDiePwr s d f).pwr.inletC = s.pwr.inletC := rfl
@[simp] theorem setDiePwr_pwr_outletC {s : State} {d : Nat} {f : DiePwr → DiePwr} : (setDiePwr s d f).pwr.outletC = s.pwr.outletC := rfl
@[simp] theorem setDiePwr_pwr_flowCl {s : State} {d : Nat} {f : DiePwr → DiePwr} : (setDiePwr s d f).pwr.flowCl = s.pwr.flowCl := rfl
@[simp] theorem setDiePwr_pwr_inletHigh {s : State} {d : Nat} {f : DiePwr → DiePwr} : (setDiePwr s d f).pwr.inletHigh = s.pwr.inletHigh := rfl
@[simp] theorem setDiePwr_pwr_flowLow {s : State} {d : Nat} {f : DiePwr → DiePwr} : (setDiePwr s d f).pwr.flowLow = s.pwr.flowLow := rfl
@[simp] theorem setDiePwr_pwr_capReduced {s : State} {d : Nat} {f : DiePwr → DiePwr} : (setDiePwr s d f).pwr.capReduced = s.pwr.capReduced := rfl
@[simp] theorem setDiePwr_pwr_flowSince {s : State} {d : Nat} {f : DiePwr → DiePwr} : (setDiePwr s d f).pwr.flowSince = s.pwr.flowSince := rfl
@[simp] theorem setDiePwr_pwr_learn {s : State} {d : Nat} {f : DiePwr → DiePwr} : (setDiePwr s d f).pwr.learn = s.pwr.learn := rfl
@[simp] theorem setDiePwr_pwr_phase {s : State} {d : Nat} {f : DiePwr → DiePwr} : (setDiePwr s d f).pwr.phase = s.pwr.phase := rfl
@[simp] theorem setDiePwr_pwr_ejob {s : State} {d : Nat} {f : DiePwr → DiePwr} : (setDiePwr s d f).pwr.ejob = s.pwr.ejob := rfl
@[simp] theorem setDiePwr_pwr_equeue {s : State} {d : Nat} {f : DiePwr → DiePwr} : (setDiePwr s d f).pwr.equeue = s.pwr.equeue := rfl
@[simp] theorem setDiePwr_pwr_eother {s : State} {d : Nat} {f : DiePwr → DiePwr} : (setDiePwr s d f).pwr.eother = s.pwr.eother := rfl
@[simp] theorem setDiePwr_pwr_levels {s : State} {d : Nat} {f : DiePwr → DiePwr} : (setDiePwr s d f).pwr.levels = s.pwr.levels := rfl
@[simp] theorem setDiePwr_pwr_hbmGate {s : State} {d : Nat} {f : DiePwr → DiePwr} : (setDiePwr s d f).pwr.hbmGate = s.pwr.hbmGate := rfl
@[simp] theorem setDiePwr_pwr_windowAt {s : State} {d : Nat} {f : DiePwr → DiePwr} : (setDiePwr s d f).pwr.windowAt = s.pwr.windowAt := rfl

/-! ### setMgt -/

@[simp] theorem setMgt_pending {s : State} {f : Mgt → Mgt} : (setMgt s f).pending = s.pending := rfl
@[simp] theorem setMgt_now {s : State} {f : Mgt → Mgt} : (setMgt s f).now = s.now := rfl
@[simp] theorem setMgt_fabricTime {s : State} {f : Mgt → Mgt} : (setMgt s f).fabricTime = s.fabricTime := rfl
@[simp] theorem setMgt_comp {s : State} {f : Mgt → Mgt} : (setMgt s f).comp = s.comp := rfl
@[simp] theorem setMgt_tops {s : State} {f : Mgt → Mgt} : (setMgt s f).tops = s.tops := rfl
@[simp] theorem setMgt_rings {s : State} {f : Mgt → Mgt} : (setMgt s f).rings = s.rings := rfl
@[simp] theorem setMgt_attn {s : State} {f : Mgt → Mgt} : (setMgt s f).attn = s.attn := rfl
@[simp] theorem setMgt_freeCtr {s : State} {f : Mgt → Mgt} : (setMgt s f).freeCtr = s.freeCtr := rfl
@[simp] theorem setMgt_stretchQ {s : State} {f : Mgt → Mgt} : (setMgt s f).stretchQ = s.stretchQ := rfl
@[simp] theorem setMgt_grade {s : State} {f : Mgt → Mgt} : (setMgt s f).grade = s.grade := rfl
@[simp] theorem setMgt_fab {s : State} {f : Mgt → Mgt} : (setMgt s f).fab = s.fab := rfl
@[simp] theorem setMgt_coll {s : State} {f : Mgt → Mgt} : (setMgt s f).coll = s.coll := rfl
@[simp] theorem setMgt_integ {s : State} {f : Mgt → Mgt} : (setMgt s f).integ = s.integ := rfl
@[simp] theorem setMgt_pwr {s : State} {f : Mgt → Mgt} : (setMgt s f).pwr = s.pwr := rfl
@[simp] theorem setMgt_dbg {s : State} {f : Mgt → Mgt} : (setMgt s f).dbg = s.dbg := rfl
@[simp] theorem setMgt_snap {s : State} {f : Mgt → Mgt} : (setMgt s f).snap = s.snap := rfl
@[simp] theorem setMgt_pins {s : State} {f : Mgt → Mgt} : (setMgt s f).pins = s.pins := rfl

/-! ### setSess -/

@[simp] theorem setSess_pending {s : State} {k : Nat} {f : Session → Session} : (setSess s k f).pending = s.pending := rfl
@[simp] theorem setSess_now {s : State} {k : Nat} {f : Session → Session} : (setSess s k f).now = s.now := rfl
@[simp] theorem setSess_fabricTime {s : State} {k : Nat} {f : Session → Session} : (setSess s k f).fabricTime = s.fabricTime := rfl
@[simp] theorem setSess_comp {s : State} {k : Nat} {f : Session → Session} : (setSess s k f).comp = s.comp := rfl
@[simp] theorem setSess_tops {s : State} {k : Nat} {f : Session → Session} : (setSess s k f).tops = s.tops := rfl
@[simp] theorem setSess_rings {s : State} {k : Nat} {f : Session → Session} : (setSess s k f).rings = s.rings := rfl
@[simp] theorem setSess_attn {s : State} {k : Nat} {f : Session → Session} : (setSess s k f).attn = s.attn := rfl
@[simp] theorem setSess_freeCtr {s : State} {k : Nat} {f : Session → Session} : (setSess s k f).freeCtr = s.freeCtr := rfl
@[simp] theorem setSess_stretchQ {s : State} {k : Nat} {f : Session → Session} : (setSess s k f).stretchQ = s.stretchQ := rfl
@[simp] theorem setSess_grade {s : State} {k : Nat} {f : Session → Session} : (setSess s k f).grade = s.grade := rfl
@[simp] theorem setSess_fab {s : State} {k : Nat} {f : Session → Session} : (setSess s k f).fab = s.fab := rfl
@[simp] theorem setSess_coll {s : State} {k : Nat} {f : Session → Session} : (setSess s k f).coll = s.coll := rfl
@[simp] theorem setSess_integ {s : State} {k : Nat} {f : Session → Session} : (setSess s k f).integ = s.integ := rfl
@[simp] theorem setSess_pwr {s : State} {k : Nat} {f : Session → Session} : (setSess s k f).pwr = s.pwr := rfl
@[simp] theorem setSess_dbg {s : State} {k : Nat} {f : Session → Session} : (setSess s k f).dbg = s.dbg := rfl
@[simp] theorem setSess_snap {s : State} {k : Nat} {f : Session → Session} : (setSess s k f).snap = s.snap := rfl
@[simp] theorem setSess_pins {s : State} {k : Nat} {f : Session → Session} : (setSess s k f).pins = s.pins := rfl

/-! ### setAttn -/

@[simp] theorem setAttn_pending {s : State} {b : BitVec 16} : (setAttn s b).pending = s.pending := rfl
@[simp] theorem setAttn_now {s : State} {b : BitVec 16} : (setAttn s b).now = s.now := rfl
@[simp] theorem setAttn_fabricTime {s : State} {b : BitVec 16} : (setAttn s b).fabricTime = s.fabricTime := rfl
@[simp] theorem setAttn_comp {s : State} {b : BitVec 16} : (setAttn s b).comp = s.comp := rfl
@[simp] theorem setAttn_tops {s : State} {b : BitVec 16} : (setAttn s b).tops = s.tops := rfl
@[simp] theorem setAttn_rings {s : State} {b : BitVec 16} : (setAttn s b).rings = s.rings := rfl
@[simp] theorem setAttn_freeCtr {s : State} {b : BitVec 16} : (setAttn s b).freeCtr = s.freeCtr := rfl
@[simp] theorem setAttn_stretchQ {s : State} {b : BitVec 16} : (setAttn s b).stretchQ = s.stretchQ := rfl
@[simp] theorem setAttn_grade {s : State} {b : BitVec 16} : (setAttn s b).grade = s.grade := rfl
@[simp] theorem setAttn_fab {s : State} {b : BitVec 16} : (setAttn s b).fab = s.fab := rfl
@[simp] theorem setAttn_coll {s : State} {b : BitVec 16} : (setAttn s b).coll = s.coll := rfl
@[simp] theorem setAttn_integ {s : State} {b : BitVec 16} : (setAttn s b).integ = s.integ := rfl
@[simp] theorem setAttn_pwr {s : State} {b : BitVec 16} : (setAttn s b).pwr = s.pwr := rfl
@[simp] theorem setAttn_mgt {s : State} {b : BitVec 16} : (setAttn s b).mgt = s.mgt := rfl
@[simp] theorem setAttn_dbg {s : State} {b : BitVec 16} : (setAttn s b).dbg = s.dbg := rfl
@[simp] theorem setAttn_snap {s : State} {b : BitVec 16} : (setAttn s b).snap = s.snap := rfl
@[simp] theorem setAttn_pins {s : State} {b : BitVec 16} : (setAttn s b).pins = s.pins := rfl

/-! ### ringLog -/

@[simp] theorem ringLog_pending {s : State} {r c : Nat} {ds : List Nat} : (ringLog s r c ds).pending = s.pending := rfl
@[simp] theorem ringLog_now {s : State} {r c : Nat} {ds : List Nat} : (ringLog s r c ds).now = s.now := rfl
@[simp] theorem ringLog_fabricTime {s : State} {r c : Nat} {ds : List Nat} : (ringLog s r c ds).fabricTime = s.fabricTime := rfl
@[simp] theorem ringLog_comp {s : State} {r c : Nat} {ds : List Nat} : (ringLog s r c ds).comp = s.comp := rfl
@[simp] theorem ringLog_tops {s : State} {r c : Nat} {ds : List Nat} : (ringLog s r c ds).tops = s.tops := rfl
@[simp] theorem ringLog_attn {s : State} {r c : Nat} {ds : List Nat} : (ringLog s r c ds).attn = s.attn := rfl
@[simp] theorem ringLog_freeCtr {s : State} {r c : Nat} {ds : List Nat} : (ringLog s r c ds).freeCtr = s.freeCtr := rfl
@[simp] theorem ringLog_stretchQ {s : State} {r c : Nat} {ds : List Nat} : (ringLog s r c ds).stretchQ = s.stretchQ := rfl
@[simp] theorem ringLog_grade {s : State} {r c : Nat} {ds : List Nat} : (ringLog s r c ds).grade = s.grade := rfl
@[simp] theorem ringLog_fab {s : State} {r c : Nat} {ds : List Nat} : (ringLog s r c ds).fab = s.fab := rfl
@[simp] theorem ringLog_coll {s : State} {r c : Nat} {ds : List Nat} : (ringLog s r c ds).coll = s.coll := rfl
@[simp] theorem ringLog_integ {s : State} {r c : Nat} {ds : List Nat} : (ringLog s r c ds).integ = s.integ := rfl
@[simp] theorem ringLog_pwr {s : State} {r c : Nat} {ds : List Nat} : (ringLog s r c ds).pwr = s.pwr := rfl
@[simp] theorem ringLog_mgt {s : State} {r c : Nat} {ds : List Nat} : (ringLog s r c ds).mgt = s.mgt := rfl
@[simp] theorem ringLog_dbg {s : State} {r c : Nat} {ds : List Nat} : (ringLog s r c ds).dbg = s.dbg := rfl
@[simp] theorem ringLog_snap {s : State} {r c : Nat} {ds : List Nat} : (ringLog s r c ds).snap = s.snap := rfl
@[simp] theorem ringLog_pins {s : State} {r c : Nat} {ds : List Nat} : (ringLog s r c ds).pins = s.pins := rfl

/-! ### What a read gives after an update -/

@[simp] theorem laneAt_setLane {s : State} {l j : Nat} {f : Lane → Lane} :
    laneAt (setLane s l f) j = if l = j then f (laneAt s l) else laneAt s j := lookupD_insertKey _ _ _ _ _

@[simp] theorem portAt_setPort {s : State} {p j : Nat} {f : Port → Port} :
    portAt (setPort s p f) j = if p = j then f (portAt s p) else portAt s j := lookupD_insertKey _ _ _ _ _

@[simp] theorem chanAt_setChan {s : State} {i j : Nat} {c : Channel} :
    chanAt (setChan s i c) j = if i = j then c else chanAt s j := lookupD_insertKey _ _ _ _ _

@[simp] theorem laneAt_setPort {s : State} {p j : Nat} {f : Port → Port} : laneAt (setPort s p f) j = laneAt s j := rfl
@[simp] theorem portAt_setLane {s : State} {l j : Nat} {f : Lane → Lane} : portAt (setLane s l f) j = portAt s j := rfl
@[simp] theorem laneAt_setBpm {s : State} {i j : Nat} {f : Bpm → Bpm} : laneAt (setBpm s i f) j = laneAt s j := rfl
@[simp] theorem portAt_setBpm {s : State} {i j : Nat} {f : Bpm → Bpm} : portAt (setBpm s i f) j = portAt s j := rfl
@[simp] theorem bpmAt_setLane {s : State} {l j : Nat} {f : Lane → Lane} : bpmAt (setLane s l f) j = bpmAt s j := rfl
@[simp] theorem bpmAt_setPort {s : State} {p j : Nat} {f : Port → Port} : bpmAt (setPort s p f) j = bpmAt s j := rfl
@[simp] theorem queueAt_setLane {s : State} {l q : Nat} {f : Lane → Lane} : queueAt (setLane s l f) q = queueAt s q := rfl
@[simp] theorem queueAt_setPort {s : State} {p q : Nat} {f : Port → Port} : queueAt (setPort s p f) q = queueAt s q := rfl
@[simp] theorem queueAt_setColl {s : State} {j e o q : Nat} {f : Coll → Coll} : queueAt (setColl s j e o f) q = queueAt s q := rfl
@[simp] theorem collAt_setLane {s : State} {l j e o : Nat} {f : Lane → Lane} : collAt (setLane s l f) j e o = collAt s j e o := rfl
@[simp] theorem collAt_setPort {s : State} {p j e o : Nat} {f : Port → Port} : collAt (setPort s p f) j e o = collAt s j e o := rfl
@[simp] theorem collAt_setJob {s : State} {k j e o : Nat} {f : JobSt → JobSt} : collAt (setJob s k f) j e o = collAt s j e o := rfl
@[simp] theorem jobAt_setColl {s : State} {j e o k : Nat} {f : Coll → Coll} : jobAt (setColl s j e o f) k = jobAt s k := rfl
@[simp] theorem sessAt_setLane {s : State} {l k : Nat} {f : Lane → Lane} : sessAt (setLane s l f) k = sessAt s k := rfl
@[simp] theorem jobFlag_setQueue {s : State} {q j g : Nat} {f : Queue → Queue} : jobFlag (setQueue s q f) j g = jobFlag s j g := rfl

/-- A BPM instance after one was changed. -/
theorem bpmAt_setBpm {s : State} {i j : Nat} {f : Bpm → Bpm} :
    bpmAt (setBpm s i f) j = if i = j ∧ j < s.fab.bpm.length then f (bpmAt s j) else bpmAt s j := by
  unfold bpmAt setBpm
  simp only [List.getD_eq_getElem?_getD, List.getElem?_modify]
  by_cases h : j < s.fab.bpm.length
  · by_cases e : i = j <;> simp [h, e]
  · simp [h]

/-- A rail after one was changed. -/
theorem railAt_setRail {s : State} {i j : Nat} {f : Rail → Rail} :
    railAt (setRail s i f) j = if i = j ∧ j < s.pwr.rails.length then f (railAt s j) else railAt s j := by
  unfold railAt setRail setPwr
  simp only [List.getD_eq_getElem?_getD, List.getElem?_modify]
  by_cases h : j < s.pwr.rails.length
  · by_cases e : i = j <;> simp [h, e]
  · simp [h]

/-- A die's power state after one was changed. -/
theorem diePwr_setDiePwr {s : State} {i j : Nat} {f : DiePwr → DiePwr} :
    diePwr (setDiePwr s i f) j = if i = j ∧ j < s.pwr.dies.length then f (diePwr s j) else diePwr s j := by
  unfold diePwr setDiePwr setPwr
  simp only [List.getD_eq_getElem?_getD, List.getElem?_modify]
  by_cases h : j < s.pwr.dies.length
  · by_cases e : i = j <;> simp [h, e]
  · simp [h]

/-- A session after one was changed. -/
theorem sessAt_setSess {s : State} {i j : Nat} {f : Session → Session} :
    sessAt (setSess s i f) j = if i = j ∧ j < s.mgt.sessions.length then f (sessAt s j) else sessAt s j := by
  unfold sessAt setSess setMgt
  simp only [List.getD_eq_getElem?_getD, List.getElem?_modify]
  by_cases h : j < s.mgt.sessions.length
  · by_cases e : i = j <;> simp [h, e]
  · simp [h]

/-- An ordinal's record after its own was changed by a function that keeps its key. -/
theorem collAt_setColl_self {s : State} {j e o : Nat} {f : Coll → Coll}
    (hf : (f (collAt s j e o)).isKey j e o = true) : collAt (setColl s j e o f) j e o = f (collAt s j e o) := by
  have key : ∀ (cs : List Coll) (c : Coll), c.isKey j e o = true → cs.any (fun x => x.isKey j e o) = true →
      (cs.map (fun x => if x.isKey j e o then c else x)).find? (fun x => x.isKey j e o) = some c := by
    intro cs c hc ha
    induction cs with
    | nil => simp at ha
    | cons x xs ih =>
      by_cases hx : x.isKey j e o = true
      · simp [hx, hc]
      · have hx' : x.isKey j e o = false := by simpa using hx
        simp only [List.any_cons, hx', Bool.false_or] at ha
        simp [hx', ih ha]
  have app : ∀ (cs : List Coll) (c : Coll), c.isKey j e o = true → cs.any (fun x => x.isKey j e o) = false →
      (cs ++ [c]).find? (fun x => x.isKey j e o) = some c := by
    intro cs c hc ha
    induction cs with
    | nil => simp [hc]
    | cons x xs ih =>
      simp only [List.any_cons, Bool.or_eq_false_iff] at ha
      simp [ha.1, ih ha.2]
  show ((setColl s j e o f).coll.colls.find? _).getD _ = _
  by_cases h : s.coll.colls.any (fun x => x.isKey j e o) = true
  · simp only [setColl, h, if_true, key _ _ hf h, Option.getD_some]
  · have h' : s.coll.colls.any (fun x => x.isKey j e o) = false := by simpa using h
    simp only [setColl, h', Bool.false_eq_true, if_false, app _ _ hf h', Option.getD_some]

/-- A job's record after its own was changed by a function that keeps its number. -/
theorem jobAt_setJob_self {s : State} {j : Nat} {f : JobSt → JobSt} (hf : (f (jobAt s j)).job = j) :
    jobAt (setJob s j f) j = f (jobAt s j) := by
  have app : ∀ (cs : List JobSt) (c : JobSt), c.job = j →
      (cs.filter (fun x => x.job != j) ++ [c]).find? (fun x => x.job == j) = some c := by
    intro cs c hc
    induction cs with
    | nil => simp [hc]
    | cons x xs ih => by_cases hx : x.job = j <;> simp [hx, ih]
  show ((setJob s j f).coll.jobs.find? _).getD _ = _
  simp only [setJob, app _ _ hf, Option.getD_some]

end Sys2Proof.Machine
end

