-- ==== Sys2Proof/Laws/Shared.lean ====
section
/-! SUPPORT. What a management request and a received unit do, one lemma per case: the rows of R539 and the checks of
R345, for the proofs to cite instead of unfolding the operations. -/

namespace Sys2Proof.Machine

/-! ### Management requests (R534 to R540) -/

section Requests

variable {after : State → State} {h : FmdReq} {op k tag : Nat} {ops : List Byte} {bad served free : Bool} {act : State → Answer} {s : State}

theorem request_unheard (hl : listens s = false) : requestThen after h op ops bad served free act s = s := by
  simp [requestThen, hl]

theorem request_plain (hl : listens s = true) (hs : h.slot = none) :
    requestThen after h op ops bad served free act s = sendReply s 8 h.tag op .auth [] := by
  simp [requestThen, hl, hs]

theorem request_discarded (hl : listens s = true) (hs : h.slot = some k)
    (hb : (sessAt s k).valid = false ∨ seqOk (sessAt s k) h.seq = false) :
    requestThen after h op ops bad served free act s = discardSecured s := by
  rcases hb with hb | hb <;> simp [requestThen, hl, hs, hb]

theorem request_accepted (hl : listens s = true) (hs : h.slot = some k) (hv : (sessAt s k).valid = true)
    (hq : seqOk (sessAt s k) h.seq = true) :
    requestThen after h op ops bad served free act s = runThen after k h.tag op ops bad served free act (noteMessage s k h) := by
  simp [requestThen, hl, hs, hv, hq]

/-- The entry of the session's cache that answers a repeated request (R540). -/
def cacheHit (s : State) (k tag op : Nat) (ops : List Byte) : Option CacheRec :=
  (sessAt s k).cache.find? (fun c => c.tag == tag && c.opcode == op && c.crc == crc32c ops)

theorem run_repeat {c : CacheRec} (hc : cacheHit s k tag op ops = some c) :
    runThen after k tag op ops bad served free act s = setMgt (bumpFmd s 3) (fun m => { m with replies :=
      { session := k, tag := tag, opcode := op, result := c.result, attn := attnByte (bumpFmd s 3), payload := c.payload }
        :: m.replies }) := by
  unfold cacheHit at hc
  simp [runThen, hc]

theorem run_format (hc : cacheHit s k tag op ops = none) (hb : tag = 0xFFFF ∨ bad = true) :
    runThen after k tag op ops bad served free act s = refuseReq s k tag op (crc32c ops) .format := by
  unfold cacheHit at hc
  have hb' : (tag == 0xFFFF || bad) = true := by simpa using hb
  simp only [runThen, hc, hb', if_true]

theorem run_state (hc : cacheHit s k tag op ops = none) (ht : tag ≠ 0xFFFF) :
    runThen after k tag op ops false false free act s = refuseReq s k tag op (crc32c ops) .state := by
  unfold cacheHit at hc
  simp [runThen, hc, ht]

theorem run_frozen (hc : cacheHit s k tag op ops = none) (ht : tag ≠ 0xFFFF) (hf : isFrozen s 0 (reqId 3 k 0) = true) :
    runThen after k tag op ops false true false act s = refuseReq s k tag op (crc32c ops) .frozen := by
  unfold cacheHit at hc
  simp [runThen, hc, ht, hf]

theorem run_busy (hc : cacheHit s k tag op ops = none) (ht : tag ≠ 0xFFFF)
    (hf : free = true ∨ isFrozen s 0 (reqId 3 k 0) = false) (hm : sessionCells s k (8 + ops.length) = none) :
    runThen after k tag op ops false true free act s = refuseReq s k tag op (crc32c ops) .busy := by
  unfold cacheHit at hc
  rcases hf with hf | hf <;> simp [runThen, hc, ht, hf, hm]

end Requests

/-! ### Received units (R345) -/

section Units

variable {s : State} {l p : Nat} {u : LinkUnit}

theorem receive_nowhere (h : portOf s l = none) : receive s l u = s := by
  simp [receive, h]

theorem receive_down (hp : portOf s l = some p) (hu : (laneAt s l).st ≠ .up) (hi : (laneAt s l).st ≠ .ident ∨ u.typ ≠ 8) :
    receive s l u = s := by
  rcases hi with hi | hi <;> simp [receive, hp, hu, hi]

theorem receive_bad_header (hp : portOf s l = some p) (hu : (laneAt s l).st = .up) (hh : unitHeaderOk u = false) :
    receive s l u = sendNak (cntLane s l 1 1) l 1 := by
  simp [receive, hp, hu, hh]

theorem receive_bad_payload (hp : portOf s l = some p) (hu : (laneAt s l).st = .up) (hh : unitHeaderOk u = true)
    (hc : crc32c u.payload ≠ u.crc) :
    receive s l u = if isLinkLocal u.typ then cntLane s l 2 1 else sendNak (cntLane s l 2 1) l 2 := by
  simp [receive, hp, hu, hh, hc]

theorem receive_local (hp : portOf s l = some p) (hu : (laneAt s l).st = .up) (hh : unitHeaderOk u = true)
    (hc : crc32c u.payload = u.crc) (hl : isLinkLocal u.typ = true) :
    receive s l u = if typeAllowed s l u then linkLocal (noteAccepted s l) l p u else cntLane (noteAccepted s l) l 8 1 := by
  simp [receive, hp, hu, hh, hc, hl]

theorem receive_sequenced (hp : portOf s l = some p) (hu : (laneAt s l).st = .up) (hh : unitHeaderOk u = true)
    (hc : crc32c u.payload = u.crc) (hl : isLinkLocal u.typ = false) : receive s l u = receiveSeq s l p u := by
  simp [receive, hp, hu, hh, hc, hl]

theorem receiveSeq_expected (h : (u.linkSeq + 1024 - (laneAt s l).rxExpect) % 1024 = 0) :
    receiveSeq s l p u = ingress (acceptSeq s l u) l p u := by
  simp [receiveSeq, h]

end Units

end Sys2Proof.Machine
end

