-- ==== Sys2Proof/WellFormed.lean ====
section
/-! DEFINITION. When a command is well formed: its operands lie in the ranges that the spec gives the
things they name. The meanings are total and change nothing on an operand outside them. -/

namespace Sys2Proof

open Sys2Proof.Machine

/-- A queue number (R235). -/
def wfQueue (q : Nat) : Bool := q < 64
/-- A logical compute die (R6). -/
def wfDie (d : Nat) : Bool := d < 4
/-- A job. -/
def wfJob (j : Nat) : Bool := j < 16
/-- A fabric lane 0 to 255 or twin lane 256 to 271 (R34, R551). -/
def wfLane (l : Nat) : Bool := l < 272
/-- What a unit leaves by: a lane, a compute-die port, the service port, or 0x1FF (R34). -/
def wfTxLane (l : Nat) : Bool := wfLane l || (320 ≤ l && l < 336) || l == 0x180 || l == 0x1FF
/-- A port ID of R34 that is not reserved. -/
def wfPort (p : Nat) : Bool := p < 272 || (320 ≤ p && p < 336) || p == 0x180
/-- An ordinal (R126). -/
def wfOrdinal (o : Nat) : Bool := o < 2 ^ 32
/-- A chunk number (R128). -/
def wfChunk (c : Nat) : Bool := c < 2 ^ 24
/-- A rank field (R338). -/
def wfRank (r : Nat) : Bool := r < 2 ^ 15

/-- A link unit whose fields fit their widths and whose payload has the length its form gives
(R338, R339). -/
def wfUnit (u : LinkUnit) : Bool :=
  u.typ < 16 && u.cls < 8 && u.job < 16 && u.epoch < 4 && u.flags < 32 && u.linkSeq < 1024
  && u.route < 2 ^ (if u.cell then 48 else 80) && u.ordinal < 2 ^ (if u.cell then 16 else 32)
  && u.chunk < 2 ^ 24 && u.rank < 2 ^ 15 && u.flowSeq < 2 ^ 16 && u.length < 2 ^ 13
  && u.inject < 2 ^ 32 && u.ofc < 2 ^ 13 && u.hcrc < 2 ^ 16 && u.crc < 2 ^ 32 && u.res < 2 ^ 16
  && u.rsv < 2 ^ 16 && u.payload.length == (if u.cell then 40 else u.length)

/-- A management request header (R535, R536). -/
def wfReq (h : FmdReq) : Bool :=
  (match h.slot with | some s => s < 8 | none => true) && h.tag < 2 ^ 16 && h.port < 2

/-- A well-formed command. -/
def Instr.wf : Instr → Bool
  | .nop q => wfQueue q
  | .endProg q => wfQueue q
  | .br q => wfQueue q
  | .dbnz q => wfQueue q
  | .cmparm q => wfQueue q
  | .cmpoff q => wfQueue q
  | .pset q => wfQueue q
  | .smov q => wfQueue q
  | .sadd q => wfQueue q
  | .ssub q => wfQueue q
  | .smul q => wfQueue q
  | .sand q => wfQueue q
  | .sor q => wfQueue q
  | .sxor q => wfQueue q
  | .sshl q => wfQueue q
  | .sshr q => wfQueue q
  | .ssra q => wfQueue q
  | .cset q => wfQueue q
  | .cget q => wfQueue q
  | .sfadd q => wfQueue q
  | .sfsub q => wfQueue q
  | .sfmul q => wfQueue q
  | .sfdiv q => wfQueue q
  | .sfsqrt q => wfQueue q
  | .sld q => wfQueue q
  | .sst q => wfQueue q
  | .flagsRd q => wfQueue q
  | .flagsClr q => wfQueue q
  | .digestRd q => wfQueue q
  | .hset q => wfQueue q
  | .hoff q => wfQueue q
  | .hadd q => wfQueue q
  | .vcopy q => wfQueue q
  | .vcvt q => wfQueue q
  | .vfill q => wfQueue q
  | .vadd q => wfQueue q
  | .vsub q => wfQueue q
  | .vmul q => wfQueue q
  | .vmuladd q => wfQueue q
  | .vdiv q => wfQueue q
  | .vsqrt q => wfQueue q
  | .vexp q => wfQueue q
  | .vlog q => wfQueue q
  | .vrsqrt q => wfQueue q
  | .vmax q => wfQueue q
  | .vmin q => wfQueue q
  | .vabs q => wfQueue q
  | .vneg q => wfQueue q
  | .vsign q => wfQueue q
  | .vand q => wfQueue q
  | .vor q => wfQueue q
  | .vxor q => wfQueue q
  | .vshl q => wfQueue q
  | .vshr q => wfQueue q
  | .vcmp q => wfQueue q
  | .vsel q => wfQueue q
  | .vdot q => wfQueue q
  | .mmul q => wfQueue q
  | .mmac q => wfQueue q
  | .tload q => wfQueue q
  | .chain q => wfQueue q
  | .crun q => wfQueue q
  | .flagSet q => wfQueue q
  | .flagSetEffect q => wfQueue q
  | .flagClear q => wfQueue q
  | .flagWait q => wfQueue q
  | .flagWaitSatisfied q => wfQueue q
  | .flagWaitDeadline q => wfQueue q
  | .fence q => wfQueue q
  | .fenceComplete q => wfQueue q
  | .callColl q => wfQueue q
  | .dmaCopy q => wfQueue q
  | .segRun q => wfQueue q
  | .dmaRunAhead q => wfQueue q
  | .dmaBlock die ch _ _ => wfDie die && ch < 32
  | .hawthornBatch _ _ => true
  | .laurelBlockPass die _ => wfDie die
  | .tierFrameReserve q => wfQueue q
  | .tierWriteBackDone die job _ => wfDie die && wfJob job
  | .tierMoveInDone die job _ => wfDie die && wfJob job
  | .preemptStop q => wfQueue q
  | .privetChunk job _ ordinal chunk _ _ => wfJob job && wfOrdinal ordinal && wfChunk chunk
  | .duplicateExecution _ _ => true
  | .selfTest _ die _ _ => wfDie die
  | .remapApply _ die _ => wfDie die
  | .dataFrame lane u => wfLane lane && wfUnit u
  | .expressCell lane u => wfLane lane && wfUnit u
  | .digestFrame lane u => wfLane lane && wfUnit u
  | .ackFrame lane u => wfLane lane && wfUnit u
  | .nakChunk lane u => wfLane lane && wfUnit u
  | .retractFrame lane u => wfLane lane && wfUnit u
  | .abortCell lane u => wfLane lane && wfUnit u
  | .countsFrame lane u => wfLane lane && wfUnit u
  | .creditCell lane u => wfLane lane && wfUnit u
  | .linkNak lane u => wfLane lane && wfUnit u
  | .timeFrame lane u => wfLane lane && wfUnit u
  | .voteFrame lane u => wfLane lane && wfUnit u
  | .stretchCell lane u => wfLane lane && wfUnit u
  | .twinGrad lane u => wfLane lane && wfUnit u
  | .twinFlip lane u => wfLane lane && wfUnit u
  | .twinVote lane u => wfLane lane && wfUnit u
  | .twinHello lane u => wfLane lane && wfUnit u
  | .twinLeave lane u => wfLane lane && wfUnit u
  | .twinSync lane u => wfLane lane && wfUnit u
  | .twinImageRequest lane u => wfLane lane && wfUnit u
  | .twinImageData lane u => wfLane lane && wfUnit u
  | .unitSelect lane => wfTxLane lane
  | .unitTxDone lane _ => wfTxLane lane
  | .linkRetryTimeout lane => wfLane lane
  | .linkNakRepeat lane => wfLane lane
  | .creditSend lane => wfLane lane
  | .laneSignalDetect lane => wfLane lane
  | .fecAlignmentLock lane => wfLane lane
  | .peerIdentityCheck port _ _ => wfPort port
  | .laneDown lane _ => wfLane lane
  | .earlyArrivalAdmit port => wfPort port
  | .allocWaitGrant inst => inst < 8
  | .mirrorData => true
  | .ordinalEligible job _ ordinal => wfJob job && wfOrdinal ordinal
  | .ordinalTimeout job _ ordinal => wfJob job && wfOrdinal ordinal
  | .chunkTimerExpiry job _ ordinal => wfJob job && wfOrdinal ordinal
  | .shortWaitExpiry job _ ordinal rank chunk => wfJob job && wfOrdinal ordinal && wfRank rank && wfChunk chunk
  | .digestSend job _ ordinal lo hi chunk => wfJob job && wfOrdinal ordinal && lo < 32768 && hi < 32769 && wfChunk chunk
  | .digestResend job _ ordinal lo hi chunk _ => wfJob job && wfOrdinal ordinal && lo < 32768 && hi < 32769 && wfChunk chunk
  | .shardFlip job shard => wfJob job && shard < 65536
  | .optimizerStepStart job shard reg => wfJob job && shard < 65536 && reg < 16
  | .epochBoundary job => wfJob job
  | .voteWindowExpiry job _ => wfJob job
  | .voteClose job _ => wfJob job
  | .timeSend => true
  | .timeParentTimeout => true
  | .masterTimeStart => true
  | .stretchRenew => true
  | .gateSwap => true
  | .stretchExpiry => true
  | .schedMismatch port => wfPort port
  | .helloSend => true
  | .twinSilenceTimeout => true
  | .powerWindow _ => true
  | .currentSample rail _ _ => rail < 8
  | .railShortDetect rail _ _ => rail < 8
  | .senseOpenDetect rail => rail < 8
  | .feedStateChange feed _ => feed < 2
  | .feedSwitchover => true
  | .feedsLost => true
  | .thermalThreshold _ _ => true
  | .inletTemperature _ _ => true
  | .flowLowDetect => true
  | .powerOn feed _ => feed < 2
  | .configApply => true
  | .trainingComplete _ _ => true
  | .syncTimeout => true
  | .imageRequestRepeat => true
  | .imageVerifyComplete _ => true
  | .carrierResetAssert => true
  | .carrierResetRelease => true
  | .lsrEnChange _ => true
  | .sb3v3Loss => true
  | .i3cPrivateRead => true
  | .i3cWrite _ => true
  | .extest _ => true
  | .idcode => true
  | .samplePreload _ => true
  | .ringSel _ => true
  | .ringData => true
  | .jtagState => true
  | .bypass _ => true
  | .fmdDiscard port => port < 2
  | .securedMessageDiscard _ _ _ => true
  | .arpNdRequest port _ => port < 2
  | .icmpEcho port _ _ => port < 2
  | .spdm h _ => wfReq h
  | .keyExchange h _ => wfReq h
  | .finish h _ _ _ => wfReq h
  | .endSession h => wfReq h
  | .getMeasurements h _ => wfReq h
  | .sessionTimeout slot => slot < 8
  | .readReg h _ => wfReq h
  | .writeReg h _ _ => wfReq h
  | .readBlock h _ _ => wfReq h
  | .regAccessTimeout h _ => wfReq h
  | .counterSnapshotTake h => wfReq h
  | .counterSnapshotRelease h => wfReq h
  | .snapshotFreeze => true
  | .snapshotExpiry => true
  | .eventRingRead h _ _ _ => wfReq h
  | .traceCtrlStart h _ => wfReq h
  | .traceCtrlStop h => wfReq h
  | .traceCtrlStatus h => wfReq h
  | .traceCtrlFilter h _ _ => wfReq h
  | .traceDrainComplete => true
  | .traceRecordWrite => true
  | .attnAck h _ => wfReq h
  | .queuePush h q _ _ => wfReq h && wfQueue q
  | .topiaryLoad h job => wfReq h && wfJob job
  | .topiaryCommit h job _ => wfReq h && wfJob job
  | .topiaryActivate job => wfJob job
  | .topiaryUnload h job => wfReq h && wfJob job
  | .topiaryUnloadComplete job => wfJob job
  | .checkpointRead h job _ shard _ _ _ _ => wfReq h && wfJob job && shard < 65536
  | .checkpointReadTimeout job shard => wfJob job && shard < 65536
  | .imagePush h _ job _ _ => wfReq h && wfJob job
  | .nvmWrite h _ => wfReq h
  | .nvmWriteComplete _ => true
  | .resetCollective h job ordinal _ => wfReq h && wfJob job && wfOrdinal ordinal
  | .rollbackEpoch h job _ => wfReq h && wfJob job
  | .remapUnit h die _ _ => wfReq h && wfDie die
  | .resyncTwin h => wfReq h
  | .requeue h q _ => wfReq h && wfQueue q
  | .masterRelease h inst _ => wfReq h && inst < 8
  | .moduleReset h _ => wfReq h
  | .timSet h _ => wfReq h
  | .detach h => wfReq h
  | .forceSolo h => wfReq h
  | .retrain h lane _ _ => wfReq h && wfLane lane
  | .laneEnable h lane _ _ => wfReq h && wfLane lane
  | .burnCust h => wfReq h
  | .svnAdvance h _ => wfReq h
  | .fuseBurnComplete => true
  | .lagClear h die _ => wfReq h && wfDie die
  | .mirrorDestWrite h _ => wfReq h
  | .mirrorCfgWrite h port _ => wfReq h && wfPort port
  | .polDataWrite h _ => wfReq h
  | .profileWrite h _ _ _ => wfReq h
  | .weightWrite h _ _ => wfReq h
  | .ageLimitWrite h k _ => wfReq h && k < 8
  | .capWrite h _ => wfReq h
  | .railLimitWrite h rail _ => wfReq h && rail < 8
  | .lagSelWrite h _ => wfReq h
  | .masterSyncElapsed => true
  | .mirrorRingWrite => true
  | .mgtPortLinkChange port _ _ => port < 2
  | .recoveryOperationComplete _ => true
  | .delimitationLost lane => wfLane lane
  | .mirrorUnit lane u => wfLane lane && wfUnit u
  | .fmdNop h => wfReq h
  | .reservedOpcode h _ _ => wfReq h

end Sys2Proof
end

