-- ==== Sys2Proof/Tests/Slice0.lean ====
section
/-! SUPPORT. The model's own tests: the smoke test of WellFormed, words and values that the spec writes out, and
for every statement a concrete state and operands that meet its hypotheses together. -/

set_option Elab.async false

namespace Sys2Proof.Machine

open Sys2Proof

/-! ### Small states -/

/-- A scalar word (R238): opcode, SD, SA, SB, IM and IMM32. -/
def wordS (op sd sa sb im imm : Nat) : Word := BitVec.ofNat 64 (op * 2 ^ 56 + sd * 2 ^ 47 + sa * 2 ^ 43 + sb * 2 ^ 39 + im * 2 ^ 38 + imm)
/-- Pages of job 0: scratchpad at 0x1000_0000, HBM at 0x20_0000, DDR5 at 0x4000_0000, all of die 0. -/
def tMaps : List MapRec :=
  [⟨0x10000000, 4, 0, 0, true, true, false, false, 0, 0⟩, ⟨0x200000, 1, 1, 0, true, true, false, false, 5, 0⟩,
   ⟨0x40000000, 4, 2, 0, true, true, false, false, 7, 0⟩, ⟨0, 2, 3, 0, true, true, false, false, 9, 0⟩,
   ⟨0, 1, 4, 0, true, true, false, false, 12, 0⟩]
/-- A dense descriptor (R249) of rank `r` and up to two sizes. -/
def tDesc (fmt space base n m : Nat) : Nat :=
  2 ^ 63 + (if m = 0 then 0 else 2 ^ 57) + fmt * 2 ^ 52 + space * 2 ^ 48 + base + n * 2 ^ 64 + max 1 m * 2 ^ 96 + 2 ^ 128 + 2 ^ 160
    + (if m = 0 then 0 else 64 * 2 ^ 192)
/-- Descriptors 1 to 5: FP32 vectors of four in HBM, a misaligned one, and BF16 matrices in scratchpad. -/
def tDescs : List (Nat × Nat) :=
  [(1, tDesc 0 1 0x200000 4 0), (2, tDesc 0 1 0x200100 4 0), (3, tDesc 0 1 0x200204 4 0),
   (4, tDesc 0 0 0x10000000 2 2), (5, tDesc 1 0 0x10000400 2 2), (6, tDesc 1 0 0x10000800 2 2)]
/-- The Topiary of job 0. -/
def tTop : Topiary := { job := 0, maps := tMaps, descs := tDescs, segs := [[0#64, 0#64]] }
/-- A module in RUN that runs it. -/
def runS : State := { State.reset with mgt := { State.reset.mgt with st := .run }, tops := [tTop] }
/-- Handle registers that name descriptor i by register i. -/
def tH : List Handle := (List.range 16).map (fun i => ⟨BitVec.ofNat 12 i, 0⟩)
/-- A queue of job 0 on die 0, running, with words in its ring. -/
def runQ (t : QType) (ws : List Word) : Queue :=
  { bound := true, job := 0, qtype := t, die := 0, gangFirst := 0, gangSize := 2, st := .run, ring := ws, h := tH }
/-- Put a queue in place. -/
def withQ (q : Nat) (Q : Queue) (s : State) : State := { s with comp := { s.comp with queues := s.comp.queues.set q Q } }
/-- Vector queue 0 running on words of its ring. -/
def ringS (ws : List Word) : State := withQ 0 (runQ .vec ws) runS
/-- A queue of another type at 0. -/
def typeS (t : QType) (ws : List Word) : State := withQ 0 (runQ t ws) runS
/-- Vector queue 0 in segment 0 at word `pc`. -/
def segS (ws : List Word) (pc : Nat) : State :=
  withQ 0 { runQ .vec [0xE000000000000000#64] with inSeg := true, seg := 0, pc := pc } { runS with tops := [{ tTop with segs := [ws] }] }
/-- Queue 0 with its state changed. -/
def queueS (t : QType) (ws : List Word) (f : Queue → Queue) : State := withQ 0 (f (runQ t ws)) runS
/-- A trained lane. -/
def upL : Lane := { st := .up, enable := true }
/-- A port whose peer has used no credit. -/
def freeP : Port := { grantRx := List.replicate 8 40, grantTx := List.replicate 8 40 }
/-- A small pool in every buffer instance. -/
def roomB : Bpm := { sized := true, pools := [{ cells := 4096, block := 2, defMax := 4096 }] }
/-- A reduction of two ranks on die 0: ordinal 7, two chunks of four FP32 sums. -/
def tEntry : CollEntry :=
  { ordinal := 7, n := 2, chunks := 2, m := some 8, members := [(0, 4), (1, 4)]
    inputs := [⟨0, 0, 1, 1, 1, 0, false⟩, ⟨1, 1, 2, 1, 1, 0, false⟩]
    outputs := [⟨0, 2, 0, 1, 1, 0, false⟩], combines := [(0, 1, 2)], engines := [(0, 2, 0)] }
/-- An express reduction: ordinal 9. -/
def xEntry : CollEntry := { tEntry with ordinal := 9, express := true, chunks := 1, m := some 4 }
/-- A module in RUN with lanes 4, 8 and 256 up, each a port, and the two collectives in its table. -/
def fabS : State :=
  { runS with
    tops := [{ tTop with colls := [tEntry, xEntry] }]
    fab := { runS.fab with lanes := [(4, upL), (8, upL), (256, upL)], ports := [(4, freeP), (8, freeP), (256, freeP)]
                           bpm := List.replicate 5 roomB, moduleIndex := 3
                           twin := { runS.fab.twin with present := true, port := 256, st := .paired } } }
/-- A route of one or two hops for a frame or a cell. -/
def hop1 (cell : Bool) (h : Nat) : Nat := if cell then h * 2 ^ 36 else h * 2 ^ 67
/-- A sealed unit of a type. -/
def mkU (typ : Nat) (u : LinkUnit) : LinkUnit := sealUnit (asType typ u)
/-- A frame of 256 payload bytes to a hop, or a cell of 40. -/
abbrev unitU (typ hop : Nat) (u : LinkUnit) (pl : List Byte) : LinkUnit :=
  mkU typ { u with
    route := hop1 (isCellType typ) hop, cls := 1, length := if isCellType typ then 0 else 256
    payload := padTo (if isCellType typ then 40 else 256) pl }
/-- Lane 4 changed. -/
def lane4 (f : Lane → Lane) (s : State) : State := setLane s 4 f
/-- A frame inside the module: its hop and one payload byte. -/
def rawU (hop : Nat) (b : Byte) : LinkUnit := { cls := 1, length := 256, route := hop1 false hop, payload := [b] }
/-- Shard 1: eight elements of ordinal 7's two chunks, cast to ordinal 8; the twin holds it as shard 2. -/
def tShard : StateEntry :=
  { shard := 1, rep := false, die := 0, skipNonfinite := false, bcastV := false, program := 0, twinShard := 2, mask := none
    hyper := 0, bcastFmt := 2, blockB := 0, iters := 0, gradOrdinal := 7, bcastOrdinal := 8, chunkFirst := 0, chunkCount := 2
    paramFirst := 0, paramCount := 8, packedCount := 8, rows := 1, cols := 8
    planes := [(512, 520, 2), (514, 522, 1), (515, 523, 1)] }
/-- The replica of the twin's shard 3, held as shard 4. -/
def rShard : StateEntry := { tShard with shard := 4, twinShard := 3, rep := true, gradOrdinal := 7 }
/-- The broadcast of the cast weights. -/
def bEntry : CollEntry :=
  { tEntry with ordinal := 8, kind := 3, n := 1, inputs := [], combines := [], outputs := [⟨0, 1, 0, 1, 1, 0, false⟩] }
/-- The fabric module with a STATE section. -/
def shardS : State :=
  { fabS with
    tops := [{ tTop with colls := [tEntry, xEntry, bEntry], states := [tShard, rShard], stateBytes := [1]
                         maps := [⟨0x40000000, 64, 2, 0, true, true, false, false, 7, 0⟩]
                         hypers := [(0, [List.replicate 10 0x3F000000])], routes := [⟨4 * 2 ^ 67, 1, false⟩] }]
    coll := { fabS.coll with shards := [{ job := 0, id := 1 }, { job := 0, id := 4 }] } }
/-- Twin state changed. -/
def twinS (st : TwinSt) : State := { shardS with fab := { shardS.fab with twin := { shardS.fab.twin with st := st } } }
/-- A TWIN frame. -/
abbrev twinU (sub hop : Nat) (u : LinkUnit) (pl : List Byte) : LinkUnit :=
  mkU 12 { u with
    rank := sub, route := hop1 false hop, cls := 1, length := max 256 pl.length, payload := padTo 256 pl }

/-- A unit whose payload CRC does not match. -/
def badCrc (t : Nat) (u : LinkUnit) : LinkUnit := { asType t u with crc := crc32c u.payload + 1 }
/-- A unit whose header CRC does not match. -/
def badHead (t : Nat) (u : LinkUnit) : LinkUnit := { asType t u with hcrc := headerCrc (asType t u) + 1 }
/-- Held frames of one input of ordinal 7: four FP32 values of one pattern, padded to a frame. -/
def heldI (rank chunk w : Nat) : Inp :=
  { rank := rank, chunk := chunk, acked := true, frames := [⟨0, padTo 256 ((List.replicate 4 w).flatMap (leBytes 4)), 0, false, 0⟩] }
/-- A reduction that only this module takes: no OUTPUT record. -/
def rEntry : CollEntry := { tEntry with outputs := [] }
/-- The fabric module with one entry of ordinal 7 in its table, eligible, with inputs. -/
def collS (e : CollEntry) (is : List Inp) : State :=
  setColl { fabS with tops := [{ tTop with colls := [e], routes := [⟨4 * 2 ^ 67, 1, false⟩] }] } 0 0 7 (fun c => { c with eligible := true, inputs := is })
/-- A copy of one value: kind 4. -/
def mEntry : CollEntry := { tEntry with kind := 4, n := 1, inputs := [⟨0, 0, 1, 1, 1, 0, false⟩], outputs := [⟨0, 1, 0, 1, 1, 0, false⟩], combines := [] }
/-- An output of ordinal 7 with one consumer. -/
def tOut (k : Consumer) : Outp :=
  { lo := 0, hi := 2, chunk := 0, bytes := [1, 2, 3], payload := 256, check := 0, consumers := [k] }
def tCons : Consumer := { route := 4 * 2 ^ 67, cls := 1 }
def outS (o : Outp) : State := setColl fabS 0 0 7 (fun c => { c with eligible := true, outputs := [o] })
/-- Rails up, feed 0 carrying. -/
def pwrS : State :=
  { fabS with pwr := { fabS.pwr with feeds := [.good, .absent], feedV10 := [4800, 0], rails := List.replicate 8 { st := 1, limitDa := 100, setMv := 700 }
                                     dies := List.replicate 4 { vcompMv := 700, limitDa := 100 } } }
def stS (st : MState) : State := { pwrS with mgt := { pwrS.mgt with st := st } }
def rootVal (s : State) : NodeVal :=
  let s' := noteEngine (if chunkFirst s 0 0 rEntry 0 then sampleChunk s 0 0 7 0 0 0 0 0 else s) 0 0 0 7 0 false
  match (reduceChunk { s := s', job := 0, top := (topOf s 0).getD {}, e := rEntry, coll := collAt s 0 0 7, a := 0, n := 4 } 0 (rootWaits s' 0 0 rEntry 0)).root with
  | some (_, v) => v
  | none => default
/-- A request of session 1. -/
def rq : FmdReq := { slot := some 1, tag := 5, seq := 1 }
/-- Session 1 open, a customer key, firmware of version 9. -/
def mgtS (s : State) : State :=
  { s with mgt := { s.mgt with sessions := (List.replicate 8 ({} : Session)).set 1 { valid := true }, custKey := some [1], fwSvn := 9 } }
def mS : State := mgtS pwrS
def mSt (st : MState) : State := mgtS (stS st)

/-! ### Checks of the statements' hypotheses -/

/-- The value of a computation that succeeds. -/
def okVal {ε α : Type} [Inhabited α] : Except ε α → α
  | .ok x => x
  | .error _ => default

/-- The reason of a computation that fails. -/
def errVal {ε α : Type} [Inhabited ε] : Except ε α → ε
  | .ok _ => default
  | .error r => r

theorem ok_of {ε α : Type} [Inhabited α] {x : Except ε α} (h : x.toBool = true) : x = .ok (okVal x) := by
  cases x with
  | ok => rfl
  | error => cases h

theorem error_of {ε α : Type} [Inhabited ε] {x : Except ε α} (h : x.toBool = false) : x = .error (errVal x) := by
  cases x with
  | ok => cases h
  | error => rfl

theorem ready_of {s : State} {q : Nat} {w : Word} {b : Bool} {x : Tensor}
    (h : (match scalarTensor s (queueAt s q) (wR2 w) with | .ok y => decide (y = x) | .error _ => false) = true ∧
      baseAligned x = true ∧ (wImm w).toNat < elemCount x ∧
      preCheck s (queueAt s q).job (queueAt s q).die .group [elemAcc x (coordsOf x.sizes (wImm w).toNat) b] = .ok) :
    elementReady s q w b x := by
  obtain ⟨r, a, c, d⟩ := h
  refine ⟨?_, a, c, d⟩
  split at r
  · exact ‹scalarTensor s _ _ = _›.trans (congrArg _ (of_decide_eq_true r))
  · cases r

theorem issues_of {s : State} {q op : Nat} {w : Word}
    (h : canIssue s q op = some w ∧ wordCheck s (queueAt s q) w = none ∧ guardOff (queueAt s q) w = false) :
    Issues s q op w := ⟨h.1, h.2.1, h.2.2⟩

/-- Check 1 of R345 without the header CRC. -/
def formOk (u : LinkUnit) : Bool :=
  u.typ != 15 && (if u.cell then u.payload.length == 40
    else 256 ≤ u.length && u.length ≤ 4096 && u.length % 256 == 0 && u.payload.length == u.length)

theorem sealed_header {u : LinkUnit} (h : formOk u = true) : unitHeaderOk (sealUnit u) = true := by
  have e : headerCrc (sealUnit u) = (sealUnit u).hcrc := rfl
  simp only [formOk, Bool.and_eq_true] at h
  simp only [unitHeaderOk, e, beq_self_eq_true, Bool.and_true, Bool.and_eq_true]
  exact h

/-- A unit that its sender sealed passes check 1 and its payload's CRC, and keeps its type. -/
theorem sealed_of {t : Nat} {u : LinkUnit} (h : formOk (asType t u) = true) :
    unitHeaderOk (asType t (mkU t u)) = true ∧ crc32c (asType t (mkU t u)).payload = (asType t (mkU t u)).crc :=
  ⟨sealed_header h, rfl⟩

theorem accepted_of {s : State} {l p : Nat} {u : LinkUnit}
    (h : portOf s l = some p ∧ (laneAt s l).st = .up ∧ unitHeaderOk u = true ∧ crc32c u.payload = u.crc ∧
      isLinkLocal u.typ = false ∧ (u.linkSeq + 1024 - (laneAt s l).rxExpect) % 1024 = 0) : Accepted s l p u :=
  ⟨h.1, h.2.1, h.2.2.1, h.2.2.2.1, h.2.2.2.2.1, h.2.2.2.2.2⟩

/-- Room for a unit in a buffer instance, below PRESS. -/
def roomFor (s : State) (i req len : Nat) : Bool :=
  match poolFor (bpmAt s i) len with
  | some (p, n) => decide (allocCheck (bpmAt s i) p req n = 0 ∧ ((bpmAt s i).pools.getD p {}).level < 2)
  | none => false

theorem room_of {s : State} {i req len : Nat} (h : roomFor s i req len = true) :
    ∃ pool n, poolFor (bpmAt s i) len = some (pool, n) ∧ allocCheck (bpmAt s i) pool req n = 0 ∧
      ((bpmAt s i).pools.getD pool {}).level < 2 := by
  unfold roomFor at h
  split at h
  · exact ⟨_, _, ‹_›, of_decide_eq_true h⟩
  · cases h

theorem staging_of {s : State} {i q job len : Nat} (h : roomFor s i (reqId 0 q job) len = true) :
    StagingRoom s i q job len := room_of h

theorem delivered_of {s : State} {l p : Nat} {u : LinkUnit} {d : Dest}
    (h : (portOf s l = some p ∧ (laneAt s l).st = .up ∧ unitHeaderOk u = true ∧ crc32c u.payload = u.crc ∧
      isLinkLocal u.typ = false ∧ (u.linkSeq + 1024 - (laneAt s l).rxExpect) % 1024 = 0) ∧
      unitCost u ≤ creditLeft (portAt s p).grantRx (portAt s p).usedRx (unitClass u) ∧ typeAllowed s l u = true ∧
      (match routeOf s u with | .ok x => decide (x = d) | .error _ => false) = true ∧ tooOld s d u = false ∧
      frozenFor s p d u = none ∧ (meterUnit s p u).2 ≠ 2 ∧
      (portAt s p).held.any (fun h => unitClass h.unit == unitClass u) = false ∧
      (u.cell || roomFor s 0 (reqId 0 p u.job) u.length) = true) : Delivered s l p u d := by
  obtain ⟨a, b, c, r, e, f, g, i, j⟩ := h
  refine ⟨accepted_of a, b, c, ?_, e, f, g, i, fun hc => room_of (by simpa [hc] using j)⟩
  split at r
  · exact ‹routeOf s u = _›.trans (congrArg _ (of_decide_eq_true r))
  · cases r

theorem accepted_unit {s : State} {l p t : Nat} {u : LinkUnit} (hf : formOk (asType t u) = true)
    (h : portOf s l = some p ∧ (laneAt s l).st = .up ∧ isLinkLocal t = false ∧
      (u.linkSeq + 1024 - (laneAt s l).rxExpect) % 1024 = 0) : Accepted s l p (asType t (mkU t u)) :=
  ⟨h.1, h.2.1, (sealed_of hf).1, (sealed_of hf).2, h.2.2.1, h.2.2.2⟩

theorem delivered_unit {s : State} {l p t : Nat} {u : LinkUnit} {d : Dest} (hf : formOk (asType t u) = true)
    (h : portOf s l = some p ∧ (laneAt s l).st = .up ∧ isLinkLocal t = false ∧
      (u.linkSeq + 1024 - (laneAt s l).rxExpect) % 1024 = 0)
    (g : let u := asType t (mkU t u)
      unitCost u ≤ creditLeft (portAt s p).grantRx (portAt s p).usedRx (unitClass u) ∧ typeAllowed s l u = true ∧
      (match routeOf s u with | .ok x => decide (x = d) | .error _ => false) = true ∧ tooOld s d u = false ∧
      frozenFor s p d u = none ∧ (meterUnit s p u).2 ≠ 2 ∧
      (portAt s p).held.any (fun h => unitClass h.unit == unitClass u) = false ∧
      (u.cell || roomFor s 0 (reqId 0 p u.job) u.length) = true) : Delivered s l p (asType t (mkU t u)) d := by
  obtain ⟨b, c, r, e, f, x, i, j⟩ := g
  refine ⟨accepted_unit hf h, b, c, ?_, e, f, x, i, fun hc => room_of (by simpa [hc] using j)⟩
  split at r
  · exact ‹routeOf s _ = _›.trans (congrArg _ (of_decide_eq_true r))
  · cases r

theorem asTwin_mkU {k : Nat} {u : LinkUnit} (h : u.rank / 16 * 16 + k = u.rank) : asTwin k (mkU 12 u) = asType 12 (mkU 12 u) := by
  have e : (mkU 12 u).rank = u.rank := rfl
  simp only [asTwin, e, h]
  rfl

theorem delivered_twin {s : State} {l p k : Nat} {u : LinkUnit} {d : Dest} (hr : u.rank / 16 * 16 + k = u.rank)
    (hf : formOk (asType 12 u) = true)
    (h : portOf s l = some p ∧ (laneAt s l).st = .up ∧ isLinkLocal 12 = false ∧
      (u.linkSeq + 1024 - (laneAt s l).rxExpect) % 1024 = 0)
    (g : let u := asType 12 (mkU 12 u)
      unitCost u ≤ creditLeft (portAt s p).grantRx (portAt s p).usedRx (unitClass u) ∧ typeAllowed s l u = true ∧
      (match routeOf s u with | .ok x => decide (x = d) | .error _ => false) = true ∧ tooOld s d u = false ∧
      frozenFor s p d u = none ∧ (meterUnit s p u).2 ≠ 2 ∧
      (portAt s p).held.any (fun h => unitClass h.unit == unitClass u) = false ∧
      (u.cell || roomFor s 0 (reqId 0 p u.job) u.length) = true) : Delivered s l p (asTwin k (mkU 12 u)) d :=
  asTwin_mkU hr ▸ delivered_unit hf h g

theorem headerCrc_hcrc (u : LinkUnit) (n : Nat) : headerCrc { u with hcrc := n } = headerCrc u := rfl

theorem bad_header {t : Nat} {u : LinkUnit} : unitHeaderOk (asType t (badHead t u)) = false := by
  have e : headerCrc (asType t (badHead t u)) = headerCrc (asType t u) := headerCrc_hcrc (asType t u) _
  have h : (asType t (badHead t u)).hcrc = headerCrc (asType t u) + 1 := rfl
  simp [unitHeaderOk, e, h]

theorem bad_crc {t : Nat} {u : LinkUnit} (h : formOk (asType t u) = true) :
    unitHeaderOk (asType t (badCrc t (mkU t u))) = true ∧
      crc32c (asType t (badCrc t (mkU t u))).payload ≠ (asType t (badCrc t (mkU t u))).crc :=
  ⟨(sealed_of h).1, Nat.ne_of_lt (Nat.lt_succ_self _)⟩

theorem crc_mkU (t : Nat) (u : LinkUnit) : crc32c (mkU t u).payload = (mkU t u).crc := rfl

theorem one_listed {α : Type} {n : Nat} {f : Nat → Option α} {P : α → Prop} (h : n ≤ 1) :
    ∀ j y, 0 < j → j < n → f j = some y → P y := fun _ _ a b _ => absurd (Nat.lt_of_lt_of_le b h) (Nat.not_lt.mpr a)

theorem takes_of {s : State} {l : Nat} {u : LinkUnit} {ep : Nat} {e : CollEntry}
    (h : (match judgeColl s l u with | .take x y => decide (x = ep ∧ y = e) | .drop _ => false) = true ∧
      (let c := collAt s u.job ep e.ordinal
       overQuota s u.job (if u.cell then (if c.eligible then 0 else 1) else if isEarly c e u then earlyCells u else 0)) =
        false) : TakesColl s l u ep e := by
  refine ⟨?_, h.2⟩
  have r := h.1
  split at r
  · rename_i hj
    obtain ⟨rfl, rfl⟩ := of_decide_eq_true r
    exact hj
  · cases r

theorem chunk_of {s : State} {job ep ord chunk : Nat} {top : Topiary} {e : CollEntry} {g : Nat}
    (h : topOf s job = some top ∧ entryOf s job ord = some e ∧ (collAt s job ep ord).eligible = true ∧
      ((collAt s job ep ord).aborted = false ∧ (collAt s job ep ord).completed = false) ∧
      ((jobAt s job).oldest ≤ ep ∧ ep < (jobAt s job).oldest + top.epochLimit) ∧
      (engineFree s (entryDie e) (engineOf e chunk) job = true ∧ engineFree s (entryDie e) g job = true ∧
        (engineUnits s (entryDie e) (engineOf e chunk)).head? = some g) ∧ (chunk < e.chunks ∧ chunk ≠ 0xFFFFFF ∧
        ownHalf s job e chunk = true) ∧
      (e.express = false ∧ countsPhase e = false ∧ e.inputs ≠ []) ∧
      (isReduction e.kind = true → planTurn s job ep e chunk = true)) : ChunkReady s job ep ord chunk top e g :=
  ⟨h.1, h.2.1, h.2.2.1, h.2.2.2.1, h.2.2.2.2.1, h.2.2.2.2.2.1, h.2.2.2.2.2.2.1, h.2.2.2.2.2.2.2.1, h.2.2.2.2.2.2.2.2⟩

/-- The state in which the operation of a request of session `k` runs. -/
def runU (c : Instr) (s : State) (k : Nat) : State :=
  match fmdOf c with
  | some (h, _, ops, _, _, _) => match sessionCells (noteMessage s k h) k (8 + ops.length) with
    | some (u, _) => u
    | none => s
  | none => s

/-- Whether the operation of a request of session `k` runs (R535, R539). -/
def runsOk (c : Instr) (s : State) (k : Nat) : Bool :=
  match fmdOf c with
  | some (h, op, ops, bad, sub, free) => !bad && h.slot == some k && listens s && (sessAt s k).valid && seqOk (sessAt s k) h.seq
    && (cached s k h.tag op ops).isNone && h.tag != 0xFFFF && serves s op sub && (free || !isFrozen s 0 (reqId 3 k 0))
    && (sessionCells (noteMessage s k h) k (8 + ops.length)).isSome
  | none => false

theorem runs_of {c : Instr} {s : State} {k : Nat} (h : runsOk c s k = true) : Runs c s k (runU c s k) := by
  unfold runsOk at h
  unfold runU
  split at h
  · rename_i r op ops bad sub free hf
    simp only [Bool.and_eq_true, Bool.not_eq_true', beq_iff_eq, bne_iff_ne, Bool.or_eq_true, Option.isNone_iff_eq_none,
      Option.isSome_iff_exists] at h
    obtain ⟨⟨⟨⟨⟨⟨⟨⟨⟨rfl, h2⟩, h3⟩, h4⟩, h5⟩, h6⟩, h7⟩, h8⟩, h9⟩, ⟨u, x⟩, hx⟩ := h
    refine ⟨r, op, ops, sub, free, x, hf, h2, h3, h4, h5, h6, h7, h8, h9, ?_⟩
    simp only [hx]
  · cases h

/-- The state and the held pools of an admission that places its unit. -/
def placedVal : Adm → State × List Nat
  | .ok s k => (s, k)
  | .hold => ({}, [])
  | .gone s => (s, [])

theorem placed_of {a : Adm} (h : (match a with | .ok _ _ => true | _ => false) = true) :
    a = .ok (placedVal a).1 (placedVal a).2 := by
  cases a with
  | ok => rfl
  | hold => cases h
  | gone => cases h

theorem hold_of {a : Adm} (h : (match a with | .hold => true | _ => false) = true) : a = .hold := by
  cases a with
  | ok => cases h
  | hold => rfl
  | gone => cases h

/-- The value of an option that holds one. -/
def someOf {α : Type} [Inhabited α] (o : Option α) : α := o.getD default

theorem pair_of {α β : Type} [Inhabited α] [Inhabited β] {o : Option (α × β)} (h : o.isSome = true) :
    o = some ((someOf o).1, (someOf o).2) := by
  cases o with
  | some => rfl
  | none => cases h

/-- The state after a command. -/
def after (c : Instr) (s : State) : State :=
  match exec c s with
  | .next t => t
  | _ => s

/-! ### A state for every statement -/


/-! ### WellFormed refuses what the spec's ranges leave out -/

theorem test_wf_queue : (Instr.nop 63).wf = true ∧ (Instr.nop 64).wf = false := by decide
theorem test_wf_die : (Instr.laurelBlockPass 3 .clean).wf = true ∧ (Instr.laurelBlockPass 4 .clean).wf = false := by decide
theorem test_wf_channel : (Instr.dmaBlock 0 31 .clean none).wf = true ∧ (Instr.dmaBlock 0 32 .clean none).wf = false := by decide
theorem test_wf_job : (Instr.tierWriteBackDone 0 15 0).wf = true ∧ (Instr.tierWriteBackDone 0 16 0).wf = false := by decide
theorem test_wf_ordinal : (Instr.ordinalTimeout 0 0 (2 ^ 32 - 1)).wf = true ∧ (Instr.ordinalTimeout 0 0 (2 ^ 32)).wf = false := by decide
theorem test_wf_chunk : wfChunk (2 ^ 24 - 1) = true ∧ wfChunk (2 ^ 24) = false := by decide
theorem test_wf_rank : wfRank (2 ^ 15 - 1) = true ∧ wfRank (2 ^ 15) = false := by decide
theorem test_wf_lane : wfLane 271 = true ∧ wfLane 272 = false := by decide
theorem test_wf_tx_lane : wfTxLane 0x1FF = true ∧ wfTxLane 336 = false ∧ wfTxLane 319 = false := by decide
theorem test_wf_port : wfPort 335 = true ∧ wfPort 0x1FF = false := by decide
theorem test_wf_unit : wfUnit { typ := 0, length := 256, payload := List.replicate 256 0 } = true ∧
    wfUnit { typ := 16, length := 256, payload := List.replicate 256 0 } = false ∧
    wfUnit { typ := 0, length := 256, payload := [] } = false ∧ wfUnit { cell := true, payload := [] } = false := by decide +kernel
theorem test_wf_request : wfReq { slot := some 7, tag := 5 } = true ∧ wfReq { slot := some 8, tag := 5 } = false ∧
    wfReq { slot := none, tag := 2 ^ 16 } = false ∧ wfReq { slot := none, tag := 0, port := 2 } = false := by decide

theorem test_wf_pins : (Instr.senseOpenDetect 7).wf = true ∧ (Instr.senseOpenDetect 8).wf = false ∧
    (Instr.powerOn 2 0).wf = false ∧ (Instr.fmdDiscard 2).wf = false ∧ (Instr.sessionTimeout 8).wf = false := by decide
theorem test_wf_names : (Instr.checkpointReadTimeout 0 65536).wf = false ∧ (Instr.allocWaitGrant 8).wf = false ∧
    (Instr.ageLimitWrite { slot := some 0, tag := 0 } 8 0).wf = false ∧
    (Instr.digestSend 0 0 0 32768 0 0).wf = false ∧ (Instr.digestSend 0 0 0 0 32769 0).wf = false := by decide

/-! ### The spec's worked examples -/

/-- The table of conversions after R85. -/
theorem test_conversions :
    convertTo .bf16 (dec32 0x3F808000) = (0x3F80, 0x01) ∧ convertTo .bf16 (dec32 0x3F818000) = (0x3F82, 0x01) ∧
    convertTo .bf16 (dec32 0x7F7FFFFF) = (0x7F80, 0x05) ∧ convertTo .fp16 (dec32 0x477FF000) = (0x7C00, 0x05) ∧
    convertTo .fp16 (dec32 0x33400000) = (0x0001, 0x03) ∧ convertTo .fp16 (dec32 0xB3000000) = (0x8000, 0x03) ∧
    convertTo .e4m3 (dec32 0x43960000) = (0x79, 0x01) ∧ convertTo .e4m3 (dec32 0x43FA0000) = (0x7E, 0x41) ∧
    convertTo .e4m3 (dec32 0xFF800000) = (0xFE, 0x41) ∧ convertTo .e5m2 (dec32 0xFFC00001) = (0x7E, 0x20) ∧
    convertTo .int8 (dec32 0x40200000) = (0x02, 0x01) ∧ convertTo .int8 (dec32 0x43000000) = (0x7F, 0x41) ∧
    convertTo .int8 (dec32 0x7FC00000) = (0x00, 0x30) := by decide +kernel

/-- The MXFP4 block after R76. -/
theorem test_mxfp4_block :
    (let r := encodeBlock .mxE2m1 ([0x40A00000, 0x3E99999A, 0xBF99999A].map dec32 ++ List.replicate 29 .zero)
     (r.1, r.2.1.take 4, r.2.2 &&& (fInexact ||| fSaturate))) = (0x7F, [0x6, 0x1, 0xA, 0x0], fInexact) := by decide +kernel

/-- The keys after R87. -/
theorem test_total_order_keys : [0x80000000, 0, 0xFFC00000, 0x7F800000].map (totalKey 32) =
    [0x7FFFFFFF, 0x80000000, 0x003FFFFF, 0xFF800000] := by decide +kernel

/-- Twelve ranks split as after R97. -/
theorem test_twelve_ranks : (List.range 13).flatMap (fun a => (List.range 13).filterMap (fun b =>
      if a + 1 < b ∧ isNode 12 a b = true then some (a, b) else none)) =
    [(0, 2), (0, 4), (0, 8), (0, 12), (2, 4), (4, 6), (4, 8), (6, 8), (8, 10), (8, 12), (10, 12)] := by decide +kernel

/-- Three ranks after R105: FP32, then PAIR. -/
theorem test_three_ranks :
    canonicalTree .sum .fp32 [0x3F800000, 0x33800000, 0x33800000] = (0x3F800000, fInexact) ∧
    canonicalTree .sum .pair [0x3F800000, 0x33800000, 0x33800000] = (mkPair 0x3F800001 0, 0) := by decide +kernel

/-- The PAIR root and the INT32 root of R106 to R109. -/
theorem test_roots : rootRound .sum .pair .bf16 (mkPair 0x3F808000 0x30800000) = (0x3F81, fInexact) ∧
    rootRound .sum .int64 .int32 0xFFFFFFFE = (0x7FFFFFFF, fSaturate ||| fInexact) := by decide +kernel

/-- A and B of the dot product after R122. -/
def dotAB : List (Nat × Nat) :=
  [(0x3F80, 0x3F80), (0x3F80, 0xBF80), (0x3580, 0x3580), (0x3300, 0xB300), (0x0001, 0x7F00)] ++ List.replicate 11 (0, 0x3F80)

/-- Both modes of it. -/
theorem test_dot_modes :
    dotNative (dotAB.map (fun p => some (Fmt.decode .bf16 0 p.1, Fmt.decode .bf16 0 p.2))) none = (0x3C800000, fInexact) ∧
    dotAligned (dotAB.map (fun p => ((flushIn .bf16 p.1).1, (flushIn .bf16 p.2).1))) 0 = (0x2B400000, fInexact) ∧
    (flushIn .bf16 0x0001).2 = fFlush := by decide +kernel

/-- The 2:4 tile after R179: nine values, three bits in group 1. -/
theorem test_nm_tile :
    (let t : TileSpec := ⟨32, 0, 2, 4, true, .bf16⟩
     let vs := [0x3F80, 0x4000, 0x4040, 0x4080, 0x40A0, 0x40C0, 0x40E0, 0x4100, 0x4110]
     let bs := leBytes 8 0x090000090000001F ++ [0xD3, 0x96, 0, 0] ++ List.replicate 4 0 ++ vs.flatMap (leBytes 2) ++ List.replicate 6 0
     (headerOk t 0x090000090000001F, decodeTile t 0 32 [] true bs)) =
    (true, ⟨[(0, 0x3F80), (1, 0x4000), (4, 0x4040), (6, 0x4080), (9, 0x40A0), (10, 0x40C0), (12, 0x40E0), (15, 0x4100)],
      [1, 6], 40⟩) := by decide +kernel

/-- One AdamW element after R199. -/
theorem test_adamw :
    (let z := fvVal
     let P : Prelude :=
      { lr := z 0x3A800000, wd := z 0x3D800000, beta1 := z 0x3F600000, beta2 := z 0x3F7F8000, eps := z 0x35800000, nsA := z 0
        nsB := z 0, nsC := z 0, scale := z 0, t := 1, b1t := z 0x3F600000, b2t := z 0x3F7F8000, bc1 := z 0x41000000
        bc2 := z 0x44000000, omb1 := z 0x3E000000, omb2 := z 0x3B000000, gscl := z 0x3A800000, kdec := z 0x3F7FFC00
        skipped := 0, oldB1 := 0x3F800000, oldB2 := 0x3F800000 }
     let gs := scaledGrad P (dec32 0x42800000)
     let r := stepElem 1 P gs (z 0x3F000000) (z 0) (z 0)
     (gs.1, r.1.1, r.2.1.1, r.2.2.1, (convertTo .bf16 (dec32 r.1.1)).1)) =
    (0x3D800000, 0x3EFF7C00, 0x3C000000, 0x37000000, 0x3EFF) := by decide +kernel

/-- Counts of three members of an ALL_TO_ALL_V, after R137. -/
def a2aC : Coll :=
  let row (r : Nat) (ns : List Nat) : Inp := { rank := r, chunk := 0xFFFFFF, frames := [⟨0, padTo 256 (ns.flatMap (leBytes 4)), 0, false, 0⟩] }
  { (default : Coll) with inputs := [row 0 [2, 5, 0], row 1 [3, 0, 4], row 2 [1, 6, 2]] }
theorem test_all_to_all_offsets :
    countsReturn a2aC { kind := 8, n := 3 } 1 = [11, 0, 5, 5, 2, 5, 0].flatMap (leBytes 8) := by decide +kernel

/-- Routing of two members to two experts of capacity 2, after R144. -/
def moeC : Coll :=
  let row (r : Nat) (ns : List Nat) : Inp := { rank := r, chunk := 0xFFFFFF, frames := [⟨0, padTo 256 (leBytes 4 3 ++ ns.flatMap (leBytes 2)), 0, false, 0⟩] }
  { (default : Coll) with inputs := [row 0 [1, 0, 1], row 1 [1, 1, 0]] }
theorem test_moe_drops :
    (let e : CollEntry := { kind := 13, n := 2 }
     let fates := moeFates 2 2 [] (moeSlots moeC e 1)
     (moeReturn e [0, 1] fates 0, moeReturn e [0, 1] fates 1, (fates.filter (fun f => f.2.2.2 == 1)).length)) =
    (leBytes 8 3 ++ leBytes 8 0 ++ [2, 0, 1].flatMap (leBytes 8), leBytes 8 1 ++ leBytes 8 3 ++ [2, 0, 2].flatMap (leBytes 8), 2) := by
  decide +kernel

/-- The header of a gradient frame after R344. -/
theorem test_frame_header :
    headerBytes { typ := 0, cls := 1, job := 3, epoch := 1, flags := 0x18, linkSeq := 5, route := 0x148 * 2 ^ 67
                  ordinal := 0x1A00, chunk := 0x40, rank := 643, length := 0x1000, inject := 0x2A05F200 } =
      [0x02, 0x6E, 0x00, 0x50, 0xA4, 0, 0, 0, 0, 0, 0, 0, 0, 0, 0, 0x01, 0xA0, 0, 0, 0x04, 0, 0x50, 0x60, 0, 0x10, 0, 0x2A,
       0x05, 0xF2, 0] := by decide +kernel

/-- The identity word after R358, as an endpoint sends it. -/
theorem test_identity_word : (idEndpoint 0xF8283000000000A5, idIndex 0xF8283000000000A5, idDomain 0xF8283000000000A5) =
    (1, 643, 0xA5) := by decide +kernel

/-- The fair queueing of two jobs and a late waker, after R397: start tags and choices. -/
theorem test_fair_queueing :
    (let l := 4160
     let n := wfqWake (wfqWake {} 1 l 3) 4 l 1
     let take (n : Wfq) (i w : Nat) := wfqTake n i (some (l, w))
     let n1 := take n 1 3
     let n2 := take n1 4 1
     let n3 := take n2 1 3
     let n4 := take n3 1 3
     let n5 := wfqWake (take n4 4 1) 9 l 255
     ([wfqPick n [1, 4], wfqPick n1 [1, 4], wfqPick n2 [1, 4], wfqPick n3 [1, 4], wfqPick n4 [1, 4], wfqPick n5 [1, 4, 9]],
      n5.s.getD 9 0, n5.s.getD 1 0, (take n5 9 255).s.getD 9 0)) =
    ([some 1, some 4, some 1, some 1, some 4, some 9], 272629760, 272629761, 273698897) := by decide +kernel

/-- The spare inventory after R51, the consistent value. -/
theorem test_spare_value :
    (let p : Spares := { privetFree := false, clusters := 7 :: List.replicate 7 8, banks := 7 }
     spareReg { State.reset with integ := { State.reset.integ with spares := List.replicate 4 p } } 2) = 0x80000088777E0000 := by decide +kernel

/-- DMA channel 5 of job 3 hands back pointer 0x1_0006: the record after R383. -/
theorem test_violation :
    (let s := freeze (setBpm State.reset 2 (fun B => { B with sized := true })) 2 (reqId 2 37 3) 2 .align 0x10006
     ((bpmAt s 2).viol.headD 0, reqId 2 37 3, (bpmAt s 2).frozen, s.attn)) =
    (0xA042538000010006, 0x4253, [0x4253], aFault) := by decide +kernel

/-- Queue 5 of job 2 halts at a deadline: the halt record after R299, newest entry first, and QSTAT. -/
theorem test_halt_record :
    (let Q : Queue := { bound := true, job := 2, qtype := .vec, die := 0, st := .wait, inSeg := true, seg := 3, pc := 0x11 }
     let s := withQ 5 Q { State.reset with fabricTime := 0x00012A068E40 }
     let t := setQueue (haltRecord s 5 .deadline 0x21 true 3 0x11 0xA201080000001388#64) 5 (fun Q => { Q with st := .halted, cause := some .deadline })
     ((lookupD t.rings 0x113 []).map (fun e => (e.time, e.code, e.cont, e.data)), qstatReg t 5, t.attn)) =
    ([(0x00012A068E40, 0x20, true, 0x21), (0x00012A068E40, 0x20, true, 0xA201080000001388),
      (0x00012A068E40, 0x20, false, 0x1482E00600000011)], 0x2605C00C00000011, aSched) := by decide +kernel

/-- The event table after R571 reads MGT.STATE. -/
theorem test_state_value :
    stateReg { State.reset with mgt := { State.reset.mgt with st := .run, cause := 0, cfgRecord := 0xFFFF, fwSource := 0, bootMs := 66050 } } =
      0x700FFFF000010202 := by decide +kernel

/-- LNK.STATUS after R550. -/
theorem test_lane_status :
    (let L : Lane := { st := .up, lightRx := true, laserIn := true, peerOk := true, rttNs := 1000 }
     let rs : List RetryRec := (List.range 16).map (fun i => ⟨{ cell := true, linkSeq := i }, 0⟩)
     lnkReg (setLane State.reset 36 (fun _ => { L with retry := rs })) 36) = 0x5C000000001F4010 := by decide +kernel

/-- The AdamW chain header after R262: four inputs, four outputs, eight stages. -/
theorem test_chain_header :
    [(63, 56), (50, 48), (47, 45), (44, 42), (41, 38), (37, 34), (33, 30), (29, 26)].map (fun p => field 0x700790048C01159C#64 p.1 p.2) =
      [0x70, 7, 4, 4, 0, 1, 2, 3] := by decide +kernel

/-- The coolant flow after R593: 1 150 W over 7.227 K. -/
theorem test_coolant_flow : flowOf 1150 40000 47227 = 228 := by decide

/-- The boundary and the factors of the stretch after R325 and of the phase after R506. -/
theorem test_stretch_choice :
    (let sc : Sched := { active := true, base := 1000000000, cycleNs := 2400000, schedRate := 1600, swapLeadUs := 100 }
     (nextBoundary sc 1026450000, neededOf 1350 1600, neededOf 1050 1600, neededOf 1490 1600, neededOf 1860 1600)) =
    (0x3D523E00, (1, false), (2, true), (1, false), (0, false)) := by decide +kernel
theorem witness_ScalarWordsAct_0 :
    ∃ (c : Instr) (q op : Nat) (f : Queue → Word → Word32) (s : State) (w : Word), aluOf c = some (q, op, f) ∧ Issues s q op w :=
  ⟨Instr.sadd 0, 0, 0x09, fun Q w => sreg Q (wR2 w) + operand2 Q w, ringS [(wordS 0x09 3 1 0 1 7)], wordS 0x09 3 1 0 1 7, rfl, issues_of (by decide +kernel)⟩

theorem witness_ScalarWordsAct_1 :
    ∃ (q : Nat) (s : State) (w : Word), Issues s q 0x06 w :=
  ⟨0, ringS [(wordS 0x06 2 0 0 0 1)], wordS 0x06 2 0 0 0 1, issues_of (by decide +kernel)⟩

theorem witness_ScalarWordsAct_2 :
    ∃ (q : Nat) (s : State) (w : Word), Issues s q 0x12 w :=
  ⟨0, ringS [(wordS 0x12 2 0 0 1 5)], wordS 0x12 2 0 0 1 5, issues_of (by decide +kernel)⟩

theorem witness_ScalarWordsAct_3 :
    ∃ (q : Nat) (s : State) (w : Word), Issues s q 0x04 w :=
  ⟨0, ringS [0x04021A4000000000#64], 0x04021A4000000000#64, issues_of (by decide +kernel)⟩

theorem witness_ScalarWordsAct_4 :
    ∃ (q : Nat) (s : State) (w : Word), Issues s q 0x05 w :=
  ⟨0, ringS [0x0502000000000000#64], 0x0502000000000000#64, issues_of (by decide +kernel)⟩

theorem witness_ScalarFpWordsWriteSdAndFlags_0 :
    ∃ (c : Instr) (q op : Nat) (f : Nat → Nat → Nat × FpFlags) (s : State) (w : Word), fpOf c = some (q, op, f) ∧ Issues s q op w :=
  ⟨Instr.sfdiv 0, 0, 0x17, fdiv, ringS [(wordS 0x17 3 1 0 1 0x3F800000)], wordS 0x17 3 1 0 1 0x3F800000, rfl, issues_of (by decide +kernel)⟩

theorem witness_ControlWordsMoveTheQueue_0 :
    ∃ (q : Nat) (s : State) (w : Word), Issues s q 0x00 w :=
  ⟨0, ringS [0#64], 0#64, issues_of (by decide +kernel)⟩

theorem witness_ControlWordsMoveTheQueue_1 :
    ∃ (q : Nat) (s : State) (w : Word), Issues s q 0x01 w :=
  ⟨0, segS [(wordS 0x01 0 0 0 0 0)] 0, wordS 0x01 0 0 0 0 0, issues_of (by decide +kernel)⟩

theorem witness_ControlWordsMoveTheQueue_2 :
    ∃ (q : Nat) (s : State) (w : Word), let Q := queueAt s q; let tgt := (Q.pc : Int) + wOff w; Issues s q 0x02 w ∧ 0 ≤ tgt ∧ tgt.toNat < (segWords s Q.job Q.seg).length :=
  ⟨0, segS [0#64, 0#64, 0x0200000000FFFFFE#64] 2, 0x0200000000FFFFFE#64, issues_of (by decide +kernel), by decide +kernel⟩

theorem witness_ControlWordsMoveTheQueue_3 :
    ∃ (q : Nat) (s : State) (w : Word), let Q := queueAt s q; let v := Q.c.getD (wCnt w) 0 - 1; let tgt := (Q.pc : Int) + wOff w; Issues s q 0x03 w ∧ (v ≠ 0 → 0 ≤ tgt ∧ tgt.toNat < (segWords s Q.job Q.seg).length) :=
  ⟨0, segS [0#64, 0#64, 0x0300000000FFFFFE#64] 2, 0x0300000000FFFFFE#64, issues_of (by decide +kernel), by decide +kernel⟩

theorem witness_ControlWordsMoveTheQueue_4 :
    ∃ (q : Nat) (s : State) (w : Word), Issues s q 0xE0 w :=
  ⟨0, ringS [0xE000000000000000#64], 0xE000000000000000#64, issues_of (by decide +kernel)⟩

theorem witness_FlagAndDigestWords_0 :
    ∃ (q : Nat) (s : State) (w : Word), Issues s q 0x1C w :=
  ⟨0, ringS [(wordS 0x1C 3 0 0 0 0)], wordS 0x1C 3 0 0 0 0, issues_of (by decide +kernel)⟩

theorem witness_FlagAndDigestWords_1 :
    ∃ (q : Nat) (s : State) (w : Word), Issues s q 0x1D w :=
  ⟨0, ringS [(wordS 0x1D 0 0 0 0 0xFF)], wordS 0x1D 0 0 0 0 0xFF, issues_of (by decide +kernel)⟩

theorem witness_FlagAndDigestWords_2 :
    ∃ (q : Nat) (s : State) (w : Word), Issues s q 0x1E w :=
  ⟨0, queueS .vec [(wordS 0x1E 15 0 0 0 3)] (fun Q => { Q with digests := List.replicate 16 0x1122334455667788 }), wordS 0x1E 15 0 0 0 3, issues_of (by decide +kernel)⟩

theorem witness_HandleWords_0 :
    ∃ (q : Nat) (s : State) (w : Word), Issues s q 0x20 w :=
  ⟨0, ringS [(wordS 0x20 3 0 0 0 5)], wordS 0x20 3 0 0 0 5, issues_of (by decide +kernel)⟩

theorem witness_HandleWords_1 :
    ∃ (q : Nat) (s : State) (w : Word), Issues s q 0x21 w :=
  ⟨0, ringS [(wordS 0x21 3 0 0 0 5)], wordS 0x21 3 0 0 0 5, issues_of (by decide +kernel)⟩

theorem witness_HandleWords_2 :
    ∃ (q : Nat) (s : State) (w : Word), Issues s q 0x22 w :=
  ⟨0, ringS [(wordS 0x22 3 1 0 0 0)], wordS 0x22 3 1 0 0 0, issues_of (by decide +kernel)⟩

theorem witness_ScalarLoadAndStore_0 :
    ∃ (q : Nat) (s : State) (w : Word) (x : Tensor), Issues s q 0x1A w ∧ elementReady s q w false x :=
  ⟨0, { ringS [(wordS 0x1A 3 1 0 0 2)] with comp := { (ringS [(wordS 0x1A 3 1 0 0 2)]).comp with mem := (Memory.writeRun {} (memKey 1 0 (5 * 2 ^ 21 + 8)) (leBytes 4 0xDEADBEEF)) } }, wordS 0x1A 3 1 0 0 2, okVal (resolve tTop ⟨1, 0⟩), issues_of (by decide +kernel), ready_of (by decide +kernel)⟩

theorem witness_ScalarLoadAndStore_1 :
    ∃ (q : Nat) (s : State) (w : Word) (x : Tensor), s.Ok ∧ Issues s q 0x1B w ∧ elementReady s q w true x :=
  ⟨0, queueS .vec [(wordS 0x1B 0 1 2 0 2)] (fun Q => { Q with s := List.replicate 16 0x01020304 }), wordS 0x1B 0 1 2 0 2, okVal (resolve tTop ⟨1, 0⟩), ⟨by decide +kernel, by decide +kernel⟩, issues_of (by decide +kernel), ready_of (by decide +kernel)⟩

theorem witness_GuardedOffWordsDoNothing_0 :
    ∃ (c : Instr) (q op : Nat) (s : State) (w : Word), wordOf c = some (q, op) ∧ op ≠ 0x70 ∧ op ≠ 0x72 ∧ canIssue s q op = some w ∧ wordCheck s (queueAt s q) w = none ∧ guardOff (queueAt s q) w = true :=
  ⟨Instr.sadd 0, 0, 0x09, ringS [(wordS 0x09 3 1 0 1 7 ||| 0x0080000000000000#64)], wordS 0x09 3 1 0 1 7 ||| 0x0080000000000000#64, by decide +kernel⟩

theorem witness_GuardedOffWordsDoNothing_1 :
    ∃ (q : Nat) (s : State) (w : Word) (body : List Word) (i : Nat), canIssue s q 0x70 = some w ∧ wordCheck s (queueAt s q) w = none ∧ guardOff (queueAt s q) w = true ∧ chainBody (segWords s (queueAt s q).job (queueAt s q).seg) (queueAt s q).pc = some (body, i) :=
  ⟨0, segS [0x7080000000000000#64, 0x7900000000000000#64, 0x7200000000000000#64] 0, 0x7080000000000000#64, [0x7900000000000000#64], 2, by decide +kernel⟩

theorem witness_RefusedWordsHaltTheQueue_0 :
    ∃ (c : Instr) (q op : Nat) (s : State) (w : Word) (r : Res), wordOf c = some (q, op) ∧ canIssue s q op = some w ∧ wordCheck s (queueAt s q) w = some r :=
  ⟨Instr.callColl 0, 0, 0xB0, ringS [0xB000000000000000#64], 0xB000000000000000#64, Res.format, by decide +kernel⟩

theorem witness_RefusedWordsHaltTheQueue_1 :
    ∃ (c : Instr) (q op : Nat) (s : State) (w : Word) (r : Res), wordOf c = some (q, op) ∧ 0x40 ≤ op ∧ op ≤ 0x58 ∧ Issues s q op w ∧ vecSetup s (queueAt s q) w = .error r :=
  ⟨Instr.vadd 0, 0, 0x43, ringS [(BitVec.ofNat 64 (0x43 * 2 ^ 56 + 1 * 2 ^ 47 + 2 * 2 ^ 43 + 3 * 2 ^ 39))], BitVec.ofNat 64 (0x43 * 2 ^ 56 + 1 * 2 ^ 47 + 2 * 2 ^ 43 + 3 * 2 ^ 39), Res.align, by decide +kernel, by decide +kernel, by decide +kernel, issues_of (by decide +kernel), error_of (by decide +kernel)⟩

theorem witness_RefusedWordsHaltTheQueue_2 :
    ∃ (c : Instr) (q op : Nat) (s : State) (w : Word) (r : Res), wordOf c = some (q, op) ∧ 0x60 ≤ op ∧ op ≤ 0x62 ∧ Issues s q op w ∧ matrixSetup s q (queueAt s q) w = .error r :=
  ⟨Instr.mmul 0, 0, 0x60, ringS [(BitVec.ofNat 64 (0x60 * 2 ^ 56 + 1 * 2 ^ 47 + 1 * 2 ^ 43 + 1 * 2 ^ 39))], BitVec.ofNat 64 (0x60 * 2 ^ 56 + 1 * 2 ^ 47 + 1 * 2 ^ 43 + 1 * 2 ^ 39), errVal (matrixSetup (ringS [(BitVec.ofNat 64 (0x60 * 2 ^ 56 + 1 * 2 ^ 47 + 1 * 2 ^ 43 + 1 * 2 ^ 39))]) 0 (queueAt (ringS [(BitVec.ofNat 64 (0x60 * 2 ^ 56 + 1 * 2 ^ 47 + 1 * 2 ^ 43 + 1 * 2 ^ 39))]) 0) (BitVec.ofNat 64 (0x60 * 2 ^ 56 + 1 * 2 ^ 47 + 1 * 2 ^ 43 + 1 * 2 ^ 39))), by decide +kernel, by decide +kernel, by decide +kernel, issues_of (by decide +kernel), error_of (by decide +kernel)⟩

theorem witness_RefusedWordsHaltTheQueue_3 :
    ∃ (q : Nat) (s : State) (w : Word) (r : Res), Issues s q 0xC0 w ∧ dmaTensors s (queueAt s q) w = .error r :=
  ⟨0, typeS .dma [(BitVec.ofNat 64 (0xC0 * 2 ^ 56 + 1 * 2 ^ 47 + 3 * 2 ^ 43))], BitVec.ofNat 64 (0xC0 * 2 ^ 56 + 1 * 2 ^ 47 + 3 * 2 ^ 43), Res.align, issues_of (by decide +kernel), error_of (by decide +kernel)⟩

theorem witness_VectorWordsBegin_0 :
    ∃ (c : Instr) (q op : Nat) (s : State) (w : Word) (wk : VecWork), wordOf c = some (q, op) ∧ 0x40 ≤ op ∧ op ≤ 0x58 ∧ Issues s q op w ∧ vecSetup s (queueAt s q) w = .ok wk :=
  ⟨Instr.vadd 0, 0, 0x43, ringS [(BitVec.ofNat 64 (0x43 * 2 ^ 56 + 1 * 2 ^ 47 + 2 * 2 ^ 43 + 1 * 2 ^ 39))], BitVec.ofNat 64 (0x43 * 2 ^ 56 + 1 * 2 ^ 47 + 2 * 2 ^ 43 + 1 * 2 ^ 39), okVal (vecSetup (ringS [(BitVec.ofNat 64 (0x43 * 2 ^ 56 + 1 * 2 ^ 47 + 2 * 2 ^ 43 + 1 * 2 ^ 39))]) (queueAt (ringS [(BitVec.ofNat 64 (0x43 * 2 ^ 56 + 1 * 2 ^ 47 + 2 * 2 ^ 43 + 1 * 2 ^ 39))]) 0) (BitVec.ofNat 64 (0x43 * 2 ^ 56 + 1 * 2 ^ 47 + 2 * 2 ^ 43 + 1 * 2 ^ 39))), by decide +kernel, by decide +kernel, by decide +kernel, issues_of (by decide +kernel), ok_of (by decide +kernel)⟩

theorem witness_VectorWordsBegin_1 :
    ∃ (q : Nat) (s : State) (w : Word) (body : List Word) (i : Nat) (ch : Chain), Issues s q 0x70 w ∧ chainBody (segWords s (queueAt s q).job (queueAt s q).seg) (queueAt s q).pc = some (body, i) ∧ decodeChain false w body = some ch ∧ (chainStreams s (queueAt s q) ch).toOption.isSome = true :=
  ⟨0, segS ((BitVec.ofNat 64 (0x70 * 2 ^ 56 + 1 * 2 ^ 45 + 1 * 2 ^ 42 + 1 * 2 ^ 38 + 2 * 2 ^ 14)) :: ([BitVec.ofNat 64 (0x78 * 2 ^ 56 + 0x28 * 2 ^ 45 + 0x20 * 2 ^ 39 + 0x20 * 2 ^ 33)]) ++ [0x7200000000000000#64]) 0, BitVec.ofNat 64 (0x70 * 2 ^ 56 + 1 * 2 ^ 45 + 1 * 2 ^ 42 + 1 * 2 ^ 38 + 2 * 2 ^ 14), [BitVec.ofNat 64 (0x78 * 2 ^ 56 + 0x28 * 2 ^ 45 + 0x20 * 2 ^ 39 + 0x20 * 2 ^ 33)], 2, (decodeChain false (BitVec.ofNat 64 (0x70 * 2 ^ 56 + 1 * 2 ^ 45 + 1 * 2 ^ 42 + 1 * 2 ^ 38 + 2 * 2 ^ 14)) ([BitVec.ofNat 64 (0x78 * 2 ^ 56 + 0x28 * 2 ^ 45 + 0x20 * 2 ^ 39 + 0x20 * 2 ^ 33)])).getD default, issues_of (by decide +kernel), by decide +kernel⟩

theorem witness_VectorWordsBegin_2 :
    ∃ (q : Nat) (s : State) (w : Word) (wk : VecWork), canIssue s q 0x72 = some w ∧ wordCheck s (queueAt s q) w = none ∧ crunSetup s (queueAt s q) w = .ok wk :=
  ⟨0, after (.chain 0) (segS ((BitVec.ofNat 64 (0x70 * 2 ^ 56 + 1 * 2 ^ 45 + 1 * 2 ^ 42 + 1 * 2 ^ 38 + 2 * 2 ^ 14)) :: ([BitVec.ofNat 64 (0x78 * 2 ^ 56 + 0x28 * 2 ^ 45 + 0x20 * 2 ^ 39 + 0x20 * 2 ^ 33)]) ++ [0x7280000000000000#64]) 0), 0x7280000000000000#64, okVal (crunSetup (after (.chain 0) (segS ((BitVec.ofNat 64 (0x70 * 2 ^ 56 + 1 * 2 ^ 45 + 1 * 2 ^ 42 + 1 * 2 ^ 38 + 2 * 2 ^ 14)) :: ([BitVec.ofNat 64 (0x78 * 2 ^ 56 + 0x28 * 2 ^ 45 + 0x20 * 2 ^ 39 + 0x20 * 2 ^ 33)]) ++ [0x7280000000000000#64]) 0)) (queueAt (after (.chain 0) (segS ((BitVec.ofNat 64 (0x70 * 2 ^ 56 + 1 * 2 ^ 45 + 1 * 2 ^ 42 + 1 * 2 ^ 38 + 2 * 2 ^ 14)) :: ([BitVec.ofNat 64 (0x78 * 2 ^ 56 + 0x28 * 2 ^ 45 + 0x20 * 2 ^ 39 + 0x20 * 2 ^ 33)]) ++ [0x7280000000000000#64]) 0)) 0) 0x7280000000000000#64), by decide +kernel, by decide +kernel, ok_of (by decide +kernel)⟩

theorem witness_MatrixAndCopyWordsDispatch_0 :
    ∃ (c : Instr) (q op : Nat) (s : State) (w : Word) (wk : LaurelWork), wordOf c = some (q, op) ∧ 0x60 ≤ op ∧ op ≤ 0x62 ∧ Issues s q op w ∧ matrixSetup s q (queueAt s q) w = .ok wk :=
  ⟨Instr.mmul 0, 0, 0x60, ringS [(BitVec.ofNat 64 (0x60 * 2 ^ 56 + 4 * 2 ^ 47 + 5 * 2 ^ 43 + 6 * 2 ^ 39))], BitVec.ofNat 64 (0x60 * 2 ^ 56 + 4 * 2 ^ 47 + 5 * 2 ^ 43 + 6 * 2 ^ 39), okVal (matrixSetup (ringS [(BitVec.ofNat 64 (0x60 * 2 ^ 56 + 4 * 2 ^ 47 + 5 * 2 ^ 43 + 6 * 2 ^ 39))]) 0 (queueAt (ringS [(BitVec.ofNat 64 (0x60 * 2 ^ 56 + 4 * 2 ^ 47 + 5 * 2 ^ 43 + 6 * 2 ^ 39))]) 0) (BitVec.ofNat 64 (0x60 * 2 ^ 56 + 4 * 2 ^ 47 + 5 * 2 ^ 43 + 6 * 2 ^ 39))), by decide +kernel, by decide +kernel, by decide +kernel, issues_of (by decide +kernel), ok_of (by decide +kernel)⟩

theorem witness_MatrixAndCopyWordsDispatch_1 :
    ∃ (q : Nat) (s : State) (w : Word) (d x : Tensor), let Q := queueAt s q; Issues s q 0xC0 w ∧ dmaTensors s (queueAt s q) w = .ok (d, x) ∧ ((chanAt s (chanOf Q q)).copies.filter (fun k => k.job == Q.job)).length < 64 :=
  ⟨0, typeS .dma [(BitVec.ofNat 64 (0xC0 * 2 ^ 56 + 1 * 2 ^ 47 + 2 * 2 ^ 43 + 2 ^ 42 + 9 * 2 ^ 34))], BitVec.ofNat 64 (0xC0 * 2 ^ 56 + 1 * 2 ^ 47 + 2 * 2 ^ 43 + 2 ^ 42 + 9 * 2 ^ 34), (okVal (dmaTensors (typeS .dma [(BitVec.ofNat 64 (0xC0 * 2 ^ 56 + 1 * 2 ^ 47 + 2 * 2 ^ 43 + 2 ^ 42 + 9 * 2 ^ 34))]) (queueAt (typeS .dma [(BitVec.ofNat 64 (0xC0 * 2 ^ 56 + 1 * 2 ^ 47 + 2 * 2 ^ 43 + 2 ^ 42 + 9 * 2 ^ 34))]) 0) (BitVec.ofNat 64 (0xC0 * 2 ^ 56 + 1 * 2 ^ 47 + 2 * 2 ^ 43 + 2 ^ 42 + 9 * 2 ^ 34)))).1, (okVal (dmaTensors (typeS .dma [(BitVec.ofNat 64 (0xC0 * 2 ^ 56 + 1 * 2 ^ 47 + 2 * 2 ^ 43 + 2 ^ 42 + 9 * 2 ^ 34))]) (queueAt (typeS .dma [(BitVec.ofNat 64 (0xC0 * 2 ^ 56 + 1 * 2 ^ 47 + 2 * 2 ^ 43 + 2 ^ 42 + 9 * 2 ^ 34))]) 0) (BitVec.ofNat 64 (0xC0 * 2 ^ 56 + 1 * 2 ^ 47 + 2 * 2 ^ 43 + 2 ^ 42 + 9 * 2 ^ 34)))).2, issues_of (by decide +kernel), ok_of (by decide +kernel), by decide +kernel⟩

theorem witness_CleanBatchCommits_0 :
    ∃ (q : Nat) (s : State) (wk : VecWork), let Q := queueAt s q; let o := workBatch s Q wk; Q.work = some wk ∧ Q.bound = true ∧ Q.st = .run ∧ batchHeld s q Q.job 0 = false ∧ sampleD s.integ = none ∧ (∀ k, k < 8 → unitOut s 1 Q.die (8 * batchGroup Q wk + k) = false) ∧ preCheck s Q.job Q.die .group (workAccs s Q wk o) = .ok :=
  ⟨0, after (.vadd 0) (ringS [(BitVec.ofNat 64 (0x43 * 2 ^ 56 + 1 * 2 ^ 47 + 2 * 2 ^ 43 + 1 * 2 ^ 39))]), okVal (vecSetup (after (.vadd 0) (ringS [(BitVec.ofNat 64 (0x43 * 2 ^ 56 + 1 * 2 ^ 47 + 2 * 2 ^ 43 + 1 * 2 ^ 39))])) (queueAt (after (.vadd 0) (ringS [(BitVec.ofNat 64 (0x43 * 2 ^ 56 + 1 * 2 ^ 47 + 2 * 2 ^ 43 + 1 * 2 ^ 39))])) 0) (BitVec.ofNat 64 (0x43 * 2 ^ 56 + 1 * 2 ^ 47 + 2 * 2 ^ 43 + 1 * 2 ^ 39))), by decide +kernel⟩

theorem witness_CleanBlockPassCommits_0 :
    ∃ (die : Nat) (s : State) (i : Nat) (wk : LaurelWork), let o := laurelPass s wk.job wk; nextLaurel s die = some (i, wk) ∧ passHeld s die = false ∧ sampleD s.integ = none ∧ preCheck s wk.job die .laurel o.accs = .ok :=
  ⟨0, after (.mmul 0) (ringS [(BitVec.ofNat 64 (0x60 * 2 ^ 56 + 4 * 2 ^ 47 + 5 * 2 ^ 43 + 6 * 2 ^ 39)), 0]), 0, okVal (matrixSetup (after (.mmul 0) (ringS [(BitVec.ofNat 64 (0x60 * 2 ^ 56 + 4 * 2 ^ 47 + 5 * 2 ^ 43 + 6 * 2 ^ 39)), 0])) 0 (queueAt (after (.mmul 0) (ringS [(BitVec.ofNat 64 (0x60 * 2 ^ 56 + 4 * 2 ^ 47 + 5 * 2 ^ 43 + 6 * 2 ^ 39)), 0])) 0) (BitVec.ofNat 64 (0x60 * 2 ^ 56 + 4 * 2 ^ 47 + 5 * 2 ^ 43 + 6 * 2 ^ 39))), by decide +kernel⟩

theorem witness_DmaBlockMovesItsBytes_0 :
    ∃ (die ch : Nat) (s : State) (k : Copy), let i := 32 * die + ch; let req := reqId 2 i k.job; nextCopy s (chanAt s i) = some k ∧ isFrozen s (1 + die) req = false ∧ (bpmAt s (1 + die)).waiting.any (fun w => w.1 == req) = false ∧ preCheck s k.job die .dma (blockAccs k k.block) = .ok ∧ (blockAccs k k.block).any (pageMoving s k.job) = false ∧ bounces s k = false :=
  ⟨0, 0, after (.dmaCopy 0) (typeS .dma [(BitVec.ofNat 64 (0xC0 * 2 ^ 56 + 1 * 2 ^ 47 + 2 * 2 ^ 43 + 2 ^ 42 + 9 * 2 ^ 34))]), (nextCopy (after (.dmaCopy 0) (typeS .dma [(BitVec.ofNat 64 (0xC0 * 2 ^ 56 + 1 * 2 ^ 47 + 2 * 2 ^ 43 + 2 ^ 42 + 9 * 2 ^ 34))])) (chanAt (after (.dmaCopy 0) (typeS .dma [(BitVec.ofNat 64 (0xC0 * 2 ^ 56 + 1 * 2 ^ 47 + 2 * 2 ^ 43 + 2 ^ 42 + 9 * 2 ^ 34))])) 0)).getD default, by decide +kernel⟩

theorem witness_DmaBlockMovesItsBytes_1 :
    ∃ (q : Nat) (s : State) (w : Word), let Q := queueAt s q; Q.bound = true ∧ Q.qtype = .dma ∧ Q.st = .run ∧ Q.runAhead < 64 ∧ ((wordsAhead s q).take (Q.runAhead + 2)).any stopsRunAhead = false ∧ (wordsAhead s q)[Q.runAhead + 1]? = some w :=
  ⟨0, typeS .dma [0#64, 0#64, 0#64], 0#64, by decide +kernel⟩

theorem witness_FlagsAreSetClearedAndAwaited_0 :
    ∃ (q : Nat) (s : State) (w : Word), Issues s q 0xA0 w :=
  ⟨0, ringS [(BitVec.ofNat 64 (0xA0 * 2 ^ 56 + 5 * 2 ^ 43))], BitVec.ofNat 64 (0xA0 * 2 ^ 56 + 5 * 2 ^ 43), issues_of (by decide +kernel)⟩

theorem witness_FlagsAreSetClearedAndAwaited_1 :
    ∃ (q : Nat) (s : State) (f : Nat) (rest : List Nat), (queueAt s q).flagSets = f :: rest :=
  ⟨0, queueS .vec [] (fun Q => { Q with flagSets := [5, 6] }), 5, [6], by decide +kernel⟩

theorem witness_FlagsAreSetClearedAndAwaited_2 :
    ∃ (q : Nat) (s : State) (w : Word), Issues s q 0xA1 w :=
  ⟨0, { ringS [(BitVec.ofNat 64 (0xA1 * 2 ^ 56 + 5 * 2 ^ 43))] with comp := { (ringS [(BitVec.ofNat 64 (0xA1 * 2 ^ 56 + 5 * 2 ^ 43))]).comp with jobFlags := [(0, 0xFF)] } }, BitVec.ofNat 64 (0xA1 * 2 ^ 56 + 5 * 2 ^ 43), issues_of (by decide +kernel)⟩

theorem witness_FlagsAreSetClearedAndAwaited_3 :
    ∃ (q : Nat) (s : State) (w : Word), Issues s q 0xA2 w :=
  ⟨0, ringS [(BitVec.ofNat 64 (0xA2 * 2 ^ 56 + 5 * 2 ^ 43 + 100))], BitVec.ofNat 64 (0xA2 * 2 ^ 56 + 5 * 2 ^ 43 + 100), issues_of (by decide +kernel)⟩

theorem witness_FlagsAreSetClearedAndAwaited_4 :
    ∃ (q : Nat) (s : State) (f : Nat), (queueAt s q).st = .wait ∧ (queueAt s q).wait = .flag f ∧ jobFlag s (queueAt s q).job f = true ∧ q < s.comp.queues.length :=
  ⟨0, { queueS .vec [0, 0] (fun Q => { Q with st := .wait, wait := .flag 5 }) with comp := { (queueS .vec [0, 0] (fun Q => { Q with st := .wait, wait := .flag 5 })).comp with jobFlags := [(0, 0xFF)] } }, 5, by decide +kernel⟩

theorem witness_FlagsAreSetClearedAndAwaited_5 :
    ∃ (q : Nat) (s : State) (f : Nat), (queueAt s q).st = .wait ∧ (queueAt s q).wait = .flag f ∧ (queueAt s q).deadline = 0 ∧ q < s.comp.queues.length :=
  ⟨0, queueS .vec [0, 0] (fun Q => { Q with st := .wait, wait := .flag 5 }), 5, by decide +kernel⟩

theorem witness_FencesWaitForOutstandingWork_0 :
    ∃ (q : Nat) (s : State) (w : Word), Issues s q 0xA3 w :=
  ⟨0, ringS [(BitVec.ofNat 64 (0xA3 * 2 ^ 56)), 0], BitVec.ofNat 64 (0xA3 * 2 ^ 56), issues_of (by decide +kernel)⟩

theorem witness_FencesWaitForOutstandingWork_1 :
    ∃ (q : Nat) (s : State), (queueAt s q).st = .wait ∧ (queueAt s q).wait = .fence ∧ outstanding s q = false ∧ q < s.comp.queues.length :=
  ⟨0, queueS .vec [0, 0] (fun Q => { Q with st := .wait, wait := .fence }), by decide +kernel⟩

theorem witness_PreemptionStopsAtARestartPoint_0 :
    ∃ (q : Nat) (s : State), (queueAt s q).st = .run ∧ (queueAt s q).stopAsked = true ∧ atRestartPoint (queueAt s q) = true ∧ q < s.comp.queues.length :=
  ⟨0, queueS .vec [0, 0] (fun Q => { Q with stopAsked := true }), by decide +kernel⟩

theorem witness_RefusedWordsHaltTheQueue_4 :
    ∃ (q : Nat) (s : State) (w : Word) (body : List Word) (i : Nat) (ch : Chain) (r : Res), Issues s q 0x70 w ∧ chainBody (segWords s (queueAt s q).job (queueAt s q).seg) (queueAt s q).pc = some (body, i) ∧ decodeChain false w body = some ch ∧ chainStreams s (queueAt s q) ch = .error r :=
  ⟨0, segS ((BitVec.ofNat 64 (0x70 * 2 ^ 56 + 1 * 2 ^ 45 + 1 * 2 ^ 42 + 1 * 2 ^ 38 + 9 * 2 ^ 14)) :: ([BitVec.ofNat 64 (0x78 * 2 ^ 56 + 0x28 * 2 ^ 45 + 0x20 * 2 ^ 39 + 0x20 * 2 ^ 33)]) ++ [0x7200000000000000#64]) 0, BitVec.ofNat 64 (0x70 * 2 ^ 56 + 1 * 2 ^ 45 + 1 * 2 ^ 42 + 1 * 2 ^ 38 + 9 * 2 ^ 14), [BitVec.ofNat 64 (0x78 * 2 ^ 56 + 0x28 * 2 ^ 45 + 0x20 * 2 ^ 39 + 0x20 * 2 ^ 33)], 2, (decodeChain false (BitVec.ofNat 64 (0x70 * 2 ^ 56 + 1 * 2 ^ 45 + 1 * 2 ^ 42 + 1 * 2 ^ 38 + 9 * 2 ^ 14)) ([BitVec.ofNat 64 (0x78 * 2 ^ 56 + 0x28 * 2 ^ 45 + 0x20 * 2 ^ 39 + 0x20 * 2 ^ 33)])).getD default, errVal (chainStreams (segS ((BitVec.ofNat 64 (0x70 * 2 ^ 56 + 1 * 2 ^ 45 + 1 * 2 ^ 42 + 1 * 2 ^ 38 + 9 * 2 ^ 14)) :: ([BitVec.ofNat 64 (0x78 * 2 ^ 56 + 0x28 * 2 ^ 45 + 0x20 * 2 ^ 39 + 0x20 * 2 ^ 33)]) ++ [0x7200000000000000#64]) 0) (queueAt (segS ((BitVec.ofNat 64 (0x70 * 2 ^ 56 + 1 * 2 ^ 45 + 1 * 2 ^ 42 + 1 * 2 ^ 38 + 9 * 2 ^ 14)) :: ([BitVec.ofNat 64 (0x78 * 2 ^ 56 + 0x28 * 2 ^ 45 + 0x20 * 2 ^ 39 + 0x20 * 2 ^ 33)]) ++ [0x7200000000000000#64]) 0) 0) ((decodeChain false (BitVec.ofNat 64 (0x70 * 2 ^ 56 + 1 * 2 ^ 45 + 1 * 2 ^ 42 + 1 * 2 ^ 38 + 9 * 2 ^ 14)) ([BitVec.ofNat 64 (0x78 * 2 ^ 56 + 0x28 * 2 ^ 45 + 0x20 * 2 ^ 39 + 0x20 * 2 ^ 33)])).getD default)), issues_of (by decide +kernel), by decide +kernel⟩

theorem witness_CallCollWaitsOrGoesOn_0_absent :
    ∃ (q : Nat) (s : State) (w : Word), Issues s q 0xB0 w :=
  ⟨0, typeS .coll [0xB000000000000001#64], 0xB000000000000001#64, issues_of (by decide +kernel)⟩

theorem witness_TieredPagesMove_0 :
    ∃ (q : Nat) (s : State) (x : TierFault) (pg : Nat), s.comp.tierFaults.find? (fun t => t.queue == q && !t.reserved) = some x ∧ x.pages = [pg] ∧ (framesOf s x.job x.die).any (fun f => f.st == .resident pg) = false ∧ (framesOf s x.job x.die).all (fun f => f.st == .free && f.heldBy.isEmpty) = true ∧ framesOf s x.job x.die ≠ [] :=
  ⟨0, { runS with comp := { runS.comp with tierFaults := [(({ queue := 0, job := 0, die := 0, pages := [1] } : TierFault))], frames := [(0, [{ hbmPage := 6 }])] } }, ({ queue := 0, job := 0, die := 0, pages := [1] } : TierFault), 1, by decide +kernel⟩

theorem witness_TieredPagesMove_1 :
    ∃ (die job i : Nat) (s : State) (f : Frame) (old new q : Nat), (framesOf s job die)[i]? = some f ∧ f.st = .writeBack old new q :=
  ⟨0, 0, 0, { runS with comp := { runS.comp with frames := [(0, [(({ hbmPage := 6, st := .writeBack 512 513 0, dirty := true } : Frame))])] } }, ({ hbmPage := 6, st := .writeBack 512 513 0, dirty := true } : Frame), 512, 513, 0, by decide +kernel⟩

theorem witness_TieredPagesMove_2 :
    ∃ (die job i : Nat) (s : State) (f : Frame) (pg q : Nat), (framesOf s job die)[i]? = some f ∧ f.st = .filling pg q :=
  ⟨0, 0, 0, { runS with now := 5, comp := { runS.comp with frames := [(0, [(({ hbmPage := 6, st := .filling 512 0, dirty := true } : Frame))])] } }, ({ hbmPage := 6, st := .filling 512 0, dirty := true } : Frame), 512, 0, by decide +kernel⟩

theorem witness_UnitsThatFailTheLinkChecks_0_head :
    ∃ (c : Instr) (l p : Nat) (u : LinkUnit) (s : State), unitOf c = some (l, u) ∧ portOf s l = some p ∧ (laneAt s l).st = .up ∧ unitHeaderOk u = false :=
  ⟨Instr.dataFrame 4 (badHead 0 (rawU 0x140 0)), 4, 4, asType 0 (badHead 0 (rawU 0x140 0)), fabS, rfl, by decide +kernel, by decide +kernel, bad_header⟩

theorem witness_UnitsThatFailTheLinkChecks_0_crc :
    ∃ (c : Instr) (l p : Nat) (u : LinkUnit) (s : State), unitOf c = some (l, u) ∧ portOf s l = some p ∧ (laneAt s l).st = .up ∧ unitHeaderOk u = true ∧ crc32c u.payload ≠ u.crc ∧ isLinkLocal u.typ = false :=
  ⟨Instr.dataFrame 4 (badCrc 0 (unitU 0 0x140 {} [])), 4, 4, asType 0 (badCrc 0 (unitU 0 0x140 {} [])), fabS, rfl, by decide +kernel, by decide +kernel, (bad_crc (by decide +kernel)).1, (bad_crc (t := 0) (by decide +kernel)).2, by decide +kernel⟩

theorem witness_UnitsThatFailTheLinkChecks_0_crcLocal :
    ∃ (c : Instr) (l p : Nat) (u : LinkUnit) (s : State), unitOf c = some (l, u) ∧ portOf s l = some p ∧ (laneAt s l).st = .up ∧ unitHeaderOk u = true ∧ crc32c u.payload ≠ u.crc ∧ isLinkLocal u.typ = true :=
  ⟨Instr.linkNak 4 (badCrc 9 (unitU 9 0 {} [0, 1])), 4, 4, asType 9 (badCrc 9 (unitU 9 0 {} [0, 1])), fabS, rfl, by decide +kernel, by decide +kernel, (bad_crc (by decide +kernel)).1, (bad_crc (t := 9) (by decide +kernel)).2, by decide +kernel⟩

theorem witness_UnitsThatFailTheLinkChecks_0_gap :
    ∃ (c : Instr) (l p : Nat) (u : LinkUnit) (s : State), let L := laneAt s l; let d := (u.linkSeq + 1024 - L.rxExpect) % 1024; unitOf c = some (l, u) ∧ portOf s l = some p ∧ (laneAt s l).st = .up ∧ unitHeaderOk u = true ∧ crc32c u.payload = u.crc ∧ isLinkLocal u.typ = false ∧ d ≠ 0 :=
  ⟨Instr.dataFrame 4 (unitU 0 0x140 { linkSeq := 3 } []), 4, 4, asType 0 (unitU 0 0x140 { linkSeq := 3 } []), fabS, rfl, by decide +kernel, by decide +kernel, (sealed_of (by decide +kernel)).1, (sealed_of (by decide +kernel)).2, by decide +kernel⟩

theorem witness_UnitsThatFailTheLinkChecks_0_old :
    ∃ (c : Instr) (l p : Nat) (u : LinkUnit) (s : State), let L := laneAt s l; let d := (u.linkSeq + 1024 - L.rxExpect) % 1024; unitOf c = some (l, u) ∧ portOf s l = some p ∧ (laneAt s l).st = .up ∧ unitHeaderOk u = true ∧ crc32c u.payload = u.crc ∧ isLinkLocal u.typ = false ∧ d ≠ 0 :=
  ⟨Instr.dataFrame 4 (unitU 0 0x140 { linkSeq := 1023 } []), 4, 4, asType 0 (unitU 0 0x140 { linkSeq := 1023 } []), fabS, rfl, by decide +kernel, by decide +kernel, (sealed_of (by decide +kernel)).1, (sealed_of (by decide +kernel)).2, by decide +kernel⟩

theorem witness_UnitsThatFailTheLinkChecks_1 :
    ∃ (l p : Nat) (s : State), portOf s l = some p ∧ (laneAt s l).st = .up :=
  ⟨4, 4, fabS, by decide +kernel⟩

theorem witness_AcceptedUnitsAreDiscardedAndCounted_0 :
    ∃ (c : Instr) (l p : Nat) (u : LinkUnit) (s : State) (k : Nat), unitOf c = some (l, u) ∧ Accepted s l p u ∧ discardCode s p l u = some k :=
  ⟨Instr.dataFrame 4 (unitU 0 0x150 {} []), 4, 4, asType 0 (unitU 0 0x150 {} []), fabS, 8, rfl, accepted_unit (by decide +kernel) (by decide +kernel), by decide +kernel⟩

theorem witness_UnitsArePassedOn_0 :
    ∃ (c : Instr) (l p : Nat) (u : LinkUnit) (s : State) (q : Nat), unitOf c = some (l, u) ∧ Delivered s l p u (.egress q) ∧ (u.cell = true → slotsUsed s q < 32) :=
  ⟨Instr.dataFrame 4 (unitU 0 8 {} [1, 2]), 4, 4, asType 0 (unitU 0 8 {} [1, 2]), fabS, 8, rfl, delivered_unit (by decide +kernel) (by decide +kernel) (by decide +kernel), by decide +kernel⟩

theorem witness_LinkLocalUnitsAct_0 :
    ∃ (l p : Nat) (u : LinkUnit) (s : State), let v := asType 8 u; portOf s l = some p ∧ ((laneAt s l).st = .up ∨ ((laneAt s l).st = .ident ∧ (laneAt s l).peerOk = true)) ∧ unitHeaderOk v = true ∧ crc32c u.payload = u.crc ∧ typeAllowed s l v = true :=
  ⟨4, 4, unitU 8 0 {} (leBytes 4 17 ++ List.replicate 28 0 ++ leBytes 2 (32768 + 1)), lane4 (fun L => { L with retry := [⟨{ linkSeq := 0 }, 0⟩, ⟨{ linkSeq := 1 }, 0⟩, ⟨{ linkSeq := 2 }, 0⟩] }) fabS, by decide +kernel, by decide +kernel, (sealed_of (by decide +kernel)).1, crc_mkU _ _, by decide +kernel⟩

theorem witness_LinkLocalUnitsAct_1 :
    ∃ (l p : Nat) (u : LinkUnit) (s : State) (i : Nat), let v := asType 9 u; let m := p + leVal (u.payload.take 1) % 4; let L := laneAt s m; let from' := leVal (slice u.payload 2 2) % 1024; let rounds := if L.roundFrom = from' then L.rounds else 0; portOf s l = some p ∧ (laneAt s l).st = .up ∧ unitHeaderOk v = true ∧ crc32c u.payload = u.crc ∧ typeAllowed s l v = true ∧ L.retry.findIdx? (fun r => r.unit.linkSeq == from') = some i ∧ rounds < max 1 L.nakLimit :=
  ⟨4, 4, unitU 9 0 {} [0, 1, 1, 0], lane4 (fun L => { L with retry := [⟨{ linkSeq := 0 }, 0⟩, ⟨{ linkSeq := 1 }, 0⟩, ⟨{ linkSeq := 2 }, 0⟩] }) fabS, 1, by decide +kernel, by decide +kernel, (sealed_of (by decide +kernel)).1, crc_mkU _ _, by decide +kernel⟩

theorem witness_LinkLocalUnitsAct_2 :
    ∃ (l p : Nat) (u : LinkUnit) (s : State), let v := asType 10 u; portOf s l = some p ∧ (laneAt s l).st = .up ∧ unitHeaderOk v = true ∧ crc32c u.payload = u.crc ∧ typeAllowed s l v = true ∧ keepsTime s = false :=
  ⟨4, 4, unitU 10 0 {} [9, 1], { fabS with mgt := { fabS.mgt with st := .config } }, by decide +kernel, by decide +kernel, (sealed_of (by decide +kernel)).1, crc_mkU _ _, by decide +kernel⟩

theorem witness_ControlUnitsAct_0 :
    ∃ (l p : Nat) (u : LinkUnit) (s : State) (ep : Nat) (o : Outp) (i : Nat), let v := asType 3 u; let c := collAt s u.job ep u.ordinal; Delivered s l p v .control ∧ epochOf s u.job u.epoch = some ep ∧ c.aborted = false ∧ answeredOut c v = some o ∧ answering o (some p) = some i :=
  ⟨4, 4, unitU 3 0x1FF { ordinal := 7 } (leBytes 8 (crc64 [1, 2, 3])), setColl fabS 0 0 7 (fun c => { c with eligible := true, outputs := [(({ lo := 0, hi := 2, chunk := 0, bytes := [1, 2, 3], payload := 256, check := 0, closed := true, consumers := [{ route := 4 * 2 ^ 67, cls := 1, sentAt := some 0 }, { route := 8 * 2 ^ 67, cls := 1, sentAt := some 0 }] } : Outp))] }), 0, ({ lo := 0, hi := 2, chunk := 0, bytes := [1, 2, 3], payload := 256, check := 0, closed := true, consumers := [{ route := 4 * 2 ^ 67, cls := 1, sentAt := some 0 }, { route := 8 * 2 ^ 67, cls := 1, sentAt := some 0 }] } : Outp), 0, delivered_unit (by decide +kernel) (by decide +kernel) (by decide +kernel), by decide +kernel⟩

theorem witness_ControlUnitsAct_1 :
    ∃ (l p : Nat) (u : LinkUnit) (s : State) (ep : Nat) (o : Outp) (i : Nat) (k : Consumer), let v := asType 4 u; let c := collAt s u.job ep u.ordinal; Delivered s l p v .control ∧ epochOf s u.job u.epoch = some ep ∧ c.aborted = false ∧ answeredOut c v = some o ∧ answering o (some p) = some i ∧ o.consumers[i]? = some k ∧ o.failures < 2 :=
  ⟨4, 4, unitU 4 0x1FF { ordinal := 7 } (leBytes 8 (crc64 [1, 2, 3]) ++ [1]), setColl fabS 0 0 7 (fun c => { c with eligible := true, outputs := [(({ lo := 0, hi := 2, chunk := 0, bytes := [1, 2, 3], payload := 256, check := 0, closed := true, consumers := [{ route := 4 * 2 ^ 67, cls := 1, sentAt := some 0 }, { route := 8 * 2 ^ 67, cls := 1, sentAt := some 0 }] } : Outp))] }), 0, ({ lo := 0, hi := 2, chunk := 0, bytes := [1, 2, 3], payload := 256, check := 0, closed := true, consumers := [{ route := 4 * 2 ^ 67, cls := 1, sentAt := some 0 }, { route := 8 * 2 ^ 67, cls := 1, sentAt := some 0 }] } : Outp), 0, ({ route := 4 * 2 ^ 67, cls := 1, sentAt := some 0 } : Consumer), delivered_unit (by decide +kernel) (by decide +kernel) (by decide +kernel), by decide +kernel⟩

theorem witness_ControlUnitsAct_2 :
    ∃ (l p : Nat) (u : LinkUnit) (s : State) (ep : Nat), let v := asType 5 u; let c := collAt s u.job ep u.ordinal; let i := inpAt c u.rank u.chunk; Delivered s l p v .control ∧ epochOf s u.job u.epoch = some ep ∧ c.aborted = false ∧ i.acked = false :=
  ⟨4, 4, unitU 5 0x1FF { ordinal := 7, inject := 9, rank := 1 } [], setColl { fabS with fabricTime := 20 } 0 0 7 (fun c => { c with eligible := true, inputs := [{ rank := 1, chunk := 0, frames := [⟨0, [1], 5, false, 0⟩, ⟨1, [1], 15, false, 0⟩] }] }), 0, delivered_unit (by decide +kernel) (by decide +kernel) (by decide +kernel), by decide +kernel⟩

theorem witness_ControlUnitsAct_3 :
    ∃ (l p : Nat) (u : LinkUnit) (s : State) (ep : Nat) (e : CollEntry), let v := asType 6 u; let ord := leVal (u.payload.take 4); let key := (leVal (slice u.payload 6 2), leVal (slice u.payload 8 8)); let c := collAt s u.job ep ord; Delivered s l p v .control ∧ epochOf s u.job u.epoch = some ep ∧ c.aborted = false ∧ c.aborts.contains key = false ∧ entryOf s u.job ord = some e :=
  ⟨4, 4, unitU 6 0x1FF {} (leBytes 4 7 ++ [0, 0, 5, 0] ++ leBytes 8 77), setColl fabS 0 0 7 (fun c => { c with eligible := true, inputs := [{ rank := 1, chunk := 0, frames := [⟨0, [1], 5, false, 0⟩] }] }), 0, tEntry, delivered_unit (by decide +kernel) (by decide +kernel) (by decide +kernel), by decide +kernel⟩

theorem witness_ControlUnitsAct_4_up :
    ∃ (l p : Nat) (u : LinkUnit) (s : State), let v := asType 11 u; let epoch := leVal (u.payload.take 8); Delivered s l p v .control ∧ pastWindow s u.job epoch = false :=
  ⟨4, 4, unitU 11 0x1FF { rank := 3 } [0, 0], lane4 (fun L => { L with idleWord := 2 ^ 59 }) fabS, delivered_unit (by decide +kernel) (by decide +kernel) (by decide +kernel), by decide +kernel⟩

theorem witness_ControlUnitsAct_5 :
    ∃ (l p : Nat) (u : LinkUnit) (s : State), let v := asType 13 u; let g (off n : Nat) : Nat := leVal (slice u.payload off n); let sc := s.fab.tim.sched; Delivered s l p v .control ∧ sc.held.any (fun h => h.1 == g 24 4) = false ∧ stretchValid sc (g 0 8) (g 8 8) (g 16 8) (g 28 1 % 4) = true ∧ s.fabricTime + 10000 ≤ g 8 8 :=
  ⟨4, 4, unitU 13 0x1FF {} (leBytes 8 5 ++ leBytes 8 200000 ++ leBytes 8 1000 ++ leBytes 4 77 ++ [1]), setTim fabS (fun t => { t with sched := { t.sched with loaded := true, active := true, schedId := 5, cycleNs := 1000 } }), delivered_unit (by decide +kernel) (by decide +kernel) (by decide +kernel), by decide +kernel⟩

theorem witness_CollectiveUnitsAreHeld_0 :
    ∃ (c : Instr) (n l p : Nat) (u : LinkUnit) (s : State) (q d ep : Nat) (e : CollEntry), let v := asType n u; let C := collAt s u.job ep e.ordinal; let i := inpAt C u.rank u.chunk; (c = .dataFrame l u ∧ n = 0 ∨ c = .countsFrame l u ∧ n = 7) ∧ Delivered s l p v (.die q d) ∧ TakesColl s l v ep e ∧ heldCheck s l ep e v = none ∧ i.digest = none ∧ StagingRoom s (1 + entryDie e) q u.job u.length :=
  ⟨Instr.dataFrame 4 (unitU 0 0x140 { ordinal := 7, rank := 1, chunk := 1, inject := 3 } [1, 2]), 0, 4, 4, unitU 0 0x140 { ordinal := 7, rank := 1, chunk := 1, inject := 3 } [1, 2], { fabS with fabricTime := 10 }, 0x140, 0, 0, tEntry, Or.inl ⟨rfl, rfl⟩, delivered_unit (by decide +kernel) (by decide +kernel) (by decide +kernel), takes_of (by decide +kernel), by decide +kernel, by decide +kernel, staging_of (by decide +kernel)⟩

theorem witness_CollectiveUnitsAreHeld_1 :
    ∃ (l p : Nat) (u : LinkUnit) (s : State) (q d ep : Nat) (e : CollEntry), let v := asType 2 u; let C := collAt s u.job ep e.ordinal; let i := inpAt C u.rank u.chunk; Delivered s l p v (.die q d) ∧ TakesColl s l v ep e ∧ digestCheck s ep e v = none ∧ (List.range (leVal (slice u.payload 8 2))).any (fun k => !(i.frames.any (fun f => f.seq == k))) = true ∧ StagingRoom s (1 + entryDie e) q u.job u.length :=
  ⟨4, 4, unitU 2 0x140 { ordinal := 7, rank := 1, chunk := 1, inject := 3 } (leBytes 8 99 ++ [1, 0, 1] ++ List.replicate 5 0 ++ [0, 1]), { fabS with fabricTime := 10 }, 0x140, 0, 0, tEntry, delivered_unit (by decide +kernel) (by decide +kernel) (by decide +kernel), takes_of (by decide +kernel), by decide +kernel, by decide +kernel, staging_of (by decide +kernel)⟩

theorem witness_CollectiveUnitsAreHeld_2 :
    ∃ (l p : Nat) (u : LinkUnit) (s : State) (q d ep : Nat) (e : CollEntry), let v := asType 1 u; let C := collAt s u.job ep e.ordinal; Delivered s l p v (.die q d) ∧ TakesColl s l v ep e ∧ expressDiffers e v = false ∧ C.express.any (fun x => x.rank == u.rank) = false ∧ StagingRoom s (1 + entryDie e) q u.job 256 :=
  ⟨4, 4, unitU 1 0x140 { ordinal := 9, rank := 1, ofc := 3 } [1, 2, 3], { fabS with fabricTime := 10 }, 0x140, 0, 0, xEntry, delivered_unit (by decide +kernel) (by decide +kernel) (by decide +kernel), takes_of (by decide +kernel), by decide +kernel, by decide +kernel, staging_of (by decide +kernel)⟩

theorem witness_TwinFramesAct_0 :
    ∃ (l p : Nat) (u : LinkUnit) (s : State) (q d ep : Nat) (x : StateEntry), let v := asTwin 0 u; Delivered s l p v (.die q d) ∧ s.fab.twin.st ≠ .detached ∧ epochOf s u.job u.epoch = some ep ∧ stateWhere s u.job (fun x => (x.rep || s.fab.twin.st == .syncing) && x.die == d && x.gradOrdinal == u.ordinal && x.chunkFirst ≤ u.chunk && u.chunk < x.chunkFirst + x.chunkCount) = some x ∧ s.fab.twin.grads.any (fun g => g.job == u.job && g.epoch == ep && g.ordinal == u.ordinal && g.chunk == u.chunk && g.seq == u.flowSeq) = false :=
  ⟨256, 256, twinU 0 0x140 { ordinal := 7, chunk := 1 } [1, 2, 3], shardS, 0x140, 0, 0, rShard, delivered_twin (by decide) (by decide +kernel) (by decide +kernel) (by decide +kernel), by decide +kernel⟩

theorem witness_TwinFramesAct_1 :
    ∃ (l p : Nat) (u : LinkUnit) (s : State) (i : Nat) (x : StateEntry), let v := asTwin 1 u; let listed (i : Nat) := stateWhere s u.job (fun x => x.twinShard == leVal (slice u.payload (16 + 8 * i) 2) && (x.rep || s.fab.twin.st == .syncing)); Delivered s l p v .service ∧ s.fab.twin.st ≠ .detached ∧ i < leVal (slice u.payload 8 2) ∧ listed i = some x ∧ (∀ j y, i < j → j < leVal (slice u.payload 8 2) → listed j = some y → y.shard ≠ x.shard) ∧ s.coll.shards.any (fun h => h.job == u.job && h.id == x.shard) = true :=
  ⟨256, 256, twinU 1 0x180 {} (leBytes 8 5 ++ leBytes 8 1 ++ leBytes 2 3 ++ [0, 0] ++ leBytes 4 8), shardS, 0, rShard, delivered_twin (by decide) (by decide +kernel) (by decide +kernel) (by decide +kernel), by decide +kernel, by decide +kernel, by decide +kernel, one_listed (by decide +kernel), by decide +kernel⟩

theorem witness_TwinFramesAct_2 :
    ∃ (l p : Nat) (u : LinkUnit) (s : State), let v := asTwin 2 u; Delivered s l p v .service ∧ s.fab.twin.st ≠ .detached ∧ leVal (slice u.payload 8 1) = 0 :=
  ⟨256, 256, twinU 2 0x180 {} (leBytes 8 5), shardS, delivered_twin (by decide) (by decide +kernel) (by decide +kernel) (by decide +kernel), by decide +kernel⟩

theorem witness_TwinFramesAct_3 :
    ∃ (l p : Nat) (u : LinkUnit) (s : State), let v := asTwin 3 u; Delivered s l p v .service :=
  ⟨256, 256, twinU 3 0x180 {} [1, 2], shardS, delivered_twin (by decide) (by decide +kernel) (by decide +kernel) (by decide +kernel)⟩

theorem witness_TwinFramesAct_4 :
    ∃ (l p : Nat) (u : LinkUnit) (s : State), let v := asTwin 4 u; Delivered s l p v .service :=
  ⟨256, 256, twinU 4 0x180 {} [3], shardS, delivered_twin (by decide) (by decide +kernel) (by decide +kernel) (by decide +kernel)⟩

theorem witness_TwinFramesAct_5 :
    ∃ (l p : Nat) (u : LinkUnit) (s : State) (q d : Nat) (x : StateEntry), let v := asTwin 5 u; let plane := natField u.ordinal 15 14; let page := u.chunk / 512; Delivered s l p v (.die q d) ∧ s.fab.twin.st = .syncing ∧ stateWhere s u.job (fun x => x.twinShard == natField u.ordinal 31 16 && x.die == d) = some x ∧ page < planePages x plane :=
  ⟨256, 256, twinU 5 0x140 { ordinal := 2 * 65536, chunk := 511 } (List.replicate 4096 7), twinS .syncing, 0x140, 0, tShard, delivered_twin (by decide) (by decide +kernel) (by decide +kernel) (by decide +kernel), by decide +kernel⟩

theorem witness_TwinFramesAct_6 :
    ∃ (l p : Nat) (u : LinkUnit) (s : State), let v := asTwin 6 u; Delivered s l p v .service ∧ u.ordinal = 0xFFFFFFFF :=
  ⟨256, 256, twinU 6 0x180 { ordinal := 0xFFFFFFFF, chunk := 1 } [], { shardS with mgt := { shardS.mgt with nor := { shardS.mgt.nor with firmware := List.replicate 10000 5 } } }, delivered_twin (by decide) (by decide +kernel) (by decide +kernel) (by decide +kernel), by decide +kernel⟩

theorem witness_TwinFramesAct_7 :
    ∃ (l p : Nat) (u : LinkUnit) (s : State), let v := asTwin 6 u; Delivered s l p v .service ∧ u.ordinal ≠ 0xFFFFFFFF ∧ s.mgt.st = .recovery ∧ u.chunk < u.ordinal :=
  ⟨256, 256, twinU 6 0x180 { ordinal := 3, chunk := 1 } [1], { shardS with mgt := { shardS.mgt with st := .recovery } }, delivered_twin (by decide) (by decide +kernel) (by decide +kernel) (by decide +kernel), by decide +kernel⟩

theorem witness_LanesSendTheirUnits_0 :
    ∃ (l : Nat) (s : State) (u : LinkUnit) (rest : List LinkUnit), l < 272 ∧ (laneAt s l).tx = none ∧ (laneAt s l).st = .up ∧ (laneAt s l).resend = u :: rest :=
  ⟨4, lane4 (fun L => { L with resend := (rawU 8 1) :: ([rawU 8 2]) }) fabS, rawU 8 1, [rawU 8 2], by decide +kernel⟩

theorem witness_LanesSendTheirUnits_1 :
    ∃ (l : Nat) (s : State) (u : LinkUnit) (rest : List LinkUnit), l < 272 ∧ (laneAt s l).tx = none ∧ ((laneAt s l).st = .up ∨ (laneAt s l).st = .ident) ∧ (laneAt s l).resend = [] ∧ (laneAt s l).locals = u :: rest :=
  ⟨4, lane4 (fun L => { L with locals := (rawU 0 1) :: ([rawU 0 2]) }) fabS, rawU 0 1, [rawU 0 2], by decide +kernel⟩

theorem witness_LanesSendTheirUnits_2 :
    ∃ (l p : Nat) (s : State) (e : OutEntry), let s' := dropAged (markLate s p) p; l < 272 ∧ (laneAt s l).tx = none ∧ (laneAt s l).resend = [] ∧ (laneAt s l).locals = [] ∧ portOf s l = some p ∧ portUp s p = true ∧ selectUnit s' p = some e ∧ (laneAt s l).retry.length < 512 ∧ retryBytes (laneAt s l) + unitSize e.unit ≤ 65536 :=
  ⟨4, 4, enqueue fabS 4 (({ unit := rawU 8 1, alloc := some 3 } : OutEntry)), ({ unit := rawU 8 1, alloc := some 3 } : OutEntry), by decide +kernel⟩

theorem witness_LanesSendTheirUnits_3 :
    ∃ (l : Nat) (s : State) (e : OutEntry), let s' := dropAged (markLate s l) l; 272 ≤ l ∧ portIdOk l = true ∧ (laneAt s l).tx = none ∧ selectUnit s' l = some e :=
  ⟨0x140, enqueue fabS 0x140 (({ unit := rawU 0x140 1 } : OutEntry)), ({ unit := rawU 0x140 1 } : OutEntry), by decide +kernel⟩

theorem witness_LanesSendTheirUnits_4 :
    ∃ (l : Nat) (s : State) (x : TxRec), l < 272 ∧ (laneAt s l).tx = some x ∧ (x.again = true ∨ x.alloc = none) :=
  ⟨4, lane4 (fun L => { L with tx := some (({ unit := {}, again := true } : TxRec)) }) fabS, ({ unit := {}, again := true } : TxRec), by decide +kernel⟩

theorem witness_LanesSendTheirUnits_5 :
    ∃ (l : Nat) (s : State) (x : TxRec) (id : Nat) (a : Alloc), l < 272 ∧ (laneAt s l).tx = some x ∧ x.again = false ∧ x.alloc = some id ∧ allocAt s 0 id = some a ∧ a.req / 2 ^ 13 % 8 = 0 :=
  ⟨4, lane4 (fun L => { L with tx := some (({ unit := {}, alloc := some 3 } : TxRec)) }) (setBpm fabS 0 (fun B => { B with allocs := [(({ id := 3, pool := 0, req := reqId 0 8 0, units := 1 } : Alloc))] })), ({ unit := {}, alloc := some 3 } : TxRec), 3, ({ id := 3, pool := 0, req := reqId 0 8 0, units := 1 } : Alloc), by decide +kernel⟩

theorem witness_LanesSendTheirUnits_6 :
    ∃ (l : Nat) (s : State) (x : TxRec) (id : Nat) (a : Alloc) (v : Nat) (w : Violation), l < 272 ∧ (laneAt s l).tx = some x ∧ x.again = false ∧ x.alloc = some id ∧ allocAt s 0 id = some a ∧ pointerCheck (bpmAt s 0) a.req a.pool (v % 2 ^ 20) = some w :=
  ⟨4, lane4 (fun L => { L with tx := some (({ unit := {}, alloc := some 3 } : TxRec)) }) (setBpm fabS 0 (fun B => { B with allocs := [(({ id := 3, pool := 0, req := reqId 0 8 0, units := 1 } : Alloc))] })), ({ unit := {}, alloc := some 3 } : TxRec), 3, ({ id := 3, pool := 0, req := reqId 0 8 0, units := 1 } : Alloc), 0xFFFFF, Violation.range, by decide +kernel⟩

theorem witness_LanesSendTheirUnits_7 :
    ∃ (l : Nat) (s : State) (x : TxRec) (d : Dest) (s1 : State) (keep : List Nat), 272 ≤ l ∧ (laneAt s l).tx = some x ∧ localDest l x.unit s = some d ∧ place s l l d x.unit false = .ok s1 keep :=
  ⟨0x140, setLane fabS 0x140 (fun L => { L with tx := some (({ unit := { rawU 0x140 1 with ordinal := 7, rank := 1, chunk := 1 } } : TxRec)) }), ({ unit := { rawU 0x140 1 with ordinal := 7, rank := 1, chunk := 1 } } : TxRec), Dest.die 0x140 0, (placedVal (place (setLane fabS 0x140 (fun L => { L with tx := some (({ unit := { rawU 0x140 1 with ordinal := 7, rank := 1, chunk := 1 } } : TxRec)) })) 0x140 0x140 (Dest.die 0x140 0) (({ unit := { rawU 0x140 1 with ordinal := 7, rank := 1, chunk := 1 } } : TxRec)).unit false)).1, (placedVal (place (setLane fabS 0x140 (fun L => { L with tx := some (({ unit := { rawU 0x140 1 with ordinal := 7, rank := 1, chunk := 1 } } : TxRec)) })) 0x140 0x140 (Dest.die 0x140 0) (({ unit := { rawU 0x140 1 with ordinal := 7, rank := 1, chunk := 1 } } : TxRec)).unit false)).2, by decide +kernel, by decide +kernel, by decide +kernel, placed_of (by decide +kernel)⟩

theorem witness_RetryAndCreditKeepGoing_0 :
    ∃ (l : Nat) (s : State) (r : RetryRec) (rest : List RetryRec), let L := laneAt s l; let rounds := if L.roundFrom = r.unit.linkSeq then L.rounds else 0; L.retry = r :: rest ∧ L.st = .up ∧ r.sentAt + 20000 ≤ s.now ∧ L.resend = [] ∧ rounds < max 1 L.nakLimit :=
  ⟨4, lane4 (fun L => { L with retry := ((⟨rawU 8 1, 0⟩ : RetryRec)) :: ([(⟨rawU 8 2, 5⟩ : RetryRec)]) }) { fabS with now := 20000 }, (⟨rawU 8 1, 0⟩ : RetryRec), [(⟨rawU 8 2, 5⟩ : RetryRec)], by decide +kernel⟩

theorem witness_RetryAndCreditKeepGoing_1 :
    ∃ (l : Nat) (s : State) (r : RetryRec) (rest : List RetryRec), let L := laneAt s l; L.retry = r :: rest ∧ L.st = .up ∧ r.sentAt + 20000 ≤ s.now ∧ L.resend = [] ∧ L.roundFrom = r.unit.linkSeq ∧ max 1 L.nakLimit ≤ L.rounds :=
  ⟨4, lane4 (fun L => { L with retry := ((⟨rawU 8 1, 0⟩ : RetryRec)) :: ([(⟨rawU 8 2, 5⟩ : RetryRec)]), rounds := 8 }) { fabS with now := 20000 }, (⟨rawU 8 1, 0⟩ : RetryRec), [(⟨rawU 8 2, 5⟩ : RetryRec)], by decide +kernel⟩

theorem witness_RetryAndCreditKeepGoing_2 :
    ∃ (l : Nat) (s : State) (n : Nat), let L := laneAt s l; L.nakAt = some (L.rxExpect, n) ∧ L.st = .up ∧ L.missing = true ∧ n + 5000 ≤ s.now :=
  ⟨4, lane4 (fun L => { L with nakAt := some (0, 0), missing := true, nakCause := 2 }) { fabS with now := 5000 }, 0, by decide +kernel⟩

theorem witness_RetryAndCreditKeepGoing_3 :
    ∃ (l p : Nat) (s : State), portOf s l = some p ∧ (laneAt s l).st = .up ∧ creditDueNow s p = true :=
  ⟨4, 4, lane4 (fun L => { L with ackSince := some 4, ackUnits := 2, rxExpect := 9, rxAny := true }) { fabS with now := 5000 }, by decide +kernel⟩

theorem witness_LanesComeUpAndGoDown_0 :
    ∃ (l : Nat) (s : State), l < 272 ∧ (laneAt s l).enable = true ∧ ((laneAt s l).st = .down ∨ (laneAt s l).st = .disabled) ∧ (256 ≤ l ∨ s.pins.lsrEn = true) :=
  ⟨4, lane4 (fun L => { L with st := .down }) { fabS with pins := { fabS.pins with lsrEn := true } }, by decide +kernel⟩

theorem witness_LanesComeUpAndGoDown_1 :
    ∃ (l : Nat) (s : State), (laneAt s l).st = .light :=
  ⟨4, lane4 (fun L => { L with st := .light }) fabS, by decide +kernel⟩

theorem witness_LanesComeUpAndGoDown_2 :
    ∃ (p : Nat) (s : State) (words : List Nat), isLanePort s p = true ∧ words.length = (portAt s p).lanes ∧ (∀ l, l ∈ portLanes s p → awaitsPeer (laneAt s l) = true ∨ (laneAt s l).st = .up) ∧ (∃ l, l ∈ portLanes s p ∧ awaitsPeer (laneAt s l) = true) ∧ identityOk s p words = true :=
  ⟨4, lane4 (fun L => { L with st := .ident }) fabS, [0xF * 2 ^ 60 + 9 * 2 ^ 44 + 4 * 2 ^ 35], by decide +kernel⟩

theorem witness_LanesComeUpAndGoDown_3 :
    ∃ (p : Nat) (s : State) (words : List Nat), isLanePort s p = true ∧ words.length = (portAt s p).lanes ∧ (∀ l, l ∈ portLanes s p → awaitsPeer (laneAt s l) = true ∨ (laneAt s l).st = .up) ∧ (∃ l, l ∈ portLanes s p ∧ awaitsPeer (laneAt s l) = true) ∧ identityOk s p words = false :=
  ⟨4, lane4 (fun L => { L with st := .ident }) fabS, [0xF * 2 ^ 60 + 9 * 2 ^ 44 + 4 * 2 ^ 35 + 1], by decide +kernel⟩

theorem witness_LanesComeUpAndGoDown_4 :
    ∃ (l : Nat) (s : State) (loss : LaneLoss), loss ≠ .laser ∧ (laneAt s l).st ≠ .down ∧ (laneAt s l).st ≠ .disabled :=
  ⟨4, setPort fabS 4 (fun P => { P with out := [{ unit := rawU 8 1 }] }), LaneLoss.fec, by decide +kernel⟩

theorem witness_LanesComeUpAndGoDown_5 :
    ∃ (l : Nat), l < 256 :=
  ⟨9, by decide +kernel⟩

theorem witness_WaitingUnitsAndRecordsLeave_0 :
    ∃ (p : Nat) (s : State) (h : HeldUnit) (d : Dest) (s1 : State) (keep : List Nat), (portAt s p).held = [h] ∧ routeOf s h.unit = .ok d ∧ tooOld s d h.unit = false ∧ (h.unit.cell = true → s.now - h.since ≤ 10000) ∧ frozenFor s p d h.unit = none ∧ place s h.lane p d h.unit h.yellow = .ok s1 keep :=
  ⟨4, setPort fabS 4 (fun P => { P with held := [(({ lane := 4, unit := rawU 8 1, since := 0 } : HeldUnit))] }), ({ lane := 4, unit := rawU 8 1, since := 0 } : HeldUnit), Dest.egress 8, (placedVal (place (setPort fabS 4 (fun P => { P with held := [(({ lane := 4, unit := rawU 8 1, since := 0 } : HeldUnit))] })) 4 4 (Dest.egress 8) (({ lane := 4, unit := rawU 8 1, since := 0 } : HeldUnit)).unit false)).1, (placedVal (place (setPort fabS 4 (fun P => { P with held := [(({ lane := 4, unit := rawU 8 1, since := 0 } : HeldUnit))] })) 4 4 (Dest.egress 8) (({ lane := 4, unit := rawU 8 1, since := 0 } : HeldUnit)).unit false)).2, by decide +kernel, by decide +kernel, by decide +kernel, by decide +kernel, by decide +kernel, placed_of (by decide +kernel)⟩

theorem witness_WaitingUnitsAndRecordsLeave_1 :
    ∃ (p : Nat) (s : State) (h : HeldUnit) (rest : List HeldUnit) (d : Dest), (portAt s p).held = h :: rest ∧ (∀ x, x ∈ rest → unitClass x.unit = unitClass h.unit) ∧ routeOf s h.unit = .ok d ∧ tooOld s d h.unit = false ∧ (h.unit.cell = true → s.now - h.since ≤ 10000) ∧ frozenFor s p d h.unit = none ∧ place s h.lane p d h.unit h.yellow = .hold :=
  ⟨4, setBpm (setPort fabS 4 (fun P => { P with held := (({ lane := 4, unit := rawU 8 1, since := 0 } : HeldUnit)) :: ([({ lane := 4, unit := rawU 8 2, since := 0 } : HeldUnit)]) })) 0 (fun B => { B with pools := [{ cells := 0, block := 2, defMax := 4096 }, { cells := 4, block := 2, defMax := 4096 }], quotas := [], allocs := [{ id := 1, pool := 1, req := 5, units := 4 }] }), ({ lane := 4, unit := rawU 8 1, since := 0 } : HeldUnit), [({ lane := 4, unit := rawU 8 2, since := 0 } : HeldUnit)], Dest.egress 8, by decide +kernel, by decide +kernel, by decide +kernel, by decide +kernel, by decide +kernel, by decide +kernel, hold_of (by decide +kernel)⟩

theorem witness_WaitingUnitsAndRecordsLeave_2 :
    ∃ (i : Nat) (s : State) (w : Nat × Nat × Nat), i < s.fab.bpm.length ∧ (bpmAt s i).waiting.find? (waitFits (bpmAt s i)) = some w :=
  ⟨0, setBpm fabS 0 (fun B => { B with waiting := [(5, 0, 1)] }), (5, 0, 1), by decide +kernel⟩

theorem witness_WaitingUnitsAndRecordsLeave_3 :
    ∃ (s : State) (k : Nat), s.fab.mirrorSession = some k ∧ s.fab.mirrorDest = 2 ∧ s.fab.mirrorQueue ≠ [] ∧ s.mgt.st ≠ .safe :=
  ⟨{ fabS with fab := { fabS.fab with mirrorSession := some 2, mirrorDest := 2, mirrorQueue := [{ time := 1, port := 4, cls := 1, cell := false, trunc := false, length := 3, seq := 1, bytes := [1] }] } }, 2, by decide +kernel⟩

theorem witness_WaitingUnitsAndRecordsLeave_4 :
    ∃ (s : State) (r : MirrorRec) (rest : List MirrorRec), s.fab.mirrorQueue = r :: rest ∧ s.fab.mirrorDest = 1 ∧ mirrorSlots s ≠ 0 :=
  ⟨{ fabS with fab := { fabS.fab with mirrorDest := 1, mirrorGib := 1, mirrorQueue := [(({ time := 1, port := 4, cls := 1, cell := false, trunc := false, length := 3, seq := 1, bytes := [1] } : MirrorRec))] } }, ({ time := 1, port := 4, cls := 1, cell := false, trunc := false, length := 3, seq := 1, bytes := [1] } : MirrorRec), ([] : List MirrorRec), by decide +kernel⟩

theorem witness_OrdinalsBecomeEligible_0 :
    ∃ (job ep ord : Nat) (s : State) (e : CollEntry) (top : Topiary), entryOf s job ord = some e ∧ topOf s job = some top ∧ (collAt s job ep ord).eligible = false ∧ (collAt s job ep ord).completed = false ∧ takesPart s job e = true ∧ mayBegin s job ep ord = true ∧ (jobAt s job).oldest ≤ ep ∧ ep < (jobAt s job).oldest + top.epochLimit :=
  ⟨0, 0, 7, withQ 0 { runQ .coll [] with st := .wait, wait := .eligible 7 0 false 0 } fabS, tEntry, (topOf (withQ 0 { runQ .coll [] with st := .wait, wait := .eligible 7 0 false 0 } fabS) 0).getD {}, by decide +kernel⟩

theorem witness_TimersEndWaits_0 :
    ∃ (job ep ord : Nat) (s : State) (e : CollEntry) (n : Nat), let c := collAt s job ep ord; entryOf s job ord = some e ∧ c.timer = some n ∧ n ≤ s.now ∧ c.eligible = true ∧ c.first = false ∧ c.completed = false ∧ c.aborted = false :=
  ⟨0, 0, 7, setColl { fabS with now := 10 } 0 0 7 (fun c => { c with eligible := true, timer := some 9 }), tEntry, 9, by decide +kernel⟩

theorem witness_TimersEndWaits_1 :
    ∃ (job ep ord : Nat) (s : State) (e : CollEntry) (n : Nat), let c := collAt s job ep ord; entryOf s job ord = some e ∧ c.timer = some n ∧ n ≤ s.now ∧ c.eligible = true ∧ c.first = true ∧ c.completed = false ∧ c.aborted = false ∧ headChunks s e c ≠ [] :=
  ⟨0, 0, 7, setColl { fabS with now := 10 } 0 0 7 (fun c => { c with eligible := true, timer := some 9, first := true }), tEntry, 9, by decide +kernel⟩

theorem witness_TimersEndWaits_2 :
    ∃ (job ep ord rank chunk : Nat) (s : State) (top : Topiary) (e : CollEntry) (r : InRec) (d : HeldDigest), let i := inpAt (collAt s job ep ord) rank chunk; topOf s job = some top ∧ entryOf s job ord = some e ∧ inputFor e rank chunk = some r ∧ i.digest = some d ∧ i.acked = false ∧ (collAt s job ep ord).aborted = false ∧ d.since + 1000 * s.integ.shortWaitUs ≤ s.now :=
  ⟨0, 0, 7, 0, 0, setColl { fabS with now := 10000 } 0 0 7 (fun c => { c with eligible := true, inputs := [{ rank := 0, chunk := 0, digest := some ((⟨77, 1, true, 0, 0, 0⟩ : HeldDigest)) }] }), (topOf (setColl { fabS with now := 10000 } 0 0 7 (fun c => { c with eligible := true, inputs := [{ rank := 0, chunk := 0, digest := some ((⟨77, 1, true, 0, 0, 0⟩ : HeldDigest)) }] })) 0).getD {}, tEntry, (⟨0, 0, 1, 1, 1, 0, false⟩ : InRec), (⟨77, 1, true, 0, 0, 0⟩ : HeldDigest), by decide +kernel⟩

theorem witness_EnginesFormChunks_0 :
    ∃ (job ep ord chunk : Nat) (s : State) (top : Topiary) (e : CollEntry) (g : Nat), let s' := noteEngine (if chunkFirst s job ep e chunk then sampleChunk s job ep ord chunk (entryDie e) (engineOf e chunk) g 0 else s) (entryDie e) g job ord chunk (e.fAcc == .pair); let c := collAt s job ep ord; let x : ChunkCtx := { s := s', job := job, top := top, e := e, coll := c, a := (chunkRange e chunk).1, n := (chunkRange e chunk).2 - (chunkRange e chunk).1 }; ChunkReady s job ep ord chunk top e g ∧ isReduction e.kind = true ∧ e.outputs = [] ∧ e.buffers = [] ∧ (reduceChunk x chunk (rootWaits s' job ep e chunk)).root.isSome = true ∧ c.roots.any (fun y => y.1 == chunk) = false :=
  ⟨0, 0, 7, 0, collS rEntry [heldI 0 0 0x3F800000, heldI 1 0 0x40000000], (topOf (collS rEntry [heldI 0 0 0x3F800000, heldI 1 0 0x40000000]) 0).getD {}, rEntry, 0, chunk_of (by decide +kernel), by decide +kernel⟩

theorem witness_EnginesFormChunks_1 :
    ∃ (job ep ord chunk : Nat) (s : State) (top : Topiary) (e : CollEntry) (g : Nat) (o : OutRec) (bs : List Byte), let c := collAt s job ep ord; let ks := consumersOf s job e o.lo o.hi chunk; ChunkReady s job ep ord chunk top e g ∧ isReduction e.kind = false ∧ isSelect e.kind = false ∧ e.outputs = [o] ∧ e.buffers = [] ∧ movedBytes top c e chunk o = some (true, bs) ∧ outAt c o.lo o.hi chunk = none ∧ bs.length ≤ o.f * (256 * max 1 o.p256) ∧ ks.length ≤ 1 :=
  ⟨0, 0, 7, 0, collS mEntry [heldI 0 0 0x3F800000], (topOf (collS mEntry [heldI 0 0 0x3F800000]) 0).getD {}, mEntry, 0, (⟨0, 1, 0, 1, 1, 0, false⟩ : OutRec), padTo 256 ((List.replicate 4 0x3F800000).flatMap (leBytes 4)), chunk_of (by decide +kernel), by decide +kernel⟩

theorem witness_EnginesFormChunks_2 :
    ∃ (job ep ord chunk : Nat) (s : State) (top : Topiary) (e : CollEntry) (g : Nat), ChunkReady s job ep ord chunk top e g ∧ s.integ.residue = true ∧ computesNow s job ep e chunk = true :=
  ⟨0, 0, 7, 0, collS rEntry [heldI 0 0 0x3F800000, heldI 1 0 0x40000000], (topOf (collS rEntry [heldI 0 0 0x3F800000, heldI 1 0 0x40000000]) 0).getD {}, rEntry, 0, chunk_of (by decide +kernel), by decide +kernel⟩

theorem witness_DigestsAreSentAndRepeated_0 :
    ∃ (job ep ord lo hi chunk : Nat) (s : State) (o : Outp), let c := collAt s job ep ord; outAt c lo hi chunk = some o ∧ c.aborted = false ∧ o.dup = false ∧ framesGone s c o = true ∧ (∀ sh, o.shard = some sh → gradsPassed s job ep sh chunk = true) ∧ o.consumers.any (fun k => !k.acked && k.sentAt.isNone) = true :=
  ⟨0, 0, 7, 0, 2, 0, outS (tOut tCons), tOut tCons, by decide +kernel⟩

theorem witness_DigestsAreSentAndRepeated_1 :
    ∃ (job ep ord lo hi chunk i : Nat) (s : State) (o : Outp) (k : Consumer) (n : Nat), let c := collAt s job ep ord; outAt c lo hi chunk = some o ∧ o.consumers[i]? = some k ∧ k.sentAt = some n ∧ k.acked = false ∧ n + 10000 ≤ s.now :=
  ⟨0, 0, 7, 0, 2, 0, 0, { outS (tOut ({ tCons with sentAt := some 0 })) with now := 10000 }, tOut ({ tCons with sentAt := some 0 }), { tCons with sentAt := some 0 }, 0, by decide +kernel⟩

theorem witness_ShardsStepAndFlip_0 :
    ∃ (job id : Nat) (s : State) (x : StateEntry), stateOf s job id = some x ∧ mayStep s job id = true :=
  ⟨0, 1, twinS .solo, tShard, by decide +kernel⟩

theorem witness_ShardsStepAndFlip_1 :
    ∃ (job id : Nat) (s : State) (x : StateEntry), stateOf s job id = some x ∧ mayFlip s job x = true :=
  ⟨0, 1, setShard (twinS .solo) 0 1 (fun h => { h with stepped := some 0 }), tShard, by decide +kernel⟩

theorem witness_ShardsStepAndFlip_2 :
    ∃ (job : Nat) (s : State), boundaryReached s job = true :=
  ⟨0, { twinS .solo with tops := [{ tTop with colls := [tEntry] }], coll := { colls := [{ job := 0, epoch := 0, ordinal := 7, completed := true }] } }, by decide +kernel⟩

theorem witness_VotesAreClosed_0 :
    ∃ (job ep : Nat) (s : State) (top : Topiary), let J := jobAt s job; topOf s job = some top ∧ J.windowEnded.contains ep = false ∧ bcastsOver s job ep = true ∧ J.ackAt.any (fun a => a.1 == ep) = true ∧ lookupD J.ackAt ep 0 + 1000 * (top.voteWindowUs + 10) ≤ s.now :=
  ⟨0, 5, setJob { shardS with now := 200000 } 0 (fun j => { j with ackAt := [(5, 10)] }), (topOf (setJob { shardS with now := 200000 } 0 (fun j => { j with ackAt := [(5, 10)] })) 0).getD {}, by decide +kernel⟩

theorem witness_VotesAreClosed_1_pass :
    ∃ (job ep : Nat) (s : State) (own : List (List Byte)), let J := jobAt s job; let peer := (peerVote s job ep 0).getD []; let o (i : Nat) := own.getD i []; let p (i : Nat) := slice peer (64 * i) 64; let E := endorsedOf s job ep; let W := match topOf s job with | some t => t.voteWindowUs | none => 100; J.formed.find? (fun f => f.1 == ep) = some (ep, own) ∧ J.closed.contains ep = false ∧ s.fab.twin.st = .paired ∧ ((o 0 = p 1 ∧ p 0 = o 1) ∨ (bcastsOver s job ep = true ∧ lookupD J.commitAt ep 0 + 1000 * (W + 50) ≤ s.now) ∨ (peer ≠ [] ∧ E.isSome = true)) :=
  ⟨0, 5, setTwin (setJob shardS 0 (fun j => { j with formed := [(5, ([List.replicate 64 1, List.replicate 64 2, List.replicate 64 3, List.replicate 64 4]))], voteHold := true })) (fun t => { t with peerVotes := [⟨0, 5, 0, List.replicate 64 2 ++ List.replicate 64 1 ++ List.replicate 128 0⟩] }), [List.replicate 64 1, List.replicate 64 2, List.replicate 64 3, List.replicate 64 4], by decide +kernel⟩

theorem witness_SuspectUnitsAreTestedAndReplaced_0 :
    ∃ (i : Nat) (s : State) (d : DupWait), s.integ.dups[i]? = some d :=
  ⟨0, setInteg (ringS []) (fun x => { x with dups := [(({ kind := 1, die := 0, unit := 0, job := 0 } : DupWait))] }), ({ kind := 1, die := 0, unit := 0, job := 0 } : DupWait), by decide +kernel⟩

theorem witness_SuspectUnitsAreTestedAndReplaced_1 :
    ∃ (unit die logical : Nat) (s : State) (r : QuarRec), s.integ.quar.find? (fun r => r.unit == unit && r.die == die && r.logical == logical && r.st != 2 && !r.failed) = some r ∧ natBit r.bands (tempBand (s.pwr.dies.getD die {}).tmaxC) = true :=
  ⟨1, 0, 3, setInteg { runS with now := 9 } (fun x => { x with quar := [((⟨0, 1, 0, 3, 3, 1, 1, 0, false⟩ : QuarRec))] }), (⟨0, 1, 0, 3, 3, 1, 1, 0, false⟩ : QuarRec), by decide +kernel⟩

theorem witness_SuspectUnitsAreTestedAndReplaced_2 :
    ∃ (unit die logical : Nat) (s : State), s.integ.remapReady.any (fun r => r.unit == unit && r.die == die && r.logical == logical) = true ∧ unitBusy s unit die logical = false ∧ spareFree s unit die logical ≠ 0 :=
  ⟨1, 0, 3, setInteg { runS with now := 9 } (fun x => { x with quar := [((⟨0, 1, 0, 3, 3, 1, 1, 0, false⟩ : QuarRec))], remapReady := [⟨1, 0, 3, 0⟩] }), by decide +kernel⟩

theorem witness_FabricTimeIsKept_0 :
    ∃ (s : State), s.fab.tim.lastSend + 1000000 ≤ s.fabricTime :=
  ⟨{ fabS with fabricTime := 1000000 }, by decide +kernel⟩

theorem witness_FabricTimeIsKept_1 :
    ∃ (s : State), keepsTime s = true ∧ steersAlone s = false ∧ s.fab.tim.lastParent + 3000000 ≤ s.now :=
  ⟨{ fabS with now := 3000000 }, by decide +kernel⟩

theorem witness_FabricTimeIsKept_2 :
    ∃ (s : State), s.fab.tim.master = true ∧ s.fab.tim.started = false ∧ s.mgt.st = .sync ∧ s.mgt.syncAt + 3000000 ≤ s.now ∧ chooseParent s = none :=
  ⟨setTim { stS .sync with now := 3000000 } (fun t => { t with master := true }), by decide +kernel⟩

theorem witness_FabricTimeIsKept_3 :
    ∃ (s : State), s.mgt.st = .sync ∧ s.fab.tim.master = true ∧ s.mgt.syncAt + 1000000000 ≤ s.now :=
  ⟨setTim { stS .sync with now := 1000000000 } (fun t => { t with master := true }), by decide +kernel⟩

theorem witness_FabricTimeIsKept_4 :
    ∃ (s : State), s.mgt.st = .sync ∧ s.fab.tim.state ≠ 1 ∧ s.mgt.syncAt + 10000000000 ≤ s.now :=
  ⟨{ stS .sync with now := 10000000000 }, by decide +kernel⟩

theorem witness_FabricTimeIsKept_5 :
    ∃ (l p : Nat) (u : LinkUnit) (s : State), let v := asType 10 u; let g (off n : Nat) := leVal (slice u.payload off n); let heard := setPort s p (fun P => { P with timeRx := (g 0 8, s.fabricTime), peerSched := (g 24 8, g 41 1 % 4, g 32 8), peerStratum := g 40 1, peerHold := natBit (g 41 1) 2 || natBit (g 41 1) 3, timeAt := some s.now }); let T := s.fab.tim; portOf s l = some p ∧ (laneAt s l).st = .up ∧ unitHeaderOk v = true ∧ crc32c u.payload = u.crc ∧ typeAllowed s l v = true ∧ keepsTime s = true ∧ steersAlone s = false ∧ T.parent = some p ∧ chooseParent heard = some p ∧ g 8 8 ≠ 0 :=
  ⟨4, 4, unitU 10 0 {} (leBytes 8 1000 ++ leBytes 8 900 ++ leBytes 8 880 ++ leBytes 8 0 ++ leBytes 8 0 ++ [1, 0]), setTim { fabS with fabricTime := 1100 } (fun t => { t with parent := some 4, parents := [4] }), by decide +kernel, by decide +kernel, (sealed_of (by decide +kernel)).1, crc_mkU _ _, by decide +kernel⟩

theorem witness_SchedulesSwapAndStretch_0 :
    ∃ (s : State) (b f : Nat), s.fab.tim.sched.pending = some (b, f) ∧ s.fab.tim.sched.loaded = true ∧ b ≤ s.fabricTime :=
  ⟨setTim { queueS .vec [] (fun Q => { Q with st := .wait, wait := .flag 3, deadline := 800 }) with fabricTime := 100 } (fun t => { t with sched := { t.sched with loaded := true, active := true, cycleNs := 1000, pending := some (100, 1) } }), 100, 1, by decide +kernel⟩

theorem witness_SchedulesSwapAndStretch_1 :
    ∃ (s : State), let sc := s.fab.tim.sched; sc.active = true ∧ sc.factor ≠ 0 ∧ sc.expiry ≤ s.fabricTime :=
  ⟨setTim { queueS .vec [] (fun Q => { Q with st := .wait, wait := .flag 3, deadline := 1000 }) with fabricTime := 100, stretchQ := 5 } (fun t => { t with sched := { t.sched with loaded := true, active := true, cycleNs := 1000, factor := 1, expiry := 100 } }), by decide +kernel⟩

theorem witness_SchedulesSwapAndStretch_2 :
    ∃ (s : State), let sc := s.fab.tim.sched; sc.active = true ∧ sc.factor ≠ 0 ∧ sc.renewed ≠ sc.expiry ∧ neededFactor s ≠ 0 ∧ sc.expiry ≤ s.fabricTime + 2000 * sc.swapLeadUs ∧ s.fabricTime < sc.expiry :=
  ⟨setPwr (setTim (withQ 0 (runQ .vec []) { fabS with fabricTime := 100 }) (fun t => { t with sched := { t.sched with loaded := true, active := true, cycleNs := 100, factor := 1, expiry := 125125 } })) (fun p => { p with dies := List.replicate 4 { needed := 1 } }), by decide +kernel⟩

theorem witness_SchedulesSwapAndStretch_3 :
    ∃ (p : Nat) (s : State), let sc := s.fab.tim.sched; let n := (portAt s p).peerSched; isLanePort s p = true ∧ sc.active = true ∧ n.1 = sc.schedId ∧ (n.2.1 ≠ sc.factor ∨ n.2.2 ≠ sc.activeSince) ∧ max n.2.2 sc.activeSince + 1000000 < s.fabricTime :=
  ⟨4, setPort (setTim { fabS with fabricTime := 2000000 } (fun t => { t with sched := { t.sched with loaded := true, active := true, schedId := 6, cycleNs := 100, factor := 1 } })) 4 (fun P => { P with peerSched := (6, 0, 0) }), by decide +kernel⟩

theorem witness_TwinsSpeakAndFallSilent_0 :
    ∃ (s : State), s.fab.twin.present = true ∧ portUp s s.fab.twin.port = true ∧ (helloBytes s ≠ s.fab.twin.helloLast ∨ s.fab.twin.helloAt + 100000 ≤ s.now) :=
  ⟨shardS, by decide +kernel⟩

theorem witness_TwinsSpeakAndFallSilent_1 :
    ∃ (s : State), s.fab.twin.heardAt + 1000000 ≤ s.now ∧ s.fab.twin.st = .paired ∧ s.fab.twin.role = 0 :=
  ⟨{ shardS with now := 1000000 }, by decide +kernel⟩

theorem witness_TwinsSpeakAndFallSilent_2 :
    ∃ (s : State), s.fab.twin.heardAt + 1000000 ≤ s.now ∧ s.fab.twin.st = .paired ∧ s.fab.twin.role ≠ 0 :=
  ⟨withQ 0 (runQ .vec []) (setTwin { shardS with now := 1000000 } (fun t => { t with role := 1 })), by decide +kernel⟩

theorem witness_TwinsSpeakAndFallSilent_3 :
    ∃ (s : State), s.fab.twin.heardAt + 1000000 ≤ s.now ∧ s.fab.twin.st = .syncing :=
  ⟨{ twinS .syncing with now := 1000000 }, by decide +kernel⟩

theorem witness_TwinsSpeakAndFallSilent_4 :
    ∃ (s : State), s.fab.twin.heardAt + 1000000 ≤ s.now ∧ s.fab.twin.st = .solo ∧ s.fab.twin.serving ≠ [] :=
  ⟨setTwin { twinS .solo with now := 1000000 } (fun t => { t with serving := [0] }), by decide +kernel⟩

theorem witness_FeedsCarryTheModule_0 :
    ∃ (feed : Nat) (s : State), feed < 2 ∧ s.mgt.st ≠ .off :=
  ⟨0, pwrS, by decide +kernel⟩

theorem witness_FeedsCarryTheModule_1 :
    ∃ (s : State), s.mgt.st ≠ .off ∧ feedStopped s.pwr = true ∧ s.pwr.feeds.any (·.carries) = true :=
  ⟨setPwr pwrS (fun p => { p with feeds := [.absent, .good], feedV10 := [0, 4800] }), by decide +kernel⟩

theorem witness_FeedsCarryTheModule_2 :
    ∃ (s : State), s.mgt.st ≠ .off ∧ s.pwr.feeds.any (·.carries) = false :=
  ⟨setPwr pwrS (fun p => { p with feeds := [.absent, .absent], feedV10 := [0, 0] }), by decide +kernel⟩

theorem witness_RailsAreLimited_0 :
    ∃ (rail i : Nat) (s : State), railOn s rail = true ∧ powered s = true ∧ (railAt s rail).limitDa * 5 < i * 4 :=
  ⟨2, 126, pwrS, by decide +kernel⟩

theorem witness_RailsAreLimited_1 :
    ∃ (d i : Nat) (s : State), railOn s d = true ∧ d < 4 ∧ d < s.pwr.dies.length ∧ i * 4 ≤ (railAt s d).limitDa * 5 :=
  ⟨1, 110, pwrS, by decide +kernel⟩

theorem witness_RailsAreLimited_2 :
    ∃ (i : Nat) (s : State), railOn s 5 = true ∧ i * 4 ≤ (railAt s 5).limitDa * 5 :=
  ⟨125, pwrS, by decide +kernel⟩

theorem witness_RailsAreLimited_3 :
    ∃ (rail i : Nat) (s : State), railOn s rail = true ∧ (rail = 4 ∨ rail = 6 ∨ rail = 7) ∧ i * 4 ≤ (railAt s rail).limitDa * 5 :=
  ⟨6, 101, pwrS, by decide +kernel⟩

theorem witness_RailsAreLimited_4 :
    ∃ (rail i : Nat) (c : Bool) (s : State), railOn s rail = true ∧ powered s = true ∧ (c = true ∨ (railAt s rail).limitDa * 5 < i * 4) :=
  ⟨7, 10, true, pwrS, by decide +kernel⟩

theorem witness_RailsAreLimited_5 :
    ∃ (rail : Nat) (s : State), railOn s rail = true ∧ (railAt s rail).senseOpen = false :=
  ⟨7, pwrS, by decide +kernel⟩

theorem witness_PowerAndHeatAreHeld_0 :
    ∃ (s : State), powered s = true ∧ s.pwr.windowAt + 1000 * s.pwr.windowUs ≤ s.now :=
  ⟨setTim { pwrS with now := 5000 } (fun t => { t with sched := { t.sched with loaded := true, active := true, schedId := 6, cycleNs := 100, schedRate := 6400 } }), by decide +kernel⟩

theorem witness_PowerAndHeatAreHeld_1 :
    ∃ (g : SensorGroup) (tc : Nat) (s : State), powered s = true ∧ critTemp g ≤ tc :=
  ⟨SensorGroup.hbm 3, 105, pwrS, by decide +kernel⟩

theorem witness_PowerAndHeatAreHeld_2 :
    ∃ (g : SensorGroup) (tc : Nat) (s : State), powered s = true ∧ lookupD s.pwr.levels (sensorKey g) 0 < 3 ∧ tc < critTemp g :=
  ⟨SensorGroup.hbm 3, 95, pwrS, by decide +kernel⟩

theorem witness_PowerAndHeatAreHeld_3 :
    ∃ (s : State), powered s = true :=
  ⟨setPwr { pwrS with now := 7 } (fun p => { p with pInW := 500 }), by decide +kernel⟩

theorem witness_PowerAndHeatAreHeld_4 :
    ∃ (n : Nat) (s : State), powered s = true ∧ s.pwr.flowSince = some n ∧ n + 1000000000 ≤ s.now ∧ s.pwr.flowLow = false :=
  ⟨0, setPwr { pwrS with now := 1000000000 } (fun p => { p with flowSince := some 0 }), by decide +kernel⟩

theorem witness_HollyStartsAndConfigures_0 :
    ∃ (feed : Nat) (v : Int) (s : State), feed < 2 ∧ 4000 ≤ v ∧ v ≤ 6000 ∧ (s.mgt.st = .off ∨ (s.mgt.st = .boot ∧ s.pwr.feeds.all (· == .absent) = true)) :=
  ⟨1, (4800 : Int), State.reset, by decide +kernel⟩

theorem witness_HollyStartsAndConfigures_1 :
    ∃ (s : State) (rs : List CfgRecord) (bad : Option Nat), s.mgt.st = .config ∧ acceptRecords s (imageIndex s.mgt.records) s.mgt.records [] 0 = (rs, bad) :=
  ⟨{ stS .config with mgt := { (stS .config).mgt with records := [(1, [0, 0, 0, 0, 3, 0])] } }, [CfgRecord.domain 0 3], (none : Option Nat), by decide +kernel⟩

theorem witness_TrainingAndImagesEnd_0 :
    ∃ (s : State), s.mgt.st = .train ∧ (s.mgt.trainAt + 500000000 ≤ s.now ∨ ∀ x, x ∈ s.fab.lanes → x.2.enable = true → x.2.st = .up) :=
  ⟨stS .train, by decide +kernel⟩

theorem witness_TrainingAndImagesEnd_1 :
    ∃ (s : State), s.mgt.st = .recovery ∧ s.mgt.fwRunning = false ∧ imageComplete s.fab.twin = false ∧ portUp s 0x100 = true ∧ (s.fab.twin.imageAskAt = 0 ∨ s.fab.twin.imageAskAt + 1000000000 ≤ s.now) :=
  ⟨stS .recovery, by decide +kernel⟩

theorem witness_TrainingAndImagesEnd_2 :
    ∃ (s : State), s.mgt.st = .recovery ∧ s.mgt.fwRunning = false ∧ imageComplete s.fab.twin = true :=
  ⟨setTwin (stS .recovery) (fun t => { t with imageBlocks := 1, image := [(0, [1, 2, 3])] }), by decide +kernel⟩

theorem witness_TrainingAndImagesEnd_3 :
    ∃ (s : State) (x : Staged), s.mgt.stagedFw = some x ∧ x.complete = true ∧ x.verified = false :=
  ⟨{ stS .run with mgt := { (stS .run).mgt with stagedFw := some (({ session := 1, bytes := [1, 2], complete := true, ask := some (1, 5, 6) } : Staged)), sessions := List.replicate 8 { valid := true } } }, ({ session := 1, bytes := [1, 2], complete := true, ask := some (1, 5, 6) } : Staged), by decide +kernel⟩

theorem witness_TrainingAndImagesEnd_4 :
    ∃ (s : State) (x : Staged), s.mgt.stagedCfg = some x ∧ x.complete = true ∧ x.verified = false :=
  ⟨{ stS .run with mgt := { (stS .run).mgt with stagedCfg := some (({ session := 1, bytes := [1, 2], complete := true, ask := some (1, 5, 6) } : Staged)), sessions := List.replicate 8 { valid := true } } }, ({ session := 1, bytes := [1, 2], complete := true, ask := some (1, 5, 6) } : Staged), by decide +kernel⟩

theorem witness_PinsActAndDebugPortsRead_0 :
    ∃ (s : State), s.mgt.st ≠ .off :=
  ⟨pwrS, by decide +kernel⟩

theorem witness_PinsActAndDebugPortsRead_1 :
    ∃ (s : State), s.mgt.st = .off :=
  ⟨stS .off, by decide +kernel⟩

theorem witness_PinsActAndDebugPortsRead_2 :
    ∃ (s : State), s.pins.carrierReset = true ∧ s.mgt.st = .boot ∧ s.pwr.feeds.any (·.carries) = true :=
  ⟨{ stS .boot with pins := { carrierReset := true } }, by decide +kernel⟩

theorem witness_PinsActAndDebugPortsRead_4 :
    ∃ (s : State), s.pins.sideband = true :=
  ⟨pwrS, by decide +kernel⟩

theorem witness_PinsActAndDebugPortsRead_5 :
    ∃ (s : State), s.mgt.st ≠ .off :=
  ⟨pwrS, by decide +kernel⟩

theorem witness_PinsActAndDebugPortsRead_6 :
    ∃ (port st : Nat) (s : State), port < 2 ∧ st < 3 ∧ s.mgt.st ≠ .off :=
  ⟨1, 2, pwrS, by decide +kernel⟩

theorem witness_PinsActAndDebugPortsRead_7 :
    ∃ (s : State), s.mgt.st ≠ .off ∧ s.mgt.st ≠ .boot :=
  ⟨pwrS, by decide +kernel⟩

theorem witness_PinsActAndDebugPortsRead_9 :
    ∃ (s : State), s.mgt.st ≠ .off :=
  ⟨pwrS, by decide +kernel⟩

theorem witness_PinsActAndDebugPortsRead_9_safe :
    ∃ (s : State), s.mgt.st ≠ .off :=
  ⟨stS .safe, by decide +kernel⟩

theorem witness_RequestsAreTurnedAway_0_deaf :
    ∃ (c : Instr) (h : FmdReq) (op : Nat) (ops : List Byte) (bad : Bool) (sub : Nat) (free : Bool) (s : State), fmdOf c = some (h, op, ops, bad, sub, free) ∧ listens s = false :=
  ⟨Instr.fmdNop rq, rq, _, _, _, _, _, mgtS (stS .off), rfl, by decide +kernel⟩

theorem witness_RequestsAreTurnedAway_0_plain :
    ∃ (c : Instr) (h : FmdReq) (op : Nat) (ops : List Byte) (bad : Bool) (sub : Nat) (free : Bool) (s : State), fmdOf c = some (h, op, ops, bad, sub, free) ∧ listens s = true ∧ h.slot = none :=
  ⟨Instr.fmdNop ({ rq with slot := none }), { rq with slot := none }, _, _, _, _, _, mS, rfl, by decide +kernel⟩

theorem witness_RequestsAreTurnedAway_0_seq :
    ∃ (c : Instr) (h : FmdReq) (op : Nat) (ops : List Byte) (bad : Bool) (sub : Nat) (free : Bool) (s : State), fmdOf c = some (h, op, ops, bad, sub, free) ∧ listens s = true ∧ h.slot = some 1 ∧ (sessAt s 1).valid = false :=
  ⟨Instr.fmdNop rq, rq, _, _, _, _, _, pwrS, rfl, by decide +kernel⟩

theorem witness_RequestsAreTurnedAway_0_repeat :
    ∃ (c : Instr) (h : FmdReq) (op : Nat) (ops : List Byte) (bad : Bool) (sub : Nat) (free : Bool) (s : State), fmdOf c = some (h, op, ops, bad, sub, free) ∧ listens s = true ∧ h.slot = some 1 ∧ (sessAt s 1).valid = true ∧ seqOk (sessAt s 1) h.seq = true ∧ (cached s 1 h.tag op ops).isSome = true :=
  ⟨Instr.fmdNop rq, rq, _, _, _, _, _, setMgt mS (fun m => { m with sessions := m.sessions.set 1 { valid := true, cache := [⟨5, 0x17, crc32c [], 0, [1]⟩] } }), rfl, by decide +kernel⟩

theorem witness_RequestsAreTurnedAway_0_format :
    ∃ (c : Instr) (h : FmdReq) (op : Nat) (ops : List Byte) (bad : Bool) (sub : Nat) (free : Bool) (s : State), fmdOf c = some (h, op, ops, bad, sub, free) ∧ listens s = true ∧ h.slot = some 1 ∧ (sessAt s 1).valid = true ∧ seqOk (sessAt s 1) h.seq = true ∧ cached s 1 h.tag op ops = none ∧ (h.tag = 0xFFFF ∨ bad = true) :=
  ⟨Instr.nvmWrite rq 2, rq, _, _, _, _, _, mS, rfl, by decide +kernel⟩

theorem witness_RequestsAreTurnedAway_0_state :
    ∃ (c : Instr) (h : FmdReq) (op : Nat) (ops : List Byte) (bad : Bool) (sub : Nat) (free : Bool) (s : State), fmdOf c = some (h, op, ops, bad, sub, free) ∧ listens s = true ∧ h.slot = some 1 ∧ (sessAt s 1).valid = true ∧ seqOk (sessAt s 1) h.seq = true ∧ cached s 1 h.tag op ops = none ∧ h.tag ≠ 0xFFFF ∧ bad = false ∧ serves s op sub = false :=
  ⟨Instr.topiaryLoad rq 0, rq, _, _, _, _, _, mSt .recovery, rfl, by decide +kernel⟩

theorem witness_RequestsAreTurnedAway_0_frozen :
    ∃ (c : Instr) (h : FmdReq) (op : Nat) (ops : List Byte) (bad : Bool) (sub : Nat) (free : Bool) (s : State), fmdOf c = some (h, op, ops, bad, sub, free) ∧ listens s = true ∧ h.slot = some 1 ∧ (sessAt s 1).valid = true ∧ seqOk (sessAt s 1) h.seq = true ∧ cached s 1 h.tag op ops = none ∧ h.tag ≠ 0xFFFF ∧ bad = false ∧ serves s op sub = true ∧ free = false ∧ isFrozen s 0 (reqId 3 1 0) = true :=
  ⟨Instr.fmdNop rq, rq, _, _, _, _, _, setBpm mS 0 (fun B => { B with frozen := [reqId 3 1 0] }), rfl, by decide +kernel⟩

theorem witness_RequestsAreTurnedAway_0_busy :
    ∃ (c : Instr) (h : FmdReq) (op : Nat) (ops : List Byte) (bad : Bool) (sub : Nat) (free : Bool) (s : State), fmdOf c = some (h, op, ops, bad, sub, free) ∧ listens s = true ∧ h.slot = some 1 ∧ (sessAt s 1).valid = true ∧ seqOk (sessAt s 1) h.seq = true ∧ cached s 1 h.tag op ops = none ∧ h.tag ≠ 0xFFFF ∧ bad = false ∧ serves s op sub = true ∧ (free = true ∨ isFrozen s 0 (reqId 3 1 0) = false) ∧ sessionCells (noteMessage s 1 h) 1 (8 + ops.length) = none :=
  ⟨Instr.fmdNop rq, rq, _, _, _, _, _, setBpm mS 0 (fun B => { B with pools := [{ cells := 4096, block := 2, defMax := 0 }] }), rfl, by decide +kernel⟩

theorem witness_NetworkAndSessions_0 :
    ∃ (p : Nat) (s : State), listens s = true ∧ p < 2 :=
  ⟨1, mS, by decide +kernel⟩

theorem witness_NetworkAndSessions_1 :
    ∃ (id : Nat) (tagOk : Bool) (seq : Nat) (s : State), listens s = true ∧ (∀ x, s.mgt.sessions.find? (fun x => x.valid && x.id == id) = some x → tagOk = false ∨ seqOk x seq = false) :=
  ⟨7, true, 1, mS, by decide +kernel⟩

theorem witness_NetworkAndSessions_2 :
    ∃ (p : Nat) (target : List Byte) (s : State), listens s = true ∧ ownAddr s p target = true :=
  ⟨1, ([1, 2] : List Byte), setMgt mS (fun m => { m with addrs := [[], [1, 2]] }), by decide +kernel⟩

theorem witness_NetworkAndSessions_2_no :
    ∃ (p : Nat) (target : List Byte) (s : State), listens s = true ∧ ownAddr s p target = false :=
  ⟨1, ([1, 2] : List Byte), mS, by decide +kernel⟩

theorem witness_NetworkAndSessions_3 :
    ∃ (c : Instr) (h : FmdReq) (bs : List Byte) (plain : Bool) (s : State) (rsp : List Byte), spdmOf s c = some (h, bs, plain, rsp) ∧ listens s = true ∧ h.slot = none :=
  ⟨Instr.keyExchange ({ rq with slot := none }) 9, { rq with slot := none }, _, _, mS, _, rfl, by decide +kernel⟩

theorem witness_NetworkAndSessions_4 :
    ∃ (c : Instr) (h : FmdReq) (bs : List Byte) (plain : Bool) (s : State) (rsp : List Byte) (k : Nat) (x : Option Nat) (u : State), spdmOf u c = some (h, bs, plain, rsp) ∧ h.slot = some k ∧ listens s = true ∧ (sessAt s k).valid = true ∧ seqOk (sessAt s k) h.seq = true ∧ cached s k h.tag 1 bs = none ∧ h.tag ≠ 0xFFFF ∧ serves s 1 0 = true ∧ isFrozen s 0 (reqId 3 k 0) = false ∧ sessionCells (noteMessage s k h) k (8 + bs.length) = some (u, x) :=
  ⟨Instr.spdm rq .heartbeat, rq, _, _, mgtS runS, _, 1, (someOf (sessionCells (noteMessage (mgtS runS) 1 rq) 1 (8 + ((someOf (spdmOf (mgtS runS) (Instr.spdm rq .heartbeat))).2.1).length))).2, (someOf (sessionCells (noteMessage (mgtS runS) 1 rq) 1 (8 + ((someOf (spdmOf (mgtS runS) (Instr.spdm rq .heartbeat))).2.1).length))).1, rfl, by decide +kernel, by decide +kernel, by decide +kernel, by decide +kernel, by decide +kernel, by decide +kernel, by decide +kernel, by decide +kernel, pair_of (by decide +kernel)⟩

theorem witness_NetworkAndSessions_5 :
    ∃ (id : Nat) (s : State) (x : Handshake) (k : Nat), listens s = true ∧ s.mgt.handshake = some x ∧ x.id = id ∧ freeSlot s = some k ∧ k < s.mgt.sessions.length :=
  ⟨9, setMgt mS (fun m => { m with handshake := some (({ slot := 0, id := 9 } : Handshake)) }), ({ slot := 0, id := 9 } : Handshake), 0, by decide +kernel⟩

theorem witness_NetworkAndSessions_6 :
    ∃ (h : FmdReq) (s : State) (k : Nat) (x : Option Nat) (u : State), let bs := Config.spdmRequest 0xEC 0; h.slot = some k ∧ listens s = true ∧ (sessAt s k).valid = true ∧ seqOk (sessAt s k) h.seq = true ∧ cached s k h.tag 1 bs = none ∧ h.tag ≠ 0xFFFF ∧ serves s 1 0 = true ∧ isFrozen s 0 (reqId 3 k 0) = false ∧ sessionCells (noteMessage s k h) k (8 + bs.length) = some (u, x) :=
  ⟨rq, mgtS runS, 1, (someOf (sessionCells (noteMessage (mgtS runS) 1 rq) 1 (8 + (Config.spdmRequest 0xEC 0).length))).2, (someOf (sessionCells (noteMessage (mgtS runS) 1 rq) 1 (8 + (Config.spdmRequest 0xEC 0).length))).1, by decide +kernel, by decide +kernel, by decide +kernel, by decide +kernel, by decide +kernel, by decide +kernel, by decide +kernel, by decide +kernel, pair_of (by decide +kernel)⟩

theorem witness_NetworkAndSessions_7 :
    ∃ (k : Nat) (s : State), k < 8 ∧ (sessAt s k).valid = true ∧ (sessAt s k).lastAt + 120000000000 ≤ s.now :=
  ⟨1, { mS with now := 120000000000 }, by decide +kernel⟩

theorem witness_RegistersAreRead_0 :
    ∃ (h : FmdReq) (a : Word32) (s : State) (k : Nat) (u : State), let c : Instr := .readReg h a; Runs c s k u ∧ (dieSilent s a.toNat = false ∨ accessCheck u a.toNat ≠ none) :=
  ⟨rq, (0x02000008 : BitVec 32), mS, 1, runU (.readReg rq ((0x02000008 : BitVec 32))) mS 1, runs_of (by decide +kernel), by decide +kernel⟩

theorem witness_RegistersAreRead_1 :
    ∃ (h : FmdReq) (a : Word32) (s : State) (k : Nat) (u : State), let c : Instr := .readReg h a; Runs c s k u ∧ dieSilent s a.toNat = true ∧ accessCheck u a.toNat = none :=
  ⟨rq, (0x10009080 : BitVec 32), mSt .safe, 1, runU (.readReg rq ((0x10009080 : BitVec 32))) (mSt .safe) 1, runs_of (by decide +kernel), by decide +kernel⟩

theorem witness_RegistersAreRead_2_all :
    ∃ (h : FmdReq) (a : Word32) (n : Nat) (s : State) (k : Nat) (u : State) (m : Nat) (vs : List Nat), let at8 (i : Nat) := a.toNat + 8 * i; Runs (.readBlock h a n) s k u ∧ m ≤ n ∧ vs.length = m ∧ (∀ i v, vs[i]? = some v → readRegister u (at8 i) = .ok v ∧ dieSilent s (at8 i) = false) :=
  ⟨rq, (0x02000008 : BitVec 32), 1, mS, 1, runU (.readBlock rq ((0x02000008 : BitVec 32)) 1) mS 1, 1, [okVal (readRegister (runU (.readBlock rq ((0x02000008 : BitVec 32)) 1) mS 1) 0x02000008)], runs_of (by decide +kernel), by decide +kernel, by decide +kernel, fun i _ h => match i, h with | 0, rfl => ⟨ok_of (by decide +kernel), by decide +kernel⟩⟩

theorem witness_RegistersAreRead_3 :
    ∃ (h : FmdReq) (acc : AccessKind) (a : Word32) (s : State) (k : Nat) (u : State), Runs (.regAccessTimeout h ⟨a, acc⟩) s k u :=
  ⟨rq, (.read : AccessKind), (0x10009080 : BitVec 32), mS, 1, runU (.regAccessTimeout rq ⟨((0x10009080 : BitVec 32)), ((.read : AccessKind))⟩) mS 1, runs_of (by decide +kernel)⟩

theorem witness_RegistersAreRead_3_w :
    ∃ (h : FmdReq) (acc : AccessKind) (a : Word32) (s : State) (k : Nat) (u : State), Runs (.regAccessTimeout h ⟨a, acc⟩) s k u :=
  ⟨rq, (.write 5 : AccessKind), (0x10009080 : BitVec 32), mS, 1, runU (.regAccessTimeout rq ⟨((0x10009080 : BitVec 32)), ((.write 5 : AccessKind))⟩) mS 1, runs_of (by decide +kernel)⟩

theorem witness_RegistersAreRead_3_wk :
    ∃ (h : FmdReq) (acc : AccessKind) (a : Word32) (s : State) (k : Nat) (u : State), Runs (.regAccessTimeout h ⟨a, acc⟩) s k u :=
  ⟨rq, (.write 5 : AccessKind), (0x10009080 : BitVec 32), { mS with mgt := { mS.mgt with custKey := none } }, 1, runU (.regAccessTimeout rq ⟨((0x10009080 : BitVec 32)), ((.write 5 : AccessKind))⟩) ({ mS with mgt := { mS.mgt with custKey := none } }) 1, runs_of (by decide +kernel)⟩

theorem witness_RegistersAreRead_3_wr :
    ∃ (h : FmdReq) (acc : AccessKind) (a : Word32) (s : State) (k : Nat) (u : State), Runs (.regAccessTimeout h ⟨a, acc⟩) s k u :=
  ⟨rq, (.write 5 : AccessKind), (0x10009084 : BitVec 32), mS, 1, runU (.regAccessTimeout rq ⟨((0x10009084 : BitVec 32)), ((.write 5 : AccessKind))⟩) mS 1, runs_of (by decide +kernel)⟩

theorem witness_RegistersAreRead_3_b :
    ∃ (h : FmdReq) (acc : AccessKind) (a : Word32) (s : State) (k : Nat) (u : State), Runs (.regAccessTimeout h ⟨a, acc⟩) s k u :=
  ⟨rq, (.block 2 1 : AccessKind), (0x02000008 : BitVec 32), mS, 1, runU (.regAccessTimeout rq ⟨((0x02000008 : BitVec 32)), ((.block 2 1 : AccessKind))⟩) mS 1, runs_of (by decide +kernel)⟩

theorem witness_RegistersAreRead_3_safe :
    ∃ (h : FmdReq) (acc : AccessKind) (a : Word32) (s : State) (k : Nat) (u : State), Runs (.regAccessTimeout h ⟨a, acc⟩) s k u :=
  ⟨rq, (.block 2 1 : AccessKind), (0x10009080 : BitVec 32), mSt .safe, 1, runU (.regAccessTimeout rq ⟨((0x10009080 : BitVec 32)), ((.block 2 1 : AccessKind))⟩) (mSt .safe) 1, runs_of (by decide +kernel)⟩

theorem witness_RegistersAreWritten_0_range :
    ∃ (c : Instr) (h : FmdReq) (a v : Nat) (s : State) (k : Nat) (u : State), regWriteOf c = some (h, a, v) ∧ Runs c s k u :=
  ⟨Instr.capWrite rq 5#64, rq, 0x02000008, 5, mS, 1, runU (.capWrite rq 5#64) mS 1, by decide +kernel, runs_of (by decide +kernel)⟩

theorem witness_RegistersAreWritten_1 :
    ∃ (h : FmdReq) (v : Word) (s : State) (k : Nat) (u : State), let c : Instr := .capWrite h v; Runs c s k u ∧ s.mgt.custKey.isSome = true :=
  ⟨rq, BitVec.ofNat 64 (700 * 2 ^ 33 + 3 * 2 ^ 28 + 600 * 2 ^ 18), mS, 1, runU (.capWrite rq (BitVec.ofNat 64 (700 * 2 ^ 33 + 3 * 2 ^ 28 + 600 * 2 ^ 18))) mS 1, runs_of (by decide +kernel), by decide +kernel⟩

theorem witness_RegistersAreWritten_2 :
    ∃ (h : FmdReq) (r : Nat) (v : Word) (s : State) (k : Nat) (u : State), let c : Instr := .railLimitWrite h r v; Runs c s k u ∧ s.mgt.custKey.isSome = true ∧ r < 8 ∧ (r ≠ 3 ∨ s.grade = 0) :=
  ⟨rq, 2, BitVec.ofNat 64 (3000 * 4), mS, 1, runU (.railLimitWrite rq 2 (BitVec.ofNat 64 (3000 * 4))) mS 1, runs_of (by decide +kernel), by decide +kernel⟩

theorem witness_RegistersAreWritten_3 :
    ∃ (h : FmdReq) (i : Nat) (v : Word) (s : State) (k : Nat) (u : State), let c : Instr := .ageLimitWrite h i v; Runs c s k u ∧ s.mgt.custKey.isSome = true ∧ i < 8 :=
  ⟨rq, 2, 5000#64, mS, 1, runU (.ageLimitWrite rq 2 5000#64) mS 1, runs_of (by decide +kernel), by decide +kernel⟩

theorem witness_RegistersAreWritten_4 :
    ∃ (h : FmdReq) (j : Nat) (v : Word) (s : State) (k : Nat) (u : State), let c : Instr := .weightWrite h (.classW j) v; Runs c s k u ∧ s.mgt.custKey.isSome = true ∧ j < 16 :=
  ⟨rq, 2, 0x0001020304050607#64, mS, 1, runU (.weightWrite rq (.classW 2) 0x0001020304050607#64) mS 1, runs_of (by decide +kernel), by decide +kernel⟩

theorem witness_RegistersAreWritten_5 :
    ∃ (h : FmdReq) (p x : Nat) (v : Word) (s : State) (k : Nat) (u : State), let c : Instr := .weightWrite h (.jobW p x) v; Runs c s k u ∧ s.mgt.custKey.isSome = true ∧ (isLanePort s p = true ∨ (272 ≤ p ∧ portIdOk p = true)) ∧ x < 2 :=
  ⟨rq, 4, 1, 0x0101020304050607#64, mS, 1, runU (.weightWrite rq (.jobW 4 1) 0x0101020304050607#64) mS 1, runs_of (by decide +kernel), by decide +kernel⟩

theorem witness_RegistersAreWritten_6 :
    ∃ (h : FmdReq) (n w : Nat) (v : Word) (s : State) (k : Nat) (u : State), let c : Instr := .profileWrite h n w v; Runs c s k u ∧ s.mgt.custKey.isSome = true ∧ n < 64 ∧ w < 2 :=
  ⟨rq, 3, 0, BitVec.ofNat 64 (9 * 2 ^ 40 + 10 * 2 ^ 16 + 0x302), mS, 1, runU (.profileWrite rq 3 0 (BitVec.ofNat 64 (9 * 2 ^ 40 + 10 * 2 ^ 16 + 0x302))) mS 1, runs_of (by decide +kernel), by decide +kernel⟩

theorem witness_RegistersAreWritten_7 :
    ∃ (h : FmdReq) (v : Word) (s : State) (k : Nat) (u : State), let c : Instr := .polDataWrite h v; let p := natField s.fab.polSel 15 7; Runs c s k u ∧ s.mgt.custKey.isSome = true ∧ (isLanePort s p = true ∨ 272 ≤ p) :=
  ⟨rq, BitVec.ofNat 64 (2 ^ 63 + 5 * 2 ^ 57), { mS with fab := { mS.fab with polSel := 4 * 128 + 3 } }, 1, runU (.polDataWrite rq (BitVec.ofNat 64 (2 ^ 63 + 5 * 2 ^ 57))) ({ mS with fab := { mS.fab with polSel := 4 * 128 + 3 } }) 1, runs_of (by decide +kernel), by decide +kernel⟩

theorem witness_RegistersAreWritten_8_0 :
    ∃ (h : FmdReq) (v : Word) (s : State) (k : Nat) (u : State), let c : Instr := .mirrorDestWrite h v; Runs c s k u ∧ s.mgt.custKey.isSome = true :=
  ⟨rq, 0#64, { mS with fab := { mS.fab with mirrorGib := 1 } }, 1, runU (.mirrorDestWrite rq 0#64) ({ mS with fab := { mS.fab with mirrorGib := 1 } }) 1, runs_of (by decide +kernel), by decide +kernel⟩

theorem witness_RegistersAreWritten_9 :
    ∃ (h : FmdReq) (p : Nat) (v : Word) (s : State) (k : Nat) (u : State), let c : Instr := .mirrorCfgWrite h p v; Runs c s k u ∧ s.mgt.custKey.isSome = true ∧ (isLanePort s p = true ∨ (272 ≤ p ∧ portIdOk p = true)) :=
  ⟨rq, 4, 0x3#64, mS, 1, runU (.mirrorCfgWrite rq 4 0x3#64) mS 1, runs_of (by decide +kernel), by decide +kernel⟩

theorem witness_RegistersAreWritten_10 :
    ∃ (h : FmdReq) (v : Word) (s : State) (k : Nat) (u : State), let c : Instr := .lagSelWrite h v; Runs c s k u ∧ s.mgt.custKey.isSome = true :=
  ⟨rq, BitVec.ofNat 64 (2 ^ 62 + 2 ^ 50), mS, 1, runU (.lagSelWrite rq (BitVec.ofNat 64 (2 ^ 62 + 2 ^ 50))) mS 1, runs_of (by decide +kernel), by decide +kernel⟩

theorem witness_RegistersAreWritten_11 :
    ∃ (h : FmdReq) (d : Nat) (v : Word) (s : State) (k : Nat) (u : State), let c : Instr := .lagClear h d v; Runs c s k u ∧ s.mgt.custKey.isSome = true ∧ d < 4 :=
  ⟨rq, 1, 2#64, { mS with coll := { mS.coll with lagWorst := [(17, 5), (20, 6)], lag := [(17 * 2 ^ 15, (1, 2)), (20 * 2 ^ 15, (1, 2))] } }, 1, runU (.lagClear rq 1 2#64) ({ mS with coll := { mS.coll with lagWorst := [(17, 5), (20, 6)], lag := [(17 * 2 ^ 15, (1, 2)), (20 * 2 ^ 15, (1, 2))] } }) 1, runs_of (by decide +kernel), by decide +kernel⟩

theorem witness_RegistersAreWritten_12 :
    ∃ (h : FmdReq) (v : Word) (s : State) (k : Nat) (u : State), let c : Instr := .timSet h v; Runs c s k u ∧ s.mgt.custKey.isSome = true :=
  ⟨rq, 77#64, setTim (mSt .sync) (fun t => { t with master := true }), 1, runU (.timSet rq 77#64) (setTim (mSt .sync) (fun t => { t with master := true })) 1, runs_of (by decide +kernel), by decide +kernel⟩

theorem witness_RegistersAreWritten_13 :
    ∃ (h : FmdReq) (s : State) (k : Nat) (u : State), let c : Instr := .detach h; Runs c s k u ∧ s.mgt.custKey.isSome = true :=
  ⟨rq, mS, 1, runU (.detach rq) mS 1, runs_of (by decide +kernel), by decide +kernel⟩

theorem witness_RegistersAreWritten_14 :
    ∃ (h : FmdReq) (s : State) (k : Nat) (u : State), let c : Instr := .forceSolo h; Runs c s k u ∧ s.mgt.custKey.isSome = true :=
  ⟨rq, setLane (setTwin mS (fun t => { t with st := .detached, intact := true })) 256 (fun L => { L with st := .down }), 1, runU (.forceSolo rq) (setLane (setTwin mS (fun t => { t with st := .detached, intact := true })) 256 (fun L => { L with st := .down })) 1, runs_of (by decide +kernel), by decide +kernel⟩

theorem witness_RegistersAreWritten_15 :
    ∃ (h : FmdReq) (l n : Nat) (e : Bool) (s : State) (k : Nat) (u : State), let c : Instr := .retrain h l n e; let L := laneAt s l; Runs c s k u ∧ s.mgt.custKey.isSome = true ∧ l < 272 ∧ L.enable = true :=
  ⟨rq, 4, 3, true, mS, 1, runU (.retrain rq 4 3 true) mS 1, runs_of (by decide +kernel), by decide +kernel⟩

theorem witness_RegistersAreWritten_16 :
    ∃ (h : FmdReq) (l n : Nat) (e : Bool) (s : State) (k : Nat) (u : State), let c : Instr := .laneEnable h l n e; Runs c s k u ∧ s.mgt.custKey.isSome = true ∧ l < 272 :=
  ⟨rq, 4, 3, false, mS, 1, runU (.laneEnable rq 4 3 false) mS 1, runs_of (by decide +kernel), by decide +kernel⟩

theorem witness_RegistersAreWritten_17 :
    ∃ (h : FmdReq) (s : State) (k : Nat) (u : State), let c : Instr := .burnCust h; Runs c s k u :=
  ⟨rq, mS, 1, runU (.burnCust rq) mS 1, runs_of (by decide +kernel)⟩

theorem witness_RegistersAreWritten_18 :
    ∃ (h : FmdReq) (v : Nat) (s : State) (k : Nat) (u : State), let c : Instr := .svnAdvance h v; Runs c s k u :=
  ⟨rq, 9, mS, 1, runU (.svnAdvance rq 9) mS 1, runs_of (by decide +kernel)⟩

theorem witness_RegistersAreWritten_19_cust :
    ∃ (s : State), s.mgt.burn ≠ .none :=
  ⟨setMgt mS (fun m => { m with burn := .cust [1, 2] }), by decide +kernel⟩

theorem witness_RegistersAreWritten_19_both :
    ∃ (s : State), s.mgt.burn ≠ .none :=
  ⟨setMgt mS (fun m => { m with burn := .both [1, 2] 4 }), by decide +kernel⟩

theorem witness_SnapshotsRingsAndTraces_0 :
    ∃ (h : FmdReq) (s : State) (k : Nat) (u : State), let c : Instr := .counterSnapshotTake h; Runs c s k u :=
  ⟨rq, mS, 1, runU (.counterSnapshotTake rq) mS 1, runs_of (by decide +kernel)⟩

theorem witness_SnapshotsRingsAndTraces_1 :
    ∃ (h : FmdReq) (s : State) (k : Nat) (u : State), let c : Instr := .counterSnapshotRelease h; Runs c s k u :=
  ⟨rq, { mS with snap := some ⟨1, 3, none⟩ }, 1, runU (.counterSnapshotRelease rq) ({ mS with snap := some ⟨1, 3, none⟩ }) 1, runs_of (by decide +kernel)⟩

theorem witness_SnapshotsRingsAndTraces_2 :
    ∃ (s : State) (x : Snap) (k tag n : Nat), s.snap = some x ∧ x.copy = none ∧ x.time ≤ s.fabricTime ∧ s.dbg.snapOwed = [(k, tag, n)] ∧ n ≤ s.fabricTime ∧ (sessAt s k).valid = true :=
  ⟨{ mS with fabricTime := 9, snap := some ⟨1, 3, none⟩, dbg := { mS.dbg with snapOwed := [(1, 5, 3)] } }, (⟨1, 3, none⟩ : Snap), 1, 5, 3, by decide +kernel⟩

theorem witness_SnapshotsRingsAndTraces_3 :
    ∃ (s : State) (x : Snap), s.snap = some x ∧ x.time + 60000000000 ≤ s.fabricTime :=
  ⟨{ mS with fabricTime := 60000000003, snap := some ⟨1, 3, none⟩ }, (⟨1, 3, none⟩ : Snap), by decide +kernel⟩

theorem witness_SnapshotsRingsAndTraces_4 :
    ∃ (h : FmdReq) (r f n : Nat) (s : State) (k : Nat) (u : State), let c : Instr := .eventRingRead h r f n; Runs c s k u :=
  ⟨rq, 2, 0, 2, mS, 1, runU (.eventRingRead rq 2 0 2) mS 1, runs_of (by decide +kernel)⟩

theorem witness_SnapshotsRingsAndTraces_5 :
    ∃ (h : FmdReq) (m : Nat) (s : State) (k : Nat) (u : State), let c : Instr := .traceCtrlStart h m; Runs c s k u :=
  ⟨rq, 1, { mS with dbg := { mS.dbg with traceGib := 1 }, mgt := { mS.mgt with ddr := List.replicate 8 (1, 64, 6400) } }, 1, runU (.traceCtrlStart rq 1) ({ mS with dbg := { mS.dbg with traceGib := 1 }, mgt := { mS.mgt with ddr := List.replicate 8 (1, 64, 6400) } }) 1, runs_of (by decide +kernel)⟩

theorem witness_SnapshotsRingsAndTraces_6 :
    ∃ (h : FmdReq) (s : State) (k : Nat) (u : State), let c : Instr := .traceCtrlStop h; Runs c s k u :=
  ⟨rq, { mS with dbg := { mS.dbg with running := true } }, 1, runU (.traceCtrlStop rq) ({ mS with dbg := { mS.dbg with running := true } }) 1, runs_of (by decide +kernel)⟩

theorem witness_SnapshotsRingsAndTraces_7 :
    ∃ (h : FmdReq) (s : State) (k : Nat) (u : State), let c : Instr := .traceCtrlStatus h; Runs c s k u :=
  ⟨rq, mS, 1, runU (.traceCtrlStatus rq) mS 1, runs_of (by decide +kernel)⟩

theorem witness_SnapshotsRingsAndTraces_8 :
    ∃ (h : FmdReq) (x : Word) (j : BitVec 16) (s : State) (k : Nat) (u : State), let c : Instr := .traceCtrlFilter h x j; Runs c s k u :=
  ⟨rq, (BitVec.ofNat _ 0x3F), (BitVec.ofNat _ 3), mS, 1, runU (.traceCtrlFilter rq ((BitVec.ofNat _ 0x3F)) ((BitVec.ofNat _ 3))) mS 1, runs_of (by decide +kernel)⟩

theorem witness_SnapshotsRingsAndTraces_9 :
    ∃ (s : State), s.dbg.running = true ∧ s.dbg.draining = true :=
  ⟨{ mS with dbg := { mS.dbg with running := true, draining := true, queue := [⟨1, 2, 3, 0, 0, 0, 0, 0, 0⟩] } }, by decide +kernel⟩

theorem witness_SnapshotsRingsAndTraces_10 :
    ∃ (s : State) (r : TraceRec) (rest : List TraceRec), s.dbg.queue = r :: rest ∧ s.dbg.running = true ∧ mirrorWaits s = false :=
  ⟨{ mS with dbg := { mS.dbg with traceGib := 1, running := true, queue := [((⟨1, 2, 3, 0, 0, 0, 0, 0, 0⟩ : TraceRec))] } }, (⟨1, 2, 3, 0, 0, 0, 0, 0, 0⟩ : TraceRec), ([] : List TraceRec), by decide +kernel⟩

theorem witness_SnapshotsRingsAndTraces_11 :
    ∃ (h : FmdReq) (m : BitVec 16) (s : State) (k : Nat) (u : State), let c : Instr := .attnAck h m; Runs c s k u :=
  ⟨rq, (BitVec.ofNat _ 0x4000), { mS with attn := 0x6000#16 }, 1, runU (.attnAck rq ((BitVec.ofNat _ 0x4000))) ({ mS with attn := 0x6000#16 }) 1, runs_of (by decide +kernel)⟩

theorem witness_SnapshotsRingsAndTraces_12 :
    ∃ (h : FmdReq) (s : State) (k : Nat) (u : State), let c : Instr := .fmdNop h; Runs c s k u :=
  ⟨rq, mS, 1, runU (.fmdNop rq) mS 1, runs_of (by decide +kernel)⟩

theorem witness_SnapshotsRingsAndTraces_13 :
    ∃ (h : FmdReq) (op : Nat) (bs : List Byte) (s : State) (k : Nat), h.slot = some k ∧ listens s = true ∧ (sessAt s k).valid = true ∧ seqOk (sessAt s k) h.seq = true ∧ cached s k h.tag op bs = none :=
  ⟨rq, 0x7F, ([1] : List Byte), mS, 1, by decide +kernel⟩

theorem witness_QueuesArePushedAndRequeued_0 :
    ∃ (h : FmdReq) (q : Nat) (n : BitVec 16) (ws : List Word) (s : State) (k : Nat) (u : State), let c : Instr := .queuePush h q n ws; Runs c s k u :=
  ⟨rq, 3, (0 : BitVec 16), [5#64], withQ 3 { runQ .vec [1#64] with st := .idle, ring := [] } mS, 1, runU (.queuePush rq 3 ((0 : BitVec 16)) ([5#64])) (withQ 3 { runQ .vec [1#64] with st := .idle, ring := [] } mS) 1, runs_of (by decide +kernel)⟩

theorem witness_QueuesArePushedAndRequeued_2 :
    ∃ (h : FmdReq) (q e : Nat) (s : State) (k : Nat) (u : State), let c : Instr := .requeue h q e; Runs c s k u :=
  ⟨rq, 3, 4, withQ 3 { runQ .vec [1#64] with st := .halted, nextSeq := 7 } mS, 1, runU (.requeue rq 3 4) (withQ 3 { runQ .vec [1#64] with st := .halted, nextSeq := 7 } mS) 1, runs_of (by decide +kernel)⟩

theorem witness_LoadsAndImages_0 :
    ∃ (h : FmdReq) (j : Nat) (s : State) (k : Nat) (u : State), let c : Instr := .topiaryLoad h j; Runs c s k u :=
  ⟨rq, 2, mS, 1, runU (.topiaryLoad rq 2) mS 1, runs_of (by decide +kernel)⟩

theorem witness_LoadsAndImages_1 :
    ∃ (h : FmdReq) (j o : Nat) (bs : List Byte) (s : State) (k : Nat) (u : State), Runs (.imagePush h 0 j o bs) s k u :=
  ⟨rq, 2, 2, ([7] : List Byte), setMgt mS (fun m => { m with loads := [{ job := 2, session := 1, bytes := [1, 2] }] }), 1, runU (.imagePush rq 0 2 2 (([7] : List Byte))) (setMgt mS (fun m => { m with loads := [{ job := 2, session := 1, bytes := [1, 2] }] })) 1, runs_of (by decide +kernel)⟩

theorem witness_LoadsAndImages_1_hdr :
    ∃ (h : FmdReq) (j o : Nat) (bs : List Byte) (s : State) (k : Nat) (u : State), Runs (.imagePush h 0 j o bs) s k u :=
  ⟨rq, 2, 2, (List.replicate 300 7 : List Byte), setMgt mS (fun m => { m with loads := [{ job := 2, session := 1, bytes := [1, 2] }] }), 1, runU (.imagePush rq 0 2 2 ((List.replicate 300 7 : List Byte))) (setMgt mS (fun m => { m with loads := [{ job := 2, session := 1, bytes := [1, 2] }] })) 1, runs_of (by decide +kernel)⟩

theorem witness_LoadsAndImages_1_none :
    ∃ (h : FmdReq) (j o : Nat) (bs : List Byte) (s : State) (k : Nat) (u : State), Runs (.imagePush h 0 j o bs) s k u :=
  ⟨rq, 3, 2, ([7] : List Byte), setMgt mS (fun m => { m with loads := [{ job := 2, session := 1, bytes := [1, 2] }] }), 1, runU (.imagePush rq 0 3 2 (([7] : List Byte))) (setMgt mS (fun m => { m with loads := [{ job := 2, session := 1, bytes := [1, 2] }] })) 1, runs_of (by decide +kernel)⟩

theorem witness_LoadsAndImages_2 :
    ∃ (h : FmdReq) (i j o : Nat) (bs : List Byte) (s : State) (k : Nat) (u : State), let c : Instr := .imagePush h i j o bs; (i = 1 ∨ i = 2) ∧ Runs c s k u :=
  ⟨rq, 1, 0, 0, (List.replicate 16 0 : List Byte), mS, 1, runU (.imagePush rq 1 0 0 ((List.replicate 16 0 : List Byte))) mS 1, by decide +kernel, runs_of (by decide +kernel)⟩

theorem witness_LoadsAndImages_3 :
    ∃ (h : FmdReq) (j : Nat) (x : Word) (s : State) (k : Nat) (u : State), let c : Instr := .topiaryCommit h j x; Runs c s k u :=
  ⟨rq, 2, (5 : BitVec 64), setMgt mS (fun m => { m with loads := [{ job := 2, session := 1, bytes := [1, 2] }] }), 1, runU (.topiaryCommit rq 2 ((5 : BitVec 64))) (setMgt mS (fun m => { m with loads := [{ job := 2, session := 1, bytes := [1, 2] }] })) 1, runs_of (by decide +kernel)⟩

theorem witness_LoadsAndImages_6 :
    ∃ (j : Nat) (s : State), j ∈ s.mgt.unloading :=
  ⟨0, setMgt { mS with tops := [] } (fun m => { m with unloading := [0] }), by decide +kernel⟩

theorem witness_LoadsAndImages_7 :
    ∃ (h : FmdReq) (j : Nat) (e : Bool) (x p n o len : Nat) (s : State) (k : Nat) (u : State), Runs (.checkpointRead h j e x p n o len) s k u :=
  ⟨rq, 0, false, 1, 1, 5, 8, 16, mgtS (setShard shardS 0 1 (fun rq => { rq with flipped := some 5 })), 1, runU (.checkpointRead rq 0 false 1 1 5 8 16) (mgtS (setShard shardS 0 1 (fun rq => { rq with flipped := some 5 }))) 1, runs_of (by decide +kernel)⟩

theorem witness_LoadsAndImages_7_range :
    ∃ (h : FmdReq) (j : Nat) (e : Bool) (x p n o len : Nat) (s : State) (k : Nat) (u : State), Runs (.checkpointRead h j e x p n o len) s k u :=
  ⟨rq, 0, false, 1, 1, 5, 4, 16, mgtS (setShard shardS 0 1 (fun rq => { rq with flipped := some 5 })), 1, runU (.checkpointRead rq 0 false 1 1 5 4 16) (mgtS (setShard shardS 0 1 (fun rq => { rq with flipped := some 5 }))) 1, runs_of (by decide +kernel)⟩

theorem witness_LoadsAndImages_7_epoch :
    ∃ (h : FmdReq) (j : Nat) (e : Bool) (x p n o len : Nat) (s : State) (k : Nat) (u : State), Runs (.checkpointRead h j e x p n o len) s k u :=
  ⟨rq, 0, false, 1, 1, 6, 8, 16, mgtS (setShard shardS 0 1 (fun rq => { rq with flipped := some 5 })), 1, runU (.checkpointRead rq 0 false 1 1 6 8 16) (mgtS (setShard shardS 0 1 (fun rq => { rq with flipped := some 5 }))) 1, runs_of (by decide +kernel)⟩

theorem witness_LoadsAndImages_9 :
    ∃ (h : FmdReq) (r : Nat) (s : State) (k : Nat) (u : State), let c : Instr := .nvmWrite h r; Runs c s k u :=
  ⟨rq, 1, setMgt mS (fun m => { m with stagedCfg := some { session := 1, bytes := [1], complete := true, verified := true } }), 1, runU (.nvmWrite rq 1) (setMgt mS (fun m => { m with stagedCfg := some { session := 1, bytes := [1], complete := true, verified := true } })) 1, runs_of (by decide +kernel)⟩

theorem witness_LoadsAndImages_10 :
    ∃ (s : State) (k r : Nat) (bs : List Byte), s.mgt.nvm = some (k, r, bs) :=
  ⟨setMgt mS (fun m => { m with nvm := some (1, 1, [1]) }), 1, 1, ([1] : List Byte), by decide +kernel⟩

theorem witness_RecoveryOperations_0 :
    ∃ (c : Instr) (s : State) (k : Nat) (u : State) (op : Nat) (key : List Nat) (r : Running), Runs c s k u ∧ runningOp s op key = some r :=
  ⟨Instr.rollbackEpoch rq 0 3, setMgt mS (fun m => { m with running := [(({ opcode := 0x51, key := [0, 3] } : Running))] }), 1, runU (Instr.rollbackEpoch rq 0 3) (setMgt mS (fun m => { m with running := [(({ opcode := 0x51, key := [0, 3] } : Running))] })) 1, 0x51, [0, 3], ({ opcode := 0x51, key := [0, 3] } : Running), runs_of (by decide +kernel), by decide +kernel⟩

theorem witness_RecoveryOperations_1 :
    ∃ (h : FmdReq) (j o e : Nat) (s : State) (k : Nat) (u : State), Runs (.resetCollective h j o e) s k u ∧ runningOp s 0x50 [j, e, o] = none :=
  ⟨rq, 0, 7, 0, mS, 1, runU (.resetCollective rq 0 7 0) mS 1, runs_of (by decide +kernel), by decide +kernel⟩

theorem witness_RecoveryOperations_1_range :
    ∃ (h : FmdReq) (j o e : Nat) (s : State) (k : Nat) (u : State), Runs (.resetCollective h j o e) s k u ∧ runningOp s 0x50 [j, e, o] = none :=
  ⟨rq, 0, 70, 0, mS, 1, runU (.resetCollective rq 0 70 0) mS 1, runs_of (by decide +kernel), by decide +kernel⟩

theorem witness_RecoveryOperations_1_ok :
    ∃ (h : FmdReq) (j o e : Nat) (s : State) (k : Nat) (u : State), Runs (.resetCollective h j o e) s k u ∧ runningOp s 0x50 [j, e, o] = none :=
  ⟨rq, 0, 7, 0, setColl mS 0 0 7 (fun c => { c with completed := true }), 1, runU (.resetCollective rq 0 7 0) (setColl mS 0 0 7 (fun c => { c with completed := true })) 1, runs_of (by decide +kernel), by decide +kernel⟩

theorem witness_RecoveryOperations_2 :
    ∃ (h : FmdReq) (j e : Nat) (s : State) (k : Nat) (u : State), let c : Instr := .rollbackEpoch h j e; Runs c s k u ∧ runningOp s 0x51 [j, e] = none :=
  ⟨rq, 0, 3, withQ 3 (runQ .vec []) (setJob (mgtS (twinS .solo)) 0 (fun J => { J with oldest := 3 })), 1, runU (.rollbackEpoch rq 0 3) (withQ 3 (runQ .vec []) (setJob (mgtS (twinS .solo)) 0 (fun J => { J with oldest := 3 }))) 1, runs_of (by decide +kernel), by decide +kernel⟩

theorem witness_RecoveryOperations_3 :
    ∃ (h : FmdReq) (d i l : Nat) (s : State) (k : Nat) (u : State), let c : Instr := .remapUnit h d i l; Runs c s k u ∧ runningOp s 0x52 [d, i, l] = none :=
  ⟨rq, 0, 1, 3, setInteg mS (fun x => { x with quar := [(⟨0, 1, 0, 3, 3, 1, 1, 0, false⟩ : QuarRec)] }), 1, runU (.remapUnit rq 0 1 3) (setInteg mS (fun x => { x with quar := [(⟨0, 1, 0, 3, 3, 1, 1, 0, false⟩ : QuarRec)] })) 1, runs_of (by decide +kernel), by decide +kernel⟩

theorem witness_RecoveryOperations_4 :
    ∃ (h : FmdReq) (s : State) (k : Nat) (u : State), let c : Instr := .resyncTwin h; Runs c s k u :=
  ⟨rq, mS, 1, runU (.resyncTwin rq) mS 1, runs_of (by decide +kernel)⟩

theorem witness_RecoveryOperations_5 :
    ∃ (h : FmdReq) (i req : Nat) (s : State) (k : Nat), 4 ≤ reqKind req ∧ h.slot = some k ∧ listens s = true ∧ (sessAt s k).valid = true ∧ seqOk (sessAt s k) h.seq = true ∧ cached s k h.tag 0x55 (leBytes 1 i ++ [0] ++ beBytes 2 req) = none :=
  ⟨rq, 0, 4 * 2 ^ 13, mS, 1, by decide +kernel⟩

theorem witness_RecoveryOperations_6 :
    ∃ (h : FmdReq) (i req : Nat) (s : State) (k : Nat) (u : State), let c : Instr := .masterRelease h i req; Runs c s k u :=
  ⟨rq, 0, reqId 0 8 0, setBpm mS 0 (fun B => { B with frozen := [reqId 0 8 0] }), 1, runU (.masterRelease rq 0 (reqId 0 8 0)) (setBpm mS 0 (fun B => { B with frozen := [reqId 0 8 0] })) 1, runs_of (by decide +kernel)⟩

theorem witness_RecoveryOperations_7 :
    ∃ (h : FmdReq) (x : Word32) (s : State) (k : Nat) (u : State), Runs (.moduleReset h x) s k u :=
  ⟨rq, (0 : BitVec 32), mS, 1, runU (.moduleReset rq ((0 : BitVec 32))) mS 1, runs_of (by decide +kernel)⟩

theorem witness_RecoveryOperations_7_bad :
    ∃ (h : FmdReq) (x : Word32) (s : State) (k : Nat) (u : State), Runs (.moduleReset h x) s k u :=
  ⟨rq, (7 : BitVec 32), mS, 1, runU (.moduleReset rq ((7 : BitVec 32))) mS 1, runs_of (by decide +kernel)⟩

theorem witness_RecoveryOperations_8_remap :
    ∃ (i : Nat) (s : State) (r : Running), s.mgt.running[i]? = some r ∧ r.result = none :=
  ⟨0, setMgt (setInteg mS (fun x => { x with quar := [(⟨0, 1, 0, 3, 3, 1, 1, 0, false⟩ : QuarRec)] })) (fun m => { m with running := [(({ opcode := 0x52, key := [0, 1, 3] } : Running))] }), ({ opcode := 0x52, key := [0, 1, 3] } : Running), by decide +kernel⟩

/-- A command that answers a next state answers `after`. -/
theorem next_after {c : Instr} {s : State} (h : (match exec c s with | .next _ => true | _ => false) = true) :
    exec c s = .next (after c s) := by
  unfold after
  split at h <;> simp_all

theorem step_after {c : Instr} {s s' : State} (hs : s' = { s with pending := [c] })
    (h : (match exec c { s with pending := [] } with | .next _ => true | _ => false) = true) :
    step s' = .next (after c { s with pending := [] }) := by
  subst hs
  exact next_after h

theorem witness_IdleStepTicks_0 : ∃ s : State, s.pending = [] := ⟨State.reset, rfl⟩

theorem witness_StepKeepsOk_0 : ∃ s t : State, s.Ok ∧ step s = .next t :=
  ⟨{ ringS [0x0200000000000000#64] with pending := [.endProg 0] },
    after (.endProg 0) { ringS [0x0200000000000000#64] with pending := [] },
    ⟨by decide +kernel, by decide +kernel⟩, step_after rfl (by decide +kernel)⟩

theorem witness_CommandsKeepTheQueue_0 : ∃ (c : Instr) (s t : State), exec c s = .next t ∧ s.Ok :=
  ⟨.endProg 0, ringS [0x0200000000000000#64],
    after (.endProg 0) (ringS [0x0200000000000000#64]), next_after (by decide +kernel), ⟨by decide +kernel, by decide +kernel⟩⟩

theorem witness_ArmedComparatorDrivesItsPredicate_0 :
    ∃ (Q : Queue) (i : Nat) (k : Comparator), Q.k[i]? = some k ∧ k.armed = true ∧ k.pred < Q.p.length ∧
      ∀ j x, Q.k[j]? = some x → x.armed = true → x.pred = k.pred → j = i := by
  refine ⟨{ ({} : Queue) with k := [⟨true, true, 1, 2, 3, 4⟩] }, 0, ⟨true, true, 1, 2, 3, 4⟩, rfl, rfl,
    by decide, ?_⟩
  intro j x h _ _
  cases j with
  | zero => rfl
  | succ j => cases j <;> cases h

theorem witness_LoadsAndImages_4 :
    ∃ (j : Nat) (s : State) (L : LoadSess), s.Ok ∧ loadOf s j = some L ∧ L.committed = true :=
  ⟨2, setMgt mS (fun m => { m with loads := [{ job := 2, session := 1, bytes := [1, 2], committed := true }] }),
    { job := 2, session := 1, bytes := [1, 2], committed := true },
    ⟨by decide +kernel, by decide +kernel⟩, by decide +kernel, rfl⟩

theorem witness_LoadsAndImages_5 :
    ∃ (h : FmdReq) (j : Nat) (s : State) (k : Nat) (u : State), s.Ok ∧ Runs (.topiaryUnload h j) s k u :=
  ⟨rq, 0, mS, 1, runU (.topiaryUnload rq 0) mS 1, ⟨by decide +kernel, by decide +kernel⟩, runs_of (by decide +kernel)⟩

end Sys2Proof.Machine
end

section
/-! The instruction set's scalar, control, flag, digest and fence words (R245, R247, R248, R270, R272, R273, R286):
what an issued word does to its queue, and the obligations O7, O9, O11 and O22. -/

namespace Sys2Proof.Machine

/-! ### Comparators leave every field but the predicates -/

section Drive

variable {Q : Queue}

@[simp] theorem driveComparators_s : (driveComparators Q).s = Q.s := by rw [driveComparators_eq]
@[simp] theorem driveComparators_c : (driveComparators Q).c = Q.c := by rw [driveComparators_eq]
@[simp] theorem driveComparators_h : (driveComparators Q).h = Q.h := by rw [driveComparators_eq]
@[simp] theorem driveComparators_digests : (driveComparators Q).digests = Q.digests := by rw [driveComparators_eq]
@[simp] theorem driveComparators_inSeg : (driveComparators Q).inSeg = Q.inSeg := by rw [driveComparators_eq]
@[simp] theorem driveComparators_seg : (driveComparators Q).seg = Q.seg := by rw [driveComparators_eq]
@[simp] theorem driveComparators_pc : (driveComparators Q).pc = Q.pc := by rw [driveComparators_eq]
@[simp] theorem driveComparators_ring : (driveComparators Q).ring = Q.ring := by rw [driveComparators_eq]
@[simp] theorem driveComparators_head : (driveComparators Q).head = Q.head := by rw [driveComparators_eq]
@[simp] theorem driveComparators_job : (driveComparators Q).job = Q.job := by rw [driveComparators_eq]

theorem driveComparators_regs :
    (driveComparators Q).regs = { Q.regs with p := (driveComparators Q).p } := by rw [driveComparators_eq]; rfl

end Drive

/-! ### Positions -/

theorem Stands.of_posView {s t : State} {q : Nat} (h : posView t = posView s) : Stands s t q := by
  have e := congrFun h q
  simp only [posView, Prod.mk.injEq] at e
  exact e

/-- Moving past a word speaks of where the queue stands before and after, and of nothing else. -/
theorem Moved.of_posView {s s' t t' : State} {q : Nat} (hm : Moved s' t' q) (hs : posView s = posView s')
    (ht : posView t = posView t') : Moved s t q := by
  obtain ⟨s1, s2, s3, s4, s5⟩ := Stands.of_posView (q := q) hs
  obtain ⟨t1, t2, t3, t4, t5⟩ := Stands.of_posView (q := q) ht
  unfold Moved at hm ⊢
  dsimp only at hm ⊢
  rwa [s1, s2, s3, s4, s5, t1, t2, t3, t4, t5]

/-! ### Frames -/

theorem KeepsOutside.trans {s t u : State} (h : KeepsOutside s t) (k : KeepsOutside t u) : KeepsOutside s u :=
  ⟨k.tops.trans h.tops, k.fab.trans h.fab, k.coll.trans h.coll, k.integ.trans h.integ, k.pwr.trans h.pwr,
    k.mgt.trans h.mgt, k.snap.trans h.snap, k.pins.trans h.pins⟩

/-- Counting the issue of a word changes nothing that a change of its queue's scalar state is judged by. -/
theorem coreView_setQueue_bumpQue {s : State} {q k r : Nat} {f : Queue → Queue} :
    coreView (setQueue (bumpQue s q k) r f) = coreView (setQueue s r f) := by
  unfold bumpQue; dsimp only; split <;> rfl

theorem setQueue_setQueue {s : State} {q : Nat} {f g : Queue → Queue} :
    setQueue (setQueue s q f) q g = setQueue s q (g ∘ f) := by
  simp [setQueue, List.modify_modify_eq]

/-! ### Scheduling -/

theorem schedule_wait {s : State} {q : Nat} (h : (queueAt s q).st ≠ .preempted) :
    (queueAt (schedule s) q).wait = (queueAt s q).wait := by
  have e := congrArg Queue.wait (schedule_still h)
  exact e

theorem schedule_st {s : State} {q : Nat} (h : (queueAt s q).st ≠ .preempted) :
    (queueAt (schedule s) q).st = (queueAt s q).st := by
  have e := congrArg Queue.st (schedule_still h)
  exact e

/-! ### What an issued word leaves -/

theorem Issues.lt_bumpQue {s : State} {q op : Nat} {w : Word} (h : Issues s q op w) :
    q < (bumpQue s q 0).comp.queues.length := by
  rw [bumpQue_comp]
  exact h.lt

section Words

variable {s u : State} {q op : Nat} {w : Word} {eff : Word → Queue → State → Issue}

/-- A word whose effect is `g` on its queue with the comparators driven after it. -/
theorem driven_command (g : Queue → Queue) (h : Issues s q op w)
    (he : eff w (queueAt s q) (bumpQue s q 0) = .done (setQueue (bumpQue s q 0) q (fun Q => driveComparators (g Q))))
    (hp : (g (queueAt s q)).inSeg = (queueAt s q).inSeg ∧ (g (queueAt s q)).seg = (queueAt s q).seg ∧
      (g (queueAt s q)).pc = (queueAt s q).pc ∧ (g (queueAt s q)).ring = (queueAt s q).ring ∧
      (g (queueAt s q)).head = (queueAt s q).head) :
    regsOf (traced s (issue op q s eff)) q =
        { (g (queueAt s q)).regs with p := (driveComparators (g (queueAt s q))).p } ∧
      Moved s (traced s (issue op q s eff)) q ∧ ScalarFrame s (traced s (issue op q s eff)) q := by
  obtain ⟨hr, hm, hf⟩ := scalar_command (fun Q => driveComparators (g Q)) h he (by simpa using hp)
  exact ⟨hr.trans driveComparators_regs, hm, hf⟩

/-- A word whose effect leaves the positions as they are moves its queue past itself. -/
theorem issue_done_moved (h : Issues s q op w) (he : eff w (queueAt s q) (bumpQue s q 0) = .done u)
    (hp : posView u = posView s) (hl : u.comp.queues.length = s.comp.queues.length) :
    Moved s (traced s (issue op q s eff)) q := by
  rw [issue_done h he]
  exact Moved.of_posView (advance_moved (hl ▸ h.lt)) hp.symm posView_traced

/-- A word that does nothing but pass. -/
theorem passing_command (h : Issues s q op w) (he : eff w (queueAt s q) (bumpQue s q 0) = .done (bumpQue s q 0)) :
    regsOf (traced s (issue op q s eff)) q = regsOf s q ∧
      Moved s (traced s (issue op q s eff)) q ∧ ScalarFrame s (traced s (issue op q s eff)) q := by
  have hm := issue_done_moved h he posView_bumpQue (by rw [bumpQue_comp])
  have hc : coreView (traced s (issue op q s eff)) = coreView s := by
    rw [issue_done h he, coreView_traced, coreView_advance, coreView_bumpQue]
  exact ⟨regsOf_of_coreView hc q, hm, ScalarFrame.of_coreView hc⟩

/-- A word that keeps its queue, changed by `f`. -/
theorem staying_command (f : Queue → Queue) (h : Issues s q op w)
    (he : eff w (queueAt s q) (bumpQue s q 0) = .stay (setQueue (bumpQue s q 0) q f)) :
    queueAt (traced s (issue op q s eff)) q = f (queueAt s q) ∧ ScalarFrame s (traced s (issue op q s eff)) q := by
  rw [issue_stay h he]
  have hq := h.lt_bumpQue
  constructor
  · rw [traced_queueAt, queueAt_setQueue_self hq, bumpQue_queueAt]
  · exact (ScalarFrame.of_setQueue coreView_setQueue_bumpQue).traced

end Words

/-! ### Scalar integer words and comparators (R245, R248) -/

/-- The queue with the comparator that a CMPARM word describes armed in its slot (R248). -/
def withComparator (w : Word) (Q : Queue) : Queue :=
  let k : Comparator :=
    { armed := true, scalar := field w 48 48 == 1
      src := if field w 48 48 = 1 then field w 47 44 else field w 46 44
      cond := field w 43 41, pred := field w 40 38, bound := wImm w }
  let ks := Q.k.map (fun c => if c.armed && c.pred == k.pred then { c with armed := false } else c)
  { Q with k := ks.set (field w 50 49) k }

theorem armComparator_eq (w : Word) : armComparator w = fun Q => driveComparators (withComparator w Q) := rfl

/-- The words of `aluOf` are the scalar operation with their opcode and value. -/
theorem exec_aluOf {c : Instr} {q op : Nat} {f : Queue → Word → Word32} (h : aluOf c = some (q, op, f)) (s : State) :
    exec c s = .next (traced s (scalarOp op (fun w Q => f Q w) q s)) := by
  unfold aluOf at h
  split at h <;> cases h <;> rfl

/-- Settles O7: each word is one change of its queue, after which armed comparators drive their predicates. -/
theorem scalarWordsAct : Obligations.ScalarWordsAct := by
  refine ⟨fun c q op f s w hc hw => ⟨_, exec_aluOf hc s, ?alu⟩, fun q s w hw => ⟨_, rfl, ?pset⟩,
    fun q s w hw => ⟨_, rfl, ?cset⟩, fun q s w hw => ⟨_, rfl, ?cmparm⟩, fun q s w hw => ⟨_, rfl, ?cmpoff⟩⟩
  case alu =>
    exact driven_command (fun Q => { Q with s := Q.s.set (wR3 w) (f (queueAt s q) w) }) hw rfl ⟨rfl, rfl, rfl, rfl, rfl⟩
  case pset =>
    exact scalar_command (writePred (field w 49 47) (field w 0 0 == 1)) hw rfl ⟨rfl, rfl, rfl, rfl, rfl⟩
  case cset =>
    exact driven_command (fun Q => { Q with c := Q.c.set (field w 49 47) (operand2 (queueAt s q) w) }) hw rfl
      ⟨rfl, rfl, rfl, rfl, rfl⟩
  case cmparm =>
    exact driven_command (withComparator w) hw (by rw [← armComparator_eq]) ⟨rfl, rfl, rfl, rfl, rfl⟩
  case cmpoff =>
    exact scalar_command (fun Q => { Q with k := Q.k.modify (field w 50 49) (fun c => { c with armed := false }) })
      hw rfl ⟨rfl, rfl, rfl, rfl, rfl⟩

/-! ### Control words (R247, R286) -/

/-- A queue outside a segment whose ring word was its last is IDLE when it moves past it (R294). -/
theorem advance_idle {s : State} {q : Nat} (hq : q < s.comp.queues.length) (hs : (queueAt s q).inSeg = false)
    (hr : (queueAt s q).ring.tail = []) : (queueAt (advance s q) q).st = .idle := by
  unfold advance; dsimp only
  generalize hu : setQueue s q _ = u
  have hat : (queueAt u q).inSeg = false ∧ (queueAt u q).ring = [] := by
    rw [← hu, queueAt_setQueue_self hq, if_neg (by simp [hs])]
    exact ⟨hs, hr⟩
  have hlen : q < u.comp.queues.length := by rw [← hu, setQueue_length]; exact hq
  rw [if_pos (by simp [hat])]
  generalize hv : releaseFrames (setQueue u q _) q = v
  have hidle : (queueAt v q).st = .idle := by
    rw [← hv]
    exact congrArg Queue.st (queueAt_setQueue_self hlen)
  exact (schedule_st (by rw [hidle]; decide)).trans hidle

/-- END of a queue: it leaves its segment, and with its ring word it leaves the ring (R247, R286). -/
theorem end_command {s : State} {q : Nat} {w : Word} (h : Issues s q 0x01 w) :
    let t := traced s (doEnd q s)
    regsOf t q = regsOf s q ∧ (queueAt t q).inSeg = false ∧ (queueAt t q).ring = (queueAt s q).ring.tail ∧
      (queueAt t q).head = ((queueAt s q).head + 1) % 2 ^ 14 ∧
      ((queueAt s q).ring.tail = [] → (queueAt t q).st = .idle) ∧ ScalarFrame s t q := by
  dsimp only
  unfold doEnd
  rw [issue_done h rfl]
  generalize hu : setQueue (bumpQue s q 0) q _ = u
  have hq := h.lt_bumpQue
  have hlen : q < u.comp.queues.length := by rw [← hu, setQueue_length]; exact hq
  have hat : queueAt u q = { queueAt s q with inSeg := false, pc := 0 } := by
    rw [← hu, queueAt_setQueue_self hq, bumpQue_queueAt]
  have hc : coreView (advance u q) = coreView s := by
    rw [coreView_advance, ← hu]
    refine (coreView_setQueue ?_).trans coreView_bumpQue
    exact fun _ => ⟨rfl, rfl, rfl, rfl, rfl, rfl⟩
  have hm := advance_moved hlen
  unfold Moved at hm
  rw [hat] at hm
  obtain ⟨hseg, hring, hhead⟩ := hm
  refine ⟨regsOf_of_coreView hc q, hseg, hring, hhead, fun hr => ?_, (ScalarFrame.of_coreView hc).traced⟩
  exact advance_idle hlen (by rw [hat]) (by rw [hat]; exact hr)

theorem segWords_of_tops {s t : State} (h : t.tops = s.tops) : segWords t = segWords s := by
  funext job seg
  unfold segWords topOf
  rw [h]

/-- A branch to word `tgt` inside the segment (R247). -/
theorem branchTo_inside {s : State} {q tgt : Nat} {off : Int} (ht : ((queueAt s q).pc : Int) + off = tgt)
    (hl : tgt < (segWords s (queueAt s q).job (queueAt s q).seg).length) :
    branchTo s q off = .stay (setQueue s q (fun Q => { Q with pc := tgt })) := by
  unfold branchTo
  simp only [ht, Int.toNat_natCast]
  exact if_neg (by omega)

/-- BR with its target inside the segment: the queue stands at the target (R247). -/
theorem br_command {s : State} {q tgt : Nat} {w : Word} (h : Issues s q 0x02 w)
    (ht : ((queueAt s q).pc : Int) + wOff w = tgt)
    (hl : tgt < (segWords s (queueAt s q).job (queueAt s q).seg).length) :
    queueAt (traced s (doBr q s)) q = { queueAt s q with pc := tgt } ∧ ScalarFrame s (traced s (doBr q s)) q :=
  staying_command (fun Q => { Q with pc := tgt }) h (branchTo_inside (by rwa [bumpQue_queueAt])
    (by rwa [bumpQue_queueAt, segWords_of_tops (s := s) bumpQue_tops]))

/-- SEG_RUN enters its segment at word 0 (R286). -/
theorem segRun_command {s : State} {q : Nat} {w : Word} (h : Issues s q 0xE0 w) :
    queueAt (traced s (doSegRun q s)) q = { queueAt s q with inSeg := true, seg := field w 11 0, pc := 0 } ∧
      ScalarFrame s (traced s (doSegRun q s)) q :=
  staying_command (fun Q => { Q with inSeg := true, seg := field w 11 0, pc := 0 }) h rfl

/-- DBNZ whose counter does not reach 0, with its target inside the segment: the counter is written and the queue stands
at the target (R247). -/
theorem dbnz_taken {s : State} {q tgt : Nat} {w : Word} (h : Issues s q 0x03 w)
    (hv : (queueAt s q).c.getD (wCnt w) 0 - 1 ≠ 0) (ht : ((queueAt s q).pc : Int) + wOff w = tgt)
    (hl : tgt < (segWords s (queueAt s q).job (queueAt s q).seg).length) :
    queueAt (traced s (doDbnz q s)) q =
        { writeC (queueAt s q) (wCnt w) ((queueAt s q).c.getD (wCnt w) 0 - 1) with pc := tgt } ∧
      ScalarFrame s (traced s (doDbnz q s)) q := by
  have hq := h.lt_bumpQue
  refine staying_command (fun Q => { writeC Q (wCnt w) ((queueAt s q).c.getD (wCnt w) 0 - 1) with pc := tgt }) h ?_
  dsimp only
  rw [if_neg hv, branchTo_inside (tgt := tgt), setQueue_setQueue]
  · rfl
  · rw [queueAt_setQueue_self hq, bumpQue_queueAt]
    simpa [writeC] using ht
  · rw [queueAt_setQueue_self hq, bumpQue_queueAt, segWords_of_tops (s := s) (by simp)]
    simpa [writeC] using hl

/-- Settles O9: NOP passes, END leaves the ring word, a branch sets the place, SEG_RUN enters word 0 of its segment. -/
theorem controlWordsMoveTheQueue : Obligations.ControlWordsMoveTheQueue := by
  refine ⟨fun q s w hw => ⟨_, rfl, passing_command hw rfl⟩, fun q s w hw => ⟨_, rfl, end_command hw⟩, ?br, ?dbnz, ?segRun⟩
  case br =>
    intro q s w hw Q tgt h0 hl
    obtain ⟨hat, hf⟩ := br_command hw (Int.toNat_of_nonneg h0).symm hl
    have hr := congrArg Queue.regs hat
    refine ⟨_, rfl, hr, ?_, ?_, ?_, ?_, hf⟩ <;> rw [hat]
  case dbnz =>
    intro q s w hw Q v c' tgt hin
    refine ⟨_, rfl, ?_⟩
    by_cases hv : v = 0
    · rw [if_pos hv]
      exact driven_command (fun Q => { Q with c := Q.c.set (wCnt w) v }) hw (if_pos hv) ⟨rfl, rfl, rfl, rfl, rfl⟩
    · rw [if_neg hv]
      obtain ⟨h0, hl⟩ := hin hv
      obtain ⟨hat, hf⟩ := dbnz_taken hw hv (Int.toNat_of_nonneg h0).symm hl
      have hr := (congrArg Queue.regs hat).trans (driveComparators_regs (Q := { Q with c := c' }))
      exact ⟨hr, ⟨congrArg Queue.pc hat, (congrArg Queue.inSeg hat).trans driveComparators_inSeg,
        (congrArg Queue.ring hat).trans driveComparators_ring⟩, hf⟩
  case segRun =>
    intro q s w hw
    obtain ⟨hat, hf⟩ := segRun_command hw
    have hr := congrArg Queue.regs hat
    refine ⟨_, rfl, hr, ?_, ?_, ?_, ?_, hf⟩ <;> rw [hat]

/-! ### Exception flags and digests (R272, R273) -/

theorem flagsOr_eq (s : State) (Q : Queue) : flagsOr s Q =
    if Q.qtype = .mtx then (lookupD s.comp.fpMtx Q.die {}).flags
    else (gangGroups Q).foldl (fun f g => f ||| (lookupD s.comp.fpVec (128 * Q.die + g) {}).flags) 0 := by
  unfold flagsOr
  split
  next hm => rw [if_pos hm]
  next hm => rw [if_neg hm]

/-- Counting a word changes no FPFLAGS register. -/
theorem flagsOr_bumpQue {s : State} {q k : Nat} (Q : Queue) : flagsOr (bumpQue s q k) Q = flagsOr s Q := by
  unfold flagsOr
  rw [bumpQue_comp]

theorem FpReg.w1c_w1c (r : FpReg) (m : FpFlags) : (r.w1c m).w1c m = r.w1c m := by
  simp [FpReg.w1c, BitVec.and_assoc]

/-- Clearing flags of a register that stands at its reset value leaves it there. -/
theorem FpReg.w1c_default (m : FpFlags) : FpReg.w1c {} m = {} := by
  simp [FpReg.w1c]

/-- W1C on register `i` of a list; `d` stands for what an unlisted register reads. -/
theorem lookupD_fpClear {i j : Nat} {m : FpFlags} {d : FpReg} (hd : d.w1c m = d) (rs : List (Nat × FpReg)) :
    lookupD (fpClear rs i m) j d = if j = i then (lookupD rs j d).w1c m else lookupD rs j d := by
  induction rs with
  | nil => simp [fpClear, lookupD, hd]
  | cons x rs ih =>
    obtain ⟨k, r⟩ := x
    unfold fpClear at ih ⊢
    by_cases hk : k = i
    · by_cases hj : i = j
      · simp [lookupD, hk, hj]
      · simp [lookupD, hk, hj, ih]
    · by_cases hj : k = j
      · simp [lookupD, ← hj, hk]
      · simp [lookupD, hk, hj, ih]

/-- W1C on the registers of several groups, one after another. -/
theorem lookupD_foldl_fpClear {b i : Nat} {m : FpFlags} {d : FpReg} (hd : d.w1c m = d) (gs : List Nat)
    (rs : List (Nat × FpReg)) :
    lookupD (gs.foldl (fun rs g => fpClear rs (b + g) m) rs) i d =
      if i ∈ gs.map (b + ·) then (lookupD rs i d).w1c m else lookupD rs i d := by
  induction gs generalizing rs with
  | nil => simp
  | cons g gs ih =>
    rw [List.foldl_cons, ih, lookupD_fpClear hd, List.map_cons]
    by_cases hg : i = b + g
    · simp [hg, FpReg.w1c_w1c]
    · simp [hg]

/-- A word that changes engine registers of the compute dies, and neither queues nor memory. -/
theorem comp_command {s : State} {q op : Nat} {w : Word} {eff : Word → Queue → State → Issue} {C : Comp}
    (h : Issues s q op w) (he : eff w (queueAt s q) (bumpQue s q 0) = .done { bumpQue s q 0 with comp := C })
    (hq : C.queues = s.comp.queues) (hmem : C.mem = s.comp.mem) :
    let t := traced s (issue op q s eff)
    (∀ r, regsOf t r = regsOf s r) ∧ Moved s t q ∧ KeepsOutside s t ∧ t.comp.mem = s.comp.mem ∧
      t.comp.fpVec = C.fpVec ∧ t.comp.fpMtx = C.fpMtx := by
  dsimp only
  have hat : queueAt { bumpQue s q 0 with comp := C } = queueAt s := by funext r; unfold queueAt; rw [hq]
  have hm := issue_done_moved h he (by unfold posView; rw [hat]) (by rw [hq])
  rw [issue_done h he] at hm ⊢
  have hadv : coreView (advance { bumpQue s q 0 with comp := C } q) = coreView { bumpQue s q 0 with comp := C } :=
    coreView_advance
  obtain ⟨amem, aeng, -, aout⟩ := ScalarFrame.of_coreView (q := q) hadv
  have hout : KeepsOutside s (bumpQue s q 0) := (ScalarFrame.of_coreView (q := q) coreView_bumpQue).outside
  have hout' : KeepsOutside s { bumpQue s q 0 with comp := C } :=
    ⟨hout.tops, hout.fab, hout.coll, hout.integ, hout.pwr, hout.mgt, hout.snap, hout.pins⟩
  refine ⟨fun r => ?_, hm, (hout'.trans aout).traced, amem.trans hmem, aeng.fpVec, aeng.fpMtx⟩
  rw [traced_regsOf, regsOf_of_coreView hadv]
  unfold regsOf
  rw [hat]

/-- FLAGS_CLR in an MTX queue clears flags of its die's array alone (R272). -/
theorem flagsClr_mtx {s : State} {q : Nat} {w : Word} (h : Issues s q 0x1D w) (hm : (queueAt s q).qtype = .mtx) :
    let t := traced s (doFlagsClr q s)
    (∀ r, regsOf t r = regsOf s r) ∧ Moved s t q ∧ KeepsOutside s t ∧ t.comp.mem = s.comp.mem ∧
      t.comp.fpVec = s.comp.fpVec ∧
      t.comp.fpMtx = fpClear s.comp.fpMtx (queueAt s q).die (BitVec.ofNat 8 (field w 7 0)) := by
  refine comp_command (C := { s.comp with
    fpMtx := fpClear s.comp.fpMtx (queueAt s q).die (BitVec.ofNat 8 (field w 7 0)) }) h ?_ rfl rfl
  simp only [hm, bumpQue_comp]

/-- FLAGS_CLR in a VEC queue clears flags of its gang's groups alone (R272). -/
theorem flagsClr_gang {s : State} {q : Nat} {w : Word} (h : Issues s q 0x1D w) (hm : (queueAt s q).qtype ≠ .mtx) :
    let t := traced s (doFlagsClr q s)
    (∀ r, regsOf t r = regsOf s r) ∧ Moved s t q ∧ KeepsOutside s t ∧ t.comp.mem = s.comp.mem ∧
      t.comp.fpVec = (gangGroups (queueAt s q)).foldl
        (fun rs g => fpClear rs (128 * (queueAt s q).die + g) (BitVec.ofNat 8 (field w 7 0))) s.comp.fpVec ∧
      t.comp.fpMtx = s.comp.fpMtx := by
  refine comp_command (C := { s.comp with
    fpVec := (gangGroups (queueAt s q)).foldl
      (fun rs g => fpClear rs (128 * (queueAt s q).die + g) (BitVec.ofNat 8 (field w 7 0))) s.comp.fpVec }) h ?_ rfl rfl
  dsimp only
  split
  next e => exact absurd e hm
  next => rw [bumpQue_comp]

/-- The queue after DIGEST_RD has read digest `d`: both halves written and the slot restarted (R273). -/
def takeDigest (w : Word) (d : Nat) (Q : Queue) : Queue :=
  writeS (writeS { Q with digests := Q.digests.set (field w 3 0) 0 } (wR3 w) (BitVec.ofNat 32 d))
    ((wR3 w + 1) % 16) (BitVec.ofNat 32 (d >>> 32))

section TakeDigest

variable {w : Word} {d : Nat} {Q : Queue}

theorem takeDigest_s : (takeDigest w d Q).s =
    (Q.s.set (wR3 w) (BitVec.ofNat 32 d)).set ((wR3 w + 1) % 16) (BitVec.ofNat 32 (d >>> 32)) := by
  simp [takeDigest, writeS]
theorem takeDigest_digests : (takeDigest w d Q).digests = Q.digests.set (field w 3 0) 0 := by simp [takeDigest, writeS]
theorem takeDigest_c : (takeDigest w d Q).c = Q.c := by simp [takeDigest, writeS]
theorem takeDigest_h : (takeDigest w d Q).h = Q.h := by simp [takeDigest, writeS]

end TakeDigest

/-- DIGEST_RD as one change of its queue (R273). -/
theorem digestRd_command {s : State} {q : Nat} {w : Word} (h : Issues s q 0x1E w) :
    let t := traced s (doDigestRd q s)
    regsOf t q = (takeDigest w ((queueAt s q).digests.getD (field w 3 0) 0) (queueAt s q)).regs ∧ Moved s t q ∧
      ScalarFrame s t q :=
  scalar_command (takeDigest w ((queueAt s q).digests.getD (field w 3 0) 0)) h rfl (by simp [takeDigest, writeS])

/-- Settles O11: FLAGS_RD and DIGEST_RD write scalar registers; FLAGS_CLR is W1C on each register of the gang, or on the
array's. -/
theorem flagAndDigestWords : Obligations.FlagAndDigestWords := by
  refine ⟨fun q s w hw => ⟨_, rfl, ?rd⟩, fun q s w hw => ⟨_, rfl, ?clr⟩, fun q s w hw => ⟨_, rfl, ?digest⟩⟩
  case rd =>
    dsimp only
    rw [← flagsOr_eq, ← flagsOr_bumpQue (q := q) (k := 0)]
    exact driven_command
      (fun Q => { Q with s := Q.s.set (wR3 w) ((flagsOr (bumpQue s q 0) (queueAt s q)).setWidth 32) })
      hw rfl ⟨rfl, rfl, rfl, rfl, rfl⟩
  case clr =>
    dsimp only
    by_cases hm : (queueAt s q).qtype = .mtx
    · obtain ⟨hr, hmv, hout, hmem, hvec, hmtx⟩ := flagsClr_mtx hw hm
      rw [if_pos hm]
      exact ⟨hr q, ⟨hvec, fun d => by rw [hmtx]; exact lookupD_fpClear (FpReg.w1c_default _) _⟩, hmv,
        fun r _ => hr r, hout, hmem⟩
    · obtain ⟨hr, hmv, hout, hmem, hvec, hmtx⟩ := flagsClr_gang hw hm
      rw [if_neg hm]
      exact ⟨hr q, ⟨hmtx, fun i => by rw [hvec]; exact lookupD_foldl_fpClear (FpReg.w1c_default _) _ _⟩, hmv,
        fun r _ => hr r, hout, hmem⟩
  case digest =>
    obtain ⟨hr, hmv, hf⟩ := digestRd_command hw
    exact ⟨⟨(congrArg QRegs.s hr).trans takeDigest_s, (congrArg QRegs.digests hr).trans takeDigest_digests,
      (congrArg QRegs.c hr).trans takeDigest_c, (congrArg QRegs.h hr).trans takeDigest_h⟩, hmv, hf⟩

/-! ### Fences (R270) -/

theorem outstanding_bumpQue {s : State} {q k r : Nat} : outstanding (bumpQue s q k) r = outstanding s r := by
  unfold outstanding
  rw [bumpQue_queueAt, bumpQue_comp]

/-- Scheduling leaves a queue that has just entered WAIT in it. -/
theorem schedule_waiting {s : State} {q : Nat} {k : WaitKind} (hq : q < s.comp.queues.length) :
    let t := schedule (setQueue s q (fun Q => { Q with st := .wait, wait := k, stopAsked := false }))
    (queueAt t q).st = .wait ∧ (queueAt t q).wait = k := by
  have hat := queueAt_setQueue_self (f := fun Q => { Q with st := .wait, wait := k, stopAsked := false }) hq
  have hst := congrArg Queue.st hat
  have hne := ne_of_eq_of_ne hst (by decide : QState.wait ≠ .preempted)
  exact ⟨(schedule_st hne).trans hst, (schedule_wait hne).trans (congrArg Queue.wait hat)⟩

/-- A queue that enters WAIT stands in it, with what it waits for. -/
theorem enterWait_waits {s : State} {q : Nat} {k : WaitKind} (hq : q < s.comp.queues.length) :
    (queueAt (enterWait s q k) q).st = .wait ∧ (queueAt (enterWait s q k) q).wait = k := by
  unfold enterWait; dsimp only
  split
  · exact schedule_waiting (by rwa [bumpQue_comp])
  · exact schedule_waiting hq

theorem setQueue_wait {s : State} {q r : Nat} {f : Queue → Queue} (hf : ∀ Q, (f Q).wait = Q.wait) :
    (queueAt (setQueue s q f) r).wait = (queueAt s r).wait := by
  rw [queueAt_setQueue]
  split
  · exact hf _
  · rfl

/-- A queue that takes its executor with no wait pending has none then. -/
theorem enterRun_wait {s : State} {q : Nat} (h : (queueAt s q).wait = .none) : (queueAt (enterRun s q) q).wait = .none := by
  unfold enterRun; dsimp only
  split
  · rw [queueAt_setQueue]
    split
    · rfl
    · exact h
  · split
    · refine (setQueue_wait ?_).trans h
      exact fun _ => rfl
    · refine (setQueue_wait ?_).trans h
      exact fun _ => rfl

theorem arbitrate_wait {s : State} {q : Nat} (h : (queueAt s q).wait = .none) : (queueAt (arbitrate s q) q).wait = .none := by
  unfold arbitrate; dsimp only
  split
  · exact enterRun_wait h
  · have hp := (setQueue_wait (s := s) (q := q) (r := q) (f := fun Q => { Q with st := .preempted })
      (fun _ => rfl)).trans h
    split
    · exact (congrArg Queue.wait (stillOf_foldl_stop _ _)).trans hp
    · exact hp

theorem resumeQueue_wait {s : State} {q : Nat} (h : (queueAt s q).wait = .none) :
    (queueAt (resumeQueue s q) q).wait = .none := by
  unfold resumeQueue; dsimp only
  split
  next hi => rw [schedule_wait (by rw [hi]; decide)]; exact arbitrate_wait h
  next => exact arbitrate_wait h

@[simp] theorem posView_resumeQueue {s : State} {q : Nat} : posView (resumeQueue s q) = posView s := by
  unfold resumeQueue; dsimp only
  split <;> simp

theorem leaveWord_wait {s : State} {q : Nat} (hq : q < s.comp.queues.length) : (queueAt (leaveWord s q) q).wait = .none := by
  unfold leaveWord
  rw [queueAt_setQueue_self hq]
  split <;> rfl

theorem leaveWord_moved {s : State} {q : Nat} (hq : q < s.comp.queues.length) : Moved s (leaveWord s q) q := by
  unfold Moved leaveWord; dsimp only
  rw [queueAt_setQueue_self hq]
  split <;> simp_all

/-- The end of a wait moves the queue past its word, and no wait is left (R292, R294). -/
theorem endWait_moved {s : State} {q : Nat} (hq : q < s.comp.queues.length) :
    Moved s (endWait s q) q ∧ (queueAt (endWait s q) q).wait = .none := by
  unfold endWait; dsimp only
  split
  · exact ⟨Moved.of_posView (leaveWord_moved hq) rfl posView_resumeQueue, resumeQueue_wait (leaveWord_wait hq)⟩
  · exact ⟨leaveWord_moved hq, leaveWord_wait hq⟩

/-- A fence over outstanding work puts its queue in WAIT at it (R270). -/
theorem fence_waits {s : State} {q : Nat} {w : Word} (h : Issues s q 0xA3 w) (ho : outstanding s q = true) :
    let t := traced s (doFence q s)
    (Stands s t q ∧ (queueAt t q).st = .wait ∧ (queueAt t q).wait = .fence) ∧ regsOf t q = regsOf s q ∧ ScalarFrame s t q := by
  have hi : doFence q s = enterWait (bumpQue s q 0) q .fence :=
    issue_stay h (if_pos (by rw [outstanding_bumpQue]; exact ho))
  have hq := h.lt_bumpQue
  have hc : coreView (traced s (enterWait (bumpQue s q 0) q .fence)) = coreView s := by simp
  dsimp only
  rw [hi]
  exact ⟨⟨Stands.of_posView (by simp), enterWait_waits hq⟩, regsOf_of_coreView hc q, ScalarFrame.of_coreView hc⟩

/-- A fence with no work outstanding passes (R270). -/
theorem fence_passes {s : State} {q : Nat} {w : Word} (h : Issues s q 0xA3 w) (ho : ¬ outstanding s q = true) :
    let t := traced s (doFence q s)
    Moved s t q ∧ regsOf t q = regsOf s q ∧ ScalarFrame s t q := by
  have hp := passing_command (eff := fun _ _ s => if outstanding s q then .stay (enterWait s q .fence) else .done s) h
    (if_neg (by rwa [outstanding_bumpQue]))
  exact and_left_comm.mp hp

/-- Settles O22: a fence passes, or waits and passes later, by whether work of its queue is outstanding. -/
theorem fencesWaitForOutstandingWork : Obligations.FencesWaitForOutstandingWork := by
  refine ⟨fun q s w hw => ⟨_, rfl, ?issued⟩, fun q s hst hwait ho hq => ⟨_, rfl, ?completed⟩⟩
  case issued =>
    by_cases ho : outstanding s q = true
    · rw [if_pos ho]
      exact fence_waits hw ho
    · rw [if_neg ho]
      exact fence_passes hw ho
  case completed =>
    have hi : doFenceComplete q s = endWait s q := by
      simp [doFenceComplete, hst, hwait, ho]
    have hc : coreView (traced s (endWait s q)) = coreView s := by simp
    obtain ⟨hm, hn⟩ := endWait_moved hq
    rw [hi]
    exact ⟨hn, hm, regsOf_of_coreView hc q, ScalarFrame.of_coreView hc⟩

end Sys2Proof.Machine
end

section
/-! Management requests whose operation runs (R535 to R540), QUEUE_PUSH and REQUEUE (R291, R297): what such a request
changes beside its operation, what it answers, and the obligation O58. -/

namespace Sys2Proof.Machine

/-! ### The cells of a session (R375 to R378, R538) -/

/-- The state without what a charge to the first buffer pool manager changes: its own cells, the FAULT bit, credits and the
numbers of allocations. -/
def chargeView (s : State) : State × (Nat → Bpm) × (Nat → Port) :=
  ({ s with attn := s.attn ||| aFault, freeCtr := 0, fab := { s.fab with bpm := [], ports := [], nextAlloc := 0 } },
    fun i => bpmAt s (i + 1), fun p => creditless (portAt s p))

section Charges

variable {s t u : State}

@[simp] theorem chargeView_setBpm_zero {f : Bpm → Bpm} : chargeView (setBpm s 0 f) = chargeView s := by
  have h : (fun i => bpmAt (setBpm s 0 f) (i + 1)) = fun i => bpmAt s (i + 1) := by
    funext i
    simp [bpmAt_setBpm]
  unfold chargeView
  rw [h]
  rfl

@[simp] theorem chargeView_cntBpm_zero {k n : Nat} : chargeView (cntBpm s 0 k n) = chargeView s := chargeView_setBpm_zero

@[simp] theorem chargeView_setAttn_fault : chargeView (setAttn s aFault) = chargeView s := by
  have h : (setAttn s aFault).attn ||| aFault = s.attn ||| aFault := by
    simp [setAttn, BitVec.or_assoc]
  unfold chargeView
  rw [h]
  rfl

theorem chargeView_setPort {p : Nat} {f : Port → Port} (hf : ∀ P, creditless (f P) = creditless P) :
    chargeView (setPort s p f) = chargeView s := by
  have h : (fun r => creditless (portAt (setPort s p f) r)) = fun r => creditless (portAt s r) := by
    funext r
    rw [portAt_setPort]
    split
    next e => rw [hf, e]
    next => rfl
  unfold chargeView
  rw [h]
  rfl

@[simp] theorem chargeView_returnCredit {p c n : Nat} : chargeView (returnCredit s p c n) = chargeView s :=
  chargeView_setPort (fun _ => rfl)

@[simp] theorem chargeView_releaseWithheld {i p : Nat} : chargeView (releaseWithheld s i p) = chargeView s := by
  unfold releaseWithheld
  refine foldl_keeps (fun s e => foldl_keeps (fun s c => ?_) _ _) _ _
  dsimp only
  split
  · rfl
  · exact chargeView_returnCredit.trans (chargeView_setPort (fun _ => rfl))

@[simp] theorem chargeView_relevel_zero {p : Nat} : chargeView (relevel s 0 p) = chargeView s := by
  unfold relevel
  extract_lets B P l s1 s2 s3 s4
  have h2 : chargeView s2 = chargeView s := by unfold s2; split <;> simp [s1]
  have h3 : chargeView s3 = chargeView s := by unfold s3; split <;> simp [h2]
  have h4 : chargeView s4 = chargeView s := by unfold s4; split <;> simp [h3]
  split <;> simp [h4]

theorem chargeView_bpmAlloc {r n id : Nat} {hs : List Holder} (h : bpmAlloc s 0 r n hs = .ok t id) :
    chargeView t = chargeView s := by
  unfold bpmAlloc at h
  dsimp only at h
  split at h
  · cases h
  · split at h
    · injection h with ht _
      rw [← ht, chargeView_relevel_zero, chargeView_cntBpm_zero, chargeView_setBpm_zero]
      rfl
    · cases h
    · cases h

@[simp] theorem chargeView_dropAlloc {id : Nat} : chargeView (dropAlloc s 0 id) = chargeView s := by
  unfold dropAlloc
  split <;> simp

theorem chargeView_sessionCells {k n : Nat} {x : Option Nat} (h : sessionCells s k n = some (u, x)) :
    chargeView u = chargeView s := by
  unfold sessionCells at h
  dsimp only at h
  split at h
  · cases h; rfl
  · split at h
    next ha => cases h; exact chargeView_bpmAlloc ha
    next => cases h

theorem mgt_of_chargeView (h : chargeView t = chargeView s) : t.mgt = s.mgt := congrArg (·.1.mgt) h

end Charges

/-! ### What a request may change beside its operation -/

/-- `v` with every part that a request may change taken from `t`. -/
def settledAs (v t : State) : State :=
  { v with
    mgt := { v.mgt with replies := t.mgt.replies, sessions := t.mgt.sessions, fmdCnt := t.mgt.fmdCnt }
    fab := { v.fab with bpm := t.fab.bpm, ports := t.fab.ports, nextAlloc := t.fab.nextAlloc }
    attn := t.attn, freeCtr := t.freeCtr, dbg := { v.dbg with queue := t.dbg.queue, drops := t.dbg.drops } }

section Settling

variable {k : Nat} {s u v w t : State}

theorem Settled.eq_settledAs (h : Settled k v t) : t = settledAs v t := h.rest

theorem Settled.refl : Settled k s s := ⟨rfl, rfl, fun _ _ => rfl, fun _ => rfl, fun _ _ => rfl⟩

theorem Settled.trans (h : Settled k v w) (g : Settled k w t) : Settled k v t where
  rest := g.eq_settledAs.trans (congrArg (settledAs · t) h.eq_settledAs :)
  attn := g.attn.trans h.attn
  pools i hi := (g.pools i hi).trans (h.pools i hi)
  ports p := (g.ports p).trans (h.ports p)
  sessions j hj := (g.sessions j hj).trans (h.sessions j hj)

theorem Settled.of_chargeView (h : chargeView t = chargeView v) : Settled k v t where
  rest := (congrArg (fun x => settledAs x.1 t) h :)
  attn := congrArg (·.1.attn) h
  pools i hi := by
    obtain ⟨j, rfl⟩ := Nat.exists_eq_succ_of_ne_zero hi
    exact congrArg (·.2.1 j) h
  ports p := congrArg (·.2.2 p) h
  sessions j _ := congrArg (fun x => sessAt x.1 j) h

theorem Settled.comp_eq (h : Settled k v t) : t.comp = v.comp := (congrArg State.comp h.eq_settledAs :)
theorem Settled.rings_eq (h : Settled k v t) : t.rings = v.rings := (congrArg State.rings h.eq_settledAs :)
theorem Settled.queCnt_eq (h : Settled k v t) : t.dbg.queCnt = v.dbg.queCnt := (congrArg (·.dbg.queCnt) h.eq_settledAs :)

theorem Settled.queueAt_eq (h : Settled k v t) : queueAt t = queueAt v := by
  funext q
  unfold queueAt
  rw [h.comp_eq]

theorem Settled.regsOf_eq (h : Settled k v t) : regsOf t = regsOf v := by
  funext q
  unfold regsOf
  rw [h.queueAt_eq]

theorem Settled.blockers_eq (h : Settled k v t) : blockers t = blockers v := by
  funext q
  unfold blockers
  rw [h.queueAt_eq]

/-- The same change of a queue on both sides keeps what a request changes apart. -/
theorem Settled.congr_setQueue {q : Nat} {f : Queue → Queue} (h : Settled k s u) :
    Settled k (setQueue s q f) (setQueue u q f) :=
  ⟨(congrArg (setQueue · q f) h.eq_settledAs :), h.attn, h.pools, h.ports, h.sessions⟩

theorem settled_bumpFmd {i : Nat} : Settled k s (bumpFmd s i) := ⟨rfl, rfl, fun _ _ => rfl, fun _ => rfl, fun _ _ => rfl⟩

theorem settled_sendReply {tag op : Nat} {r : Res} {pl : List Byte} : Settled k s (sendReply s k tag op r pl) :=
  ⟨rfl, rfl, fun _ _ => rfl, fun _ => rfl, fun _ _ => rfl⟩

theorem settled_setSess {f : Session → Session} : Settled k s (setSess s k f) where
  rest := rfl
  attn := rfl
  pools _ _ := rfl
  ports _ := rfl
  sessions j hj := by rw [sessAt_setSess, if_neg (fun h => hj h.1.symm)]

theorem settled_finishReply {tag op crc : Nat} {r : Res} {pl : List Byte} :
    Settled k s (finishReply s k tag op crc r pl) := by
  unfold finishReply
  dsimp only
  split
  · exact settled_bumpFmd.trans settled_sendReply
  · exact settled_setSess.trans settled_sendReply

/-- The debug block without its queue of trace records. -/
def offTrace (g : Dbg) : Dbg := { g with queue := [], drops := 0 }

theorem offTrace_pushTrace {g : Dbg} {r : TraceRec} : offTrace (pushTrace g r) = offTrace g := by
  unfold pushTrace
  split
  · rfl
  · split <;> rfl

theorem offTrace_foldl_pushTrace (rs : List TraceRec) (g : Dbg) : offTrace (rs.foldl pushTrace g) = offTrace g := by
  induction rs generalizing g with
  | nil => rfl
  | cons r rs ih => exact (ih _).trans offTrace_pushTrace

/-- Trace records enter their queue, or are counted as dropped, and change nothing else (R562). -/
theorem foldl_pushTrace (rs : List TraceRec) (g : Dbg) : rs.foldl pushTrace g =
    { g with queue := (rs.foldl pushTrace g).queue, drops := (rs.foldl pushTrace g).drops } :=
  (congrArg (fun x : Dbg => { x with queue := (rs.foldl pushTrace g).queue, drops := (rs.foldl pushTrace g).drops })
    (offTrace_foldl_pushTrace rs g) :)

theorem settled_traced : Settled k t (traced s t) where
  rest := by
    unfold traced
    split
    · exact congrArg (fun g => { t with dbg := g }) (foldl_pushTrace _ _)
    · rfl
  attn := rfl
  pools _ _ := rfl
  ports _ := rfl
  sessions _ _ := rfl

end Settling

/-! ### What a request answers (R536, R539, R540) -/

section Answering

variable {c : Instr} {h : FmdReq} {k op tag crc sub : Nat} {ops pl : List Byte} {bad free : Bool} {r : Res} {x : Option Nat}
  {act : State → Answer} {s u w z : State}

/-- A valid session is one of the slots. -/
theorem valid_lt (hv : (sessAt s k).valid = true) : k < s.mgt.sessions.length := by
  by_contra hk
  simp [sessAt, List.getD_eq_getElem?_getD, List.getElem?_eq_none (Nat.le_of_not_lt hk)] at hv

theorem sessAt_of_mgt {t : State} (hm : t.mgt = s.mgt) : sessAt t = sessAt s := by
  funext j
  unfold sessAt
  rw [hm]

theorem settled_noteMessage : Settled k s (noteMessage s k h) := settled_setSess

theorem sessAt_noteMessage (hv : (sessAt s k).valid = true) :
    (sessAt (noteMessage s k h) k).lastAt = s.now ∧ (sessAt (noteMessage s k h) k).valid = true ∧
      (sessAt (noteMessage s k h) k).cache = (sessAt s k).cache := by
  unfold noteMessage
  rw [sessAt_setSess, if_pos ⟨rfl, valid_lt hv⟩]
  exact ⟨rfl, hv, rfl⟩

/-- The cells charged to a request go back when it ends (R538). -/
def returnCells (s : State) : Option Nat → State
  | some id => dropAlloc s 0 id
  | none => s

theorem chargeView_returnCells : chargeView (returnCells s x) = chargeView s := by
  cases x with
  | none => rfl
  | some id => exact chargeView_dropAlloc

/-- A request that is not put off is counted among the requests served (R553). -/
def countRequest (r : Res) (s : State) : State := if r = .busy then s else bumpFmd s 2

theorem settled_countRequest : Settled k s (countRequest r s) := by
  unfold countRequest
  split
  · exact .refl
  · exact settled_bumpFmd

theorem sessAt_countRequest : sessAt (countRequest r s) = sessAt s := by
  unfold countRequest
  split <;> rfl

theorem countRequest_replies : (countRequest r s).mgt.replies = s.mgt.replies := by
  unfold countRequest
  split <;> rfl

theorem countRequest_fmdCnt :
    (countRequest r s).mgt.fmdCnt = if r = .busy then s.mgt.fmdCnt else bumpAt s.mgt.fmdCnt 2 1 := by
  unfold countRequest
  split <;> rfl

/-- A request whose operation ends at once is answered with the operation's result (R539). -/
theorem run_answered (hc : cacheHit s k tag op ops = none) (ht : tag ≠ 0xFFFF)
    (hf : free = true ∨ isFrozen s 0 (reqId 3 k 0) = false) (hm : sessionCells s k (8 + ops.length) = some (u, x))
    (ha : act u = (w, some (r, pl))) :
    runThen id k tag op ops false true free act s =
      finishReply (countRequest r (returnCells w x)) k tag op (crc32c ops) r pl := by
  unfold cacheHit at hc
  have hfree : (!free && isFrozen s 0 (reqId 3 k 0)) = false := by
    rcases hf with hf | hf <;> simp [hf]
  cases x <;> simp [runThen, hc, ht, hfree, hm, ha, returnCells, countRequest]

/-- The reply, the counter and the session's record of a request that ends (R536, R540, R549, R553). -/
theorem finishReply_mgt (hv : (sessAt z k).valid = true) :
    let y := finishReply z k tag op crc r pl
    y.mgt.replies = { session := k, tag := tag, opcode := op, result := r.code, attn := if k = 8 then 0 else attnByte y
                      payload := pl } :: z.mgt.replies ∧
    y.mgt.fmdCnt = (if r = .busy then bumpAt z.mgt.fmdCnt 4 1 else z.mgt.fmdCnt) ∧
    (r ≠ .busy → (sessAt y k).cache.head? = some ⟨tag, op, crc, r.code, pl⟩) ∧
    (sessAt y k).lastAt = (sessAt z k).lastAt ∧ (sessAt y k).valid = true := by
  unfold finishReply
  dsimp only
  split
  next hb => exact ⟨rfl, rfl, fun hn => absurd hb hn, rfl, hv⟩
  next hb =>
    have hs : sessAt (sendReply (cacheReply z k tag op crc r pl) k tag op r pl) k =
        { sessAt z k with cache := (⟨tag, op, crc, r.code, pl⟩ :: (sessAt z k).cache).take 64 } :=
      sessAt_setSess.trans (if_pos ⟨rfl, valid_lt hv⟩)
    rw [hs]
    exact ⟨rfl, rfl, fun _ => rfl, rfl, hv⟩

/-- The operation of a request runs in a state that differs from the command's own by what every request changes. -/
theorem Runs.settled (hr : Runs c s k u) : Settled k s u := by
  obtain ⟨h, op, ops, sub, free, x, -, -, -, -, -, -, -, -, -, hx⟩ := hr
  exact settled_noteMessage.trans (.of_chargeView (chargeView_sessionCells hx))

theorem Runs.not_bad (hr : Runs c s k u) (hf : fmdOf c = some (h, op, ops, bad, sub, free)) : bad = false := by
  obtain ⟨_, _, _, _, _, _, hf', -⟩ := hr
  rw [hf] at hf'
  cases hf'
  rfl

/-- What a request's operation runs in, and the reply that follows it (R539). -/
theorem Runs.request_eq (hr : Runs c s k u) (hf : fmdOf c = some (h, op, ops, bad, sub, free))
    (ha : act u = (w, some (r, pl))) :
    (sessAt s k).valid = true ∧ u.mgt = (noteMessage s k h).mgt ∧
    ∃ x, request h op ops bad (serves s op sub) free act s =
      finishReply (countRequest r (returnCells w x)) k h.tag op (crc32c ops) r pl := by
  obtain ⟨h', op', ops', sub', free', x, hf', hslot, hl, hv, hq, hc, ht, hserve, hfree, hx⟩ := hr
  rw [hf] at hf'
  cases hf'
  refine ⟨hv, mgt_of_chargeView (chargeView_sessionCells hx), x, ?_⟩
  rw [hserve]
  refine (request_accepted hl hslot hv hq).trans (run_answered ?_ ht hfree hx ha)
  unfold cacheHit
  rw [(sessAt_noteMessage hv).2.2]
  exact hc

/-- A request whose operation ends at once with the state `w`, apart from the request's own record: it is answered, and
what it changes beside that is what every request changes. Slot 8 is the model's mark of a PLAIN request, whose reply
carries no attention bits (R534). -/
theorem Runs.answered (hk : k ≠ 8) (hr : Runs c s k u) (hf : fmdOf c = some (h, op, ops, bad, sub, free))
    (he : exec c s = .next (traced s (request h op ops bad (serves s op sub) free act s)))
    (ha : act u = (w, some (r, pl))) (hm : w.mgt = u.mgt) :
    ∃ t, exec c s = .next t ∧ Answers c s t k r pl ∧ Settled k w t := by
  obtain ⟨hv, hu, x, hy⟩ := hr.request_eq hf ha
  rw [hy] at he
  have hc : Settled k w (returnCells w x) := .of_chargeView chargeView_returnCells
  refine ⟨_, he, ?_, hc.trans (settled_countRequest.trans (settled_finishReply.trans settled_traced))⟩
  intro h' op' ops' bad' sub' free' hf'
  rw [hf] at hf'
  cases hf'
  have hw : (returnCells w x).mgt = (noteMessage s k h).mgt :=
    (mgt_of_chargeView chargeView_returnCells).trans (hm.trans hu)
  have hz : sessAt (countRequest r (returnCells w x)) k = sessAt (noteMessage s k h) k := by
    rw [sessAt_countRequest, sessAt_of_mgt hw]
  obtain ⟨hlast, hvalid, -⟩ := sessAt_noteMessage (h := h) hv
  obtain ⟨hrep, hcnt, hcache, hl, hv'⟩ := finishReply_mgt (tag := h.tag) (op := op) (crc := crc32c ops) (r := r) (pl := pl)
    (hz ▸ hvalid : (sessAt (countRequest r (returnCells w x)) k).valid = true)
  refine ⟨?_, hcache, ?_, hl.trans (hz ▸ hlast), hv'⟩
  · refine hrep.trans ?_
    rw [if_neg hk, countRequest_replies, hw]
    rfl
  · refine hcnt.trans ?_
    rw [countRequest_fmdCnt, hw]
    split <;> rfl

theorem Runs.answered_unchanged (hk : k ≠ 8) (hr : Runs c s k u) (hf : fmdOf c = some (h, op, ops, bad, sub, free))
    (he : exec c s = .next (traced s (request h op ops bad (serves s op sub) free act s)))
    (ha : act u = (u, some (r, pl))) : ∃ t, exec c s = .next t ∧ Answers c s t k r pl ∧ Settled k s t := by
  obtain ⟨t, ht, hans, hs⟩ := hr.answered hk hf he ha rfl
  exact ⟨t, ht, hans, hr.settled.trans hs⟩

end Answering

/-! ### Executor arbitration (R424) -/

section Arbitration

variable {k q r : Nat} {f : Queue → Queue} {s t u w : State}

/-- The state without what taking an executor may change: the queues, a halt's record and attention, and the counters of
the queues. -/
def offQueues (s : State) : State :=
  { s with comp := { s.comp with queues := [] }, rings := [], attn := 0, dbg := { s.dbg with queCnt := [] } }

@[simp] theorem offQueues_setQueue : offQueues (setQueue s q f) = offQueues s := rfl

@[simp] theorem offQueues_bumpQue {i : Nat} : offQueues (bumpQue s q i) = offQueues s := by
  unfold bumpQue
  dsimp only
  split <;> rfl

@[simp] theorem offQueues_haltRecord {d g pc : Nat} {c : Res} {i : Bool} {x : Word} :
    offQueues (haltRecord s q c d i g pc x) = offQueues s := rfl

theorem offQueues_enterRun (hr : (queueAt s q).ring ≠ []) : offQueues (enterRun s q) = offQueues s := by
  unfold enterRun
  dsimp only
  split
  · simp
  · rw [if_neg (by simp [hr])]
    simp

theorem offQueues_arbitrate (hr : (queueAt s q).ring ≠ []) : offQueues (arbitrate s q) = offQueues s := by
  unfold arbitrate
  dsimp only
  split
  · exact offQueues_enterRun hr
  · split
    · exact (foldl_keeps (fun _ _ => offQueues_setQueue) _ _).trans offQueues_setQueue
    · exact offQueues_setQueue

theorem nextSeq_setQueue (hf : ∀ Q, (f Q).nextSeq = Q.nextSeq) :
    (queueAt (setQueue s q f) r).nextSeq = (queueAt s r).nextSeq := by
  rw [queueAt_setQueue]
  split
  · exact hf _
  · rfl

theorem nextSeq_enterRun : (queueAt (enterRun s q) r).nextSeq = (queueAt s r).nextSeq := by
  unfold enterRun
  dsimp only
  split
  · exact nextSeq_setQueue (fun _ => rfl)
  · split <;> exact nextSeq_setQueue (fun _ => rfl)

theorem nextSeq_arbitrate : (queueAt (arbitrate s q) r).nextSeq = (queueAt s r).nextSeq := by
  unfold arbitrate
  dsimp only
  split
  · exact nextSeq_enterRun
  · split
    · refine (foldl_keeps (v := fun s => (queueAt s r).nextSeq) (fun _ _ => ?_) _ _).trans ?_
      · exact nextSeq_setQueue (fun _ => rfl)
      · exact nextSeq_setQueue (fun _ => rfl)
    · exact nextSeq_setQueue (fun _ => rfl)

theorem ring_arbitrate : (queueAt (arbitrate s q) r).ring = (queueAt s r).ring :=
  congrArg (fun v => (v r).2.2.2.1) posView_arbitrate

theorem arbitrate_st_ne (h : r ≠ q) : (queueAt (arbitrate s q) r).st = (queueAt s r).st :=
  (congrArg Queue.st (stillOf_arbitrate_ne h) :)

/-- A queue whose executor another queue holds waits for it. -/
theorem arbitrate_preempted (hq : q < s.comp.queues.length) (hb : blockers s q ≠ []) :
    (queueAt (arbitrate s q) q).st = .preempted := by
  have hst : (queueAt (setQueue s q (fun Q => { Q with st := .preempted })) q).st = .preempted := by
    rw [queueAt_setQueue_self hq]
  unfold arbitrate
  dsimp only
  rw [if_neg (by simpa using hb)]
  split
  · exact (congrArg Queue.st (stillOf_foldl_stop _ _) :).trans hst
  · exact hst

/-- A queue with words, no wait and no saved context takes a free executor at once. -/
theorem arbitrate_run (hq : q < s.comp.queues.length) (hb : blockers s q = []) (hw : (queueAt s q).wait = .none)
    (hc : (queueAt s q).ctxSaved = false) (hr : (queueAt s q).ring ≠ []) : (queueAt (arbitrate s q) q).st = .run := by
  unfold arbitrate enterRun
  simp [hb, contextBad, hc, hr, hw, queueAt_setQueue_self hq]

end Arbitration

/-! ### QUEUE_PUSH (R291) -/

/-- A queue with words behind its ring's last and the next SEQ expected. -/
def appendWords (ws : List Word) (Q : Queue) : Queue := { Q with ring := Q.ring ++ ws, nextSeq := Q.nextSeq + 1 }

/-- The words of a push enter the ring of queue `q`, and the push is counted. -/
def enqueued (s : State) (q : Nat) (ws : List Word) : State := bumpQue (setQueue s q (appendWords ws)) q 5

/-- The words of a push enter the ring, and a queue that was IDLE takes its executor or waits for it. -/
def pushed (s : State) (q : Nat) (ws : List Word) : State :=
  if (queueAt s q).st = .idle then arbitrate (enqueued s q ws) q else enqueued s q ws

section Pushes

variable {q r : Nat} {n : BitVec 16} {ws : List Word} {s : State}

theorem queueAt_enqueued_self (hq : q < s.comp.queues.length) :
    queueAt (enqueued s q ws) q = appendWords ws (queueAt s q) := by
  rw [enqueued, bumpQue_queueAt, queueAt_setQueue_self hq]

theorem queueAt_enqueued_ne (h : r ≠ q) : queueAt (enqueued s q ws) r = queueAt s r := by
  rw [enqueued, bumpQue_queueAt, queueAt_setQueue_ne h]

theorem coreView_enqueued : coreView (enqueued s q ws) = coreView s :=
  coreView_bumpQue.trans (coreView_setQueue (fun _ => ⟨rfl, rfl, rfl, rfl, rfl, rfl⟩))

/-- New words change no queue's claim on an executor. -/
theorem blockers_enqueued : blockers (enqueued s q ws) q = blockers s q := by
  have h : ∀ r, ∃ ring seq, queueAt (enqueued s q ws) r = { queueAt s r with ring := ring, nextSeq := seq } := by
    intro r
    rw [enqueued, bumpQue_queueAt, queueAt_setQueue]
    split
    · exact ⟨_, _, rfl⟩
    · exact ⟨_, _, rfl⟩
  obtain ⟨_, _, hQ⟩ := h q
  unfold blockers
  refine List.filter_congr (fun r _ => ?_)
  obtain ⟨_, _, hR⟩ := h r
  rw [hQ, hR]
  rfl

theorem ring_pushed_self (hq : q < s.comp.queues.length) :
    (queueAt (pushed s q ws) q).ring = (queueAt s q).ring ++ ws := by
  have h : (queueAt (enqueued s q ws) q).ring = (queueAt s q).ring ++ ws := by
    rw [queueAt_enqueued_self hq, appendWords]
  unfold pushed
  split
  · exact ring_arbitrate.trans h
  · exact h

theorem nextSeq_pushed (hq : q < s.comp.queues.length) :
    (queueAt (pushed s q ws) q).nextSeq = (queueAt s q).nextSeq + 1 := by
  have h : (queueAt (enqueued s q ws) q).nextSeq = (queueAt s q).nextSeq + 1 := by
    rw [queueAt_enqueued_self hq, appendWords]
  unfold pushed
  split
  · exact nextSeq_arbitrate.trans h
  · exact h

theorem pushed_ne (h : r ≠ q) : (queueAt (pushed s q ws) r).ring = (queueAt s r).ring ∧
    (queueAt (pushed s q ws) r).st = (queueAt s r).st := by
  have he := queueAt_enqueued_ne (s := s) (ws := ws) h
  unfold pushed
  split
  · rw [ring_arbitrate, arbitrate_st_ne h, he]
    exact ⟨rfl, rfl⟩
  · rw [he]
    exact ⟨rfl, rfl⟩

theorem coreView_pushed : coreView (pushed s q ws) = coreView s := by
  unfold pushed
  split
  · exact coreView_arbitrate.trans coreView_enqueued
  · exact coreView_enqueued

theorem offQueues_pushed (hq : q < s.comp.queues.length) (hws : ws ≠ []) :
    offQueues (pushed s q ws) = offQueues s := by
  have h : offQueues (enqueued s q ws) = offQueues s := offQueues_bumpQue.trans offQueues_setQueue
  unfold pushed
  split
  · refine (offQueues_arbitrate ?_).trans h
    rw [queueAt_enqueued_self hq, appendWords]
    simp [hws]
  · exact h

theorem pushed_st_of_busy (hq : q < s.comp.queues.length) (hi : (queueAt s q).st ≠ .idle) :
    (queueAt (pushed s q ws) q).st = (queueAt s q).st := by
  rw [pushed, if_neg hi, queueAt_enqueued_self hq, appendWords]

theorem pushed_preempted (hq : q < s.comp.queues.length) (hi : (queueAt s q).st = .idle) (hb : blockers s q ≠ []) :
    (queueAt (pushed s q ws) q).st = .preempted := by
  rw [pushed, if_pos hi]
  exact arbitrate_preempted (by rw [enqueued, bumpQue_comp, setQueue_length]; exact hq) (by rwa [blockers_enqueued])

theorem pushed_run (hq : q < s.comp.queues.length) (hws : ws ≠ []) (hi : (queueAt s q).st = .idle)
    (hb : blockers s q = []) (hw : (queueAt s q).wait = .none) (hc : (queueAt s q).ctxSaved = false) :
    (queueAt (pushed s q ws) q).st = .run := by
  rw [pushed, if_pos hi]
  apply arbitrate_run (by rw [enqueued, bumpQue_comp, setQueue_length]; exact hq) (by rwa [blockers_enqueued])
  all_goals rw [queueAt_enqueued_self hq, appendWords]
  · exact hw
  · exact hc
  · simp [hws]

/-- The operation by the rows of the table "Push outcomes". -/
theorem pushAct_eq : pushAct q n ws s =
    let Q := queueAt s q
    if Q.bound = false ∨ Q.st = .halted ∨ Q.st = .frozen then (s, some (.state, []))
    else if n = Q.nextSeq - 1 then (s, some (.ok, []))
    else if n ≠ Q.nextSeq then (s, some (.state, []))
    else if 8192 < Q.ring.length + ws.length then (bumpQue s q 6, some (.busy, []))
    else (pushed s q ws, some (.ok, [])) := by
  have hst : (if (queueAt s q).st == .idle then arbitrate (enqueued s q ws) q else enqueued s q ws) = pushed s q ws := by
    simp [pushed]
  dsimp only
  rw [← hst]
  unfold pushAct
  by_cases hb : (queueAt s q).bound = false
  · simp [hb, answered]
  · by_cases hc : (queueAt s q).st = .halted ∨ (queueAt s q).st = .frozen
    · simp [hb, hc, answered]
    · simp [hb, hc, answered, enqueued]
      rfl

/-- The frame of an accepted push: the registers of every queue, memory and the management block stand as they stood. -/
theorem pushed_frame : regsOf (pushed s q ws) = regsOf s ∧ (pushed s q ws).comp.mem = s.comp.mem ∧
    (pushed s q ws).mgt = s.mgt := by
  have hf := ScalarFrame.of_coreView (q := q) (coreView_pushed (s := s) (q := q) (ws := ws))
  exact ⟨funext (regsOf_of_coreView coreView_pushed), hf.mem, hf.outside.mgt⟩

end Pushes

/-! ### What a request settles to beside its operation's change -/

section Outcomes

variable {k q : Nat} {s t u w : State}

/-- `s` with the counters of the queues. -/
def withQueCnt (s : State) (c : List (Nat × Nat)) : State := { s with dbg := { s.dbg with queCnt := c } }

theorem Settled.congr_withQueCnt {c : List (Nat × Nat)} (h : Settled k s u) : Settled k (withQueCnt s c) (withQueCnt u c) :=
  ⟨(congrArg (withQueCnt · c) h.eq_settledAs :), h.attn, h.pools, h.ports, h.sessions⟩

theorem bumpQue_eq_withQueCnt {i : Nat} : bumpQue u q i = withQueCnt u (bumpQue u q i).dbg.queCnt := by
  unfold bumpQue
  dsimp only
  split <;> rfl

theorem mgt_bumpQue {i : Nat} : (bumpQue u q i).mgt = u.mgt := by
  rw [bumpQue_eq_withQueCnt]
  rfl

theorem Settled.of_bumpQue {i : Nat} (hu : Settled k s u) (ht : Settled k (bumpQue u q i) t) :
    Settled k (withQueCnt s t.dbg.queCnt) t := by
  rw [ht.queCnt_eq]
  rw [bumpQue_eq_withQueCnt] at ht
  exact hu.congr_withQueCnt.trans ht

theorem Settled.of_setQueue {f : Queue → Queue} (hu : Settled k s u) (ht : Settled k (setQueue u q f) t) :
    Settled k { s with comp := { s.comp with queues := t.comp.queues } } t := by
  have h := hu.congr_setQueue.trans ht
  rw [h.comp_eq]
  exact h

/-- `s` with the parts of `w` that the arbitration of an executor may change. -/
def queuesAs (s w : State) : State :=
  { s with comp := { s.comp with queues := w.comp.queues }, rings := w.rings, attn := w.attn
           dbg := { s.dbg with queCnt := w.dbg.queCnt } }

theorem eq_queuesAs_of_offQueues (h : offQueues w = offQueues u) : w = queuesAs u w := (congrArg (queuesAs · w) h :)

theorem Settled.congr_queuesAs (h : Settled k s u) : Settled k (queuesAs s w) (queuesAs u w) :=
  ⟨(congrArg (queuesAs · w) h.eq_settledAs :), rfl, h.pools, h.ports, h.sessions⟩

theorem Settled.of_offQueues (hu : Settled k s u) (hw : offQueues w = offQueues u) (ht : Settled k w t) :
    Settled k (queuesAs s t) t := by
  have h : Settled k (queuesAs s w) t := hu.congr_queuesAs.trans (eq_queuesAs_of_offQueues hw ▸ ht)
  have hst : queuesAs s t = { queuesAs s w with attn := t.attn } := by
    unfold queuesAs
    rw [ht.comp_eq, ht.rings_eq, ht.queCnt_eq]
  rw [hst]
  exact ⟨h.rest, rfl, h.pools, h.ports, h.sessions⟩

end Outcomes

/-! ### The answers of QUEUE_PUSH and REQUEUE -/

section Answers

variable {h : FmdReq} {q k e : Nat} {n : BitVec 16} {ws : List Word} {s u : State}

theorem exec_queuePush : exec (.queuePush h q n ws) s = .next (traced s (request h 0x20
    (leBytes 1 q ++ [0] ++ beBytes 2 n.toNat ++ leBytes 1 ws.length ++ [0, 0, 0] ++ ws.flatMap (fun w => beBytes 8 w.toNat))
    (ws.isEmpty || 128 < ws.length) (serves s 0x20 0) false (pushAct q n ws) s)) := rfl

/-- QUEUE_PUSH of every session slot but the model's mark of a PLAIN request (R291). -/
theorem queuePush_outcome (hk : k ≠ 8) (hr : Runs (.queuePush h q n ws) s k u) :
    let c : Instr := .queuePush h q n ws
    let Q := queueAt s q
    ∃ t, exec c s = .next t ∧
      (if Q.bound = false ∨ Q.st = .halted ∨ Q.st = .frozen then Answers c s t k .state [] ∧ Settled k s t
       else if n = Q.nextSeq - 1 then Answers c s t k .ok [] ∧ Settled k s t
       else if n ≠ Q.nextSeq then Answers c s t k .state [] ∧ Settled k s t
       else if 8192 < Q.ring.length + ws.length then
         Answers c s t k .busy [] ∧ Settled k { s with dbg := { s.dbg with queCnt := t.dbg.queCnt } } t
       else Answers c s t k .ok [] ∧ (queueAt t q).ring = Q.ring ++ ws ∧ (queueAt t q).nextSeq = n + 1 ∧
         (∀ r, r ≠ q → (queueAt t r).ring = (queueAt s r).ring ∧ (queueAt t r).st = (queueAt s r).st) ∧
         (∀ r, regsOf t r = regsOf s r) ∧ t.comp.mem = s.comp.mem ∧
         (Q.st ≠ .idle → (queueAt t q).st = Q.st) ∧
         (Q.st = .idle → blockers s q ≠ [] → (queueAt t q).st = .preempted) ∧
         (Q.st = .idle → blockers s q = [] → Q.wait = .none → Q.ctxSaved = false → (queueAt t q).st = .run) ∧
         Settled k { s with comp := { s.comp with queues := t.comp.queues }, rings := t.rings, attn := t.attn,
                            dbg := { s.dbg with queCnt := t.dbg.queCnt } } t) := by
  have hu := hr.settled
  have hact := pushAct_eq (q := q) (n := n) (ws := ws) (s := u)
  dsimp only at hact ⊢
  rw [← hu.queueAt_eq]
  split_ifs at hact ⊢ with hclosed hrep hnext hfull
  · exact hr.answered_unchanged hk rfl exec_queuePush hact
  · exact hr.answered_unchanged hk rfl exec_queuePush hact
  · exact hr.answered_unchanged hk rfl exec_queuePush hact
  · obtain ⟨t, ht, ha, hs⟩ := hr.answered hk rfl exec_queuePush hact mgt_bumpQue
    exact ⟨t, ht, ha, hu.of_bumpQue hs⟩
  · have hq : q < u.comp.queues.length :=
      bound_lt (by simpa using fun hb => hclosed (.inl hb))
    have hws : ws ≠ [] := by
      have hb := hr.not_bad rfl
      rintro rfl
      cases hb
    obtain ⟨hregs, hmem, hmgt⟩ := pushed_frame (s := u) (q := q) (ws := ws)
    obtain ⟨t, ht, ha, hs⟩ := hr.answered hk rfl exec_queuePush hact hmgt
    refine ⟨t, ht, ha, ?_⟩
    rw [hs.queueAt_eq, hs.regsOf_eq, hregs, hu.regsOf_eq, ← hu.blockers_eq]
    refine ⟨ring_pushed_self hq, ?_, fun r hr => pushed_ne hr, fun r => rfl, ?_, pushed_st_of_busy hq,
      pushed_preempted hq, pushed_run hq hws, ?_⟩
    · rw [nextSeq_pushed hq, not_not.mp hnext]
    · rw [hs.comp_eq, hmem, hu.comp_eq]
    · exact hu.of_offQueues (offQueues_pushed hq hws) hs

/-- The operation of REQUEUE (R297). -/
def requeueAct (q e : Nat) (s : State) : Answer :=
  let Q := queueAt s q
  if !Q.bound then answered s .state
  else if Q.st == .halted then answered (setQueue s q (fun Q => requeued Q e)) .ok
  else if Q.st == .idle && Q.requeued == some e then answered s .ok
  else answered s .state

theorem exec_requeue : exec (.requeue h q e) s = .next (traced s (request h 0x54
    (leBytes 1 q ++ List.replicate 7 0 ++ beBytes 8 e) false (serves s 0x54 0) false (requeueAct q e) s)) := rfl

/-- The operation by the row of the table "Host commands on queues". -/
theorem requeueAct_eq : requeueAct q e s =
    let Q := queueAt s q
    if Q.bound = false then (s, some (.state, []))
    else if Q.st = .halted then (setQueue s q (fun Q => requeued Q e), some (.ok, []))
    else if Q.st = .idle ∧ Q.requeued = some e then (s, some (.ok, []))
    else (s, some (.state, [])) := by
  simp [requeueAct, answered]

/-- REQUEUE of every session slot but the model's mark of a PLAIN request (R297). -/
theorem requeue_outcome (hk : k ≠ 8) (hr : Runs (.requeue h q e) s k u) :
    let c : Instr := .requeue h q e
    let Q := queueAt s q
    ∃ t, exec c s = .next t ∧
      (if Q.bound = false then Answers c s t k .state [] ∧ Settled k s t
       else if Q.st = .halted then Answers c s t k .ok [] ∧
         Settled k { s with comp := { s.comp with queues := t.comp.queues } } t ∧
         (∀ r, r ≠ q → queueAt t r = queueAt s r) ∧
         regsOf t q = ⟨List.replicate 16 0, List.replicate 8 0, List.replicate 8 false, List.replicate 16 {},
           List.replicate 4 {}, List.replicate 16 0⟩ ∧
         (queueAt t q).st = .idle ∧ (queueAt t q).ring = [] ∧ (queueAt t q).pc = 0 ∧ (queueAt t q).inSeg = false ∧
         (queueAt t q).callEpoch = e ∧ (queueAt t q).bound = true ∧ (queueAt t q).job = Q.job ∧ (queueAt t q).nextSeq = Q.nextSeq
       else if Q.st = .idle ∧ Q.requeued = some e then Answers c s t k .ok [] ∧ Settled k s t
       else Answers c s t k .state [] ∧ Settled k s t) := by
  have hu := hr.settled
  have hact := requeueAct_eq (q := q) (e := e) (s := u)
  dsimp only at hact ⊢
  rw [← hu.queueAt_eq]
  split_ifs at hact ⊢ with hunbound hhalted hdone
  · exact hr.answered_unchanged hk rfl exec_requeue hact
  · obtain ⟨t, ht, ha, hs⟩ := hr.answered hk rfl exec_requeue hact rfl
    have hb : (queueAt u q).bound = true := by simpa using hunbound
    have hat : queueAt t q = requeued (queueAt u q) e := by
      rw [hs.queueAt_eq, queueAt_setQueue_self (bound_lt hb)]
    have hregs : regsOf t q = (requeued (queueAt u q) e).regs := by rw [← hat]; rfl
    refine ⟨t, ht, ha, hu.of_setQueue hs, fun r hr => ?_, hregs, ?_⟩
    · rw [hs.queueAt_eq, queueAt_setQueue_ne hr]
    · rw [hat]
      exact ⟨rfl, rfl, rfl, rfl, rfl, hb, rfl, rfl⟩
  · exact hr.answered_unchanged hk rfl exec_requeue hact
  · exact hr.answered_unchanged hk rfl exec_requeue hact

end Answers

/-! ### Slot 8

The model marks the sender of a PLAIN request by slot 8, so that its reply carries no attention bits (R534), and R538 has
eight slots, 0 to 7. O58 ranges over every state and slot: in a record of nine sessions a secured request of slot 8 runs,
and its reply does not carry the attention bits that `Answers` asks for. On every other slot the rows of R291 and R297
hold: `queuePush_outcome` and `requeue_outcome`. -/

/-- A module in RUN whose record lists nine sessions, the ninth of them open, with the attention bit SCHED set. -/
def ninthSession : State :=
  { setMgt mS (fun m => { m with sessions := List.replicate 8 {} ++ [{ valid := true }] }) with attn := aSched }

/-- A push over slot 8 to queue 3, which no Topiary binds. -/
def ninthPush : Instr := .queuePush { rq with slot := some 8 } 3 0 [5#64]

theorem ninthPush_runs : Runs ninthPush ninthSession 8 (runU ninthPush ninthSession 8) := runs_of (by decide +kernel)

theorem ninthPush_reply : (after ninthPush ninthSession).mgt.replies.head?.map (·.attn) = some 0 ∧
    attnByte (after ninthPush ninthSession) = 0x84 := by decide +kernel

/-- Refutes O58: a push over slot 8 is answered with attention bits 0 while SCHED is set. -/
theorem not_queuesArePushedAndRequeued : ¬ Obligations.QueuesArePushedAndRequeued := by
  unfold Obligations.QueuesArePushedAndRequeued
  rintro ⟨push, -, -⟩
  obtain ⟨t, ht, hrow⟩ := push _ _ _ _ _ _ _ ninthPush_runs
  have hafter : after ninthPush ninthSession = t := by
    unfold after ninthPush
    rw [ht]
  have hunbound : (queueAt ninthSession 3).bound = false := by decide +kernel
  obtain ⟨hanswer, -⟩ := (if_pos (.inl hunbound)).mp hrow
  obtain ⟨hreply, -⟩ := hanswer _ _ _ _ _ _ rfl
  obtain ⟨hzero, hattn⟩ := ninthPush_reply
  rw [hafter] at hzero hattn
  rw [hreply, List.head?_cons, Option.map_some, hattn] at hzero
  cases hzero

end Sys2Proof.Machine
end

section
/-! Register writes (R19, R527, R541) and LANE_ENABLE on a twin lane of a module without a twin (R362, R473, R523): the
obligation O56. -/

namespace Sys2Proof.Machine

/-! ### A register write that its operation carries out (R19, R527, R543) -/

section RegisterWrites

variable {c : Instr} {h : FmdReq} {a v k : Nat} {r : Res} {s u w : State}

/-- The datagram of a register write, whichever row names it (R541). -/
def IsRegWrite (c : Instr) (h : FmdReq) (a v : Nat) : Prop :=
  fmdOf c = some (h, 0x11, beBytes 4 a ++ beBytes 8 v, false, if inSec a then 1 else 0, false) ∧
    ∀ s, exec c s = .next (traced s (regWrite h a v s))

/-- No register is written in SAFE, so that every die completes the write of a request that runs (R498, R542). -/
theorem not_dieSilent_of_serves {sub : Nat} (hs : serves s 0x11 sub = true) : dieSilent s a = false := by
  have hst : s.mgt.st ≠ .safe := by
    intro hsafe
    rw [serves, hsafe] at hs
    cases hs
  simp [dieSilent, hst]

/-- The operation of a write that passes AUTH and the access check, to a die with power (R17, R19, R527). -/
theorem writeAct_eq (hkey : s.mgt.custKey.isSome = true ∨ inSec a = true) (ha : accessCheck s a = none)
    (hd : dieSilent s a = false) (hw : writeAt s k a (v % 2 ^ 64) = (r, w)) : writeAct k a v s = (w, some (r, [])) := by
  have hauth : (s.mgt.custKey.isNone && !inSec a) = false := by
    rcases hkey with hkey | hsec
    · rw [Option.isNone_eq_false_iff.mpr hkey, Bool.false_and]
    · rw [hsec, Bool.not_true, Bool.and_false]
  simp only [writeAct, hauth, ha, hd, hw, answered, Bool.false_eq_true, if_false]

/-- A register write answers what the write function of the map gives. -/
theorem Runs.write_answered (hk : k ≠ 8) (hr : Runs c s k u) (hc : IsRegWrite c h a v)
    (hkey : s.mgt.custKey.isSome = true ∨ inSec a = true) (ha : accessCheck u a = none)
    (hw : writeAt u k a (v % 2 ^ 64) = (r, w)) (hm : w.mgt = u.mgt) :
    ∃ t, exec c s = .next t ∧ Answers c s t k r [] ∧ Settled k w t := by
  obtain ⟨hf, he⟩ := hc
  have hu : u = settledAs s u := hr.settled.eq_settledAs
  obtain ⟨hslot, hserve⟩ : h.slot = some k ∧ serves s 0x11 (if inSec a then 1 else 0) = true := by
    obtain ⟨_, _, _, _, _, _, hf', hslot, -, -, -, -, -, hserve, -, -⟩ := hr
    rw [hf] at hf'
    cases hf'
    exact ⟨hslot, hserve⟩
  refine hr.answered hk hf (he s) ?_ hm
  rw [hslot]
  have hkey' : u.mgt.custKey.isSome = true ∨ inSec a = true := by rwa [hu]
  have hserve' : serves u 0x11 (if inSec a then 1 else 0) = true := by rwa [hu]
  exact writeAct_eq hkey' ha (not_dieSilent_of_serves hserve') hw

end RegisterWrites

/-! ### What every request leaves of lanes and twin -/

section Lanes

variable {k l : Nat} {f : Lane → Lane} {s u : State}

theorem Settled.fab_lanes (hu : Settled k s u) : u.fab.lanes = s.fab.lanes := (congrArg (·.fab.lanes) hu.eq_settledAs :)
theorem Settled.fab_twin (hu : Settled k s u) : u.fab.twin = s.fab.twin := (congrArg (·.fab.twin) hu.eq_settledAs :)

theorem Settled.laneAt_eq (hu : Settled k s u) : laneAt u = laneAt s := by
  funext j
  unfold laneAt
  rw [hu.fab_lanes]

theorem Settled.congr_setLane (hu : Settled k s u) : Settled k (setLane s l f) (setLane u l f) :=
  ⟨(congrArg (setLane · l f) hu.eq_settledAs :), hu.attn, hu.pools, hu.ports, hu.sessions⟩

end Lanes

/-! ### LNK.CTRL of a twin lane without a twin (R362, R523) -/

section TwinLanes

variable {h : FmdReq} {k l n v : Nat} {e x : Bool} {s u : State}

/-- NAK_LIMIT above RETRAIN above ENABLE. -/
theorem laneCtrl_eq : laneCtrl n x e = n % 16 * 16 + (if x then 2 else 0) + if e then 1 else 0 := by
  unfold laneCtrl
  rw [Nat.shiftLeft_eq]
  rfl

theorem isRegWrite_laneEnable : IsRegWrite (.laneEnable h l n e) h (0x04000010 + 0x1000 * l) (laneCtrl n false e) := by
  refine ⟨?_, fun s => rfl⟩
  rw [laneCtrl_eq]
  rfl

theorem natField_laneCtrl : natField (laneCtrl n x e) 7 4 = n % 16 := by
  rw [laneCtrl_eq, natField, Nat.shiftRight_eq_div_pow]
  cases x <;> cases e <;> simp <;> omega

theorem natBit_laneCtrl_enable : natBit (laneCtrl n x e) 0 = e := by
  rw [laneCtrl_eq, natBit]
  cases x <;> cases e <;> simp <;> omega

theorem natBit_laneCtrl_retrain : natBit (laneCtrl n x e) 1 = x := by
  rw [laneCtrl_eq, natBit, Nat.shiftRight_eq_div_pow]
  cases x <;> cases e <;> simp <;> omega

theorem laneCtrl_lt : laneCtrl n x e < 2 ^ 64 := by
  rw [laneCtrl_eq]
  split <;> split <;> omega

theorem accessCheck_lnkCtrl (hl : l < 272) : accessCheck s (0x04000010 + 0x1000 * l) = none := by
  have halign : (0x04000010 + 0x1000 * l) % 8 = 0 := by omega
  have habsent : absentAddr s (0x04000010 + 0x1000 * l) = false := by
    simp only [absentAddr, Bool.and_eq_false_iff, Bool.or_eq_false_iff, decide_eq_false_iff_not]
    omega
  have hreg : (regAt s (0x04000010 + 0x1000 * l)).isNone = false := by
    have hlane : (0x04000010 + 0x1000 * l - 0x04000000) / 0x1000 = l := by omega
    have hoff : (0x04000010 + 0x1000 * l - 0x04000000) % 0x1000 = 0x10 := by omega
    have hwin : regAt s (0x04000010 + 0x1000 * l) = readLnk s (0x04000010 + 0x1000 * l - 0x04000000) := by
      unfold regAt
      iterate 4 rw [if_neg (by omega)]
      rw [if_pos (by omega)]
    simp only [hwin, readLnk, hlane, hoff, if_neg (Nat.not_le.mpr hl), Option.isNone_some]
  simp [accessCheck, halign, habsent, hreg]

theorem writeAt_lnkCtrl (hl : l < 272) : writeAt s k (0x04000010 + 0x1000 * l) v = (.ok, writeLane s l v) := by
  have hlane : (0x04000010 + 0x1000 * l - 0x04000000) / 0x1000 = l := by omega
  have hoff : (0x04000010 + 0x1000 * l - 0x04000000) % 0x1000 = 0x10 := by omega
  unfold writeAt
  iterate 4 rw [if_neg (by omega)]
  rw [if_pos (by omega), writeLnk, if_pos hoff, hlane]

/-- The lane with ENABLE and NAK_LIMIT written, as it was held. -/
def enabledLane (n : Nat) (L : Lane) : Lane := { L with nakLimit := n % 16, enable := true }

/-- Without a twin, ENABLE leaves the state of a twin lane as it is (R523). -/
theorem writeLane_twinless (hl : 256 ≤ l) (hoff : (laneAt s l).enable = false) (hno : s.fab.twin.present = false) :
    writeLane s l (laneCtrl n false true) = setLane s l (enabledLane n) := by
  simp [writeLane, natField_laneCtrl, natBit_laneCtrl_enable, natBit_laneCtrl_retrain, hoff, hl, hno]
  rfl

/-- LANE_ENABLE on a twin lane of a module without a twin, over every session slot but the model's mark of a PLAIN request:
the lane's ENABLE and NAK_LIMIT are written, and its state stays what it was. -/
theorem laneEnable_twinless (hk : k ≠ 8) (hr : Runs (.laneEnable h l n true) s k u) (hkey : s.mgt.custKey.isSome = true)
    (hl : 256 ≤ l) (hl' : l < 272) (hoff : (laneAt s l).enable = false) (hno : s.fab.twin.present = false) :
    ∃ t, exec (.laneEnable h l n true) s = .next t ∧ Answers (.laneEnable h l n true) s t k .ok [] ∧
      Settled k (setLane s l (enabledLane n)) t := by
  have hu := hr.settled
  have hw : writeAt u k (0x04000010 + 0x1000 * l) (laneCtrl n false true % 2 ^ 64) = (.ok, setLane u l (enabledLane n)) := by
    rw [Nat.mod_eq_of_lt laneCtrl_lt, writeAt_lnkCtrl hl',
      writeLane_twinless hl (by rw [hu.laneAt_eq, hoff]) (by rw [hu.fab_twin, hno])]
  obtain ⟨t, ht, ha, hs⟩ := hr.write_answered hk isRegWrite_laneEnable (.inl hkey) (accessCheck_lnkCtrl hl') hw rfl
  exact ⟨t, ht, ha, hu.congr_setLane.trans hs⟩

end TwinLanes

/-! ### The refuting state

O56 gives LANE_ENABLE one row for all 272 lanes. The module makes an exception of the twin lanes of a module without a
twin, which R523 holds down; `laneEnable_twinless` says what it does there, and the state below is the plainest such
module. -/

/-- A module in RUN whose configuration image holds no TWIN record and makes twin lane 0 a port (R35, R523). -/
def twinless : State := applyRecord (setTwin mS (fun _ => {})) (.lanes [(256, 1)])

/-- A host's LANE_ENABLE of twin lane 0. -/
def twinLaneEnable : Instr := .laneEnable rq 256 3 true

theorem twinLaneEnable_runs : Runs twinLaneEnable twinless 1 (runU twinLaneEnable twinless 1) :=
  runs_of (by decide +kernel)

/-- The configuration leaves the lane off (R523). -/
theorem twinless_lane : laneAt twinless 256 = { st := .disabled, enable := false } := by decide +kernel

/-- Refutes O56: its row of LANE_ENABLE puts every lane that was off in DOWN, while a twin lane of a module without a twin
stays as its configuration holds it, DISABLED (R523). -/
theorem not_registersAreWritten : ¬ Obligations.RegistersAreWritten := by
  unfold Obligations.RegistersAreWritten
  rintro ⟨-, -, -, -, -, -, -, -, -, -, -, -, -, -, -, -, row, -⟩
  obtain ⟨t, ht, -, -, -, hdown, -⟩ := row _ _ _ _ _ _ _ twinLaneEnable_runs rfl (by decide)
  obtain ⟨t', ht', -, hs⟩ := laneEnable_twinless (by decide) twinLaneEnable_runs rfl (Nat.le_refl 256) (by decide)
    (by rw [twinless_lane]) rfl
  obtain rfl : t' = t := by
    rw [ht] at ht'
    cases ht'
    rfl
  rw [hs.laneAt_eq, laneAt_setLane, if_pos rfl, enabledLane, twinless_lane] at hdown
  cases hdown

end Sys2Proof.Machine
end

section
/-! RESET_COLLECTIVE (R155, R464, R470): what lifting an ordinal changes in the records of other ordinals, and the
obligation O60. -/

namespace Sys2Proof.Machine

/-! ### What leaves the collective table and the records of ordinals alone -/

/-- The loaded Topiaries, which hold the collective tables, and the record of every ordinal. -/
def ordView (s : State) : List Topiary × List Coll := (s.tops, s.coll.colls)

section OrdView

variable {s t : State} {i p : Nat}

theorem collAt_of_ordView (h : ordView t = ordView s) : collAt t = collAt s := by
  have hc : t.coll.colls = s.coll.colls := congrArg Prod.snd h
  funext j e o
  unfold collAt
  rw [hc]

theorem ordView_of_coreView (h : coreView t = coreView s) : ordView t = ordView s := by
  have hf : ScalarFrame s t 0 := .of_coreView h
  unfold ordView
  rw [hf.outside.tops, hf.outside.coll]

theorem ordView_ite {c : Prop} [Decidable c] (h : ordView t = ordView s) : ordView (if c then t else s) = ordView s := by
  split
  · exact h
  · rfl

theorem ordView_releaseWithheld : ordView (releaseWithheld s i p) = ordView s := by
  unfold releaseWithheld
  refine foldl_keeps (fun s e => foldl_keeps (fun s c => ?_) _ _) _ _
  dsimp only
  split <;> rfl

theorem ordView_relevel : ordView (relevel s i p) = ordView s := by
  unfold relevel
  extract_lets B P l s1 s2 s3 s4
  have h2 : ordView s2 = ordView s := by unfold s2; split <;> rfl
  have h3 : ordView s3 = ordView s := by unfold s3; split <;> exact h2
  have h4 : ordView s4 = ordView s := by unfold s4; split <;> exact h3
  split
  · exact ordView_releaseWithheld.trans h4
  · exact h4

theorem ordView_dropAlloc {id : Nat} : ordView (dropAlloc s i id) = ordView s := by
  unfold dropAlloc
  split
  · rfl
  · exact ordView_relevel

theorem ordView_settleAlloc {id : Nat} : ordView (settleAlloc s i id) = ordView s := by
  unfold settleAlloc
  split
  · rfl
  · exact ordView_ite ordView_relevel

theorem ordView_freeAlloc {id : Nat} : ordView (freeAlloc s i id) = ordView s := ordView_settleAlloc

theorem ordView_leaveAlloc {a : Option Nat} {c j : Nat} : ordView (leaveAlloc s a p c j) = ordView s := by
  unfold leaveAlloc
  split
  · rfl
  · split
    · rfl
    · split
      · exact ordView_dropAlloc
      · exact ordView_settleAlloc

theorem ordView_originate {x : LinkUnit} : ordView (originate s x) = ordView s := by
  unfold originate originateFrom
  exact ordView_ite rfl

theorem ordView_dropStaged {x : Inp} : ordView (dropStaged s x) = ordView s :=
  foldl_keeps (fun _ _ => ordView_dropAlloc) _ _

theorem ordView_freeOut {j o : Nat} {x : Outp} : ordView (freeOut s j o x) = ordView s := by
  have hbufs : ordView (x.bufs.foldl (fun s b => freeAlloc s 0 b) s) = ordView s :=
    foldl_keeps (fun _ _ => ordView_freeAlloc) _ _
  unfold freeOut
  dsimp only
  split
  · exact ordView_dropAlloc.trans hbufs
  · exact hbufs

theorem ordView_dropOwn {f : LinkUnit → Bool} {port : Option Nat} : ordView (dropOwn s f port) = ordView s := by
  unfold dropOwn
  refine foldl_keeps (fun s e => ?_) _ _
  split
  · rfl
  · refine (foldl_keeps (v := ordView) (fun s x => ?_) _ _ :)
    exact ordView_ite ordView_leaveAlloc

theorem ordView_haltCallers {j e o : Nat} : ordView (haltCallers s j e o) = ordView s := by
  unfold haltCallers
  refine foldl_keeps (fun s q => ?_) _ _
  extract_lets Q waits async
  exact ordView_ite ((ordView_of_coreView coreView_haltQueue).trans rfl)

theorem ordView_squashJob {j : Nat} : ordView (squashJob s j) = ordView s := by
  unfold squashJob
  exact foldl_keeps (fun _ _ => ordView_ite (ordView_of_coreView coreView_squash)) _ _

theorem ordView_dropSteps {j e o : Nat} : ordView (dropSteps s j e o) = ordView s := rfl

theorem ordView_noteLifted {j e o : Nat} : ordView (noteLifted s j e o) = ordView s := rfl

end OrdView

/-! ### The record of an ordinal after another's was changed -/

section Records

variable {s : State} {j e o j' e' o' : Nat} {f : Coll → Coll} {c : Coll}

theorem Coll.isKey_iff : c.isKey j e o = true ↔ (c.job, c.epoch, c.ordinal) = (j, e, o) := by
  simp [Coll.isKey, and_assoc]

theorem isKey_collAt : (collAt s j e o).isKey j e o = true := by
  unfold collAt
  cases hc : s.coll.colls.find? (fun c => c.isKey j e o) with
  | none => simp [Coll.isKey]
  | some c => exact List.find?_some (p := fun c : Coll => c.isKey j e o) hc

/-- A record has one key. -/
theorem Coll.not_isKey (h : c.isKey j e o = true) (hne : (j', e', o') ≠ (j, e, o)) : c.isKey j' e' o' = false := by
  rw [Bool.eq_false_iff, Ne, Coll.isKey_iff, Coll.isKey_iff.mp h]
  exact hne.symm

/-- Another ordinal's record after one was changed by a function that keeps its key. -/
theorem collAt_setColl_ne (hf : (f (collAt s j e o)).isKey j e o = true) (hne : (j', e', o') ≠ (j, e, o)) :
    collAt (setColl s j e o f) j' e' o' = collAt s j' e' o' := by
  have hnew := Coll.not_isKey hf hne
  have hmap : ∀ cs : List Coll, (cs.map (fun x => if x.isKey j e o then f (collAt s j e o) else x)).find?
      (fun x => x.isKey j' e' o') = cs.find? (fun x => x.isKey j' e' o') := by
    intro cs
    induction cs with
    | nil => rfl
    | cons x xs ih =>
      by_cases hx : x.isKey j e o = true
      · simp [hx, hnew, Coll.not_isKey hx hne, ih]
      · simp [hx, List.find?_cons, ih]
  unfold collAt setColl
  dsimp only
  split
  · rw [hmap]
  · simp [hnew]

/-- Another ordinal's record after an ordinal's early arrivals gave their quota back. -/
theorem collAt_releaseEarly_ne (hne : (j', e', o') ≠ (j, e, o)) :
    collAt (releaseEarly s j e o) j' e' o' = collAt s j' e' o' :=
  collAt_setColl_ne (s := { s with fab := _ }) isKey_collAt hne

end Records

/-! ### Early arrivals of overlapping ordinals (R155) -/

section Early

variable {s : State} {j e o x j' e' o' : Nat}

/-- The ordinals of a job whose AFTER records list `ord` (R150). -/
def laterOrdinals (s : State) (job ord : Nat) : List Nat :=
  match topOf s job with
  | some t => (t.colls.filter (fun e => e.after.contains ord)).map (·.ordinal)
  | none => []

/-- Whether an ordinal has not begun and holds early arrivals. -/
def Coll.holdsEarly (c : Coll) : Bool := !(c.eligible || c.completed || c.aborted || c.inputs.isEmpty)

/-- The record of an ordinal whose early arrivals are discarded. -/
def Coll.withoutEarly (c : Coll) : Coll :=
  if c.holdsEarly then { c with inputs := [], express := [], reached := [], first := false } else c

/-- The early arrivals of an ordinal are discarded, counted and returned to the quota. -/
def discardEarly (job epoch : Nat) (s : State) (o : Nat) : State :=
  let c := collAt s job epoch o
  if c.eligible || c.completed || c.aborted || c.inputs.isEmpty then s
  else
    let n := (c.inputs.map (fun (i : Inp) => i.frames.length + (if i.digest.isSome then 1 else 0))).sum + c.express.length
    let s := c.inputs.foldl dropStaged (releaseEarly s job epoch o)
    let s := setJob s job (fun j => { j with abortDiscards := satAdd j.abortDiscards n })
    setColl s job epoch o (fun c => { c with inputs := [], express := [], reached := [], first := false })

theorem dropOverlapping_eq : dropOverlapping s j e o = (laterOrdinals s j o).foldl (discardEarly j e) s := rfl

theorem laterOrdinals_of_tops {t : State} (h : t.tops = s.tops) : laterOrdinals t j o = laterOrdinals s j o := by
  unfold laterOrdinals topOf
  rw [h]

theorem withoutEarly_idem {c : Coll} : c.withoutEarly.withoutEarly = c.withoutEarly := by
  unfold Coll.withoutEarly
  split
  · rw [if_neg (by simp [Coll.holdsEarly])]
  · rfl

theorem collAt_discardEarly : collAt (discardEarly j e s x) j' e' o' =
    if (j', e', o') = (j, e, x) then (collAt s j' e' o').withoutEarly else collAt s j' e' o' := by
  have hstaged : ∀ (is : List Inp) (s : State), collAt (is.foldl dropStaged s) = collAt s := fun is s =>
    collAt_of_ordView (foldl_keeps (fun _ _ => ordView_dropStaged) is s)
  unfold discardEarly
  dsimp only
  split
  next hc =>
    have hn : (collAt s j e x).holdsEarly = false := by rw [Coll.holdsEarly, hc]; rfl
    split
    next hk => cases hk; rw [Coll.withoutEarly, hn]; rfl
    next => rfl
  next hc =>
    split
    next hk =>
      cases hk
      rw [collAt_setColl_self isKey_collAt, collAt_setJob, hstaged, releaseEarly, releaseEarlyIf,
        collAt_setColl_self isKey_collAt, Coll.withoutEarly, Coll.holdsEarly, if_pos (by simpa using hc)]
      rfl
    next hk => rw [collAt_setColl_ne isKey_collAt hk, collAt_setJob, hstaged, collAt_releaseEarly_ne hk]

theorem collAt_foldl_discardEarly (os : List Nat) : collAt (os.foldl (discardEarly j e) s) j' e' o' =
    if j' = j ∧ e' = e ∧ o' ∈ os then (collAt s j' e' o').withoutEarly else collAt s j' e' o' := by
  induction os generalizing s with
  | nil => simp
  | cons x xs ih =>
    rw [List.foldl_cons, ih, collAt_discardEarly]
    by_cases hj : j' = j ∧ e' = e
    · by_cases hx : o' = x <;> simp [hj, hx, withoutEarly_idem]
    · have hk : (j', e', o') ≠ (j, e, x) := by simp_all
      have hn : ∀ os : List Nat, ¬ (j' = j ∧ e' = e ∧ o' ∈ os) := fun os h => hj ⟨h.1, h.2.1⟩
      rw [if_neg hk, if_neg (hn xs), if_neg (hn (x :: xs))]

end Early

/-! ### The abort and the restart of an ordinal (R463, R464, R470) -/

section Abort

variable {s : State} {j e o j' e' o' : Nat}

/-- An abort leaves every other ordinal's record as it was, but for the early arrivals of later ordinals that overlap. -/
theorem collAt_abortColl_ne {cause origin time : Nat} (ha : (collAt s j e o).aborted = false)
    (he : (entryOf s j o).isSome = true) (hne : (j', e', o') ≠ (j, e, o)) :
    collAt (abortColl s j e o cause origin time) j' e' o' =
      if j' = j ∧ e' = e ∧ o' ∈ laterOrdinals s j o then (collAt s j' e' o').withoutEarly else collAt s j' e' o' := by
  unfold abortColl
  extract_lets c
  rw [if_neg (by simp [c, ha])]
  split
  next hn => rw [hn] at he; cases he
  next E hE =>
    extract_lets imgs fit s1 omitted s2 s3 s4 s5 s6 s7 s8 reg old s9
    have h1 : ordView s1 = ordView s := foldl_keeps (fun _ _ => ordView_originate) _ _
    have h2 : collAt s2 j' e' o' = collAt s1 j' e' o' := collAt_releaseEarly_ne hne
    have h5 : ordView s5 = ordView s2 := calc
      ordView s5 = ordView s4 := ordView_dropOwn
      _ = ordView s3 := foldl_keeps (fun _ _ => ordView_freeOut) _ _
      _ = ordView s2 := foldl_keeps (fun _ _ => by split; exacts [rfl, ordView_dropStaged]) _ _
    have h6 : collAt s6 j' e' o' = collAt s j' e' o' := by
      rw [collAt_setColl_ne isKey_collAt hne, collAt_of_ordView h5, h2, collAt_of_ordView h1]
    have ht : s6.tops = s.tops := (congrArg Prod.fst h5 :).trans (congrArg Prod.fst h1 :)
    have h8 : ordView s8 = ordView (dropOverlapping s6 j e o) :=
      ordView_squashJob.trans (ordView_dropSteps.trans ordView_haltCallers)
    clear_value s8
    have h9 : ordView (setAttn (ringLog s9 4 0x05 [reg]) aFault) = ordView s8 := rfl
    rw [collAt_of_ordView (h9.trans h8), dropOverlapping_eq, collAt_foldl_discardEarly, laterOrdinals_of_tops ht, h6]

/-- The restart of an ordinal leaves every other ordinal's record as it was. -/
theorem collAt_restartColl_ne {c : Coll} {mark : Bool} (hc : c.isKey j e o = true) (hne : (j', e', o') ≠ (j, e, o)) :
    collAt (restartColl s c mark) j' e' o' = collAt s j' e' o' := by
  cases Coll.isKey_iff.mp hc
  unfold restartColl
  extract_lets cur s1 s2 s3
  have hcur : (cur.job, cur.epoch, cur.ordinal) = (c.job, c.epoch, c.ordinal) := Coll.isKey_iff.mp isKey_collAt
  have h1 : collAt s1 j' e' o' = collAt s j' e' o' := by
    have hd : ordView s1 = ordView (releaseEarly s cur.job cur.epoch cur.ordinal) :=
      (foldl_keeps (fun _ _ => ordView_freeOut) _ _).trans (foldl_keeps (fun _ _ => ordView_dropStaged) _ _)
    rw [collAt_of_ordView hd, collAt_releaseEarly_ne (by rwa [hcur])]
  have h3 : ordView s3 = ordView s1 := (ordView_ite ordView_noteLifted).trans ordView_dropOwn
  rw [collAt_setColl_ne (Coll.isKey_iff.mpr rfl) hne, collAt_of_ordView h3, h1]

end Abort

/-! ### RESET_COLLECTIVE of an ordinal that has not completed (R469, R470) -/

section Reset

variable {s t u : State} {h : FmdReq} {k j o e j' e' o' : Nat} {T : Topiary}

theorem Settled.ordView_eq (hu : Settled k s u) : ordView u = ordView s := (congrArg ordView hu.eq_settledAs :)
theorem Settled.jobAt_eq (hu : Settled k s u) : jobAt u j = jobAt s j := (congrArg (jobAt · j) hu.eq_settledAs :)
theorem Settled.runningOp_eq {op : Nat} {key : List Nat} (hu : Settled k s u) : runningOp u op key = runningOp s op key :=
  (congrArg (runningOp · op key) hu.eq_settledAs :)

theorem topOf_of_tops (h : t.tops = s.tops) : topOf t = topOf s := by
  funext j
  unfold topOf
  rw [h]

theorem entryOf_of_tops (h : t.tops = s.tops) : entryOf t = entryOf s := by
  funext j o
  unfold entryOf
  rw [topOf_of_tops h]

/-- RESET_COLLECTIVE lifts the ordinal: its entry stands, its epoch lies in the window, and it has neither completed nor
been lifted before. -/
structure LiftsOrdinal (s : State) (j o e : Nat) (T : Topiary) : Prop where
  top : topOf s j = some T
  entry : (entryOf s j o).isSome = true
  window : (jobAt s j).oldest ≤ e ∧ e < (jobAt s j).oldest + T.epochLimit
  completed : (collAt s j e o).completed = false
  resetMark : (collAt s j e o).resetMark = false

theorem Settled.liftsOrdinal (hu : Settled k s u) (hl : LiftsOrdinal s j o e T) : LiftsOrdinal u j o e T := by
  have ht : u.tops = s.tops := congrArg Prod.fst hu.ordView_eq
  have hc := collAt_of_ordView hu.ordView_eq
  exact ⟨by rw [topOf_of_tops ht, hl.top], by rw [entryOf_of_tops ht, hl.entry], by rw [hu.jobAt_eq]; exact hl.window,
    by rw [hc, hl.completed], by rw [hc, hl.resetMark]⟩

/-- The state in which RESET_COLLECTIVE leaves the ordinals: this one aborted, unless it was, and restarted. -/
def lifted (s : State) (j o e : Nat) : State :=
  restartColl (if (collAt s j e o).aborted then s else abortHere s j e o .aborted) (collAt s j e o) true

theorem resetColl_eq (hl : LiftsOrdinal s j o e T) : resetColl j o e s = .ok (lifted s j o e) := by
  obtain ⟨E, hE⟩ := Option.isSome_iff_exists.mp hl.entry
  obtain ⟨hlow, hhigh⟩ := hl.window
  have hw : ¬ (e < (jobAt s j).oldest ∨ (jobAt s j).oldest + T.epochLimit ≤ e) := by omega
  simp only [resetColl, hl.top, hE, hl.completed, hl.resetMark]
  rw [if_neg (by simpa using hw)]
  rfl

/-- What lifting an ordinal does to the record of another: the early arrivals of a later ordinal that overlaps go with
the abort. -/
theorem collAt_lifted_ne (hl : LiftsOrdinal s j o e T) (hne : (j', e', o') ≠ (j, e, o)) :
    collAt (lifted s j o e) j' e' o' =
      if (collAt s j e o).aborted = false ∧ j' = j ∧ e' = e ∧ o' ∈ laterOrdinals s j o then (collAt s j' e' o').withoutEarly
      else collAt s j' e' o' := by
  unfold lifted
  rw [collAt_restartColl_ne isKey_collAt hne]
  by_cases ha : (collAt s j e o).aborted = true
  · simp [ha]
  · have hf : (collAt s j e o).aborted = false := by simpa using ha
    rw [if_neg ha, abortHere, collAt_abortColl_ne hf hl.entry hne]
    simp [hf]

/-- A request whose operation ends at once leaves the state of its operation, apart from what every request changes,
whichever slot its session has. -/
theorem Runs.settles {c : Instr} {op sub : Nat} {ops pl : List Byte} {bad free : Bool} {act : State → Answer} {r : Res}
    (hr : Runs c s k u) (hf : fmdOf c = some (h, op, ops, bad, sub, free))
    (he : exec c s = .next (traced s (request h op ops bad (serves s op sub) free act s)))
    (ha : act u = (t, some (r, pl))) : ∃ t', exec c s = .next t' ∧ Settled k t t' := by
  obtain ⟨-, -, x, hy⟩ := hr.request_eq hf ha
  rw [hy] at he
  have hc : Settled k t (returnCells t x) := .of_chargeView chargeView_returnCells
  exact ⟨_, he, hc.trans (settled_countRequest.trans (settled_finishReply.trans settled_traced))⟩

theorem exec_resetCollective : exec (.resetCollective h j o e) s = .next (traced s (request h 0x50
    (leBytes 1 j ++ [0, 0, 0] ++ beBytes 4 o ++ beBytes 8 e) false (serves s 0x50 0) false
    (keyedOp 0x50 [j, e, o] (resetColl j o e)) s)) := rfl

theorem keyedOp_starts {op : Nat} {key : List Nat} {start : State → Except Res State} (hn : runningOp s op key = none)
    (hs : start s = .ok t) : keyedOp op key start s =
      (setMgt t (fun m => { m with running := m.running ++ [{ opcode := op, key := key }] }), some (.busy, [])) := by
  simp only [keyedOp, hn, hs, answered]

/-- RESET_COLLECTIVE that lifts an ordinal: what it does to the records of the others. -/
theorem resetCollective_others (hr : Runs (.resetCollective h j o e) s k u) (hn : runningOp s 0x50 [j, e, o] = none)
    (hl : LiftsOrdinal s j o e T) : ∃ t, exec (.resetCollective h j o e) s = .next t ∧
      ∀ j' e' o', (j', e', o') ≠ (j, e, o) → collAt t j' e' o' =
        if (collAt s j e o).aborted = false ∧ j' = j ∧ e' = e ∧ o' ∈ laterOrdinals s j o then
          (collAt s j' e' o').withoutEarly
        else collAt s j' e' o' := by
  have hu := hr.settled
  have hact := keyedOp_starts (hu.runningOp_eq.trans hn) (resetColl_eq (hu.liftsOrdinal hl))
  obtain ⟨t, ht, hs⟩ := hr.settles rfl exec_resetCollective hact
  refine ⟨t, ht, fun j' e' o' hne => ?_⟩
  have hlift : collAt t j' e' o' = collAt (lifted u j o e) j' e' o' := by
    rw [collAt_of_ordView hs.ordView_eq]
    rfl
  rw [hlift, collAt_lifted_ne (hu.liftsOrdinal hl) hne, collAt_of_ordView hu.ordView_eq,
    laterOrdinals_of_tops (congrArg Prod.fst hu.ordView_eq)]

end Reset

/-! ### The refuting state

O60 keeps the record of every other ordinal when RESET_COLLECTIVE lifts one. The operation aborts the ordinal first
(R470), and R155 has an abort discard the early arrivals of later ordinals that overlap; `resetCollective_others` says
which records change and how. -/

/-- A reduction of the members of ordinal 7, which lists it in its AFTER record (R150). -/
def overlappingEntry : CollEntry := { tEntry with ordinal := 8, after := [7] }

/-- The Topiary of job 0 with the two overlapping reductions. -/
def overlappingTop : Topiary := { tTop with colls := [tEntry, overlappingEntry] }

/-- One frame of ordinal 8's input of rank 0, staged before ordinal 7 has completed (R152). -/
def earlyInput : Inp := { heldI 0 0 0x3F800000 with acked := false, early := 1 }

/-- A module in RUN that has one early arrival for ordinal 8. -/
def overlapping : State :=
  setColl { mS with tops := [overlappingTop] } 0 0 8 (fun c => { c with inputs := [earlyInput] })

/-- A host's RESET_COLLECTIVE of ordinal 7 in epoch 0. -/
def overlappedReset : Instr := .resetCollective rq 0 7 0

theorem overlappedReset_runs : Runs overlappedReset overlapping 1 (runU overlappedReset overlapping 1) :=
  runs_of (by decide +kernel)

theorem overlapping_lifts : LiftsOrdinal overlapping 0 7 0 overlappingTop where
  top := rfl
  entry := rfl
  window := by decide
  completed := rfl
  resetMark := rfl

theorem overlapping_early : (collAt overlapping 0 0 8).inputs = [earlyInput] := rfl

/-- Refutes O60: RESET_COLLECTIVE of an ordinal discards the early arrivals of a later ordinal that overlaps it (R155),
whose record the row leaves as it was. -/
theorem not_recoveryOperations : ¬ Obligations.RecoveryOperations := by
  unfold Obligations.RecoveryOperations
  rintro ⟨-, row, -⟩
  obtain ⟨t, ht, -, hstarts⟩ := row _ _ _ _ _ _ _ overlappedReset_runs rfl
  have hrow := hstarts overlappingTop rfl rfl
  rw [if_neg (by decide), if_neg (by decide)] at hrow
  obtain ⟨-, -, -, hothers, -⟩ := hrow
  have hkept : collAt t 0 0 8 = collAt overlapping 0 0 8 := hothers 0 0 8 (by decide)
  obtain ⟨t', ht', hchange⟩ := resetCollective_others overlappedReset_runs rfl overlapping_lifts
  obtain rfl : t' = t := by
    rw [ht] at ht'
    cases ht'
    rfl
  have hdiscarded : collAt t' 0 0 8 = (collAt overlapping 0 0 8).withoutEarly :=
    (hchange 0 0 8 (by decide)).trans (if_pos (by decide))
  have hnone : (collAt t' 0 0 8).inputs = [] := by rw [hdiscarded]; rfl
  rw [hkept, overlapping_early] at hnone
  cases hnone

end Sys2Proof.Machine
end

section
/-! Every command keeps the state well formed and the queue of waiting commands (R235, R291, R411): the operation of each
command does, and so does the trace that records what it changed. -/

namespace Sys2Proof.Machine

variable {pend : List Instr} {s t u : State}

theorem ok_of_traced (hu : u.Sound pend) (hs : s.Sound pend)
    (he : (Host.Outcome.next (traced s u) : Host.Outcome State Fault Refusal) = .next t) : t.Sound pend := by
  cases he
  exact traced_ok hs hu

/-- What holds of a well-formed state and its waiting commands holds after any command. -/
theorem exec_ok {c : Instr} (hs : s.Sound pend) (he : exec c s = .next t) : t.Sound pend := by
  cases c with
  | nop => exact ok_of_traced (doNop_ok hs) hs he
  | endProg => exact ok_of_traced (doEnd_ok hs) hs he
  | br => exact ok_of_traced (doBr_ok hs) hs he
  | dbnz => exact ok_of_traced (doDbnz_ok hs) hs he
  | cmparm => exact ok_of_traced (doCmparm_ok hs) hs he
  | cmpoff => exact ok_of_traced (doCmpoff_ok hs) hs he
  | pset => exact ok_of_traced (doPset_ok hs) hs he
  | smov => exact ok_of_traced (doSmov_ok hs) hs he
  | sadd => exact ok_of_traced (doSadd_ok hs) hs he
  | ssub => exact ok_of_traced (doSsub_ok hs) hs he
  | smul => exact ok_of_traced (doSmul_ok hs) hs he
  | sand => exact ok_of_traced (doSand_ok hs) hs he
  | sor => exact ok_of_traced (doSor_ok hs) hs he
  | sxor => exact ok_of_traced (doSxor_ok hs) hs he
  | sshl => exact ok_of_traced (doSshl_ok hs) hs he
  | sshr => exact ok_of_traced (doSshr_ok hs) hs he
  | ssra => exact ok_of_traced (doSsra_ok hs) hs he
  | cset => exact ok_of_traced (doCset_ok hs) hs he
  | cget => exact ok_of_traced (doCget_ok hs) hs he
  | sfadd => exact ok_of_traced (doSfadd_ok hs) hs he
  | sfsub => exact ok_of_traced (doSfsub_ok hs) hs he
  | sfmul => exact ok_of_traced (doSfmul_ok hs) hs he
  | sfdiv => exact ok_of_traced (doSfdiv_ok hs) hs he
  | sfsqrt => exact ok_of_traced (doSfsqrt_ok hs) hs he
  | sld => exact ok_of_traced (doSld_ok hs) hs he
  | sst => exact ok_of_traced (doSst_ok hs) hs he
  | flagsRd => exact ok_of_traced (doFlagsRd_ok hs) hs he
  | flagsClr => exact ok_of_traced (doFlagsClr_ok hs) hs he
  | digestRd => exact ok_of_traced (doDigestRd_ok hs) hs he
  | hset => exact ok_of_traced (doHset_ok hs) hs he
  | hoff => exact ok_of_traced (doHoff_ok hs) hs he
  | hadd => exact ok_of_traced (doHadd_ok hs) hs he
  | vcopy => exact ok_of_traced (vecIssue_ok hs) hs he
  | vcvt => exact ok_of_traced (vecIssue_ok hs) hs he
  | vfill => exact ok_of_traced (vecIssue_ok hs) hs he
  | vadd => exact ok_of_traced (vecIssue_ok hs) hs he
  | vsub => exact ok_of_traced (vecIssue_ok hs) hs he
  | vmul => exact ok_of_traced (vecIssue_ok hs) hs he
  | vmuladd => exact ok_of_traced (vecIssue_ok hs) hs he
  | vdiv => exact ok_of_traced (vecIssue_ok hs) hs he
  | vsqrt => exact ok_of_traced (vecIssue_ok hs) hs he
  | vexp => exact ok_of_traced (vecIssue_ok hs) hs he
  | vlog => exact ok_of_traced (vecIssue_ok hs) hs he
  | vrsqrt => exact ok_of_traced (vecIssue_ok hs) hs he
  | vmax => exact ok_of_traced (vecIssue_ok hs) hs he
  | vmin => exact ok_of_traced (vecIssue_ok hs) hs he
  | vabs => exact ok_of_traced (vecIssue_ok hs) hs he
  | vneg => exact ok_of_traced (vecIssue_ok hs) hs he
  | vsign => exact ok_of_traced (vecIssue_ok hs) hs he
  | vand => exact ok_of_traced (vecIssue_ok hs) hs he
  | vor => exact ok_of_traced (vecIssue_ok hs) hs he
  | vxor => exact ok_of_traced (vecIssue_ok hs) hs he
  | vshl => exact ok_of_traced (vecIssue_ok hs) hs he
  | vshr => exact ok_of_traced (vecIssue_ok hs) hs he
  | vcmp => exact ok_of_traced (vecIssue_ok hs) hs he
  | vsel => exact ok_of_traced (vecIssue_ok hs) hs he
  | vdot => exact ok_of_traced (vecIssue_ok hs) hs he
  | mmul => exact ok_of_traced (matrixIssue_ok hs) hs he
  | mmac => exact ok_of_traced (matrixIssue_ok hs) hs he
  | tload => exact ok_of_traced (matrixIssue_ok hs) hs he
  | chain => exact ok_of_traced (doChain_ok hs) hs he
  | crun => exact ok_of_traced (doCrun_ok hs) hs he
  | flagSet => exact ok_of_traced (doFlagSet_ok hs) hs he
  | flagSetEffect => exact ok_of_traced (doFlagSetEffect_ok hs) hs he
  | flagClear => exact ok_of_traced (doFlagClear_ok hs) hs he
  | flagWait => exact ok_of_traced (doFlagWait_ok hs) hs he
  | flagWaitSatisfied => exact ok_of_traced (doFlagWaitSatisfied_ok hs) hs he
  | flagWaitDeadline => exact ok_of_traced (doFlagWaitDeadline_ok hs) hs he
  | fence => exact ok_of_traced (doFence_ok hs) hs he
  | fenceComplete => exact ok_of_traced (doFenceComplete_ok hs) hs he
  | callColl => exact ok_of_traced (doCallColl_ok hs) hs he
  | dmaCopy => exact ok_of_traced (doDmaCopy_ok hs) hs he
  | segRun => exact ok_of_traced (doSegRun_ok hs) hs he
  | dmaRunAhead => exact ok_of_traced (doDmaRunAhead_ok hs) hs he
  | dmaBlock => exact ok_of_traced (doDmaBlock_ok hs) hs he
  | hawthornBatch => exact ok_of_traced (doHawthornBatch_ok hs) hs he
  | laurelBlockPass => exact ok_of_traced (doLaurelBlockPass_ok hs) hs he
  | tierFrameReserve => exact ok_of_traced (doTierFrameReserve_ok hs) hs he
  | tierWriteBackDone => exact ok_of_traced (doTierWriteBackDone_ok hs) hs he
  | tierMoveInDone => exact ok_of_traced (doTierMoveInDone_ok hs) hs he
  | preemptStop => exact ok_of_traced (doPreemptStop_ok hs) hs he
  | privetChunk => exact ok_of_traced (doPrivetChunk_ok hs) hs he
  | duplicateExecution => exact ok_of_traced (doDuplicateExecution_ok hs) hs he
  | selfTest => exact ok_of_traced (doSelfTest_ok hs) hs he
  | remapApply => exact ok_of_traced (doRemapApply_ok hs) hs he
  | dataFrame => exact ok_of_traced (receiveAs_ok hs) hs he
  | expressCell => exact ok_of_traced (receiveAs_ok hs) hs he
  | digestFrame => exact ok_of_traced (receiveAs_ok hs) hs he
  | ackFrame => exact ok_of_traced (receiveAs_ok hs) hs he
  | nakChunk => exact ok_of_traced (receiveAs_ok hs) hs he
  | retractFrame => exact ok_of_traced (receiveAs_ok hs) hs he
  | abortCell => exact ok_of_traced (receiveAs_ok hs) hs he
  | countsFrame => exact ok_of_traced (receiveAs_ok hs) hs he
  | creditCell => exact ok_of_traced (receiveAs_ok hs) hs he
  | linkNak => exact ok_of_traced (receiveAs_ok hs) hs he
  | timeFrame => exact ok_of_traced (receiveAs_ok hs) hs he
  | voteFrame => exact ok_of_traced (receiveAs_ok hs) hs he
  | stretchCell => exact ok_of_traced (receiveAs_ok hs) hs he
  | twinGrad => exact ok_of_traced (receiveTwin_ok hs) hs he
  | twinFlip => exact ok_of_traced (receiveTwin_ok hs) hs he
  | twinVote => exact ok_of_traced (receiveTwin_ok hs) hs he
  | twinHello => exact ok_of_traced (receiveTwin_ok hs) hs he
  | twinLeave => exact ok_of_traced (receiveTwin_ok hs) hs he
  | twinSync => exact ok_of_traced (receiveTwin_ok hs) hs he
  | twinImageRequest => exact ok_of_traced (receiveImage_ok hs) hs he
  | twinImageData => exact ok_of_traced (receiveImage_ok hs) hs he
  | unitSelect => exact ok_of_traced (doUnitSelect_ok hs) hs he
  | unitTxDone => exact ok_of_traced (doUnitTxDone_ok hs) hs he
  | linkRetryTimeout => exact ok_of_traced (doLinkRetryTimeout_ok hs) hs he
  | linkNakRepeat => exact ok_of_traced (doLinkNakRepeat_ok hs) hs he
  | creditSend => exact ok_of_traced (doCreditSend_ok hs) hs he
  | laneSignalDetect => exact ok_of_traced (doLaneSignalDetect_ok hs) hs he
  | fecAlignmentLock => exact ok_of_traced (doFecAlignmentLock_ok hs) hs he
  | peerIdentityCheck => exact ok_of_traced (doPeerIdentityCheck_ok hs) hs he
  | laneDown => exact ok_of_traced (doLaneDown_ok hs) hs he
  | earlyArrivalAdmit => exact ok_of_traced (doEarlyArrivalAdmit_ok hs) hs he
  | allocWaitGrant => exact ok_of_traced (doAllocWaitGrant_ok hs) hs he
  | mirrorData => exact ok_of_traced (doMirrorData_ok hs) hs he
  | ordinalEligible => exact ok_of_traced (emitCasts_ok (doOrdinalEligible_ok hs)) hs he
  | ordinalTimeout => exact ok_of_traced (doOrdinalTimeout_ok hs) hs he
  | chunkTimerExpiry => exact ok_of_traced (doChunkTimerExpiry_ok hs) hs he
  | shortWaitExpiry => exact ok_of_traced (doShortWaitExpiry_ok hs) hs he
  | digestSend => exact ok_of_traced (doDigestSend_ok hs) hs he
  | digestResend => exact ok_of_traced (doDigestResend_ok hs) hs he
  | shardFlip => exact ok_of_traced (doShardFlip_ok hs) hs he
  | optimizerStepStart => exact ok_of_traced (doOptimizerStepStart_ok hs) hs he
  | epochBoundary => exact ok_of_traced (doEpochBoundary_ok hs) hs he
  | voteWindowExpiry => exact ok_of_traced (doVoteWindowExpiry_ok hs) hs he
  | voteClose => exact ok_of_traced (doVoteClose_ok hs) hs he
  | timeSend => exact ok_of_traced (doTimeSend_ok hs) hs he
  | timeParentTimeout => exact ok_of_traced (doTimeParentTimeout_ok hs) hs he
  | masterTimeStart => exact ok_of_traced (doMasterTimeStart_ok hs) hs he
  | stretchRenew => exact ok_of_traced (doStretchRenew_ok hs) hs he
  | gateSwap => exact ok_of_traced (doGateSwap_ok hs) hs he
  | stretchExpiry => exact ok_of_traced (doStretchExpiry_ok hs) hs he
  | schedMismatch => exact ok_of_traced (doSchedMismatch_ok hs) hs he
  | helloSend => exact ok_of_traced (doHelloSend_ok hs) hs he
  | twinSilenceTimeout => exact ok_of_traced (doTwinSilenceTimeout_ok hs) hs he
  | powerWindow => exact ok_of_traced (doPowerWindow_ok hs) hs he
  | currentSample => exact ok_of_traced (doCurrentSample_ok hs) hs he
  | railShortDetect => exact ok_of_traced (doRailShortDetect_ok hs) hs he
  | senseOpenDetect => exact ok_of_traced (doSenseOpenDetect_ok hs) hs he
  | feedStateChange => exact ok_of_traced (doFeedStateChange_ok hs) hs he
  | feedSwitchover => exact ok_of_traced (doFeedSwitchover_ok hs) hs he
  | feedsLost => exact ok_of_traced (doFeedsLost_ok hs) hs he
  | thermalThreshold => exact ok_of_traced (doThermalThreshold_ok hs) hs he
  | inletTemperature => exact ok_of_traced (doInletTemperature_ok hs) hs he
  | flowLowDetect => exact ok_of_traced (doFlowLowDetect_ok hs) hs he
  | powerOn => exact ok_of_traced (doPowerOn_ok hs) hs he
  | configApply => exact ok_of_traced (doConfigApply_ok hs) hs he
  | trainingComplete => exact ok_of_traced (doTrainingComplete_ok hs) hs he
  | syncTimeout => exact ok_of_traced (doSyncTimeout_ok hs) hs he
  | imageRequestRepeat => exact ok_of_traced (doImageRequestRepeat_ok hs) hs he
  | imageVerifyComplete => exact ok_of_traced (doImageVerifyComplete_ok hs) hs he
  | carrierResetAssert => exact ok_of_traced (doCarrierResetAssert_ok hs) hs he
  | carrierResetRelease => exact ok_of_traced (doCarrierResetRelease_ok hs) hs he
  | lsrEnChange => exact ok_of_traced (doLsrEnChange_ok hs) hs he
  | sb3v3Loss => exact ok_of_traced (doSb3v3Loss_ok hs) hs he
  | i3cPrivateRead => exact ok_of_traced (doI3cPrivateRead_ok hs) hs he
  | i3cWrite => exact ok_of_traced (doI3cWrite_ok hs) hs he
  | extest => exact ok_of_traced (doExtest_ok hs) hs he
  | idcode => exact ok_of_traced (doIdcode_ok hs) hs he
  | samplePreload => exact ok_of_traced (doSamplePreload_ok hs) hs he
  | ringSel => exact ok_of_traced (doRingSel_ok hs) hs he
  | ringData => exact ok_of_traced (doRingData_ok hs) hs he
  | jtagState => exact ok_of_traced (doJtagState_ok hs) hs he
  | bypass => exact ok_of_traced (doBypass_ok hs) hs he
  | fmdDiscard => exact ok_of_traced (doFmdDiscard_ok hs) hs he
  | securedMessageDiscard => exact ok_of_traced (doSecuredMessageDiscard_ok hs) hs he
  | arpNdRequest => exact ok_of_traced (doArpNdRequest_ok hs) hs he
  | icmpEcho => exact ok_of_traced (doIcmpEcho_ok hs) hs he
  | spdm => exact ok_of_traced (doSpdm_ok hs) hs he
  | keyExchange => exact ok_of_traced (doKeyExchange_ok hs) hs he
  | finish => exact ok_of_traced (doFinish_ok hs) hs he
  | endSession => exact ok_of_traced (doEndSession_ok hs) hs he
  | getMeasurements => exact ok_of_traced (doGetMeasurements_ok hs) hs he
  | sessionTimeout => exact ok_of_traced (doSessionTimeout_ok hs) hs he
  | readReg => exact ok_of_traced (doReadReg_ok hs) hs he
  | writeReg => exact ok_of_traced (doWriteReg_ok hs) hs he
  | readBlock => exact ok_of_traced (doReadBlock_ok hs) hs he
  | regAccessTimeout => exact ok_of_traced (doRegAccessTimeout_ok hs) hs he
  | counterSnapshotTake => exact ok_of_traced (doCounterSnapshotTake_ok hs) hs he
  | counterSnapshotRelease => exact ok_of_traced (doCounterSnapshotRelease_ok hs) hs he
  | snapshotFreeze => exact ok_of_traced (doSnapshotFreeze_ok hs) hs he
  | snapshotExpiry => exact ok_of_traced (doSnapshotExpiry_ok hs) hs he
  | eventRingRead => exact ok_of_traced (doEventRingRead_ok hs) hs he
  | traceCtrlStart => exact ok_of_traced (doTraceCtrlStart_ok hs) hs he
  | traceCtrlStop => exact ok_of_traced (doTraceCtrlStop_ok hs) hs he
  | traceCtrlStatus => exact ok_of_traced (doTraceCtrlStatus_ok hs) hs he
  | traceCtrlFilter => exact ok_of_traced (doTraceCtrlFilter_ok hs) hs he
  | traceDrainComplete => exact ok_of_traced (doTraceDrainComplete_ok hs) hs he
  | traceRecordWrite => exact ok_of_traced (doTraceRecordWrite_ok hs) hs he
  | attnAck => exact ok_of_traced (doAttnAck_ok hs) hs he
  | queuePush => exact ok_of_traced (doQueuePush_ok hs) hs he
  | topiaryLoad => exact ok_of_traced (doTopiaryLoad_ok hs) hs he
  | topiaryCommit => exact ok_of_traced (doTopiaryCommit_ok hs) hs he
  | topiaryActivate => exact ok_of_traced (doTopiaryActivate_ok hs) hs he
  | topiaryUnload => exact ok_of_traced (doTopiaryUnload_ok hs) hs he
  | topiaryUnloadComplete => exact ok_of_traced (doTopiaryUnloadComplete_ok hs) hs he
  | checkpointRead => exact ok_of_traced (doCheckpointRead_ok hs) hs he
  | checkpointReadTimeout => exact ok_of_traced (doCheckpointReadTimeout_ok hs) hs he
  | imagePush => exact ok_of_traced (doImagePush_ok hs) hs he
  | nvmWrite => exact ok_of_traced (doNvmWrite_ok hs) hs he
  | nvmWriteComplete => exact ok_of_traced (doNvmWriteComplete_ok hs) hs he
  | resetCollective => exact ok_of_traced (doResetCollective_ok hs) hs he
  | rollbackEpoch => exact ok_of_traced (doRollbackEpoch_ok hs) hs he
  | remapUnit => exact ok_of_traced (doRemapUnit_ok hs) hs he
  | resyncTwin => exact ok_of_traced (doResyncTwin_ok hs) hs he
  | requeue => exact ok_of_traced (doRequeue_ok hs) hs he
  | masterRelease => exact ok_of_traced (doMasterRelease_ok hs) hs he
  | moduleReset => exact ok_of_traced (doModuleReset_ok hs) hs he
  | timSet => exact ok_of_traced (doTimSet_ok hs) hs he
  | detach => exact ok_of_traced (doDetach_ok hs) hs he
  | forceSolo => exact ok_of_traced (doForceSolo_ok hs) hs he
  | retrain => exact ok_of_traced (doRetrain_ok hs) hs he
  | laneEnable => exact ok_of_traced (doLaneEnable_ok hs) hs he
  | burnCust => exact ok_of_traced (doBurnCust_ok hs) hs he
  | svnAdvance => exact ok_of_traced (doSvnAdvance_ok hs) hs he
  | fuseBurnComplete => exact ok_of_traced (doFuseBurnComplete_ok hs) hs he
  | lagClear => exact ok_of_traced (doLagClear_ok hs) hs he
  | mirrorDestWrite => exact ok_of_traced (doMirrorDestWrite_ok hs) hs he
  | mirrorCfgWrite => exact ok_of_traced (doMirrorCfgWrite_ok hs) hs he
  | polDataWrite => exact ok_of_traced (doPolDataWrite_ok hs) hs he
  | profileWrite => exact ok_of_traced (doProfileWrite_ok hs) hs he
  | weightWrite => exact ok_of_traced (doWeightWrite_ok hs) hs he
  | ageLimitWrite => exact ok_of_traced (doAgeLimitWrite_ok hs) hs he
  | capWrite => exact ok_of_traced (doCapWrite_ok hs) hs he
  | railLimitWrite => exact ok_of_traced (doRailLimitWrite_ok hs) hs he
  | lagSelWrite => exact ok_of_traced (doLagSelWrite_ok hs) hs he
  | masterSyncElapsed => exact ok_of_traced (doMasterSyncElapsed_ok hs) hs he
  | mirrorRingWrite => exact ok_of_traced (doMirrorRingWrite_ok hs) hs he
  | mgtPortLinkChange => exact ok_of_traced (doMgtPortLinkChange_ok hs) hs he
  | recoveryOperationComplete => exact ok_of_traced (doRecoveryOperationComplete_ok hs) hs he
  | delimitationLost => exact ok_of_traced (doDelimitationLost_ok hs) hs he
  | mirrorUnit => exact ok_of_traced (receiveAs_ok hs) hs he
  | fmdNop => exact ok_of_traced (doFmdNop_ok hs) hs he
  | reservedOpcode => exact ok_of_traced (doReservedOpcode_ok hs) hs he

/-- One step keeps the state well formed. -/
theorem step_ok (hs : s.Ok) (he : step s = .next t) : t.Ok := by
  unfold step at he
  split at he
  case h_1 =>
    cases he
    exact (tick_ok (pend := s.pending) ⟨hs, rfl⟩).1
  case h_2 c rest _ => exact (exec_ok (pend := rest) (s := { s with pending := rest }) ⟨hs, rfl⟩ he).1

/-- Settles O5: a step is a tick or a command, and both keep what `State.Ok` asks. -/
theorem stepKeepsOk : Obligations.StepKeepsOk := fun _ _ => step_ok

/-- Settles O6: the same invariant carries the commands that wait. -/
theorem commandsKeepTheQueue : Obligations.CommandsKeepTheQueue := fun _ _ _ he hs => (exec_ok ⟨hs, rfl⟩ he).2

end Sys2Proof.Machine
end

section
/-! The queue of commands, a tick and reset (R22, R300, R301), the comparators (R248) and the handle words (R252). -/

namespace Sys2Proof.Machine

/-! ### Time and reset -/

/-- Settles O1: the front command runs on the rest of the queue, by the definition of a step. -/
theorem stepRunsFront : Obligations.StepRunsFront := fun _ _ _ => rfl

theorem tickQueue_regs (Q : Queue) : (tickQueue Q).regs = Q.regs := by
  unfold tickQueue
  split <;> rfl

theorem tick_queueAt {s : State} {q : Nat} : queueAt (tick s) q = tickQueue (queueAt s q) := by
  have hq : (tick s).comp.queues = s.comp.queues.map tickQueue := by
    unfold tick
    dsimp only
    split <;> rfl
  unfold queueAt
  rw [hq]
  exact List.getD_map (f := tickQueue) (d := {}) ..

/-- R301 steers by at most one nanosecond at a time. -/
theorem slewStep_bounds (s : State) : -1 ≤ slewStep s ∧ slewStep s ≤ 1 := by
  unfold slewStep
  dsimp only
  split
  · decide
  · split <;> decide

theorem tick_fabricTime {s : State} :
    (tick s).fabricTime ≤ s.fabricTime + 2 ∧ s.fabricTime ≤ (tick s).fabricTime := by
  have ht : (tick s).fabricTime = ((s.fabricTime : Int) + 1 + slewStep s).toNat := by
    unfold tick
    dsimp only
    split <;> rfl
  obtain ⟨hlow, hhigh⟩ := slewStep_bounds s
  rw [ht]
  omega

/-- A tick changes the two clocks, the steering that is left and the deadlines of the queues. -/
theorem tick_keeps {s : State} : (tick s).now = s.now + 1 ∧ (tick s).pending = s.pending ∧
    (tick s).comp.mem = s.comp.mem ∧ (tick s).tops = s.tops ∧ (tick s).mgt = s.mgt ∧ (tick s).coll = s.coll ∧
    (tick s).pwr = s.pwr ∧ (tick s).integ = s.integ := by
  unfold tick
  dsimp only
  split <;> exact ⟨rfl, rfl, rfl, rfl, rfl, rfl, rfl, rfl⟩

/-- Settles O2: a step on an empty queue is a tick. -/
theorem idleStepTicks : Obligations.IdleStepTicks := by
  intro s hs
  obtain ⟨hnow, hpend, hmem, htops, hmgt, hcoll, hpwr, hinteg⟩ := tick_keeps (s := s)
  obtain ⟨hhigh, hlow⟩ := tick_fabricTime (s := s)
  have hregs (q : Nat) : regsOf (tick s) q = regsOf s q := (congrArg Queue.regs tick_queueAt).trans (tickQueue_regs _)
  exact ⟨tick s, by simp only [step, hs], hnow, hhigh, hlow, hpend.trans hs, hmem, hregs, htops, hmgt, hcoll, hpwr, hinteg⟩

theorem queueAt_reset (q : Nat) : queueAt State.reset q = {} := by
  have hq : State.reset.comp.queues = List.replicate 64 {} := rfl
  unfold queueAt
  rw [hq, List.getD_eq_getElem?_getD, List.getElem?_replicate]
  split <;> rfl

theorem sreg_default (i : Nat) : sreg {} i = 0 := by
  have hs : ({} : Queue).s = List.replicate 16 0 := rfl
  unfold sreg
  rw [hs, List.getD_eq_getElem?_getD, List.getElem?_replicate]
  split <;> rfl

/-- Settles O3: the reset values of the fields. -/
theorem resetLeaves : Obligations.ResetLeaves := by
  refine ⟨rfl, rfl, rfl, rfl, rfl, fun _ => rfl, fun q _ => ?_⟩
  rw [queueAt_reset]
  exact ⟨rfl, rfl, rfl, sreg_default⟩

/-- Settles O4: no byte is listed, and the queues are 64. -/
theorem resetIsOk : Obligations.ResetIsOk := ⟨rfl, rfl⟩

/-! ### Comparators (R248) -/

/-- What one comparator does to its queue. -/
def driveOne (Q : Queue) (k : Comparator) : Queue :=
  if k.armed then { Q with p := Q.p.set k.pred (condHolds k.cond (compSource Q k) k.bound) } else Q

theorem driveComparators_foldl (Q : Queue) : driveComparators Q = Q.k.foldl driveOne Q := rfl

section Drive

variable {Q : Queue} {k : Comparator}

theorem driveOne_source (x : Comparator) : compSource (driveOne Q k) x = compSource Q x := by
  unfold driveOne
  split <;> rfl

theorem driveOne_length : (driveOne Q k).p.length = Q.p.length := by
  unfold driveOne
  split
  · exact List.length_set
  · rfl

theorem driveOne_ne {n : Nat} (h : k.armed = true → k.pred ≠ n) : (driveOne Q k).p[n]? = Q.p[n]? := by
  unfold driveOne
  split
  next ha => exact List.getElem?_set_ne (h ha)
  next => rfl

theorem driveOne_own (ha : k.armed = true) (hl : k.pred < Q.p.length) :
    (driveOne Q k).p[k.pred]? = some (condHolds k.cond (compSource Q k) k.bound) := by
  unfold driveOne
  rw [if_pos ha]
  exact List.getElem?_set_self hl

/-- Comparators that name another predicate leave this one. -/
theorem foldl_driveOne_ne {n : Nat} : ∀ {ks : List Comparator} {Q : Queue},
    (∀ x, x ∈ ks → x.armed = true → x.pred ≠ n) → (ks.foldl driveOne Q).p[n]? = Q.p[n]?
  | [], _, _ => rfl
  | x :: ks, Q, h => by
    rw [List.foldl_cons, foldl_driveOne_ne (fun y hy => h y (List.mem_cons_of_mem _ hy)),
      driveOne_ne (h x List.mem_cons_self)]

theorem foldl_driveOne_length : ∀ {ks : List Comparator} {Q : Queue}, (ks.foldl driveOne Q).p.length = Q.p.length
  | [], _ => rfl
  | x :: ks, Q => by rw [List.foldl_cons, foldl_driveOne_length, driveOne_length]

theorem foldl_driveOne_source {k : Comparator} :
    ∀ {ks : List Comparator} {Q : Queue}, compSource (ks.foldl driveOne Q) k = compSource Q k
  | [], _ => rfl
  | x :: ks, Q => by rw [List.foldl_cons, foldl_driveOne_source, driveOne_source]

end Drive

/-- Settles O10: the comparator's own turn writes its predicate, and no later one touches it. -/
theorem armedComparatorDrivesItsPredicate : Obligations.ArmedComparatorDrivesItsPredicate := by
  intro Q i k hk harmed hpred honly
  obtain ⟨hi, hget⟩ := List.getElem?_eq_some_iff.mp hk
  have hsplit : Q.k = Q.k.take i ++ k :: Q.k.drop (i + 1) := by
    rw [← hget, List.cons_getElem_drop_succ, List.take_append_drop]
  have hlater (x : Comparator) (hx : x ∈ Q.k.drop (i + 1)) (ha : x.armed = true) : x.pred ≠ k.pred := by
    intro he
    obtain ⟨j, hj⟩ := List.mem_iff_getElem?.mp hx
    rw [List.getElem?_drop] at hj
    have := honly _ x hj ha he
    omega
  rw [driveComparators_foldl, hsplit, List.foldl_append, List.foldl_cons, foldl_driveOne_ne hlater,
    driveOne_own harmed (by rwa [foldl_driveOne_length]), foldl_driveOne_source]

/-! ### Handles (R252) -/

/-- Settles O12: each word is one change of its queue's handle registers. -/
theorem handleWords : Obligations.HandleWords := by
  refine ⟨fun q s w hw => ⟨_, rfl, ?hset⟩, fun q s w hw => ⟨_, rfl, ?hoff⟩, fun q s w hw => ⟨_, rfl, ?hadd⟩⟩
  case hset =>
    exact scalar_command (fun Q => { Q with h := Q.h.set (wR3 w) ⟨(wImm w).setWidth 12, 0⟩ }) hw rfl ⟨rfl, rfl, rfl, rfl, rfl⟩
  case hoff =>
    exact scalar_command (fun Q => { Q with h := Q.h.modify (wR3 w) (fun h => { h with offset := wImm w }) }) hw rfl
      ⟨rfl, rfl, rfl, rfl, rfl⟩
  case hadd =>
    exact scalar_command (fun Q => { Q with
      h := Q.h.modify (wR3 w) (fun h => { h with offset := h.offset + sreg (queueAt s q) (wR2 w) }) }) hw rfl
      ⟨rfl, rfl, rfl, rfl, rfl⟩

end Sys2Proof.Machine
end

section
/-! What a word of a queue does to engines, memory and calls beside its registers (R237 to R242, R246, R267, R268), and
the obligations O8 and O14 to O17. -/

namespace Sys2Proof.Machine

/-! ### The state that an effect sees -/

/-- Counting the issue of a word changes the debug block alone. -/
theorem bumpQue_eq (s : State) (q k : Nat) : ∃ d, bumpQue s q k = { s with dbg := d } := by
  unfold bumpQue
  dsimp only
  split
  · exact ⟨s.dbg, rfl⟩
  · exact ⟨_, rfl⟩

theorem bumpQue_outside {s : State} {q k : Nat} : KeepsOutside s (bumpQue s q k) := by
  obtain ⟨d, hd⟩ := bumpQue_eq s q k
  rw [hd]
  exact ⟨rfl, rfl, rfl, rfl, rfl, rfl, rfl, rfl⟩

section Bumped

variable {s : State} {q k : Nat} {Q : Queue} {w : Word}

@[simp] theorem vecSetup_bumpQue : vecSetup (bumpQue s q k) Q w = vecSetup s Q w := by
  obtain ⟨d, hd⟩ := bumpQue_eq s q k
  rw [hd]; rfl
@[simp] theorem matrixSetup_bumpQue {r : Nat} : matrixSetup (bumpQue s q k) r Q w = matrixSetup s r Q w := by
  obtain ⟨d, hd⟩ := bumpQue_eq s q k
  rw [hd]; rfl
@[simp] theorem dmaTensors_bumpQue : dmaTensors (bumpQue s q k) Q w = dmaTensors s Q w := by
  obtain ⟨d, hd⟩ := bumpQue_eq s q k
  rw [hd]; rfl
@[simp] theorem chainStreams_bumpQue {c : Chain} : chainStreams (bumpQue s q k) Q c = chainStreams s Q c := by
  obtain ⟨d, hd⟩ := bumpQue_eq s q k
  rw [hd]; rfl
@[simp] theorem segWords_bumpQue : segWords (bumpQue s q k) = segWords s := segWords_of_tops bumpQue_tops
@[simp] theorem scalarTensor_bumpQue {r : Nat} : scalarTensor (bumpQue s q k) Q r = scalarTensor s Q r := by
  obtain ⟨d, hd⟩ := bumpQue_eq s q k
  rw [hd]; rfl
@[simp] theorem entryOf_bumpQue {j o : Nat} : entryOf (bumpQue s q k) j o = entryOf s j o := by
  obtain ⟨d, hd⟩ := bumpQue_eq s q k
  rw [hd]; rfl
@[simp] theorem jobFlag_bumpQue {j f : Nat} : jobFlag (bumpQue s q k) j f = jobFlag s j f := by
  unfold jobFlag
  rw [bumpQue_comp]
@[simp] theorem chanAt_bumpQue {i : Nat} : chanAt (bumpQue s q k) i = chanAt s i := by
  unfold chanAt
  rw [bumpQue_comp]

theorem firstFault_dbg {d : Dbg} {job die : Nat} {u : MUnit} (l : List Acc) :
    firstFault { s with dbg := d } job die u l = firstFault s job die u l := by
  induction l with
  | nil => rfl
  | cons a l ih => unfold firstFault; rw [ih]; rfl

@[simp] theorem preCheck_bumpQue {job die : Nat} {u : MUnit} {l : List Acc} :
    preCheck (bumpQue s q k) job die u l = preCheck s job die u l := by
  obtain ⟨d, hd⟩ := bumpQue_eq s q k
  rw [hd]
  unfold preCheck
  rw [firstFault_dbg]
  rfl

end Bumped

/-! ### A word that changes its queue and engines -/

section Words

variable {s u : State} {q op : Nat} {w : Word} {eff : Word → Queue → State → Issue}

/-- What stands after a change `g` of queue `q` that leaves the compute dies as `C` and changes nothing outside them. -/
structure EngineChange (s t : State) (q : Nat) (g : Queue → Queue) (C : Comp) : Prop where
  regs : regsOf t q = (g (queueAt s q)).regs
  others : KeepsOthers s t q
  outside : KeepsOutside s t
  mem : t.comp.mem = C.mem
  jobFlags : t.comp.jobFlags = C.jobFlags
  fpVec : t.comp.fpVec = C.fpVec
  fpRde : t.comp.fpRde = C.fpRde
  fpMtx : t.comp.fpMtx = C.fpMtx
  laurel : t.comp.laurel = C.laurel
  mtxPasses : t.comp.mtxPasses = C.mtxPasses
  chans : t.comp.chans = C.chans

/-- Such a change by a word that is complete: its queue has moved past it. -/
structure EngineWord (s t : State) (q : Nat) (g : Queue → Queue) (C : Comp) : Prop extends EngineChange s t q g C where
  moved : Moved s t q

/-- The change leaves every queue where it stood. -/
structure KeepsPlace (g : Queue → Queue) (Q : Queue) : Prop where
  inSeg : (g Q).inSeg = Q.inSeg
  seg : (g Q).seg = Q.seg
  pc : (g Q).pc = Q.pc
  ring : (g Q).ring = Q.ring
  head : (g Q).head = Q.head

section Change

variable {t : State} {C : Comp} {g : Queue → Queue}

theorem queueAt_of_modify (hq : u.comp.queues = s.comp.queues.modify q g) (r : Nat) : queueAt u r = queueAt (setQueue s q g) r := by
  unfold queueAt
  rw [hq]
  rfl

theorem posView_of_modify (hlt : q < s.comp.queues.length) (hq : u.comp.queues = s.comp.queues.modify q g)
    (hp : KeepsPlace g (queueAt s q)) : posView u = posView s := by
  funext r
  by_cases hr : r = q
  · subst hr
    simp only [posView, queueAt_of_modify hq, queueAt_setQueue_self hlt, hp.inSeg, hp.seg, hp.pc, hp.ring, hp.head]
  · simp only [posView, queueAt_of_modify hq, queueAt_setQueue_ne hr]

/-- A change of queue `q` and of the compute dies, followed by queue control. -/
theorem engineChange_of (hlt : q < s.comp.queues.length) (hq : u.comp.queues = s.comp.queues.modify q g)
    (ho : KeepsOutside s u) (hv : coreView t = coreView u) : EngineChange s t q g u.comp := by
  obtain ⟨fmem, feng, -, fout⟩ := ScalarFrame.of_coreView (q := q) hv
  refine ⟨?_, fun r hr => ?_, ho.trans fout, fmem, feng.jobFlags, feng.fpVec, feng.fpRde, feng.fpMtx, feng.laurel,
    feng.mtxPasses, feng.chans⟩
  · rw [regsOf_of_coreView hv]
    exact congrArg Queue.regs ((queueAt_of_modify hq q).trans (queueAt_setQueue_self hlt))
  · rw [regsOf_of_coreView hv]
    exact congrArg Queue.regs ((queueAt_of_modify hq r).trans (queueAt_setQueue_ne hr))

theorem engine_command (g : Queue → Queue) {C : Comp} (h : Issues s q op w)
    (he : eff w (queueAt s q) (bumpQue s q 0) = .done u) (hC : u.comp = C) (hq : C.queues = s.comp.queues.modify q g)
    (ho : KeepsOutside s u) (hp : KeepsPlace g (queueAt s q)) : EngineWord s (traced s (issue op q s eff)) q g C := by
  subst hC
  have hm := issue_done_moved h he (posView_of_modify h.lt hq hp) (by rw [hq, List.length_modify])
  rw [issue_done h he] at hm ⊢
  exact ⟨engineChange_of h.lt hq ho (coreView_traced.trans coreView_advance), hm⟩

theorem engine_stay (g : Queue → Queue) {C : Comp} (h : Issues s q op w)
    (he : eff w (queueAt s q) (bumpQue s q 0) = .stay u) (hC : u.comp = C) (hq : C.queues = s.comp.queues.modify q g)
    (ho : KeepsOutside s u) (hp : KeepsPlace g (queueAt s q)) :
    EngineChange s (traced s (issue op q s eff)) q g C ∧ Stands s (traced s (issue op q s eff)) q ∧
      queueAt (traced s (issue op q s eff)) q = g (queueAt s q) := by
  subst hC
  rw [issue_stay h he]
  exact ⟨engineChange_of h.lt hq ho coreView_traced, Stands.of_posView (posView_traced.trans (posView_of_modify h.lt hq hp)),
    (queueAt_of_modify hq q).trans (queueAt_setQueue_self h.lt)⟩

end Change

end Words

/-! ### Scalar FP32 words (R94, R246) -/

/-- Flags put into register `i` of a list (R94). -/
def putFlags (rs : List (Nat × FpReg)) (i : Nat) (f : FpFlags) (job : Nat) : List (Nat × FpReg) :=
  if f = 0 then rs else insertKey rs i ((lookupD rs i {}).setFlags f job)

/-- Flags put into the registers of every group of a gang (R246). -/
def gangFlags (rs : List (Nat × FpReg)) (Q : Queue) (f : FpFlags) : List (Nat × FpReg) :=
  (gangGroups Q).foldl (fun rs g => putFlags rs (128 * Q.die + g) f Q.job) rs

/-- The state with other FPFLAGS registers of the chain groups. -/
def withVec (s : State) (rs : List (Nat × FpReg)) : State := { s with comp := { s.comp with fpVec := rs } }

theorem flagVec_eq (s : State) (die g : Nat) (f : FpFlags) (job : Nat) :
    flagVec s die g f job = withVec s (putFlags s.comp.fpVec (128 * die + g) f job) := by
  unfold flagVec putFlags
  dsimp only
  split <;> rfl

theorem flagGang_eq (s : State) (Q : Queue) (f : FpFlags) :
    flagGang s Q f = withVec s (gangFlags s.comp.fpVec Q f) := by
  unfold flagGang gangFlags
  generalize gangGroups Q = gs
  induction gs generalizing s with
  | nil => rfl
  | cons g gs ih => rw [List.foldl_cons, List.foldl_cons, ih, flagVec_eq]; rfl

theorem lookupD_putFlags (rs : List (Nat × FpReg)) (i j : Nat) (f : FpFlags) (job : Nat) :
    lookupD (putFlags rs i f job) j {} = if j = i then (lookupD rs j {}).setFlags f job else lookupD rs j {} := by
  unfold putFlags
  split
  next hf => simp [FpReg.setFlags, hf]
  next =>
    rw [lookupD_insertKey]
    by_cases hj : j = i
    · simp [hj]
    · simp [hj, Ne.symm hj]

theorem FpReg.setFlags_setFlags (r : FpReg) (f : FpFlags) (job : Nat) : (r.setFlags f job).setFlags f job = r.setFlags f job := by
  unfold FpReg.setFlags
  split
  · rfl
  · simp [BitVec.or_assoc]

theorem lookupD_gangFlags (rs : List (Nat × FpReg)) (Q : Queue) (f : FpFlags) (i : Nat) :
    lookupD (gangFlags rs Q f) i {} =
      if i ∈ (gangGroups Q).map (128 * Q.die + ·) then (lookupD rs i {}).setFlags f Q.job else lookupD rs i {} := by
  unfold gangFlags
  generalize gangGroups Q = gs
  induction gs generalizing rs with
  | nil => simp
  | cons g gs ih =>
    rw [List.foldl_cons, ih, lookupD_putFlags, List.map_cons]
    by_cases hg : i = 128 * Q.die + g
    · simp [hg, FpReg.setFlags_setFlags]
    · simp [hg]

theorem exec_fpOf {c : Instr} {q op : Nat} {f : Nat → Nat → Nat × FpFlags} (h : fpOf c = some (q, op, f)) (s : State) :
    exec c s = .next (traced s (scalarFp op f q s)) := by
  unfold fpOf at h
  split at h <;> cases h <;> rfl

/-- What SFADD to SFSQRT with an operation `f` write into their queue (R246). -/
def fpWrite (f : Nat → Nat → Nat × FpFlags) (w : Word) (Q Q' : Queue) : Queue :=
  writeS Q' (wR3 w) (BitVec.ofNat 32 (f (sreg Q (wR2 w)).toNat (operand2 Q w).toNat).1)

/-- A scalar FP32 word as a change of its queue and of the flags of its gang (R246). -/
theorem scalarFp_word {s : State} {q op : Nat} {w : Word} (f : Nat → Nat → Nat × FpFlags) (h : Issues s q op w) :
    EngineWord s (traced s (scalarFp op f q s)) q (fpWrite f w (queueAt s q)) { s.comp with
      queues := s.comp.queues.modify q (fpWrite f w (queueAt s q))
      fpVec := gangFlags s.comp.fpVec (queueAt s q) (f (sreg (queueAt s q) (wR2 w)).toNat (operand2 (queueAt s q) w).toNat).2 } :=
  engine_command _ h (congrArg Issue.done (flagGang_eq _ (queueAt s q) _))
    (by rw [← bumpQue_comp (s := s) (q := q) (k := 0)]; rfl) rfl
    (bumpQue_outside.trans ⟨rfl, rfl, rfl, rfl, rfl, rfl, rfl, rfl⟩) (by constructor <;> simp [fpWrite, writeS])

/-- Settles O8: the word writes s[SD] in its queue, and flags in the registers of its gang. -/
theorem scalarFpWordsWriteSdAndFlags : Obligations.ScalarFpWordsWriteSdAndFlags := by
  intro c q op f s w hc hw
  have hword := scalarFp_word f hw
  refine ⟨_, exec_fpOf hc s, ⟨hword.regs.trans driveComparators_regs, fun i => ?_⟩, hword.moved, hword.others, hword.outside,
    hword.mem, hword.jobFlags, hword.fpMtx, hword.fpRde⟩
  rw [← lookupD_gangFlags, hword.fpVec]

/-! ### Words that do not execute (R239 to R242) -/

section Refusals

variable {s u t : State} {c : Instr} {q op : Nat} {w : Word} {r : Res} {eff : Word → Queue → State → Issue}
  {skip : Word → State → Issue}

theorem canIssue_run (h : canIssue s q op = some w) :
    (queueAt s q).bound = true ∧ (queueAt s q).st = .run ∧ (queueAt s q).work = none := by
  unfold canIssue at h
  dsimp only at h
  split at h
  next hc => exact ⟨hc.1, hc.2.1, hc.2.2.1⟩
  next => cases h

/-- The end of a refused word: its queue is HALTED at it with the cause, and nothing else has changed. -/
structure HaltedAt (s t : State) (q : Nat) (r : Res) : Prop where
  st : (queueAt t q).st = .halted
  cause : (queueAt t q).cause = some r
  stands : Stands s t q
  regs : regsOf t q = regsOf s q
  frame : ScalarFrame s t q

/-- Halting a queue that issues: `u` is the state with the word counted. -/
theorem haltQueue_haltedAt {d : Nat} (hc : canIssue s q op = some w) (hq : queueAt u q = queueAt s q)
    (hv : coreView u = coreView s) (hp : posView u = posView s) :
    HaltedAt s (traced s (haltQueue u q r d)) q r := by
  obtain ⟨hb, hrun, -⟩ := canIssue_run hc
  have hlt : q < u.comp.queues.length := bound_lt (by rw [hq]; exact hb)
  obtain ⟨hst, hcause⟩ := haltQueue_run (d := d) (c := r) hlt (by rw [hq]; exact hrun)
  have hview : coreView (traced s (haltQueue u q r d)) = coreView s := by rw [coreView_traced, coreView_haltQueue, hv]
  exact ⟨hst, hcause, Stands.of_posView (by rw [posView_traced, posView_haltQueue, hp]), regsOf_of_coreView hview q,
    ScalarFrame.of_coreView hview⟩

theorem issueWith_checked (hc : canIssue s q op = some w) (hr : wordCheck s (queueAt s q) w = some r) :
    issueWith op skip q s eff = haltQueue (bumpQue s q 1) q r 0 := by
  unfold issueWith
  simp only [hc, hr]

theorem issueWith_off (hc : canIssue s q op = some w) (hw : wordCheck s (queueAt s q) w = none)
    (hg : guardOff (queueAt s q) w = true) :
    issueWith op skip q s eff = settle (bumpQue s q 0) q (skip w (bumpQue s q 0)) := by
  unfold issueWith
  simp only [hc, hw, hg, if_true]

/-- A word that its own checks refuse. -/
theorem issueWith_checked_halts (hc : canIssue s q op = some w) (hr : wordCheck s (queueAt s q) w = some r) :
    HaltedAt s (traced s (issueWith op skip q s eff)) q r := by
  rw [issueWith_checked hc hr]
  exact haltQueue_haltedAt hc bumpQue_queueAt coreView_bumpQue posView_bumpQue

/-- A word that its effect refuses. -/
theorem issue_refuse_halts (h : Issues s q op w) (he : eff w (queueAt s q) (bumpQue s q 0) = .refuse r) :
    HaltedAt s (traced s (issue op q s eff)) q r := by
  rw [issue_refuse h he]
  exact haltQueue_haltedAt h.stands (bumpQue_queueAt.trans bumpQue_queueAt) (by simp) (by simp)

/-- The words but CHAIN and CRUN are issues with the guard's plain no-operation. -/
theorem exec_wordOf (h : wordOf c = some (q, op)) (h70 : op ≠ 0x70) (h72 : op ≠ 0x72) :
    ∃ eff, exec c s = .next (traced s (issue op q s eff)) := by
  unfold wordOf at h
  split at h <;> cases h
  case h_61 => exact absurd rfl h70
  case h_62 => exact absurd rfl h72
  all_goals exact ⟨_, rfl⟩

theorem exec_wordOf_chain (h : wordOf c = some (q, 0x70)) : c = .chain q := by
  unfold wordOf at h
  split at h <;> cases h
  rfl

theorem exec_wordOf_crun (h : wordOf c = some (q, 0x72)) : c = .crun q := by
  unfold wordOf at h
  split at h <;> cases h
  rfl

/-- The vector words VCOPY to VDOT. -/
theorem exec_wordOf_vector (h : wordOf c = some (q, op)) (hlow : 0x40 ≤ op) (hhigh : op ≤ 0x58) :
    exec c s = .next (traced s (vecIssue op q s)) := by
  unfold wordOf at h
  split at h <;> cases h <;> first | rfl | omega

/-- The matrix words MMUL, MMAC and TLOAD. -/
theorem exec_wordOf_matrix (h : wordOf c = some (q, op)) (hlow : 0x60 ≤ op) (hhigh : op ≤ 0x62) :
    exec c s = .next (traced s (matrixIssue op q s)) := by
  unfold wordOf at h
  split at h <;> cases h <;> first | rfl | omega

theorem doCrun_checked_halts (hc : canIssue s q 0x72 = some w) (hr : wordCheck s (queueAt s q) w = some r) :
    HaltedAt s (traced s (doCrun q s)) q r := by
  unfold doCrun
  simp only [hc, hr]
  exact haltQueue_haltedAt hc rfl rfl rfl

theorem vecIssue_refused (h : Issues s q op w) (hr : vecSetup s (queueAt s q) w = .error r) :
    HaltedAt s (traced s (vecIssue op q s)) q r :=
  issue_refuse_halts h (by simp only [vecSetup_bumpQue, hr])

theorem matrixIssue_refused (h : Issues s q op w) (hr : matrixSetup s q (queueAt s q) w = .error r) :
    HaltedAt s (traced s (matrixIssue op q s)) q r :=
  issue_refuse_halts h (by simp only [matrixSetup_bumpQue, hr])

theorem doDmaCopy_refused (h : Issues s q 0xC0 w) (hr : dmaTensors s (queueAt s q) w = .error r) :
    HaltedAt s (traced s (doDmaCopy q s)) q r :=
  issue_refuse_halts h (by simp only [dmaTensors_bumpQue, hr])

theorem issueWith_runs (h : Issues s q op w) :
    issueWith op skip q s eff = settle (bumpQue s q 0) q (eff w (queueAt s q) (bumpQue s q 0)) := by
  unfold issueWith
  simp only [h.stands, h.passes, h.guarded, Bool.false_eq_true, if_false]

theorem doChain_refused {body : List Word} {i : Nat} {ch : Chain} (h : Issues s q 0x70 w)
    (hb : chainBody (segWords s (queueAt s q).job (queueAt s q).seg) (queueAt s q).pc = some (body, i))
    (hd : decodeChain false w body = some ch) (hr : chainStreams s (queueAt s q) ch = .error r) :
    HaltedAt s (traced s (doChain q s)) q r := by
  unfold doChain
  rw [issueWith_runs h]
  simp only [segWords_bumpQue, hb, hd, chainStreams_bumpQue, hr]
  exact haltQueue_haltedAt h.stands (bumpQue_queueAt.trans bumpQue_queueAt) (by simp) (by simp)

end Refusals

/-- Settles O15: a check of the word, or one of its operands, halts the queue where it stands. -/
theorem refusedWordsHaltTheQueue : Obligations.RefusedWordsHaltTheQueue := by
  have key {s t : State} {q : Nat} {r : Res} {x : Host.Outcome State Fault Refusal} (hx : x = .next t)
      (h : HaltedAt s t q r) : ∃ t, x = .next t ∧ (queueAt t q).st = .halted ∧ (queueAt t q).cause = some r ∧ Stands s t q ∧
        regsOf t q = regsOf s q ∧ ScalarFrame s t q := ⟨t, hx, h.st, h.cause, h.stands, h.regs, h.frame⟩
  refine ⟨fun c q op s w r hc hi hr => ?word, fun c q op s w r hc hl hh hw hr => ?vector,
    fun c q op s w r hc hl hh hw hr => ?matrix, fun q s w r hw hr => ?copy, fun q s w body i ch r hw hb hd hr => ?chain⟩
  case word =>
    by_cases h70 : op = 0x70
    · subst h70
      cases exec_wordOf_chain hc
      exact key rfl (issueWith_checked_halts hi hr)
    by_cases h72 : op = 0x72
    · subst h72
      cases exec_wordOf_crun hc
      exact key rfl (doCrun_checked_halts hi hr)
    obtain ⟨eff, he⟩ := exec_wordOf (s := s) hc h70 h72
    exact key he (issueWith_checked_halts hi hr)
  case vector => exact key (exec_wordOf_vector hc hl hh) (vecIssue_refused hw hr)
  case matrix => exact key (exec_wordOf_matrix hc hl hh) (matrixIssue_refused hw hr)
  case copy => exact key rfl (doDmaCopy_refused hw hr)
  case chain => exact key rfl (doChain_refused hw hb hd hr)

/-- A guarded CHAIN goes to the word after its CRUN (R239). -/
theorem doChain_off {s : State} {q i : Nat} {w : Word} {body : List Word} (hc : canIssue s q 0x70 = some w)
    (hw : wordCheck s (queueAt s q) w = none) (hg : guardOff (queueAt s q) w = true)
    (hb : chainBody (segWords s (queueAt s q).job (queueAt s q).seg) (queueAt s q).pc = some (body, i)) :
    doChain q s = setQueue (bumpQue s q 0) q (fun Q => { Q with pc := i + 1 }) := by
  unfold doChain
  rw [issueWith_off hc hw hg]
  simp only [segWords_bumpQue, bumpQue_queueAt, hb]
  rfl

/-- Settles O14: the guard's no-operation is a plain move past the word. -/
theorem guardedOffWordsDoNothing : Obligations.GuardedOffWordsDoNothing := by
  refine ⟨fun c q op s w hc h70 h72 hi hw hg => ?word, fun q s w body i hi hw hg hb => ⟨_, rfl, ?chain⟩⟩
  case word =>
    obtain ⟨eff, he⟩ := exec_wordOf (s := s) hc h70 h72
    have hlt : q < (bumpQue s q 0).comp.queues.length := by rw [bumpQue_comp]; exact bound_lt (canIssue_run hi).1
    have hview : coreView (traced s (advance (bumpQue s q 0) q)) = coreView s := by simp
    have hoff : issue op q s eff = advance (bumpQue s q 0) q := issueWith_off hi hw hg
    refine ⟨_, he, ?_⟩
    rw [hoff]
    exact ⟨regsOf_of_coreView hview q, Moved.of_posView (advance_moved hlt) posView_bumpQue.symm posView_traced,
      ScalarFrame.of_coreView hview⟩
  case chain =>
    have hlt : q < (bumpQue s q 0).comp.queues.length := by rw [bumpQue_comp]; exact bound_lt (canIssue_run hi).1
    have hview : coreView (traced s (doChain q s)) = coreView s := by
      rw [coreView_traced, doChain_off hi hw hg hb, coreView_setQueue, coreView_bumpQue]
      exact fun _ => ⟨rfl, rfl, rfl, rfl, rfl, rfl⟩
    have hat : queueAt (traced s (doChain q s)) q = { queueAt s q with pc := i + 1 } := by
      rw [traced_queueAt, doChain_off hi hw hg hb, queueAt_setQueue_self hlt, bumpQue_queueAt]
    exact ⟨regsOf_of_coreView hview q, (congrArg Queue.pc hat :), (congrArg Queue.inSeg hat :), ScalarFrame.of_coreView hview⟩

/-! ### Vector words and chains begin (R236, R237, R254, R258) -/

/-- A queue's gang takes a work on. -/
def withWork (wk : VecWork) (Q : Queue) : Queue := { Q with work := some wk, chain := none }

theorem startWork_eq (s : State) (q : Nat) (wk : VecWork) : ∃ n, startWork s q wk = { setQueue s q (withWork wk) with freeCtr := n } := by
  unfold startWork
  dsimp only
  split
  · exact ⟨_, rfl⟩
  · exact ⟨s.freeCtr, rfl⟩

section Begins

variable {s u : State} {q : Nat} {w : Word} {wk : VecWork}

theorem vecSetup_batch {Q : Queue} (h : vecSetup s Q w = .ok wk) : wk.batch = 0 := by
  unfold vecSetup at h
  repeat' split at h
  all_goals cases h
  all_goals rfl

theorem crunSetup_isChain {Q : Queue} (h : crunSetup s Q w = .ok wk) : wk.isChain = true := by
  unfold crunSetup at h
  repeat' split at h
  all_goals cases h
  rfl

/-- A work put on the gang of queue `q`; `u` is the state with the word counted. -/
theorem startWork_begins (hq : q < u.comp.queues.length) (hat : queueAt u q = queueAt s q) (hv : coreView u = coreView s)
    (hp : posView u = posView s) :
    let t := traced s (startWork u q wk)
    queueAt t q = withWork wk (queueAt s q) ∧ Stands s t q ∧ regsOf t q = regsOf s q ∧ ScalarFrame s t q := by
  obtain ⟨n, hn⟩ := startWork_eq u q wk
  have hview : coreView (setQueue u q (withWork wk)) = coreView s := (coreView_setQueue (f := withWork wk) (fun _ => ⟨rfl, rfl, rfl, rfl, rfl, rfl⟩)).trans hv
  have hpos : posView (setQueue u q (withWork wk)) = posView s := (posView_setQueue (f := withWork wk) (fun _ => ⟨rfl, rfl, rfl, rfl, rfl⟩)).trans hp
  dsimp only
  rw [hn]
  exact ⟨(queueAt_setQueue_self hq).trans (congrArg _ hat), Stands.of_posView hpos, regsOf_of_coreView hview q,
    ScalarFrame.of_coreView hview⟩

theorem vecIssue_begins {op : Nat} (h : Issues s q op w) (hk : vecSetup s (queueAt s q) w = .ok wk) :
    let t := traced s (vecIssue op q s)
    queueAt t q = withWork wk (queueAt s q) ∧ Stands s t q ∧ regsOf t q = regsOf s q ∧ ScalarFrame s t q := by
  have hi : vecIssue op q s = startWork (bumpQue s q 0) q wk :=
    issue_stay h (by simp only [vecSetup_bumpQue, hk])
  dsimp only
  rw [hi]
  exact startWork_begins h.lt_bumpQue bumpQue_queueAt coreView_bumpQue posView_bumpQue

theorem doCrun_begins (hc : canIssue s q 0x72 = some w) (hw : wordCheck s (queueAt s q) w = none)
    (hk : crunSetup s (queueAt s q) w = .ok wk) :
    let t := traced s (doCrun q s)
    queueAt t q = withWork wk (queueAt s q) ∧ Stands s t q ∧ regsOf t q = regsOf s q ∧ ScalarFrame s t q := by
  have hi : doCrun q s = startWork s q wk := by
    unfold doCrun
    simp only [hc, hw, hk]
  dsimp only
  rw [hi]
  exact startWork_begins (bound_lt (canIssue_run hc).1) rfl rfl rfl

/-- CHAIN stands ready, and its queue goes on at the CRUN (R258). -/
theorem doChain_ready {body : List Word} {i : Nat} {ch : Chain} {x : List Tensor × List Tensor} (h : Issues s q 0x70 w)
    (hb : chainBody (segWords s (queueAt s q).job (queueAt s q).seg) (queueAt s q).pc = some (body, i))
    (hd : decodeChain false w body = some ch) (hx : chainStreams s (queueAt s q) ch = .ok x) :
    doChain q s = setQueue (bumpQue s q 0) q (fun Q => { Q with chain := some ch, pc := i }) := by
  unfold doChain
  rw [issueWith_runs h]
  simp only [segWords_bumpQue, hb, hd, chainStreams_bumpQue, hx]
  rfl

end Begins

/-- Settles O16: the work is put on its gang and the queue stands, or the chain is kept and the queue goes to its CRUN. -/
theorem vectorWordsBegin : Obligations.VectorWordsBegin := by
  refine ⟨fun c q op s w wk hc hl hh hw hk => ⟨_, exec_wordOf_vector hc hl hh, ?vector⟩,
    fun q s w body i ch hw hb hd hx => ⟨_, rfl, ?chain⟩, fun q s w wk hc hw hk => ⟨_, rfl, ?crun⟩⟩
  case vector =>
    obtain ⟨hat, hst, hr, hf⟩ := vecIssue_begins hw hk
    have hrun : (queueAt s q).st = .run := (canIssue_run hw.stands).2.1
    exact ⟨(congrArg Queue.work hat :), vecSetup_batch hk, (congrArg Queue.st hat :).trans hrun, hst, hr, hf⟩
  case chain =>
    cases hs : chainStreams s (queueAt s q) ch with
    | error r => rw [hs] at hx; cases hx
    | ok x =>
      have hat : queueAt (traced s (doChain q s)) q = { queueAt s q with chain := some ch, pc := i } := by
        rw [traced_queueAt, doChain_ready hw hb hd hs, queueAt_setQueue_self hw.lt_bumpQue, bumpQue_queueAt]
      have hview : coreView (traced s (doChain q s)) = coreView s := by
        rw [coreView_traced, doChain_ready hw hb hd hs, coreView_setQueue, coreView_bumpQue]
        exact fun _ => ⟨rfl, rfl, rfl, rfl, rfl, rfl⟩
      exact ⟨(congrArg Queue.chain hat :), (congrArg Queue.pc hat :), regsOf_of_coreView hview q, ScalarFrame.of_coreView hview⟩
  case crun =>
    obtain ⟨hat, hst, hr, hf⟩ := doCrun_begins hc hw hk
    exact ⟨(congrArg Queue.work hat :), crunSetup_isChain hk, hst, hr, hf⟩

/-! ### Matrix words and copies are dispatched (R237, R265, R266) -/

/-- The place of a dispatched instruction in its queue's digest feeds (R273). -/
def holdSlot (id : Option Nat) (Q : Queue) : Queue :=
  match id with
  | some k => { Q with feeds := Q.feeds ++ [(k, none)], feedNext := k + 1 }
  | none => Q

theorem setQueue_none {s : State} {q : Nat} : setQueue s q (holdSlot none) = s := by
  unfold setQueue
  rw [show holdSlot none = id from rfl, List.modify_id]

theorem holdFeed_eq (s : State) (q : Nat) (id : Option Nat) : holdFeed s q id = setQueue s q (holdSlot id) := by
  cases id with
  | none => exact setQueue_none.symm
  | some k => rfl

/-- A queue whose matrix instruction is on the list. -/
def withMtxBusy (Q : Queue) : Queue := { Q with mtxBusy := true }

theorem holdSlot_regs (id : Option Nat) (Q : Queue) : (holdSlot id Q).regs = Q.regs := by cases id <;> rfl

section Dispatch

variable {s : State} {q : Nat} {w : Word}

theorem matrixSetup_pass {Q : Queue} {wk : LaurelWork} (h : matrixSetup s q Q w = .ok wk) : wk.pass = 0 := by
  unfold matrixSetup at h
  dsimp only at h
  repeat' split at h
  all_goals cases h
  all_goals rfl

/-- A matrix word of a VEC queue is put on the list, and its queue goes on (R237, R265). -/
theorem matrixIssue_dispatched {op : Nat} {wk : LaurelWork} (h : Issues s q op w)
    (hk : matrixSetup s q (queueAt s q) w = .ok wk) (hm : wk.fromMtx = false) :
    EngineWord s (traced s (matrixIssue op q s)) q (holdSlot wk.feedId) { s.comp with
      queues := s.comp.queues.modify q (holdSlot wk.feedId)
      laurel := s.comp.laurel.modify (queueAt s q).die (· ++ [wk]) } := by
  refine engine_command (u := holdFeed (pushLaurel (bumpQue s q 0) (queueAt s q).die wk) q wk.feedId) _ h ?_ ?_ rfl ?_ ?_
  · simp only [matrixSetup_bumpQue, hk, hm, Bool.false_eq_true, if_false]
  · rw [holdFeed_eq, ← bumpQue_comp (s := s) (q := q) (k := 0)]
    rfl
  · rw [holdFeed_eq]
    exact bumpQue_outside.trans ⟨rfl, rfl, rfl, rfl, rfl, rfl, rfl, rfl⟩
  · cases wk.feedId <;> exact ⟨rfl, rfl, rfl, rfl, rfl⟩

/-- A matrix word of an MTX queue is put on the list, and its queue stays at it (R265). -/
theorem matrixIssue_kept {op : Nat} {wk : LaurelWork} (h : Issues s q op w)
    (hk : matrixSetup s q (queueAt s q) w = .ok wk) (hm : wk.fromMtx = true) :
    let t := traced s (matrixIssue op q s)
    EngineChange s t q withMtxBusy { s.comp with
      queues := s.comp.queues.modify q withMtxBusy, laurel := s.comp.laurel.modify (queueAt s q).die (· ++ [wk]) } ∧
      Stands s t q ∧ queueAt t q = withMtxBusy (queueAt s q) := by
  refine engine_stay (u := setQueue (pushLaurel (bumpQue s q 0) (queueAt s q).die wk) q withMtxBusy) _ h ?_ ?_ rfl
    (bumpQue_outside.trans ⟨rfl, rfl, rfl, rfl, rfl, rfl, rfl, rfl⟩) ⟨rfl, rfl, rfl, rfl, rfl⟩
  · simp only [matrixSetup_bumpQue, hk, hm, if_true]
    rfl
  · rw [← bumpQue_comp (s := s) (q := q) (k := 0)]
    rfl

/-- The copy that a DMA_COPY word names (R266). -/
def copyOf (q : Nat) (Q : Queue) (w : Word) (d x : Tensor) : Copy :=
  { queue := q, job := Q.job, word := w, inSeg := Q.inSeg, seg := Q.seg, pc := queuePc Q, src := x, dst := d, block := 0
    flag := if field w 42 42 = 1 then some (field w 41 34) else none
    feedId := if d.digest.isNone then none else some Q.feedNext, fed := [] }

/-- DMA_COPY joins its channel and its queue goes on (R237, R266). -/
theorem doDmaCopy_dispatched {d x : Tensor} (h : Issues s q 0xC0 w) (hd : dmaTensors s (queueAt s q) w = .ok (d, x))
    (hroom : ((chanAt s (chanOf (queueAt s q) q)).copies.filter (fun k => k.job == (queueAt s q).job)).length < 64) :
    let c := chanAt s (chanOf (queueAt s q) q)
    let k := copyOf q (queueAt s q) w d x
    EngineWord s (traced s (doDmaCopy q s)) q (holdSlot k.feedId) { s.comp with
      queues := s.comp.queues.modify q (holdSlot k.feedId)
      chans := insertKey s.comp.chans (chanOf (queueAt s q) q) { c with copies := c.copies ++ [k] } } := by
  dsimp only
  generalize hc : chanAt s (chanOf (queueAt s q) q) = c at hroom ⊢
  generalize hk : copyOf q (queueAt s q) w d x = k
  refine engine_command
    (u := holdFeed (setChan (bumpQue s q 0) (chanOf (queueAt s q) q) { c with copies := c.copies ++ [k] }) q k.feedId)
    _ h ?_ ?_ rfl ?_ ?_
  · simp only [dmaTensors_bumpQue, hd, chanAt_bumpQue, hc, ← hk]
    exact if_neg (by omega)
  · rw [holdFeed_eq, ← bumpQue_comp (s := s) (q := q) (k := 0)]
    rfl
  · rw [holdFeed_eq]
    exact bumpQue_outside.trans ⟨rfl, rfl, rfl, rfl, rfl, rfl, rfl, rfl⟩
  · cases k.feedId <;> exact ⟨rfl, rfl, rfl, rfl, rfl⟩

end Dispatch

/-- Settles O17: work joins the list of its die or its channel, and only an MTX queue stays at its word. -/
theorem matrixAndCopyWordsDispatch : Obligations.MatrixAndCopyWordsDispatch := by
  refine ⟨fun c q op s w wk hc hl hh hw hk => ⟨_, exec_wordOf_matrix hc hl hh, ?matrix⟩,
    fun q s w d x hw hd hroom => ⟨_, copyOf q (queueAt s q) w d x, rfl, ?copy⟩⟩
  case matrix =>
    by_cases hm : wk.fromMtx = true
    · obtain ⟨hword, hst, hat⟩ := matrixIssue_kept hw hk hm
      rw [if_pos hm]
      exact ⟨hword.laurel, matrixSetup_pass hk, ⟨hst, (congrArg Queue.mtxBusy hat :)⟩, hword.regs, hword.others,
        hword.outside, hword.mem, hword.chans, hword.jobFlags⟩
    · have hword := matrixIssue_dispatched hw hk (by simpa using hm)
      rw [if_neg hm]
      exact ⟨hword.laurel, matrixSetup_pass hk, hword.moved, hword.regs.trans (holdSlot_regs _ _), hword.others,
        hword.outside, hword.mem, hword.chans, hword.jobFlags⟩
  case copy =>
    have hword := doDmaCopy_dispatched hw hd hroom
    have hchan (i : Nat) : chanAt (traced s (doDmaCopy q s)) i = if chanOf (queueAt s q) q = i then
        { chanAt s (chanOf (queueAt s q) q) with
          copies := (chanAt s (chanOf (queueAt s q) q)).copies ++ [copyOf q (queueAt s q) w d x] }
        else chanAt s i := by
      unfold chanAt
      rw [hword.chans, lookupD_insertKey]
      rfl
    refine ⟨?_, rfl, rfl, rfl, rfl, rfl, rfl, fun i hi => ?_, hword.moved, hword.regs.trans (holdSlot_regs _ _), hword.others,
      hword.outside, hword.mem, hword.laurel, hword.jobFlags⟩
    · rw [hchan, if_pos rfl]
    · rw [hchan, if_neg (Ne.symm hi)]

end Sys2Proof.Machine
end

section
/-! Writes by virtual address (R407, R413, R418), scalar loads and stores (R246), and the obligation O13. -/

namespace Sys2Proof.Machine

/-! ### Operations that read Topiaries and change memory and frames alone -/

/-- `t` with the memory and the tier-cache frames of `s`. -/
def withMem (t s : State) : State := { t with comp := { t.comp with mem := s.comp.mem, frames := s.comp.frames } }

/-- An operation that reads memory, frames and the Topiaries, and changes memory and frames alone. -/
def MemOnly (F : State → State) : Prop := ∀ s t, t.tops = s.tops → F (withMem t s) = withMem t (F s) ∧ (F s).tops = s.tops

namespace MemOnly

variable {F G : State → State} {s t : State}

theorem comp (hF : MemOnly F) (hG : MemOnly G) : MemOnly (fun s => G (F s)) := by
  intro s t h
  obtain ⟨hf, htops⟩ := hF s t h
  obtain ⟨hg, htops'⟩ := hG (F s) t (h.trans htops.symm)
  exact ⟨(congrArg G hf).trans hg, htops'.trans htops⟩

theorem foldl {α : Type} {f : State → α → State} (hf : ∀ x, MemOnly (fun s => f s x)) :
    ∀ l : List α, MemOnly (fun s => l.foldl f s)
  | [] => fun _ _ _ => ⟨rfl, rfl⟩
  | x :: l => (hf x).comp (foldl hf l)

/-- The operation changes memory and frames alone. -/
theorem eq (hF : MemOnly F) (s : State) : F s = withMem s (F s) := (hF s s rfl).1

/-- It changes them alike in states that agree on them and on the Topiaries. -/
theorem congr (hF : MemOnly F) (htops : t.tops = s.tops) (hmem : t.comp.mem = s.comp.mem)
    (hframes : t.comp.frames = s.comp.frames) : F t = withMem t (F s) := by
  have ht : t = withMem t s := by
    unfold withMem
    rw [← hmem, ← hframes]
  exact (congrArg F ht).trans (hF s t htops).1

end MemOnly

theorem writeVA_memOnly (job : Nat) (va : Int) (b : Byte) : MemOnly (fun s => writeVA s job va b) := by
  intro s t h
  have hx : xlate (withMem t s) job va = xlate s job va := by unfold xlate topOf; rw [← h]; rfl
  unfold writeVA
  dsimp only
  rw [hx]
  split <;> exact ⟨rfl, rfl⟩

/-- The end of a write: a word that the write covers is no longer poisoned. -/
def cleanVA (job : Nat) (va : Int) (n : Nat) (s : State) (i : Nat) : State :=
  let w := ((va + 63) / 64 + i) * 64
  if w + 64 ≤ va + n then
    match xlate s job w with
    | some k => { s with comp := { s.comp with mem := s.comp.mem.cleanWords k 64 } }
    | none => s
  else s

theorem cleanVA_memOnly (job : Nat) (va : Int) (n i : Nat) : MemOnly (fun s => cleanVA job va n s i) := by
  intro s t h
  have hx (w : Int) : xlate (withMem t s) job w = xlate s job w := by unfold xlate topOf; rw [← h]; rfl
  unfold cleanVA
  dsimp only
  rw [hx]
  split
  · split <;> exact ⟨rfl, rfl⟩
  · exact ⟨rfl, rfl⟩

theorem touchDirty_memOnly (job : Nat) (va : Int) : MemOnly (fun s => touchDirty s job va) := by
  intro s t h
  have hx : topOf (withMem t s) job = topOf s job := by unfold topOf; rw [← h]; rfl
  unfold touchDirty
  dsimp only
  rw [hx]
  split
  · exact ⟨rfl, rfl⟩
  · split
    · split <;> exact ⟨rfl, rfl⟩
    · exact ⟨rfl, rfl⟩

theorem writeVAs_eq (s : State) (job : Nat) (va : Int) (bs : List Byte) :
    writeVAs s job va bs = touchDirty (touchDirty ((List.range (bs.length / 64 + 1)).foldl (cleanVA job va bs.length)
      (bs.zipIdx.foldl (fun s p => writeVA s job (va + p.2) p.1) s)) job va) job (va + bs.length - 1) := rfl

theorem writeVAs_memOnly (job : Nat) (va : Int) (bs : List Byte) : MemOnly (fun s => writeVAs s job va bs) := by
  have hbytes := MemOnly.foldl (fun p : Byte × Nat => writeVA_memOnly job (va + p.2) p.1) bs.zipIdx
  have hclean := MemOnly.foldl (cleanVA_memOnly job va bs.length) (List.range (bs.length / 64 + 1))
  have hall := ((hbytes.comp hclean).comp (touchDirty_memOnly job va)).comp (touchDirty_memOnly job (va + bs.length - 1))
  intro s t h
  simp only [writeVAs_eq]
  exact hall s t h

theorem writeOps_memOnly (job : Nat) (ws : List WriteOp) : MemOnly (fun s => writeOps s job ws) :=
  MemOnly.foldl (f := fun s (w : WriteOp) => writeVAs s job w.va w.bytes) (fun w => writeVAs_memOnly job w.va w.bytes) ws

/-! ### What a write leaves of other bytes -/

section Bytes

variable {s : State} {job key : Nat} {va : Int}

theorem xlate_writeVA {w : Int} {b : Byte} : xlate (writeVA s job va b) job w = xlate s job w := by
  unfold writeVA
  split <;> rfl

theorem writeVA_wf {b : Byte} (h : s.comp.mem.wf = true) : (writeVA s job va b).comp.mem.wf = true := by
  unfold writeVA
  split
  · exact Memory.put_wf h
  · exact h

theorem writeVA_get {b : Byte} (h : s.comp.mem.wf = true) (hk : xlate s job va ≠ some key) :
    (writeVA s job va b).comp.mem.get key = s.comp.mem.get key := by
  unfold writeVA
  split
  next k hx =>
    have hne : key ≠ k := by
      rintro rfl
      exact hk hx
    show (s.comp.mem.put k b).get key = _
    rw [Memory.get_put h, if_neg hne]
  next => rfl

theorem foldl_writeVA_get : ∀ {ps : List (Byte × Nat)} {s : State}, s.comp.mem.wf = true →
    (∀ p, p ∈ ps → xlate s job (va + p.2) ≠ some key) →
    (ps.foldl (fun s p => writeVA s job (va + p.2) p.1) s).comp.mem.get key = s.comp.mem.get key
  | [], _, _, _ => rfl
  | p :: ps, s, h, hk => by
    rw [List.foldl_cons, foldl_writeVA_get (writeVA_wf h) fun x hx => ?_, writeVA_get h (hk p List.mem_cons_self)]
    rw [xlate_writeVA]
    exact hk x (List.mem_cons_of_mem _ hx)

theorem cleanVA_get {n i : Nat} : (cleanVA job va n s i).comp.mem.get key = s.comp.mem.get key := by
  unfold cleanVA
  dsimp only
  split
  · split <;> rfl
  · rfl

theorem touchDirty_mem : (touchDirty s job va).comp.mem = s.comp.mem := by
  unfold touchDirty
  split
  · rfl
  · split
    · split <;> rfl
    · rfl

/-- A write leaves every byte at which none of its addresses lies. -/
theorem writeVAs_get {bs : List Byte} (h : s.comp.mem.wf = true)
    (hk : ∀ j : Nat, j < bs.length → xlate s job (va + j) ≠ some key) :
    (writeVAs s job va bs).comp.mem.get key = s.comp.mem.get key := by
  rw [writeVAs_eq, touchDirty_mem, touchDirty_mem,
    foldl_keeps (v := fun s => s.comp.mem.get key) (fun _ _ => cleanVA_get),
    foldl_writeVA_get h fun p hp => hk _ (List.snd_lt_of_mem_zipIdx hp)]

end Bytes

/-! ### Scalar loads and stores (R246) -/

/-- The state with other contents of the TLBs and of their counters. -/
def withMmu (s : State) (n : Nat) (tlb : List (Nat × List (Nat × Nat))) (cnt : List (Nat × Nat)) : State :=
  { s with freeCtr := n, comp := { s.comp with tlb := tlb, mmuCnt := cnt } }

theorem tlbTouch_eq (die unit cap job : Nat) : ∀ (pages : List Nat) (s : State),
    ∃ n tlb cnt, tlbTouch s die unit cap job pages = withMmu s n tlb cnt
  | [], s => ⟨s.freeCtr, s.comp.tlb, s.comp.mmuCnt, rfl⟩
  | p :: ps, s => by
    unfold tlbTouch
    rw [List.foldl_cons]
    dsimp only
    split
    · exact tlbTouch_eq die unit cap job ps s
    · obtain ⟨n, tlb, cnt, h⟩ := tlbTouch_eq die unit cap job ps _
      exact ⟨n, tlb, cnt, h⟩

theorem foldl_tlbTouch_eq {die cap job : Nat} {pages : State → List Nat} : ∀ (gs : List Nat) (s : State),
    ∃ n tlb cnt, gs.foldl (fun s g => tlbTouch s die g cap job (pages s)) s = withMmu s n tlb cnt
  | [], s => ⟨s.freeCtr, s.comp.tlb, s.comp.mmuCnt, rfl⟩
  | g :: gs, s => by
    obtain ⟨n, tlb, cnt, h⟩ := tlbTouch_eq die g cap job (pages s) s
    obtain ⟨n', tlb', cnt', h'⟩ := foldl_tlbTouch_eq (die := die) (cap := cap) (job := job) (pages := pages) gs
      (withMmu s n tlb cnt)
    exact ⟨n', tlb', cnt', by rw [List.foldl_cons, h, h']; rfl⟩

theorem drainFeeds_eq : ∀ (n : Nat) (Q : Queue), ∃ ds fs, drainFeeds n Q = { Q with digests := ds, feeds := fs }
  | 0, Q => ⟨Q.digests, Q.feeds, rfl⟩
  | n + 1, Q => by
    unfold drainFeeds
    split
    next xs rest _ =>
      have hfeed (xs : List (Nat × List Byte)) (Q : Queue) :
          ∃ ds, xs.foldl (fun Q x => feedDigest Q x.1 x.2) Q = { Q with digests := ds } := by
        induction xs generalizing Q with
        | nil => exact ⟨Q.digests, rfl⟩
        | cons x xs ih =>
          obtain ⟨ds, h⟩ := ih (feedDigest Q x.1 x.2)
          exact ⟨ds, h⟩
      obtain ⟨ds, h⟩ := hfeed xs { Q with feeds := rest }
      obtain ⟨ds', fs', h'⟩ := drainFeeds_eq n { Q with digests := ds, feeds := rest }
      exact ⟨ds', fs', by rw [h]; exact h'⟩
    · exact ⟨Q.digests, Q.feeds, rfl⟩

/-- Feeding digests changes the digests and what waits to be fed. -/
theorem feedAll_eq (Q : Queue) (id : Option Nat) (xs : List (Nat × List Byte)) :
    ∃ ds fs n, feedAll Q id xs = { Q with digests := ds, feeds := fs, feedNext := n } := by
  unfold feedAll
  dsimp only
  obtain ⟨ds, fs, h⟩ := drainFeeds_eq _ _
  exact ⟨ds, fs, _, h⟩

/-- What the writes of an instruction do to its queue: they feed its digests (R273). -/
def feedWrites (ws : List WriteOp) (Q : Queue) : Queue :=
  if (feedsOf ws).isEmpty then Q else feedAll Q none (feedsOf ws)

theorem feedWrites_eq (ws : List WriteOp) (Q : Queue) :
    ∃ ds fs n, feedWrites ws Q = { Q with digests := ds, feeds := fs, feedNext := n } := by
  unfold feedWrites
  split
  · exact ⟨Q.digests, Q.feeds, Q.feedNext, rfl⟩
  · exact feedAll_eq Q none _

theorem setQueue_id {s : State} {q : Nat} : setQueue s q (fun Q => Q) = s := by
  unfold setQueue
  rw [show (fun Q : Queue => Q) = id from rfl, List.modify_id]

theorem commitWrites_eq (s : State) (q job : Nat) (ws : List WriteOp) :
    commitWrites s q job ws = setQueue (writeOps s job ws) q (feedWrites ws) := by
  unfold commitWrites feedWrites
  dsimp only
  split
  · exact setQueue_id.symm
  · rfl

theorem scalarTensor_bits {s : State} {Q : Queue} {r : Nat} {x : Tensor} (h : scalarTensor s Q r = .ok x) : x.fmt.bits = 32 := by
  unfold scalarTensor at h
  repeat' split at h
  all_goals cases h
  next hf =>
    simp only [Bool.and_eq_true, Bool.or_eq_true, beq_iff_eq] at hf
    obtain ⟨-, hf⟩ := hf
    rcases hf with (hf | hf) | hf <;> rw [hf] <;> rfl

section Elements

variable {s : State} {q op : Nat} {w : Word} {x : Tensor} {write : Bool}
  {f : Word → Queue → Tensor → List Nat → State → State}

/-- The effect of a scalar load or store (R246). -/
def scalarEffect (write : Bool) (q : Nat) (f : Word → Queue → Tensor → List Nat → State → State) (w : Word) (Q : Queue)
    (s : State) : Issue :=
  match scalarTensor s Q (wR2 w) with
  | .error r => .refuse r
  | .ok x =>
    let i := (wImm w).toNat
    if !baseAligned x then .refuse (if elemCount x ≤ i then .range else .align)
    else if elemCount x ≤ i then .refuse .range
    else
      let coords := coordsOf x.sizes i
      let accs := [elemAcc x coords write]
      match preCheck s Q.job Q.die .group accs with
      | .fault k va wr => .stay (translationFault s q k .group va wr)
      | .tier ps => .stay (tierFault s q ps)
      | .ok => .done (f w Q x coords
          ((gangGroups Q).foldl (fun s g => tlbTouch s Q.die g 32 Q.job (accPages s Q.job accs)) s))

theorem scalarMem_eq : scalarMem op write q s f = issue op q s (scalarEffect write q f) := rfl

/-- The access of an element that is ready takes place, after which the TLBs hold its pages. -/
theorem scalarEffect_done (h : elementReady s q w write x) : ∃ d n tlb cnt,
    scalarEffect write q f w (queueAt s q) (bumpQue s q 0) =
      .done (f w (queueAt s q) x (coordsOf x.sizes (wImm w).toNat) (withMmu { s with dbg := d } n tlb cnt)) := by
  obtain ⟨htensor, hbase, hin, hpre⟩ := h
  obtain ⟨d, hd⟩ := bumpQue_eq s q 0
  obtain ⟨n, tlb, cnt, htlb⟩ := foldl_tlbTouch_eq (die := (queueAt s q).die) (cap := 32) (job := (queueAt s q).job)
    (pages := fun u => accPages u (queueAt s q).job [elemAcc x (coordsOf x.sizes (wImm w).toNat) write])
    (gangGroups (queueAt s q)) (bumpQue s q 0)
  refine ⟨d, n, tlb, cnt, ?_⟩
  unfold scalarEffect
  rw [scalarTensor_bumpQue, htensor]
  dsimp only
  rw [if_neg (by simp [hbase]), if_neg (by omega), preCheck_bumpQue, hpre]
  dsimp only
  rw [← hd, ← htlb]

end Elements

/-- What SLD writes into its queue. -/
def loadWrite (s : State) (w : Word) (x : Tensor) (Q Q' : Queue) : Queue :=
  writeS Q' (wR3 w) (BitVec.ofNat 32 (readElem s Q.job x (coordsOf x.sizes (wImm w).toNat)))

/-- SLD of an element that is ready, as one change of its queue. -/
theorem doSld_word {s : State} {q : Nat} {w : Word} {x : Tensor} (h : Issues s q 0x1A w) (hx : elementReady s q w false x) :
    ∃ tlb cnt, EngineWord s (traced s (doSld q s)) q (loadWrite s w x (queueAt s q)) { s.comp with
      queues := s.comp.queues.modify q (loadWrite s w x (queueAt s q)), tlb := tlb, mmuCnt := cnt } := by
  obtain ⟨d, n, tlb, cnt, he⟩ := scalarEffect_done (f := fun w Q x coords s =>
    let v := BitVec.ofNat 32 (readElem s Q.job x coords)
    setQueue s q (fun Q' => writeS Q' (wR3 w) v)) hx
  refine ⟨tlb, cnt, engine_command _ h he rfl rfl ⟨rfl, rfl, rfl, rfl, rfl, rfl, rfl, rfl⟩ ?_⟩
  constructor <;> simp [loadWrite, writeS]

/-- The write of SST. -/
def storeWrite (w : Word) (Q : Queue) (x : Tensor) : WriteOp :=
  elemWrite x (coordsOf x.sizes (wImm w).toNat) (sreg Q (wR1 w)).toNat

/-- SST of an element that is ready: four bytes of memory, which feed the digest of the destination. -/
theorem doSst_word {s : State} {q : Nat} {w : Word} {x : Tensor} (h : Issues s q 0x1B w) (hx : elementReady s q w true x) :
    let W := storeWrite w (queueAt s q) x
    let C := (writeVAs s (queueAt s q).job W.va W.bytes).comp
    ∃ tlb cnt, EngineWord s (traced s (doSst q s)) q (feedWrites [W]) { s.comp with
      queues := s.comp.queues.modify q (feedWrites [W]), mem := C.mem, frames := C.frames, tlb := tlb, mmuCnt := cnt } := by
  obtain ⟨d, n, tlb, cnt, he⟩ := scalarEffect_done (f := fun w Q x coords s =>
    commitWrites s q Q.job [elemWrite x coords (sreg Q (wR1 w)).toNat]) hx
  have hmem := (writeVAs_memOnly (queueAt s q).job (storeWrite w (queueAt s q) x).va (storeWrite w (queueAt s q) x).bytes).congr
    (s := s) (t := withMmu { s with dbg := d } n tlb cnt) rfl rfl rfl
  have hu := (commitWrites_eq (withMmu { s with dbg := d } n tlb cnt) q (queueAt s q).job [storeWrite w (queueAt s q) x]).trans
    (congrArg (setQueue · q (feedWrites [storeWrite w (queueAt s q) x])) hmem)
  obtain ⟨ds, fs, k, hfeed⟩ := feedWrites_eq [storeWrite w (queueAt s q) x] (queueAt s q)
  refine ⟨tlb, cnt, engine_command _ h (he.trans (congrArg Issue.done hu)) rfl rfl ⟨rfl, rfl, rfl, rfl, rfl, rfl, rfl, rfl⟩ ?_⟩
  constructor <;> rw [hfeed]

/-- Settles O13: SLD is one change of its queue, SST one write of four bytes. -/
theorem scalarLoadAndStore : Obligations.ScalarLoadAndStore := by
  refine ⟨fun q s w x hw hx => ⟨_, rfl, ?load⟩, fun q s w x hok hw hx => ⟨_, rfl, ?store⟩⟩
  case load =>
    obtain ⟨tlb, cnt, hword⟩ := doSld_word hw hx
    exact ⟨hword.regs.trans driveComparators_regs, hword.moved, hword.mem, ⟨hword.jobFlags, hword.fpVec, hword.fpRde,
      hword.fpMtx, hword.laurel, hword.mtxPasses, hword.chans⟩, hword.others, hword.outside⟩
  case store =>
    obtain ⟨tlb, cnt, hword⟩ := doSst_word hw hx
    obtain ⟨ds, fs, k, hfeed⟩ := feedWrites_eq [storeWrite w (queueAt s q) x] (queueAt s q)
    have hbytes : (storeWrite w (queueAt s q) x).bytes = leBytes 4 (sreg (queueAt s q) (wR1 w)).toNat := by
      show leBytes (x.fmt.bits / 8) _ = _
      rw [scalarTensor_bits hx.1]
    have hregs := hword.regs
    have hmem := hword.mem
    rw [hfeed] at hregs
    dsimp only at hmem
    rw [hbytes] at hmem
    refine ⟨congrArg QRegs.s hregs, congrArg QRegs.c hregs, congrArg QRegs.h hregs, hmem, fun key hkey => ?_, hword.moved,
      hword.others, hword.outside, ⟨hword.jobFlags, hword.fpVec, hword.fpRde, hword.fpMtx, hword.laurel, hword.mtxPasses,
      hword.chans⟩⟩
    rw [hmem]
    exact writeVAs_get hok.1 hkey

end Sys2Proof.Machine
end

section
/-! Slot 8 (R534, R538): the obligations O53, O55, O57 and O59 range over every state and slot, and in a record of nine sessions
a secured request of slot 8 is answered without the attention bits that they ask for. -/

namespace Sys2Proof.Machine

theorem after_eq {c : Instr} {s t : State} (ht : exec c s = .next t) : after c s = t := by
  unfold after
  rw [ht]

/-- The newest reply carries attention bits 0 while the module has attention bits set. -/
def HidesAttention (c : Instr) (s : State) : Prop :=
  (after c s).mgt.replies.head?.map (·.attn) = some 0 ∧ attnByte (after c s) ≠ 0

/-- A reply without the attention bits is not the answer that `Answers` describes. -/
theorem not_answers_of_hidesAttention {c : Instr} {s t : State} {k : Nat} {r : Res} {pl : List Byte} {h : FmdReq} {op sub : Nat}
    {ops : List Byte} {bad free : Bool} (hf : fmdOf c = some (h, op, ops, bad, sub, free)) (ht : exec c s = .next t)
    (hh : HidesAttention c s) : ¬ Answers c s t k r pl := by
  intro ha
  obtain ⟨hreply, -⟩ := ha _ _ _ _ _ _ hf
  obtain ⟨hzero, hattn⟩ := hh
  rw [after_eq ht] at hzero hattn
  rw [hreply, List.head?_cons, Option.map_some, Option.some.injEq] at hzero
  exact hattn hzero

/-- The header of a request over slot 8. -/
def slotEight : FmdReq := { rq with slot := some 8 }

theorem ninthRead_runs : Runs (.readReg slotEight 0) ninthSession 8 (runU (.readReg slotEight 0) ninthSession 8) :=
  runs_of (by decide +kernel)

theorem ninthRead_hides : HidesAttention (.readReg slotEight 0) ninthSession := by
  unfold HidesAttention
  decide +kernel

/-- Refutes O55: a read over slot 8 is answered with attention bits 0 while SCHED is set. -/
theorem not_registersAreRead : ¬ Obligations.RegistersAreRead := by
  unfold Obligations.RegistersAreRead
  rintro ⟨read, -⟩
  obtain ⟨t, ht, -, hanswer⟩ := read _ _ _ _ _ ninthRead_runs (.inl (by decide +kernel))
  split at hanswer <;> exact not_answers_of_hidesAttention rfl ht ninthRead_hides hanswer

theorem ninthNop_runs : Runs (.fmdNop slotEight) ninthSession 8 (runU (.fmdNop slotEight) ninthSession 8) :=
  runs_of (by decide +kernel)

theorem ninthNop_hides : HidesAttention (.fmdNop slotEight) ninthSession := by
  unfold HidesAttention
  decide +kernel

/-- Refutes O57: a NOP over slot 8 is answered with attention bits 0 while SCHED is set. -/
theorem not_snapshotsRingsAndTraces : ¬ Obligations.SnapshotsRingsAndTraces := by
  unfold Obligations.SnapshotsRingsAndTraces
  rintro ⟨-, -, -, -, -, -, -, -, -, -, -, -, nop, -⟩
  obtain ⟨t, ht, hanswer, -⟩ := nop _ _ _ _ ninthNop_runs
  exact not_answers_of_hidesAttention rfl ht ninthNop_hides hanswer

theorem ninthLoad_runs : Runs (.topiaryLoad slotEight 16) ninthSession 8 (runU (.topiaryLoad slotEight 16) ninthSession 8) :=
  runs_of (by decide +kernel)

theorem ninthLoad_hides : HidesAttention (.topiaryLoad slotEight 16) ninthSession := by
  unfold HidesAttention
  decide +kernel

/-- Refutes O59: a load over slot 8 is answered with attention bits 0 while SCHED is set. -/
theorem not_loadsAndImages : ¬ Obligations.LoadsAndImages := by
  unfold Obligations.LoadsAndImages
  rintro ⟨load, -⟩
  obtain ⟨t, ht, hanswer⟩ := load _ _ _ _ _ ninthLoad_runs
  rw [if_pos (by decide)] at hanswer
  exact not_answers_of_hidesAttention rfl ht ninthLoad_hides hanswer.1

/-- A request of a reserved opcode over slot 8. -/
def ninthReserved : Instr := .reservedOpcode slotEight 0x7F []

theorem ninthReserved_reply : (after ninthReserved ninthSession).mgt.replies.head?.map (·.attn) = some 0 ∧
    attnByte ninthSession = 0x84 := by decide +kernel

/-- Refutes O53: a request of a reserved opcode over slot 8 is answered FORMAT with attention bits 0 while SCHED is set. -/
theorem not_requestsAreTurnedAway : ¬ Obligations.RequestsAreTurnedAway := by
  unfold Obligations.RequestsAreTurnedAway
  intro turned
  obtain ⟨-, -, inSession⟩ := turned ninthReserved _ _ _ _ _ _ ninthSession rfl
  obtain ⟨-, secured⟩ := inSession 8 rfl rfl
  obtain ⟨-, fresh⟩ := secured rfl (by decide +kernel)
  obtain ⟨format, -⟩ := fresh rfl
  obtain ⟨t, ht, away⟩ := format (.inr rfl)
  obtain ⟨hreply, -⟩ := away _ _ _ _ _ _ rfl
  obtain ⟨hzero, hattn⟩ := ninthReserved_reply
  rw [after_eq ht, hreply, List.head?_cons, Option.map_some, hattn] at hzero
  cases hzero

end Sys2Proof.Machine
end

section
/-! Slot 8 and the SPDM messages of a session (R526, R538): the obligation O54. -/

namespace Sys2Proof.Machine

/-- `ninthSession` before its packet buffer has pools. -/
def ninthUnpooled : State := { ninthSession with fab := {} }

/-- GET_VERSION over slot 8. -/
def ninthVersion : Instr := .spdm slotEight .getVersion

theorem ninthVersion_reply : (after ninthVersion ninthUnpooled).mgt.replies.head?.map (·.attn) = some 0 ∧
    attnByte (after ninthVersion ninthUnpooled) = 0x84 := by decide +kernel

/-- Without pools no request is charged (R375). -/
theorem ninthUnpooled_cells (n : Nat) :
    sessionCells (noteMessage ninthUnpooled 8 slotEight) 8 n = some (noteMessage ninthUnpooled 8 slotEight, none) := rfl

/-- Refutes O54: an SPDM message over slot 8 is answered with attention bits 0 while SCHED is set. -/
theorem not_networkAndSessions : ¬ Obligations.NetworkAndSessions := by
  unfold Obligations.NetworkAndSessions
  rintro ⟨-, -, -, -, secured, -⟩
  obtain ⟨t, ht, -, hreply, -⟩ := secured ninthVersion slotEight _ _ ninthUnpooled _ 8 none _ rfl rfl rfl rfl (by decide +kernel) rfl
    (by decide) (by decide +kernel) (by decide +kernel) (ninthUnpooled_cells _)
  obtain ⟨hzero, hattn⟩ := ninthVersion_reply
  rw [after_eq ht] at hzero hattn
  rw [hreply, List.head?_cons, Option.map_some, hattn] at hzero
  cases hzero

end Sys2Proof.Machine
end

section
/-! What queue control leaves of a queue beside its scalar state and its place (R292 to R296, R424): its binding, its
calls, its flag sets and its digest feeds; flags, and the obligation O21. -/

namespace Sys2Proof.Machine

/-! ### What queue control leaves of a queue -/

/-- A queue without what queue control writes: its state, its wait, its place and its work. -/
def Queue.calm (Q : Queue) : Queue :=
  { Q with st := .idle, cause := none, pendingHalt := none, lastHalt := none, inSeg := false, seg := 0, pc := 0, head := 0, ring := []
           wait := .none, deadline := 0, chain := none, work := none, mtxBusy := false, runAhead := 0, stopAsked := false
           ctxSaved := false }

/-- What queue control leaves of every queue. -/
def calmView (s : State) (q : Nat) : Queue := (queueAt s q).calm

section Calm

variable {s : State} {q r : Nat} {f : Queue → Queue}

theorem calmView_setQueue (hf : ∀ Q, (f Q).calm = Q.calm) : calmView (setQueue s q f) = calmView s := by
  funext r
  unfold calmView
  rw [queueAt_setQueue]
  split
  · exact hf _
  · rfl

@[simp] theorem calmView_bumpQue {k : Nat} : calmView (bumpQue s q k) = calmView s := by
  funext r
  unfold calmView
  rw [bumpQue_queueAt]

@[simp] theorem calmView_haltRecord {d g pc : Nat} {c : Res} {i : Bool} {w : Word} :
    calmView (haltRecord s q c d i g pc w) = calmView s := rfl

@[simp] theorem calmView_releaseFrames : calmView (releaseFrames s q) = calmView s := rfl

@[simp] theorem calmView_traced {t : State} : calmView (traced s t) = calmView t := rfl

@[simp] theorem calmView_enterRun : calmView (enterRun s q) = calmView s := by
  unfold enterRun
  dsimp only
  split
  · refine (calmView_setQueue ?_).trans calmView_haltRecord
    exact fun _ => rfl
  · split
    · refine calmView_releaseFrames.trans (calmView_setQueue ?_)
      exact fun _ => rfl
    · refine calmView_setQueue ?_
      exact fun _ => rfl

@[simp] theorem calmView_arbitrate : calmView (arbitrate s q) = calmView s := by
  have hout : calmView (setQueue s q (fun Q => { Q with st := .preempted })) = calmView s := by
    refine calmView_setQueue ?_
    exact fun _ => rfl
  unfold arbitrate
  dsimp only
  split
  · exact calmView_enterRun
  · split
    · refine (foldl_keeps (fun _ _ => calmView_setQueue ?_) _ _).trans hout
      exact fun _ => rfl
    · exact hout

@[simp] theorem calmView_schedule : calmView (schedule s) = calmView s := by
  unfold schedule
  refine foldl_keeps (fun s p => foldl_keeps (fun s q => ?_) _ _) _ _
  split
  · exact calmView_arbitrate
  · rfl

@[simp] theorem calmView_advance : calmView (advance s q) = calmView s := by
  have hleave := calmView_setQueue (s := s) (q := q) (f := fun Q =>
    if Q.inSeg then { Q with pc := Q.pc + 1, runAhead := Q.runAhead - 1 }
    else { Q with ring := Q.ring.tail, head := (Q.head + 1) % 2 ^ 14, runAhead := Q.runAhead - 1 })
    (fun Q => by split <;> rfl)
  unfold advance
  dsimp only
  split
  · rw [calmView_schedule, calmView_releaseFrames]
    refine (calmView_setQueue ?_).trans hleave
    exact fun _ => rfl
  · exact hleave

@[simp] theorem calmView_enterWait {w : WaitKind} : calmView (enterWait s q w) = calmView s := by
  have hwait (u : State) : calmView (setQueue u q (fun Q => { Q with st := .wait, wait := w, stopAsked := false })) = calmView u := by
    refine calmView_setQueue ?_
    exact fun _ => rfl
  unfold enterWait
  dsimp only
  rw [calmView_schedule, hwait]
  split
  · exact calmView_bumpQue
  · rfl

@[simp] theorem calmView_resumeQueue : calmView (resumeQueue s q) = calmView s := by
  unfold resumeQueue
  dsimp only
  split <;> simp

@[simp] theorem calmView_endWait : calmView (endWait s q) = calmView s := by
  have hleave : calmView (leaveWord s q) = calmView s := calmView_setQueue (fun Q => by split <;> rfl)
  unfold endWait
  dsimp only
  split
  · rw [calmView_resumeQueue, hleave]
  · exact hleave

/-- A field that queue control leaves stands between states of one calm view. -/
theorem calm_field {β : Type} {t : State} (π : Queue → β) (hπ : ∀ Q : Queue, π Q.calm = π Q) (h : calmView t = calmView s) (q : Nat) :
    π (queueAt t q) = π (queueAt s q) := by
  rw [← hπ, ← hπ (queueAt s q)]
  exact congrArg π (congrFun h q)

end Calm

/-! ### Flags of jobs (R268, R271) -/

section Flags

variable {s : State} {j f : Nat}

theorem natBit_eq_testBit (m i : Nat) : natBit m i = m.testBit i := by
  rw [natBit, Nat.testBit_eq_decide_div_mod_eq, Nat.shiftRight_eq_div_pow]
  rfl

/-- A number with bit `f` replaced: the bits above it, the new bit and the bits below it. -/
theorem setField_bit_eq (m f v : Nat) : setField m f f v = 2 ^ f * (2 * (m / 2 ^ f / 2) + v % 2) + m % 2 ^ f := by
  have key (p a b c x : Nat) : p * (2 * a + b) + c - b * p + x * p = p * (2 * a + x) + c := by
    have h : p * (2 * a + b) + c = p * (2 * a) + c + b * p := by ring
    rw [h, Nat.add_sub_cancel]
    ring
  have hk := key (2 ^ f) (m / 2 ^ f / 2) (m / 2 ^ f % 2) (m % 2 ^ f) (v % 2)
  rw [Nat.div_add_mod, Nat.div_add_mod] at hk
  rw [setField, Nat.add_sub_cancel_left, pow_one, Nat.shiftRight_eq_div_pow, Nat.shiftLeft_eq, Nat.shiftLeft_eq]
  exact hk

/-- Writing bit `f` of a number and reading bit `g`. -/
theorem natBit_setField (m f g : Nat) (b : Bool) : natBit (setField m f f (if b then 1 else 0)) g = if g = f then b else natBit m g := by
  have hlow : m % 2 ^ f < 2 ^ f := Nat.mod_lt _ (Nat.two_pow_pos f)
  have hm := Nat.testBit_two_pow_mul_add (m / 2 ^ f) hlow g
  rw [Nat.div_add_mod] at hm
  rw [natBit_eq_testBit, natBit_eq_testBit, setField_bit_eq, Nat.testBit_two_pow_mul_add _ hlow, hm]
  rcases Nat.lt_trichotomy g f with hg | rfl | hg
  · rw [if_pos hg, if_neg (by omega), if_pos hg]
  · rw [if_neg (Nat.lt_irrefl g), if_pos rfl, Nat.sub_self, Nat.testBit_zero]
    cases b <;> simp
  · obtain ⟨k, hk⟩ : ∃ k, g - f = k + 1 := ⟨g - f - 1, by omega⟩
    have hb : (2 * (m / 2 ^ f / 2) + (if b then 1 else 0) % 2) / 2 = m / 2 ^ f / 2 := by omega
    rw [if_neg hg.not_gt, if_neg hg.not_gt, if_neg hg.ne', hk, Nat.testBit_add_one, Nat.testBit_add_one, hb]
theorem jobFlag_setJobFlag {b : Bool} (j' g : Nat) :
    jobFlag (setJobFlag s j f b) j' g = if j' = j ∧ g = f then b else jobFlag s j' g := by
  unfold jobFlag setJobFlag
  dsimp only
  rw [lookupD_insertKey]
  by_cases hj : j = j'
  · subst hj
    rw [if_pos rfl, natBit_setField]
    simp
  · rw [if_neg hj, if_neg (fun h => hj h.1.symm)]

theorem jobFlag_of_jobFlags {t : State} (h : t.comp.jobFlags = s.comp.jobFlags) : jobFlag t j f = jobFlag s j f := by
  unfold jobFlag
  rw [h]

end Flags

/-! ### FLAG_SET and its effect, FLAG_CLEAR (R237, R268) -/

section FlagWords

variable {s : State} {q : Nat} {w : Word}

/-- The state in which queue `q` has issued a set of flag `f` and the free value of assumption 7 is drawn. -/
def flagIssued (s : State) (q f : Nat) : State :=
  (drawFree (setQueue (bumpQue s q 0) q (fun Q => { Q with flagSets := Q.flagSets ++ [f] }))).2

theorem coreView_flagIssued {f : Nat} : coreView (flagIssued s q f) = coreView s := by
  have hset : coreView (setQueue (bumpQue s q 0) q (fun Q => { Q with flagSets := Q.flagSets ++ [f] })) = coreView (bumpQue s q 0) := by
    refine coreView_setQueue ?_
    exact fun _ => ⟨rfl, rfl, rfl, rfl, rfl, rfl⟩
  exact hset.trans coreView_bumpQue

theorem posView_flagIssued {f : Nat} : posView (flagIssued s q f) = posView s := by
  have hset : posView (setQueue (bumpQue s q 0) q (fun Q => { Q with flagSets := Q.flagSets ++ [f] })) = posView (bumpQue s q 0) := by
    refine posView_setQueue ?_
    exact fun _ => ⟨rfl, rfl, rfl, rfl, rfl⟩
  exact hset.trans posView_bumpQue

theorem flagSets_of_calmView {t : State} {f : Nat} (hq : q < s.comp.queues.length) (h : calmView t = calmView (flagIssued s q f)) :
    (queueAt t q).flagSets = (queueAt s q).flagSets ++ [f] := by
  have hat : queueAt (flagIssued s q f) q = { queueAt s q with flagSets := (queueAt s q).flagSets ++ [f] } := by
    refine (queueAt_setQueue_self ?_).trans ?_
    · rwa [bumpQue_comp]
    · rw [bumpQue_queueAt]
  rw [calm_field Queue.flagSets (fun _ => rfl) h, hat]

/-- A queue that goes on from a state in which every queue stands as it stood has moved past its word. -/
theorem moved_of_advance {u : State} (hp : posView u = posView s) (hq : q < u.comp.queues.length) :
    Moved s (traced s (advance u q)) q :=
  Moved.of_posView (advance_moved hq) hp.symm posView_traced

/-- An issued set lets the queue go on or keeps it in WAIT, by the free value drawn (assumption 7). -/
theorem flagSet_issued (h : Issues s q 0xA0 w) :
    let t := traced s (doFlagSet q s)
    (queueAt t q).flagSets = (queueAt s q).flagSets ++ [wYFlag w] ∧
      (Moved s t q ∨ (Stands s t q ∧ (queueAt t q).st = .wait ∧ (queueAt t q).wait = .flagSet (wYFlag w))) ∧
      regsOf t q = regsOf s q ∧ ScalarFrame s t q := by
  dsimp only
  have hq : q < (flagIssued s q (wYFlag w)).comp.queues.length := by
    unfold flagIssued drawFree
    rw [setQueue_length, bumpQue_comp]
    exact h.lt
  cases hx : (Config.freeWord (bumpQue s q 0).freeCtr).getLsbD 0 with
  | true =>
    have hi : doFlagSet q s = enterWait (flagIssued s q (wYFlag w)) q (.flagSet (wYFlag w)) := issue_stay h (if_pos hx)
    have hc : coreView (traced s (enterWait (flagIssued s q (wYFlag w)) q (.flagSet (wYFlag w)))) = coreView s := by
      rw [coreView_traced, coreView_enterWait, coreView_flagIssued]
    rw [hi]
    exact ⟨flagSets_of_calmView h.lt calmView_enterWait,
      .inr ⟨Stands.of_posView (by rw [posView_traced, posView_enterWait, posView_flagIssued]), enterWait_waits hq⟩,
      regsOf_of_coreView hc q, ScalarFrame.of_coreView hc⟩
  | false =>
    have hi : doFlagSet q s = advance (flagIssued s q (wYFlag w)) q :=
      issue_done h (if_neg (by rw [Bool.not_eq_true]; exact hx))
    have hc : coreView (traced s (advance (flagIssued s q (wYFlag w)) q)) = coreView s := by
      rw [coreView_traced, coreView_advance, coreView_flagIssued]
    rw [hi]
    exact ⟨flagSets_of_calmView h.lt calmView_advance, .inl (moved_of_advance posView_flagIssued hq), regsOf_of_coreView hc q, ScalarFrame.of_coreView hc⟩

theorem regsOf_setJobFlag {j f : Nat} {b : Bool} : regsOf (setJobFlag s j f b) = regsOf s := rfl

theorem posView_setJobFlag {j f : Nat} {b : Bool} : posView (setJobFlag s j f b) = posView s := rfl

/-- The state in which the oldest issued set of queue `q` has been taken and its flag set. -/
def flagEffect (s : State) (q f : Nat) (rest : List Nat) : State :=
  setJobFlag (setQueue s q (fun Q => { Q with flagSets := rest })) (queueAt s q).job f true

theorem flagEffect_regs {f : Nat} {rest : List Nat} : regsOf (flagEffect s q f rest) = regsOf s := by
  have hset : coreView (setQueue s q (fun Q => { Q with flagSets := rest })) = coreView s := by
    refine coreView_setQueue ?_
    exact fun _ => ⟨rfl, rfl, rfl, rfl, rfl, rfl⟩
  exact congrArg Prod.fst hset

theorem posView_flagEffect {f : Nat} {rest : List Nat} : posView (flagEffect s q f rest) = posView s := by
  refine (posView_setQueue (s := s) (q := q) (f := fun Q => { Q with flagSets := rest }) ?_ :)
  exact fun _ => ⟨rfl, rfl, rfl, rfl, rfl⟩

/-- What FLAG_SET_EFFECT changes but for its own queue's place. -/
structure FlagTakesEffect (s t : State) (q f : Nat) (rest : List Nat) : Prop where
  sets : (queueAt t q).flagSets = rest
  flag : jobFlag t (queueAt s q).job f = true
  others : ∀ j g, ¬(j = (queueAt s q).job ∧ g = f) → jobFlag t j g = jobFlag s j g
  regs : ∀ r, regsOf t r = regsOf s r
  outside : KeepsOutside s t
  comp : t.comp.mem = s.comp.mem ∧ t.comp.fpVec = s.comp.fpVec ∧ t.comp.chans = s.comp.chans ∧ t.comp.laurel = s.comp.laurel

/-- Whatever queue control does after it, the flag has its effect. -/
theorem flagTakesEffect_of_views {t : State} {f : Nat} {rest : List Nat} (hq : q < s.comp.queues.length)
    (hcore : coreView t = coreView (flagEffect s q f rest)) (hcalm : calmView t = calmView (flagEffect s q f rest)) :
    FlagTakesEffect s t q f rest := by
  obtain ⟨hmem, heng, -, hout⟩ := ScalarFrame.of_coreView (q := q) hcore
  have hat : queueAt (flagEffect s q f rest) q = { queueAt s q with flagSets := rest } := queueAt_setQueue_self hq
  have hflag (j g : Nat) : jobFlag t j g = if j = (queueAt s q).job ∧ g = f then true else jobFlag s j g := by
    rw [jobFlag_of_jobFlags heng.jobFlags, flagEffect, jobFlag_setJobFlag]
    rfl
  refine ⟨?_, ?_, fun j g hne => ?_, fun r => ?_, ?_, ⟨hmem, heng.fpVec, heng.chans, heng.laurel⟩⟩
  · rw [calm_field Queue.flagSets (fun _ => rfl) hcalm, hat]
  · rw [hflag, if_pos ⟨rfl, rfl⟩]
  · rw [hflag, if_neg hne]
  · rw [regsOf_of_coreView hcore, flagEffect_regs]
  · exact ⟨hout.tops, hout.fab, hout.coll, hout.integ, hout.pwr, hout.mgt, hout.snap, hout.pins⟩

theorem lt_of_flagSets {f : Nat} {rest : List Nat} (h : (queueAt s q).flagSets = f :: rest) : q < s.comp.queues.length := by
  by_contra hq
  unfold queueAt at h
  rw [List.getD_eq_default _ _ (Nat.le_of_not_lt hq)] at h
  cases h

/-- FLAG_SET_EFFECT where the queue waits for its last set: the wait ends too. -/
theorem doFlagSetEffect_ends {f g : Nat} (h : (queueAt s q).flagSets = [f]) (hw : (queueAt s q).wait = .flagSet g) :
    doFlagSetEffect q s = endWait (flagEffect s q f []) q := by
  unfold doFlagSetEffect
  simp only [h, hw]
  rfl

/-- FLAG_SET_EFFECT where nothing waits for the set. -/
theorem doFlagSetEffect_stays {f : Nat} {rest : List Nat} (h : (queueAt s q).flagSets = f :: rest)
    (hw : (∀ g, (queueAt s q).wait ≠ .flagSet g) ∨ rest ≠ []) : doFlagSetEffect q s = flagEffect s q f rest := by
  unfold doFlagSetEffect
  simp only [h]
  split
  next g hwait => exact absurd rfl (hw.elim (fun hn => absurd hwait (hn g)) id)
  next => rfl

/-- FLAG_CLEAR acts at once and the queue goes on. -/
theorem flagClear_acts (h : Issues s q 0xA1 w) :
    let t := traced s (doFlagClear q s)
    (∀ j g, jobFlag t j g = if j = (queueAt s q).job ∧ g = wYFlag w then false else jobFlag s j g) ∧ Moved s t q ∧
      (∀ r, regsOf t r = regsOf s r) ∧ KeepsOutside s t ∧ t.comp.mem = s.comp.mem ∧ t.comp.fpVec = s.comp.fpVec ∧
      t.comp.chans = s.comp.chans ∧ t.comp.laurel = s.comp.laurel := by
  have hi : doFlagClear q s = advance (setJobFlag (bumpQue s q 0) (queueAt s q).job (wYFlag w) false) q := issue_done h rfl
  have hq : q < (setJobFlag (bumpQue s q 0) (queueAt s q).job (wYFlag w) false).comp.queues.length := h.lt_bumpQue
  have hc : coreView (traced s (advance (setJobFlag (bumpQue s q 0) (queueAt s q).job (wYFlag w) false) q)) =
      coreView (setJobFlag (bumpQue s q 0) (queueAt s q).job (wYFlag w) false) := by rw [coreView_traced, coreView_advance]
  obtain ⟨hmem, heng, -, hout⟩ := ScalarFrame.of_coreView (q := q) hc
  obtain ⟨bmem, beng, -, bout⟩ := ScalarFrame.of_coreView (q := q) (coreView_bumpQue (s := s) (q := q) (k := 0))
  dsimp only
  rw [hi]
  refine ⟨fun j g => ?_, moved_of_advance (posView_setJobFlag.trans posView_bumpQue) hq, fun r => ?_, bout.trans ⟨hout.tops, hout.fab, hout.coll, hout.integ, hout.pwr, hout.mgt, hout.snap, hout.pins⟩, hmem.trans bmem, heng.fpVec.trans beng.fpVec,
    heng.chans.trans beng.chans, heng.laurel.trans beng.laurel⟩
  · rw [jobFlag_of_jobFlags heng.jobFlags, jobFlag_setJobFlag, jobFlag_of_jobFlags beng.jobFlags]
  · rw [regsOf_of_coreView hc, regsOf_setJobFlag, regsOf_of_coreView coreView_bumpQue]

/-! ### FLAG_WAIT, its end and its deadline (R269, R296) -/

/-- A queue that enters WAIT keeps its deadline. -/
theorem enterWait_deadline {k : WaitKind} (hq : q < s.comp.queues.length) :
    (queueAt (enterWait s q k) q).deadline = (queueAt s q).deadline := by
  have key {u : State} (hu : queueAt u q = queueAt s q) (hl : q < u.comp.queues.length) :
      (queueAt (schedule (setQueue u q (fun Q => { Q with st := .wait, wait := k, stopAsked := false }))) q).deadline =
        (queueAt s q).deadline := by
    have hat := queueAt_setQueue_self (f := fun Q => { Q with st := .wait, wait := k, stopAsked := false }) hl
    have hne := ne_of_eq_of_ne (congrArg Queue.st hat) (by decide : QState.wait ≠ .preempted)
    have hd : (queueAt (schedule _) q).deadline = _ := (congrArg Queue.deadline (schedule_still hne) :)
    have hu' : (queueAt u q).deadline = _ := congrArg Queue.deadline hu
    exact hd.trans ((congrArg Queue.deadline hat).trans hu')
  unfold enterWait
  dsimp only
  split
  · exact key bumpQue_queueAt (by rwa [bumpQue_comp])
  · exact key rfl hq

theorem flagDeadline_eq (dl f : Nat) : flagDeadline dl f = dl * 8 * f / 4 := by
  have h : dl * 8 * f = dl * 2 * f * 4 := by ring
  rw [flagDeadline, h, Nat.mul_div_cancel _ (by decide)]

/-- A flag that is 1 lets the queue pass. -/
theorem flagWait_passes (h : Issues s q 0xA2 w) (hf : jobFlag s (queueAt s q).job (wYFlag w) = true) :
    let t := traced s (doFlagWait q s)
    Moved s t q ∧ regsOf t q = regsOf s q ∧ ScalarFrame s t q := by
  have hi : doFlagWait q s = advance (bumpQue s q 0) q := issue_done h (if_pos (by rw [jobFlag_bumpQue]; exact hf))
  have hc : coreView (traced s (advance (bumpQue s q 0) q)) = coreView s := by simp
  dsimp only
  rw [hi]
  exact ⟨moved_of_advance posView_bumpQue h.lt_bumpQue, regsOf_of_coreView hc q, ScalarFrame.of_coreView hc⟩

/-- A flag that is 0 puts the queue in WAIT with the time that is left. -/
theorem flagWait_waits (h : Issues s q 0xA2 w) (hf : ¬ jobFlag s (queueAt s q).job (wYFlag w) = true) :
    let t := traced s (doFlagWait q s)
    (Stands s t q ∧ (queueAt t q).st = .wait ∧ (queueAt t q).wait = .flag (wYFlag w) ∧
      (queueAt t q).deadline = wDL w * 8 * s.stretchQ / 4) ∧ regsOf t q = regsOf s q ∧ ScalarFrame s t q := by
  have hi : doFlagWait q s = enterWait (setQueue (bumpQue s q 0) q (fun Q =>
      { Q with deadline := flagDeadline (wDL w) (bumpQue s q 0).stretchQ })) q (.flag (wYFlag w)) :=
    issue_stay h (if_neg (by rw [jobFlag_bumpQue]; exact hf))
  have hcore : coreView (setQueue (bumpQue s q 0) q (fun Q =>
      { Q with deadline := flagDeadline (wDL w) (bumpQue s q 0).stretchQ })) = coreView (bumpQue s q 0) := by
    refine coreView_setQueue ?_
    exact fun _ => ⟨rfl, rfl, rfl, rfl, rfl, rfl⟩
  have hpos : posView (setQueue (bumpQue s q 0) q (fun Q =>
      { Q with deadline := flagDeadline (wDL w) (bumpQue s q 0).stretchQ })) = posView (bumpQue s q 0) := by
    refine posView_setQueue ?_
    exact fun _ => ⟨rfl, rfl, rfl, rfl, rfl⟩
  have hq : q < (setQueue (bumpQue s q 0) q (fun Q =>
      { Q with deadline := flagDeadline (wDL w) (bumpQue s q 0).stretchQ })).comp.queues.length := by
    rw [setQueue_length]
    exact h.lt_bumpQue
  dsimp only
  rw [hi]
  obtain ⟨hst, hwait⟩ := enterWait_waits (k := .flag (wYFlag w)) hq
  refine ⟨⟨Stands.of_posView (by rw [posView_traced, posView_enterWait, hpos, posView_bumpQue]), hst, hwait, ?_⟩,
    regsOf_of_coreView (by rw [coreView_traced, coreView_enterWait, hcore, coreView_bumpQue]) q,
    ScalarFrame.of_coreView (by rw [coreView_traced, coreView_enterWait, hcore, coreView_bumpQue])⟩
  rw [traced_queueAt, enterWait_deadline hq, queueAt_setQueue_self h.lt_bumpQue, bumpQue_stretchQ, flagDeadline_eq]

/-- A queue in WAIT that halts: HALTED with its cause, standing where it stood. -/
theorem haltQueue_waiting {d : Nat} {c : Res} (hq : q < s.comp.queues.length) (h : (queueAt s q).st = .wait) :
    HaltedAt s (traced s (haltQueue s q c d)) q c := by
  have key {u : State} (hst : (queueAt u q).st = .halted) (hc : (queueAt u q).cause = some c) :
      (queueAt (schedule (releaseFrames u q)) q).st = .halted ∧ (queueAt (schedule (releaseFrames u q)) q).cause = some c := by
    have hne : (queueAt (releaseFrames u q) q).st ≠ .preempted := ne_of_eq_of_ne hst (by decide)
    have hs := schedule_still hne
    exact ⟨(congrArg Queue.st hs).trans hst, (congrArg Queue.cause hs).trans hc⟩
  have hl {u : State} (hu : coreView u = coreView s) : q < u.comp.queues.length := by
    have hlen : u.comp.queues.length = s.comp.queues.length := congrArg (·.2.2.2.2.2.2.2.2.2.2.2.2.2.2.2.2.2) hu
    rwa [hlen]
  have hview : coreView (traced s (haltQueue s q c d)) = coreView s := by rw [coreView_traced, coreView_haltQueue]
  have hhalt : (queueAt (haltQueue s q c d) q).st = .halted ∧ (queueAt (haltQueue s q c d) q).cause = some c := by
    unfold haltQueue haltAt
    dsimp only
    rw [h]
    refine key ?_ ?_ <;> rw [queueAt_setQueue_self (hl (by rw [coreView_squash, coreView_bumpQue, coreView_haltRecord]))]
  exact ⟨hhalt.1, hhalt.2, Stands.of_posView (by rw [posView_traced, posView_haltQueue]), regsOf_of_coreView hview q,
    ScalarFrame.of_coreView hview⟩

end FlagWords

/-- Settles O21: flags are set, cleared and awaited as the words say. -/
theorem flagsAreSetClearedAndAwaited : Obligations.FlagsAreSetClearedAndAwaited := by
  refine ⟨fun q s w h => ⟨_, rfl, flagSet_issued h⟩, fun q s f rest hsets => ⟨_, rfl, ?effect⟩, fun q s w h => ⟨_, rfl, ?clear⟩,
    fun q s w h => ⟨_, rfl, ?wait⟩, fun q s f hst hwait hflag hq => ⟨_, rfl, ?satisfied⟩,
    fun q s f hst hwait hdead hq => ⟨_, rfl, ?late⟩⟩
  case effect =>
    have hq := lt_of_flagSets hsets
    by_cases hends : ∃ g, (queueAt s q).wait = .flagSet g ∧ rest = []
    · obtain ⟨g, hg, rfl⟩ := hends
      obtain ⟨hm, hn⟩ := endWait_moved (s := flagEffect s q f []) (q := q)
        (by unfold flagEffect setJobFlag; dsimp only; rw [setQueue_length]; exact hq)
      rw [doFlagSetEffect_ends hsets hg]
      have he : FlagTakesEffect s (traced s (endWait (flagEffect s q f []) q)) q f [] := flagTakesEffect_of_views hq
        (by rw [coreView_traced, coreView_endWait]) (by rw [calmView_traced, calmView_endWait])
      exact ⟨he.sets, he.flag, he.others, fun _ _ _ => ⟨hn, Moved.of_posView hm posView_flagEffect.symm posView_traced⟩,
        fun hne => absurd hg (hne g), he.regs q, fun r _ => he.regs r, he.outside, he.comp⟩
    · have hstay : (∀ g, (queueAt s q).wait ≠ .flagSet g) ∨ rest ≠ [] := by
        by_contra hno
        push Not at hno
        obtain ⟨⟨g, hg⟩, hr⟩ := hno
        exact hends ⟨g, hg, hr⟩
      rw [doFlagSetEffect_stays hsets hstay]
      have he : FlagTakesEffect s (traced s (flagEffect s q f rest)) q f rest := flagTakesEffect_of_views hq rfl rfl
      exact ⟨he.sets, he.flag, he.others, fun g hg hr => absurd ⟨g, hg, hr⟩ hends,
        fun _ => Stands.of_posView posView_flagEffect, he.regs q, fun r _ => he.regs r, he.outside, he.comp⟩
  case clear =>
    obtain ⟨hflag, hm, hregs, hout, hcomp⟩ := flagClear_acts h
    exact ⟨by rw [hflag, if_pos ⟨rfl, rfl⟩], fun j g hne => by rw [hflag, if_neg hne], hm, hregs q, fun r _ => hregs r, hout, hcomp⟩
  case wait =>
    by_cases hf : jobFlag s (queueAt s q).job (wYFlag w) = true
    · rw [if_pos hf]
      exact flagWait_passes h hf
    · rw [if_neg hf]
      exact flagWait_waits h hf
  case satisfied =>
    have hi : doFlagWaitSatisfied q s = endWait s q := by simp [doFlagWaitSatisfied, hst, hwait, hflag]
    have hc : coreView (traced s (endWait s q)) = coreView s := by simp
    obtain ⟨hm, hn⟩ := endWait_moved hq
    rw [hi]
    exact ⟨hn, hm, regsOf_of_coreView hc q, ScalarFrame.of_coreView hc⟩
  case late =>
    have hi : doFlagWaitDeadline q s = haltQueue s q .deadline f := by simp [doFlagWaitDeadline, hst, hwait, hdead]
    obtain ⟨hhalted, hcause, hstands, hregs, hframe⟩ := haltQueue_waiting (c := .deadline) (d := f) hq hst
    rw [hi]
    exact ⟨hhalted, hcause, hstands, hregs, hframe⟩

end Sys2Proof.Machine
end

section
/-! CALL_COLL (R151, R243, R267) and the obligation O23. -/

namespace Sys2Proof.Machine

section Calls

variable {s : State} {q : Nat} {w : Word}

/-- The state in which queue `q` has issued a call of an ordinal in an epoch. -/
def callIssued (s : State) (q ord ep : Nat) : State :=
  setQueue (bumpQue s q 0) q (fun Q => { Q with calls := Q.calls ++ [(ord, ep)] })

variable {ord ep : Nat}

theorem coreView_callIssued : coreView (callIssued s q ord ep) = coreView s := by
  have hset : coreView (callIssued s q ord ep) = coreView (bumpQue s q 0) := by
    refine coreView_setQueue ?_
    exact fun _ => ⟨rfl, rfl, rfl, rfl, rfl, rfl⟩
  exact hset.trans coreView_bumpQue

theorem posView_callIssued : posView (callIssued s q ord ep) = posView s := by
  have hset : posView (callIssued s q ord ep) = posView (bumpQue s q 0) := by
    refine posView_setQueue ?_
    exact fun _ => ⟨rfl, rfl, rfl, rfl, rfl⟩
  exact hset.trans posView_bumpQue

theorem queueAt_callIssued (hq : q < s.comp.queues.length) :
    queueAt (callIssued s q ord ep) q = { queueAt s q with calls := (queueAt s q).calls ++ [(ord, ep)] } := by
  refine (queueAt_setQueue_self ?_).trans ?_
  · rwa [bumpQue_comp]
  · rw [bumpQue_queueAt]

theorem lt_callIssued (hq : q < s.comp.queues.length) : q < (callIssued s q ord ep).comp.queues.length := by
  rwa [callIssued, setQueue_length, bumpQue_comp]

theorem collDone_callIssued {j e o : Nat} : collDone (callIssued s q ord ep) j e o = collDone s j e o := by
  obtain ⟨d, hd⟩ := bumpQue_eq s q 0
  rw [callIssued, hd]
  rfl

theorem collAt_callIssued {j e o : Nat} : collAt (callIssued s q ord ep) j e o = collAt s j e o := by
  obtain ⟨d, hd⟩ := bumpQue_eq s q 0
  rw [callIssued, hd]
  rfl

/-- What every call of an ordinal of the table leaves. -/
structure Called (s t : State) (q ord ep : Nat) : Prop where
  calls : (queueAt t q).calls = (queueAt s q).calls ++ [(ord, ep)]
  regs : regsOf t q = regsOf s q
  frame : t.comp.mem = s.comp.mem ∧ KeepsOthers s t q ∧ KeepsOutside s t

theorem called_of_views {t : State} (hq : q < s.comp.queues.length) (hregs : regsOf t = regsOf s) (hmem : t.comp.mem = s.comp.mem)
    (hout : KeepsOutside s t) (hcalls : (queueAt t q).calls = (queueAt (callIssued s q ord ep) q).calls) : Called s t q ord ep :=
  ⟨hcalls.trans (congrArg Queue.calls (queueAt_callIssued hq)), congrFun hregs q, hmem, fun r _ => congrFun hregs r, hout⟩

/-- Queue control after the call leaves what the call left. -/
theorem called_of_coreView {t : State} (hq : q < s.comp.queues.length) (hc : coreView t = coreView s)
    (hcalm : calmView t = calmView (callIssued s q ord ep)) : Called s t q ord ep :=
  have hf := ScalarFrame.of_coreView (q := q) hc
  called_of_views hq (congrArg Prod.fst hc :) hf.mem hf.outside (calm_field Queue.calls (fun _ => rfl) hcalm q)

/-- A call that waits. -/
theorem call_waits {k : WaitKind} (hq : q < s.comp.queues.length) :
    let t := traced s (enterWait (callIssued s q ord ep) q k)
    Called s t q ord ep ∧ Stands s t q ∧ (queueAt t q).st = .wait ∧ (queueAt t q).wait = k :=
  ⟨called_of_coreView hq (by rw [coreView_traced, coreView_enterWait, coreView_callIssued]) (by rw [calmView_traced, calmView_enterWait]),
    Stands.of_posView (by rw [posView_traced, posView_enterWait, posView_callIssued]), enterWait_waits (lt_callIssued hq)⟩

/-- The state in which a completed ordinal has been called: an asynchronous call has its flag at once. -/
def callPassed (s : State) (q ord ep : Nat) (async : Bool) (flag : Nat) : State :=
  if async then setJobFlag (callIssued s q ord ep) (queueAt s q).job flag true else callIssued s q ord ep

/-- A call of a completed ordinal passes. -/
theorem call_passes {async : Bool} {flag : Nat} (hq : q < s.comp.queues.length) :
    let t := traced s (advance (callPassed s q ord ep async flag) q)
    Called s t q ord ep ∧ Moved s t q := by
  have hu : regsOf (callPassed s q ord ep async flag) = regsOf (callIssued s q ord ep) ∧
      posView (callPassed s q ord ep async flag) = posView (callIssued s q ord ep) ∧
      calmView (callPassed s q ord ep async flag) = calmView (callIssued s q ord ep) ∧
      KeepsOutside (callIssued s q ord ep) (callPassed s q ord ep async flag) ∧
      (callPassed s q ord ep async flag).comp.mem = (callIssued s q ord ep).comp.mem ∧
      (callPassed s q ord ep async flag).comp.queues = (callIssued s q ord ep).comp.queues := by
    unfold callPassed
    split <;> exact ⟨rfl, rfl, rfl, ⟨rfl, rfl, rfl, rfl, rfl, rfl, rfl, rfl⟩, rfl, rfl⟩
  obtain ⟨hregs, hpos, hcalm, hout, hmem, hqueues⟩ := hu
  obtain ⟨imem, -, -, iout⟩ := ScalarFrame.of_coreView (q := q) (coreView_callIssued (s := s) (q := q) (ord := ord) (ep := ep))
  obtain ⟨amem, -, -, aout⟩ := ScalarFrame.of_coreView (q := q) (coreView_advance (s := callPassed s q ord ep async flag) (q := q))
  have hregs' : regsOf (advance (callPassed s q ord ep async flag) q) = regsOf s :=
    (congrArg Prod.fst coreView_advance :).trans (hregs.trans (congrArg Prod.fst coreView_callIssued :))
  refine ⟨called_of_views hq hregs' (amem.trans (hmem.trans imem)) ((iout.trans hout).trans aout).traced
    (calm_field Queue.calls (fun _ => rfl) (calmView_advance.trans hcalm) q), ?_⟩
  exact moved_of_advance (hpos.trans posView_callIssued) (by rw [hqueues]; exact lt_callIssued hq)

/-- The state in which an asynchronous call of an eligible ordinal has been left behind with its flag. -/
def callLeft (s : State) (q ord ep flag : Nat) : State :=
  setQueue (callIssued s q ord ep) q (fun Q => { Q with asyncs := Q.asyncs ++ [(ord, ep, flag)] })

/-- An asynchronous call of an eligible ordinal lets the queue go on. -/
theorem call_left {flag : Nat} (hq : q < s.comp.queues.length) :
    let t := traced s (advance (callLeft s q ord ep flag) q)
    Called s t q ord ep ∧ Moved s t q ∧ (queueAt t q).asyncs = (queueAt s q).asyncs ++ [(ord, ep, flag)] := by
  have hcore : coreView (callLeft s q ord ep flag) = coreView s := by
    refine Eq.trans (coreView_setQueue ?_) coreView_callIssued
    exact fun _ => ⟨rfl, rfl, rfl, rfl, rfl, rfl⟩
  have hpos : posView (callLeft s q ord ep flag) = posView s := by
    refine Eq.trans (posView_setQueue ?_) posView_callIssued
    exact fun _ => ⟨rfl, rfl, rfl, rfl, rfl⟩
  have hlt := lt_callIssued (ord := ord) (ep := ep) hq
  have hat : queueAt (callLeft s q ord ep flag) q = { queueAt s q with
      calls := (queueAt s q).calls ++ [(ord, ep)], asyncs := (queueAt s q).asyncs ++ [(ord, ep, flag)] } := by
    rw [callLeft, queueAt_setQueue_self hlt, queueAt_callIssued hq]
  have hc : coreView (traced s (advance (callLeft s q ord ep flag) q)) = coreView s := by rw [coreView_traced, coreView_advance, hcore]
  have hf := ScalarFrame.of_coreView (q := q) hc
  refine ⟨⟨?_, regsOf_of_coreView hc q, hf.mem, hf.others, hf.outside⟩,
    moved_of_advance hpos (by rw [callLeft, setQueue_length]; exact hlt), ?_⟩
  · rw [traced_queueAt, calm_field Queue.calls (fun _ => rfl) calmView_advance, hat]
  · rw [traced_queueAt, calm_field Queue.asyncs (fun _ => rfl) calmView_advance, hat]

/-- The ordinal of a CALL_COLL word and the epoch of the call. -/
def callOrd (w : Word) : Nat := field w 31 0

def callEp (s : State) (q : Nat) (w : Word) : Nat :=
  callEpochOf (queueAt s q) (callOrd w) ((queueAt s q).calls.length + 1) (queueAt s q).callEpoch

section Effects

variable {e : CollEntry} (h : Issues s q 0xB0 w) (he : entryOf s (queueAt s q).job (callOrd w) = some e)
include h

theorem doCallColl_absent (hn : entryOf s (queueAt s q).job (callOrd w) = none) :
    HaltedAt s (traced s (doCallColl q s)) q .range := by
  have hn' : entryOf s (queueAt s q).job (field w 31 0) = none := hn
  exact issue_refuse_halts h (by simp only [entryOf_bumpQue, hn'])

include he

theorem doCallColl_done (hd : collDone s (queueAt s q).job (callEp s q w) (callOrd w) = true) :
    doCallColl q s = advance (callPassed s q (callOrd w) (callEp s q w) (field w 50 50 == 1) (field w 49 42)) q := by
  refine issue_done h ?_
  have he' : entryOf s (queueAt s q).job (field w 31 0) = some e := he
  simp only [entryOf_bumpQue, he']
  exact if_pos (collDone_callIssued.trans hd)

variable (hd : collDone s (queueAt s q).job (callEp s q w) (callOrd w) ≠ true)
include hd

theorem doCallColl_ineligible
    (hc : ((collAt s (queueAt s q).job (callEp s q w) (callOrd w)).eligible &&
      !(collAt s (queueAt s q).job (callEp s q w) (callOrd w)).aborted) ≠ true) :
    doCallColl q s = enterWait (callIssued s q (callOrd w) (callEp s q w)) q
      (.eligible (callOrd w) (callEp s q w) (field w 50 50 == 1) (field w 49 42)) := by
  refine issue_stay h ?_
  have he' : entryOf s (queueAt s q).job (field w 31 0) = some e := he
  simp only [entryOf_bumpQue, he']
  refine (if_neg (by rw [← collDone_callIssued] at hd; exact hd)).trans (if_neg ?_)
  rw [← collAt_callIssued (s := s) (q := q) (ord := callOrd w) (ep := callEp s q w)] at hc
  exact hc

variable (hc : ((collAt s (queueAt s q).job (callEp s q w) (callOrd w)).eligible &&
  !(collAt s (queueAt s q).job (callEp s q w) (callOrd w)).aborted) = true)
include hc

theorem doCallColl_sync (ha : (field w 50 50 == 1) ≠ true) :
    doCallColl q s = enterWait (callIssued s q (callOrd w) (callEp s q w)) q (.collective (callOrd w) (callEp s q w)) := by
  refine issue_stay h ?_
  have he' : entryOf s (queueAt s q).job (field w 31 0) = some e := he
  simp only [entryOf_bumpQue, he']
  rw [← collAt_callIssued (s := s) (q := q) (ord := callOrd w) (ep := callEp s q w)] at hc
  exact (if_neg (by rw [← collDone_callIssued] at hd; exact hd)).trans ((if_pos hc).trans (if_neg ha))

theorem doCallColl_async (ha : (field w 50 50 == 1) = true) :
    doCallColl q s = advance (callLeft s q (callOrd w) (callEp s q w) (field w 49 42)) q := by
  refine issue_done h ?_
  have he' : entryOf s (queueAt s q).job (field w 31 0) = some e := he
  simp only [entryOf_bumpQue, he']
  rw [← collAt_callIssued (s := s) (q := q) (ord := callOrd w) (ep := callEp s q w)] at hc
  exact (if_neg (by rw [← collDone_callIssued] at hd; exact hd)).trans ((if_pos hc).trans (if_pos ha))

end Effects

end Calls

/-- Settles O23: a call waits for its ordinal or goes on, by what the ordinal's record says. -/
theorem callCollWaitsOrGoesOn : Obligations.CallCollWaitsOrGoesOn := by
  intro q s w h
  have hq := h.lt
  refine ⟨_, rfl, ?_⟩
  change _ ∧ (if entryOf s (queueAt s q).job (callOrd w) = none then _ else
    _ = _ ++ [(callOrd w, callEp s q w)] ∧ (if collDone s (queueAt s q).job (callEp s q w) (callOrd w) then _
      else if ((collAt s (queueAt s q).job (callEp s q w) (callOrd w)).eligible &&
        !(collAt s (queueAt s q).job (callEp s q w) (callOrd w)).aborted) then
          (if (field w 50 50 == 1) then _ else _) else _)) ∧ _
  cases hentry : entryOf s (queueAt s q).job (callOrd w) with
  | none =>
    obtain ⟨hst, hcause, hstands, hregs, hframe⟩ := doCallColl_absent h hentry
    exact ⟨hregs, by rw [if_pos rfl]; exact ⟨hst, hcause, hstands⟩, hframe.mem, hframe.others, hframe.outside⟩
  | some e =>
    rw [if_neg (by simp)]
    by_cases hd : collDone s (queueAt s q).job (callEp s q w) (callOrd w) = true
    · obtain ⟨hcalled, hm⟩ := call_passes (ord := callOrd w) (ep := callEp s q w) (async := field w 50 50 == 1) (flag := field w 49 42) hq
      rw [if_pos hd, doCallColl_done h hentry hd]
      exact ⟨hcalled.regs, ⟨hcalled.calls, hm⟩, hcalled.frame⟩
    rw [if_neg hd]
    by_cases hc : ((collAt s (queueAt s q).job (callEp s q w) (callOrd w)).eligible &&
        !(collAt s (queueAt s q).job (callEp s q w) (callOrd w)).aborted) = true
    · rw [if_pos hc]
      by_cases ha : (field w 50 50 == 1) = true
      · obtain ⟨hcalled, hm, hasync⟩ := call_left (ord := callOrd w) (ep := callEp s q w) (flag := field w 49 42) hq
        rw [if_pos ha, doCallColl_async h hentry hd hc ha]
        exact ⟨hcalled.regs, ⟨hcalled.calls, hm, hasync⟩, hcalled.frame⟩
      · obtain ⟨hcalled, hwaits⟩ := call_waits (ord := callOrd w) (ep := callEp s q w) (k := .collective (callOrd w) (callEp s q w)) hq
        rw [if_neg ha, doCallColl_sync h hentry hd hc ha]
        exact ⟨hcalled.regs, ⟨hcalled.calls, hwaits⟩, hcalled.frame⟩
    · obtain ⟨hcalled, hwaits⟩ := call_waits (ord := callOrd w) (ep := callEp s q w)
        (k := .eligible (callOrd w) (callEp s q w) (field w 50 50 == 1) (field w 49 42)) hq
      rw [if_neg hc, doCallColl_ineligible h hentry hd hc]
      exact ⟨hcalled.regs, ⟨hcalled.calls, hwaits⟩, hcalled.frame⟩

end Sys2Proof.Machine
end

section
/-! Tiered pages (R416, R417): the page that a queue with nothing left to issue waited for, and the obligation O25. -/

namespace Sys2Proof.Machine

/-- The frame that page 0 is coming into, held by queue 0. -/
def fillingFrame : Frame := { hbmPage := 0, st := .filling 0 0, heldBy := [0] }

/-- Queue 0 waits for page 0 at the end of its ring: when the page has come in, no word is left, and the queue goes IDLE and
holds no frame (R294, R417). -/
def lastWait : State :=
  { State.reset with comp := { State.reset.comp with
      queues := [{ bound := true, st := .wait, wait := .tier }]
      frames := [(0, [fillingFrame])]
      tierFaults := [{ queue := 0, job := 0, die := 0, pages := [0], reserved := true }] } }

theorem lastWait_frame : (framesOf (after (.tierMoveInDone 0 0 0) lastWait) 0 0)[0]?.map (·.heldBy) = some [] := by
  decide +kernel

/-- Refutes O25: the statement keeps the holders of the page's frame, while a queue that goes IDLE with it gives the frame up. -/
theorem not_tieredPagesMove : ¬ Obligations.TieredPagesMove := by
  unfold Obligations.TieredPagesMove
  rintro ⟨-, -, moveIn⟩
  obtain ⟨t, ht, hframe, -⟩ := moveIn 0 0 0 lastWait fillingFrame 0 0 (by decide +kernel) rfl
  have hheld := lastWait_frame
  rw [after_eq ht, hframe, Option.map_some] at hheld
  cases hheld

end Sys2Proof.Machine
end

section
/-! RETRACT at a consumer that holds nothing of the input (R443), and the obligation O30. -/

namespace Sys2Proof.Machine

/-! ### Units whose checks hold -/

/-- A unit that its link accepts goes on to the ingress of its port. -/
theorem receive_accepted {s : State} {l p : Nat} {u : LinkUnit} (h : Accepted s l p u) :
    receive s l u = ingress (acceptSeq s l u) l p u :=
  (receive_sequenced h.port h.up h.header h.crc h.sequenced).trans (receiveSeq_expected h.expected)

/-! ### A consumer that holds nothing of an input -/

/-- An input of ordinal 7 that holds no frame and charges one cell to its job's early-arrival quota. -/
def chargedInput : Inp := { rank := 0, chunk := 0, early := 1 }

/-- The fabric module with that input. -/
def chargedS : State := setColl fabS 0 0 7 (fun c => { c with inputs := [chargedInput] })

/-- A RETRACT of that input as its sender forms it. -/
def retractRaw : LinkUnit := { ordinal := 7, cls := 1, length := 256, route := hop1 false 0x1FF, payload := padTo 256 [] }

theorem retract_delivered : Delivered chargedS 4 4 (asType 5 (mkU 5 retractRaw)) .control :=
  delivered_unit (by decide +kernel) (by decide +kernel) (by decide +kernel)

/-- A RETRACT after which nothing of the input is held gives its early-arrival cells back. -/
theorem retract_uncharges :
    (inpAt (collAt (traced chargedS (ingress (acceptSeq chargedS 4 (asType 5 (mkU 5 retractRaw))) 4 4 (asType 5 (mkU 5 retractRaw))))
      0 0 7) 0 0).early = 0 := by decide +kernel

/-- Refutes O30: the statement of RETRACT leaves the early-arrival cells of the input charged, while an input of which nothing is
held any more gives them back. -/
theorem not_controlUnitsAct : ¬ Obligations.ControlUnitsAct := by
  unfold Obligations.ControlUnitsAct
  rintro ⟨-, -, retract, -⟩
  obtain ⟨t, ht, hcoll, -⟩ := retract 4 4 (mkU 5 retractRaw) chargedS 0 retract_delivered (by decide +kernel) (by decide +kernel)
    (by decide +kernel)
  have hearly := retract_uncharges
  rw [← receive_accepted retract_delivered.accepted] at hearly
  injection ht with ht
  rw [show traced chargedS (receive chargedS 4 (asType 5 (mkU 5 retractRaw))) = t from ht,
    show collAt t 0 0 7 = _ from hcoll] at hearly
  revert hearly
  decide +kernel

end Sys2Proof.Machine
end

section
/-! The link checks of a received unit (R345 checks 1 to 3, R350) and the obligation O26. -/

namespace Sys2Proof.Machine

/-! ### Changes of one lane -/

section OneLane

variable {s t : State} {l : Nat} {L : Lane}

theorem onlyLane_setLane {f : Lane → Lane} : OnlyLane s (setLane s l f) l (f (laneAt s l)) :=
  ⟨by simp, fun j hj => by simp [Ne.symm hj], rfl⟩

/-- A further change of the same lane. -/
theorem OnlyLane.setLane {f : Lane → Lane} (h : OnlyLane s t l L) : OnlyLane s (setLane t l f) l (f L) := by
  obtain ⟨hl, hothers, hrest⟩ := h
  refine ⟨by simp [hl], fun j hj => by simp [Ne.symm hj, hothers j hj], ?_⟩
  exact (congrArg (fun x : State => { x with fab := { x.fab with lanes := (Machine.setLane t l f).fab.lanes } }) hrest :)

theorem OnlyLane.traced {r : State} (h : OnlyLane s t l L) : OnlyLane s (traced r t) l L := by
  obtain ⟨hl, hothers, hrest⟩ := h
  exact ⟨hl, hothers, (congrArg (fun x : State => { x with dbg := (Machine.traced r t).dbg }) hrest :)⟩

theorem onlyLane_ite {b : Prop} [Decidable b] {t' : State} {L' : Lane} (h : OnlyLane s t l L) (h' : OnlyLane s t' l L') :
    OnlyLane s (if b then t else t') l (if b then L else L') := by
  split
  · exact h
  · exact h'

theorem OnlyLane.portOf_eq (h : OnlyLane s t l L) : portOf t = portOf s := by
  rw [h.2.2]
  rfl

theorem OnlyLane.now_eq (h : OnlyLane s t l L) : t.now = s.now := (congrArg State.now h.2.2 :)

/-- LINK_NAK of a cause on the lane. -/
theorem OnlyLane.sendNak {p c : Nat} (h : OnlyLane s t l L) (hp : portOf s l = some p) :
    OnlyLane s (sendNak t l c) l (nakked L l p c s.now) := by
  have hq : portOf t l = some p := h.portOf_eq ▸ hp
  have hL : laneAt t l = L := h.1
  have hn := h.now_eq
  have hcell := fun u : LinkUnit =>
    (h.setLane (f := fun M => { M with locals := M.locals ++ [sealUnit u] })).setLane
      (f := fun M => { M with cnt := bumpAt M.cnt 3 1 })
  unfold Machine.sendNak nakked cntLane sendLocal
  simp only [hq, hL, Option.getD_some]
  split
  · exact hcell _
  · rw [← hn]
    exact (hcell _).setLane

end OneLane

/-! ### Commands that receive a unit -/

/-- A command that receives a unit does what `receive` does. -/
theorem exec_unitOf {c : Instr} {l : Nat} {u : LinkUnit} {s : State} (h : unitOf c = some (l, u)) :
    exec c s = .next (traced s (receive s l u)) := by
  cases c <;> simp only [unitOf, Option.some.injEq, Prod.mk.injEq, reduceCtorEq] at h
  case twinImageRequest k v =>
    split at h
    next ho =>
      obtain ⟨rfl, rfl⟩ := Prod.mk.inj (Option.some.inj h)
      have hr : receiveImage true k v s = receive s k (asTwin 6 v) := by simp [receiveImage, ho]; rfl
      rw [← hr]
      rfl
    next => cases h
  case twinImageData k v =>
    split at h
    next => cases h
    next ho =>
      obtain ⟨rfl, rfl⟩ := Prod.mk.inj (Option.some.inj h)
      have hr : receiveImage false k v s = receive s k (asTwin 6 v) := by simp [receiveImage, ho]; rfl
      rw [← hr]
      rfl
  all_goals
    obtain ⟨rfl, rfl⟩ := h
    rfl

/-! ### The checks of the link -/

/-- A sequenced unit whose LINK_SEQ is not the one awaited: a repeat is counted, a gap is answered with LINK_NAK (R350). -/
theorem onlyLane_receiveSeq {s : State} {l p : Nat} {u : LinkUnit} (hp : portOf s l = some p)
    (hd : (u.linkSeq + 1024 - (laneAt s l).rxExpect) % 1024 ≠ 0) :
    OnlyLane s (receiveSeq s l p u) l
      (if 512 ≤ (u.linkSeq + 1024 - (laneAt s l).rxExpect) % 1024 then counted (laneAt s l) 6
       else match (laneAt s l).nakAt with
         | some (e, n) => if e = (laneAt s l).rxExpect && s.now < n + 5000 then counted (laneAt s l) 6
           else nakked (counted (laneAt s l) 6) l p 3 s.now
         | none => nakked (counted (laneAt s l) 6) l p 3 s.now) := by
  have hcount : OnlyLane s (cntLane s l 6 1) l (counted (laneAt s l) 6) := onlyLane_setLane
  unfold receiveSeq
  simp only [if_neg hd]
  refine onlyLane_ite hcount ?_
  cases hn : (laneAt s l).nakAt with
  | none => exact hcount.sendNak hp
  | some x => exact onlyLane_ite hcount (hcount.sendNak hp)

/-- Settles O26: each failing check counts on the unit's lane and forms its LINK_NAK there, which are changes of that lane alone. -/
theorem unitsThatFailTheLinkChecks : Obligations.UnitsThatFailTheLinkChecks := by
  unfold Obligations.UnitsThatFailTheLinkChecks
  have hcount (s : State) (l k : Nat) : OnlyLane s (cntLane s l k 1) l (counted (laneAt s l) k) := onlyLane_setLane
  refine ⟨fun c l p u s hc hp hu => ?_, fun l p s hp hu => ⟨_, rfl, ?delimitation⟩⟩
  · refine ⟨fun hh => ⟨_, exec_unitOf hc, ?header⟩, fun hh hcrc hk => ⟨_, exec_unitOf hc, ?payload⟩,
      fun hh hcrc hk => ⟨_, exec_unitOf hc, ?linkLocal⟩, fun hh hcrc hk hd => ⟨_, exec_unitOf hc, ?sequence⟩⟩
    case header =>
      rw [receive_bad_header hp hu hh]
      exact ((hcount s l 1).sendNak hp).traced
    case payload =>
      rw [receive_bad_payload hp hu hh hcrc, hk, if_neg Bool.false_ne_true]
      exact ((hcount s l 2).sendNak hp).traced
    case linkLocal =>
      rw [receive_bad_payload hp hu hh hcrc, hk]
      exact (hcount s l 2).traced
    case sequence =>
      rw [receive_sequenced hp hu hh hcrc hk]
      exact (onlyLane_receiveSeq hp hd).traced
  case delimitation =>
    have hr : doDelimitationLost l s = sendNak (cntLane s l 1 1) l 1 := by simp [doDelimitationLost, hu]
    rw [hr]
    exact ((hcount s l 1).sendNak hp).traced

end Sys2Proof.Machine
end

section
/-! What the link's acceptance, mirroring and metering of a unit leave (R350, R386, R399), and the obligation O27. -/

namespace Sys2Proof.Machine

/-! ### Ports with one of them changed -/

theorem mem_of_key {α : Type} {k : Nat} {d : α} : ∀ {xs : List (Nat × α)}, (∃ e ∈ xs, e.1 = k) → (k, lookupD xs k d) ∈ xs
  | [], ⟨_, he, _⟩ => absurd he List.not_mem_nil
  | (j, v) :: rest, ⟨e, he, hk⟩ => by
    by_cases hj : j = k
    · simp [lookupD, hj]
    · rcases List.mem_cons.mp he with rfl | he
      · exact absurd hk hj
      · simp [lookupD, hj, mem_of_key ⟨e, he, hk⟩]

/-- A test that the new value of a listed key answers as the old one did finds what it found. -/
theorem any_insertKey {α : Type} {k : Nat} {v d : α} {g : Nat × α → Bool} :
    ∀ {xs : List (Nat × α)}, (∃ e ∈ xs, e.1 = k) → g (k, v) = g (k, lookupD xs k d) → (insertKey xs k v).any g = xs.any g
  | [], ⟨_, he, _⟩, _ => absurd he List.not_mem_nil
  | (j, w) :: rest, hk, hg => by
    unfold insertKey
    split
    next =>
      have hmem := mem_of_key (d := d) hk
      rw [List.any_cons, hg]
      cases hv : g (k, lookupD ((j, w) :: rest) k d)
      · rfl
      · exact (List.any_eq_true.mpr ⟨_, hmem, hv⟩).symm
    next hlt =>
      split
      next he =>
        subst he
        simp [hg, lookupD]
      next hne =>
        obtain ⟨e, he, hek⟩ := hk
        rcases List.mem_cons.mp he with rfl | he
        · exact absurd hek.symm hne
        · have hg' : g (k, v) = g (k, lookupD rest k d) := by simpa [lookupD, Ne.symm hne] using hg
          rw [List.any_cons, List.any_cons, any_insertKey ⟨e, he, hek⟩ hg']

/-- A search whose result has the key finds that key still. -/
theorem find_insertKey {α : Type} {k : Nat} {v d : α} {g : Nat × α → Bool} :
    ∀ {xs : List (Nat × α)}, g (k, v) = g (k, lookupD xs k d) → (xs.find? g).map (·.1) = some k →
      ((insertKey xs k v).find? g).map (·.1) = some k
  | [], _, hf => by cases hf
  | (j, w) :: rest, hg, hf => by
    unfold insertKey
    split
    next =>
      cases hv : g (k, v)
      · rw [List.find?_cons, hv]
        exact hf
      · rw [List.find?_cons, hv]
        rfl
    next =>
      split
      next he =>
        subst he
        rw [List.find?_cons, hg, lookupD, if_pos rfl]
        rw [List.find?_cons] at hf
        cases hw : g (k, w)
        · rw [hw] at hf
          exact hf
        · rfl
      next hne =>
        rw [List.find?_cons]
        rw [List.find?_cons] at hf
        cases hw : g (j, w)
        · rw [hw] at hf
          exact find_insertKey (d := d) (by simpa [lookupD, Ne.symm hne] using hg) hf
        · rw [hw] at hf
          exact hf

section Ports

variable {s : State} {l p : Nat} {f : Port → Port}

theorem mem_ports_of_portOf (hp : portOf s l = some p) : ∃ e ∈ s.fab.ports, e.1 = p := by
  unfold portOf at hp
  obtain ⟨e, he, hk⟩ := Option.map_eq_some_iff.mp hp
  exact ⟨e, List.mem_of_find?_eq_some he, hk⟩

/-- A change of a listed port that keeps its lanes keeps the port of each of its lanes. -/
theorem portOf_setPort (hf : ∀ P, (f P).lanes = P.lanes) (hp : portOf s l = some p) : portOf (setPort s p f) l = some p :=
  find_insertKey (d := {}) (by simp only [portAt, hf]) hp

theorem isLanePort_setPort (hp : ∃ e ∈ s.fab.ports, e.1 = p) (j : Nat) : isLanePort (setPort s p f) j = isLanePort s j :=
  congrArg (j < 272 && ·) (any_insertKey (d := {}) hp rfl)

theorem portOf_setPort_isSome (hf : ∀ P, (f P).lanes = P.lanes) (hp : ∃ e ∈ s.fab.ports, e.1 = p) (j : Nat) :
    (portOf (setPort s p f) j).isSome = (portOf s j).isSome := by
  simp only [portOf, Option.isSome_map, List.isSome_find?]
  exact any_insertKey (d := {}) hp (by simp only [portAt, hf])

end Ports

/-! ### The module beyond its fabric -/

/-- The state without its fabric, its event rings, its attention bits, its free values and its trace. -/
def beyondFabric (s : State) : State := { s with fab := {}, rings := [], attn := 0, freeCtr := 0, dbg := {} }

theorem FabricOnly.of_beyondFabric {s t : State} (h : beyondFabric t = beyondFabric s) : FabricOnly s t :=
  (congrArg (fun x : State => { x with fab := t.fab, rings := t.rings, attn := t.attn, freeCtr := t.freeCtr, dbg := t.dbg }) h :)

section Beyond

variable {s : State}

@[simp] theorem beyondFabric_traced {r : State} : beyondFabric (traced r s) = beyondFabric s := rfl
@[simp] theorem beyondFabric_setLane {l : Nat} {f : Lane → Lane} : beyondFabric (setLane s l f) = beyondFabric s := rfl
@[simp] theorem beyondFabric_cntLane {l k n : Nat} : beyondFabric (cntLane s l k n) = beyondFabric s := rfl
@[simp] theorem beyondFabric_setPort {p : Nat} {f : Port → Port} : beyondFabric (setPort s p f) = beyondFabric s := rfl
@[simp] theorem beyondFabric_returnCredit {p c n : Nat} : beyondFabric (returnCredit s p c n) = beyondFabric s := rfl
@[simp] theorem beyondFabric_setBpm {i : Nat} {f : Bpm → Bpm} : beyondFabric (setBpm s i f) = beyondFabric s := rfl
@[simp] theorem beyondFabric_cntBpm {i k n : Nat} : beyondFabric (cntBpm s i k n) = beyondFabric s := rfl
@[simp] theorem beyondFabric_setAttn {b : BitVec 16} : beyondFabric (setAttn s b) = beyondFabric s := rfl
@[simp] theorem beyondFabric_setTwin {f : Twin → Twin} : beyondFabric (setTwin s f) = beyondFabric s := rfl
@[simp] theorem beyondFabric_ringLog {r e : Nat} {ds : List Nat} : beyondFabric (ringLog s r e ds) = beyondFabric s := rfl

end Beyond

/-! ### Arrival -/

/-- `s` with what an arriving unit changes of the fabric before it is admitted taken from `t`. -/
def arrivedAs (s t : State) : State :=
  { s with fab := { s.fab with
      lanes := t.fab.lanes, ports := t.fab.ports, mirrorQueue := t.fab.mirrorQueue, mirrorDrops := t.fab.mirrorDrops
      twin := { s.fab.twin with heardAt := t.fab.twin.heardAt } } }

/-- `t` is `s` after the link of lane `l`, a lane of port `p`, has accepted a unit, which may have been mirrored and metered there. -/
structure Arrived (s t : State) (l p : Nat) (u : LinkUnit) : Prop where
  rest : t = arrivedAs s t
  lane : laneAt t l = acceptedLane (laneAt s l) u s.now
  lanes : ∀ j, j ≠ l → laneAt t j = laneAt s j
  port : portAt t p = { portAt s p with
    usedRx := (portAt t p).usedRx, mirrorSeq := (portAt t p).mirrorSeq, meters := (portAt t p).meters }
  ports : ∀ j, j ≠ p → portAt t j = portAt s j
  home : portOf t l = some p
  listed : ∀ j, isLanePort t j = isLanePort s j
  owned : ∀ j, (portOf t j).isSome = (portOf s j).isSome

section Arrival

variable {s t : State} {l p : Nat} {u : LinkUnit}

theorem arrived_of_onlyLane (hp : portOf s l = some p) (h : OnlyLane s t l (acceptedLane (laneAt s l) u s.now))
    (hd : t.dbg = s.dbg) : Arrived s t l p u := by
  obtain ⟨hl, hothers, hrest⟩ := h
  have ht : t = { s with fab := { s.fab with lanes := t.fab.lanes } } := by rw [← hd]; exact hrest
  have hports : t.fab.ports = s.fab.ports := (congrArg (·.fab.ports) ht :)
  have hat (j : Nat) : portAt t j = portAt s j := by unfold portAt; rw [hports]
  have hof (j : Nat) : portOf t j = portOf s j := by unfold portOf; rw [hports]
  exact ⟨(congrArg (arrivedAs · t) ht :), hl, hothers, by rw [hat], fun j _ => hat j, hof l ▸ hp,
    fun j => by unfold isLanePort; rw [hports], fun j => by rw [hof]⟩

/-- A change of what arrival may change beside lanes and ports. -/
theorem Arrived.congr {t' : State} (h : Arrived s t l p u) (hr : t' = arrivedAs s t') (hl : t'.fab.lanes = t.fab.lanes)
    (hp : t'.fab.ports = t.fab.ports) : Arrived s t' l p u := by
  have hlane (j : Nat) : laneAt t' j = laneAt t j := by unfold laneAt; rw [hl]
  have hat (j : Nat) : portAt t' j = portAt t j := by unfold portAt; rw [hp]
  have hof (j : Nat) : portOf t' j = portOf t j := by unfold portOf; rw [hp]
  exact ⟨hr, hlane l ▸ h.lane, fun j hj => hlane j ▸ h.lanes j hj, hat p ▸ h.port, fun j hj => hat j ▸ h.ports j hj,
    hof l ▸ h.home, fun j => by unfold isLanePort; rw [hp]; exact h.listed j, fun j => hof j ▸ h.owned j⟩

theorem acceptSeq_eq : acceptSeq s l u = noteAccepted (setLane s l (fun L => { acceptedLane L u s.now with cnt := L.cnt })) l := rfl

theorem arrived_acceptSeq (hp : portOf s l = some p) : Arrived s (acceptSeq s l u) l p u := by
  have hlane : OnlyLane s (cntLane (setLane s l (fun L => { acceptedLane L u s.now with cnt := L.cnt })) l 0 1) l
      (acceptedLane (laneAt s l) u s.now) := onlyLane_setLane.setLane (f := fun L => { L with cnt := bumpAt L.cnt 0 1 })
  have h := arrived_of_onlyLane hp hlane rfl
  rw [acceptSeq_eq]
  unfold noteAccepted
  dsimp only
  split
  · exact h.congr rfl rfl rfl
  · exact h

theorem Arrived.setPort {f : Port → Port} (h : Arrived s t l p u)
    (hf : ∀ P, f P = { P with usedRx := (f P).usedRx, mirrorSeq := (f P).mirrorSeq, meters := (f P).meters }) :
    Arrived s (setPort t p f) l p u where
  rest := (congrArg (fun x : State => { x with fab := { x.fab with ports := (Machine.setPort t p f).fab.ports } }) h.rest :)
  lane := h.lane
  lanes := h.lanes
  port := by
    rw [portAt_setPort, if_pos rfl, hf, h.port]
  ports j hj := by rw [portAt_setPort, if_neg (Ne.symm hj), h.ports j hj]
  home := portOf_setPort (fun P => by rw [hf]) h.home
  listed j := (isLanePort_setPort (mem_ports_of_portOf h.home) j).trans (h.listed j)
  owned j := (portOf_setPort_isSome (fun P => by rw [hf]) (mem_ports_of_portOf h.home) j).trans (h.owned j)

theorem Arrived.mirrorUnit (h : Arrived s t l p u) {v : LinkUnit} : Arrived s (mirrorUnit t p v) l p u := by
  unfold Machine.mirrorUnit
  extract_lets P k n c s' f r
  have hs : Arrived s s' l p u := h.setPort (fun _ => rfl)
  split
  · exact hs
  · split
    · exact hs.congr (congrArg (fun x : State => { x with fab := { x.fab with mirrorDrops := satAdd s'.fab.mirrorDrops 1 } }) hs.rest :) rfl rfl
    · exact hs.congr (congrArg (fun x : State => { x with fab := { x.fab with mirrorQueue := s'.fab.mirrorQueue ++ [r] } }) hs.rest :) rfl rfl

/-- The meter changes nothing but its port's meters. -/
theorem Arrived.meterUnit (h : Arrived s t l p u) {v : LinkUnit} : Arrived s (meterUnit t p v).1 l p u := by
  unfold Machine.meterUnit
  dsimp only
  split
  · generalize meterColour _ _ _ _ _ = colour
    obtain ⟨c, M⟩ := colour
    exact h.setPort (f := fun P => { P with meters := insertKey P.meters v.job _ }) (fun _ => rfl)
  · exact h

theorem Arrived.beyondFabric_eq (h : Arrived s t l p u) : beyondFabric t = beyondFabric s := (congrArg beyondFabric h.rest :)

/-! ### Checks 4 to 7 after acceptance -/

/-- An arriving unit's lane keeps its state and its peer's identity. -/
theorem Arrived.lane_keeps (h : Arrived s t l p u) (j : Nat) :
    (laneAt t j).st = (laneAt s j).st ∧ (laneAt t j).idleWord = (laneAt s j).idleWord ∧ (laneAt t j).tx = (laneAt s j).tx := by
  by_cases hj : j = l
  · rw [hj, h.lane]
    exact ⟨rfl, rfl, rfl⟩
  · rw [h.lanes j hj]
    exact ⟨rfl, rfl, rfl⟩

/-- A port keeps everything but its use, its mirror count and its meters. -/
theorem Arrived.port_keeps {α : Type} {g : Port → α} (h : Arrived s t l p u) (j : Nat)
    (hg : ∀ P a b c, g { P with usedRx := a, mirrorSeq := b, meters := c } = g P) : g (portAt t j) = g (portAt s j) := by
  by_cases hj : j = p
  · rw [hj, h.port, hg]
  · rw [h.ports j hj]

theorem Arrived.portLanes_eq (h : Arrived s t l p u) (j : Nat) : portLanes t j = portLanes s j := by
  unfold portLanes
  rw [h.port_keeps (g := Port.lanes) j (fun _ _ _ _ => rfl)]

theorem Arrived.portUp_eq (h : Arrived s t l p u) (j : Nat) : portUp t j = portUp s j := by
  unfold portUp
  rw [h.listed, h.portLanes_eq]
  simp only [(h.lane_keeps _).1]

theorem Arrived.typeAllowed_eq (h : Arrived s t l p u) (v : LinkUnit) : typeAllowed t l v = typeAllowed s l v := by
  unfold typeAllowed recoveryPeer
  rw [(h.lane_keeps l).2.1, show t.fab.moduleIndex = s.fab.moduleIndex from (congrArg (·.fab.moduleIndex) h.rest :)]

theorem Arrived.unitEntry_eq (h : Arrived s t l p u) : unitEntry t = unitEntry s := by
  rw [h.rest]
  rfl

theorem Arrived.routeOf_eq (h : Arrived s t l p u) (v : LinkUnit) : routeOf t v = routeOf s v := by
  have hd : hasDie t = hasDie s := by rw [h.rest]; rfl
  have hf : forwardOnly t = forwardOnly s := by rw [h.rest]; rfl
  have ho := h.owned (hopAt v (hopPtr v))
  unfold routeOf
  rw [hd, hf, h.unitEntry_eq]
  dsimp only
  rw [h.listed, h.portUp_eq]
  cases ht : portOf t (hopAt v (hopPtr v)) <;> cases hs : portOf s (hopAt v (hopPtr v)) <;> simp_all

theorem Arrived.activeList_eq (h : Arrived s t l p u) (j : Nat) : activeList t j = activeList s j := by
  unfold activeList
  rw [h.port_keeps (g := Port.gate) j (fun _ _ _ _ => rfl), show t.fab.tim = s.fab.tim from (congrArg (·.fab.tim) h.rest :)]

theorem Arrived.tooOld_eq (h : Arrived s t l p u) (d : Dest) (v : LinkUnit) : tooOld t d v = tooOld s d v := by
  have hc : classGated t = classGated s := by rw [h.rest]; rfl
  have ha : t.fab.ageLimit = s.fab.ageLimit := (congrArg (·.fab.ageLimit) h.rest :)
  have hn : t.fabricTime = s.fabricTime := (congrArg State.fabricTime h.rest :)
  unfold tooOld isGated
  rw [hc, ha, hn]
  cases d <;> simp only [h.activeList_eq, show t.fab.tim = s.fab.tim from (congrArg (·.fab.tim) h.rest :)]

theorem Arrived.frozenFor_eq (h : Arrived s t l p u) : frozenFor t = frozenFor s := by
  rw [h.rest]
  rfl

theorem Arrived.bpmAt_eq (h : Arrived s t l p u) : bpmAt t = bpmAt s := by
  rw [h.rest]
  rfl

theorem Arrived.slotsUsed_eq (h : Arrived s t l p u) (q : Nat) : slotsUsed t q = slotsUsed s q := by
  unfold slotsUsed
  rw [h.port_keeps (g := Port.out) q (fun _ _ _ _ => rfl), h.portLanes_eq]
  simp only [(h.lane_keeps _).2.2]

end Arrival

/-! ### The ingress of an accepted unit -/

section Ingress

variable {s : State} {l p k : Nat} {u : LinkUnit} {d : Dest}

/-- A unit accepted by its link, with the credit that it uses taken (R352). -/
def charged (s : State) (l p : Nat) (u : LinkUnit) : State :=
  setPort (acceptSeq s l u) p (fun P => { P with usedRx := P.usedRx.modify (unitClass u) (fun x => (x + unitCost u) % 2 ^ 32) })

theorem arrived_charged (hp : portOf s l = some p) : Arrived s (charged s l p u) l p u := by
  refine (arrived_acceptSeq hp).setPort ?_
  exact fun _ => rfl

theorem portAt_acceptSeq (j : Nat) : portAt (acceptSeq s l u) j = portAt s j := by
  unfold acceptSeq noteAccepted
  dsimp only
  split <;> rfl

theorem portAt_charged : portAt (charged s l p u) p = { portAt s p with
    usedRx := (portAt s p).usedRx.modify (unitClass u) (fun x => (x + unitCost u) % 2 ^ 32) } := by
  rw [charged, portAt_setPort, if_pos rfl, portAt_acceptSeq]

/-- A unit that fails one of checks 4 to 7 is discarded with that check's counter. -/
theorem ingress_discard (hp : portOf s l = some p) (hk : discardCode s p l u = some k) :
    ingress (acceptSeq s l u) l p u = discard (charged s l p u) l k u := by
  have h : Arrived s (charged s l p u) l p u := arrived_charged hp
  unfold ingress
  dsimp only
  rw [portAt_acceptSeq, show setPort (acceptSeq s l u) p _ = charged s l p u from rfl, h.typeAllowed_eq, h.routeOf_eq]
  unfold discardCode at hk
  split at hk
  next hc => rw [if_pos hc, ← Option.some.inj hk]
  next hc =>
    rw [if_neg hc]
    split at hk
    next ha => rw [if_pos ha, ← Option.some.inj hk]
    next ha =>
      rw [if_neg ha]
      cases hr : routeOf s u with
      | error n =>
        rw [hr] at hk
        exact congrArg (discard (charged s l p u) l · u) (Option.some.inj hk)
      | ok x =>
        rw [hr] at hk
        dsimp only at hk ⊢
        rw [h.tooOld_eq]
        by_cases ho : tooOld s x u = true
        · rw [if_pos ho] at hk ⊢
          rw [← Option.some.inj hk]
        · rw [if_neg ho] at hk
          cases hk

/-- A MIRROR unit fails check 5 at the latest (R345). -/
theorem discardCode_mirror {v : LinkUnit} (hv : v.typ = 14) : discardCode s p l v = some 7 ∨ discardCode s p l v = some 8 := by
  have ha : typeAllowed s l v = false := by simp [typeAllowed, hv]
  unfold discardCode
  split
  · exact .inl rfl
  · exact .inr (by simp [ha])

theorem meters_mirrorUnit : (portAt (mirrorUnit s p u) p).meters = (portAt s p).meters := by
  unfold mirrorUnit
  extract_lets P k n c s' f r
  have hs : (portAt s' p).meters = (portAt s p).meters := by rw [portAt_setPort, if_pos rfl]
  split
  · exact hs
  · split <;> exact hs

/-- The colour of a unit follows from its port's meters. -/
theorem meterUnit_colour {t : State} (hm : (portAt t p).meters = (portAt s p).meters)
    (ho : (portAt t p).overhead = (portAt s p).overhead) (hp : t.fab.profiles = s.fab.profiles) (ht : t.fabricTime = s.fabricTime) :
    (meterUnit t p u).2 = (meterUnit s p u).2 := by
  unfold meterUnit
  dsimp only
  rw [hm, hp, ht, show chargeOf (portAt t p) u = chargeOf (portAt s p) u by unfold chargeOf; rw [ho]]
  split <;> rfl

/-- A unit that fails no check of R345, whose requester is not frozen and which its meter lets pass goes on to admission. -/
theorem ingress_delivered (h : Delivered s l p u d) : ∃ m y, Arrived s m l p u ∧ ingress (acceptSeq s l u) l p u = admitUnit m l p d u y := by
  have hc : Arrived s (charged s l p u) l p u := arrived_charged h.accepted.port
  have hm := hc.mirrorUnit (v := u)
  have hcredit := Nat.not_lt.mpr h.credit
  refine ⟨(meterUnit (mirrorUnit (charged s l p u) p u) p u).1, (meterUnit (mirrorUnit (charged s l p u) p u) p u).2 == 1, hm.meterUnit, ?_⟩
  have hcolour : (meterUnit (mirrorUnit (charged s l p u) p u) p u).2 ≠ 2 := by
    rw [meterUnit_colour (meters_mirrorUnit.trans (by rw [portAt_charged])) (hm.port_keeps p (fun _ _ _ _ => rfl))
      (congrArg (·.fab.profiles) hm.rest :) (congrArg State.fabricTime hm.rest :)]
    exact h.metered
  unfold ingress
  dsimp only
  rw [portAt_acceptSeq, show setPort (acceptSeq s l u) p _ = charged s l p u from rfl, if_neg hcredit, hc.typeAllowed_eq, h.allowed,
    hc.routeOf_eq, h.route]
  simp only [hc.tooOld_eq, h.young, hm.frozenFor_eq, h.thawed]
  generalize meterUnit _ _ _ = metered at hcolour ⊢
  obtain ⟨x, c⟩ := metered
  match c, hcolour with
  | 0, _ => rfl
  | 1, _ => rfl
  | c + 3, _ => rfl

end Ingress

/-- Settles O27: the lane and the port are those that acceptance leaves, with the counter and the returned credit. -/
theorem acceptedUnitsAreDiscardedAndCounted : Obligations.AcceptedUnitsAreDiscardedAndCounted := by
  unfold Obligations.AcceptedUnitsAreDiscardedAndCounted
  refine ⟨fun c l p u s k hc h hk => ⟨_, exec_unitOf hc, ?_⟩, fun s l p u => discardCode_mirror rfl⟩
  have ha : Arrived s (charged s l p u) l p u := arrived_charged h.port
  rw [receive_accepted h, ingress_discard h.port hk]
  have hd : discard (charged s l p u) l k u = cntLane (returnCredit (charged s l p u) p (unitClass u) (unitCost u)) l k 1 := by
    simp [discard, giveBack, ha.home]
  rw [hd]
  set m := charged s l p u with hm
  have hnow : m.now = s.now := (congrArg State.now ha.rest :)
  refine ⟨?lane, fun j hj => ?lanes, ?port, fun j hj => ?ports, ?bpm, ?coll, ?rest⟩
  case lane =>
    show laneAt (cntLane _ l k 1) l = _
    rw [cntLane, laneAt_setLane, if_pos rfl]
    exact congrArg (counted · k) ha.lane
  case lanes =>
    show laneAt (cntLane _ l k 1) j = _
    rw [cntLane, laneAt_setLane, if_neg (Ne.symm hj)]
    exact ha.lanes j hj
  case port =>
    show portAt (returnCredit m p (unitClass u) (unitCost u)) p = _
    rw [returnCredit, portAt_setPort, if_pos rfl, hm, portAt_charged]
    unfold creditDirty
    rw [hnow]
  case ports =>
    show portAt (returnCredit m p (unitClass u) (unitCost u)) j = _
    rw [returnCredit, portAt_setPort, if_neg (Ne.symm hj)]
    exact ha.ports j hj
  case bpm => exact (congrArg (·.fab.bpm) ha.rest :)
  case coll => exact (congrArg State.coll ha.rest :)
  case rest => exact FabricOnly.of_beyondFabric ((by simp : beyondFabric _ = beyondFabric m).trans ha.beyondFabric_eq)

end Sys2Proof.Machine
end

section
/-! What the charge of cells in a buffer instance changes (R372 to R377), the admission of a delivered unit (R366, R399), and
the obligation O28. -/

namespace Sys2Proof.Machine

/-! ### Cells of a buffer instance -/

/-- The state without what charges and returns of cells change: the instances, the credits of ports, the FAULT bit and the
numbers of allocations. -/
def stagingView (s : State) : State × (Nat → Port) :=
  ({ s with attn := s.attn ||| aFault, freeCtr := 0, fab := { s.fab with bpm := [], ports := [], nextAlloc := 0 } },
    fun p => creditless (portAt s p))

section Staging

variable {s t : State} {i p : Nat}

@[simp] theorem stagingView_setBpm {f : Bpm → Bpm} : stagingView (setBpm s i f) = stagingView s := rfl
@[simp] theorem stagingView_cntBpm {k n : Nat} : stagingView (cntBpm s i k n) = stagingView s := rfl
@[simp] theorem stagingView_setAttn_fault : stagingView (setAttn s aFault) = stagingView s := by
  have h : (setAttn s aFault).attn ||| aFault = s.attn ||| aFault := by
    simp [setAttn, BitVec.or_assoc]
  unfold stagingView
  rw [h]
  rfl

theorem stagingView_setPort {f : Port → Port} (hf : ∀ P, creditless (f P) = creditless P) :
    stagingView (setPort s p f) = stagingView s := by
  refine Prod.ext rfl (funext fun r => ?_)
  show creditless (portAt (setPort s p f) r) = creditless (portAt s r)
  rw [portAt_setPort]
  split
  next e => rw [hf, e]
  next => rfl

@[simp] theorem stagingView_returnCredit {c n : Nat} : stagingView (returnCredit s p c n) = stagingView s :=
  stagingView_setPort (fun _ => rfl)

@[simp] theorem stagingView_releaseWithheld : stagingView (releaseWithheld s i p) = stagingView s := by
  unfold releaseWithheld
  refine foldl_keeps (fun s e => foldl_keeps (fun s c => ?_) _ _) _ _
  dsimp only
  split
  · rfl
  · exact stagingView_returnCredit.trans (stagingView_setPort (fun _ => rfl))

theorem stagingView_ite {c : Prop} [Decidable c] {x y : State} (hx : stagingView x = stagingView s) (hy : stagingView y = stagingView s) :
    stagingView (if c then x else y) = stagingView s := by
  split
  · exact hx
  · exact hy

@[simp] theorem stagingView_relevel : stagingView (relevel s i p) = stagingView s := by
  unfold relevel
  extract_lets B P l s1 s2 s3 s4
  have h1 : stagingView s1 = stagingView s := stagingView_setBpm
  have h2 : stagingView s2 = stagingView s := stagingView_ite (stagingView_cntBpm.trans h1) h1
  have h3 : stagingView s3 = stagingView s := stagingView_ite (stagingView_cntBpm.trans h2) h2
  have h4 : stagingView s4 = stagingView s := stagingView_ite (stagingView_setAttn_fault.trans h3) h3
  exact stagingView_ite (stagingView_releaseWithheld.trans h4) h4

theorem stagingView_bpmAlloc {r n id : Nat} {hs : List Holder} (h : bpmAlloc s i r n hs = .ok t id) :
    stagingView t = stagingView s := by
  unfold bpmAlloc at h
  dsimp only at h
  split at h
  · cases h
  · split at h
    · injection h with ht _
      rw [← ht, stagingView_relevel, stagingView_cntBpm, stagingView_setBpm]
      rfl
    · cases h
    · cases h

@[simp] theorem stagingView_dropAlloc {id : Nat} : stagingView (dropAlloc s i id) = stagingView s := by
  unfold dropAlloc
  split <;> simp

@[simp] theorem stagingView_settleAlloc {id : Nat} : stagingView (settleAlloc s i id) = stagingView s := by
  unfold settleAlloc
  split
  · rfl
  · split <;> simp

@[simp] theorem stagingView_releaseHolder {id : Nat} {h : Holder} : stagingView (releaseHolder s i id h) = stagingView s := by
  unfold releaseHolder
  simp

@[simp] theorem stagingView_leaveAlloc {a : Option Nat} {c j : Nat} : stagingView (leaveAlloc s a p c j) = stagingView s := by
  unfold leaveAlloc
  split
  · rfl
  · split
    · rfl
    · split <;> simp

theorem beyondFabric_of_stagingView (h : stagingView t = stagingView s) : beyondFabric t = beyondFabric s :=
  congrArg (fun x => beyondFabric x.1) h

theorem laneAt_of_stagingView (h : stagingView t = stagingView s) : laneAt t = laneAt s := congrArg (fun x => laneAt x.1) h

theorem out_of_stagingView (h : stagingView t = stagingView s) (j : Nat) : (portAt t j).out = (portAt s j).out :=
  congrArg (fun x => (x.2 j).out) h

end Staging

/-! ### The allocations of an instance -/

section Allocs

variable {s t : State} {i p : Nat}

theorem allocs_setBpm {j : Nat} {f : Bpm → Bpm} (hf : ∀ B, (f B).allocs = B.allocs) :
    (bpmAt (setBpm s i f) j).allocs = (bpmAt s j).allocs := by
  rw [bpmAt_setBpm]
  split
  · exact hf _
  · rfl

theorem allocs_cntBpm {j k n : Nat} : (bpmAt (cntBpm s i k n) j).allocs = (bpmAt s j).allocs := allocs_setBpm (fun _ => rfl)

theorem bpm_releaseWithheld : (releaseWithheld s i p).fab.bpm = s.fab.bpm := by
  unfold releaseWithheld
  refine foldl_keeps (v := fun s : State => s.fab.bpm) (fun s e => foldl_keeps (v := fun s : State => s.fab.bpm) (fun s c => ?_) _ _) _ _
  dsimp only
  split <;> rfl

/-- The level of a pool holds no cells. -/
theorem allocs_relevel {j : Nat} : (bpmAt (relevel s i p) j).allocs = (bpmAt s j).allocs := by
  unfold relevel
  extract_lets B P l s1 s2 s3 s4
  have h1 : (bpmAt s1 j).allocs = (bpmAt s j).allocs := allocs_setBpm (fun _ => rfl)
  have h2 : (bpmAt s2 j).allocs = (bpmAt s j).allocs := by
    unfold s2; split
    · exact allocs_cntBpm.trans h1
    · exact h1
  have h3 : (bpmAt s3 j).allocs = (bpmAt s j).allocs := by
    unfold s3; split
    · exact allocs_cntBpm.trans h2
    · exact h2
  have h4 : (bpmAt s4 j).allocs = (bpmAt s j).allocs := by unfold s4; split <;> exact h3
  split
  · rw [bpmAt, bpm_releaseWithheld]
    exact h4
  · exact h4

/-- An instance that grants a request for cells is one of the module's. -/
theorem bpm_lt_of_room {n pool m : Nat} {r : Nat} (hp : poolFor (bpmAt s i) n = some (pool, m)) (ha : allocCheck (bpmAt s i) pool r m = 0) :
    i < s.fab.bpm.length := by
  by_contra hlt
  have hB : bpmAt s i = {} := List.getD_eq_default _ _ (Nat.not_lt.mp hlt)
  rw [hB] at hp ha
  obtain ⟨rfl, rfl⟩ : 0 = pool ∧ max 1 (ceilDiv n 256) = m := by simpa [poolFor] using hp
  have hpos : 0 < max 1 (ceilDiv n 256) := by omega
  have hquota : allocCheck {} 0 r (max 1 (ceilDiv n 256)) = 2 := by
    generalize max 1 (ceilDiv n 256) = m at hpos
    simp [allocCheck, quotaOf, usedBy, hpos, Nat.ne_of_gt hpos]
  exact absurd (hquota.symm.trans ha) (by decide)

/-- A request within its quota is granted: the allocation joins its instance. -/
theorem bpmAlloc_room {n pool m r : Nat} {hs : List Holder} (hp : poolFor (bpmAt s i) n = some (pool, m))
    (ha : allocCheck (bpmAt s i) pool r m = 0) : ∃ t, bpmAlloc s i r n hs = .ok t s.fab.nextAlloc ∧
      (bpmAt t i).allocs = (bpmAt s i).allocs ++
        [{ id := s.fab.nextAlloc, pool := pool, req := r, units := m, holders := hs, owner := r, draw := s.freeCtr }] := by
  have hlt := bpm_lt_of_room hp ha
  unfold bpmAlloc
  dsimp only
  rw [hp]
  dsimp only
  rw [ha]
  refine ⟨_, rfl, ?_⟩
  rw [allocs_relevel, allocs_cntBpm, bpmAt_setBpm, if_pos ⟨rfl, hlt⟩]
  rfl

end Allocs

/-! ### Cells for a delivered unit -/

/-- Below PRESS, cells for a frame are those that its requester's quota grants (R399). -/
theorem takeCells_room {s : State} {inst q p : Nat} {u : LinkUnit} {y : Bool} (h : StagingRoom s inst q u.job u.length) :
    ∃ t keep a, takeCells s inst q p u y = .ok t s.fab.nextAlloc keep ∧ stagingView t = stagingView s ∧
      (bpmAt t inst).allocs = (bpmAt s inst).allocs ++ [a] ∧ a.id = s.fab.nextAlloc ∧ a.req = reqId 0 q u.job := by
  obtain ⟨pool, n, hpool, hcheck, hlevel⟩ := h
  obtain ⟨t, ht, hallocs⟩ := bpmAlloc_room (hs := []) hpool hcheck
  unfold takeCells
  dsimp only
  rw [hpool]
  dsimp only
  rw [hcheck]
  have h2 : ¬2 ≤ ((bpmAt s inst).pools.getD pool {}).level := by omega
  have h3 : ¬3 ≤ ((bpmAt s inst).pools.getD pool {}).level := by omega
  simp only [h2, h3, decide_false, Bool.and_false, Bool.false_eq_true, if_false, ht]
  exact ⟨_, _, _, rfl, stagingView_bpmAlloc ht, hallocs, rfl, rfl⟩

/-! ### Admission of a delivered unit -/

section Admission

variable {s t : State} {l p : Nat} {u : LinkUnit} {d : Dest}

@[simp] theorem stagingView_giveBack {keep : List Nat} : stagingView (giveBack s l u keep) = stagingView s := by
  unfold giveBack
  split
  · rfl
  · split
    · exact stagingView_returnCredit
    · exact stagingView_ite stagingView_returnCredit (stagingView_setPort (fun _ => rfl))

@[simp] theorem bpmAt_giveBack {keep : List Nat} : bpmAt (giveBack s l u keep) = bpmAt s := by
  unfold giveBack
  split
  · rfl
  · split
    · rfl
    · dsimp only; split <;> rfl

/-- A unit before which nothing of its class waits is placed at once, and its credit goes back (R366, R377). -/
theorem admitUnit_placed {y : Bool} {keep : List Nat} (hf : (portAt s p).held.any (fun h => unitClass h.unit == unitClass u) = false)
    (h : place s l p d u y = .ok t keep) : admitUnit s l p d u y = giveBack t l u keep := by
  unfold admitUnit
  dsimp only
  rw [hf, h]
  rfl

/-- A delivered unit is placed at its destination. -/
theorem receive_delivered (h : Delivered s l p u d) : ∃ m y, Arrived s m l p u ∧
    ∀ t keep, place m l p d u y = .ok t keep → receive s l u = giveBack t l u keep := by
  obtain ⟨m, y, hm, he⟩ := ingress_delivered h
  refine ⟨m, y, hm, fun t keep ht => ?_⟩
  have hheld : (portAt m p).held.any (fun h => unitClass h.unit == unitClass u) = false := by
    rw [hm.port_keeps (g := Port.held) p (fun _ _ _ _ => rfl)]
    exact h.first
  rw [receive_accepted h.accepted, he, admitUnit_placed hheld ht]

theorem out_wakeTags {P : Port} : (wakeTags s p P u).out = P.out := by
  unfold wakeTags
  dsimp only
  split
  · rfl
  · split
    · rfl
    · split <;> rfl

/-- A queued entry stands last among its port's. -/
theorem out_enqueue {e : OutEntry} (j : Nat) :
    (portAt (enqueue s p e) j).out = if j = p then (portAt s p).out ++ [e] else (portAt s j).out := by
  unfold enqueue
  rw [portAt_setPort]
  by_cases hj : p = j
  · rw [if_pos hj, if_pos hj.symm, out_wakeTags]
  · rw [if_neg hj, if_neg (Ne.symm hj)]

@[simp] theorem beyondFabric_enqueue {e : OutEntry} : beyondFabric (enqueue s p e) = beyondFabric s := rfl

/-- The entry of a unit that is passed on to another port (R346, R366). -/
def passedOn (s : State) (l : Nat) (u : LinkUnit) : OutEntry :=
  { unit := advanceHop u, ready := s.fabricTime, alloc := if u.cell then none else some s.fab.nextAlloc, ingress := some l }

/-- A unit for another port joins that port's queue; a frame takes packet-buffer cells of its ingress port (R366, R368, R373). -/
theorem place_egress {q : Nat} {y : Bool} (hcell : u.cell = true → slotsUsed s q < 32)
    (hroom : u.cell = false → StagingRoom s 0 p u.job u.length) :
    ∃ r keep, place s l p (.egress q) u y = .ok (enqueue r q (passedOn s l u)) keep ∧ stagingView r = stagingView s ∧
      (u.cell = false → ∃ a, a ∈ (bpmAt r 0).allocs ∧ a.id = s.fab.nextAlloc ∧ a.req = reqId 0 p u.job) := by
  unfold place passedOn
  dsimp only
  cases hc : u.cell with
  | true =>
    rw [if_pos rfl, if_neg (Nat.not_le.mpr (hcell hc)), if_pos rfl]
    exact ⟨s, [], rfl, rfl, fun h => Bool.noConfusion h⟩
  | false =>
    obtain ⟨r, keep, a, hr, hv, hallocs, hid, hreq⟩ := takeCells_room (y := y) (p := p) (hroom hc)
    rw [if_neg Bool.false_ne_true, hr, if_neg Bool.false_ne_true]
    exact ⟨r, keep, rfl, hv, fun _ => ⟨a, by simp [hallocs], hid, hreq⟩⟩

end Admission

/-- Settles O28: acceptance, mirroring and metering change no queue; the unit joins the queue of its port, and the charge of its cells
changes credits and levels alone. -/
theorem unitsArePassedOn : Obligations.UnitsArePassedOn := by
  unfold Obligations.UnitsArePassedOn
  intro c l p u s q hc h hslots
  obtain ⟨m, y, hm, hplaced⟩ := receive_delivered h
  obtain ⟨r, keep, hr, hv, hcells⟩ := place_egress (s := m) (l := l) (p := p) (y := y) (fun h => hm.slotsUsed_eq q ▸ hslots h)
    (fun hf => by
      unfold StagingRoom
      rw [hm.bpmAt_eq]
      exact h.room hf)
  have hentry : passedOn m l u = passedOn s l u := by rw [hm.rest]; rfl
  have hnext : m.fab.nextAlloc = s.fab.nextAlloc := (congrArg (·.fab.nextAlloc) hm.rest :)
  refine ⟨_, exec_unitOf hc, ?_⟩
  rw [hplaced _ _ hr, hentry]
  have hlane : laneAt (giveBack (enqueue r q (passedOn s l u)) l u keep) = laneAt m :=
    (laneAt_of_stagingView stagingView_giveBack).trans (laneAt_of_stagingView hv :)
  have hout (j : Nat) : (portAt (giveBack (enqueue r q (passedOn s l u)) l u keep) j).out =
      if j = q then (portAt s q).out ++ [passedOn s l u] else (portAt s j).out := by
    rw [out_of_stagingView stagingView_giveBack, out_enqueue, out_of_stagingView hv, out_of_stagingView hv,
      hm.port_keeps (g := Port.out) q (fun _ _ _ _ => rfl), hm.port_keeps (g := Port.out) j (fun _ _ _ _ => rfl)]
  refine ⟨(congrFun hlane l).trans hm.lane, fun j hj => (congrFun hlane j).trans (hm.lanes j hj), (hout q).trans (if_pos rfl),
    fun j hj => (hout j).trans (if_neg hj), fun hf => ?cells, ?coll, ?rest⟩
  case cells =>
    obtain ⟨a, ha, hid, hreq⟩ := hcells hf
    refine ⟨a, ?_, hid.trans hnext, hreq⟩
    show a ∈ (bpmAt (giveBack (enqueue r q (passedOn s l u)) l u keep) 0).allocs
    rw [bpmAt_giveBack]
    exact ha
  all_goals
    have hbeyond : beyondFabric (giveBack (enqueue r q (passedOn s l u)) l u keep) = beyondFabric s :=
      (beyondFabric_of_stagingView stagingView_giveBack).trans
        ((beyondFabric_of_stagingView hv :).trans hm.beyondFabric_eq)
  case coll => exact (congrArg State.coll hbeyond :)
  case rest => exact FabricOnly.of_beyondFabric hbeyond

end Sys2Proof.Machine
end

section
/-! Collective units that their die holds (R129, R146, R443) and the obligation O31. -/

namespace Sys2Proof.Machine

/-! ### Lists of records with a key -/

section Records

variable {α : Type} {p q : α → Bool} {c : α}

/-- The record of a key after it was replaced, or joined its list. -/
theorem find_replace_self (hc : p c = true) (xs : List α) :
    (if xs.any p then xs.map (fun x => if p x then c else x) else xs ++ [c]).find? p = some c := by
  split
  next ha =>
    induction xs with
    | nil => simp at ha
    | cons x xs ih =>
      cases hx : p x with
      | true => simp [hx, hc]
      | false =>
        rw [List.any_cons, hx, Bool.false_or] at ha
        simp [hx, ih ha]
  next ha =>
    have hnone : xs.find? p = none := List.find?_eq_none.mpr (by simpa using ha)
    simp [List.find?_append, hnone, hc]

/-- The record of another key. -/
theorem find_replace_ne (hc : q c = false) (hpq : ∀ x, p x = true → q x = false) (xs : List α) :
    (if xs.any p then xs.map (fun x => if p x then c else x) else xs ++ [c]).find? q = xs.find? q := by
  have hmap : (xs.map (fun x => if p x then c else x)).find? q = xs.find? q := by
    induction xs with
    | nil => rfl
    | cons x xs ih =>
      rw [List.map_cons, List.find?_cons, List.find?_cons, ih]
      cases hx : p x with
      | true => simp [hc, hpq x hx]
      | false => simp
  split
  · exact hmap
  · simp [List.find?_append, hc]

end Records

/-! ### The input records of a collective -/

section Inputs

variable {c : Coll} {i : Inp} {r k : Nat}

theorem inpAt_key : (inpAt c r k).rank = r ∧ (inpAt c r k).chunk = k := by
  unfold inpAt
  cases h : c.inputs.find? (fun i => i.rank == r && i.chunk == k) with
  | none => exact ⟨rfl, rfl⟩
  | some x => simpa using List.find?_some h

theorem inpAt_putInp_self (hr : i.rank = r) (hk : i.chunk = k) : inpAt (putInp c i) r k = i := by
  subst hr hk
  unfold inpAt putInp
  dsimp only
  rw [find_replace_self (p := fun x : Inp => x.rank == i.rank && x.chunk == i.chunk) (by simp), Option.getD_some]

theorem inpAt_putInp_ne (h : (r, k) ≠ (i.rank, i.chunk)) : inpAt (putInp c i) r k = inpAt c r k := by
  have hne (x : Inp) (hx : (x.rank == i.rank && x.chunk == i.chunk) = true) : (x.rank == r && x.chunk == k) = false := by
    obtain ⟨hr, hk⟩ : x.rank = i.rank ∧ x.chunk = i.chunk := by simpa using hx
    rw [hr, hk, Bool.eq_false_iff]
    intro he
    obtain ⟨rfl, rfl⟩ : i.rank = r ∧ i.chunk = k := by simpa using he
    exact h rfl
  unfold inpAt putInp
  dsimp only
  rw [find_replace_ne (p := fun x : Inp => x.rank == i.rank && x.chunk == i.chunk) (hne i (by simp)) hne]

theorem isKey_putInp {j e o : Nat} (h : c.isKey j e o = true) : (putInp c i).isKey j e o = true := h

end Inputs

/-! ### Units that cross the packet buffer to their die -/

section Crossing

variable {s t : State} {l p q d : Nat} {u : LinkUnit}

theorem takeCells_alloc {i id : Nat} {y : Bool} {keep : List Nat} (h : takeCells s i q p u y = .ok t id keep) :
    bpmAlloc s i (reqId 0 q u.job) u.length [] = .ok t id := by
  unfold takeCells at h
  dsimp only at h
  split at h
  · cases h
  · split at h
    · split at h
      · cases h
      · split at h
        · cases h
        · split at h
          next hb => cases h; exact hb
          next => cases h
    · cases h

/-- A frame that crosses the packet buffer leaves what charges of its cells may change. -/
theorem crossBuffer_room {y : Bool} (h : StagingRoom s 0 p u.job u.length) :
    ∃ r id keep, crossBuffer s p u y = .ok r id keep ∧ chargeView r = chargeView s := by
  obtain ⟨t, keep, a, ht, -, -⟩ := takeCells_room (y := y) (p := p) h
  unfold crossBuffer
  rw [ht]
  exact ⟨_, _, _, rfl, chargeView_dropAlloc.trans (chargeView_bpmAlloc (takeCells_alloc ht))⟩

/-- A unit with room in the packet buffer goes on from a state that differs by its charge. -/
theorem crossing_room {y : Bool} {f : State → Adm} (h : u.cell = false → StagingRoom s 0 p u.job u.length) :
    ∃ r, chargeView r = chargeView s ∧ ∀ x k, f r = .ok x k → ∃ keep, crossing s p u y f = .ok x keep := by
  unfold crossing
  cases hc : u.cell with
  | true => exact ⟨s, rfl, fun x k hx => ⟨k, hx⟩⟩
  | false =>
    obtain ⟨r, id, keep, hr, hv⟩ := crossBuffer_room (y := y) (h hc)
    refine ⟨r, hv, fun x k hx => ⟨keep ++ k, ?_⟩⟩
    rw [if_neg Bool.false_ne_true, hr]
    dsimp only
    rw [hx]

theorem stagingView_of_chargeView (h : chargeView t = chargeView s) : stagingView t = stagingView s :=
  congrArg (fun x => (x.1, x.2.2)) h

end Crossing

/-! ### Checks of a collective unit after its arrival -/

section Judging

variable {s m : State} {l p ep : Nat} {u v : LinkUnit} {e : CollEntry}

theorem Arrived.collAt_eq (h : Arrived s m l p u) : collAt m = collAt s := by rw [h.rest]; rfl

/-- The epoch and the entry of a unit that is taken. -/
def Verdict.taken : Verdict → Option (Nat × CollEntry)
  | .drop _ => none
  | .take ep e => some (ep, e)

theorem Verdict.taken_iff {x : Verdict} : x.taken = some (ep, e) ↔ x = .take ep e := by
  cases x <;> simp [Verdict.taken]

theorem Arrived.judgeColl_taken (h : Arrived s m l p u) : (judgeColl m l v).taken = (judgeColl s l v).taken := by
  have hw : wrongHalf m l v = wrongHalf s l v := by
    unfold wrongHalf
    rw [(h.lane_keeps l).2.1, h.rest]
    rfl
  have he : epochOf m = epochOf s := by rw [h.rest]; rfl
  unfold judgeColl
  rw [h.unitEntry_eq, he, h.collAt_eq, hw]
  cases unitEntry s v with
  | none => rfl
  | some e =>
    cases epochOf s v.job v.epoch with
    | none => rfl
    | some ep => dsimp only; split_ifs <;> rfl

theorem Arrived.heldCheck_isNone (h : Arrived s m l p u) : (heldCheck m l ep e v).isNone = (heldCheck s l ep e v).isNone := by
  unfold heldCheck
  rw [h.collAt_eq]
  dsimp only
  split_ifs
  · rfl
  · rfl
  · rfl
  · rfl
  · split
    · rfl
    · split <;> rfl

theorem Arrived.digestCheck_isNone (h : Arrived s m l p u) : (digestCheck m ep e v).isNone = (digestCheck s ep e v).isNone := by
  unfold digestCheck
  rw [h.collAt_eq]
  dsimp only
  split_ifs <;> rfl

theorem Arrived.overQuota_eq (h : Arrived s m l p u) : overQuota m = overQuota s := by rw [h.rest]; rfl

end Judging

/-! ### Units placed at their die -/

section Placing

variable {s : State} {l p q d ep : Nat} {u : LinkUnit} {e : CollEntry}

/-- A frame that has crossed the packet buffer takes cells of its die's staging memory and is held for its input. -/
def stageFrame (inst q p ep : Nat) (e : CollEntry) (u : LinkUnit) (y : Bool) (s : State) : Adm :=
  match takeCells s inst q p u y with
  | .hold => .hold
  | .gone s => .gone s
  | .ok s id keep => .ok (if u.typ = 2 then placeDigest s ep e u (some (inst, id)) else placeFrame s ep e u (some (inst, id))) keep

/-- A DATA, COUNTS or DIGEST frame that its checks let through is held in staging memory of its die. -/
theorem deliverDie_frame {y : Bool} (h1 : u.typ ≠ 1) (h12 : u.typ ≠ 12) (hj : judgeColl s l u = .take ep e)
    (hc : (if u.typ = 2 then digestCheck s ep e u else heldCheck s l ep e u) = none)
    (hquota : overQuota s u.job (if isEarly (collAt s u.job ep e.ordinal) e u then earlyCells u else 0) = false)
    (hroom : u.cell = false → StagingRoom s 0 p u.job u.length) (hstage : StagingRoom s (1 + entryDie e) q u.job u.length) :
    ∃ r a keep, deliverDie s l p q d u y = .ok (if u.typ = 2 then placeDigest r ep e u (some a) else placeFrame r ep e u (some a)) keep ∧
      stagingView r = stagingView s := by
  obtain ⟨x, hx, hcross⟩ := crossing_room (p := p) (y := y) (f := stageFrame (1 + entryDie e) q p ep e u y) hroom
  have hstage' : StagingRoom x (1 + entryDie e) q u.job u.length := by
    unfold StagingRoom
    rw [show bpmAt x (1 + entryDie e) = bpmAt s (1 + entryDie e) by
      rw [Nat.add_comm]; exact congrArg (·.2.1 (entryDie e)) hx]
    exact hstage
  obtain ⟨r, keep, a, hr, hv, -⟩ := takeCells_room (y := y) (p := p) hstage'
  have hstaged : stageFrame (1 + entryDie e) q p ep e u y x = .ok (if u.typ = 2 then
      placeDigest r ep e u (some (1 + entryDie e, x.fab.nextAlloc)) else placeFrame r ep e u (some (1 + entryDie e, x.fab.nextAlloc)))
      keep := by
    unfold stageFrame
    rw [hr]
  obtain ⟨keep', hplaced⟩ := hcross _ keep hstaged
  refine ⟨r, (1 + entryDie e, x.fab.nextAlloc), keep', ?_, hv.trans (stagingView_of_chargeView hx)⟩
  unfold deliverDie
  split
  next h => exact absurd h h12
  next h => exact absurd h h1
  next =>
    rw [hj]
    dsimp only
    rw [hc]
    dsimp only
    rw [hquota, if_neg Bool.false_ne_true]
    exact hplaced

/-- An express cell that its checks let through is held in a staging cell of its die. -/
theorem deliverDie_express {y : Bool} (h1 : u.typ = 1) (hj : judgeColl s l u = .take ep e) (hd : expressDiffers e u = false)
    (hx : (collAt s u.job ep e.ordinal).express.any (fun x => x.rank == u.rank) = false)
    (hquota : overQuota s u.job (if (collAt s u.job ep e.ordinal).eligible then 0 else 1) = false)
    (hstage : StagingRoom s (1 + entryDie e) q u.job 256) :
    ∃ r a keep, deliverDie s l p q d u y = .ok (placeExpress r ep e u a) keep ∧ stagingView r = stagingView s := by
  obtain ⟨r, keep, a, hr, hv, -⟩ := takeCells_room (u := { u with length := 256 }) (y := y) (p := p) hstage
  refine ⟨r, (1 + entryDie e, s.fab.nextAlloc), keep, ?_, hv⟩
  unfold deliverDie
  have hq : (!(collAt s u.job ep e.ordinal).eligible && overQuota s u.job 1) = false := by
    cases he : (collAt s u.job ep e.ordinal).eligible with
    | true => rfl
    | false =>
      rw [he] at hquota
      exact hquota
  split
  next h => exact absurd (h1.symm.trans h) (by decide)
  next =>
    rw [hj]
    dsimp only
    rw [hd, hx, hq, hr]
    rfl
  next h => exact absurd h1 h

/-- What holding a unit of a collective leaves: the collective's record changed by a function that keeps its key. -/
def heldAs (r : State) (job ep ord n : Nat) (f : Coll → Coll) : State := setColl (chargeEarly r job n) job ep ord f

theorem collAt_heldAs {r : State} {job ord n : Nat} {f : Coll → Coll} (hr : stagingView r = stagingView s)
    (hf : ∀ c : Coll, c.isKey job ep ord = true → (f c).isKey job ep ord = true) :
    collAt (heldAs r job ep ord n f) job ep ord = f (collAt s job ep ord) := by
  have hc : collAt (chargeEarly r job n) = collAt s := congrArg (fun x => collAt x.1) hr
  unfold heldAs
  rw [collAt_setColl_self (hf _ isKey_collAt), hc]

/-- An input whose DIGEST has not come is not answered. -/
theorem answerInput_undigested {s : State} {job ord r k : Nat} {b : Bool} (h : (inpAt (collAt s job ep ord) r k).digest = none) :
    answerInput s job ep ord r k b = s := by
  unfold answerInput
  split
  · dsimp only
    split
    next _ hd => rw [h] at hd; cases hd
    next => rfl
  · rfl

/-- An input of which a frame that its DIGEST counts is missing is not answered before SHORT_WAIT_US has passed. -/
theorem answerInput_short {s : State} {job ord r k : Nat} {x : HeldDigest} (hd : (inpAt (collAt s job ep ord) r k).digest = some x)
    (hm : (List.range x.count).any (fun n => !((inpAt (collAt s job ep ord) r k).frames.any (fun f => f.seq == n))) = true) :
    answerInput s job ep ord r k false = s := by
  unfold answerInput
  split
  · dsimp only
    split
    next _ hd' =>
      cases Option.some.inj (hd.symm.trans hd')
      rw [hm]
      simp
    next => rfl
  · rfl

end Placing

/-! ### The module beyond its fabric and its collectives -/

/-- The state without its fabric, event rings, attention bits, free values, trace and collectives. -/
def beyondColl (s : State) : State := { beyondFabric s with coll := {} }

theorem KeepsData.of_beyondColl {s t : State} (h : beyondColl t = beyondColl s) : KeepsData s t where
  mem := (congrArg (·.comp.mem) h :)
  regs q := (congrArg (regsOf · q) h :)
  fpVec := (congrArg (·.comp.fpVec) h :)
  fpMtx := (congrArg (·.comp.fpMtx) h :)
  fpRde := (congrArg (·.comp.fpRde) h :)
  tops := (congrArg State.tops h :)
  pwr := (congrArg State.pwr h :)
  mgt := (congrArg State.mgt h :)

theorem beyondColl_of_beyondFabric {s t : State} (h : beyondFabric t = beyondFabric s) : beyondColl t = beyondColl s :=
  congrArg (fun x : State => { x with coll := {} }) h

theorem beyondColl_heldAs {s r : State} {job ep ord n : Nat} {f : Coll → Coll} (hr : stagingView r = stagingView s) :
    beyondColl (heldAs r job ep ord n f) = beyondColl s :=
  (beyondColl_of_beyondFabric (beyondFabric_of_stagingView hr) :)

/-! ### The input record with a unit more -/

/-- An input that holds a frame more, which charges `n` early-arrival cells and lies in the allocations `a` (R129, R152). -/
def Inp.withFrame (i : Inp) (u : LinkUnit) (n : Nat) (a : List (Nat × Nat)) : Inp :=
  { i with
    frames := i.frames.filter (fun x => x.seq != u.flowSeq) ++ [{
      seq := u.flowSeq, payload := u.payload, inject := u.inject, resend := natBit u.flags 2, check := natField u.res 15 14 }]
    early := i.early + n, allocs := i.allocs ++ a }

/-- The DIGEST that a unit carries, held since `now` or since an earlier one came (R156, R442). -/
def digestOf (u : LinkUnit) (old : Option HeldDigest) (now : Nat) : HeldDigest :=
  { crc := leVal (u.payload.take 8), count := leVal (slice u.payload 8 2), clean := natBit (leVal (slice u.payload 10 1)) 0
    retRoute := beVal (slice u.payload 16 10), inject := u.inject, since := match old with | some d => d.since | none => now }

/-- An input that holds a DIGEST. -/
def Inp.withDigest (i : Inp) (u : LinkUnit) (now time n : Nat) (a : List (Nat × Nat)) : Inp :=
  { i with
    digest := some (digestOf u i.digest now), arrival := match i.digest with | some _ => i.arrival | none => time
    early := i.early + n, allocs := i.allocs ++ a }

section Held

variable {s r : State} {ep : Nat} {u : LinkUnit} {e : CollEntry} {a : Option (Nat × Nat)}

theorem inpAt_heldAs {job rank chunk ord n : Nat} {i : Inp} {x : Coll → Coll} (hr : stagingView r = stagingView s)
    (hi : i.rank = rank ∧ i.chunk = chunk) (hx : ∀ c, (x c).inputs = (putInp c i).inputs)
    (hf : ∀ c : Coll, c.isKey job ep ord = true → (x c).isKey job ep ord = true) :
    inpAt (collAt (heldAs r job ep ord n x) job ep ord) rank chunk = i := by
  rw [collAt_heldAs hr hf]
  unfold inpAt
  rw [hx]
  exact inpAt_putInp_self hi.1 hi.2

/-- A frame of an input whose DIGEST has not come is held, and no more is done. -/
theorem placeFrame_undigested (hd : (inpAt (collAt r u.job ep e.ordinal) u.rank u.chunk).digest = none) :
    ∃ n, placeFrame r ep e u a = heldAs r u.job ep e.ordinal n
      (fun c => putInp c ((inpAt (collAt r u.job ep e.ordinal) u.rank u.chunk).withFrame u n a.toList)) := by
  have hi {n : Nat} := inpAt_heldAs (r := r) (n := n) (job := u.job) (ord := e.ordinal) (ep := ep)
    (i := (inpAt (collAt r u.job ep e.ordinal) u.rank u.chunk).withFrame u n a.toList)
    (x := fun c => putInp c ((inpAt (collAt r u.job ep e.ordinal) u.rank u.chunk).withFrame u n a.toList))
    rfl (inpAt_key (c := collAt r u.job ep e.ordinal)) (fun _ => rfl) (fun _ hk => hk)
  exact ⟨_, answerInput_undigested (s := heldAs r u.job ep e.ordinal _ _) ((congrArg Inp.digest hi).trans hd)⟩

/-- A collective whose input holds a DIGEST, with the DIGEST's return route noted (R442). -/
def Coll.withDigest (i : Inp) (ret : Nat) (c : Coll) : Coll :=
  { putInp c i with retRoutes := (c.retRoutes ++ [ret]).eraseDups }

/-- A DIGEST that counts a frame which is missing is held, and no more is done. -/
theorem placeDigest_short (hm : (List.range (leVal (slice u.payload 8 2))).any (fun k =>
      !((inpAt (collAt r u.job ep e.ordinal) u.rank u.chunk).frames.any (fun f => f.seq == k))) = true) :
    ∃ n, placeDigest r ep e u a = heldAs r u.job ep e.ordinal n (Coll.withDigest
      ((inpAt (collAt r u.job ep e.ordinal) u.rank u.chunk).withDigest u r.now r.fabricTime n a.toList) (beVal (slice u.payload 16 10))) := by
  have hi {n : Nat} := inpAt_heldAs (r := r) (n := n) (job := u.job) (ord := e.ordinal) (ep := ep)
    (i := (inpAt (collAt r u.job ep e.ordinal) u.rank u.chunk).withDigest u r.now r.fabricTime n a.toList)
    (x := Coll.withDigest ((inpAt (collAt r u.job ep e.ordinal) u.rank u.chunk).withDigest u r.now r.fabricTime n a.toList)
      (beVal (slice u.payload 16 10)))
    rfl (inpAt_key (c := collAt r u.job ep e.ordinal)) (fun _ => rfl) (fun _ hk => hk)
  refine ⟨_, answerInput_short (s := heldAs r u.job ep e.ordinal _ _)
    (x := digestOf u (inpAt (collAt r u.job ep e.ordinal) u.rank u.chunk).digest r.now) (congrArg Inp.digest hi) ?_⟩
  exact (congrArg (fun i : Inp => (List.range (leVal (slice u.payload 8 2))).any (fun k => !(i.frames.any (fun f => f.seq == k)))) hi).trans hm

end Held

/-! ### The obligation -/

section Deliveries

variable {s : State} {l p q d ep : Nat} {u : LinkUnit} {e : CollEntry}

/-- A delivered frame of a collective is held by `placeDigest` or `placeFrame` from a state that differs by its arrival. -/
theorem receive_frame (h : Delivered s l p u (.die q d)) (h1 : u.typ ≠ 1) (h12 : u.typ ≠ 12) (hcell : u.cell = false)
    (ht : TakesColl s l u ep e) (hc : (if u.typ = 2 then digestCheck s ep e u else heldCheck s l ep e u) = none)
    (hstage : StagingRoom s (1 + entryDie e) q u.job u.length) : ∃ m r a keep, Arrived s m l p u ∧ stagingView r = stagingView m ∧
      receive s l u = giveBack (if u.typ = 2 then placeDigest r ep e u (some a) else placeFrame r ep e u (some a)) l u keep := by
  obtain ⟨m, y, hm, hplaced⟩ := receive_delivered h
  have hcheck : (if u.typ = 2 then digestCheck m ep e u else heldCheck m l ep e u) = none := by
    split at hc
    next h2 =>
      rw [if_pos h2, ← Option.isNone_iff_eq_none, hm.digestCheck_isNone, hc]
      rfl
    next h2 =>
      rw [if_neg h2, ← Option.isNone_iff_eq_none, hm.heldCheck_isNone, hc]
      rfl
  have hquota : overQuota m u.job (if isEarly (collAt m u.job ep e.ordinal) e u then earlyCells u else 0) = false := by
    have hq := ht.quota
    rw [hcell] at hq
    rw [hm.overQuota_eq, hm.collAt_eq]
    exact hq
  obtain ⟨r, a, keep, hr, hv⟩ := deliverDie_frame (l := l) (p := p) (d := d) (y := y) h1 h12
    (Verdict.taken_iff.mp (hm.judgeColl_taken.trans (Verdict.taken_iff.mpr ht.judged))) hcheck hquota
    (fun hf => by unfold StagingRoom; rw [hm.bpmAt_eq]; exact h.room hf) (by unfold StagingRoom; rw [hm.bpmAt_eq]; exact hstage)
  exact ⟨m, r, a, keep, hm, hv, hplaced _ _ hr⟩

/-- A delivered express cell is held by `placeExpress` from a state that differs by its arrival. -/
theorem receive_express (h : Delivered s l p u (.die q d)) (h1 : u.typ = 1) (hcell : u.cell = true) (ht : TakesColl s l u ep e)
    (hd : expressDiffers e u = false) (hx : (collAt s u.job ep e.ordinal).express.any (fun x => x.rank == u.rank) = false)
    (hstage : StagingRoom s (1 + entryDie e) q u.job 256) : ∃ m r a keep, Arrived s m l p u ∧ stagingView r = stagingView m ∧
      receive s l u = giveBack (placeExpress r ep e u a) l u keep := by
  obtain ⟨m, y, hm, hplaced⟩ := receive_delivered h
  have hquota : overQuota m u.job (if (collAt m u.job ep e.ordinal).eligible then 0 else 1) = false := by
    have hq := ht.quota
    rw [hcell] at hq
    rw [hm.overQuota_eq, hm.collAt_eq]
    exact hq
  obtain ⟨r, a, keep, hr, hv⟩ := deliverDie_express (l := l) (p := p) (d := d) (y := y) h1
    (Verdict.taken_iff.mp (hm.judgeColl_taken.trans (Verdict.taken_iff.mpr ht.judged))) hd (hm.collAt_eq ▸ hx) hquota
    (by unfold StagingRoom; rw [hm.bpmAt_eq]; exact hstage)
  exact ⟨m, r, a, keep, hm, hv, hplaced _ _ hr⟩

end Deliveries

section Outcomes

variable {s m r : State} {l p ep job ord n : Nat} {u v : LinkUnit} {keep : List Nat} {f : Coll → Coll}

/-- Holding a unit changes nothing beyond the fabric and the collectives, and not the integrity state. -/
theorem keepsData_held (hm : Arrived s m l p u) (hr : stagingView r = stagingView m) :
    (traced s (giveBack (heldAs r job ep ord n f) l v keep)).integ = s.integ ∧
      KeepsData s (traced s (giveBack (heldAs r job ep ord n f) l v keep)) := by
  have hb : beyondColl (giveBack (heldAs r job ep ord n f) l v keep) = beyondColl s :=
    (beyondColl_of_beyondFabric (beyondFabric_of_stagingView stagingView_giveBack)).trans
      ((beyondColl_heldAs hr).trans (beyondColl_of_beyondFabric hm.beyondFabric_eq))
  exact ⟨(congrArg State.integ hb :), .of_beyondColl hb⟩

theorem collAt_held (hm : Arrived s m l p u) (hr : stagingView r = stagingView m)
    (hf : ∀ c : Coll, c.isKey job ep ord = true → (f c).isKey job ep ord = true) :
    collAt (traced s (giveBack (heldAs r job ep ord n f) l v keep)) job ep ord = f (collAt s job ep ord) := by
  have hg : collAt (giveBack (heldAs r job ep ord n f) l v keep) = collAt (heldAs r job ep ord n f) :=
    congrArg (fun x => collAt x.1) stagingView_giveBack
  show collAt (giveBack (heldAs r job ep ord n f) l v keep) job ep ord = _
  rw [hg, collAt_heldAs hr hf, hm.collAt_eq]

end Outcomes

/-- Settles O31: a unit that its checks let through is put into its input's record, and the rest of its way changes the fabric alone. -/
theorem collectiveUnitsAreHeld : Obligations.CollectiveUnitsAreHeld := by
  unfold Obligations.CollectiveUnitsAreHeld
  refine ⟨fun c n l p u s q d ep e hc h ht hcheck hd hstage => ?frame, fun l p u s q d ep e h ht hcheck hshort hstage => ?digest,
    fun l p u s q d ep e h ht hdiffers hx hstage => ?express⟩
  case frame =>
    have hn : n ≠ 1 ∧ n ≠ 12 ∧ n ≠ 2 ∧ isCellType n = false := by
      rcases hc with ⟨-, rfl⟩ | ⟨-, rfl⟩ <;> decide
    have hunit : unitOf c = some (l, asType n u) := by
      rcases hc with ⟨rfl, rfl⟩ | ⟨rfl, rfl⟩ <;> rfl
    obtain ⟨m, r, a, keep, hm, hr, he⟩ := receive_frame h hn.1 hn.2.1 hn.2.2.2 ht ((if_neg hn.2.2.1).trans hcheck) hstage
    have hcoll : collAt r = collAt s := (congrArg (fun x => collAt x.1) hr).trans hm.collAt_eq
    obtain ⟨k, hp⟩ := placeFrame_undigested (r := r) (u := asType n u) (a := some a) (by rw [hcoll]; exact hd)
    refine ⟨_, exec_unitOf hunit, ?_⟩
    rw [he, show (if (asType n u).typ = 2 then placeDigest r ep e (asType n u) (some a) else placeFrame r ep e (asType n u) (some a)) = _
      from (if_neg hn.2.2.1).trans hp]
    have hres := collAt_held (s := s) (v := asType n u) (keep := keep) (n := k) (job := u.job) (ord := e.ordinal) (ep := ep)
      (f := fun c => putInp c ((inpAt (collAt r u.job ep e.ordinal) u.rank u.chunk).withFrame (asType n u) k [a])) hm hr
      (fun _ hk => hk)
    obtain ⟨hrank, hchunk⟩ := inpAt_key (c := collAt r u.job ep e.ordinal) (r := u.rank) (k := u.chunk)
    refine ⟨(congrArg (fun c => (inpAt c u.rank u.chunk).frames) hres).trans ?_, fun j k hjk => (congrArg (inpAt · j k) hres).trans ?_,
      keepsData_held hm hr⟩
    · rw [hcoll] at hrank hchunk ⊢
      exact congrArg Inp.frames (inpAt_putInp_self (i := Inp.withFrame _ (asType n u) k [a]) hrank hchunk)
    · refine inpAt_putInp_ne ?_
      rw [show (Inp.withFrame _ _ _ _).rank = u.rank from hrank, show (Inp.withFrame _ _ _ _).chunk = u.chunk from hchunk]
      exact hjk
  case digest =>
    obtain ⟨m, r, a, keep, hm, hr, he⟩ := receive_frame h (by decide : 2 ≠ 1) (by decide : 2 ≠ 12) rfl ht ((if_pos rfl).trans hcheck) hstage
    have hcoll : collAt r = collAt s := (congrArg (fun x => collAt x.1) hr).trans hm.collAt_eq
    have hnow : r.now = s.now := (congrArg (fun x => x.1.now) hr).trans (congrArg State.now hm.rest :)
    have htime : r.fabricTime = s.fabricTime := (congrArg (fun x => x.1.fabricTime) hr).trans (congrArg State.fabricTime hm.rest :)
    obtain ⟨k, hp⟩ := placeDigest_short (r := r) (ep := ep) (e := e) (u := asType 2 u) (a := some a) (by rw [hcoll]; exact hshort)
    refine ⟨_, exec_unitOf (c := .digestFrame l u) rfl, ?_⟩
    rw [he, show (if (asType 2 u).typ = 2 then placeDigest r ep e (asType 2 u) (some a) else placeFrame r ep e (asType 2 u) (some a)) = _
      from (if_pos rfl).trans hp]
    obtain ⟨hrank, hchunk⟩ := inpAt_key (c := collAt r u.job ep e.ordinal) (r := u.rank) (k := u.chunk)
    have hres := collAt_held (s := s) (v := asType 2 u) (keep := keep) (n := k) (job := u.job) (ord := e.ordinal) (ep := ep)
      (f := Coll.withDigest ((inpAt (collAt r u.job ep e.ordinal) u.rank u.chunk).withDigest (asType 2 u) r.now r.fabricTime k [a])
        (beVal (slice u.payload 16 10))) hm hr (fun _ hk => hk)
    have hi := (congrArg (inpAt · u.rank u.chunk) hres).trans (inpAt_putInp_self (i := Inp.withDigest _ (asType 2 u) r.now r.fabricTime k [a])
      hrank hchunk)
    refine ⟨(congrArg Inp.digest hi).trans ?_, (congrArg Inp.frames hi).trans ?_, (congrArg Inp.arrival hi).trans ?_, keepsData_held hm hr⟩
    all_goals
      rw [← hcoll]
    · rw [← hnow]
      rfl
    · rfl
    · rw [← htime]
      rfl
  case express =>
    obtain ⟨m, r, a, keep, hm, hr, he⟩ := receive_express h rfl rfl ht hdiffers hx hstage
    have hcoll : collAt r = collAt s := (congrArg (fun x => collAt x.1) hr).trans hm.collAt_eq
    have htime : r.fabricTime = s.fabricTime := (congrArg (fun x => x.1.fabricTime) hr).trans (congrArg State.fabricTime hm.rest :)
    have hp : placeExpress r ep e (asType 1 u) a = heldAs r u.job ep e.ordinal _ _ := rfl
    refine ⟨_, exec_unitOf (c := .expressCell l u) rfl, ?_⟩
    rw [he, hp]
    refine ⟨(congrArg Coll.express (collAt_held hm hr ?_)).trans ?_, keepsData_held hm hr⟩
    · exact fun _ hk => hk
    · rw [← htime]
      rfl

end Sys2Proof.Machine
end

section
/-! What an abort keeps (R463, R464, R468), and the record that it leaves of its ordinal. -/

namespace Sys2Proof.Machine

/-- What an abort keeps: memory, the scalar state of every queue, the FPFLAGS registers, the Topiaries, and everything of the
module but its fabric and its collectives; of the fabric the twin. -/
def abortView (s : State) := ((regsOf s, s.comp.mem, s.comp.fpVec, s.comp.fpMtx, s.comp.fpRde),
  s.tops, s.integ, s.pwr, s.mgt, s.pins, s.snap, s.fab.twin)

section AbortView

variable {s t : State} {i p : Nat}

theorem abortView_of_coreView (h : coreView t = coreView s) : abortView t = abortView s := by
  have hf : ScalarFrame s t 0 := .of_coreView h
  have hr : regsOf t = regsOf s := funext (regsOf_of_coreView h)
  have hmem := hf.mem
  obtain ⟨-, hv, hd, hm, -, -, -⟩ := hf.engines
  obtain ⟨htops, hfab, -, hinteg, hpwr, hmgt, hsnap, hpins⟩ := hf.outside
  unfold abortView
  rw [hr, hmem, hv, hd, hm, htops, hfab, hinteg, hpwr, hmgt, hsnap, hpins]

theorem abortView_of_stagingView (h : stagingView t = stagingView s) : abortView t = abortView s :=
  congrArg (fun x => abortView x.1) h

theorem abortView_ite {c : Prop} [Decidable c] {x y : State} (hx : abortView x = abortView s) (hy : abortView y = abortView s) :
    abortView (if c then x else y) = abortView s := by
  split
  · exact hx
  · exact hy

theorem abortView_dropAlloc {id : Nat} : abortView (dropAlloc s i id) = abortView s := abortView_of_stagingView stagingView_dropAlloc

theorem abortView_freeAlloc {id : Nat} : abortView (freeAlloc s i id) = abortView s := by
  unfold freeAlloc
  exact abortView_of_stagingView (stagingView_settleAlloc.trans stagingView_setBpm)

theorem abortView_leaveAlloc {a : Option Nat} {c j : Nat} : abortView (leaveAlloc s a p c j) = abortView s :=
  abortView_of_stagingView stagingView_leaveAlloc

theorem abortView_originate {x : LinkUnit} : abortView (originate s x) = abortView s := by
  unfold originate originateFrom
  exact abortView_ite rfl rfl

theorem abortView_dropStaged {x : Inp} : abortView (dropStaged s x) = abortView s :=
  foldl_keeps (fun _ _ => abortView_dropAlloc) _ _

theorem abortView_freeOut {j o : Nat} {x : Outp} : abortView (freeOut s j o x) = abortView s := by
  have hbufs : abortView (x.bufs.foldl (fun s b => freeAlloc s 0 b) s) = abortView s :=
    foldl_keeps (fun _ _ => abortView_freeAlloc) _ _
  unfold freeOut
  dsimp only
  split
  · exact abortView_dropAlloc.trans hbufs
  · exact hbufs

theorem abortView_dropOwn {f : LinkUnit → Bool} {port : Option Nat} : abortView (dropOwn s f port) = abortView s := by
  unfold dropOwn
  refine foldl_keeps (fun s e => ?_) _ _
  split
  · rfl
  · refine (foldl_keeps (v := abortView) (fun s x => ?_) _ _ :)
    exact abortView_ite abortView_leaveAlloc rfl

theorem abortView_haltCallers {j e o : Nat} : abortView (haltCallers s j e o) = abortView s := by
  unfold haltCallers
  refine foldl_keeps (fun s q => ?_) _ _
  extract_lets Q waits async
  refine abortView_ite ((abortView_of_coreView coreView_haltQueue).trans (abortView_of_coreView ?_)) rfl
  exact coreView_setQueue (fun _ => ⟨rfl, rfl, rfl, rfl, rfl, rfl⟩)

theorem abortView_squashJob {j : Nat} : abortView (squashJob s j) = abortView s := by
  unfold squashJob
  exact foldl_keeps (fun _ _ => abortView_ite (abortView_of_coreView coreView_squash) rfl) _ _

theorem abortView_dropSteps {j e o : Nat} : abortView (dropSteps s j e o) = abortView s := rfl

theorem abortView_releaseEarly {j e o : Nat} : abortView (releaseEarly s j e o) = abortView s := by
  unfold releaseEarly releaseEarlyIf
  rfl

theorem abortView_discardEarly {j e o : Nat} : abortView (discardEarly j e s o) = abortView s := by
  unfold discardEarly
  dsimp only
  refine abortView_ite rfl ?_
  exact (foldl_keeps (fun _ _ => abortView_dropStaged) _ _ :).trans abortView_releaseEarly

theorem abortView_dropOverlapping {j e o : Nat} : abortView (dropOverlapping s j e o) = abortView s := by
  rw [dropOverlapping_eq]
  exact foldl_keeps (fun _ _ => abortView_discardEarly) _ _

/-- An abort keeps what `abortView` shows. -/
theorem abortView_abortColl {j e o cause origin time : Nat} : abortView (abortColl s j e o cause origin time) = abortView s := by
  unfold abortColl
  extract_lets c
  split
  · rfl
  · split
    · rfl
    · extract_lets imgs fit s1 omitted s2 s3 s4 s5 s6 s7 s8 reg old s9
      have h8 : abortView s8 = abortView s7 := abortView_squashJob.trans abortView_dropSteps
      have h7 : abortView s7 = abortView s5 := abortView_haltCallers.trans abortView_dropOverlapping
      clear_value s8
      refine (h8.trans h7 : abortView (setAttn (ringLog s9 4 0x05 [reg]) aFault) = abortView s5).trans ?_
      calc abortView s5 = abortView s4 := abortView_dropOwn
        _ = abortView s3 := foldl_keeps (fun _ _ => abortView_freeOut) _ _
        _ = abortView s2 := foldl_keeps (fun _ _ => by split; exacts [rfl, abortView_dropStaged]) _ _
        _ = abortView s1 := abortView_releaseEarly
        _ = abortView s := foldl_keeps (fun _ _ => abortView_originate) _ _

theorem abortView_abortHere {j e o : Nat} {cause : Res} : abortView (abortHere s j e o cause) = abortView s := abortView_abortColl

/-- What an abort keeps comprises what `KeepsData` names. -/
theorem KeepsData.of_abortView (h : abortView t = abortView s) : KeepsData s t where
  mem := congrArg (·.1.2.1) h
  regs q := congrFun (congrArg (·.1.1) h) q
  fpVec := congrArg (·.1.2.2.1) h
  fpMtx := congrArg (·.1.2.2.2.1) h
  fpRde := congrArg (·.1.2.2.2.2) h
  tops := congrArg (·.2.1) h
  pwr := congrArg (·.2.2.2.1) h
  mgt := congrArg (·.2.2.2.2.1) h

theorem integ_of_abortView (h : abortView t = abortView s) : t.integ = s.integ := congrArg (·.2.2.1) h

theorem twin_of_abortView (h : abortView t = abortView s) : t.fab.twin = s.fab.twin := congrArg (·.2.2.2.2.2.2.2) h

end AbortView

/-! ### The record that an abort leaves -/

/-- An attention bit that is set shows. -/
theorem attn_setAttn_and {s : State} {b : BitVec 16} : (setAttn s b).attn &&& b = b := by
  show (s.attn ||| b) &&& b = b
  ext i hi
  simpa using Or.inr

section Aborted

variable {s : State} {j e o cause origin time : Nat}

/-- An ordinal that an abort reaches is aborted, and its abort key, its inputs' end and FAULT show it. -/
theorem abortColl_record (ha : (collAt s j e o).aborted = false) (he : (entryOf s j o).isSome = true) :
    (collAt (abortColl s j e o cause origin time) j e o).aborted = true ∧
      (abortColl s j e o cause origin time).attn &&& aFault = aFault := by
  unfold abortColl
  extract_lets c
  rw [if_neg (by simp [c, ha])]
  split
  next hn => rw [hn] at he; cases he
  next E hE =>
    extract_lets imgs fit s1 omitted s2 s3 s4 s5 s6 s7 s8 reg old s9
    have h6 : (collAt s6 j e o).aborted = true := by
      rw [show collAt s6 j e o = _ from collAt_setColl_self isKey_collAt]
    have h8 : ordView s8 = ordView (dropOverlapping s6 j e o) :=
      ordView_squashJob.trans (ordView_dropSteps.trans ordView_haltCallers)
    clear_value s8
    have h9 : ordView (setAttn (ringLog s9 4 0x05 [reg]) aFault) = ordView s8 := rfl
    refine ⟨?_, ?_⟩
    · rw [collAt_of_ordView (h9.trans h8), dropOverlapping_eq, collAt_foldl_discardEarly]
      split
      · rw [Coll.withoutEarly, if_neg (by simp [Coll.holdsEarly, h6])]
        exact h6
      · exact h6
    · exact attn_setAttn_and

end Aborted

end Sys2Proof.Machine
end

section
/-! Units that the service die and the control logic take (R38, R366), and their way to them. -/

namespace Sys2Proof.Machine

/-! ### Listed ports -/

/-- Whether a port is configured. -/
def portKeys (s : State) (k : Nat) : Bool := s.fab.ports.any (fun e => e.1 == k)

/-- A fold whose steps keep what `v` shows, as long as `v` shows that the step's element is allowed. -/
theorem foldl_keeps_of {α β : Type} {v : State → β} {f : State → α → State} {P : β → α → Prop}
    (hf : ∀ s x, P (v s) x → v (f s x) = v s) : ∀ (l : List α) (s : State), (∀ x ∈ l, P (v s) x) → v (l.foldl f s) = v s
  | [], _, _ => rfl
  | x :: l, s, h => by
    have hx := hf s x (h x List.mem_cons_self)
    exact (foldl_keeps_of hf l (f s x) (fun y hy => hx ▸ h y (List.mem_cons_of_mem _ hy))).trans hx

section Listed

variable {s t : State} {i p : Nat}

theorem portKeys_setPort {f : Port → Port} (hp : portKeys s p = true) : portKeys (setPort s p f) = portKeys s := by
  obtain ⟨e, he, hk⟩ := List.any_eq_true.mp hp
  funext k
  exact any_insertKey (d := {}) ⟨e, he, by simpa using hk⟩ rfl

theorem portKeys_releaseWithheld : portKeys (releaseWithheld s i p) = portKeys s := by
  unfold releaseWithheld
  refine foldl_keeps_of (P := fun keys e => keys e.1 = true) (fun s e he => ?_) _ s
    (fun e he => List.any_eq_true.mpr ⟨e, he, by simp⟩)
  refine foldl_keeps_of (P := fun keys _ => keys e.1 = true) (fun s c hc => ?_) _ s (fun _ _ => he)
  dsimp only
  split
  · rfl
  · have h1 := portKeys_setPort (s := s) (f := fun P => { P with withheld := eraseKey P.withheld (32 * i + 8 * p + c) }) hc
    unfold returnCredit
    rw [portKeys_setPort (h1 ▸ hc), h1]

theorem portKeys_relevel : portKeys (relevel s i p) = portKeys s := by
  unfold relevel
  extract_lets B P l s1 s2 s3 s4
  have h2 : portKeys s2 = portKeys s := by unfold s2; split <;> rfl
  have h3 : portKeys s3 = portKeys s := by unfold s3; split <;> exact h2
  have h4 : portKeys s4 = portKeys s := by unfold s4; split <;> exact h3
  split
  · exact portKeys_releaseWithheld.trans h4
  · exact h4

theorem portKeys_bpmAlloc {r n id : Nat} {hs : List Holder} (h : bpmAlloc s i r n hs = .ok t id) : portKeys t = portKeys s := by
  unfold bpmAlloc at h
  dsimp only at h
  split at h
  · cases h
  · split at h
    · injection h with ht _
      rw [← ht, portKeys_relevel]
      rfl
    · cases h
    · cases h

theorem portKeys_dropAlloc {id : Nat} : portKeys (dropAlloc s i id) = portKeys s := by
  unfold dropAlloc
  split
  · rfl
  · exact portKeys_relevel

theorem portUp_eq (hk : portKeys t = portKeys s) (hl : ∀ j, (laneAt t j).st = (laneAt s j).st)
    (hp : ∀ j, (portAt t j).lanes = (portAt s j).lanes) : portUp t = portUp s := by
  funext j
  have hlane : isLanePort t j = isLanePort s j := congrArg (fun keys : Nat → Bool => decide (j < 272) && keys j) hk
  unfold portUp portLanes
  rw [hlane, hp]
  simp only [hl]

end Listed

/-! ### Units that cross the packet buffer to the service die, to the control logic or to a die -/

/-- The twin without the moment at which it was last heard. -/
def Twin.unheard (t : Twin) : Twin := { t with heardAt := 0 }

/-- `r` is `s` but for what the arrival and the crossing of a unit change: link and buffer state. -/
structure Crossed (s r : State) : Prop where
  beyond : beyondFabric r = beyondFabric s
  twin : r.fab.twin.unheard = s.fab.twin.unheard
  domain : r.fab.domain = s.fab.domain
  out : ∀ j, (portAt r j).out = (portAt s j).out
  up : portUp r = portUp s

section Crossings

variable {s m r t : State} {l p q d : Nat} {u : LinkUnit}

theorem Arrived.crossed (h : Arrived s m l p u) : Crossed s m where
  beyond := h.beyondFabric_eq
  twin := (congrArg (·.fab.twin.unheard) h.rest :)
  domain := (congrArg (·.fab.domain) h.rest :)
  out j := h.port_keeps (g := Port.out) j (fun _ _ _ _ => rfl)
  up := funext h.portUp_eq

theorem Crossed.staged (h : Crossed s m) (hv : stagingView r = stagingView m) (hk : portKeys r = portKeys m) : Crossed s r where
  beyond := (beyondFabric_of_stagingView hv).trans h.beyond
  twin := (congrArg (fun x => x.1.fab.twin.unheard) hv).trans h.twin
  domain := (congrArg (fun x => x.1.fab.domain) hv).trans h.domain
  out j := (out_of_stagingView hv j).trans (h.out j)
  up := (portUp_eq hk (fun j => congrArg (fun x => (laneAt x.1 j).st) hv) (fun j => congrArg (fun x => (x.2 j).lanes) hv)).trans h.up

theorem crossBuffer_crossed {y : Bool} (hm : Crossed s m) (h : StagingRoom m 0 p u.job u.length) :
    ∃ r id keep, crossBuffer m p u y = .ok r id keep ∧ Crossed s r := by
  obtain ⟨t, keep, a, ht, hv, -⟩ := takeCells_room (y := y) (p := p) h
  unfold crossBuffer
  rw [ht]
  exact ⟨_, _, _, rfl, hm.staged (stagingView_dropAlloc.trans hv) (portKeys_dropAlloc.trans (portKeys_bpmAlloc (takeCells_alloc ht)))⟩

/-- A frame for the service die acts there once it has crossed the packet buffer. -/
theorem receive_service (h : Delivered s l p u .service) (hc : u.cell = false) :
    ∃ r keep, Crossed s r ∧ receive s l u = giveBack (serviceUnit r u) l u keep := by
  obtain ⟨m, y, hm, hplaced⟩ := receive_delivered h
  obtain ⟨r, id, keep, hr, hx⟩ := crossBuffer_crossed (y := y) hm.crossed
    (show StagingRoom m 0 p u.job u.length by unfold StagingRoom; rw [hm.bpmAt_eq]; exact h.room hc)
  refine ⟨r, keep, hx, hplaced _ _ ?_⟩
  unfold place
  dsimp only
  rw [hc, if_neg Bool.false_ne_true, hr]

/-- A TWIN frame for a die acts there once it has crossed the packet buffer. -/
def dieTwin (l d : Nat) (u : LinkUnit) (s : State) : State :=
  if s.fab.twin.st = .detached then s
  else if u.rank % 16 = 0 then recvGrad s l d u
  else if u.rank % 16 = 5 then recvSync s l d u
  else s

theorem receive_dieTwin (h : Delivered s l p u (.die q d)) (ht : u.typ = 12) (hc : u.cell = false) :
    ∃ r keep, Crossed s r ∧ receive s l u = giveBack (dieTwin l d u r) l u keep := by
  obtain ⟨m, y, hm, hplaced⟩ := receive_delivered h
  obtain ⟨r, id, keep, hr, hx⟩ := crossBuffer_crossed (y := y) hm.crossed
    (show StagingRoom m 0 p u.job u.length by unfold StagingRoom; rw [hm.bpmAt_eq]; exact h.room hc)
  refine ⟨r, keep ++ [], hx, hplaced _ _ ?_⟩
  unfold place deliverDie crossing
  dsimp only
  split
  next =>
    rw [hc, if_neg Bool.false_ne_true, hr]
    unfold dieTwin
    dsimp only
    split_ifs <;> rfl
  next h1 => exact absurd (ht.symm.trans h1) (by decide)
  next h12 _ => exact absurd ht h12

end Crossings

end Sys2Proof.Machine
end

section
/-! TWIN frames (R475 to R482, R518) and the obligation O32. -/

namespace Sys2Proof.Machine

/-! ### What the end of a unit's way keeps -/

section GivenBack

variable {s : State} {l : Nat} {u : LinkUnit} {keep : List Nat}

theorem twin_giveBack : (giveBack s l u keep).fab.twin = s.fab.twin := congrArg (fun x => x.1.fab.twin) stagingView_giveBack
theorem coll_giveBack : (giveBack s l u keep).coll = s.coll := congrArg (fun x => x.1.coll) stagingView_giveBack
theorem comp_giveBack : (giveBack s l u keep).comp = s.comp := congrArg (fun x => x.1.comp) stagingView_giveBack
theorem beyondFabric_giveBack : beyondFabric (giveBack s l u keep) = beyondFabric s := beyondFabric_of_stagingView stagingView_giveBack
theorem abortView_giveBack : abortView (giveBack s l u keep) = abortView s := abortView_of_stagingView stagingView_giveBack
theorem out_giveBack (j : Nat) : (portAt (giveBack s l u keep) j).out = (portAt s j).out := out_of_stagingView stagingView_giveBack j

end GivenBack

section Crossed

variable {s r : State} (h : Crossed s r)

include h

theorem Crossed.coll_eq : r.coll = s.coll := (congrArg State.coll h.beyond :)
theorem Crossed.tops_eq : r.tops = s.tops := (congrArg State.tops h.beyond :)
theorem Crossed.mgt_eq : r.mgt = s.mgt := (congrArg State.mgt h.beyond :)
theorem Crossed.st_eq : r.fab.twin.st = s.fab.twin.st := (congrArg Twin.st h.twin :)
theorem Crossed.port_eq : r.fab.twin.port = s.fab.twin.port := (congrArg Twin.port h.twin :)
theorem Crossed.epochOf_eq : epochOf r = epochOf s := (congrArg epochOf h.beyond :)
theorem Crossed.stateWhere_eq : stateWhere r = stateWhere s := (congrArg stateWhere h.beyond :)

end Crossed

/-! ### GRAD (R477) -/

theorem recvGrad_taken {s : State} {l d ep : Nat} {u : LinkUnit} {x : StateEntry} (hep : epochOf s u.job u.epoch = some ep)
    (hx : stateWhere s u.job (fun x => (x.rep || s.fab.twin.st == .syncing) && x.die == d && x.gradOrdinal == u.ordinal
      && x.chunkFirst ≤ u.chunk && u.chunk < x.chunkFirst + x.chunkCount) = some x)
    (hn : s.fab.twin.grads.any (fun g => g.job == u.job && g.epoch == ep && g.ordinal == u.ordinal && g.chunk == u.chunk
      && g.seq == u.flowSeq) = false) :
    recvGrad s l d u = setTwin s (fun t => { t with grads := t.grads ++
        [{ job := u.job, epoch := ep, ordinal := u.ordinal, chunk := u.chunk, seq := u.flowSeq, bytes := u.payload }] }) := by
  unfold recvGrad
  rw [hep]
  dsimp only
  rw [hx]
  dsimp only
  rw [hn, if_neg Bool.false_ne_true]

/-! ### FLIP (R476, R477) -/

section Shards

variable {s : State} {j i j' i' : Nat} {f : Shard → Shard}

theorem shardAt_setShard_self (hs : s.coll.shards.any (fun h => h.job == j && h.id == i) = true)
    (hf : ∀ h, (f h).job = h.job ∧ (f h).id = h.id) : shardAt (setShard s j i f) j i = f (shardAt s j i) := by
  unfold shardAt setShard
  dsimp only
  generalize s.coll.shards = shards at hs
  induction shards with
  | nil => simp at hs
  | cons x xs ih =>
    rw [List.map_cons, List.find?_cons, List.find?_cons]
    by_cases hx : (x.job == j && x.id == i) = true
    · rw [if_pos hx, (hf x).1, (hf x).2, hx]
      rfl
    · rw [if_neg hx]
      rw [Bool.not_eq_true] at hx
      rw [List.any_cons, hx, Bool.false_or] at hs
      rw [hx]
      exact ih hs

theorem shardAt_setShard_ne (hne : (j', i') ≠ (j, i)) (hf : ∀ h, (f h).job = h.job ∧ (f h).id = h.id) :
    shardAt (setShard s j i f) j' i' = shardAt s j' i' := by
  unfold shardAt setShard
  dsimp only
  congr 1
  induction s.coll.shards with
  | nil => rfl
  | cons x xs ih =>
    rw [List.map_cons, List.find?_cons, List.find?_cons, ih]
    by_cases hx : (x.job == j && x.id == i) = true
    · have hn : (x.job == j' && x.id == i') = false := by
        rw [Bool.eq_false_iff]
        intro hc
        rw [Bool.and_eq_true, beq_iff_eq, beq_iff_eq] at hx hc
        exact hne (by rw [← hc.1, ← hc.2, hx.1, hx.2])
      rw [if_pos hx, (hf x).1, (hf x).2, hn]
    · rw [if_neg hx]

theorem shards_any_setShard (hf : ∀ h, (f h).job = h.job ∧ (f h).id = h.id) :
    (setShard s j i f).coll.shards.any (fun h => h.job == j' && h.id == i') = s.coll.shards.any (fun h => h.job == j' && h.id == i') := by
  unfold setShard
  dsimp only
  rw [List.any_map]
  congr 1
  funext x
  dsimp only [Function.comp]
  split
  · rw [(hf x).1, (hf x).2]
  · rfl

end Shards

/-- A shard that a FLIP lists: the epoch and the broadcast ordinal of its twin's shard. -/
def Shard.reported (ep ord : Nat) (h : Shard) : Shard :=
  { h with report := some (ep, ord), listed := if h.listed.contains ep then h.listed else h.listed ++ [ep] }

theorem reported_key {ep ord : Nat} (h : Shard) : (h.reported ep ord).job = h.job ∧ (h.reported ep ord).id = h.id := ⟨rfl, rfl⟩

/-- The state entry that listing `i` of a FLIP names. -/
def flipEntry (s : State) (u : LinkUnit) (i : Nat) : Option StateEntry :=
  stateWhere s u.job (fun x => x.twinShard == leVal (slice u.payload (16 + 8 * i) 2) && (x.rep || s.fab.twin.st == .syncing))

/-- One listing of a FLIP. -/
def flipStep (u : LinkUnit) (s : State) (i : Nat) : State :=
  match flipEntry s u i with
  | some x => setShard s u.job x.shard (Shard.reported (leVal (u.payload.take 8)) (leVal (slice u.payload (20 + 8 * i) 4)))
  | none => s

theorem recvFlip_eq (s : State) (u : LinkUnit) : recvFlip s u = (List.range (leVal (slice u.payload 8 2))).foldl (flipStep u) s := rfl

section Flips

variable {s : State} {u : LinkUnit} {i n k : Nat} {x : StateEntry}

/-- What the listings of a FLIP leave as it was. -/
def flipFrame (s : State) : State := { s with coll := { s.coll with shards := [] } }

theorem flipStep_listed (hx : flipEntry s u i = some x) : flipStep u s i =
    setShard s u.job x.shard (Shard.reported (leVal (u.payload.take 8)) (leVal (slice u.payload (20 + 8 * i) 4))) := by
  unfold flipStep
  rw [hx]

theorem flipStep_unlisted (hx : flipEntry s u i = none) : flipStep u s i = s := by
  unfold flipStep
  rw [hx]

theorem flipFrame_flipStep : flipFrame (flipStep u s i) = flipFrame s := by
  unfold flipStep
  split <;> rfl

theorem flipFrame_flips (is : List Nat) : flipFrame (is.foldl (flipStep u) s) = flipFrame s := foldl_keeps (fun _ _ => flipFrame_flipStep) _ _

theorem flipEntry_flips (is : List Nat) : flipEntry (is.foldl (flipStep u) s) u = flipEntry s u :=
  (congrArg (flipEntry · u) (flipFrame_flips is) :)

theorem shards_any_flips {j' i' : Nat} (is : List Nat) : (is.foldl (flipStep u) s).coll.shards.any (fun h => h.job == j' && h.id == i') =
    s.coll.shards.any (fun h => h.job == j' && h.id == i') := by
  refine foldl_keeps (v := fun s : State => s.coll.shards.any (fun h => h.job == j' && h.id == i')) (fun s i => ?_) is s
  unfold flipStep
  split
  · exact shards_any_setShard reported_key
  · rfl

/-- The report of the last listing of a shard stands, and the epoch is listed once. -/
theorem reported_reported {ep o o' : Nat} {h : Shard} : (h.reported ep o').reported ep o = h.reported ep o := by
  have hnew : (h.listed ++ [ep]).contains ep = true := by simp
  unfold Shard.reported
  by_cases hc : h.listed.contains ep = true
  · simp only [hc, if_true]
  · simp only [if_neg hc, hnew, if_true]

/-- Before its last listing, a shard is as it was or has been reported in this FLIP. -/
theorem shardAt_flips (hs : s.coll.shards.any (fun h => h.job == u.job && h.id == k) = true) (is : List Nat) :
    shardAt (is.foldl (flipStep u) s) u.job k = shardAt s u.job k ∨
      ∃ o, shardAt (is.foldl (flipStep u) s) u.job k = (shardAt s u.job k).reported (leVal (u.payload.take 8)) o := by
  induction is generalizing s with
  | nil => exact .inl rfl
  | cons i is ih =>
    rw [List.foldl_cons]
    have hs' : (flipStep u s i).coll.shards.any (fun h => h.job == u.job && h.id == k) = true :=
      (shards_any_flips [i]).trans hs
    have hstep : shardAt (flipStep u s i) u.job k = shardAt s u.job k ∨
        ∃ o, shardAt (flipStep u s i) u.job k = (shardAt s u.job k).reported (leVal (u.payload.take 8)) o := by
      unfold flipStep
      split
      next x _ =>
        by_cases hk : k = x.shard
        · subst hk
          exact .inr ⟨_, shardAt_setShard_self hs reported_key⟩
        · exact .inl (shardAt_setShard_ne (by simpa using hk) reported_key)
      next => exact .inl rfl
    rcases hstep with he | ⟨o, he⟩ <;> rcases ih hs' with h | ⟨o', h⟩
    · exact .inl (h.trans he)
    · exact .inr ⟨o', by rw [h, he]⟩
    · exact .inr ⟨o, h.trans he⟩
    · exact .inr ⟨o', by rw [h, he, reported_reported]⟩

/-- A shard after a FLIP that lists it, last at listing `i`. -/
theorem shardAt_flips_last (hs : s.coll.shards.any (fun h => h.job == u.job && h.id == x.shard) = true) (hx : flipEntry s u i = some x)
    (hlast : ∀ j y, i < j → j < n → flipEntry s u j = some y → y.shard ≠ x.shard) (hi : i < n) :
    shardAt ((List.range n).foldl (flipStep u) s) u.job x.shard =
      (shardAt s u.job x.shard).reported (leVal (u.payload.take 8)) (leVal (slice u.payload (20 + 8 * i) 4)) := by
  induction n with
  | zero => exact absurd hi (Nat.not_lt_zero _)
  | succ n ih =>
    rw [List.range_succ, List.foldl_append, List.foldl_cons, List.foldl_nil]
    rcases Nat.lt_succ_iff_lt_or_eq.mp hi with hlt | rfl
    · have hprev := ih (fun j y h1 h2 => hlast j y h1 (Nat.lt_succ_of_lt h2)) hlt
      cases hy : flipEntry s u n with
      | some y =>
        rw [flipStep_listed ((congrFun (flipEntry_flips _) n).trans hy),
          shardAt_setShard_ne (fun he => hlast n y hlt (Nat.lt_succ_self n) hy (Prod.mk.inj he).2.symm) reported_key]
        exact hprev
      | none =>
        rw [flipStep_unlisted ((congrFun (flipEntry_flips _) n).trans hy)]
        exact hprev
    · rw [flipStep_listed ((congrFun (flipEntry_flips _) i).trans hx),
        shardAt_setShard_self ((shards_any_flips _).trans hs) reported_key]
      rcases shardAt_flips hs (List.range i) with he | ⟨o, he⟩
      · exact congrArg _ he
      · exact (congrArg _ he).trans reported_reported

end Flips

/-! ### VOTE and HELLO (R451, R476, R478) -/

section Hello

variable {s r : State} {u : LinkUnit}

/-- A VOTE of KIND 0 is kept in the place of an earlier one of its job and epoch. -/
theorem peerVote_recvTwinVote (hk : leVal (slice u.payload 8 1) = 0) :
    peerVote (recvTwinVote s u) u.job (leVal (u.payload.take 8)) 0 = some (slice u.payload 64 256) ∧
      (recvTwinVote s u).coll = s.coll ∧ beyondFabric (recvTwinVote s u) = beyondFabric s := by
  unfold recvTwinVote
  dsimp only
  rw [if_pos hk]
  refine ⟨?_, rfl, rfl⟩
  unfold peerVote setTwin
  dsimp only
  rw [List.find?_append, List.find?_eq_none.mpr (fun v hv hm => ?_), Option.none_or]
  · simp
  · have hout := (List.mem_filter.mp hv).2
    rw [hm] at hout
    cases hout

theorem beyondFabric_changeTwin {st : TwinSt} : beyondFabric (changeTwin s st) = beyondFabric s := by
  unfold changeTwin
  simp

/-- What a HELLO leaves: it is kept, and a DETACHED module pairs where the conditions hold. -/
theorem recvHello_twin : (recvHello s u).fab.twin.peerHello = u.payload ∧
    (s.fab.twin.st = .detached → (recvHello s u).fab.twin.st =
      if pairOk (setTwin s (fun t => { t with peerHello := u.payload })) then .paired else .detached) ∧
    (s.fab.twin.st ≠ .detached → (recvHello s u).fab.twin.st = s.fab.twin.st) ∧
    beyondFabric (recvHello s u) = beyondFabric s := by
  unfold recvHello
  extract_lets s1 differs s2
  have h2 : s2.fab = s1.fab ∧ beyondFabric s2 = beyondFabric s ∧ pairOk s2 = pairOk s1 := by
    unfold s2
    split <;> exact ⟨rfl, rfl, rfl⟩
  obtain ⟨hfab, hbeyond, hpair⟩ := h2
  have hst : s2.fab.twin.st = s.fab.twin.st := by rw [hfab]; rfl
  have hello : s2.fab.twin.peerHello = u.payload := by rw [hfab]; rfl
  obtain ⟨b, hb⟩ : ∃ b, pairOk s1 = b := ⟨_, rfl⟩
  rw [hst, hpair, hb]
  clear_value s2 differs s1
  by_cases hd : s.fab.twin.st = .detached
  · rw [decide_eq_true hd]
    cases b
    · rw [if_neg (by decide)]
      exact ⟨hello, fun _ => hst.trans hd, fun h => absurd hd h, hbeyond⟩
    · rw [if_pos (by decide)]
      exact ⟨hello, fun _ => rfl, fun h => absurd hd h, beyondFabric_changeTwin.trans (beyondFabric_setTwin.trans hbeyond)⟩
  · rw [decide_eq_false hd, if_neg (by simp)]
    exact ⟨hello, fun h => absurd h hd, fun _ => hst, hbeyond⟩

theorem noteSyncing_twin : (noteSyncing s).fab.twin.peerHello = s.fab.twin.peerHello ∧ (noteSyncing s).fab.twin.st = s.fab.twin.st ∧
    beyondFabric (noteSyncing s) = beyondFabric s := by
  unfold noteSyncing
  dsimp only
  split <;> exact ⟨rfl, rfl, rfl⟩

/-- Whether a HELLO pairs does not depend on the moment at which the twin was heard. -/
theorem Crossed.pairOk_eq (h : Crossed s r) : pairOk (setTwin r (fun t => { t with peerHello := u.payload })) =
    pairOk (setTwin s (fun t => { t with peerHello := u.payload })) := by
  have hv : (beyondFabric r, r.fab.twin.unheard, r.fab.domain) = (beyondFabric s, s.fab.twin.unheard, s.fab.domain) := by
    rw [h.beyond, h.twin, h.domain]
  exact (congrArg (fun x : State × Twin × Nat =>
    pairOk (setTwin { x.1 with fab := { twin := x.2.1, domain := x.2.2 } } (fun t => { t with peerHello := u.payload }))) hv :)

end Hello

/-! ### LEAVE (R479 to R481) -/

section Leaving

variable {s : State}

/-- What the end of a pairing keeps: what an abort keeps, of the twin its state and its losses. -/
def leaveView (s : State) := ((abortView s).1, s.tops, s.integ, s.pwr, s.mgt, s.pins, s.snap,
  s.fab.twin.st, s.fab.twin.lastLoss, s.fab.twin.peerCause)

theorem leaveView_of_abortView {t : State} (h : abortView t = abortView s) : leaveView t = leaveView s :=
  congrArg (fun x => (x.1, x.2.1, x.2.2.1, x.2.2.2.1, x.2.2.2.2.1, x.2.2.2.2.2.1, x.2.2.2.2.2.2.1, x.2.2.2.2.2.2.2.st,
    x.2.2.2.2.2.2.2.lastLoss, x.2.2.2.2.2.2.2.peerCause)) h

theorem leaveView_clearHolds : leaveView (clearHolds s) = leaveView s := rfl

theorem leaveView_endServing : leaveView (endServing s) = leaveView s := by
  unfold endServing
  split <;> rfl

theorem leaveView_ite {c : Prop} [Decidable c] {x y : State} (hx : leaveView x = leaveView s) (hy : leaveView y = leaveView s) :
    leaveView (if c then x else y) = leaveView s := by
  split
  · exact hx
  · exact hy

theorem abortView_abortInputs {cause : Res} : abortView (abortInputs s cause) = abortView s := by
  unfold abortInputs
  refine foldl_keeps (fun s c => ?_) _ _
  split
  · exact abortView_ite abortView_abortHere rfl
  · rfl

/-- A change of the twin's state and no more of what leaving keeps. -/
theorem leaveView_changeTwin {st : TwinSt} : leaveView (changeTwin s st) = leaveView (setTwin s (fun t => { t with st := st })) := rfl

theorem leaveView_toDetached : leaveView (toDetached s) = leaveView (setTwin s (fun t => { t with st := .detached })) := by
  unfold toDetached
  extract_lets was s1 s2 s3
  have h1 : leaveView s1 = leaveView (setTwin s (fun t => { t with st := .detached })) := rfl
  clear_value s1
  refine leaveView_ite ?_ h1
  rw [leaveView_clearHolds]
  refine Eq.trans (leaveView_of_abortView ?_) h1
  calc abortView s3 = abortView s2 := foldl_keeps (fun s q => abortView_ite (abortView_of_coreView coreView_haltQueue) rfl) _ _
    _ = abortView s1 := abortView_abortInputs

theorem leaveView_toSolo : leaveView (toSolo s) = leaveView (setTwin s (fun t => { t with st := .solo })) := by
  unfold toSolo
  extract_lets s1 s2
  have h1 : leaveView s1 = leaveView (setTwin s (fun t => { t with st := .solo })) := rfl
  have h2 : leaveView s2 = leaveView (setTwin s (fun t => { t with st := .solo })) := leaveView_clearHolds.trans h1
  clear_value s2
  refine Eq.trans (leaveView_of_abortView ?_) h2
  refine foldl_keeps (fun s t => ?_) _ _
  refine foldl_keeps (fun s x => ?_) _ _
  dsimp only
  refine abortView_ite ?_ abortView_abortHere
  split
  · exact abortView_ite rfl rfl
  · rfl

theorem KeepsData.of_leaveView {s t : State} (h : (leaveView t).1 = (leaveView s).1 ∧ t.tops = s.tops ∧ t.pwr = s.pwr ∧ t.mgt = s.mgt) :
    KeepsData s t where
  mem := congrArg (·.2.1) h.1
  regs q := congrFun (congrArg (·.1) h.1) q
  fpVec := congrArg (·.2.2.1) h.1
  fpMtx := congrArg (·.2.2.2.1) h.1
  fpRde := congrArg (·.2.2.2.2) h.1
  tops := h.2.1
  pwr := h.2.2.1
  mgt := h.2.2.2

end Leaving

/-! ### SYNC and IMAGE (R482, R518) -/

section Blocks

variable {s : State} {u : LinkUnit} {l d : Nat} {x : StateEntry}

/-- A block of a mirror shard lands in its page, and the last block of a page counts it. -/
theorem recvSync_block (hst : s.fab.twin.st = .syncing)
    (hx : stateWhere s u.job (fun x => x.twinShard == natField u.ordinal 31 16 && x.die == d) = some x)
    (hp : u.chunk / 512 < planePages x (natField u.ordinal 15 14)) :
    (recvSync s l d u).comp.mem = s.comp.mem.writeRun
        (pageKey s u.job x (if natBit u.ordinal 13 then !(shardAt s u.job x.shard).cur else (shardAt s u.job x.shard).cur)
          (natField u.ordinal 15 14) (u.chunk / 512) + 4096 * (u.chunk % 512)) u.payload ∧
      (recvSync s l d u).comp = { s.comp with mem := (recvSync s l d u).comp.mem } ∧
      (recvSync s l d u).fab.twin.pagesDone = s.fab.twin.pagesDone + (if u.chunk % 512 = 511 then 1 else 0) ∧
      beyondFabric { recvSync s l d u with comp := {} } = beyondFabric { s with comp := {} } := by
  unfold recvSync
  dsimp only
  rw [hx]
  dsimp only
  rw [hst, if_neg (by decide), if_neg (Nat.not_le.mpr hp)]
  split
  · exact ⟨rfl, rfl, rfl, rfl⟩
  · exact ⟨rfl, rfl, rfl, rfl⟩

theorem lanes_wakeTags {p : Nat} {P : Port} : (wakeTags s p P u).lanes = P.lanes := by
  unfold wakeTags
  dsimp only
  split
  · rfl
  · split
    · rfl
    · split <;> rfl

theorem portUp_enqueue {p : Nat} {e : OutEntry} (h : portUp s p = true) : portUp (enqueue s p e) = portUp s := by
  have hk : portKeys s p = true := by
    unfold portUp isLanePort at h
    simp only [Bool.and_eq_true] at h
    exact h.1.2
  refine portUp_eq (portKeys_setPort hk) (fun _ => rfl) (fun j => ?_)
  unfold enqueue
  rw [portAt_setPort]
  split
  next hj => rw [← hj]; exact lanes_wakeTags
  next => rfl

/-- Frames for the twin join its port's queue while that port is up. -/
theorem sendTwin_foldl {α : Type} {f : State → α → LinkUnit} (xs : List α) : let t := xs.foldl (fun s k => sendTwin s (f s k)) s
    t.fab.twin = s.fab.twin ∧ beyondFabric t = beyondFabric s ∧ portUp t = portUp s ∧
      (portAt t s.fab.twin.port).out.length =
        (portAt s s.fab.twin.port).out.length + (if portUp s s.fab.twin.port then xs.length else 0) := by
  induction xs generalizing s with
  | nil => simp
  | cons x xs ih =>
    dsimp only at ih ⊢
    rw [List.foldl_cons]
    obtain ⟨h1, h2, h3, h4⟩ := ih (s := sendTwin s (f s x))
    by_cases hu : portUp s s.fab.twin.port = true
    · have hsend : sendTwin s (f s x) = enqueue s s.fab.twin.port { unit := sealUnit (f s x), ready := s.fabricTime } := if_pos hu
      rw [hsend] at h1 h2 h3 h4 ⊢
      have hport : (enqueue s s.fab.twin.port { unit := sealUnit (f s x), ready := s.fabricTime }).fab.twin.port = s.fab.twin.port := rfl
      refine ⟨h1, h2, h3.trans (portUp_enqueue hu), ?_⟩
      rw [hport, portUp_enqueue hu, out_enqueue, if_pos rfl, List.length_append] at h4
      rw [h4, if_pos hu, if_pos hu]
      simp only [List.length_cons, List.length_nil]
      omega
    · have hsend : sendTwin s (f s x) = s := if_neg hu
      rw [hsend] at h1 h2 h3 h4 ⊢
      refine ⟨h1, h2, h3, ?_⟩
      rw [h4, if_neg hu, if_neg hu]

end Blocks

end Sys2Proof.Machine
end

section
/-! The obligation O32: TWIN frames act (R475 to R482, R518). -/

namespace Sys2Proof.Machine

section Frames

variable {s r : State} {l p q d : Nat} {u v : LinkUnit} {keep : List Nat}

theorem asTwin_rank {k : Nat} (hk : k < 16) : (asTwin k u).rank % 16 = k := by
  show (u.rank / 16 * 16 + k) % 16 = k
  omega

theorem shardAt_of_coll {t : State} (h : t.coll = s.coll) : shardAt t = shardAt s := by
  unfold shardAt
  rw [h]

theorem peerVote_of_twin {t : State} (h : t.fab.twin = s.fab.twin) : peerVote t = peerVote s := by
  unfold peerVote
  rw [h]

theorem regsOf_of_queues {t : State} (h : t.comp.queues = s.comp.queues) : regsOf t = regsOf s := by
  unfold regsOf queueAt
  rw [h]

/-! What a TWIN frame of each subtype does at the service die (R475, R479). -/

theorem serviceUnit_flip (hst : r.fab.twin.st ≠ .detached) : serviceUnit r (asTwin 1 u) = recvFlip r (asTwin 1 u) := by
  unfold serviceUnit
  rw [asTwin_rank (by decide)]
  show (if (r.fab.twin.st != .detached) = true then _ else r) = _
  exact if_pos (bne_iff_ne.mpr hst)

theorem serviceUnit_vote (hst : r.fab.twin.st ≠ .detached) : serviceUnit r (asTwin 2 u) = recvTwinVote r (asTwin 2 u) := by
  unfold serviceUnit
  rw [asTwin_rank (by decide)]
  show (if (r.fab.twin.st != .detached) = true then _ else r) = _
  exact if_pos (bne_iff_ne.mpr hst)

theorem serviceUnit_hello : serviceUnit r (asTwin 3 u) = noteSyncing (recvHello r (asTwin 3 u)) := by
  unfold serviceUnit
  rw [asTwin_rank (by decide)]
  rfl

theorem serviceUnit_leave : serviceUnit r (asTwin 4 u) = recvLeave r (asTwin 4 u) := by
  unfold serviceUnit
  rw [asTwin_rank (by decide)]
  rfl

theorem serviceUnit_image : serviceUnit r (asTwin 6 u) =
    if u.ordinal = 0xFFFFFFFF then serveImage r (asTwin 6 u) else recvImage r (asTwin 6 u) := by
  unfold serviceUnit
  rw [asTwin_rank (by decide)]
  rfl

/-- Everything beyond the fabric after a unit that changes no more. -/
theorem fabricOnly_given (hx : Crossed s r) {x : State} (hb : beyondFabric x = beyondFabric r) :
    (traced s (giveBack x l v keep)).coll = s.coll ∧ FabricOnly s (traced s (giveBack x l v keep)) := by
  have h : beyondFabric (giveBack x l v keep) = beyondFabric s := beyondFabric_giveBack.trans (hb.trans hx.beyond)
  exact ⟨(congrArg State.coll h :), FabricOnly.of_beyondFabric h⟩

/-- What a LEAVE makes of the twin's state (R479). -/
def TwinSt.left : TwinSt → TwinSt
  | .paired => .solo
  | .syncing => .detached
  | st => st

/-- The twin after a LEAVE with a cause. -/
def Twin.left (cause : Nat) (t : Twin) : Twin := { t with st := t.st.left, lastLoss := 1, peerCause := cause }

theorem leaveView_setTwin {f : Twin → Twin} : leaveView (setTwin s f) = ((abortView s).1, s.tops, s.integ, s.pwr, s.mgt, s.pins, s.snap,
    (f s.fab.twin).st, (f s.fab.twin).lastLoss, (f s.fab.twin).peerCause) := rfl

theorem leaveView_recvLeave : leaveView (recvLeave s u) = leaveView (setTwin s (Twin.left (leVal (u.payload.take 1)))) := by
  unfold recvLeave Twin.left
  extract_lets s1
  have h1 : s1.fab.twin.st = s.fab.twin.st := rfl
  rw [h1, leaveView_setTwin]
  cases hst : s.fab.twin.st with
  | paired => exact leaveView_toSolo
  | syncing => exact leaveView_toDetached
  | solo =>
    refine leaveView_endServing.trans ?_
    rw [show leaveView s1 = _ from leaveView_setTwin, hst]
    rfl
  | detached =>
    rw [show leaveView s1 = _ from leaveView_setTwin, hst]
    rfl

/-! ### One frame of each subtype -/

theorem twinGrad_acts {ep : Nat} {x : StateEntry} (h : Delivered s l p (asTwin 0 u) (.die q d)) (hst : s.fab.twin.st ≠ .detached)
    (hep : epochOf s u.job u.epoch = some ep)
    (hx : stateWhere s u.job (fun x => (x.rep || s.fab.twin.st == .syncing) && x.die == d && x.gradOrdinal == u.ordinal
      && x.chunkFirst ≤ u.chunk && u.chunk < x.chunkFirst + x.chunkCount) = some x)
    (hn : s.fab.twin.grads.any (fun g => g.job == u.job && g.epoch == ep && g.ordinal == u.ordinal && g.chunk == u.chunk
      && g.seq == u.flowSeq) = false) :
    ∃ t, exec (.twinGrad l u) s = .next t ∧ t.fab.twin.grads = s.fab.twin.grads ++
        [{ job := u.job, epoch := ep, ordinal := u.ordinal, chunk := u.chunk, seq := u.flowSeq, bytes := u.payload }] ∧
      t.coll = s.coll ∧ FabricOnly s t := by
  obtain ⟨r, keep, hr, he⟩ := receive_dieTwin h rfl rfl
  have hgrads : r.fab.twin.grads = s.fab.twin.grads := (congrArg Twin.grads hr.twin :)
  have htaken := recvGrad_taken (l := l) (d := d) (u := asTwin 0 u) (s := r) (ep := ep) (x := x)
    (by rw [hr.epochOf_eq]; exact hep) (by rw [hr.stateWhere_eq, hr.st_eq]; exact hx) (by rw [hgrads]; exact hn)
  have hdie : dieTwin l d (asTwin 0 u) r = recvGrad r l d (asTwin 0 u) := by
    unfold dieTwin
    rw [if_neg (by rw [hr.st_eq]; exact hst), if_pos (asTwin_rank (by decide))]
  refine ⟨_, exec_unitOf (c := .twinGrad l u) rfl, ?_⟩
  rw [he, hdie, htaken]
  refine ⟨?_, fabricOnly_given hr rfl⟩
  rw [← hgrads]
  exact (congrArg Twin.grads twin_giveBack :)

theorem twinFlip_acts {i : Nat} {x : StateEntry} (h : Delivered s l p (asTwin 1 u) .service) (hst : s.fab.twin.st ≠ .detached)
    (hi : i < leVal (slice u.payload 8 2)) (hx : flipEntry s u i = some x)
    (hlast : ∀ j y, i < j → j < leVal (slice u.payload 8 2) → flipEntry s u j = some y → y.shard ≠ x.shard)
    (hany : s.coll.shards.any (fun h => h.job == u.job && h.id == x.shard) = true) :
    ∃ t, exec (.twinFlip l u) s = .next t ∧ shardAt t u.job x.shard =
        (shardAt s u.job x.shard).reported (leVal (u.payload.take 8)) (leVal (slice u.payload (20 + 8 * i) 4)) ∧
      t.coll.colls = s.coll.colls ∧ t.coll.jobs = s.coll.jobs ∧ KeepsData s t := by
  obtain ⟨r, keep, hr, he⟩ := receive_service h rfl
  have hentry : flipEntry r (asTwin 1 u) = flipEntry s u := by
    unfold flipEntry
    rw [hr.stateWhere_eq, hr.st_eq]
    rfl
  have hshard := shardAt_flips_last (s := r) (u := asTwin 1 u) (x := x) (i := i) (n := leVal (slice u.payload 8 2))
    (by rw [hr.coll_eq]; exact hany) (by rw [hentry]; exact hx) (by rw [hentry]; exact hlast) hi
  have hframe : flipFrame (recvFlip r (asTwin 1 u)) = flipFrame r := flipFrame_flips _
  have hcoll : (giveBack (recvFlip r (asTwin 1 u)) l (asTwin 1 u) keep).coll = (recvFlip r (asTwin 1 u)).coll := coll_giveBack
  refine ⟨_, exec_unitOf (c := .twinFlip l u) rfl, ?_⟩
  rw [he, serviceUnit_flip (by rw [hr.st_eq]; exact hst)]
  refine ⟨?_, ?_, ?_, .of_beyondColl ?_⟩
  · rw [shardAt_of_coll (show (traced s _).coll = (recvFlip r (asTwin 1 u)).coll from hcoll), ← shardAt_of_coll hr.coll_eq]
    exact hshard
  · exact (congrArg (·.colls) hcoll).trans ((congrArg (·.coll.colls) hframe).trans (congrArg (·.colls) hr.coll_eq))
  · exact (congrArg (·.jobs) hcoll).trans ((congrArg (·.coll.jobs) hframe).trans (congrArg (·.jobs) hr.coll_eq))
  · exact (beyondColl_of_beyondFabric beyondFabric_giveBack).trans
      ((show beyondColl (recvFlip r (asTwin 1 u)) = beyondColl r from (congrArg (fun x => beyondColl x) hframe :)).trans
        (beyondColl_of_beyondFabric hr.beyond))

theorem twinVote_acts (h : Delivered s l p (asTwin 2 u) .service) (hst : s.fab.twin.st ≠ .detached)
    (hk : leVal (slice u.payload 8 1) = 0) :
    ∃ t, exec (.twinVote l u) s = .next t ∧
      peerVote t u.job (leVal (u.payload.take 8)) 0 = some (slice u.payload 64 256) ∧ t.coll = s.coll ∧ FabricOnly s t := by
  obtain ⟨r, keep, hr, he⟩ := receive_service h rfl
  obtain ⟨hv, -, hb⟩ := peerVote_recvTwinVote (s := r) (u := asTwin 2 u) hk
  refine ⟨_, exec_unitOf (c := .twinVote l u) rfl, ?_⟩
  rw [he, serviceUnit_vote (by rw [hr.st_eq]; exact hst)]
  refine ⟨?_, fabricOnly_given hr hb⟩
  rw [peerVote_of_twin (show (traced s _).fab.twin = (recvTwinVote r (asTwin 2 u)).fab.twin from twin_giveBack)]
  exact hv

theorem twinHello_acts (h : Delivered s l p (asTwin 3 u) .service) :
    ∃ t, exec (.twinHello l u) s = .next t ∧ t.fab.twin.peerHello = u.payload ∧
      (s.fab.twin.st = .detached → t.fab.twin.st = if pairOk (setTwin s (fun t => { t with peerHello := u.payload }))
        then .paired else .detached) ∧
      (s.fab.twin.st ≠ .detached → t.fab.twin.st = s.fab.twin.st) ∧ t.coll = s.coll ∧ FabricOnly s t := by
  obtain ⟨r, keep, hr, he⟩ := receive_service h rfl
  obtain ⟨hp, hpair, hkeep, hb⟩ := recvHello_twin (s := r) (u := asTwin 3 u)
  obtain ⟨hp', hst', hb'⟩ := noteSyncing_twin (s := recvHello r (asTwin 3 u))
  refine ⟨_, exec_unitOf (c := .twinHello l u) rfl, ?_⟩
  rw [he, serviceUnit_hello]
  have htwin : (giveBack (noteSyncing (recvHello r (asTwin 3 u))) l (asTwin 3 u) keep).fab.twin = _ := twin_giveBack
  rw [hr.st_eq] at hpair hkeep
  rw [← hr.pairOk_eq]
  refine ⟨(congrArg Twin.peerHello htwin).trans (hp'.trans hp), fun hd => (congrArg Twin.st htwin).trans (hst'.trans (hpair hd)),
    fun hd => (congrArg Twin.st htwin).trans (hst'.trans (hkeep hd)), fabricOnly_given hr (hb'.trans hb)⟩

theorem twinLeave_acts (h : Delivered s l p (asTwin 4 u) .service) :
    ∃ t, exec (.twinLeave l u) s = .next t ∧ t.fab.twin.lastLoss = 1 ∧ t.fab.twin.peerCause = leVal (u.payload.take 1) ∧
      t.fab.twin.st = (match s.fab.twin.st with
        | .paired => .solo | .syncing => .detached | st => st) ∧ KeepsData s t := by
  obtain ⟨r, keep, hr, he⟩ := receive_service h rfl
  refine ⟨_, exec_unitOf (c := .twinLeave l u) rfl, ?_⟩
  rw [he, serviceUnit_leave]
  have hr1 : leaveView (setTwin r (Twin.left (leVal (u.payload.take 1)))) = leaveView (setTwin s (Twin.left (leVal (u.payload.take 1)))) := by
    have hv : (beyondFabric r, r.fab.twin.unheard) = (beyondFabric s, s.fab.twin.unheard) := by rw [hr.beyond, hr.twin]
    exact (congrArg (fun x : State × Twin => leaveView (setTwin { x.1 with fab := { twin := x.2 } } (Twin.left (leVal (u.payload.take 1))))) hv :)
  have hview : leaveView (giveBack (recvLeave r (asTwin 4 u)) l (asTwin 4 u) keep) =
      leaveView (setTwin s (Twin.left (leVal (u.payload.take 1)))) :=
    (leaveView_of_abortView abortView_giveBack).trans (leaveView_recvLeave.trans hr1)
  refine ⟨(congrArg (·.2.2.2.2.2.2.2.2.1) hview :), (congrArg (·.2.2.2.2.2.2.2.2.2) hview :),
    (congrArg (·.2.2.2.2.2.2.2.1) hview :).trans ?_, .of_leaveView ⟨(congrArg (·.1) hview :), (congrArg (·.2.1) hview :),
      (congrArg (·.2.2.2.1) hview :), (congrArg (·.2.2.2.2.1) hview :)⟩⟩
  show s.fab.twin.st.left = _
  cases s.fab.twin.st <;> rfl

theorem twinSync_acts {x : StateEntry} (h : Delivered s l p (asTwin 5 u) (.die q d)) (hst : s.fab.twin.st = .syncing)
    (hx : stateWhere s u.job (fun x => x.twinShard == natField u.ordinal 31 16 && x.die == d) = some x)
    (hp : u.chunk / 512 < planePages x (natField u.ordinal 15 14)) :
    ∃ t, exec (.twinSync l u) s = .next t ∧ t.comp.mem = s.comp.mem.writeRun
        (pageKey s u.job x (if natBit u.ordinal 13 then !(shardAt s u.job x.shard).cur else (shardAt s u.job x.shard).cur)
          (natField u.ordinal 15 14) (u.chunk / 512) + 4096 * (u.chunk % 512)) u.payload ∧
      t.fab.twin.pagesDone = s.fab.twin.pagesDone + (if u.chunk % 512 = 511 then 1 else 0) ∧
      (∀ q, regsOf t q = regsOf s q) ∧ t.tops = s.tops ∧ t.coll = s.coll ∧ t.mgt = s.mgt ∧ t.pwr = s.pwr := by
  obtain ⟨r, keep, hr, he⟩ := receive_dieTwin h rfl rfl
  have hdie : dieTwin l d (asTwin 5 u) r = recvSync r l d (asTwin 5 u) := by
    unfold dieTwin
    rw [if_neg (by rw [hr.st_eq, hst]; decide), asTwin_rank (by decide), if_neg (by decide), if_pos rfl]
  obtain ⟨hmem, hcomp, hdone, hb⟩ := recvSync_block (s := r) (l := l) (d := d) (u := asTwin 5 u) (x := x) (hr.st_eq.trans hst)
    (by rw [hr.stateWhere_eq]; exact hx) hp
  have hcompr : r.comp = s.comp := (congrArg State.comp hr.beyond :)
  refine ⟨_, exec_unitOf (c := .twinSync l u) rfl, ?_⟩
  rw [he, hdie]
  have hkey : pageKey r = pageKey s := (congrArg pageKey hr.beyond :)
  have hsh : shardAt r = shardAt s := by unfold shardAt; rw [hr.coll_eq]
  have hout : beyondFabric { giveBack (recvSync r l d (asTwin 5 u)) l (asTwin 5 u) keep with comp := {} } = beyondFabric { s with comp := {} } :=
    (congrArg (fun x : State => { x with comp := {} }) (beyondFabric_giveBack (s := recvSync r l d (asTwin 5 u)) (l := l)) :).trans
      (hb.trans (congrArg (fun x : State => { x with comp := {} }) hr.beyond :))
  have hc : (giveBack (recvSync r l d (asTwin 5 u)) l (asTwin 5 u) keep).comp = _ := comp_giveBack
  refine ⟨(congrArg Comp.mem hc).trans ?_, ?_, fun q => ?_, (congrArg State.tops hout :), (congrArg State.coll hout :),
    (congrArg State.mgt hout :), (congrArg State.pwr hout :)⟩
  · rw [hmem, hcompr, hkey, hsh]
    rfl
  · exact (congrArg Twin.pagesDone twin_giveBack :).trans (hdone.trans (congrArg (·.pagesDone + _) hr.twin :))
  · have hq : (giveBack (recvSync r l d (asTwin 5 u)) l (asTwin 5 u) keep).comp.queues = s.comp.queues := by
      rw [hc, hcomp, hcompr]
    exact congrFun (regsOf_of_queues (s := s) hq) q

/-- Whether a module sends the image that it booted from (R518). -/
def servesImage (st : MState) : Prop := st = .sync ∨ st = .ready ∨ st = .run ∨ st = .degraded

/-- The image goes to the twin block by block while the twin port is up. -/
theorem serveImage_sends : beyondFabric (serveImage r u) = beyondFabric r ∧
    (servesImage r.mgt.st → (portAt (serveImage r u) r.fab.twin.port).out.length = (portAt r r.fab.twin.port).out.length +
      (if portUp r r.fab.twin.port then imageBlockCount r - u.chunk else 0)) ∧
    (¬servesImage r.mgt.st → serveImage r u = r) := by
  have hsent := sendTwin_foldl (s := r) (f := fun s k => twinFrame 6 5 0x180 0 0 (imageBlockCount r) (u.chunk + k) 0
    (padTo 4096 (slice s.mgt.fwBytes (4096 * (u.chunk + k)) 4096))) (List.range (imageBlockCount r - u.chunk))
  obtain ⟨-, hb, -, hlen⟩ := hsent
  rw [List.length_range] at hlen
  unfold serveImage servesImage
  cases r.mgt.st
  case sync | ready | run | degraded => exact ⟨hb, fun _ => hlen, fun h => absurd (by simp) h⟩
  all_goals exact ⟨rfl, fun h => absurd h (by simp), fun _ => rfl⟩

theorem twinImageRequest_acts (h : Delivered s l p (asTwin 6 u) .service) (ho : u.ordinal = 0xFFFFFFFF) :
    ∃ t, exec (.twinImageRequest l u) s = .next t ∧
      (portAt t s.fab.twin.port).out.length = (portAt s s.fab.twin.port).out.length +
        (if (s.mgt.st = .sync ∨ s.mgt.st = .ready ∨ s.mgt.st = .run ∨ s.mgt.st = .degraded) ∧
            portUp s s.fab.twin.port = true ∧ s.fab.twin.port < 272 then imageBlockCount s - u.chunk else 0) ∧
      t.coll = s.coll ∧ FabricOnly s t := by
  obtain ⟨r, keep, hr, he⟩ := receive_service h rfl
  refine ⟨_, exec_unitOf (c := .twinImageRequest l u) (if_pos ho), ?_⟩
  rw [he, serviceUnit_image, if_pos ho]
  obtain ⟨hb, hserves, helse⟩ := serveImage_sends (r := r) (u := asTwin 6 u)
  refine ⟨?_, fabricOnly_given hr hb⟩
  have hcount : imageBlockCount r = imageBlockCount s := by unfold imageBlockCount; rw [hr.mgt_eq]
  have hlow {k : Nat} (h : portUp s k = true) : k < 272 := by
    unfold portUp isLanePort at h
    simp only [Bool.and_eq_true, decide_eq_true_eq] at h
    exact h.1.1
  rw [show (portAt (traced s (giveBack (serveImage r (asTwin 6 u)) l (asTwin 6 u) keep)) s.fab.twin.port).out = _ from out_giveBack _, ← hr.port_eq]
  by_cases hst : servesImage r.mgt.st
  · rw [hserves hst, hr.out, hr.up, hcount]
    rw [hr.mgt_eq] at hst
    by_cases hu : portUp s r.fab.twin.port = true
    · rw [if_pos hu, if_pos ⟨hst, hu, hlow hu⟩]
      rfl
    · rw [if_neg hu, if_neg (fun h => hu h.2.1)]
  · rw [helse hst, hr.out]
    rw [hr.mgt_eq] at hst
    rw [if_neg (fun h => hst h.1)]
    rfl

theorem twinImageData_acts (h : Delivered s l p (asTwin 6 u) .service) (ho : u.ordinal ≠ 0xFFFFFFFF) (hst : s.mgt.st = .recovery)
    (hc : u.chunk < u.ordinal) :
    ∃ t, exec (.twinImageData l u) s = .next t ∧ t.fab.twin.imageBlocks = u.ordinal ∧
      t.fab.twin.image = insertKey s.fab.twin.image u.chunk u.payload ∧ t.coll = s.coll ∧ FabricOnly s t := by
  obtain ⟨r, keep, hr, he⟩ := receive_service h rfl
  have himage : recvImage r (asTwin 6 u) =
      setTwin r (fun t => { t with imageBlocks := u.ordinal, image := insertKey t.image u.chunk u.payload }) := by
    unfold recvImage
    exact if_pos (by simp [hr.mgt_eq, hst]; exact hc)
  refine ⟨_, exec_unitOf (c := .twinImageData l u) (if_neg ho), ?_⟩
  rw [he, serviceUnit_image, if_neg ho, himage]
  exact ⟨(congrArg Twin.imageBlocks twin_giveBack :), (congrArg Twin.image twin_giveBack :).trans
    (congrArg (insertKey ·.image u.chunk u.payload) hr.twin :), fabricOnly_given hr rfl⟩

end Frames

/-- Settles O32: a TWIN frame that its checks let through crosses to its die or to the service die, and there does what its subtype says. -/
theorem twinFramesAct : Obligations.TwinFramesAct := by
  unfold Obligations.TwinFramesAct
  exact ⟨fun l p u s q d ep x h hst hep hx hn => twinGrad_acts h hst hep hx hn,
    fun l p u s i x h hst hi hx hlast hany => twinFlip_acts h hst hi hx hlast hany,
    fun l p u s h hst hk => twinVote_acts h hst hk, fun l p u s h => twinHello_acts h, fun l p u s h => twinLeave_acts h,
    fun l p u s q d x h hst hx hp => twinSync_acts h hst hx hp, fun l p u s h ho => twinImageRequest_acts h ho,
    fun l p u s h ho hst hc => twinImageData_acts h ho hst hc⟩

end Sys2Proof.Machine
end

section
/-! Link-local units (R303, R344, R349, R351, R352, R359) and the obligation O29. -/

namespace Sys2Proof.Machine

section LinkLocal

variable {s : State} {l p : Nat} {u : LinkUnit}

theorem portAt_of_ports {t : State} (h : t.fab.ports = s.fab.ports) : portAt t = portAt s := by
  unfold portAt
  rw [h]

/-! ### Acceptance of a link-local unit -/

theorem laneAt_noteAccepted {j : Nat} : laneAt (noteAccepted s l) j = if l = j then counted (laneAt s l) 0 else laneAt s j := by
  have h : laneAt (noteAccepted s l) j = laneAt (cntLane s l 0 1) j := by
    unfold noteAccepted
    dsimp only
    split <;> rfl
  rw [h, cntLane, laneAt_setLane]
  rfl

theorem noteAccepted_frame : (noteAccepted s l).fab.ports = s.fab.ports ∧ (noteAccepted s l).fab.tim = s.fab.tim ∧
    (noteAccepted s l).fab.bpm = s.fab.bpm ∧ beyondFabric (noteAccepted s l) = beyondFabric s := by
  unfold noteAccepted
  dsimp only
  split <;> exact ⟨rfl, rfl, rfl, rfl⟩

/-- A link-local unit that its checks let through acts on a lane that is up, or brings up one that awaits its first CREDIT. -/
theorem receive_linkLocal (hp : portOf s l = some p)
    (hu : (laneAt s l).st = .up ∨ ((laneAt s l).st = .ident ∧ (laneAt s l).peerOk = true ∧ u.typ = 8))
    (hh : unitHeaderOk u = true) (hc : crc32c u.payload = u.crc) (hl : isLinkLocal u.typ = true) (ha : typeAllowed s l u = true) :
    receive s l u = linkLocal (noteAccepted s l) l p u := by
  have hopen : ((laneAt s l).st == .up || ((laneAt s l).st == .ident && (laneAt s l).peerOk && u.typ == 8)) = true := by
    rcases hu with h | ⟨h1, h2, h3⟩
    · simp [h]
    · simp [h1, h2, h3]
  unfold receive
  dsimp only
  rw [hp]
  dsimp only
  rw [hopen, hh, hc, hl, ha]
  simp

/-! ### CREDIT (R344, R352) -/

/-- What an acknowledgement leaves of a lane's retry buffer (R349). -/
def ackedRetry (L : Lane) (a : Nat) : List RetryRec :=
  match L.retry.findIdx? (fun r => r.unit.linkSeq == a) with
  | some k => L.retry.drop (k + 1)
  | none => L.retry

theorem laneAt_ackLane_ne {j a : Nat} (h : j ≠ l) : laneAt (ackLane s l a) j = laneAt s j := by
  unfold ackLane
  dsimp only
  split
  · rfl
  · show lookupD (insertKey s.fab.lanes l _) j {} = laneAt s j
    rw [lookupD_insertKey, if_neg (Ne.symm h)]
    rfl

theorem laneAt_ackLane_self {a : Nat} : (laneAt (ackLane s l a) l).st = (laneAt s l).st ∧
    (laneAt (ackLane s l a) l).retry = ackedRetry (laneAt s l) a := by
  unfold ackLane ackedRetry
  dsimp only
  cases (laneAt s l).retry.findIdx? (fun r => r.unit.linkSeq == a) with
  | none => exact ⟨rfl, rfl⟩
  | some i =>
    refine ⟨?_, ?_⟩
    · show (lookupD (insertKey s.fab.lanes l _) l {}).st = _
      rw [lookupD_insertKey, if_pos rfl]
    · show (lookupD (insertKey s.fab.lanes l _) l {}).retry = _
      rw [lookupD_insertKey, if_pos rfl]

theorem ackLane_frame {a : Nat} : (ackLane s l a).fab.ports = s.fab.ports ∧ (ackLane s l a).fab.bpm = s.fab.bpm ∧
    beyondFabric (ackLane s l a) = beyondFabric s := by
  unfold ackLane
  dsimp only
  split <;> exact ⟨rfl, rfl, rfl⟩

/-- The acknowledgement of lane `i` of a port in a CREDIT cell. -/
def creditAck (p : Nat) (g : Nat → Nat) (s : State) (i : Nat) : State :=
  if natBit (g i) 15 then ackLane s (p + i) (g i % 1024) else s

/-- What acknowledgements keep: ports, buffers, the state of every lane, and the module beyond its fabric. -/
def creditView (s : State) := (s.fab.ports, s.fab.bpm, beyondFabric s, fun j => (laneAt s j).st)

theorem creditView_creditAck {g : Nat → Nat} {i : Nat} : creditView (creditAck p g s i) = creditView s := by
  unfold creditAck creditView
  split
  · obtain ⟨h1, h2, h3⟩ := ackLane_frame (s := s) (l := p + i) (a := g i % 1024)
    rw [h1, h2, h3]
    refine congrArg (fun f => (s.fab.ports, s.fab.bpm, beyondFabric s, f)) (funext fun j => ?_)
    by_cases hj : j = p + i
    · rw [hj]
      exact laneAt_ackLane_self.1
    · rw [laneAt_ackLane_ne hj]
  · rfl

theorem laneAt_creditAck_ne {g : Nat → Nat} {i j : Nat} (h : j ≠ i) : laneAt (creditAck p g s i) (p + j) = laneAt s (p + j) := by
  unfold creditAck
  split
  · exact laneAt_ackLane_ne (by omega)
  · rfl

/-- Every lane of the port is acknowledged once. -/
theorem retry_creditAcks {g : Nat → Nat} (n : Nat) (j : Nat) :
    (laneAt ((List.range n).foldl (creditAck p g) s) (p + j)).retry =
      if j < n ∧ natBit (g j) 15 = true then ackedRetry (laneAt s (p + j)) (g j % 1024) else (laneAt s (p + j)).retry := by
  induction n with
  | zero => simp
  | succ n ih =>
    rw [List.range_succ, List.foldl_append, List.foldl_cons, List.foldl_nil]
    by_cases hj : j = n
    · subst hj
      have hsame : laneAt ((List.range j).foldl (creditAck p g) s) (p + j) = laneAt s (p + j) := by
        refine foldl_keeps_of (v := fun s => laneAt s (p + j)) (P := fun _ i => i ≠ j) (fun s i hi => laneAt_creditAck_ne (Ne.symm hi)) _ s ?_
        intro i hi
        exact Nat.ne_of_lt (List.mem_range.mp hi)
      unfold creditAck at hsame ⊢
      split
      next hb =>
        rw [laneAt_ackLane_self.2, hsame, if_pos ⟨Nat.lt_succ_self j, hb⟩]
      next hb => rw [hsame, if_neg (fun h => hb h.2)]
    · rw [laneAt_creditAck_ne hj, ih]
      have hiff : j < n + 1 ↔ j < n := by omega
      simp only [hiff]

/-- What CREDIT leaves of its link. -/
theorem recvCredit_acts (hst : (laneAt s l).st = .up ∨ ((laneAt s l).st = .ident ∧ (laneAt s l).peerOk = true)) :
    let g (off n : Nat) := leVal (slice u.payload off n)
    (laneAt (recvCredit s l p u) l).st = .up ∧ (portAt (recvCredit s l p u) p).grantTx = (List.range 8).map (fun k => g (4 * k) 4) ∧
      (∀ i, i < min 4 (portAt s p).lanes → (laneAt (recvCredit s l p u) (p + i)).retry =
        if natBit (g (32 + 2 * i) 2) 15 then ackedRetry (laneAt s (p + i)) (g (32 + 2 * i) 2 % 1024) else (laneAt s (p + i)).retry) ∧
      (recvCredit s l p u).fab.bpm = s.fab.bpm ∧ beyondFabric (recvCredit s l p u) = beyondFabric s := by
  dsimp only
  unfold recvCredit
  extract_lets g s1 s2
  have hfold : (List.range (min 4 (portAt s2 p).lanes)).foldl (fun s i => let a := g (32 + 2 * i) 2
      if natBit a 15 then ackLane s (p + i) (a % 1024) else s) s2 =
      (List.range (min 4 (portAt s2 p).lanes)).foldl (creditAck p (fun i => g (32 + 2 * i) 2)) s2 := rfl
  have hport : portAt s2 p = { portAt s p with grantTx := (List.range 8).map (fun k => g (4 * k) 4) } := by
    rw [portAt_setPort, if_pos rfl]
    rfl
  have hlane (j : Nat) : (laneAt s2 j).retry = (laneAt s j).retry := by
    show (laneAt s1 j).retry = _
    rw [laneAt_setLane]
    split
    next hj =>
      rw [hj]
      split <;> rfl
    next => rfl
  have hup : (laneAt s2 l).st = .up := by
    show (laneAt s1 l).st = _
    rw [laneAt_setLane, if_pos rfl]
    rcases hst with h | ⟨h1, h2⟩
    · simp [h]
    · simp [h1, h2]
  rw [hfold]
  have hframe : creditView ((List.range (min 4 (portAt s2 p).lanes)).foldl (creditAck p (fun i => g (32 + 2 * i) 2)) s2) = creditView s2 :=
    foldl_keeps (fun _ _ => creditView_creditAck) _ _
  simp only [creditView, Prod.mk.injEq] at hframe
  obtain ⟨hports, hbpm, hbeyond, hst'⟩ := hframe
  refine ⟨(congrFun hst' l).trans hup, ?_, fun i hi => ?_, hbpm, hbeyond⟩
  · rw [portAt_of_ports hports, hport]
  · rw [retry_creditAcks, hport]
    have hlt : i < min 4 (portAt s p).lanes := hi
    by_cases hb : natBit (g (32 + 2 * i) 2) 15 = true
    · rw [if_pos ⟨hlt, hb⟩, if_pos hb]
      unfold ackedRetry
      rw [hlane]
    · rw [if_neg (fun h => hb h.2), if_neg hb, hlane]

/-! ### LINK_NAK (R351) -/

/-- A round of retransmissions from a unit that the lane still holds (R351). -/
theorem startRound_round {i expect : Nat} (hi : (laneAt s l).retry.findIdx? (fun r => r.unit.linkSeq == expect) = some i)
    (hr : (if (laneAt s l).roundFrom = expect then (laneAt s l).rounds else 0) < max 1 (laneAt s l).nakLimit) :
    OnlyLane s (startRound s l expect) l { laneAt s l with
      resend := ((laneAt s l).retry.drop i).map (·.unit)
      rounds := (if (laneAt s l).roundFrom = expect then (laneAt s l).rounds else 0) + 1, roundFrom := expect
      retry := (laneAt s l).retry.map (fun r => { r with sentAt := s.now })
      cnt := bumpAt (laneAt s l).cnt 5 (((laneAt s l).retry.drop i).map (·.unit)).length } := by
  unfold startRound
  dsimp only
  rw [hi]
  dsimp only
  rw [if_neg (Nat.not_le.mpr hr)]
  exact onlyLane_setLane.setLane

/-! ### TIME (R303, R324) -/

/-- What a port notes of a TIME frame that comes at a fabric time. -/
def portTimed (u : LinkUnit) (time now : Nat) (P : Port) : Port :=
  { P with
    timeRx := (leVal (slice u.payload 0 8), time), peerStratum := leVal (slice u.payload 40 1), timeAt := some now
    peerSched := (leVal (slice u.payload 24 8), leVal (slice u.payload 41 1) % 4, leVal (slice u.payload 32 8))
    peerHold := natBit (leVal (slice u.payload 41 1)) 2 || natBit (leVal (slice u.payload 41 1)) 3 }

/-- A module that keeps no time only notes a TIME frame. -/
theorem recvTime_idle (hk : keepsTime s = false) : recvTime s p u = setPort s p (portTimed u s.fabricTime s.now) := by
  unfold recvTime
  exact if_pos (by rw [show keepsTime (setPort s p _) = keepsTime s from rfl, hk]; rfl)

/-! ### Each unit as it is received -/

theorem creditCell_acts (hp : portOf s l = some p)
    (hst : (laneAt s l).st = .up ∨ ((laneAt s l).st = .ident ∧ (laneAt s l).peerOk = true))
    (hh : unitHeaderOk (asType 8 u) = true) (hc : crc32c u.payload = u.crc) (ha : typeAllowed s l (asType 8 u) = true) :
    let g (off n : Nat) := leVal (slice u.payload off n)
    ∃ t, exec (.creditCell l u) s = .next t ∧ (laneAt t l).st = .up ∧
      (portAt t p).grantTx = (List.range 8).map (fun k => g (4 * k) 4) ∧
      (∀ i, i < min 4 (portAt s p).lanes →
        let a := g (32 + 2 * i) 2
        let L := laneAt s (p + i)
        (laneAt t (p + i)).retry = if natBit a 15 then
            (match L.retry.findIdx? (fun r => r.unit.linkSeq == a % 1024) with
              | some k => L.retry.drop (k + 1) | none => L.retry)
          else L.retry) ∧
      t.fab.bpm = s.fab.bpm ∧ FabricOnly s t := by
  have hlane (j : Nat) : (laneAt (noteAccepted s l) j).st = (laneAt s j).st ∧ (laneAt (noteAccepted s l) j).peerOk = (laneAt s j).peerOk ∧
      (laneAt (noteAccepted s l) j).retry = (laneAt s j).retry := by
    rw [laneAt_noteAccepted]
    split
    next h => rw [← h]; exact ⟨rfl, rfl, rfl⟩
    next => exact ⟨rfl, rfl, rfl⟩
  obtain ⟨hports, -, hbpm, hbeyond⟩ := noteAccepted_frame (s := s) (l := l)
  have hport : portAt (noteAccepted s l) = portAt s := portAt_of_ports hports
  obtain ⟨h1, h2, h3, h4, h5⟩ := recvCredit_acts (s := noteAccepted s l) (l := l) (p := p) (u := asType 8 u)
    (by rw [(hlane l).1, (hlane l).2.1]; exact hst)
  refine ⟨_, exec_unitOf (c := .creditCell l u) rfl, ?_⟩
  rw [receive_linkLocal hp (hst.imp_right fun h => ⟨h.1, h.2, rfl⟩) hh hc rfl ha]
  refine ⟨h1, h2, fun j hj => ?_, h4.trans hbpm, FabricOnly.of_beyondFabric (h5.trans hbeyond)⟩
  rw [hport] at h3
  refine (h3 j hj).trans ?_
  unfold ackedRetry
  rw [(hlane (p + j)).2.2]
  rfl

theorem linkNak_acts {i : Nat} (hp : portOf s l = some p) (hst : (laneAt s l).st = .up) (hh : unitHeaderOk (asType 9 u) = true)
    (hc : crc32c u.payload = u.crc) (ha : typeAllowed s l (asType 9 u) = true) :
    let m := p + leVal (u.payload.take 1) % 4
    let L := laneAt s m
    let from' := leVal (slice u.payload 2 2) % 1024
    let rounds := if L.roundFrom = from' then L.rounds else 0
    L.retry.findIdx? (fun r => r.unit.linkSeq == from') = some i → rounds < max 1 L.nakLimit →
    ∃ t, exec (.linkNak l u) s = .next t ∧ (laneAt t m).resend = (L.retry.drop i).map (·.unit) ∧
      (laneAt t m).rounds = rounds + 1 ∧ (laneAt t m).roundFrom = from' ∧ (laneAt t l).nakHeard = leVal (slice u.payload 1 1) ∧
      (∀ j, j ≠ l → j ≠ m → laneAt t j = laneAt s j) ∧ t.fab.ports = s.fab.ports ∧ FabricOnly s t := by
  intro m L from' rounds hi hr
  obtain ⟨hports, -, -, hbeyond⟩ := noteAccepted_frame (s := s) (l := l)

  set s2 := cntLane (setLane (noteAccepted s l) l (fun L => { L with nakHeard := leVal (slice u.payload 1 1) })) l 4 1 with hs2
  have hself : laneAt s2 l = counted { counted (laneAt s l) 0 with nakHeard := leVal (slice u.payload 1 1) } 4 := by
    rw [hs2, cntLane, laneAt_setLane, if_pos rfl, laneAt_setLane, if_pos rfl, laneAt_noteAccepted, if_pos rfl]
    rfl
  have hother (j : Nat) (hj : j ≠ l) : laneAt s2 j = laneAt s j := by
    rw [hs2, cntLane, laneAt_setLane, if_neg (Ne.symm hj), laneAt_setLane, if_neg (Ne.symm hj), laneAt_noteAccepted,
      if_neg (Ne.symm hj)]
  have hlane : (laneAt s2 m).retry = (laneAt s m).retry ∧ (laneAt s2 m).rounds = (laneAt s m).rounds ∧
      (laneAt s2 m).roundFrom = (laneAt s m).roundFrom ∧ (laneAt s2 m).nakLimit = (laneAt s m).nakLimit := by
    by_cases hj : m = l
    · rw [hj, hself]
      exact ⟨rfl, rfl, rfl, rfl⟩
    · rw [hother m hj]
      exact ⟨rfl, rfl, rfl, rfl⟩
  obtain ⟨hretry, hrounds, hfrom, hlimit⟩ := hlane
  have hround := startRound_round (s := s2) (l := m) (i := i) (expect := leVal (slice u.payload 2 2) % 1024)
    (by rw [hretry]; exact hi) (by rw [hfrom, hrounds, hlimit]; exact hr)
  rw [hretry, hrounds, hfrom] at hround
  have hrecv : receive s l (asType 9 u) = startRound s2 m (leVal (slice u.payload 2 2) % 1024) := by
    rw [receive_linkLocal hp (.inl hst) hh hc rfl ha]
    rfl
  refine ⟨_, exec_unitOf (c := .linkNak l u) rfl, ?_⟩
  show (laneAt (receive s l (asType 9 u)) m).resend = _ ∧ _
  rw [show traced s (receive s l (asType 9 u)) = traced s (startRound s2 m (leVal (slice u.payload 2 2) % 1024)) from
    congrArg _ hrecv, hrecv]
  generalize startRound s2 m (leVal (slice u.payload 2 2) % 1024) = t2 at hround ⊢
  have hports2 : t2.fab.ports = s.fab.ports := by rw [hround.2.2]; exact hports
  have hbeyond2 : beyondFabric t2 = beyondFabric s := by rw [hround.2.2]; exact hbeyond
  obtain ⟨hsm, hothers, -⟩ := hround
  refine ⟨congrArg Lane.resend hsm, congrArg Lane.rounds hsm, congrArg Lane.roundFrom hsm, ?_, fun j hjl hjm => ?_, hports2,
    FabricOnly.of_beyondFabric hbeyond2⟩
  · show (laneAt t2 l).nakHeard = _
    by_cases hj : l = m
    · rw [hj, hsm, ← hj, hself]
      rfl
    · rw [hothers l hj, hself]
      rfl
  · exact (hothers j hjm).trans (hother j hjl)

theorem timeFrame_acts (hp : portOf s l = some p) (hst : (laneAt s l).st = .up) (hh : unitHeaderOk (asType 10 u) = true)
    (hc : crc32c u.payload = u.crc) (ha : typeAllowed s l (asType 10 u) = true) (hk : keepsTime s = false) :
    let g (off n : Nat) := leVal (slice u.payload off n)
    ∃ t, exec (.timeFrame l u) s = .next t ∧ (portAt t p).timeRx = (g 0 8, s.fabricTime) ∧
      (portAt t p).peerSched = (g 24 8, g 41 1 % 4, g 32 8) ∧ (portAt t p).peerStratum = g 40 1 ∧
      (portAt t p).timeAt = some s.now ∧ (laneAt t l).cnt = bumpAt (laneAt s l).cnt 0 1 ∧
      (∀ j, j ≠ p → portAt t j = portAt s j) ∧ t.fab.tim = s.fab.tim ∧ FabricOnly s t := by
  obtain ⟨hports, htim, -, hbeyond⟩ := noteAccepted_frame (s := s) (l := l)
  have hk' : keepsTime (noteAccepted s l) = false := by
    unfold keepsTime
    rw [show (noteAccepted s l).mgt = s.mgt from (congrArg State.mgt hbeyond :)]
    exact hk
  have hrecv : receive s l (asType 10 u) = setPort (noteAccepted s l) p (portTimed u s.fabricTime s.now) := by
    rw [receive_linkLocal hp (.inl hst) hh hc rfl ha, show linkLocal (noteAccepted s l) l p (asType 10 u) = recvTime _ p _ from rfl,
      recvTime_idle hk', show (noteAccepted s l).fabricTime = s.fabricTime from (congrArg State.fabricTime hbeyond :),
      show (noteAccepted s l).now = s.now from (congrArg State.now hbeyond :)]
    rfl
  have hself : portAt (traced s (setPort (noteAccepted s l) p (portTimed u s.fabricTime s.now))) p =
      portTimed u s.fabricTime s.now (portAt (noteAccepted s l) p) := portAt_setPort.trans (if_pos rfl)
  refine ⟨_, exec_unitOf (c := .timeFrame l u) rfl, ?_⟩
  rw [hrecv, hself]
  refine ⟨rfl, rfl, rfl, rfl, ?_, fun j hj => ?_, htim, FabricOnly.of_beyondFabric hbeyond⟩
  · exact (congrArg Lane.cnt (laneAt_noteAccepted (s := s) (l := l) (j := l)) :).trans (congrArg Lane.cnt (if_pos rfl))
  · refine Eq.trans ?_ (congrFun (portAt_of_ports hports) j)
    exact portAt_setPort.trans (if_neg (Ne.symm hj))

end LinkLocal

/-- Settles O29: each link-local unit's effect from the state after its acceptance, which counts it and no more of what the effect reads. -/
theorem linkLocalUnitsAct : Obligations.LinkLocalUnitsAct := by
  unfold Obligations.LinkLocalUnitsAct
  exact ⟨fun l p u s hp hst hh hc ha => creditCell_acts hp hst hh hc ha, fun l p u s i hp hst hh hc ha => linkNak_acts hp hst hh hc ha,
    fun l p u s hp hst hh hc ha hk => timeFrame_acts hp hst hh hc ha hk⟩

end Sys2Proof.Machine
end

section
/-! Retransmission rounds, retraining, the repeated LINK_NAK and CREDIT_SEND (R344, R350 to R352), what a lane that goes
down leaves (R359), and the obligation O34. -/

namespace Sys2Proof.Machine

/-! ### Units that leave the queues of a port -/

/-- A lane without its counters. -/
def countless (L : Lane) : Lane := { L with cnt := [] }

section Leaving

variable {s : State} {l p : Nat}

theorem countless_cntLane {k n j : Nat} : countless (laneAt (cntLane s l k n) j) = countless (laneAt s j) := by
  rw [cntLane, laneAt_setLane]
  split
  next h => rw [h]; rfl
  next => rfl

/-- A unit that leaves its output queue is counted on its ingress lane, and its cells return. -/
theorem countless_leaves {e : OutEntry} {k : Nat} (j : Nat) :
    countless (laneAt (setPort (leaveAlloc (match e.ingress with | some i => cntLane s i k 1 | none => s) e.alloc p
      (unitClass e.unit) e.unit.job) p (fun P => dropEntry P e)) j) = countless (laneAt s j) := by
  refine (congrArg countless (congrFun (laneAt_of_stagingView stagingView_leaveAlloc) j) :).trans ?_
  split
  · exact countless_cntLane
  · rfl

theorem beyondFabric_leaveAlloc {a : Option Nat} {c j : Nat} : beyondFabric (leaveAlloc s a p c j) = beyondFabric s :=
  beyondFabric_of_stagingView stagingView_leaveAlloc

theorem beyondFabric_leaves {e : OutEntry} {k : Nat} :
    beyondFabric (setPort (leaveAlloc (match e.ingress with | some i => cntLane s i k 1 | none => s) e.alloc p
      (unitClass e.unit) e.unit.job) p (fun P => dropEntry P e)) = beyondFabric s := by
  rw [beyondFabric_setPort, beyondFabric_leaveAlloc]
  split
  · exact beyondFabric_cntLane
  · rfl

/-- The units of a port that is down change no lane but its counters. -/
theorem countless_flushPort (j : Nat) : countless (laneAt (flushPort s p) j) = countless (laneAt s j) :=
  foldl_keeps (v := fun s => countless (laneAt s j)) (fun _ _ => countless_leaves j) _ _

@[simp] theorem beyondFabric_flushPort : beyondFabric (flushPort s p) = beyondFabric s :=
  foldl_keeps (v := beyondFabric) (fun _ _ => beyondFabric_leaves) _ _

end Leaving

/-! ### Lanes that go down -/

/-- A lane that has gone down with a cause (R359). -/
def laneDowned (L : Lane) (cause : Nat) : Lane :=
  { L with st := if L.enable then .down else .disabled
           lightRx := L.lightRx && cause != 1, peerOk := false, polFixed := false, orderFixed := false
           txSeq := 0, rxExpect := 0, retry := [], rounds := 0, resend := [], tx := none, locals := []
           nakAt := none, missing := false, rxAny := false, ackUnits := 0, ackBytes := 0, ackSince := none }

section Down

variable {s : State} {l cause : Nat} {report : Bool}

theorem countless_laneGoesDown : countless (laneAt (laneGoesDown s l cause report) l) = countless (laneDowned (laneAt s l) cause) := by
  unfold laneGoesDown
  extract_lets L lost s1 s2 s3 s4
  have h1 : laneAt s1 l = laneDowned (laneAt s l) cause := by simp [s1, laneDowned]
  have h2 : laneAt s2 l = laneAt s1 l := by
    unfold s2; split
    · exact congrFun (laneAt_of_stagingView stagingView_leaveAlloc) l
    · rfl
  have h3 : countless (laneAt s3 l) = countless (laneAt s2 l) := by
    unfold s3; split
    · rfl
    · exact countless_cntLane
  have h4 : countless (laneAt s4 l) = countless (laneAt s3 l) := by
    unfold s4; split
    · exact countless_flushPort l
    · rfl
  rw [← h1, ← h2, ← h3, ← h4]
  split <;> rfl

@[simp] theorem beyondFabric_laneGoesDown : beyondFabric (laneGoesDown s l cause report) = beyondFabric s := by
  unfold laneGoesDown
  extract_lets L lost s1 s2 s3 s4
  have h2 : beyondFabric s2 = beyondFabric s := by
    unfold s2; split
    · exact beyondFabric_leaveAlloc
    · rfl
  have h3 : beyondFabric s3 = beyondFabric s2 := by unfold s3; split <;> rfl
  have h4 : beyondFabric s4 = beyondFabric s3 := by
    unfold s4; split
    · exact beyondFabric_flushPort
    · rfl
  rw [← h2, ← h3, ← h4]
  split <;> rfl

theorem attn_laneGoesDown : (laneGoesDown s l cause true).attn &&& aFault = aFault := attn_setAttn_and

end Down

/-! ### Rounds, LINK_NAK and CREDIT -/

section Retry

variable {s : State} {l p : Nat}

theorem findIdx_oldest {r : RetryRec} {rest : List RetryRec} :
    (r :: rest).findIdx? (fun x => x.unit.linkSeq == r.unit.linkSeq) = some 0 := by simp [List.findIdx?_cons]

theorem linkRetryTimeout_due {r : RetryRec} {rest : List RetryRec} (hr : (laneAt s l).retry = r :: rest) (hup : (laneAt s l).st = .up)
    (ht : r.sentAt + 20000 ≤ s.now) (hs : (laneAt s l).resend = []) :
    exec (.linkRetryTimeout l) s = .next (traced s (startRound s l r.unit.linkSeq)) := by
  have h : doLinkRetryTimeout l s = startRound s l r.unit.linkSeq := by
    unfold doLinkRetryTimeout
    dsimp only
    rw [hr]
    exact if_pos ⟨hup, ht, hs⟩
  exact congrArg (fun t => Host.Outcome.next (traced s t)) h

theorem retryTimeout_round {r : RetryRec} {rest : List RetryRec} (hr : (laneAt s l).retry = r :: rest) (hup : (laneAt s l).st = .up)
    (ht : r.sentAt + 20000 ≤ s.now) (hs : (laneAt s l).resend = [])
    (hn : (if (laneAt s l).roundFrom = r.unit.linkSeq then (laneAt s l).rounds else 0) < max 1 (laneAt s l).nakLimit) :
    ∃ t, exec (.linkRetryTimeout l) s = .next t ∧ OnlyLane s t l { laneAt s l with
      resend := (laneAt s l).retry.map (·.unit)
      rounds := (if (laneAt s l).roundFrom = r.unit.linkSeq then (laneAt s l).rounds else 0) + 1, roundFrom := r.unit.linkSeq
      cnt := bumpAt (laneAt s l).cnt 5 (laneAt s l).retry.length
      retry := (laneAt s l).retry.map (fun r => { r with sentAt := s.now }) } := by
  have hi : (laneAt s l).retry.findIdx? (fun x => x.unit.linkSeq == r.unit.linkSeq) = some 0 := by rw [hr]; exact findIdx_oldest
  refine ⟨_, linkRetryTimeout_due hr hup ht hs, ?_⟩
  have hround := (startRound_round hi hn).traced (r := s)
  simpa only [List.drop_zero, List.length_map] using hround

/-- The lane is trained again once NAK_LIMIT rounds have gone. -/
theorem retryTimeout_retrains {r : RetryRec} {rest : List RetryRec} (hr : (laneAt s l).retry = r :: rest) (hup : (laneAt s l).st = .up)
    (ht : r.sentAt + 20000 ≤ s.now) (hs : (laneAt s l).resend = []) (hf : (laneAt s l).roundFrom = r.unit.linkSeq)
    (hn : max 1 (laneAt s l).nakLimit ≤ (laneAt s l).rounds) :
    ∃ t, exec (.linkRetryTimeout l) s = .next t ∧ (laneAt t l).st = (if (laneAt s l).enable then .down else .disabled) ∧
      (laneAt t l).retry = [] ∧ (laneAt t l).txSeq = 0 ∧ (laneAt t l).rxExpect = 0 ∧ t.attn &&& aFault = aFault ∧
      t.coll = s.coll ∧ FabricOnly s t := by
  have hi : (laneAt s l).retry.findIdx? (fun x => x.unit.linkSeq == r.unit.linkSeq) = some 0 := by rw [hr]; exact findIdx_oldest
  have hround : startRound s l r.unit.linkSeq = retrainLane s l 3 := by
    unfold startRound
    dsimp only
    rw [hi]
    dsimp only
    rw [if_pos hf]
    exact if_pos hn
  refine ⟨_, linkRetryTimeout_due hr hup ht hs, ?_⟩
  rw [hround]
  have hlane : countless (laneAt (retrainLane s l 3) l) = countless (laneDowned (laneAt s l) 3) :=
    countless_laneGoesDown.trans (by rw [cntLane, laneAt_setLane, if_pos rfl]; rfl)
  have hbeyond : beyondFabric (retrainLane s l 3) = beyondFabric s := beyondFabric_laneGoesDown.trans beyondFabric_cntLane
  have hattn : (retrainLane s l 3).attn &&& aFault = aFault := attn_laneGoesDown
  generalize retrainLane s l 3 = t at hlane hbeyond hattn
  exact ⟨(congrArg Lane.st hlane :), (congrArg Lane.retry hlane :), (congrArg Lane.txSeq hlane :), (congrArg Lane.rxExpect hlane :),
    hattn, (congrArg State.coll hbeyond :), FabricOnly.of_beyondFabric hbeyond⟩

/-- LINK_NAK of a cause that is repeated while the unit is missing, or of a bad header. -/
theorem onlyLane_sendNak {c : Nat} : OnlyLane s (sendNak s l c) l (nakked (laneAt s l) l ((portOf s l).getD l) c s.now) := by
  have hcell := fun u : LinkUnit =>
    (onlyLane_setLane (s := s) (l := l) (f := fun M => { M with locals := M.locals ++ [sealUnit u] })).setLane
      (f := fun M => { M with cnt := bumpAt M.cnt 3 1 })
  unfold Machine.sendNak nakked cntLane sendLocal
  dsimp only
  split
  · exact hcell _
  · exact (hcell _).setLane

theorem linkNakRepeat_sends {n : Nat} (hn : (laneAt s l).nakAt = some ((laneAt s l).rxExpect, n)) (hup : (laneAt s l).st = .up)
    (hm : (laneAt s l).missing = true) (ht : n + 5000 ≤ s.now) :
    ∃ t, exec (.linkNakRepeat l) s = .next t ∧
      OnlyLane s t l (nakked (laneAt s l) l ((portOf s l).getD l) (laneAt s l).nakCause s.now) := by
  have h : doLinkNakRepeat l s = sendNak s l (laneAt s l).nakCause := by
    unfold doLinkNakRepeat
    dsimp only
    rw [hn]
    exact if_pos ⟨hup, hm, rfl, ht⟩
  exact ⟨_, congrArg (fun t => Host.Outcome.next (traced s t)) h, onlyLane_sendNak.traced⟩

/-- Nothing is left to acknowledge on a lane. -/
def ackedNow (L : Lane) : Lane := { L with ackUnits := 0, ackBytes := 0, ackSince := none }

/-- The lanes of a list that have been acknowledged, and the others as they were. -/
theorem laneAt_ackedNow (ls : List Nat) (s : State) (j : Nat) :
    laneAt (ls.foldl (fun s l => setLane s l ackedNow) s) j = if j ∈ ls then ackedNow (laneAt s j) else laneAt s j := by
  induction ls generalizing s with
  | nil => rfl
  | cons i is ih =>
    rw [List.foldl_cons, ih, laneAt_setLane]
    by_cases hi : i = j
    · subst hi
      simp [ackedNow]
    · simp [hi, Ne.symm hi]

theorem ports_ackedNow (ls : List Nat) (s : State) : (ls.foldl (fun s l => setLane s l ackedNow) s).fab.ports = s.fab.ports :=
  foldl_keeps (v := fun s : State => s.fab.ports) (f := fun s l => setLane s l ackedNow) (fun _ _ => rfl) _ _

theorem beyondFabric_ackedNow (ls : List Nat) (s : State) :
    beyondFabric (ls.foldl (fun s l => setLane s l ackedNow) s) = beyondFabric s :=
  foldl_keeps (v := beyondFabric) (f := fun s l => setLane s l ackedNow) (fun _ _ => rfl) _ _

theorem creditSend_sends (hp : portOf s l = some p) (hup : (laneAt s l).st = .up) (hd : creditDueNow s p = true) :
    ∃ t, exec (.creditSend l) s = .next t ∧ (laneAt t l).locals = (laneAt s l).locals ++ [sealUnit (creditUnit s p)] ∧
      (∀ j, j ∈ portLanes s p → (laneAt t j).ackUnits = 0 ∧ (laneAt t j).ackBytes = 0 ∧ (laneAt t j).ackSince = none) ∧
      portAt t p = { portAt s p with creditDue := none, creditAt := s.now } ∧ t.coll = s.coll ∧ FabricOnly s t := by
  have h : doCreditSend l s = sendCredit s p l := by
    unfold doCreditSend
    rw [hp]
    exact if_pos ⟨hup, hd⟩
  refine ⟨_, congrArg (fun t => Host.Outcome.next (traced s t)) h, ?_⟩
  set s1 := setPort (sendLocal s l (creditUnit s p)) p (fun P => { P with creditDue := none, creditAt := s.now }) with hs1
  have hport : portAt s1 p = { portAt s p with creditDue := none, creditAt := s.now } := by
    rw [hs1, portAt_setPort, if_pos rfl]
    rfl
  have hlanes : portLanes s1 p = portLanes s p := by
    unfold portLanes
    rw [hport]
  have hsend : sendCredit s p l = (portLanes s p).foldl (fun s l => setLane s l ackedNow) s1 := by
    rw [← hlanes]
    rfl
  have hlane : laneAt s1 l = { laneAt s l with locals := (laneAt s l).locals ++ [sealUnit (creditUnit s p)] } := by
    show laneAt (sendLocal s l (creditUnit s p)) l = _
    rw [sendLocal, laneAt_setLane, if_pos rfl]
  have hall := laneAt_ackedNow (portLanes s p) s1
  have hports := ports_ackedNow (portLanes s p) s1
  have hbeyond : beyondFabric ((portLanes s p).foldl (fun s l => setLane s l ackedNow) s1) = beyondFabric s :=
    beyondFabric_ackedNow _ _
  rw [hsend]
  generalize (portLanes s p).foldl (fun s l => setLane s l ackedNow) s1 = t at hall hports hbeyond
  refine ⟨?_, fun j hj => ?_, ?_, (congrArg State.coll hbeyond :), FabricOnly.of_beyondFabric hbeyond⟩
  · show (laneAt t l).locals = _
    rw [hall, hlane]
    split <;> rfl
  · show (laneAt t j).ackUnits = 0 ∧ _
    rw [show laneAt (traced s t) j = laneAt t j from rfl, hall, if_pos hj]
    exact ⟨rfl, rfl, rfl⟩
  · exact (congrFun (portAt_of_ports hports) p :).trans hport

end Retry

/-- Settles O34: what one lane holds decides its round or its retraining, and CREDIT_SEND acknowledges every lane of the port. -/
theorem retryAndCreditKeepGoing : Obligations.RetryAndCreditKeepGoing := by
  unfold Obligations.RetryAndCreditKeepGoing
  exact ⟨fun l s r rest hr hup ht hs hn => retryTimeout_round hr hup ht hs hn,
    fun l s r rest hr hup ht hs hf hn => retryTimeout_retrains hr hup ht hs hf hn,
    fun l s n hn hup hm ht => linkNakRepeat_sends hn hup hm ht,
    fun l p s hp hup hd => creditSend_sends hp hup hd⟩

end Sys2Proof.Machine
end

section
/-! Selection at an egress port and the end of a transmission (R346, R349, R355, R368, R378 to R380, R393), and the
obligation O33. -/

namespace Sys2Proof.Machine

/-! ### Late and aged units -/

section Ageing

variable {s : State} {p : Nat}

theorem beyondFabric_markLate : beyondFabric (markLate s p) = beyondFabric s := by
  unfold markLate
  split <;> rfl

theorem beyondFabric_dropAged : beyondFabric (dropAged s p) = beyondFabric s := by
  unfold dropAged
  refine beyondFabric_setPort.trans (foldl_keeps (v := beyondFabric) (fun s e => ?_) _ _)
  split
  · exact beyondFabric_leaves
  · rfl

theorem beyondFabric_aged : beyondFabric (dropAged (markLate s p) p) = beyondFabric s :=
  beyondFabric_dropAged.trans beyondFabric_markLate

end Ageing

/-! ### A selected unit starts -/

section Start

variable {s : State} {l p : Nat} {e : OutEntry}

/-- The tags of a port say nothing of its queues or of its credits. -/
theorem takeTags_keeps {P : Port} : (takeTags s p P e).out = P.out ∧ (takeTags s p P e).usedTx = P.usedTx := by
  unfold takeTags
  dsimp only
  split_ifs <;> exact ⟨rfl, rfl⟩

theorem beyondFabric_startUnit : beyondFabric (startUnit s p l e) = beyondFabric s := by
  unfold startUnit
  dsimp only
  split <;> rfl

/-- The selected unit as its first bit leaves: numbered, and with the time of injection where it is the module's own. -/
def startedUnit (s : State) (l : Nat) (e : OutEntry) : LinkUnit :=
  sealHeader { e.unit with
    linkSeq := (laneAt s l).txSeq
    inject := if e.ingress.isNone && !e.unit.cell then s.fabricTime % 2 ^ 32 else e.unit.inject }

/-- The lane that sends a selected unit. -/
def startedLane (s : State) (l : Nat) (e : OutEntry) (L : Lane) : Lane :=
  { L with tx := some { unit := startedUnit s l e, alloc := e.alloc, slot := e.unit.cell && e.ingress.isSome }
           txSeq := (L.txSeq + 1) % 1024
           retry := L.retry ++ [{ unit := startedUnit s l e, sentAt := s.now }] }

/-- On a lane, a unit that starts is numbered, charged and held for retransmission. -/
theorem startUnit_lane (hp : p < 272) :
    laneAt (startUnit s p l e) l = startedLane s l e (laneAt s l) ∧
      (∀ j, j ≠ l → laneAt (startUnit s p l e) j = laneAt s j) ∧
      (portAt (startUnit s p l e) p).out = (portAt s p).out.erase e ∧
      (portAt (startUnit s p l e) p).usedTx =
        (portAt s p).usedTx.modify (unitClass e.unit) (fun x => (x + unitCost e.unit) % 2 ^ 32) ∧
      (∀ j, j ≠ p → portAt (startUnit s p l e) j = portAt s j) := by
  have hu : sealHeader { (if e.ingress.isNone && !e.unit.cell then { e.unit with inject := s.fabricTime % 2 ^ 32 } else e.unit) with
      linkSeq := (laneAt s l).txSeq } = startedUnit s l e := by
    unfold startedUnit
    split <;> rfl
  set s1 := setPort s p (fun P => takeTags s p (dropEntry P e) e)
  set s2 := setPort s1 p (fun P => { P with
    usedTx := P.usedTx.modify (unitClass (startedUnit s l e)) (fun x => (x + unitCost (startedUnit s l e)) % 2 ^ 32) }) with hs2
  have hstart : ∃ T : Twin, startUnit s p l e = setLane { s2 with fab := { s2.fab with twin := T } } l (startedLane s l e) := by
    unfold startUnit
    dsimp only
    rw [if_neg (Nat.not_le.mpr hp)]
    rw [show (laneAt (setPort s p (fun P => takeTags s p (dropEntry P e) e)) l).txSeq = (laneAt s l).txSeq from rfl,
      show (setPort s p (fun P => takeTags s p (dropEntry P e) e)).fabricTime = s.fabricTime from rfl, hu]
    exact ⟨_, rfl⟩
  obtain ⟨T, hT⟩ := hstart
  have hport (j : Nat) : portAt (startUnit s p l e) j = portAt s2 j := by rw [hT]; rfl
  have hlane (j : Nat) : laneAt (startUnit s p l e) j = if l = j then startedLane s l e (laneAt s l) else laneAt s j := by
    rw [hT, laneAt_setLane]
    split
    next h => rw [h]; rfl
    next => rfl
  have hself : portAt s2 p = { takeTags s p (dropEntry (portAt s p) e) e with
      usedTx := (portAt s p).usedTx.modify (unitClass e.unit) (fun x => (x + unitCost e.unit) % 2 ^ 32) } := by
    rw [hs2, portAt_setPort, if_pos rfl, portAt_setPort, if_pos rfl, takeTags_keeps.2]
    rfl
  refine ⟨(hlane l).trans (if_pos rfl), fun j hj => (hlane j).trans (if_neg (Ne.symm hj)), ?_, ?_, fun j hj => ?_⟩
  · rw [hport, hself]
    exact takeTags_keeps.1
  · rw [hport, hself]
  · rw [hport, hs2, portAt_setPort, if_neg (Ne.symm hj), portAt_setPort, if_neg (Ne.symm hj)]

/-- A port without lanes has one path under its own ID. -/
theorem startUnit_path (hp : 272 ≤ p) :
    (laneAt (startUnit s p p e) p).tx = some { unit := e.unit, alloc := e.alloc, slot := e.unit.cell && e.ingress.isSome } ∧
      (portAt (startUnit s p p e) p).out = (portAt s p).out.erase e := by
  have hstart : startUnit s p p e = setLane (setPort s p (fun P => takeTags s p (dropEntry P e) e)) p
      (fun L => { L with tx := some { unit := e.unit, alloc := e.alloc, slot := e.unit.cell && e.ingress.isSome } }) := by
    unfold startUnit
    dsimp only
    rw [if_pos hp]
  rw [hstart]
  refine ⟨congrArg Lane.tx (laneAt_setLane.trans (if_pos rfl)), ?_⟩
  show (portAt (setPort s p (fun P => takeTags s p (dropEntry P e) e)) p).out = _
  rw [portAt_setPort, if_pos rfl]
  exact takeTags_keeps.1

end Start

/-! ### UNIT_SELECT -/

section Select

variable {s : State} {l p : Nat}

theorem exec_unitSelect {t : State} (h : doUnitSelect l s = t) : exec (.unitSelect l) s = .next (traced s t) :=
  congrArg (fun t => Host.Outcome.next (traced s t)) h

theorem unitSelect_resend {u : LinkUnit} {rest : List LinkUnit} (hl : l < 272) (hx : (laneAt s l).tx = none) (hup : (laneAt s l).st = .up)
    (hr : (laneAt s l).resend = u :: rest) :
    ∃ t, exec (.unitSelect l) s = .next t ∧
      OnlyLane s t l { laneAt s l with tx := some { unit := u, again := true }, resend := rest } := by
  refine ⟨_, exec_unitSelect (t := setLane s l (fun L => { L with tx := some { unit := u, again := true }, resend := rest })) ?_,
    onlyLane_setLane.traced⟩
  simp [doUnitSelect, hx, Nat.not_le.mpr hl, hr, hup]

theorem unitSelect_local {u : LinkUnit} {rest : List LinkUnit} (hl : l < 272) (hx : (laneAt s l).tx = none)
    (hup : (laneAt s l).st = .up ∨ (laneAt s l).st = .ident) (hr : (laneAt s l).resend = []) (hu : (laneAt s l).locals = u :: rest) :
    ∃ t, exec (.unitSelect l) s = .next t ∧
      OnlyLane s t l { laneAt s l with tx := some { unit := stampTime s u, again := true }, locals := rest } := by
  refine ⟨_, exec_unitSelect
    (t := setLane s l (fun L => { L with tx := some { unit := stampTime s u, again := true }, locals := rest })) ?_,
    onlyLane_setLane.traced⟩
  simp [doUnitSelect, hx, Nat.not_le.mpr hl, hr, hu, hup]

theorem unitSelect_new {e : OutEntry} (hl : l < 272) (hx : (laneAt s l).tx = none) (hr : (laneAt s l).resend = [])
    (hu : (laneAt s l).locals = []) (hp : portOf s l = some p) (hup : portUp s p = true)
    (he : selectUnit (dropAged (markLate s p) p) p = some e) (hn : (laneAt s l).retry.length < 512)
    (hb : retryBytes (laneAt s l) + unitSize e.unit ≤ 65536) :
    exec (.unitSelect l) s = .next (traced s (startUnit (dropAged (markLate s p) p) p l e)) := by
  refine exec_unitSelect ?_
  simp [doUnitSelect, hx, Nat.not_le.mpr hl, hr, hu, hp, hup, he, hn, hb]

theorem unitSelect_path {e : OutEntry} (hl : 272 ≤ l) (hid : portIdOk l = true) (hx : (laneAt s l).tx = none)
    (he : selectUnit (dropAged (markLate s l) l) l = some e) :
    exec (.unitSelect l) s = .next (traced s (startUnit (dropAged (markLate s l) l) l l e)) := by
  refine exec_unitSelect ?_
  simp [doUnitSelect, hx, hl, hid, he]

end Select

/-! ### Pointers handed back (R378 to R380) -/

section Release

variable {s : State} {l p : Nat}

theorem bpm_pos_of_allocAt {i id : Nat} {a : Alloc} (h : allocAt s i id = some a) : i < s.fab.bpm.length := by
  by_contra hlt
  have hB : bpmAt s i = {} := List.getD_eq_default _ _ (Nat.not_lt.mp hlt)
  simp [allocAt, hB] at h

/-- The cells of an ordinary buffer go back. -/
theorem allocs_leaveAlloc {id c j : Nat} {a : Alloc} (ha : allocAt s 0 id = some a) (hk : a.req / 2 ^ 13 % 8 = 0) :
    (bpmAt (leaveAlloc s (some id) p c j) 0).allocs = (bpmAt s 0).allocs.filter (fun y => y.id != id) := by
  simp only [leaveAlloc, ha, hk, if_true, dropAlloc]
  rw [allocs_relevel, bpmAt_setBpm, if_pos ⟨rfl, bpm_pos_of_allocAt ha⟩]

/-- A queue that a freeze stops keeps its registers. -/
theorem coreView_frozen {q : Nat} {r : State} : coreView (setQueue s q (frozenQueue r)) = coreView s := by
  refine coreView_setQueue (fun Q => ?_)
  unfold frozenQueue
  split <;> exact ⟨rfl, rfl, rfl, rfl, rfl, rfl⟩

/-- A freeze of a requester: it is frozen, FAULT is set, and no buffer moves (R380, R382). -/
theorem freeze_keeps {i req pool ptr : Nat} {v : Violation} (hi : i < s.fab.bpm.length) :
    isFrozen (freeze s i req pool v ptr) i req = true ∧ (bpmAt (freeze s i req pool v ptr) i).allocs = (bpmAt s i).allocs ∧
      (freeze s i req pool v ptr).attn &&& aFault = aFault ∧ (freeze s i req pool v ptr).coll = s.coll ∧
      laneAt (freeze s i req pool v ptr) = laneAt s ∧ abortView (freeze s i req pool v ptr) = abortView s := by
  have hcount : (bpmAt (setAttn (cntBpm s i 5 1) aFault) i).allocs = (bpmAt s i).allocs := allocs_cntBpm
  have hlen : i < (setAttn (cntBpm s i 5 1) aFault).fab.bpm.length := by
    simpa [cntBpm, setBpm, setAttn] using hi
  have hfr : (bpmAt (setAttn (cntBpm s i 5 1) aFault) i).frozen = (bpmAt s i).frozen := by
    show (bpmAt (cntBpm s i 5 1) i).frozen = _
    rw [cntBpm, bpmAt_setBpm, if_pos ⟨rfl, hi⟩]
  unfold freeze
  extract_lets B s0 rec0 s1 s2
  have hview : abortView s0 = abortView s := rfl
  have hattn : s0.attn &&& aFault = aFault := attn_setAttn_and
  have hcoll : s0.coll = s.coll := rfl
  have hlane : laneAt s0 = laneAt s := rfl
  change (bpmAt s0 i).allocs = _ at hcount
  change (bpmAt s0 i).frozen = _ at hfr
  change i < s0.fab.bpm.length at hlen
  split
  next hf =>
    refine ⟨?_, (allocs_setBpm ?_).trans hcount, hattn, hcoll, hlane, hview⟩
    swap
    · exact fun _ => rfl
    rw [isFrozen, bpmAt_setBpm, if_pos ⟨rfl, hlen⟩]
    show (bpmAt s0 i).frozen.contains req = true
    rw [hfr]
    exact hf
  next hf =>
    have hfold : coreView ((freezeQueues s2 req).foldl (fun s q => setQueue s q (frozenQueue s)) s2) = coreView s2 :=
      foldl_keeps (fun _ _ => coreView_frozen) _ _
    have hfoldAttn : ((freezeQueues s2 req).foldl (fun s q => setQueue s q (frozenQueue s)) s2).attn = s2.attn :=
      foldl_keeps (v := State.attn) (f := fun s q => setQueue s q (frozenQueue s)) (fun _ _ => rfl) _ _
    have hbpm : (bpmAt s2 i).allocs = (bpmAt s i).allocs ∧ (bpmAt s2 i).frozen.contains req = true := by
      refine ⟨(allocs_setBpm (fun B => ?_)).trans hcount, ?_⟩
      · dsimp only
        split <;> rfl
      · rw [show s2 = setBpm s1 i _ from rfl, bpmAt_setBpm, if_pos ⟨rfl, hlen⟩]
        dsimp only
        split <;> simp
    generalize (freezeQueues s2 req).foldl (fun s q => setQueue s q (frozenQueue s)) s2 = t at hfold hfoldAttn
    have hfab : t.fab = s2.fab := (congrArg (·.2.2.2.2.2.2.2.2.2.2.1) hfold :)
    have ht : bpmAt t i = bpmAt s2 i := by unfold bpmAt; rw [hfab]
    refine ⟨?_, ?_, ?_, (congrArg (·.2.2.2.2.2.2.2.2.2.2.2.1) hfold :), ?_, (abortView_of_coreView hfold).trans hview⟩
    · rw [isFrozen, ht]
      exact hbpm.2
    · rw [ht]
      exact hbpm.1
    · rw [hfoldAttn]
      exact hattn
    · unfold laneAt
      rw [hfab]
      rfl

end Release

/-! ### UNIT_TX_DONE -/

section Done

variable {s : State} {l : Nat} {x : TxRec}

/-- The lane has sent its unit. -/
def sentLane (s : State) (l : Nat) : State := setLane s l (fun L => { L with tx := none })

theorem exec_unitTxDone {t : State} {ptr : Option Nat} (h : doUnitTxDone l ptr s = t) :
    exec (.unitTxDone l ptr) s = .next (traced s t) := congrArg (fun t => Host.Outcome.next (traced s t)) h

theorem sentLane_tx : (laneAt (sentLane s l) l).tx = none := by
  unfold sentLane
  rw [laneAt_setLane, if_pos rfl]

/-- A queue that hands back the pointer it was given returns the cells, and no more of the lanes, engines or inputs changes. -/
theorem stagingView_releaseUnit {p : Nat} : stagingView (releaseUnit s x p none) = stagingView s := by
  unfold releaseUnit
  split
  · rfl
  · exact stagingView_leaveAlloc
  · contradiction

theorem unitTxDone_kept {ptr : Option Nat} (hl : l < 272) (hx : (laneAt s l).tx = some x) (ha : x.again = true ∨ x.alloc = none) :
    doUnitTxDone l ptr s = sentLane s l := by
  unfold doUnitTxDone
  rw [hx]
  dsimp only
  rw [if_pos hl]
  split
  · rfl
  next hn =>
    have hnone : x.alloc = none := ha.resolve_left hn
    unfold releaseUnit
    rw [hnone]
    rfl

theorem unitTxDone_releases {ptr : Option Nat} (hl : l < 272) (hx : (laneAt s l).tx = some x) (ha : x.again = false) :
    doUnitTxDone l ptr s = releaseUnit (sentLane s l) x ((portOf s l).getD l) ptr := by
  unfold doUnitTxDone
  rw [hx]
  dsimp only
  rw [if_pos hl, ha]
  rfl

theorem unitTxDone_returns {id : Nat} {a : Alloc} (hl : l < 272) (hx : (laneAt s l).tx = some x) (hg : x.again = false)
    (hid : x.alloc = some id) (ha : allocAt s 0 id = some a) (hk : a.req / 2 ^ 13 % 8 = 0) :
    ∃ t, exec (.unitTxDone l none) s = .next t ∧ (laneAt t l).tx = none ∧
      (bpmAt t 0).allocs = (bpmAt s 0).allocs.filter (fun y => y.id != id) ∧ t.coll = s.coll ∧ FabricOnly s t := by
  have hrel : releaseUnit (sentLane s l) x ((portOf s l).getD l) none =
      leaveAlloc (sentLane s l) (some id) ((portOf s l).getD l) (unitClass x.unit) x.unit.job := by
    unfold releaseUnit
    rw [hid]
  refine ⟨_, exec_unitTxDone ((unitTxDone_releases hl hx hg).trans hrel), ?_, ?_, ?_, FabricOnly.of_beyondFabric ?_⟩
  · exact (congrArg Lane.tx (congrFun (laneAt_of_stagingView stagingView_leaveAlloc) l) :).trans sentLane_tx
  · exact allocs_leaveAlloc (s := sentLane s l) ha hk
  · exact (congrArg State.coll (beyondFabric_leaveAlloc (s := sentLane s l)) :)
  · exact (beyondFabric_leaveAlloc (s := sentLane s l) :)

theorem unitTxDone_freezes {id v : Nat} {a : Alloc} {w : Violation} (hl : l < 272) (hx : (laneAt s l).tx = some x) (hg : x.again = false)
    (hid : x.alloc = some id) (ha : allocAt s 0 id = some a) (hw : pointerCheck (bpmAt s 0) a.req a.pool (v % 2 ^ 20) = some w) :
    ∃ t, exec (.unitTxDone l (some v)) s = .next t ∧ (laneAt t l).tx = none ∧ isFrozen t 0 a.req = true ∧
      (bpmAt t 0).allocs = (bpmAt s 0).allocs ∧ t.attn &&& aFault = aFault ∧ t.coll = s.coll ∧ KeepsData s t := by
  have hrel : releaseUnit (sentLane s l) x ((portOf s l).getD l) (some v) = freeze (sentLane s l) 0 a.req a.pool w (v % 2 ^ 20) := by
    unfold releaseUnit
    rw [hid]
    dsimp only
    rw [show allocAt (sentLane s l) 0 id = some a from ha]
    dsimp only
    rw [show pointerCheck (bpmAt (sentLane s l) 0) a.req a.pool (v % 2 ^ 20) = some w from hw]
  obtain ⟨hfrozen, hallocs, hattn, hcoll, hlane, hview⟩ := freeze_keeps (s := sentLane s l) (i := 0) (req := a.req)
    (pool := a.pool) (ptr := v % 2 ^ 20) (v := w) (bpm_pos_of_allocAt (s := s) ha)
  refine ⟨_, exec_unitTxDone ((unitTxDone_releases hl hx hg).trans hrel), ?_⟩
  generalize freeze (sentLane s l) 0 a.req a.pool w (v % 2 ^ 20) = t at hfrozen hallocs hattn hcoll hlane hview
  exact ⟨(congrArg Lane.tx (congrFun hlane l) :).trans sentLane_tx, hfrozen, hallocs, hattn, hcoll, KeepsData.of_abortView hview⟩

theorem unitTxDone_delivers {d : Dest} {s1 : State} {keep : List Nat} (hl : 272 ≤ l) (hx : (laneAt s l).tx = some x)
    (hd : localDest l x.unit s = some d) (hp : place s l l d x.unit false = .ok s1 keep) :
    ∃ t, exec (.unitTxDone l none) s = .next t ∧ (laneAt t l).tx = none ∧ t.coll = s1.coll ∧ t.comp = s1.comp ∧
      t.fab.twin = s1.fab.twin := by
  have hdone : doUnitTxDone l none s = releaseUnit (sentLane s1 l) x l none := by
    unfold doUnitTxDone
    rw [hx]
    dsimp only
    rw [if_neg (Nat.not_lt.mpr hl), hd]
    dsimp only
    rw [hp]
    rfl
  refine ⟨_, exec_unitTxDone hdone, ?_⟩
  have hview := stagingView_releaseUnit (s := sentLane s1 l) (x := x) (p := l)
  generalize releaseUnit (sentLane s1 l) x l none = t at hview
  exact ⟨(congrArg Lane.tx (congrFun (laneAt_of_stagingView hview) l) :).trans sentLane_tx, (congrArg (·.1.coll) hview :),
    (congrArg (·.1.comp) hview :), (congrArg (·.1.fab.twin) hview :)⟩

end Done

/-- Settles O33: the lane's own units go first, a selected unit is numbered and held, and the end of a transmission returns
the cells or freezes the requester. -/
theorem lanesSendTheirUnits : Obligations.LanesSendTheirUnits := by
  unfold Obligations.LanesSendTheirUnits
  refine ⟨fun l s u rest hl hx hup hr => unitSelect_resend hl hx hup hr,
    fun l s u rest hl hx hup hr hu => unitSelect_local hl hx hup hr hu, ?new, ?path,
    fun l s x ptr hl hx ha => ⟨_, exec_unitTxDone (unitTxDone_kept hl hx ha), onlyLane_setLane.traced⟩,
    fun l s x id a hl hx hg hid ha hk => unitTxDone_returns hl hx hg hid ha hk,
    fun l s x id a v w hl hx hg hid ha hw => unitTxDone_freezes hl hx hg hid ha hw,
    fun l s x d s1 keep hl hx hd hp => unitTxDone_delivers hl hx hd hp⟩
  case new =>
    intro l p s e hl hx hr hu hp hup s' L he hn hb u
    have hp272 : p < 272 := by
      have hlane : isLanePort s p = true := (Bool.and_eq_true_iff.mp hup).1
      exact of_decide_eq_true (Bool.and_eq_true_iff.mp hlane).1
    have hs' : beyondFabric s' = beyondFabric s := beyondFabric_aged
    have htime : s'.fabricTime = s.fabricTime := (congrArg State.fabricTime hs' :)
    have hnow : s'.now = s.now := (congrArg State.now hs' :)
    obtain ⟨hlane, hothers, hout, hused, hports⟩ := startUnit_lane (s := s') (l := l) (e := e) hp272
    have hbeyond : beyondFabric (startUnit s' p l e) = beyondFabric s := beyondFabric_startUnit.trans hs'
    refine ⟨_, unitSelect_new hl hx hr hu hp hup he hn hb, ?_⟩
    generalize startUnit s' p l e = t at hlane hothers hout hused hports hbeyond
    refine ⟨hlane.trans ?_, hothers, hout, hused, hports, (congrArg State.coll hbeyond :), FabricOnly.of_beyondFabric hbeyond⟩
    unfold startedLane startedUnit
    rw [htime, hnow]
  case path =>
    intro l s e hl hid hx s' he
    obtain ⟨htx, hout⟩ := startUnit_path (s := s') (e := e) hl
    have hbeyond : beyondFabric (startUnit s' l l e) = beyondFabric s := beyondFabric_startUnit.trans beyondFabric_aged
    refine ⟨_, unitSelect_path hl hid hx he, ?_⟩
    generalize startUnit s' l l e = t at htx hout hbeyond
    exact ⟨htx, hout, (congrArg State.coll hbeyond :), FabricOnly.of_beyondFabric hbeyond⟩

end Sys2Proof.Machine
end

section
/-! The refutation of O35: a port whose list of ports is out of order. -/

namespace Sys2Proof.Machine

/-- A unit that waits at port 5. -/
def waitingUnit : OutEntry := { unit := {}, ready := 0 }

/-- Ports 5 and 3, in this order, whose lanes overlap at lane 5; lane 5 sends a unit whose cell brings its pool out of PRESS,
and port 3 is owed a credit that PRESS withholds. -/
def overlappingPorts : State :=
  { State.reset with fab := { State.reset.fab with
      ports := [(5, { out := [waitingUnit] }), (3, { lanes := 4, withheld := [(0, 1)] })]
      lanes := [(5, { st := .up, tx := some { unit := {}, alloc := some 0 } })]
      bpm := [{ pools := [{ level := 2 }], allocs := [{ id := 0, pool := 0, req := 0, units := 1 }] }] } }

/-- The credit that goes back puts port 3 first, which is then the port of lane 5; the queue of port 5 stands. -/
theorem overlappingPorts_keep_queue : (portAt (after (.laneDown 5 .light) overlappingPorts) 5).out.length = 1 := by
  decide +kernel

/-- Refutes O35: the statement empties the queue of the lane's port as it was before the loss, while the cells of the unit on
the lane go back first, and this reorders a list of ports that is out of order. -/
theorem not_lanesComeUpAndGoDown : ¬ Obligations.LanesComeUpAndGoDown := by
  unfold Obligations.LanesComeUpAndGoDown
  rintro ⟨-, -, -, -, loss, -⟩
  obtain ⟨t, ht, -, -, -, -, -, hout, -⟩ := loss 5 overlappingPorts .light (by decide) (by decide +kernel) (by decide +kernel)
  have hlength := overlappingPorts_keep_queue
  rw [after_eq ht, hout 5 (by decide +kernel)] at hlength
  cases hlength

end Sys2Proof.Machine
end

section
/-! Units in ingress buffers, waiting allocations and mirror records that leave (R153, R365, R375, R387, R388, R548), and the
obligation O36. -/

namespace Sys2Proof.Machine

/-! ### Held units -/

section Held

variable {s : State} {p : Nat} {h : HeldUnit} {d : Dest}

/-- What a held unit meets before it is placed again: a route, its age, its time in the buffer and the freeze of its requester. -/
structure Retried (s : State) (p : Nat) (h : HeldUnit) (d : Dest) : Prop where
  route : routeOf s h.unit = .ok d
  young : tooOld s d h.unit = false
  soon : h.unit.cell = true → s.now - h.since ≤ 10000
  thawed : frozenFor s p d h.unit = none

/-- A held unit is placed as a unit that arrives, and it leaves its buffer with its credit. -/
theorem retryHeld_of_retried (hr : Retried s p h d) : retryHeld s p h = match place s h.lane p d h.unit h.yellow with
    | .ok s keep => some (giveBack (setPort s p (fun P => { P with held := P.held.erase h })) h.lane h.unit keep)
    | .hold => none
    | .gone s => some (giveBack (setPort s p (fun P => { P with held := P.held.erase h })) h.lane h.unit []) := by
  obtain ⟨hroute, hyoung, hsoon, hthawed⟩ := hr
  have hstay : (h.unit.cell && decide (10000 < s.now - h.since)) = false := by
    by_cases hc : h.unit.cell = true
    · simp [hc, Nat.not_lt.mpr (hsoon hc)]
    · simp [Bool.not_eq_true _ ▸ hc]
  unfold retryHeld
  dsimp only
  rw [hroute]
  dsimp only
  rw [hyoung, hstay, hthawed]
  rfl

/-- A unit that fits leaves its buffer. -/
theorem earlyArrivalAdmit_leaves {s1 : State} {keep : List Nat} (hh : (portAt s p).held = [h]) (hr : Retried s p h d)
    (hp : place s h.lane p d h.unit h.yellow = .ok s1 keep) :
    ∃ t, exec (.earlyArrivalAdmit p) s = .next t ∧ (portAt t p).held = (portAt s1 p).held.erase h ∧ t.coll = s1.coll ∧
      t.comp = s1.comp ∧ t.fab.twin = s1.fab.twin ∧ t.fab.bpm = s1.fab.bpm := by
  set s2 := setPort s1 p (fun P => { P with held := P.held.erase h }) with hs2
  have hadmit : doEarlyArrivalAdmit p s = giveBack s2 h.lane h.unit keep := by
    unfold doEarlyArrivalAdmit
    rw [hh, admitHeld, retryHeld_of_retried hr, hp]
    rfl
  have hview := stagingView_giveBack (s := s2) (l := h.lane) (u := h.unit) (keep := keep)
  have hbpm : (giveBack s2 h.lane h.unit keep).fab.bpm = s2.fab.bpm := by
    unfold giveBack
    split
    · rfl
    · dsimp only
      split
      · rfl
      · split <;> rfl
  refine ⟨_, congrArg (fun t => Host.Outcome.next (traced s t)) hadmit, ?_⟩
  generalize giveBack s2 h.lane h.unit keep = t at hview hbpm
  refine ⟨(congrArg (fun x => (x.2 p).held) hview :).trans ?_, (congrArg (·.1.coll) hview :), (congrArg (·.1.comp) hview :),
    (congrArg (·.1.fab.twin) hview :), hbpm⟩
  show (creditless (portAt s2 p)).held = _
  rw [hs2, portAt_setPort, if_pos rfl]
  rfl

/-- The units behind one that waits and of its class wait with it. -/
theorem admitHeld_blocked {c : Nat} : ∀ (hs : List HeldUnit), (∀ x ∈ hs, unitClass x.unit = c) → admitHeld p hs [c] s = s
  | [], _ => rfl
  | x :: xs, hx => by
    rw [admitHeld, hx x List.mem_cons_self, if_pos (by simp)]
    exact admitHeld_blocked xs (fun y hy => hx y (List.mem_cons_of_mem x hy))

theorem earlyArrivalAdmit_waits {rest : List HeldUnit} (hh : (portAt s p).held = h :: rest)
    (hc : ∀ x, x ∈ rest → unitClass x.unit = unitClass h.unit) (hr : Retried s p h d)
    (hp : place s h.lane p d h.unit h.yellow = .hold) :
    ∃ t, exec (.earlyArrivalAdmit p) s = .next t ∧ t = { s with dbg := t.dbg } := by
  have hadmit : doEarlyArrivalAdmit p s = s := by
    unfold doEarlyArrivalAdmit
    rw [hh, admitHeld, retryHeld_of_retried hr, hp]
    exact admitHeld_blocked rest hc
  exact ⟨_, congrArg (fun t => Host.Outcome.next (traced s t)) hadmit, rfl⟩

end Held

/-! ### Allocations and mirror records -/

section Leave

variable {s : State}

theorem allocWaitGrant_grants {i : Nat} {w : Nat × Nat × Nat} (hi : i < s.fab.bpm.length)
    (hw : (bpmAt s i).waiting.find? (waitFits (bpmAt s i)) = some w) :
    ∃ t, exec (.allocWaitGrant i) s = .next t ∧ bpmAt t i = { bpmAt s i with waiting := (bpmAt s i).waiting.erase w } ∧
      (∀ j, j ≠ i → bpmAt t j = bpmAt s j) ∧ t.fab.lanes = s.fab.lanes ∧ t.fab.ports = s.fab.ports ∧ FabricOnly s t := by
  have hgrant : doAllocWaitGrant i s = setBpm s i (fun B => { B with waiting := B.waiting.erase w }) := by
    unfold doAllocWaitGrant
    dsimp only
    rw [hw]
  refine ⟨_, congrArg (fun t => Host.Outcome.next (traced s t)) hgrant, ?_, fun j hj => ?_, rfl, rfl, rfl⟩
  · exact bpmAt_setBpm.trans (if_pos ⟨rfl, hi⟩)
  · exact bpmAt_setBpm.trans (if_neg (fun h => hj h.1.symm))

theorem mirrorData_sends {k : Nat} (hk : s.fab.mirrorSession = some k) (hd : s.fab.mirrorDest = 2) (hq : s.fab.mirrorQueue ≠ [])
    (hst : s.mgt.st ≠ .safe) :
    doMirrorData s = { s with
      fab := { s.fab with mirrorQueue := s.fab.mirrorQueue.drop 51 }
      mgt := { s.mgt with replies := { session := k, tag := 0xFFFF, opcode := 0x80, result := 0, attn := 0
                                       payload := (s.fab.mirrorQueue.take 51).flatMap MirrorRec.bytes160 } :: s.mgt.replies } } := by
  have hgo : (s.fab.mirrorDest != 2 || s.fab.mirrorQueue.isEmpty || s.mgt.st == .safe) = false := by simp [hd, hq, hst]
  unfold doMirrorData
  rw [hk]
  dsimp only
  rw [hgo]
  rfl

theorem mirrorRingWrite_stores {r : MirrorRec} {rest : List MirrorRec} (hq : s.fab.mirrorQueue = r :: rest) (hd : s.fab.mirrorDest = 1)
    (hn : mirrorSlots s ≠ 0) :
    doMirrorRingWrite s = { s with
      comp := { s.comp with mem := s.comp.mem.writeRun (memKey 2 0 (Config.mirrorBase + 160 * s.fab.mirrorIndex)) r.bytes160 }
      fab := { s.fab with
        mirrorQueue := rest, mirrorIndex := if mirrorSlots s ≤ s.fab.mirrorIndex + 1 then 0 else s.fab.mirrorIndex + 1
        mirrorWraps := if mirrorSlots s ≤ s.fab.mirrorIndex + 1 then min (2 ^ 32 - 1) (s.fab.mirrorWraps + 1)
          else s.fab.mirrorWraps } } := by
  unfold doMirrorRingWrite
  dsimp only
  rw [hq]
  dsimp only
  rw [if_neg (by simp [hd, hn])]

end Leave

/-- Settles O36: a held unit is placed as one that arrives, a wait ends with its grant, and mirror records leave in order. -/
theorem waitingUnitsAndRecordsLeave : Obligations.WaitingUnitsAndRecordsLeave := by
  unfold Obligations.WaitingUnitsAndRecordsLeave
  refine ⟨fun p s h d s1 keep hh hr hy hs hf hp => earlyArrivalAdmit_leaves hh ⟨hr, hy, hs, hf⟩ hp,
    fun p s h rest d hh hc hr hy hs hf hp => earlyArrivalAdmit_waits hh hc ⟨hr, hy, hs, hf⟩ hp,
    fun i s w hi hw => allocWaitGrant_grants hi hw, fun s k hk hd hq hst => ?data, ?ring⟩
  case data => exact ⟨_, congrArg (fun t => Host.Outcome.next (traced s t)) (mirrorData_sends hk hd hq hst), rfl⟩
  case ring =>
    intro s r rest hq hd hn last
    exact ⟨_, congrArg (fun t => Host.Outcome.next (traced s t)) (mirrorRingWrite_stores hq hd hn), rfl, rfl, rfl⟩

end Sys2Proof.Machine
end

section
/-! The refutation of O37: a call that goes on lets a pre-empted call take its executor, and its context is lost. -/

namespace Sys2Proof.Machine

/-- A job whose table of shards is empty has no cast chunk to send. -/
theorem emitCasts_stateless {s : State} {job : Nat} (h : ∀ id, stateOf s job id = none) : emitCasts s job = s := by
  unfold emitCasts
  refine List.foldl_fixed' (fun x => ?_) _
  rw [h]

/-- Two calls of ordinal 7 wait until it is eligible: queue 0 asynchronously with its last word, and queue 1, which is PREEMPTED
and whose saved context is poisoned. -/
def callsWait : State :=
  { fabS with comp := { fabS.comp with
      queues := (fabS.comp.queues.set 0 { runQ .vec [0#64] with st := .wait, wait := .eligible 7 0 true 3 }).set 1
        { runQ .vec [0#64] with st := .preempted, wait := .eligible 7 0 false 0, ctxSaved := true }
      mem := fabS.comp.mem.setPoison (memKey 1 0 (12 * 2 ^ 21)) } }

/-- Queue 0 goes IDLE, queue 1 takes the executor and halts, and its call waits no more. -/
theorem callsWait_halted : (queueAt (after (.ordinalEligible 0 0 7) callsWait) 1).wait = .none := by decide +kernel

/-- Refutes O37: the statement makes every call that waited for the ordinal wait for the collective, while one whose context cannot
be read back halts with VERIFY as soon as the executor is free. -/
theorem not_ordinalsBecomeEligible : ¬ Obligations.OrdinalsBecomeEligible := by
  unfold Obligations.OrdinalsBecomeEligible
  intro h
  obtain ⟨u, hu, -, -, -, hcalls, -, -, hkept⟩ := h 0 0 7 callsWait tEntry { tTop with colls := [tEntry, xEntry] }
    (by decide +kernel) (by decide +kernel) (by decide +kernel) (by decide +kernel) (by decide +kernel) (by decide +kernel)
    (by decide +kernel) (by decide +kernel)
  have hcasts : emitCasts u 0 = u := by
    refine emitCasts_stateless (fun id => ?_)
    unfold stateOf topOf
    rw [hkept.tops]
    rfl
  have hwait : (queueAt u 1).wait = .collective 7 0 :=
    (hcalls 1 false 0 (by decide +kernel) (by decide +kernel) (by decide +kernel) (by decide)).1
  have hafter := callsWait_halted
  rw [after_eq hu, hcasts, show queueAt (traced callsWait u) 1 = queueAt u 1 from rfl, hwait] at hafter
  cases hafter

end Sys2Proof.Machine
end

section
/-! Power events (R486 to R490), the feeds (R486, R487) and the obligation O47. -/

namespace Sys2Proof.Machine

section Feeds

variable {s : State}

theorem newest_ringLog {ring code : Nat} {v : Nat} {vs : List Nat} (hv : vs = [v]) :
    newest (ringLog s ring code vs) ring = some ⟨s.fabricTime % 2 ^ 48, code, false, v % 2 ^ 64⟩ := by
  subst hv
  unfold newest ringLog
  dsimp only
  rw [lookupD_insertKey, if_pos rfl]
  rfl

/-- A power event is logged in ring 2 and sets POWER. -/
theorem newest_powerEvent {v : Nat} : newest (powerEvent s v) 2 = some ⟨s.fabricTime % 2 ^ 48, 7, false, v % 2 ^ 64⟩ :=
  newest_ringLog rfl

/-- The power state after a feed's voltage has moved (R486, R487). -/
def feedMoved (p : Pwr) (feed : Nat) (v : Int) : Pwr :=
  let p := { p with feedV10 := p.feedV10.set feed v.toNat, feeds := p.feeds.set feed (feedState v) }
  if feedStopped p then p else { p with active := conducting p }

theorem feedMoved_feeds {p : Pwr} {feed : Nat} {v : Int} :
    (feedMoved p feed v).feeds = p.feeds.set feed (feedState v) ∧ (feedMoved p feed v).feedV10 = p.feedV10.set feed v.toNat := by
  unfold feedMoved
  dsimp only
  split <;> exact ⟨rfl, rfl⟩

theorem feedMoved_active {p : Pwr} {feed : Nat} {v : Int} :
    (feedMoved p feed v).active =
      (if feedStopped { p with feeds := p.feeds.set feed (feedState v), feedV10 := p.feedV10.set feed v.toNat } then p.active
       else conducting { p with feeds := p.feeds.set feed (feedState v), feedV10 := p.feedV10.set feed v.toNat }) := by
  unfold feedMoved
  dsimp only
  split <;> rfl

theorem feedMoved_frame {p : Pwr} {feed : Nat} {v : Int} :
    feedMoved p feed v = { p with feeds := (feedMoved p feed v).feeds, feedV10 := (feedMoved p feed v).feedV10,
                                  active := (feedMoved p feed v).active } := by
  unfold feedMoved
  dsimp only
  split <;> rfl

/-- What a feed event changes of the module, from what it changes of the power state. -/
theorem feedFrame {t : State} (h : t = { s with pwr := t.pwr, attn := t.attn, rings := t.rings, dbg := t.dbg })
    (hp : t.pwr = { s.pwr with feeds := t.pwr.feeds, feedV10 := t.pwr.feedV10, active := t.pwr.active }) :
    t = { s with pwr := { s.pwr with feeds := t.pwr.feeds, feedV10 := t.pwr.feedV10, active := t.pwr.active },
                 attn := t.attn, rings := t.rings, dbg := t.dbg } :=
  h.trans (congrArg (fun p => { s with pwr := p, attn := t.attn, rings := t.rings, dbg := t.dbg }) hp)

/-- A feed state that is reported when the feed enters it (R486). -/
theorem reported_iff {f old : FeedSt} : (f != old && (f == .marginal || f == .overvolt || f == .reversed)) = true ↔
    f ≠ old ∧ (f = .marginal ∨ f = .overvolt ∨ f = .reversed) := by simp [or_assoc]

theorem feedStateChange_moves {feed : Nat} {v : Int} (hf : feed < 2) (ho : s.mgt.st ≠ .off) :
    let f := feedState v
    ∃ t, exec (.feedStateChange feed v) s = .next t ∧ t.pwr.feeds = s.pwr.feeds.set feed f ∧
      t.pwr.feedV10 = s.pwr.feedV10.set feed v.toNat ∧
      t.pwr.active = (if feedStopped { s.pwr with feeds := t.pwr.feeds, feedV10 := t.pwr.feedV10 } then s.pwr.active
        else conducting { s.pwr with feeds := t.pwr.feeds, feedV10 := t.pwr.feedV10 }) ∧
      (if f ≠ s.pwr.feeds.getD feed .absent ∧ (f = .marginal ∨ f = .overvolt ∨ f = .reversed) then
        t.attn = s.attn ||| aPower ∧ newest t 2 = some ⟨s.fabricTime % 2 ^ 48, 7, false, feedReg t % 2 ^ 64⟩
       else t.attn = s.attn ∧ t.rings = s.rings) ∧
      t = { s with pwr := { s.pwr with feeds := t.pwr.feeds, feedV10 := t.pwr.feedV10, active := t.pwr.active },
                   attn := t.attn, rings := t.rings, dbg := t.dbg } := by
  intro f
  set s1 := setPwr s (fun p => feedMoved p feed v) with hs1
  have hmove : doFeedStateChange feed v s =
      if f ≠ s.pwr.feeds.getD feed .absent ∧ (f = .marginal ∨ f = .overvolt ∨ f = .reversed) then powerEvent s1 (feedReg s1) else s1 := by
    unfold doFeedStateChange
    rw [if_neg (by simp [Nat.not_le.mpr hf, ho])]
    exact if_congr reported_iff rfl rfl
  obtain ⟨hfeeds, hvolts⟩ := feedMoved_feeds (p := s.pwr) (feed := feed) (v := v)
  have hactive := feedMoved_active (p := s.pwr) (feed := feed) (v := v)
  rw [← hfeeds, ← hvolts] at hactive
  refine ⟨_, congrArg (fun t => Host.Outcome.next (traced s t)) hmove, ?_⟩
  split
  · exact ⟨hfeeds, hvolts, hactive, ⟨rfl, newest_powerEvent⟩, feedFrame rfl feedMoved_frame⟩
  · exact ⟨hfeeds, hvolts, hactive, ⟨rfl, rfl⟩, feedFrame rfl feedMoved_frame⟩

theorem feedSwitchover_conducts (ho : s.mgt.st ≠ .off) (hs : feedStopped s.pwr = true) (hc : s.pwr.feeds.any (·.carries) = true) :
    ∃ t, exec .feedSwitchover s = .next t ∧
      t.pwr = { s.pwr with active := conducting s.pwr, switchovers := min 0xFFF (s.pwr.switchovers + 1) } ∧
      t.attn = s.attn ||| aPower ∧ newest t 2 = some ⟨s.fabricTime % 2 ^ 48, 7, false, feedReg t % 2 ^ 64⟩ ∧
      t = { s with pwr := t.pwr, attn := t.attn, rings := t.rings, dbg := t.dbg } := by
  set s1 := setPwr s (fun p => { p with active := conducting p, switchovers := min 0xFFF (p.switchovers + 1) })
  have hswitch : doFeedSwitchover s = powerEvent s1 (feedReg s1) := by
    unfold doFeedSwitchover
    dsimp only
    rw [hs, hc, if_pos (by simp [ho])]
  exact ⟨_, congrArg (fun t => Host.Outcome.next (traced s t)) hswitch, rfl, rfl, newest_powerEvent, rfl⟩

/-- Every rail is off once no feed carries load. -/
theorem railsOff (rs : List Rail) (r : Nat) : ((rs.map (fun r : Rail => { r with st := 0, measMv := 0, iDa := 0 })).getD r {}).st = 0 := by
  rw [List.getD_eq_getElem?_getD, List.getElem?_map]
  cases rs[r]? <;> rfl

theorem sessions_empty (k : Nat) : ((List.replicate 8 ({} : Session)).getD k {}).valid = false := by
  rw [List.getD_eq_getElem?_getD, List.getElem?_replicate]
  split <;> rfl

end Feeds

/-- Settles O47: the feeds and the conducting one follow from the voltages, and without feeds every rail and the core is off. -/
theorem feedsCarryTheModule : Obligations.FeedsCarryTheModule := by
  unfold Obligations.FeedsCarryTheModule
  refine ⟨fun feed v s hf ho => feedStateChange_moves hf ho, fun s ho hs hc => feedSwitchover_conducts ho hs hc, fun s ho hc => ?_⟩
  refine ⟨_, congrArg (fun t => Host.Outcome.next (traced s t)) (if_neg (by simp [ho, hc]) : doFeedsLost s = _), rfl,
    railsOff s.pwr.rails, rfl, rfl, rfl, sessions_empty, rfl, rfl, rfl, rfl, rfl, rfl, rfl⟩

end Sys2Proof.Machine
end

section
/-! Queue control, an abort and the end of a pairing take no time, and what the end of a pairing keeps (R480, R482). -/

namespace Sys2Proof.Machine

/-! ### Operations that take no time -/

/-- The module's own clock and its fabric time. -/
def clock (s : State) : Nat × Nat := (s.now, s.fabricTime)

section Clock

variable {s t : State} {q i p : Nat}

theorem clock_ite {c : Prop} [Decidable c] {x y : State} (hx : clock x = clock s) (hy : clock y = clock s) :
    clock (if c then x else y) = clock s := by
  split
  · exact hx
  · exact hy

theorem clock_of_stagingView (h : stagingView t = stagingView s) : clock t = clock s := congrArg (fun x => clock x.1) h

theorem clock_bumpQue {k : Nat} : clock (bumpQue s q k) = clock s := clock_ite rfl rfl

theorem clock_enterRun : clock (enterRun s q) = clock s := clock_ite rfl (clock_ite rfl rfl)

theorem clock_arbitrate : clock (arbitrate s q) = clock s := by
  unfold arbitrate
  refine clock_ite clock_enterRun (clock_ite ?_ rfl)
  exact foldl_keeps (v := clock) (f := fun s r => setQueue s r (fun R => { R with stopAsked := true })) (fun _ _ => rfl) _ _

theorem clock_schedule : clock (schedule s) = clock s :=
  foldl_keeps (fun _ _ => foldl_keeps (fun _ _ => clock_ite clock_arbitrate rfl) _ _) _ _

theorem clock_squash : clock (squash s q) = clock s := clock_ite rfl rfl

theorem clock_haltAt {c : Res} {d g pc : Nat} {b : Bool} {w : Word} : clock (haltAt s q c d b g pc w) = clock s := by
  unfold haltAt
  dsimp only
  split
  · rfl
  · rfl
  · rfl
  · refine clock_schedule.trans ?_
    refine (clock_squash.trans clock_bumpQue :)

theorem clock_haltQueue {c : Res} {d : Nat} : clock (haltQueue s q c d) = clock s := clock_haltAt

theorem clock_leaveAlloc {a : Option Nat} {c j : Nat} : clock (leaveAlloc s a p c j) = clock s :=
  clock_of_stagingView stagingView_leaveAlloc

theorem clock_originate {u : LinkUnit} : clock (originate s u) = clock s := clock_ite rfl rfl

theorem clock_dropStaged {x : Inp} : clock (dropStaged s x) = clock s :=
  foldl_keeps (fun _ _ => clock_of_stagingView stagingView_dropAlloc) _ _

theorem clock_freeAlloc {id : Nat} : clock (freeAlloc s i id) = clock s :=
  clock_of_stagingView (stagingView_settleAlloc.trans stagingView_setBpm)

theorem clock_freeOut {j o : Nat} {x : Outp} : clock (freeOut s j o x) = clock s := by
  have hbufs : clock (x.bufs.foldl (fun s b => freeAlloc s 0 b) s) = clock s := foldl_keeps (fun _ _ => clock_freeAlloc) _ _
  unfold freeOut
  dsimp only
  split
  · exact (clock_of_stagingView stagingView_dropAlloc).trans hbufs
  · exact hbufs

theorem clock_dropOwn {f : LinkUnit → Bool} {port : Option Nat} : clock (dropOwn s f port) = clock s := by
  unfold dropOwn
  refine foldl_keeps (fun s e => clock_ite rfl ?_) _ _
  refine (foldl_keeps (v := clock) (fun s x => ?_) _ _ :)
  exact clock_ite clock_leaveAlloc rfl

theorem clock_haltCallers {j e o : Nat} : clock (haltCallers s j e o) = clock s := by
  unfold haltCallers
  refine foldl_keeps (fun s q => ?_) _ _
  extract_lets Q waits async
  exact clock_ite clock_haltQueue rfl

theorem clock_squashJob {j : Nat} : clock (squashJob s j) = clock s :=
  foldl_keeps (fun _ _ => clock_ite clock_squash rfl) _ _

theorem clock_dropSteps {j e o : Nat} : clock (dropSteps s j e o) = clock s := rfl

theorem clock_releaseEarly {j e o : Nat} : clock (releaseEarly s j e o) = clock s := by
  unfold releaseEarly releaseEarlyIf
  rfl

theorem clock_discardEarly {j e o : Nat} : clock (discardEarly j e s o) = clock s := by
  unfold discardEarly
  dsimp only
  refine clock_ite rfl ?_
  exact (foldl_keeps (fun _ _ => clock_dropStaged) _ _ :).trans clock_releaseEarly

/-- An abort takes no time. -/
theorem clock_abortColl {j e o cause origin time : Nat} : clock (abortColl s j e o cause origin time) = clock s := by
  unfold abortColl
  extract_lets c
  split
  · rfl
  · split
    · rfl
    · extract_lets imgs fit s1 omitted s2 s3 s4 s5 s6 s7 s8 reg old s9
      have h8 : clock s8 = clock s7 := clock_squashJob.trans clock_dropSteps
      have h7 : clock s7 = clock s5 := by
        refine clock_haltCallers.trans ?_
        rw [dropOverlapping_eq]
        exact foldl_keeps (fun _ _ => clock_discardEarly) _ _
      clear_value s8
      refine (h8.trans h7 : clock (setAttn (ringLog s9 4 0x05 [reg]) aFault) = clock s5).trans ?_
      calc clock s5 = clock s4 := clock_dropOwn
        _ = clock s3 := foldl_keeps (fun _ _ => clock_freeOut) _ _
        _ = clock s2 := foldl_keeps (fun _ _ => clock_ite rfl clock_dropStaged) _ _
        _ = clock s1 := clock_releaseEarly
        _ = clock s := foldl_keeps (fun _ _ => clock_originate) _ _

theorem clock_abortInputs {cause : Res} : clock (abortInputs s cause) = clock s := by
  unfold abortInputs
  refine foldl_keeps (fun s c => ?_) _ _
  split
  · exact clock_ite clock_abortColl rfl
  · rfl

theorem clock_toDetached : clock (toDetached s) = clock s := by
  unfold toDetached
  extract_lets was s1 s2 s3
  have h1 : clock s1 = clock s := rfl
  clear_value s1
  have h2 : clock s2 = clock s1 := clock_abortInputs
  have h3 : clock s3 = clock s2 := foldl_keeps (fun s q => clock_ite clock_haltQueue rfl) _ _
  clear_value s3
  exact clock_ite (h3.trans (h2.trans h1) : clock s3 = clock s) h1

theorem clock_endServing : clock (endServing s) = clock s := clock_ite rfl rfl

theorem clock_leaveTwin {cause : Nat} : clock (leaveTwin s cause) = clock s := by
  unfold leaveTwin
  refine clock_ite rfl ?_
  extract_lets s1
  have h1 : clock s1 = clock s := clock_ite rfl rfl
  clear_value s1
  exact clock_ite (clock_endServing.trans h1) (clock_toDetached.trans (clock_endServing.trans h1))

/-- The end of a pairing keeps memory, the power and management units, and the pins. -/
theorem leaveTwin_keeps {cause : Nat} : let t := leaveTwin s cause
    t.comp.mem = s.comp.mem ∧ t.pwr = s.pwr ∧ t.mgt = s.mgt ∧ t.pins = s.pins ∧ t.fabricTime = s.fabricTime := by
  have hview : ((leaveView (leaveTwin s cause)).1, (leaveTwin s cause).pwr, (leaveTwin s cause).mgt, (leaveTwin s cause).pins) =
      ((leaveView s).1, s.pwr, s.mgt, s.pins) := by
    unfold leaveTwin
    split
    · rfl
    · extract_lets s1
      have h1 : leaveView s1 = leaveView s := leaveView_ite rfl rfl
      clear_value s1
      have hpick (x y : State) (h : leaveView x = leaveView y) : ((leaveView x).1, x.pwr, x.mgt, x.pins) = ((leaveView y).1, y.pwr, y.mgt, y.pins) :=
        congrArg (fun v => (v.1, v.2.2.2.1, v.2.2.2.2.1, v.2.2.2.2.2.1)) h
      split
      · exact hpick _ _ (leaveView_endServing.trans h1)
      · refine (hpick _ _ leaveView_toDetached).trans ?_
        refine Eq.trans ?_ (hpick s1 s h1)
        exact (hpick _ _ (leaveView_endServing (s := setTwin s1 (fun t => { t with lastLoss := 3, intact := false }))) :)
  exact ⟨congrArg (·.1.2.1) hview, congrArg (·.2.1) hview, congrArg (·.2.2.1) hview, congrArg (·.2.2.2) hview,
    congrArg Prod.snd (clock_leaveTwin (s := s) (cause := cause))⟩

end Clock

end Sys2Proof.Machine
end

section
/-! The entry to SAFE (R498), the limits of the rails (R489, R490) and the obligation O48. -/

namespace Sys2Proof.Machine

/-! ### Rails -/

section Rails

variable {s t : State} {r d : Nat}

/-- A rail that is on is one of the module's. -/
theorem rail_lt_of_st (h : (railAt s r).st ≠ 0) : r < s.pwr.rails.length := by
  by_contra hr
  exact h (by rw [railAt, List.getD_eq_default _ _ (Nat.not_lt.mp hr)])

theorem rail_lt_of_on (h : railOn s r = true) : r < s.pwr.rails.length := by
  refine rail_lt_of_st (fun h0 => ?_)
  simp [railOn, h0] at h

theorem railAt_setRail_self {f : Rail → Rail} (h : railOn s r = true) : railAt (setRail s r f) r = f (railAt s r) :=
  (railAt_setRail (j := r)).trans (if_pos ⟨rfl, rail_lt_of_on h⟩)

theorem railAt_setRail_ne {f : Rail → Rail} {j : Nat} (h : j ≠ r) : railAt (setRail s r f) j = railAt s j :=
  (railAt_setRail (j := j)).trans (if_neg (fun hh => h hh.1.symm))

end Rails

/-! ### SAFE -/

section Safe

variable {s s' t : State} {r cause : Nat}

/-- The rail as the entry to SAFE leaves it: shut, unless it is VSVC or was off. -/
def safeRail (x : Rail) (r : Nat) : Rail := if r = 7 ∨ x.st = 0 then x else { x with st := 3, measMv := 0, iDa := 0 }

theorem railAt_safe {rs : List Rail} : (rs.zipIdx.map (fun x => safeRail x.1 x.2)).getD r {} = safeRail (rs.getD r {}) r := by
  rw [List.getD_eq_getElem?_getD, List.getD_eq_getElem?_getD, List.getElem?_map, List.getElem?_zipIdx]
  cases rs[r]? with
  | none => simp [safeRail]
  | some x => simp

/-- The module in SAFE for a cause, once the pairing has ended. -/
def safeState (s : State) (cause : Nat) : State :=
  let lost := setPwr (loseCore s) (fun p => { p with
    rails := p.rails.zipIdx.map (fun r => if r.2 = 7 || r.1.st = 0 then r.1 else { r.1 with st := 3, measMv := 0, iDa := 0 })
    dies := p.dies.map (fun d => { d with vcompMv := 0, aMts := 0, gated := false }) })
  { setAttn (ringLog lost 2 0x08 [cause % 256]) (aPower ||| aFault) with
    mgt := { s.mgt with st := .safe, loads := [], running := [], unloading := [] } }

theorem enterSafe_eq (hp : powered s = true) :
    enterSafe s cause = safeState (if railOn s 4 then leaveTwin s 2 else s) cause := by
  unfold enterSafe
  rw [hp, Bool.not_true, if_neg Bool.false_ne_true]
  rfl

/-- What the entry to SAFE leaves. -/
theorem enterSafe_entered (hp : powered s = true) : EnteredSafe s (enterSafe s cause) cause ∧
    (∀ r, railAt (enterSafe s cause) r = safeRail (railAt s r) r) ∧ (enterSafe s cause).mgt.hbm = s.mgt.hbm := by
  rw [enterSafe_eq hp]
  obtain ⟨hmem, hpwr, hmgt, hpins, htime⟩ : let s1 := if railOn s 4 then leaveTwin s 2 else s
      s1.comp.mem = s.comp.mem ∧ s1.pwr = s.pwr ∧ s1.mgt = s.mgt ∧ s1.pins = s.pins ∧ s1.fabricTime = s.fabricTime := by
    dsimp only
    split
    · exact leaveTwin_keeps
    · exact ⟨rfl, rfl, rfl, rfl, rfl⟩
  generalize (if railOn s 4 then leaveTwin s 2 else s) = s1 at hmem hpwr hmgt hpins htime
  have hrails (r : Nat) : railAt (safeState s1 cause) r = safeRail (railAt s r) r := by
    refine Eq.trans ?_ (railAt_safe (rs := s.pwr.rails))
    rw [← hpwr]
    refine congrArg (fun rs : List Rail => rs.getD r {}) (List.map_congr_left (fun x _ => ?_))
    simp [safeRail]
  have hring : newest (safeState s1 cause) 2 = some ⟨s1.fabricTime % 2 ^ 48, 8, false, cause % 256 % 2 ^ 64⟩ := newest_ringLog rfl
  have hattn : (safeState s1 cause).attn &&& (aPower ||| aFault) = aPower ||| aFault := attn_setAttn_and
  refine ⟨⟨rfl, fun r hr h0 => ?_, ⟨?_, rfl, rfl, rfl, rfl, rfl⟩, ?_, hattn, ?_, hpins⟩, hrails, (congrArg Mgt.hbm hmgt :)⟩
  · refine (congrArg Rail.st (hrails r)).trans ?_
    rw [safeRail, if_neg (fun h => h.elim hr h0)]
  · exact congrArg (fun m => ({ mem := ddrOnly m } : Comp)) hmem
  · refine hring.trans ?_
    rw [htime, Nat.mod_eq_of_lt (a := cause % 256) (by omega)]
  · exact congrArg (fun m : Mgt => { m with st := .safe, loads := [], running := [], unloading := [], hbm := s1.mgt.hbm }) hmgt

/-- An entry to SAFE from a state that differs from an earlier one only in its power unit, attention and rings, and in what the
management unit knows of HBM. -/
theorem EnteredSafe.of_before (h : EnteredSafe s' t cause) (hrails : ∀ r, (railAt s r).st ≠ 0 → (railAt s' r).st ≠ 0)
    (hcomp : s'.comp = s.comp) (htime : s'.fabricTime = s.fabricTime) (hmgt : s'.mgt = { s.mgt with hbm := s'.mgt.hbm })
    (hpins : s'.pins = s.pins) : EnteredSafe s t cause where
  state := h.state
  rails r hr h0 := h.rails r hr (hrails r h0)
  lost := hcomp ▸ h.lost
  ring := htime ▸ h.ring
  attn := h.attn
  kept := by
    refine ⟨h.kept.1.trans ?_, h.kept.2.trans hpins⟩
    rw [hmgt]

/-- A rail that is shut for a short takes the module to SAFE. -/
theorem shutRail_entered {f : Rail → Rail} (ho : railOn s r = true) (hp : powered s = true) :
    let t := shutRail (setRail s r f) r
    EnteredSafe s t r ∧ (railAt t r).short = true ∧ (railAt t r).st = 3 := by
  set s1 := setRail (setRail s r f) r (fun x => { x with st := 3, short := true })
  have hself : railAt s1 r = { f (railAt s r) with st := 3, short := true } := by
    refine (railAt_setRail (j := r)).trans ?_
    rw [if_pos ⟨rfl, by simpa [setRail, setPwr] using rail_lt_of_on ho⟩, railAt_setRail_self ho]
  obtain ⟨hsafe, hrails, -⟩ := enterSafe_entered (s := s1) (cause := r) hp
  refine ⟨hsafe.of_before (fun j hj => ?_) rfl rfl rfl rfl, ?_⟩
  · by_cases hr : j = r
    · rw [hr, hself]
      exact Nat.succ_ne_zero 2
    · rw [show railAt s1 j = railAt s j from (railAt_setRail_ne hr).trans (railAt_setRail_ne hr)]
      exact hj
  · show (railAt (enterSafe s1 r) r).short = true ∧ (railAt (enterSafe s1 r) r).st = 3
    rw [hrails, hself, safeRail]
    split <;> exact ⟨rfl, rfl⟩

end Safe

/-! ### CURRENT_SAMPLE, RAIL_SHORT_DETECT and SENSE_OPEN_DETECT -/

section Samples

variable {s : State} {rail i mv : Nat}

/-- The state once a sample of a rail has been read. -/
def sampled (s : State) (rail i mv : Nat) : State := setRail s rail (fun r => { r with iDa := i, measMv := mv })

theorem currentSample_eq (ho : railOn s rail = true) : doCurrentSample rail i mv s =
    if (railAt s rail).limitDa * 5 < i * 4 then shutRail (sampled s rail i mv) rail
    else if rail < 4 then vcompSample (sampled s rail i mv) rail i
    else if rail = 5 then vhbmSample (sampled s rail i mv) i
    else if (railAt s rail).limitDa < i then
      powerEvent (setRail (sampled s rail i mv) rail (fun r => { r with overLim := true }))
        (railReg (setRail (sampled s rail i mv) rail (fun r => { r with overLim := true })) rail)
    else sampled s rail i mv := by
  have hlimit : (railAt (sampled s rail i mv) rail).limitDa = (railAt s rail).limitDa := by
    rw [sampled, railAt_setRail_self ho]
  unfold doCurrentSample
  rw [ho, Bool.not_true, if_neg Bool.false_ne_true, ← hlimit]
  rfl

theorem currentSample_shuts (ho : railOn s rail = true) (hp : powered s = true) (hi : (railAt s rail).limitDa * 5 < i * 4) :
    ∃ t, exec (.currentSample rail i mv) s = .next t ∧ EnteredSafe s t rail ∧ (railAt t rail).short = true ∧
      (railAt t rail).st = 3 := by
  obtain ⟨hsafe, hshort, hst⟩ := shutRail_entered (f := fun r => { r with iDa := i, measMv := mv }) ho hp
  exact ⟨_, congrArg (fun t => Host.Outcome.next (traced s t)) ((currentSample_eq ho).trans (if_pos hi)),
    ⟨hsafe.state, hsafe.rails, hsafe.lost, hsafe.ring, hsafe.attn, hsafe.kept⟩, hshort, hst⟩

theorem limitOf_sampled (ho : railOn s rail = true) : limitOf (sampled s rail i mv) rail = limitOf s rail := by
  unfold limitOf
  rw [sampled, railAt_setRail_self ho]
  rfl

/-- The limit actions on VCOMP of a die (R489). -/
theorem vcompSample_sampled {d : Nat} (ho : railOn s d = true) : let D := diePwr s d
    let L := limitOf s d
    let ungated := if D.gated then i * 100 / max 1 D.dutyPct else i
    vcompSample (sampled s d i mv) d i =
      if forwardOnly s then sampled s d i mv
      else if L < ungated then
        setRail (setDiePwr (sampled s d i mv) d (fun D => { D with
          gated := true, dutyPct := max 1 (min 99 (L * 100 / max 1 ungated)), vcompMv := max 550 (D.vcompMv - 5) })) d
          (fun r => { r with st := 2, setMv := max 550 (r.setMv - 5) })
      else if D.gated then
        setRail (setDiePwr (sampled s d i mv) d (fun D => { D with gated := false, dutyPct := 100 })) d (fun r => { r with st := 1 })
      else sampled s d i mv := by
  intro D L ungated
  unfold vcompSample
  rw [limitOf_sampled ho]
  rfl

theorem currentSample_vcomp {d : Nat} (ho : railOn s d = true) (hd : d < 4) (hl : d < s.pwr.dies.length)
    (hi : i * 4 ≤ (railAt s d).limitDa * 5) : let D := diePwr s d
    let L := limitOf s d
    let ungated := if D.gated then i * 100 / max 1 D.dutyPct else i
    ∃ t, exec (.currentSample d i mv) s = .next t ∧
      (forwardOnly s = true → diePwr t d = D ∧ railAt t d = { railAt s d with iDa := i, measMv := mv }) ∧
      (forwardOnly s = false → L < ungated →
          diePwr t d = { D with gated := true, dutyPct := max 1 (min 99 (L * 100 / max 1 ungated)),
                                vcompMv := max 550 (D.vcompMv - 5) } ∧
        railAt t d = { railAt s d with iDa := i, measMv := mv, st := 2, setMv := max 550 ((railAt s d).setMv - 5) }) ∧
      (forwardOnly s = false → ungated ≤ L → D.gated = true → diePwr t d = { D with gated := false, dutyPct := 100 } ∧
        railAt t d = { railAt s d with iDa := i, measMv := mv, st := 1 }) ∧
      (ungated ≤ L → D.gated = false → diePwr t d = D ∧ railAt t d = { railAt s d with iDa := i, measMv := mv }) ∧
      (∀ r, r ≠ d → railAt t r = railAt s r ∧ diePwr t r = diePwr s r) ∧
      t = { s with pwr := { s.pwr with rails := t.pwr.rails, dies := t.pwr.dies }, dbg := t.dbg } := by
  intro D L ungated
  have hsample : doCurrentSample d i mv s = vcompSample (sampled s d i mv) d i :=
    (currentSample_eq ho).trans ((if_neg (Nat.not_lt.mpr hi)).trans (if_pos hd))
  have hself : railAt (sampled s d i mv) d = { railAt s d with iDa := i, measMv := mv } := railAt_setRail_self ho
  have hothers (r : Nat) (hr : r ≠ d) : railAt (sampled s d i mv) r = railAt s r := railAt_setRail_ne hr
  have hlen : d < (sampled s d i mv).pwr.rails.length := by simpa [sampled, setRail, setPwr] using rail_lt_of_on ho
  have hrail {f : DiePwr → DiePwr} {g : Rail → Rail} : railAt (setRail (setDiePwr (sampled s d i mv) d f) d g) d =
      g { railAt s d with iDa := i, measMv := mv } := by
    refine (railAt_setRail (j := d)).trans ((if_pos ⟨rfl, hlen⟩).trans ?_)
    exact congrArg g hself
  have hdie {f : DiePwr → DiePwr} {g : Rail → Rail} : diePwr (setRail (setDiePwr (sampled s d i mv) d f) d g) d = f D :=
    (diePwr_setDiePwr (s := sampled s d i mv) (j := d)).trans (if_pos ⟨rfl, hl⟩)
  have hrest {f : DiePwr → DiePwr} {g : Rail → Rail} (r : Nat) (hr : r ≠ d) :
      railAt (setRail (setDiePwr (sampled s d i mv) d f) d g) r = railAt s r ∧
        diePwr (setRail (setDiePwr (sampled s d i mv) d f) d g) r = diePwr s r :=
    ⟨(railAt_setRail_ne hr).trans (hothers r hr), (diePwr_setDiePwr (s := sampled s d i mv) (j := r)).trans (if_neg (fun h => hr h.1.symm))⟩
  have hsampled (r : Nat) (hr : r ≠ d) : railAt (sampled s d i mv) r = railAt s r ∧ diePwr (sampled s d i mv) r = diePwr s r :=
    ⟨hothers r hr, rfl⟩
  refine ⟨_, congrArg (fun t => Host.Outcome.next (traced s t)) (hsample.trans (vcompSample_sampled ho)), ?_⟩
  by_cases hf : forwardOnly s = true
  · rw [if_pos hf]
    refine ⟨fun _ => ⟨rfl, hself⟩, fun h => ?_, fun h => ?_, fun _ _ => ⟨rfl, hself⟩, hsampled, rfl⟩ <;> simp [hf] at h
  · rw [if_neg hf]
    by_cases hu : L < ungated
    · rw [if_pos hu]
      exact ⟨fun h => absurd h hf, fun _ _ => ⟨hdie, hrail⟩, fun _ h => absurd hu (Nat.not_lt.mpr h),
        fun h => absurd hu (Nat.not_lt.mpr h), hrest, rfl⟩
    · rw [if_neg hu]
      by_cases hg : D.gated = true
      · rw [if_pos hg]
        exact ⟨fun h => absurd h hf, fun _ h => absurd h hu, fun _ _ _ => ⟨hdie, hrail⟩,
          fun _ h => absurd hg (by simp [h]), hrest, rfl⟩
      · rw [if_neg hg]
        exact ⟨fun h => absurd h hf, fun _ h => absurd h hu, fun _ _ h => absurd h hg, fun _ _ => ⟨rfl, hself⟩, hsampled, rfl⟩

theorem currentSample_vhbm (ho : railOn s 5 = true) (hi : i * 4 ≤ (railAt s 5).limitDa * 5) : let L := (railAt s 5).limitDa
    ∃ t, exec (.currentSample 5 i mv) s = .next t ∧
      t.pwr.hbmGate = (List.range 4).map (fun d => min (if L < i then L * 100 / max 1 i else 100) (thermalGate s d)) ∧
      railAt t 5 = { railAt s 5 with iDa := i, measMv := mv, st := if L < i then 2 else 1 } ∧
      (∀ r, r ≠ 5 → railAt t r = railAt s r) ∧
      t = { s with pwr := { s.pwr with rails := t.pwr.rails, hbmGate := t.pwr.hbmGate }, dbg := t.dbg } := by
  intro L
  have hself : railAt (sampled s 5 i mv) 5 = { railAt s 5 with iDa := i, measMv := mv } := railAt_setRail_self ho
  have hlen : 5 < (sampled s 5 i mv).pwr.rails.length := by simpa [sampled, setRail, setPwr] using rail_lt_of_on ho
  have hlimit : (railAt (sampled s 5 i mv) 5).limitDa = L := (congrArg Rail.limitDa hself :)
  have hsample : doCurrentSample 5 i mv s =
      setRail (setPwr (sampled s 5 i mv) (fun p => { p with
        hbmGate := (List.range 4).map (fun d => min (if L < i then L * 100 / max 1 i else 100) (thermalGate s d)) })) 5
        (fun r => { r with st := if L < i then 2 else 1 }) := by
    rw [currentSample_eq ho, if_neg (Nat.not_lt.mpr hi), if_neg (by decide), if_pos rfl]
    unfold vhbmSample
    rw [hlimit]
    rfl
  refine ⟨_, congrArg (fun t => Host.Outcome.next (traced s t)) hsample, rfl, ?_, fun r hr => ?_, rfl⟩
  · refine (railAt_setRail (j := 5)).trans ((if_pos ⟨rfl, hlen⟩).trans ?_)
    exact congrArg (fun r : Rail => { r with st := if L < i then 2 else 1 }) hself
  · exact (railAt_setRail_ne hr).trans (railAt_setRail_ne (s := s) hr)

theorem currentSample_reports (ho : railOn s rail = true) (hr : rail = 4 ∨ rail = 6 ∨ rail = 7)
    (hi : i * 4 ≤ (railAt s rail).limitDa * 5) :
    ∃ t, exec (.currentSample rail i mv) s = .next t ∧
      (if (railAt s rail).limitDa < i then railAt t rail = { railAt s rail with iDa := i, measMv := mv, overLim := true } ∧
          t.attn = s.attn ||| aPower ∧ newest t 2 = some ⟨s.fabricTime % 2 ^ 48, 7, false, railReg t rail % 2 ^ 64⟩
       else railAt t rail = { railAt s rail with iDa := i, measMv := mv } ∧ t.attn = s.attn ∧ t.rings = s.rings) ∧
      (∀ r, r ≠ rail → railAt t r = railAt s r) ∧
      t = { s with pwr := { s.pwr with rails := t.pwr.rails }, attn := t.attn, rings := t.rings, dbg := t.dbg } := by
  have hself : railAt (sampled s rail i mv) rail = { railAt s rail with iDa := i, measMv := mv } := railAt_setRail_self ho
  have hlen : rail < (sampled s rail i mv).pwr.rails.length := by simpa [sampled, setRail, setPwr] using rail_lt_of_on ho
  have hsample := currentSample_eq (i := i) (mv := mv) ho
  rw [if_neg (Nat.not_lt.mpr hi), if_neg (by omega), if_neg (by omega)] at hsample
  refine ⟨_, congrArg (fun t => Host.Outcome.next (traced s t)) hsample, ?_⟩
  by_cases hover : (railAt s rail).limitDa < i
  · rw [if_pos hover, if_pos hover]
    refine ⟨⟨?_, rfl, newest_powerEvent⟩, fun r hr => ?_, rfl⟩
    · refine (railAt_setRail (j := rail)).trans ((if_pos ⟨rfl, hlen⟩).trans ?_)
      exact congrArg (fun r : Rail => { r with overLim := true }) hself
    · exact (railAt_setRail_ne hr).trans (railAt_setRail_ne (s := s) hr)
  · rw [if_neg hover, if_neg hover]
    exact ⟨⟨hself, rfl, rfl⟩, fun r hr => railAt_setRail_ne (s := s) hr, rfl⟩

theorem railShortDetect_shuts {c : Bool} (ho : railOn s rail = true) (hp : powered s = true)
    (hc : c = true ∨ (railAt s rail).limitDa * 5 < i * 4) :
    ∃ t, exec (.railShortDetect rail i c) s = .next t ∧ EnteredSafe s t rail ∧ (railAt t rail).short = true ∧
      (railAt t rail).st = 3 := by
  obtain ⟨hsafe, hshort, hst⟩ := shutRail_entered (f := fun r => { r with iDa := i }) ho hp
  have hshut : doRailShortDetect rail i c s = shutRail (setRail s rail (fun r => { r with iDa := i })) rail :=
    if_pos (by simpa [ho] using hc)
  exact ⟨_, congrArg (fun t => Host.Outcome.next (traced s t)) hshut,
    ⟨hsafe.state, hsafe.rails, hsafe.lost, hsafe.ring, hsafe.attn, hsafe.kept⟩, hshort, hst⟩

theorem senseOpenDetect_reports (ho : railOn s rail = true) (hs : (railAt s rail).senseOpen = false) :
    ∃ t, exec (.senseOpenDetect rail) s = .next t ∧ railAt t rail = { railAt s rail with senseOpen := true } ∧
      (∀ r, r ≠ rail → railAt t r = railAt s r) ∧ t.attn = s.attn ||| aPower ∧
      newest t 2 = some ⟨s.fabricTime % 2 ^ 48, 7, false, railReg t rail % 2 ^ 64⟩ ∧
      t = { s with pwr := { s.pwr with rails := t.pwr.rails }, attn := t.attn, rings := t.rings, dbg := t.dbg } := by
  set s1 := setRail s rail (fun r => { r with senseOpen := true })
  have hopen : doSenseOpenDetect rail s = powerEvent s1 (railReg s1 rail) := if_pos (by simp [ho, hs])
  exact ⟨_, congrArg (fun t => Host.Outcome.next (traced s t)) hopen, railAt_setRail_self ho,
    fun r hr => railAt_setRail_ne hr, rfl, newest_powerEvent, rfl⟩

end Samples

/-- Settles O48: a sample above 125 % of the limit leads to SAFE, and below it each rail's own action changes that rail alone. -/
theorem railsAreLimited : Obligations.RailsAreLimited := by
  unfold Obligations.RailsAreLimited
  exact ⟨fun rail i mv s ho hp hi => currentSample_shuts ho hp hi,
    fun d i mv s ho hd hl hi => currentSample_vcomp ho hd hl hi,
    fun i mv s ho hi => currentSample_vhbm ho hi,
    fun rail i mv s ho hr hi => currentSample_reports ho hr hi,
    fun rail i c s ho hp hc => railShortDetect_shuts ho hp hc,
    fun rail s ho hs => senseOpenDetect_reports ho hs⟩

end Sys2Proof.Machine
end

section
/-! A power window (R489, R491 to R493, R496, R500). -/

namespace Sys2Proof.Machine

/-! ### A fold that visits each element once -/

/-- What a fold leaves at `d` is what its one step at `d` leaves, where every step keeps `v` and the others keep `w d`. -/
theorem foldl_once {β γ : Type} {f : State → Nat → State} {v : State → β} {w : Nat → State → γ} (hv : ∀ s x, v (f s x) = v s)
    (hw : ∀ s x d, x ≠ d → w d (f s x) = w d s) {d : Nat} : ∀ (l : List Nat), l.Nodup → d ∈ l → ∀ s,
    ∃ s', v s' = v s ∧ w d s' = w d s ∧ w d (l.foldl f s) = w d (f s' d)
  | [], _, hd, _ => absurd hd List.not_mem_nil
  | x :: xs, hn, hd, s => by
    obtain ⟨hx, hxs⟩ := List.nodup_cons.mp hn
    by_cases hxd : x = d
    · subst hxd
      refine ⟨s, rfl, rfl, ?_⟩
      have hrest : ∀ (l : List Nat) (s : State), (∀ y ∈ l, y ≠ x) → w x (l.foldl f s) = w x s := by
        intro l
        induction l with
        | nil => exact fun _ _ => rfl
        | cons y ys ih =>
          intro s hy
          exact (ih (f s y) (fun z hz => hy z (List.mem_cons_of_mem y hz))).trans (hw s y x (hy y List.mem_cons_self))
      exact hrest xs (f s x) (fun y hy h => hx (h ▸ hy))
    · obtain ⟨s', h1, h2, h3⟩ := foldl_once hv hw xs hxs ((List.mem_cons.mp hd).resolve_left (Ne.symm hxd)) (f s x)
      exact ⟨s', h1.trans (hv s x), h2.trans (hw s x d hxd), h3⟩

/-! ### Changes of one die's power state -/

/-- All but the rails, the dies' power states and what was learnt of phases; of the rails their limits. -/
def powerView (s : State) : State × Nat × Nat × (Nat → Nat) :=
  ({ s with pwr := { s.pwr with rails := [], dies := [], learn := [] } }, s.pwr.rails.length, s.pwr.dies.length,
    fun r => (railAt s r).limitDa)

section PowerView

variable {s : State} {d : Nat}

theorem powerView_setDiePwr {f : DiePwr → DiePwr} : powerView (setDiePwr s d f) = powerView s := by
  unfold powerView
  simp only [setDiePwr, setPwr, List.length_modify]
  rfl

theorem powerView_setRail {f : Rail → Rail} (hf : ∀ r, (f r).limitDa = r.limitDa) : powerView (setRail s d f) = powerView s := by
  have hlimits : (fun r => (railAt (setRail s d f) r).limitDa) = fun r => (railAt s r).limitDa := by
    funext r
    rw [railAt_setRail]
    split
    · exact hf _
    · rfl
  unfold powerView
  rw [hlimits]
  simp only [setRail, setPwr, List.length_modify]

theorem powerView_learnStep {p i duty : Nat} : powerView (learnStep s d p i duty) = powerView s := by
  unfold learnStep
  rfl

theorem floorDie_eq : floorDie s d = setRail (setDiePwr s d (fun D => { D with vcompMv := 550, gated := true, dutyPct := 0, lowWindows := 0 }))
    d (fun r => { r with st := 2, setMv := 550 }) := rfl

/-- A die and its rail. -/
def dieAndRail (d : Nat) (s : State) : DiePwr × Rail := (diePwr s d, railAt s d)

theorem dieAndRail_ne {x : Nat} {f : DiePwr → DiePwr} {g : Rail → Rail} (h : x ≠ d) :
    dieAndRail d (setRail (setDiePwr s x f) x g) = dieAndRail d s := by
  unfold dieAndRail
  rw [railAt_setRail_ne (Ne.symm h)]
  exact Prod.ext ((diePwr_setDiePwr (s := s)).trans (if_neg (fun hh => h hh.1))) rfl

theorem dieAndRail_setDiePwr_ne {x : Nat} {f : DiePwr → DiePwr} (h : x ≠ d) : dieAndRail d (setDiePwr s x f) = dieAndRail d s :=
  Prod.ext ((diePwr_setDiePwr (s := s)).trans (if_neg (fun hh => h hh.1))) rfl

theorem diePwr_setDiePwr_self {f : DiePwr → DiePwr} (hd : d < s.pwr.dies.length) : diePwr (setDiePwr s d f) d = f (diePwr s d) :=
  diePwr_setDiePwr.trans (if_pos ⟨rfl, hd⟩)

theorem railAt_setRail_lt {f : Rail → Rail} (hd : d < s.pwr.rails.length) : railAt (setRail s d f) d = f (railAt s d) :=
  railAt_setRail.trans (if_pos ⟨rfl, hd⟩)

end PowerView

/-! ### The voltage step of a window -/

/-- The windows below 90 % of L_d that a die has counted, and the voltage that it steps to (R489, R496, R507). -/
def lowCount (D : DiePwr) (iDa : Nat) : Nat := if !D.gated && iDa * 10 < D.limitDa * 9 then D.lowWindows + 1 else 0

/-- The voltage that a die steps to. -/
def steppedMv (D : DiePwr) (iDa vmax : Nat) : Nat :=
  if D.thermal && 93 < D.tmaxC then max 550 (D.vcompMv - 5)
  else if 8 ≤ lowCount D iDa && !D.thermal && D.vcompMv + 5 ≤ vmax then D.vcompMv + 5 else D.vcompMv

section Step

variable {s : State} {d iDa : Nat}

theorem stepVcomp_eq : stepVcomp s d iDa =
    if forwardOnly s then setRail (setDiePwr s d (fun D => { D with vcompMv := 550, gated := true, dutyPct := 0, lowWindows := 0 }))
      d (fun r => { r with st := 2, setMv := 550 })
    else setRail (setDiePwr s d (fun D => { D with
      lowWindows := min 8 (lowCount (diePwr s d) iDa), vcompMv := steppedMv (diePwr s d) iDa s.pwr.vcompMax })) d
      (fun r => { r with setMv := steppedMv (diePwr s d) iDa s.pwr.vcompMax }) := rfl

theorem powerView_stepVcomp : powerView (stepVcomp s d iDa) = powerView s := by
  rw [stepVcomp_eq]
  split
  · refine (powerView_setRail ?_).trans powerView_setDiePwr
    exact fun _ => rfl
  · refine (powerView_setRail ?_).trans powerView_setDiePwr
    exact fun _ => rfl

theorem dieAndRail_stepVcomp_ne {x : Nat} (h : x ≠ d) : dieAndRail d (stepVcomp s x iDa) = dieAndRail d s := by
  rw [stepVcomp_eq]
  split <;> exact dieAndRail_ne h

/-- A die after the voltage step of its window. -/
theorem stepVcomp_die (hd : d < s.pwr.dies.length) : diePwr (stepVcomp s d iDa) d =
    if forwardOnly s then { diePwr s d with vcompMv := 550, gated := true, dutyPct := 0, lowWindows := 0 }
    else { diePwr s d with lowWindows := min 8 (lowCount (diePwr s d) iDa), vcompMv := steppedMv (diePwr s d) iDa s.pwr.vcompMax } := by
  rw [stepVcomp_eq]
  split <;> exact (diePwr_setDiePwr_self hd :)

theorem stepVcomp_rail (hd : d < s.pwr.rails.length) : (railAt (stepVcomp s d iDa) d).setMv =
    if forwardOnly s then 550 else steppedMv (diePwr s d) iDa s.pwr.vcompMax := by
  rw [stepVcomp_eq]
  split
  · exact congrArg Rail.setMv (railAt_setRail_lt (f := fun r => { r with st := 2, setMv := 550 }) hd)
  · exact congrArg Rail.setMv (railAt_setRail_lt
      (f := fun r => { r with setMv := steppedMv (diePwr s d) iDa s.pwr.vcompMax }) hd)

end Step

/-! ### The window of one die -/

/-- The achievable rate of a die in a window (R491). -/
def windowRate (m : WindowMeas) (d : Nat) : Nat := m.rate.getD d 0 * min 100 (m.duty.getD d 100) * 97 / 10000

/-- The needed factor of a die and whether it is unmet; none while no schedule is active (R316). -/
def windowNeed (s : State) (m : WindowMeas) (d : Nat) : Nat × Bool :=
  if s.fab.tim.sched.active then neededOf (windowRate m d) s.fab.tim.sched.schedRate else (0, false)

/-- A die with the measurements of its window, what it needs and its phase. -/
def measured (m : WindowMeas) (d : Nat) (need : Nat × Bool) (phase : Nat) (D : DiePwr) : DiePwr :=
  { D with
    aMts := min 0xFFF (windowRate m d), needed := need.1, unmet := need.2, phase := phase
    dutyPct := if D.gated then D.dutyPct else min 100 (m.duty.getD d 100) }

/-- What a phase that ran throughout a window teaches (R495). -/
def learnt (m : WindowMeas) (s : State) (d : Nat) : State :=
  if m.whole.getD d false then learnStep s d (diePwr s d).phase (m.iDa.getD d 0) (min 100 (m.duty.getD d 100)) else s

/-- A window of one die. -/
def windowDie (m : WindowMeas) (s : State) (d : Nat) : State :=
  stepVcomp (setDiePwr (learnt m s d) d (measured m d (windowNeed s m d) (phaseAt (learnt m s d) d (learnt m s d).fabricTime))) d
    (m.iDa.getD d 0)

section Window

variable {m : WindowMeas} {s : State} {d : Nat}

theorem learnt_keeps : powerView (learnt m s d) = powerView s ∧ (learnt m s d).pwr.dies = s.pwr.dies ∧
    (learnt m s d).pwr.rails = s.pwr.rails := by
  unfold learnt
  split
  · exact ⟨powerView_learnStep, rfl, rfl⟩
  · exact ⟨rfl, rfl, rfl⟩

theorem dieAndRail_learnt {x : Nat} : dieAndRail x (learnt m s d) = dieAndRail x s := by
  obtain ⟨-, hdies, hrails⟩ := learnt_keeps (m := m) (s := s) (d := d)
  unfold dieAndRail diePwr railAt
  rw [hdies, hrails]

theorem powerView_windowDie : powerView (windowDie m s d) = powerView s :=
  powerView_stepVcomp.trans (powerView_setDiePwr.trans learnt_keeps.1)

theorem dieAndRail_windowDie_ne {x : Nat} (h : x ≠ d) : dieAndRail d (windowDie m s x) = dieAndRail d s :=
  (dieAndRail_stepVcomp_ne h).trans ((dieAndRail_setDiePwr_ne h).trans dieAndRail_learnt)

theorem phaseAt_of_powerView {t : State} (h : powerView t = powerView s) (x : Nat) : phaseAt t x t.fabricTime = phaseAt s x s.fabricTime :=
  congrArg (fun v => phaseAt v.1 x v.1.fabricTime) h

theorem windowNeed_of_powerView {t : State} (h : powerView t = powerView s) (x : Nat) : windowNeed t m x = windowNeed s m x :=
  congrArg (fun v => windowNeed v.1 m x) h

theorem forwardOnly_of_powerView {t : State} (h : powerView t = powerView s) : forwardOnly t = forwardOnly s :=
  congrArg (fun v => forwardOnly v.1) h

/-- The die of a window at its end. -/
def windowed (s : State) (m : WindowMeas) (d : Nat) (D : DiePwr) : DiePwr :=
  let M := measured m d (windowNeed s m d) (phaseAt s d s.fabricTime) D
  if forwardOnly s then { M with vcompMv := 550, gated := true, dutyPct := 0, lowWindows := 0 }
  else { M with lowWindows := min 8 (lowCount D (m.iDa.getD d 0)), vcompMv := steppedMv D (m.iDa.getD d 0) s.pwr.vcompMax }

theorem windowDie_die (hd : d < s.pwr.dies.length) : diePwr (windowDie m s d) d = windowed s m d (diePwr s d) := by
  obtain ⟨hview, hdies, -⟩ := learnt_keeps (m := m) (s := s) (d := d)
  set s1 := setDiePwr (learnt m s d) d (measured m d (windowNeed s m d) (phaseAt (learnt m s d) d (learnt m s d).fabricTime))
  have hview1 : powerView s1 = powerView s := powerView_setDiePwr.trans hview
  have hdie : diePwr s1 d = measured m d (windowNeed s m d) (phaseAt s d s.fabricTime) (diePwr s d) := by
    refine (diePwr_setDiePwr_self (by rw [hdies]; exact hd)).trans ?_
    rw [phaseAt_of_powerView hview, diePwr, hdies]
    rfl
  have hlen : d < s1.pwr.dies.length := by rw [show s1.pwr.dies.length = s.pwr.dies.length from congrArg (·.2.2.1) hview1]; exact hd
  refine (stepVcomp_die (iDa := m.iDa.getD d 0) hlen).trans ?_
  rw [forwardOnly_of_powerView hview1, hdie, show s1.pwr.vcompMax = s.pwr.vcompMax from congrArg (·.1.pwr.vcompMax) hview1]
  rfl

theorem windowDie_rail (hd : d < s.pwr.dies.length) (hr : d < s.pwr.rails.length) :
    (railAt (windowDie m s d) d).setMv = (windowed s m d (diePwr s d)).vcompMv := by
  obtain ⟨hview, hdies, -⟩ := learnt_keeps (m := m) (s := s) (d := d)
  set s1 := setDiePwr (learnt m s d) d (measured m d (windowNeed s m d) (phaseAt (learnt m s d) d (learnt m s d).fabricTime))
  have hview1 : powerView s1 = powerView s := powerView_setDiePwr.trans hview
  have hdie : diePwr s1 d = measured m d (windowNeed s m d) (phaseAt s d s.fabricTime) (diePwr s d) := by
    refine (diePwr_setDiePwr_self (by rw [hdies]; exact hd)).trans ?_
    rw [phaseAt_of_powerView hview, diePwr, hdies]
    rfl
  have hlen : d < s1.pwr.rails.length := by rw [show s1.pwr.rails.length = s.pwr.rails.length from congrArg (·.2.1) hview1]; exact hr
  refine (stepVcomp_rail (iDa := m.iDa.getD d 0) hlen).trans ?_
  rw [forwardOnly_of_powerView hview1, hdie, show s1.pwr.vcompMax = s.pwr.vcompMax from congrArg (·.1.pwr.vcompMax) hview1]
  unfold windowed
  split <;> rfl

end Window

/-! ### The shares of a window (R493) -/

/-- The share of a die's power that a window gives it, and its limit within its rail's. -/
def shareDie (w : Nat → Nat) (s : State) (d : Nat) : State :=
  setDiePwr s d (fun D => { D with
    shareW := min 0xFFF (w d / 10000)
    limitDa := if (diePwr s d).vcompMv = 0 then (railAt s d).limitDa else min (w d / (diePwr s d).vcompMv) (railAt s d).limitDa })

section Shares

variable {s : State} {d : Nat} {w : Nat → Nat}

theorem setShares_eq (s : State) (m : WindowMeas) : ∃ w, setShares s m = ((List.range 4).filter (dieExists s)).foldl (shareDie w) s :=
  ⟨_, rfl⟩

theorem shareDie_die (hd : d < s.pwr.dies.length) : ∃ g n, n ≤ (railAt s d).limitDa ∧
    diePwr (shareDie w s d) d = { diePwr s d with shareW := g, limitDa := n } := by
  refine ⟨_, _, ?_, diePwr_setDiePwr_self hd⟩
  split
  · exact Nat.le_refl _
  · exact Nat.min_le_right _ _

end Shares

/-! ### The whole window -/

/-- A window's end, before the dies' own (R492, R500). -/
def windowStart (m : WindowMeas) (s : State) : State := setPwr s (fun p => addEnergy { p with windowAt := s.now, pInW := m.pInW } m)

/-- The dies of the module. -/
def ownDies (s : State) : List Nat := (List.range 4).filter (dieExists s)

section PowerWindow

variable {m : WindowMeas} {s : State} {d : Nat}

theorem beyondFabric_ite {c : Prop} [Decidable c] {x y : State} (hx : beyondFabric x = beyondFabric s)
    (hy : beyondFabric y = beyondFabric s) : beyondFabric (if c then x else y) = beyondFabric s := by
  split
  · exact hx
  · exact hy

theorem beyondFabric_originate {u : LinkUnit} : beyondFabric (originate s u) = beyondFabric s := beyondFabric_ite rfl rfl

theorem beyondFabric_schedErr {b : Nat} : beyondFabric (schedErr s b) = beyondFabric s := rfl

theorem beyondFabric_setSched {f : Sched → Sched} : beyondFabric (setSched s f) = beyondFabric s := rfl

theorem beyondFabric_forwardStretch {a : Option Nat} {pl : List Byte} : beyondFabric (forwardStretch s a pl) = beyondFabric s :=
  foldl_keeps (fun _ _ => beyondFabric_originate.trans beyondFabric_originate) _ _

theorem beyondFabric_recvStretch {a : Option Nat} {pl : List Byte} : beyondFabric (recvStretch s a pl) = beyondFabric s := by
  unfold recvStretch
  dsimp only
  refine beyondFabric_ite rfl (beyondFabric_ite beyondFabric_schedErr (beyondFabric_ite beyondFabric_schedErr ?_))
  rw [beyondFabric_setSched, beyondFabric_forwardStretch, beyondFabric_setSched]

theorem beyondFabric_raiseIfNeeded : beyondFabric (raiseIfNeeded s) = beyondFabric s := by
  unfold raiseIfNeeded
  dsimp only
  refine beyondFabric_ite rfl ?_
  have herr : beyondFabric (if isUnmet s then schedErr s 32 else s) = beyondFabric s := beyondFabric_ite beyondFabric_schedErr rfl
  generalize (if isUnmet s then schedErr s 32 else s) = s1 at herr ⊢
  exact beyondFabric_ite ((beyondFabric_recvStretch.trans beyondFabric_setSched).trans herr) herr

theorem powerWindow_eq (hp : powered s = true) (hw : s.pwr.windowAt + 1000 * s.pwr.windowUs ≤ s.now) :
    doPowerWindow m s = raiseIfNeeded (setShares ((ownDies s).foldl (windowDie m) (windowStart m s)) m) := by
  unfold doPowerWindow
  exact if_neg (by simp [hp, Nat.not_lt.mpr hw])

end PowerWindow

end Sys2Proof.Machine
end

section
/-! POWER_WINDOW, THERMAL_THRESHOLD, INLET_TEMPERATURE and FLOW_LOW_DETECT (R491 to R497, R500), and the obligation O49. -/

namespace Sys2Proof.Machine

/-! ### POWER_WINDOW -/

section PowerWindow

variable {m : WindowMeas} {s t : State} {d : Nat}

theorem windowed_of_powerView (h : powerView t = powerView s) : windowed t m d = windowed s m d := by
  funext D
  unfold windowed
  rw [forwardOnly_of_powerView h, windowNeed_of_powerView h, phaseAt_of_powerView h,
    show t.pwr.vcompMax = s.pwr.vcompMax from congrArg (·.1.pwr.vcompMax) h]

theorem mem_ownDies (h4 : d < 4) (he : dieExists s d = true) : d ∈ ownDies s :=
  List.mem_filter.mpr ⟨List.mem_range.mpr h4, he⟩

theorem nodup_ownDies : (ownDies s).Nodup := List.nodup_range.filter _

/-- After the dies' own windows each die and its set-point are as its window leaves them. -/
theorem windowDies_at (h4 : d < 4) (he : dieExists s d = true) (hl : d < s.pwr.dies.length) :
    let t := (ownDies s).foldl (windowDie m) s
    powerView t = powerView s ∧ diePwr t d = windowed s m d (diePwr s d) ∧
      (d < s.pwr.rails.length → (railAt t d).setMv = (windowed s m d (diePwr s d)).vcompMv) := by
  obtain ⟨r, hview, hsame, hdie⟩ := foldl_once (v := powerView) (w := dieAndRail) (f := windowDie m) (fun _ _ => powerView_windowDie)
    (fun _ _ _ h => dieAndRail_windowDie_ne h) (ownDies s) nodup_ownDies (mem_ownDies h4 he) s
  have hlen : d < r.pwr.dies.length := by rw [show r.pwr.dies.length = s.pwr.dies.length from congrArg (·.2.2.1) hview]; exact hl
  have hD : diePwr r d = diePwr s d := congrArg Prod.fst hsame
  refine ⟨foldl_keeps (fun _ _ => powerView_windowDie) _ _, ?_, fun hr => ?_⟩
  · refine (congrArg Prod.fst hdie :).trans ((windowDie_die hlen).trans ?_)
    rw [hD, windowed_of_powerView hview]
  · have hrails : d < r.pwr.rails.length := by
      rw [show r.pwr.rails.length = s.pwr.rails.length from congrArg (·.2.1) hview]; exact hr
    refine (congrArg (fun x => x.2.setMv) hdie :).trans ((windowDie_rail hlen hrails).trans ?_)
    rw [hD, windowed_of_powerView hview]

theorem dieAndRail_shareDie_ne {w : Nat → Nat} {x : Nat} (h : x ≠ d) : dieAndRail d (shareDie w s x) = dieAndRail d s :=
  dieAndRail_setDiePwr_ne h

/-- The shares of a window give each die a limit within its rail's and change no more of it. -/
theorem setShares_at (h4 : d < 4) (he : dieExists s d = true) (hl : d < s.pwr.dies.length) :
    powerView (setShares s m) = powerView s ∧ railAt (setShares s m) d = railAt s d ∧ ∃ g n, n ≤ (railAt s d).limitDa ∧
      diePwr (setShares s m) d = { diePwr s d with shareW := g, limitDa := n } := by
  obtain ⟨w, hw⟩ := setShares_eq s m
  have hkeep (r : State) (x : Nat) : powerView (shareDie w r x) = powerView r := powerView_setDiePwr
  obtain ⟨r, hview, hsame, hdie⟩ := foldl_once (v := powerView) (w := dieAndRail) (f := shareDie w) hkeep
    (fun _ _ _ h => dieAndRail_shareDie_ne h) (ownDies s) nodup_ownDies (mem_ownDies h4 he) s
  have hlen : d < r.pwr.dies.length := by rw [show r.pwr.dies.length = s.pwr.dies.length from congrArg (·.2.2.1) hview]; exact hl
  obtain ⟨g, n, hn, hg⟩ := shareDie_die (w := w) hlen
  have hD : diePwr r d = diePwr s d := congrArg Prod.fst hsame
  have hR : railAt r d = railAt s d := congrArg Prod.snd hsame
  rw [hw]
  refine ⟨foldl_keeps hkeep _ _, (congrArg Prod.snd hdie :).trans hR, g, n, hR ▸ hn, (congrArg Prod.fst hdie :).trans (hg.trans ?_)⟩
  rw [hD]

theorem powerView_setShares : powerView (setShares s m) = powerView s := by
  obtain ⟨w, hw⟩ := setShares_eq s m
  rw [hw]
  exact foldl_keeps (fun _ _ => powerView_setDiePwr) _ _

/-- The state of the power unit that a window leaves to the schedule. -/
def windowEnd (m : WindowMeas) (s : State) : State := setShares ((ownDies s).foldl (windowDie m) (windowStart m s)) m

theorem powerView_windowEnd : powerView (windowEnd m s) = powerView (windowStart m s) :=
  powerView_setShares.trans (foldl_keeps (fun _ _ => powerView_windowDie) _ _)

/-- Each die and its rail at the end of a window. -/
theorem windowEnd_at (h4 : d < 4) (he : dieExists s d = true) (hl : d < s.pwr.dies.length) :
    (d < s.pwr.rails.length → (railAt (windowEnd m s) d).setMv = (windowed s m d (diePwr s d)).vcompMv) ∧
      ∃ g n, n ≤ (railAt s d).limitDa ∧ diePwr (windowEnd m s) d = { windowed s m d (diePwr s d) with shareW := g, limitDa := n } := by
  obtain ⟨hview, hdie, hrail⟩ := windowDies_at (m := m) (s := windowStart m s) h4 he hl
  set s2 := (ownDies s).foldl (windowDie m) (windowStart m s)
  have hlen : d < s2.pwr.dies.length := by
    rw [show s2.pwr.dies.length = s.pwr.dies.length from congrArg (·.2.2.1) hview]; exact hl
  have hexists : dieExists s2 d = true := by
    rw [show dieExists s2 d = dieExists s d from congrArg (fun v => dieExists v.1 d) hview]; exact he
  have hlimit : (railAt s2 d).limitDa = (railAt s d).limitDa := congrArg (fun v => v.2.2.2 d) hview
  obtain ⟨-, hsetMv, g, n, hn, hshare⟩ := setShares_at (m := m) h4 hexists hlen
  refine ⟨fun hr => ?_, g, n, hlimit ▸ hn, ?_⟩
  · exact (congrArg Rail.setMv hsetMv).trans (hrail hr)
  · exact hshare.trans (congrArg (fun D : DiePwr => { D with shareW := g, limitDa := n }) hdie)

theorem powerWindow_holds (hp : powered s = true) (hw : s.pwr.windowAt + 1000 * s.pwr.windowUs ≤ s.now) :
    ∃ t, exec (.powerWindow m) s = .next t ∧ beyondFabric t = beyondFabric (windowEnd m s) :=
  ⟨_, congrArg (fun t => Host.Outcome.next (traced s t)) (powerWindow_eq hp hw), (beyondFabric_raiseIfNeeded :)⟩

/-- The windows below 90 % of L_d that make the voltage rise. -/
theorem eighth_window {D : DiePwr} {i : Nat} : decide (8 ≤ lowCount D i) = ((!D.gated && decide (i * 10 < D.limitDa * 9)) && decide (7 ≤ D.lowWindows)) := by
  unfold lowCount
  by_cases h : (!D.gated && decide (i * 10 < D.limitDa * 9)) = true
  · rw [if_pos h, h, Bool.true_and]
    exact decide_eq_decide.mpr (by omega)
  · rw [if_neg h, Bool.eq_false_iff.mpr h]
    rfl

/-- What a window leaves of a die beside its voltage and its limit. -/
theorem windowed_fields {D : DiePwr} : (windowed s m d D).aMts = min 0xFFF (windowRate m d) ∧
    (windowed s m d D).phase = phaseAt s d s.fabricTime ∧
    ((windowed s m d D).needed, (windowed s m d D).unmet) = windowNeed s m d := by
  unfold windowed
  dsimp only
  split <;> exact ⟨rfl, rfl, rfl⟩

/-- The voltage that a die's window leaves, in the words of the statement. -/
theorem windowed_vcomp {D : DiePwr} : let low := !D.gated && m.iDa.getD d 0 * 10 < D.limitDa * 9
    (windowed s m d D).vcompMv =
      if forwardOnly s then 550 else if D.thermal && 93 < D.tmaxC then max 550 (D.vcompMv - 5)
      else if low && 7 ≤ D.lowWindows && !D.thermal && D.vcompMv + 5 ≤ s.pwr.vcompMax then D.vcompMv + 5 else D.vcompMv := by
  intro low
  unfold windowed
  dsimp only
  split
  · rfl
  · dsimp only
    rw [steppedMv, eighth_window]

theorem windowed_low {D : DiePwr} : let low := !D.gated && m.iDa.getD d 0 * 10 < D.limitDa * 9
    (windowed s m d D).lowWindows = if low && !forwardOnly s then min 8 (D.lowWindows + 1) else 0 := by
  intro low
  unfold windowed
  dsimp only
  split
  next hf => simp [hf]
  next hf =>
    simp only [lowCount, Bool.not_eq_true _ ▸ hf, Bool.not_false, Bool.and_true]
    show min 8 (if low = true then D.lowWindows + 1 else 0) = if low = true then _ else _
    split <;> rfl

/-- The clause of POWER_WINDOW for one die. -/
theorem windowEnd_die {t : State} (ht : t.pwr = (windowEnd m s).pwr) (h4 : d < 4) (he : dieExists s d = true)
    (hl : d < s.pwr.dies.length) : let D := diePwr s d
    let a := m.rate.getD d 0 * min 100 (m.duty.getD d 100) * 97 / 10000
    let low := !D.gated && m.iDa.getD d 0 * 10 < D.limitDa * 9
    let v := if forwardOnly s then 550 else if D.thermal && 93 < D.tmaxC then max 550 (D.vcompMv - 5)
      else if low && 7 ≤ D.lowWindows && !D.thermal && D.vcompMv + 5 ≤ s.pwr.vcompMax then D.vcompMv + 5 else D.vcompMv
    (diePwr t d).aMts = min 0xFFF a ∧ (diePwr t d).vcompMv = v ∧
    (d < s.pwr.rails.length → (railAt t d).setMv = v) ∧
    (diePwr t d).lowWindows = (if low && !forwardOnly s then min 8 (D.lowWindows + 1) else 0) ∧
    (diePwr t d).limitDa ≤ (railAt s d).limitDa ∧ (diePwr t d).phase = phaseAt s d s.fabricTime ∧
    (s.fab.tim.sched.active = true →
      ((diePwr t d).needed, (diePwr t d).unmet) = neededOf a s.fab.tim.sched.schedRate) := by
  intro D a low v
  obtain ⟨hrail, g, n, hn, hdie⟩ := windowEnd_at (m := m) h4 he hl
  obtain ⟨hrate, hphase, hneed⟩ := windowed_fields (s := s) (m := m) (d := d) (D := diePwr s d)
  have hD : diePwr t d = { windowed s m d (diePwr s d) with shareW := g, limitDa := n } := by
    rw [← hdie]
    unfold diePwr
    rw [ht]
  have hR : railAt t d = railAt (windowEnd m s) d := by
    unfold railAt
    rw [ht]
  rw [hD, hR]
  refine ⟨hrate, windowed_vcomp, fun hr => (hrail hr).trans windowed_vcomp, windowed_low, hn, hphase, fun ha => hneed.trans ?_⟩
  rw [windowNeed, if_pos ha]
  rfl

end PowerWindow

/-! ### THERMAL_THRESHOLD -/

section Thermal

variable {g : SensorGroup} {old tc : Nat} {s : State}

theorem thermalLevel_crit (h : critTemp g ≤ tc) : thermalLevel g old tc = 3 := by
  cases g <;> simp only [critTemp] at h <;> simp [thermalLevel, sensorLevels, h]

theorem thermalLevel_lt (ho : old < 3) (h : tc < critTemp g) : thermalLevel g old tc < 3 := by
  cases g <;> simp only [critTemp] at h <;> simp only [thermalLevel, sensorLevels, List.foldl_cons, List.foldl_nil] <;>
    grind

/-- From level 0 a group is noticed at its first threshold. -/
theorem thermalLevel_notice (ho : old = 0) (h : tc < critTemp g) : (thermalLevel g old tc != 0) = decide (noticeTemp g ≤ tc) := by
  subst ho
  cases g <;> simp only [critTemp] at h <;> simp only [thermalLevel, sensorLevels, noticeTemp, List.foldl_cons, List.foldl_nil] <;>
    grind

/-- Three degrees below its first threshold a group leaves every level. -/
theorem thermalLevel_leaves (h : tc + 3 ≤ noticeTemp g) : thermalLevel g old tc = 0 := by
  cases g <;> simp only [noticeTemp] at h <;> simp only [thermalLevel, sensorLevels, List.foldl_cons, List.foldl_nil] <;>
    grind

theorem thermalLevel_die_cap {d : Nat} (h : 95 ≤ tc) : 2 ≤ thermalLevel (.die d) old tc := by
  simp only [thermalLevel, sensorLevels, List.foldl_cons, List.foldl_nil]
  grind

theorem thermalLevel_die_below {d : Nat} (h : tc + 3 ≤ 95) : thermalLevel (.die d) old tc < 2 := by
  simp only [thermalLevel, sensorLevels, List.foldl_cons, List.foldl_nil]
  grind

theorem thermalLevel_hbm_cap {k : Nat} (h : 95 ≤ tc) : 2 ≤ thermalLevel (.hbm k) old tc := by
  simp only [thermalLevel, sensorLevels, List.foldl_cons, List.foldl_nil]
  grind

/-- The state with a group's level, and what its sensors hold of the group (R496). -/
def sensed (g : SensorGroup) (tc old new : Nat) (s : State) : State :=
  let s := setPwr s (fun p => { p with levels := insertKey p.levels (sensorKey g) new })
  match g with
  | .die d => setDiePwr s d (fun D => { D with tmaxC := min 255 tc, thermal := 2 ≤ new })
  | .hbm k => setPwr { s with mgt := { s.mgt with hbm := s.mgt.hbm.modify k (fun x => (x.1, min 255 tc)) } } (fun p => { p with
      hbmGate := (List.range 4).map (fun d =>
        min (if thermalGate s d = 50 then 50 else 100) (if old ≥ 2 && new < 2 then 100 else p.hbmGate.getD d 100)) })
  | _ => s

/-- A group that enters its first level is reported. -/
def noticed (old new : Nat) (s : State) : State := if old = 0 && new != 0 then powerEvent s (thermReg s) else s

theorem thermalThreshold_eq (hp : powered s = true) : doThermalThreshold g tc s =
    let old := lookupD s.pwr.levels (sensorKey g) 0
    let new := thermalLevel g old tc
    if new = 3 then enterSafe (noticed old new (sensed g tc old new s)) (0x80 + sensorKey g)
    else noticed old new (sensed g tc old new s) := by
  unfold doThermalThreshold
  rw [hp, Bool.not_true, if_neg Bool.false_ne_true]
  cases g <;> rfl

section Sensed

variable {new : Nat}

theorem sensed_frame : sensed g tc old new s = { s with
    pwr := { s.pwr with levels := (sensed g tc old new s).pwr.levels, dies := (sensed g tc old new s).pwr.dies,
                        hbmGate := (sensed g tc old new s).pwr.hbmGate }
    mgt := { s.mgt with hbm := (sensed g tc old new s).mgt.hbm } } := by
  cases g <;> rfl

theorem sensed_level : lookupD (sensed g tc old new s).pwr.levels (sensorKey g) 0 = new := by
  have h : (sensed g tc old new s).pwr.levels = insertKey s.pwr.levels (sensorKey g) new := by cases g <;> rfl
  rw [h, lookupD_insertKey, if_pos rfl]

theorem thermReg_sensed : thermReg (sensed g tc old new s) = thermReg s := by cases g <;> rfl

theorem sensed_hbm (k : Nat) (hk : k < s.mgt.hbm.length) : ((sensed g tc old new s).mgt.hbm.getD k (0, 0)).2 =
    if g = .hbm k then min 255 tc else (s.mgt.hbm.getD k (0, 0)).2 := by
  cases g with
  | hbm j =>
    show ((s.mgt.hbm.modify j (fun x => (x.1, min 255 tc))).getD k (0, 0)).2 = _
    simp only [List.getD_eq_getElem?_getD, List.getElem?_modify, List.getElem?_eq_getElem hk]
    by_cases hj : j = k <;> simp [hj]
  | _ => simp [sensed, setDiePwr, setPwr]

theorem sensed_die {d : Nat} (hd : d < s.pwr.dies.length) :
    diePwr (sensed (.die d) tc old new s) d = { diePwr s d with tmaxC := min 255 tc, thermal := 2 ≤ new } :=
  diePwr_setDiePwr_self (s := setPwr s (fun p => { p with levels := insertKey p.levels (sensorKey (.die d)) new })) hd

/-- From CAP on, the requests to the HBM of a stack's die are halved. -/
theorem sensed_gate {k d : Nat} (h4 : d < 4) (hk : k / 3 = d) (hn : 2 ≤ new) :
    (sensed (.hbm k) tc old new s).pwr.hbmGate.getD d 100 ≤ 50 := by
  have hgate : thermalGate (setPwr s (fun p => { p with levels := insertKey p.levels (16 + k) new })) d = 50 := by
    unfold thermalGate
    refine if_pos (List.any_eq_true.mpr ⟨k, ?_, ?_⟩)
    · have := Nat.div_add_mod k 3
      have := Nat.mod_lt k (show 3 > 0 by decide)
      simp only [List.mem_cons, List.not_mem_nil, or_false]
      omega
    · show decide (2 ≤ lookupD (insertKey s.pwr.levels (16 + k) new) (16 + k) 0) = true
      rw [lookupD_insertKey, if_pos rfl]
      exact decide_eq_true hn
  unfold sensed
  dsimp only [setPwr]
  rw [List.getD_eq_getElem?_getD, List.getElem?_map, List.getElem?_range h4]
  simp only [Option.map_some, Option.getD_some]
  refine (Nat.min_le_left _ _).trans ?_
  exact Nat.le_of_eq (if_pos hgate)

end Sensed

theorem noticed_keeps {new : Nat} {r : State} : (noticed old new r).comp = r.comp ∧ (noticed old new r).fabricTime = r.fabricTime ∧
    (noticed old new r).mgt = r.mgt ∧ (noticed old new r).pins = r.pins ∧ (noticed old new r).pwr = r.pwr ∧
    noticed old new r = { r with attn := (noticed old new r).attn, rings := (noticed old new r).rings } := by
  unfold noticed
  split <;> exact ⟨rfl, rfl, rfl, rfl, rfl, rfl⟩

/-- A group at its critical temperature takes the module to SAFE. -/
theorem thermalThreshold_critical (hp : powered s = true) (hc : critTemp g ≤ tc) :
    ∃ t, exec (.thermalThreshold g tc) s = .next t ∧ EnteredSafe s t (0x80 + sensorKey g) ∧
      (∀ k, k < s.mgt.hbm.length → (t.mgt.hbm.getD k (0, 0)).2 = if g = .hbm k then min 255 tc else (s.mgt.hbm.getD k (0, 0)).2) := by
  have hrun := thermalThreshold_eq (g := g) (tc := tc) hp
  dsimp only at hrun
  rw [if_pos (thermalLevel_crit hc)] at hrun
  generalize lookupD s.pwr.levels (sensorKey g) 0 = old at hrun
  generalize thermalLevel g old tc = new at hrun
  obtain ⟨hcomp, htime, hmgt, hpins, hpwr, -⟩ := noticed_keeps (old := old) (new := new) (r := sensed g tc old new s)
  have hframe := sensed_frame (g := g) (tc := tc) (old := old) (new := new) (s := s)
  set s2 := noticed old new (sensed g tc old new s)
  have hmgt2 : s2.mgt = { s.mgt with hbm := s2.mgt.hbm } := by rw [hmgt]; exact (congrArg State.mgt hframe :)
  have hp2 : powered s2 = true := by
    unfold powered
    rw [hmgt2]
    exact hp
  have hrails : s2.pwr.rails = s.pwr.rails := by rw [hpwr]; exact (congrArg (·.pwr.rails) hframe :)
  obtain ⟨hsafe, -, hhbm⟩ := enterSafe_entered (s := s2) (cause := 0x80 + sensorKey g) hp2
  have hsafe' : EnteredSafe s (enterSafe s2 (0x80 + sensorKey g)) (0x80 + sensorKey g) :=
    hsafe.of_before (fun r hr => by unfold railAt at hr ⊢; rw [hrails]; exact hr) (hcomp.trans (congrArg State.comp hframe :))
      (htime.trans (congrArg State.fabricTime hframe :)) hmgt2 (hpins.trans (congrArg State.pins hframe :))
  refine ⟨_, congrArg (fun t => Host.Outcome.next (traced s t)) hrun,
    ⟨hsafe'.state, hsafe'.rails, hsafe'.lost, hsafe'.ring, hsafe'.attn, hsafe'.kept⟩, fun k hk => ?_⟩
  show ((enterSafe s2 (0x80 + sensorKey g)).mgt.hbm.getD k (0, 0)).2 = _
  rw [hhbm, hmgt]
  exact sensed_hbm k hk

/-- Below its critical temperature a group is reported when it is first noticed, and what its sensors hold follows. -/
theorem thermalThreshold_below (hp : powered s = true) (ho : lookupD s.pwr.levels (sensorKey g) 0 < 3) (hc : tc < critTemp g) :
    ∃ t, exec (.thermalThreshold g tc) s = .next t ∧
      (lookupD s.pwr.levels (sensorKey g) 0 = 0 → (if noticeTemp g ≤ tc then
          t.attn = s.attn ||| aPower ∧ newest t 2 = some ⟨s.fabricTime % 2 ^ 48, 7, false, thermReg s % 2 ^ 64⟩
        else t.attn = s.attn ∧ t.rings = s.rings ∧ lookupD t.pwr.levels (sensorKey g) 0 = 0)) ∧
      (lookupD s.pwr.levels (sensorKey g) 0 ≠ 0 → t.attn = s.attn ∧ t.rings = s.rings ∧
        (tc + 3 ≤ noticeTemp g → lookupD t.pwr.levels (sensorKey g) 0 = 0)) ∧
      (∀ d, g = .die d → d < s.pwr.dies.length → (diePwr t d).tmaxC = min 255 tc ∧
        (95 ≤ tc → (diePwr t d).thermal = true) ∧ (tc + 3 ≤ 95 → (diePwr t d).thermal = false)) ∧
      (∀ k d, g = .hbm k → d < 4 → k / 3 = d → 95 ≤ tc → t.pwr.hbmGate.getD d 100 ≤ 50) ∧
      (∀ k, g = .hbm k → k < s.mgt.hbm.length → (t.mgt.hbm.getD k (0, 0)).2 = min 255 tc) ∧
      t = { s with pwr := { s.pwr with levels := t.pwr.levels, dies := t.pwr.dies, hbmGate := t.pwr.hbmGate },
                   mgt := { s.mgt with hbm := t.mgt.hbm }, attn := t.attn, rings := t.rings, dbg := t.dbg } := by
  have hrun := thermalThreshold_eq (g := g) (tc := tc) hp
  dsimp only at hrun
  rw [if_neg (Nat.ne_of_lt (thermalLevel_lt ho hc))] at hrun
  set old := lookupD s.pwr.levels (sensorKey g) 0
  obtain ⟨new, hnew⟩ : ∃ new, thermalLevel g old tc = new := ⟨_, rfl⟩
  rw [hnew] at hrun
  obtain ⟨-, -, hmgt, -, hpwr, hnoticed⟩ := noticed_keeps (old := old) (new := new) (r := sensed g tc old new s)
  have hframe := sensed_frame (g := g) (tc := tc) (old := old) (new := new) (s := s)
  have hlevel := sensed_level (g := g) (tc := tc) (old := old) (new := new) (s := s)
  have hreg := thermReg_sensed (g := g) (tc := tc) (old := old) (new := new) (s := s)
  have htime : (sensed g tc old new s).fabricTime = s.fabricTime := (congrArg State.fabricTime hframe :)
  have hattn : (sensed g tc old new s).attn = s.attn := (congrArg State.attn hframe :)
  have hrings : (sensed g tc old new s).rings = s.rings := (congrArg State.rings hframe :)
  have hquiet (hq : (decide (old = 0) && new != 0) = false) : noticed old new (sensed g tc old new s) = sensed g tc old new s := by
    unfold noticed
    rw [hq]
    rfl
  refine ⟨_, congrArg (fun t => Host.Outcome.next (traced s t)) hrun, fun h0 => ?_, fun h0 => ?_, fun d hd hl => ?_, fun k d hk h4 hkd h95 => ?_,
    fun k hk hl => ?_, ?_⟩
  · have hn := thermalLevel_notice h0 hc
    rw [hnew] at hn
    split
    next ht =>
      have hloud : noticed old new (sensed g tc old new s) = powerEvent (sensed g tc old new s) (thermReg s) := by
        unfold noticed
        rw [hn, decide_eq_true h0, decide_eq_true ht, hreg]
        rfl
      show (noticed old new (sensed g tc old new s)).attn = _ ∧ newest (noticed old new (sensed g tc old new s)) 2 = _
      rw [hloud, newest_powerEvent, htime]
      exact ⟨congrArg (· ||| aPower) hattn, rfl⟩
    next ht =>
      have hz : new = 0 := by simpa [ht] using hn
      show (noticed old new (sensed g tc old new s)).attn = _ ∧ (noticed old new (sensed g tc old new s)).rings = _ ∧
        lookupD (noticed old new (sensed g tc old new s)).pwr.levels _ 0 = 0
      rw [hquiet (by simp [hz])]
      exact ⟨hattn, hrings, hlevel.trans hz⟩
  · show (noticed old new (sensed g tc old new s)).attn = _ ∧ (noticed old new (sensed g tc old new s)).rings = _ ∧
      (_ → lookupD (noticed old new (sensed g tc old new s)).pwr.levels _ 0 = 0)
    rw [hquiet (by simp [h0])]
    exact ⟨hattn, hrings, fun h3 => hlevel.trans (hnew.symm.trans (thermalLevel_leaves h3))⟩
  · subst hd
    have hdie : diePwr (traced s (noticed old new (sensed (.die d) tc old new s))) d =
        { diePwr s d with tmaxC := min 255 tc, thermal := 2 ≤ new } := by
      refine Eq.trans ?_ (sensed_die (old := old) hl)
      unfold diePwr
      rw [← hpwr]
      rfl
    rw [hdie]
    refine ⟨rfl, fun h95 => decide_eq_true ?_, fun h95 => decide_eq_false ?_⟩
    · rw [← hnew]
      exact thermalLevel_die_cap h95
    · rw [← hnew]
      exact Nat.not_le.mpr (thermalLevel_die_below h95)
  · subst hk
    show (noticed old new (sensed (.hbm k) tc old new s)).pwr.hbmGate.getD d 100 ≤ 50
    rw [hpwr]
    exact sensed_gate h4 hkd (hnew ▸ thermalLevel_hbm_cap h95)
  · subst hk
    show ((noticed old new (sensed (.hbm k) tc old new s)).mgt.hbm.getD k (0, 0)).2 = _
    rw [hmgt, sensed_hbm k hl, if_pos rfl]
  · generalize noticed old new (sensed g tc old new s) = t at hmgt hpwr hnoticed
    have ht : t = { s with pwr := { s.pwr with levels := t.pwr.levels, dies := t.pwr.dies, hbmGate := t.pwr.hbmGate }
                           mgt := { s.mgt with hbm := t.mgt.hbm }, attn := t.attn, rings := t.rings } := by
      rw [hpwr, hmgt]
      exact hnoticed.trans (congrArg (fun x : State => { x with attn := t.attn, rings := t.rings }) hframe)
    exact (congrArg (fun x : State => { x with dbg := (traced s t).dbg }) ht :)

end Thermal

/-! ### Coolant -/

section Coolant

variable {s : State}

theorem inletTemperature_holds {i o : Nat} (hp : powered s = true) :
    ∃ t, exec (.inletTemperature i o) s = .next t ∧
      (let flow := if o ≤ i then 0xFFF else min 0xFFF (s.pwr.pInW * 6000000 / (4186 * (o - i)))
       t.pwr = { s.pwr with
         inletC := min 255 (i / 1000), outletC := min 255 (o / 1000), flowCl := flow, inletHigh := 45000 < i,
         capReduced := if 50000 < i then true else if i ≤ 45000 then false else s.pwr.capReduced,
         flowSince := if flow < 240 ∧ 400 ≤ s.pwr.pInW then some (s.pwr.flowSince.getD s.now) else none,
         flowLow := s.pwr.flowLow && decide (flow < 240 ∧ 400 ≤ s.pwr.pInW) }) ∧
      (if 45000 < i ∧ s.pwr.inletHigh = false then
        t.attn = s.attn ||| aPower ∧ newest t 2 = some ⟨s.fabricTime % 2 ^ 48, 7, false, thermReg t % 2 ^ 64⟩
       else t.attn = s.attn ∧ t.rings = s.rings) ∧
      t = { s with pwr := t.pwr, attn := t.attn, rings := t.rings, dbg := t.dbg } := by
  set s1 := setPwr s (fun p => { p with
    inletC := min 255 (i / 1000), outletC := min 255 (o / 1000), flowCl := flowOf p.pInW i o, inletHigh := 45000 < i
    capReduced := if 50000 < i then true else if i ≤ 45000 then false else p.capReduced
    flowSince := if flowOf p.pInW i o < 240 ∧ 400 ≤ p.pInW then some (p.flowSince.getD s.now) else none
    flowLow := p.flowLow && decide (flowOf p.pInW i o < 240 ∧ 400 ≤ p.pInW) })
  have hrun : doInletTemperature i o s = if 45000 < i ∧ s.pwr.inletHigh = false then powerEvent s1 (thermReg s1) else s1 := by
    unfold doInletTemperature
    rw [hp, Bool.not_true, if_neg Bool.false_ne_true]
    extract_lets p flow low was s0
    have hset : s0 = s1 := by
      refine congrArg (fun p => { s with pwr := p }) ?_
      simp only [low, flow, p, Bool.and_eq_true, decide_eq_true_eq, Bool.decide_and]
    rw [hset]
    exact if_congr (by simp [was, p]) rfl rfl
  refine ⟨_, congrArg (fun t => Host.Outcome.next (traced s t)) hrun, ?_⟩
  by_cases h : 45000 < i ∧ s.pwr.inletHigh = false
  · rw [if_pos h, if_pos h]
    exact ⟨rfl, ⟨rfl, newest_powerEvent⟩, rfl⟩
  · rw [if_neg h, if_neg h]
    exact ⟨rfl, ⟨rfl, rfl⟩, rfl⟩

theorem flowLowDetect_reports {n : Nat} (hp : powered s = true) (hs : s.pwr.flowSince = some n) (hn : n + 1000000000 ≤ s.now)
    (hl : s.pwr.flowLow = false) :
    ∃ t, exec .flowLowDetect s = .next t ∧ t.pwr = { s.pwr with flowLow := true } ∧ t.attn = s.attn ||| aPower ∧
      newest t 2 = some ⟨s.fabricTime % 2 ^ 48, 7, false, thermReg t % 2 ^ 64⟩ ∧
      t = { s with pwr := t.pwr, attn := t.attn, rings := t.rings, dbg := t.dbg } := by
  set s1 := setPwr s (fun p => { p with flowLow := true })
  have hrun : doFlowLowDetect s = powerEvent s1 (thermReg s1) := by
    unfold doFlowLowDetect
    rw [hs]
    exact if_pos (by simp [hp, hl, hn])
  exact ⟨_, congrArg (fun t => Host.Outcome.next (traced s t)) hrun, rfl, rfl, newest_powerEvent, rfl⟩

end Coolant

/-- Settles O49: a window visits each die once, and a sensor group's level decides its report, its caps and SAFE. -/
theorem powerAndHeatAreHeld : Obligations.PowerAndHeatAreHeld := by
  unfold Obligations.PowerAndHeatAreHeld
  refine ⟨fun m s hp hw => ?window, fun g tc s hp hc => thermalThreshold_critical hp hc,
    fun g tc s hp ho hc => thermalThreshold_below hp ho hc, fun i o s hp => inletTemperature_holds hp,
    fun n s hp hs hn hl => flowLowDetect_reports hp hs hn hl⟩
  case window =>
    obtain ⟨t, ht, hbeyond⟩ := powerWindow_holds (m := m) hp hw
    have hview := powerView_windowEnd (m := m) (s := s)
    have hpwr : t.pwr = (windowEnd m s).pwr := (congrArg State.pwr hbeyond :)
    refine ⟨t, ht, ?_, ?_, ?_, ?_, ?_, fun d h4 he hl => windowEnd_die hpwr h4 he hl, ?_, ?_, ?_, ?_, ?_⟩
    · rw [hpwr]; exact congrArg (·.1.pwr.windowAt) hview
    · rw [hpwr]; exact congrArg (·.1.pwr.pInW) hview
    · rw [hpwr]; exact congrArg (·.1.pwr.ejob) hview
    · rw [hpwr]; exact congrArg (·.1.pwr.equeue) hview
    · rw [hpwr]; exact congrArg (·.1.pwr.eother) hview
    · exact (congrArg State.comp hbeyond :).trans (congrArg (·.1.comp) hview)
    · exact (congrArg State.coll hbeyond :).trans (congrArg (·.1.coll) hview)
    · exact (congrArg State.tops hbeyond :).trans (congrArg (·.1.tops) hview)
    · exact (congrArg State.mgt hbeyond :).trans (congrArg (·.1.mgt) hview)
    · exact (congrArg State.integ hbeyond :).trans (congrArg (·.1.integ) hview)

end Sys2Proof.Machine
end

section
/-! The answer to an input and what follows it (R131, R156, R442, R443, R446), the timers of ordinals and chunks (R154, R447) and
the obligation O38. -/

namespace Sys2Proof.Machine

/-! ### What collectives leave of a module -/

/-- What `KeepsData` names. -/
def dataView (s : State) :=
  ((regsOf s, s.comp.mem, s.comp.fpVec, s.comp.fpMtx, s.comp.fpRde), s.tops, s.pwr, s.mgt)

section Data

variable {s t : State} {q j e o : Nat}

theorem KeepsData.of_dataView (h : dataView t = dataView s) : KeepsData s t where
  mem := congrArg (·.1.2.1) h
  regs q := congrFun (congrArg (·.1.1) h) q
  fpVec := congrArg (·.1.2.2.1) h
  fpMtx := congrArg (·.1.2.2.2.1) h
  fpRde := congrArg (·.1.2.2.2.2) h
  tops := congrArg (·.2.1) h
  pwr := congrArg (·.2.2.1) h
  mgt := congrArg (·.2.2.2) h

theorem dataView_of_abortView (h : abortView t = abortView s) : dataView t = dataView s :=
  congrArg (fun x => (x.1, x.2.1, x.2.2.2.1, x.2.2.2.2.1)) h

theorem dataView_of_coreView (h : coreView t = coreView s) : dataView t = dataView s := dataView_of_abortView (abortView_of_coreView h)

theorem dataView_ite {c : Prop} [Decidable c] {x y : State} (hx : dataView x = dataView s) (hy : dataView y = dataView s) :
    dataView (if c then x else y) = dataView s := by
  split
  · exact hx
  · exact hy

theorem dataView_setJobFlag {f : Nat} {b : Bool} : dataView (setJobFlag s j f b) = dataView s := rfl

theorem dataView_setColl {f : Coll → Coll} : dataView (setColl s j e o f) = dataView s := rfl

theorem dataView_completeCallers : dataView (completeCallers s j e o) = dataView s := by
  unfold completeCallers
  refine foldl_keeps (fun s q => ?_) _ _
  extract_lets Q hit s1 s2
  have h1 : dataView s1 = dataView s := foldl_keeps (fun _ _ => dataView_setJobFlag) _ _
  have h2 : dataView s2 = dataView s1 := by
    refine dataView_of_coreView (coreView_setQueue ?_)
    exact fun _ => ⟨rfl, rfl, rfl, rfl, rfl, rfl⟩
  refine dataView_ite rfl ?_
  split
  · exact dataView_ite ((dataView_of_coreView coreView_endWait).trans (h2.trans h1)) (h2.trans h1)
  · exact h2.trans h1

theorem dataView_settleColl : dataView (settleColl s j e o) = dataView s := by
  unfold settleColl
  split
  · rfl
  · extract_lets c s1 s2 s3
    have h1 : dataView s1 = dataView s := foldl_keeps (fun _ _ => dataView_of_abortView abortView_dropStaged) _ _
    have h2 : dataView s2 = dataView s1 := foldl_keeps (fun _ _ => dataView_of_abortView abortView_freeOut) _ _
    exact dataView_ite (dataView_completeCallers.trans (h2.trans h1)) rfl

theorem chunkLags_keeps {E : CollEntry} {k : Nat} {rs : List Nat} : dataView (chunkLags s E j e o k rs) = dataView s ∧
    ordView (chunkLags s E j e o k rs) = ordView s := by
  unfold chunkLags
  exact ⟨foldl_keeps (v := dataView) (f := fun s (t : Nat × Nat) => addLag s (entryDie E) j o t.1 _) (fun _ _ => rfl) _ _,
    foldl_keeps (v := ordView) (f := fun s (t : Nat × Nat) => addLag s (entryDie E) j o t.1 _) (fun _ _ => rfl) _ _⟩

theorem dataView_chunkReached {E : CollEntry} {k : Nat} : dataView (chunkReached s E j e o k) = dataView s := by
  unfold chunkReached
  exact dataView_ite rfl (dataView_setColl.trans chunkLags_keeps.1)

theorem dataView_nakInput {i : Inp} {d : HeldDigest} {cause : Nat} : dataView (nakInput s j e o i d cause) = dataView s := by
  unfold nakInput
  refine dataView_ite (dataView_of_abortView abortView_abortHere) ?_
  extract_lets s1 s2 fab s3
  have h1 : dataView s1 = dataView s := dataView_of_abortView abortView_originate
  have h2 : dataView s2 = dataView s1 := (dataView_of_abortView (abortView_dropStaged (s := icnt s1 5 1) (x := i)) :)
  exact (dataView_setColl (s := s3)).trans (h2.trans h1 : dataView s3 = dataView s)

end Data

/-! ### The record of an answered input -/

/-- Whether an input has been answered with ACK, and the CRC of that answer. -/
def ackOf (j e o r k : Nat) (s : State) : Bool × Nat := ((inpAt (collAt s j e o) r k).acked, (inpAt (collAt s j e o) r k).ackCrc)

section Acked

variable {s t : State} {j e o r k : Nat}

theorem ackOf_of_ordView (h : ordView t = ordView s) : ackOf j e o r k t = ackOf j e o r k s := by
  unfold ackOf
  rw [collAt_of_ordView h]

/-- An ordinal that completes keeps the answers that it gave. -/
theorem inpAt_settled {c : Coll} :
    (inpAt { c with inputs := c.inputs.map (fun i => { i with frames := [], allocs := [] }) } r k).acked = (inpAt c r k).acked ∧
    (inpAt { c with inputs := c.inputs.map (fun i => { i with frames := [], allocs := [] }) } r k).ackCrc = (inpAt c r k).ackCrc := by
  unfold inpAt
  dsimp only
  rw [List.find?_map]
  rw [show ((fun i : Inp => i.rank == r && i.chunk == k) ∘ fun i => { i with frames := [], allocs := [] }) =
    fun i : Inp => i.rank == r && i.chunk == k from rfl]
  cases c.inputs.find? (fun i : Inp => i.rank == r && i.chunk == k) <;> exact ⟨rfl, rfl⟩

theorem ordView_completeCallers : ordView (completeCallers s j e o) = ordView s := by
  unfold completeCallers
  refine foldl_keeps (fun s q => ?_) _ _
  extract_lets Q hit s1 s2
  have h1 : ordView s1 = ordView s := foldl_keeps (v := ordView) (f := fun s (a : Nat × Nat × Nat) => setJobFlag s j a.2.2 true)
    (fun _ _ => rfl) _ _
  have h2 : ordView s2 = ordView s := h1
  have hend : ordView (endWait s2 q) = ordView s := (ordView_of_coreView coreView_endWait).trans h2
  clear_value s2
  split
  · rfl
  · split
    · split
      · exact hend
      · exact h2
    · exact h2

theorem ackOf_settleColl : ackOf j e o r k (settleColl s j e o) = ackOf j e o r k s := by
  unfold settleColl
  split
  · rfl
  · extract_lets c s1 s2 s3
    split
    · have h1 : ordView s1 = ordView s := foldl_keeps (fun _ _ => ordView_dropStaged) _ _
      have h2 : ordView s2 = ordView s1 := foldl_keeps (fun _ _ => ordView_freeOut) _ _
      have h3 : ackOf j e o r k s3 = ackOf j e o r k s2 := by
        unfold ackOf
        rw [show collAt s3 j e o = _ from collAt_setColl_self isKey_collAt]
        exact Prod.ext inpAt_settled.1 inpAt_settled.2
      exact (ackOf_of_ordView ordView_completeCallers).trans (h3.trans (ackOf_of_ordView (h2.trans h1)))
    · rfl

theorem ackOf_chunkReached {E : CollEntry} {x : Nat} : ackOf j e o r k (chunkReached s E j e o x) = ackOf j e o r k s := by
  unfold chunkReached
  extract_lets c s1
  split
  · rfl
  · refine Eq.trans ?_ (ackOf_of_ordView (chunkLags_keeps (s := s) (j := j) (e := e) (o := o) (E := E) (k := x) (rs := E.inputs.map (·.rank))).2)
    unfold ackOf
    rw [collAt_setColl_self isKey_collAt]
    rfl

end Acked

/-! ### Answers that SHORT_WAIT_US forces -/

section Answers

variable {s : State} {j e o rank chunk : Nat} {top : Topiary} {E : CollEntry} {r : InRec} {d : HeldDigest}

/-- The state once an input has been answered with ACK (R442). -/
def ackInput (s : State) (j e o rank chunk : Nat) (E : CollEntry) (d : HeldDigest) : State :=
  let i := inpAt (collAt s j e o) rank chunk
  let s := originate s (answerUnit 0 (j, e, o, chunk, rank) d.crc d.retRoute)
  let s := setColl s j e o (fun c =>
    { putInp c { i with acked := true, ackCrc := d.crc } with retRoutes := (c.retRoutes ++ [d.retRoute]).eraseDups })
  let c := collAt s j e o
  let s := if chunk != 0xFFFFFF && E.inputs.all (fun r => (inpAt c r.rank chunk).acked) then chunkReached s E j e o chunk else s
  settleColl s j e o

/-- The state once an input has been refused with a NAK_CHUNK cause. -/
def refuseInput (s : State) (j e o rank chunk : Nat) (r : InRec) (d : HeldDigest) (cause : Nat) : State :=
  nakInput (if r.sparseOk && cause == 3 then setJob s j (fun x => { x with formatErr := satAdd x.formatErr 1 }) else s) j e o
    (inpAt (collAt s j e o) rank chunk) d cause

theorem answerInput_forced (ht : topOf s j = some top) (he : entryOf s j o = some E) (hr : inputFor E rank chunk = some r)
    (hd : (inpAt (collAt s j e o) rank chunk).digest = some d) (ha : (inpAt (collAt s j e o) rank chunk).acked = false) :
    answerInput s j e o rank chunk true =
      if inputAnswer top (collAt s j e o) E r (inpAt (collAt s j e o) rank chunk) d = 0 then ackInput s j e o rank chunk E d
      else refuseInput s j e o rank chunk r d (inputAnswer top (collAt s j e o) E r (inpAt (collAt s j e o) rank chunk) d) := by
  unfold answerInput
  rw [ht, he]
  dsimp -zeta only
  extract_lets c i
  split
  next r' d' hr' hd' =>
    obtain rfl : r = r' := Option.some.inj (hr.symm.trans hr')
    obtain rfl : d = d' := Option.some.inj (hd.symm.trans hd')
    extract_lets missing
    rw [show i.acked = false from ha, Bool.not_true, Bool.and_false, Bool.or_false, if_neg Bool.false_ne_true]
    split
    next h => rw [if_pos h]; rfl
    next h => rw [if_neg h]; rfl
  next hnone => exact absurd hd (hnone r d hr)

/-- The answer of an input whose record was replaced. -/
theorem ackOf_setColl_putInp {i : Inp} {rs : Coll → List Nat} (hr : i.rank = rank) (hk : i.chunk = chunk) :
    ackOf j e o rank chunk (setColl s j e o (fun c => { putInp c i with retRoutes := rs c })) = (i.acked, i.ackCrc) := by
  unfold ackOf
  rw [collAt_setColl_self isKey_collAt]
  have hput : inpAt { putInp (collAt s j e o) i with retRoutes := rs (collAt s j e o) } rank chunk = i := inpAt_putInp_self hr hk
  rw [hput]

theorem ackInput_acked : ackOf j e o rank chunk (ackInput s j e o rank chunk E d) = (true, d.crc) ∧
    dataView (ackInput s j e o rank chunk E d) = dataView s := by
  obtain ⟨hrank, hchunk⟩ := inpAt_key (c := collAt s j e o) (r := rank) (k := chunk)
  unfold ackInput
  extract_lets i s1 s2 c s3
  have hrank' : i.rank = rank := hrank
  have hchunk' : i.chunk = chunk := hchunk
  clear_value i
  have h2 : ackOf j e o rank chunk s2 = (true, d.crc) := ackOf_setColl_putInp hrank' hchunk'
  have hd2 : dataView s2 = dataView s := dataView_setColl.trans (dataView_of_abortView abortView_originate)
  clear_value s2
  have h3 : ackOf j e o rank chunk s3 = (true, d.crc) ∧ dataView s3 = dataView s := by
    unfold s3
    split
    · exact ⟨ackOf_chunkReached.trans h2, dataView_chunkReached.trans hd2⟩
    · exact ⟨h2, hd2⟩
  exact ⟨ackOf_settleColl.trans h3.1, dataView_settleColl.trans h3.2⟩

/-- A first or second NAK_CHUNK discards what is held of the input and asks for it again (R442, R443). -/
theorem nakInput_discards {i : Inp} {cause : Nat} (hn : i.naks < 2) (hrank : i.rank = rank) (hchunk : i.chunk = chunk) :
    let t := nakInput s j e o i d cause
    (inpAt (collAt t j e o) rank chunk).naks = i.naks + 1 ∧ (inpAt (collAt t j e o) rank chunk).frames = [] ∧
      (inpAt (collAt t j e o) rank chunk).digest = none ∧
      (inpAt (collAt t j e o) rank chunk).boundary = some (s.fabricTime % 2 ^ 32) ∧ t.integ.cnt = bumpAt s.integ.cnt 5 1 := by
  unfold nakInput
  rw [if_neg (Nat.not_le.mpr hn)]
  extract_lets s1 s2 fab s3
  have htime : s3.fabricTime = s.fabricTime :=
    congrArg Prod.snd ((clock_dropStaged (s := icnt s1 5 1) (x := i) : clock s3 = clock (icnt s1 5 1)).trans clock_originate)
  have hcnt : s3.integ.cnt = bumpAt s.integ.cnt 5 1 := by
    have h2 : s2.integ = (icnt s1 5 1).integ := integ_of_abortView abortView_dropStaged
    have h1 : s1.integ = s.integ := integ_of_abortView abortView_originate
    show s2.integ.cnt = _
    rw [h2, ← h1]
    rfl
  clear_value s3
  rw [collAt_setColl_self isKey_collAt]
  have hput : inpAt { putInp (collAt s3 j e o) { i with
        frames := [], digest := none, boundary := some (s3.fabricTime % 2 ^ 32)
        onlyResend := true, naks := i.naks + 1, nakCause := cause, nakCrc := d.crc, allocs := [], early := 0 } with
      retRoutes := ((collAt s3 j e o).retRoutes ++ [d.retRoute]).eraseDups } rank chunk = { i with
        frames := [], digest := none, boundary := some (s3.fabricTime % 2 ^ 32)
        onlyResend := true, naks := i.naks + 1, nakCause := cause, nakCrc := d.crc, allocs := [], early := 0 } :=
    inpAt_putInp_self hrank hchunk
  rw [hput, htime]
  exact ⟨rfl, rfl, rfl, rfl, hcnt⟩

/-- The third aborts the ordinal (R446). -/
theorem nakInput_aborts {i : Inp} {cause : Nat} (hn : ¬ i.naks < 2) (ha : (collAt s j e o).aborted = false)
    (he : (entryOf s j o).isSome = true) :
    (collAt (nakInput s j e o i d cause) j e o).aborted = true ∧ (nakInput s j e o i d cause).attn &&& aFault = aFault := by
  unfold nakInput
  rw [if_pos (Nat.not_lt.mp hn)]
  exact abortColl_record ha he

/-- SHORT_WAIT_EXPIRY answers the short input. -/
theorem shortWaitExpiry_answers (ht : topOf s j = some top) (he : entryOf s j o = some E) (hr : inputFor E rank chunk = some r)
    (hd : (inpAt (collAt s j e o) rank chunk).digest = some d) (ha : (inpAt (collAt s j e o) rank chunk).acked = false)
    (hab : (collAt s j e o).aborted = false) (hw : d.since + 1000 * s.integ.shortWaitUs ≤ s.now) :
    let i := inpAt (collAt s j e o) rank chunk
    ∃ t, exec (.shortWaitExpiry j e o rank chunk) s = .next t ∧
      (if inputAnswer top (collAt s j e o) E r i d = 0 then (inpAt (collAt t j e o) rank chunk).acked = true ∧
         (inpAt (collAt t j e o) rank chunk).ackCrc = d.crc
       else if i.naks < 2 then
         (inpAt (collAt t j e o) rank chunk).naks = i.naks + 1 ∧
         (inpAt (collAt t j e o) rank chunk).frames = [] ∧ (inpAt (collAt t j e o) rank chunk).digest = none ∧
         (inpAt (collAt t j e o) rank chunk).boundary = some (s.fabricTime % 2 ^ 32) ∧
         t.integ.cnt = bumpAt s.integ.cnt 5 1
       else (collAt t j e o).aborted = true ∧ t.attn &&& aFault = aFault) ∧
      KeepsData s t := by
  intro i
  obtain ⟨hrank, hchunk⟩ := inpAt_key (c := collAt s j e o) (r := rank) (k := chunk)
  have hrun : doShortWaitExpiry j e o rank chunk s = answerInput s j e o rank chunk true := by
    unfold doShortWaitExpiry
    dsimp only
    rw [hd]
    exact if_pos (by simp [ha, hw])
  refine ⟨_, congrArg (fun t => Host.Outcome.next (traced s t)) (hrun.trans (answerInput_forced ht he hr hd ha)), ?_⟩
  by_cases h0 : inputAnswer top (collAt s j e o) E r i d = 0
  · rw [if_pos h0, if_pos h0]
    obtain ⟨hack, hdata⟩ := ackInput_acked (s := s) (j := j) (e := e) (o := o) (rank := rank) (chunk := chunk) (E := E) (d := d)
    exact ⟨⟨congrArg Prod.fst hack, congrArg Prod.snd hack⟩, .of_dataView hdata⟩
  · rw [if_neg h0, if_neg h0]
    unfold refuseInput
    generalize inputAnswer top (collAt s j e o) E r (inpAt (collAt s j e o) rank chunk) d = cause
    set s1 := if r.sparseOk && cause == 3 then setJob s j (fun x => { x with formatErr := satAdd x.formatErr 1 }) else s with hs1
    have h1 : collAt s1 j e o = collAt s j e o ∧ entryOf s1 j o = entryOf s j o ∧ s1.fabricTime = s.fabricTime ∧ s1.integ = s.integ ∧
        dataView s1 = dataView s := by
      rw [hs1]
      split <;> exact ⟨rfl, rfl, rfl, rfl, rfl⟩
    obtain ⟨hcoll, hentry, htime, hinteg, hdata⟩ := h1
    clear_value s1
    refine ⟨?_, .of_dataView (dataView_nakInput.trans hdata)⟩
    by_cases hn : i.naks < 2
    · rw [if_pos hn, ← htime, ← hinteg]
      exact nakInput_discards hn hrank hchunk
    · rw [if_neg hn]
      exact nakInput_aborts hn (hcoll ▸ hab) (by rw [hentry, he]; rfl)

end Answers

/-! ### The timers -/

section Timers

variable {s : State} {j e o : Nat} {E : CollEntry} {cs : List Nat}

/-- An expiry aborts the ordinal, or restarts its timer once. -/
theorem timerExpires_decides (he : entryOf s j o = some E) (ha : (collAt s j e o).aborted = false) :
    let c := collAt s j e o
    let rs := cs.map (chunkShort E c)
    let t := timerExpires s E j e o cs
    (if E.express || c.restarted || rs.any (fun r => !r.1) then
       (collAt t j e o).aborted = true ∧ t.attn &&& aFault = aFault
     else if rs.flatMap (·.2) = [] then
       collAt t j e o = { c with restarted := true, timer := some (s.now + 1000 * E.timeoutUs) }
     else True) ∧ KeepsData s t := by
  intro c rs t
  have ht : t = if E.express || c.restarted || rs.any (fun r => !r.1) then abortHere s j e o .deadline
      else (rs.flatMap (·.2)).foldl (fun s i => match i.digest with
        | some d => nakInput s j e o i d 2
        | none => s) (setColl s j e o (fun c => { c with restarted := true, timer := some (s.now + 1000 * E.timeoutUs) })) := rfl
  rw [ht]
  split
  · exact ⟨abortColl_record ha (by rw [he]; rfl), .of_abortView abortView_abortHere⟩
  · refine ⟨?_, .of_dataView ((foldl_keeps (fun s i => ?_) _ _).trans dataView_setColl)⟩
    · split
      next hnil =>
        rw [hnil]
        exact collAt_setColl_self isKey_collAt
      next => trivial
    · split
      · exact dataView_nakInput
      · rfl

end Timers

/-- Settles O38: an expiry decides between an abort and one restart, and a short wait between ACK, NAK_CHUNK and an abort. -/
theorem timersEndWaits : Obligations.TimersEndWaits := by
  unfold Obligations.TimersEndWaits
  refine ⟨?ordinal, ?chunk, fun job ep ord rank chunk s top e r d ht he hr hd ha hab hw => shortWaitExpiry_answers ht he hr hd ha hab hw⟩
  case ordinal =>
    intro job ep ord s e n he c hn hle hel hf hcp ha
    have hrun : doOrdinalTimeout job ep ord s = timerExpires s e job ep ord [firstChunk s job e] := by
      unfold doOrdinalTimeout
      rw [he]
      dsimp only
      rw [hn]
      exact if_pos (by simp [c, hel, hf, hcp, ha, hle])
    obtain ⟨hdec, hdata⟩ := timerExpires_decides (cs := [firstChunk s job e]) he ha
    refine ⟨_, congrArg (fun t => Host.Outcome.next (traced s t)) hrun, ?_, ⟨hdata.mem, hdata.regs, hdata.fpVec, hdata.fpMtx,
      hdata.fpRde, hdata.tops, hdata.pwr, hdata.mgt⟩⟩
    simp only [List.map_cons, List.map_nil, List.any_cons, List.any_nil, Bool.or_false, List.flatMap_cons, List.flatMap_nil,
      List.append_nil] at hdec
    exact hdec
  case chunk =>
    intro job ep ord s e n he c hn hle hel hf hcp ha hh rs
    have hrun : doChunkTimerExpiry job ep ord s = timerExpires s e job ep ord (headChunks s e c) := by
      unfold doChunkTimerExpiry
      rw [he]
      dsimp only
      rw [hn]
      exact if_pos (by simp [c, hel, hf, hcp, ha, hle, hh])
    obtain ⟨hdec, hdata⟩ := timerExpires_decides (cs := headChunks s e c) he ha
    exact ⟨_, congrArg (fun t => Host.Outcome.next (traced s t)) hrun, hdec, ⟨hdata.mem, hdata.regs, hdata.fpVec, hdata.fpMtx,
      hdata.fpRde, hdata.tops, hdata.pwr, hdata.mgt⟩⟩

end Sys2Proof.Machine
end

section
/-! Steps and flips of a shard and the boundary of an epoch (R63, R65, R187, R188, R193, R229), and the obligation O41. -/

namespace Sys2Proof.Machine

section Shards

variable {s : State} {job id : Nat} {x : StateEntry}

/-- Everything but the fabric, the jobs' records and the shards. -/
def shardView (s : State) : State := { s with fab := {}, coll := { s.coll with jobs := [], shards := [] } }

/-- Everything but the fabric and the shards. -/
def resyncView (s : State) : State := { s with fab := {}, coll := { s.coll with shards := [] } }

theorem stateOf_shard (h : stateOf s job id = some x) : x.shard = id := by
  unfold stateOf at h
  cases ht : topOf s job with
  | none => simp [ht] at h
  | some t =>
    rw [ht, Option.bind_some] at h
    simpa using List.find?_some h

theorem optimizerStepStart_steps {reg : Nat} (hx : stateOf s job id = some x) (hm : mayStep s job id = true) :
    let clip := clipOf s job x.die reg
    ∃ t, exec (.optimizerStepStart job id reg) s = .next t ∧
      (let h := shardAt s job id
       shardAt t job id = { h with
         step := some { epoch := nextEpoch h, clip := clip, skip := isSkip x clip }, casts := [], pageCrcs := [] }) ∧
      t.coll.colls = s.coll.colls ∧ t = { s with coll := t.coll, dbg := t.dbg } := by
  intro clip
  have hrun : doOptimizerStepStart job id reg s = setShard s job id (fun h =>
      { h with step := some { epoch := nextEpoch h, clip := clip, skip := isSkip x clip }, casts := [], pageCrcs := [] }) := by
    unfold doOptimizerStepStart
    rw [hx]
    exact if_pos hm
  have hany : s.coll.shards.any (fun h => h.job == job && h.id == id) = true := by
    unfold mayStep at hm
    simp only [Bool.and_eq_true] at hm
    tauto
  refine ⟨_, congrArg (fun t => Host.Outcome.next (traced s t)) hrun, ?_, rfl, rfl⟩
  refine shardAt_setShard_self (f := fun h : Shard =>
    { h with step := some { epoch := nextEpoch h, clip := clip, skip := isSkip x clip }, casts := [], pageCrcs := [] }) hany ?_
  exact fun _ => ⟨rfl, rfl⟩

theorem sendTwin_keeps {u : LinkUnit} : (sendTwin s u).coll = s.coll ∧ sendTwin s u = { s with fab := (sendTwin s u).fab } := by
  unfold sendTwin
  dsimp only
  split <;> exact ⟨rfl, rfl⟩

/-- The digests of a vote are formed in the job's record and sent to the twin: no shard and no collective changes. -/
theorem formVote_keeps {e : Nat} : (formVote s job e).coll.shards = s.coll.shards ∧ (formVote s job e).coll.colls = s.coll.colls ∧
    formVote s job e = { s with coll := (formVote s job e).coll, fab := (formVote s job e).fab } := by
  unfold formVote
  split
  · extract_lets ds s1 pl
    obtain ⟨hcoll, hfab⟩ := sendTwin_keeps (s := s1) (u := twinFrame 2 0 0x180 job e 0 0 0 (padTo 512 pl))
    refine ⟨(congrArg CollSt.shards hcoll :), (congrArg CollSt.colls hcoll :), ?_⟩
    exact hfab.trans (congrArg (fun c => ({ s with coll := c, fab := (sendTwin s1 (twinFrame 2 0 0x180 job e 0 0 0 (padTo 512 pl))).fab } : State))
      hcoll.symm)
  · exact ⟨rfl, rfl, rfl⟩

theorem shardFlip_flips (hx : stateOf s job id = some x) (hm : mayFlip s job x = true) :
    ∃ t, exec (.shardFlip job id) s = .next t ∧
      (let h := shardAt s job id
       shardAt t job id = { h with
         cur := !h.cur, shadow := h.flipped, rollbackOk := true, flipped := some (nextEpoch h)
         listed := h.listed.filter (nextEpoch h < ·), skippedPrev := h.skippedLast, skippedLast := h.skipNext }) ∧
      t.coll.colls = s.coll.colls ∧ t = { s with coll := t.coll, fab := t.fab, dbg := t.dbg } := by
  have hid := stateOf_shard hx
  set e := nextEpoch (shardAt s job id) with he
  set s1 := setShard s job id (fun h =>
    { h with cur := !h.cur, shadow := h.flipped, rollbackOk := true, flipped := some e, listed := h.listed.filter (e < ·)
             skippedPrev := h.skippedLast, skippedLast := h.skipNext }) with hs1
  set s2 := if mirrors s1 job x.rep then sendFlip s1 job e x else s1 with hs2
  have hrun : doShardFlip job id s = formVote s2 job e := by
    unfold doShardFlip
    rw [hx]
    exact if_pos hm
  have hany : s.coll.shards.any (fun h => h.job == job && h.id == id) = true := by
    by_contra hnone
    have hdefault : shardAt s job x.shard = { job := job, id := x.shard } := by
      unfold shardAt
      rw [hid, List.find?_eq_none.mpr (by simpa using hnone)]
      rfl
    unfold mayFlip at hm
    rw [hdefault] at hm
    exact absurd hm Bool.false_ne_true
  have hshard : shardAt s1 job id = { shardAt s job id with
      cur := !(shardAt s job id).cur, shadow := (shardAt s job id).flipped, rollbackOk := true, flipped := some e
      listed := (shardAt s job id).listed.filter (e < ·), skippedPrev := (shardAt s job id).skippedLast
      skippedLast := (shardAt s job id).skipNext } := by
    refine shardAt_setShard_self hany ?_
    exact fun _ => ⟨rfl, rfl⟩
  have h2 : s2.coll = s1.coll ∧ s2 = { s1 with fab := s2.fab } := by
    rw [hs2]
    split
    · exact sendTwin_keeps
    · exact ⟨rfl, rfl⟩
  obtain ⟨hshards, hcolls, hframe⟩ := formVote_keeps (s := s2) (job := job) (e := e)
  refine ⟨_, congrArg (fun t => Host.Outcome.next (traced s t)) hrun, ?_⟩
  generalize formVote s2 job e = t at hshards hcolls hframe
  have hat : shardAt t job id = shardAt s1 job id := by
    unfold shardAt
    rw [hshards, h2.1]
  have hs2' : s2 = { s with coll := s2.coll, fab := s2.fab } :=
    h2.2.trans (congrArg (fun c => ({ s with coll := c, fab := s2.fab } : State)) h2.1.symm)
  refine ⟨hat.trans hshard, hcolls.trans (congrArg CollSt.colls h2.1 :), ?_⟩
  exact (congrArg (fun r : State => { r with dbg := (traced s t).dbg })
    (hframe.trans (congrArg (fun r : State => { r with coll := t.coll, fab := t.fab }) hs2')) :)

/-- Pages sent to a module that syncs change the fabric and the reads that the shards hold open. -/
theorem resyncView_serveResync : resyncView (serveResync s job) = resyncView s := by
  have hsend (r : State) (u : LinkUnit) : resyncView (sendTwin r u) = resyncView r := by
    unfold sendTwin
    dsimp only
    split <;> rfl
  have hpage (r : State) (e : Nat) (y : StateEntry) (pl pg : Nat) (b c : Bool) :
      resyncView (sendSyncPage r job e y pl b c pg) = resyncView r := foldl_keeps (fun _ _ => hsend _ _) _ _
  have hshard (r : State) (y : StateEntry) (f : Shard → Shard) : resyncView (setShard r job y.shard f) = resyncView r := rfl
  unfold serveResync
  split
  · extract_lets epoch s1
    refine (hsend s1 _).trans (foldl_keeps (v := resyncView) (fun r y => ?_) _ _)
    dsimp only
    refine Eq.trans ?_ (hshard r y (fun h => { h with reads := h.reads ++ [(8, h.shadow.getD 0, r.now)] }))
    exact foldl_keeps (fun _ _ => foldl_keeps (fun _ _ => foldl_keeps (fun _ _ => hpage _ _ _ _ _ _ _) _ _) _ _) _ _
  · rfl

/-- The job whose record a job number names. -/
theorem jobAt_job {j : Nat} : (jobAt s j).job = j := by
  unfold jobAt
  cases h : s.coll.jobs.find? (fun x => x.job == j) with
  | none => rfl
  | some x => simpa using List.find?_some h

theorem jobAt_of_jobs {t : State} (h : t.coll.jobs = s.coll.jobs) : jobAt t = jobAt s := by
  unfold jobAt
  rw [h]

theorem epochBoundary_moves (hb : boundaryReached s job = true) :
    ∃ t, exec (.epochBoundary job) s = .next t ∧
      (let e := (jobAt s job).oldest
       (jobAt t job).oldest = e + 1 ∧
       t.coll.colls = s.coll.colls.filter (fun c => !(c.job == job && c.epoch < e)) ∧
       t.integ = { s.integ with remapReady := s.integ.remapReady ++ s.integ.remapPending, remapPending := [] }) ∧
      KeepsData s t := by
  set e := (jobAt s job).oldest
  set s1 := setJob s job (fun j => { j with oldest := e + 1 })
  set s2 : State := { s1 with coll := { s1.coll with colls := s1.coll.colls.filter (fun c => !(c.job == job && c.epoch < e)) } }
  set s3 := setTwin s2 (fun t => { t with grads := t.grads.filter (fun g => !(g.job == job && g.epoch ≤ e)) })
  set s4 : State := { s3 with integ := { s3.integ with remapReady := s3.integ.remapReady ++ s3.integ.remapPending, remapPending := [] } }
  have hrun : ∃ t, doEpochBoundary job s = t ∧ t.coll.jobs = s4.coll.jobs ∧ t.coll.colls = s4.coll.colls ∧ t.integ = s4.integ ∧
      dataView t = dataView s4 := by
    refine ⟨_, if_pos hb, ?_⟩
    extract_lets T all
    split
    · exact ⟨rfl, rfl, rfl, rfl⟩
    · have hview := resyncView_serveResync (s := s4) (job := job)
      exact ⟨(congrArg (·.coll.jobs) hview :), (congrArg (·.coll.colls) hview :), (congrArg (·.integ) hview :),
        (congrArg dataView hview :)⟩
  obtain ⟨t, ht, hjobs, hcolls, hinteg, hdata⟩ := hrun
  have hjob : jobAt s4 job = { jobAt s job with oldest := e + 1 } := (jobAt_setJob_self (s := s) (j := job)
    (f := fun j => { j with oldest := e + 1 }) jobAt_job :)
  refine ⟨_, congrArg (fun t => Host.Outcome.next (traced s t)) ht, ⟨?_, hcolls, hinteg⟩, .of_dataView hdata⟩
  show (jobAt t job).oldest = e + 1
  rw [jobAt_of_jobs hjobs, hjob]

end Shards

/-- Settles O41: a step and a flip rewrite the shard's record, and a boundary the job's, the collectives' and the remaps'. -/
theorem shardsStepAndFlip : Obligations.ShardsStepAndFlip := by
  unfold Obligations.ShardsStepAndFlip
  exact ⟨fun job id reg s x hx hm => optimizerStepStart_steps hx hm, fun job id s x hx hm => shardFlip_flips hx hm,
    fun job s hb => epochBoundary_moves hb⟩

end Sys2Proof.Machine
end

section
/-! Weight votes (R449 to R451): what an abort keeps of a job's votes, the ranks that a window counts, and the obligation O42. -/

namespace Sys2Proof.Machine

/-- The votes that every job formed and closed. -/
def voteView (s : State) (j : Nat) : List (Nat × List (List Byte)) × List Nat := ((jobAt s j).formed, (jobAt s j).closed)

section VoteView

variable {s t : State} {j e o i p q : Nat}

theorem voteView_of_jobs (h : t.coll.jobs = s.coll.jobs) : voteView t = voteView s := by
  unfold voteView
  rw [jobAt_of_jobs h]

theorem voteView_of_stagingView (h : stagingView t = stagingView s) : voteView t = voteView s :=
  voteView_of_jobs (congrArg (·.1.coll.jobs) h :)

theorem voteView_of_coreView (h : coreView t = coreView s) : voteView t = voteView s :=
  have hcoll : t.coll = s.coll := (ScalarFrame.of_coreView (q := 0) h).outside.coll
  voteView_of_jobs (congrArg CollSt.jobs hcoll)

theorem voteView_ite {c : Prop} [Decidable c] {x y : State} (hx : voteView x = voteView s) (hy : voteView y = voteView s) :
    voteView (if c then x else y) = voteView s := by
  split
  · exact hx
  · exact hy

/-- The record of another job stands. -/
theorem jobAt_setJob_ne {f : JobSt → JobSt} (hf : (f (jobAt s j)).job = j) (hp : p ≠ j) : jobAt (setJob s j f) p = jobAt s p := by
  have hfind : (s.coll.jobs.filter (fun x => x.job != j) ++ [f (jobAt s j)]).find? (fun x => x.job == p) =
      s.coll.jobs.find? (fun x => x.job == p) := by
    have hlast : [f (jobAt s j)].find? (fun x => x.job == p) = none := by
      simp [hf, Ne.symm hp]
    rw [List.find?_append, hlast, Option.or_none, List.find?_filter]
    congr 1
    funext x
    by_cases hx : x.job = p <;> simp [hx, hp]
  exact congrArg (fun x : Option JobSt => x.getD { job := p }) hfind

/-- A change of a job's record that keeps its votes. -/
theorem voteView_setJob {f : JobSt → JobSt} (hf : ∀ J, (f J).job = J.job ∧ (f J).formed = J.formed ∧ (f J).closed = J.closed) :
    voteView (setJob s j f) = voteView s := by
  obtain ⟨hjob, hformed, hclosed⟩ := hf (jobAt s j)
  have hj : (f (jobAt s j)).job = j := hjob.trans jobAt_job
  funext p
  by_cases hp : p = j
  · subst hp
    unfold voteView
    rw [jobAt_setJob_self hj, hformed, hclosed]
  · unfold voteView
    rw [jobAt_setJob_ne hj hp]

theorem voteView_setPort {f : Port → Port} : voteView (setPort s p f) = voteView s := rfl

theorem voteView_dropSteps : voteView (dropSteps s j e o) = voteView s := rfl

theorem voteView_originate {x : LinkUnit} : voteView (originate s x) = voteView s := by
  unfold originate originateFrom
  exact voteView_ite rfl rfl

theorem voteView_dropStaged {x : Inp} : voteView (dropStaged s x) = voteView s :=
  foldl_keeps (fun _ _ => voteView_of_stagingView stagingView_dropAlloc) _ _

theorem voteView_freeOut {x : Outp} : voteView (freeOut s j o x) = voteView s := by
  have hbuf (r : State) (id : Nat) : voteView (freeAlloc r 0 id) = voteView r :=
    voteView_of_stagingView (stagingView_settleAlloc.trans stagingView_setBpm)
  have hbufs : voteView (x.bufs.foldl (fun s b => freeAlloc s 0 b) s) = voteView s := foldl_keeps (fun _ _ => hbuf _ _) _ _
  unfold freeOut
  dsimp only
  split
  · exact (voteView_of_stagingView stagingView_dropAlloc).trans hbufs
  · exact hbufs

theorem voteView_dropOwn {f : LinkUnit → Bool} {port : Option Nat} : voteView (dropOwn s f port) = voteView s := by
  unfold dropOwn
  refine foldl_keeps (fun s x => ?_) _ _
  split
  · rfl
  · refine (foldl_keeps (v := voteView) (fun s x => ?_) _ _ :)
    exact voteView_ite (voteView_setPort.trans (voteView_of_stagingView stagingView_leaveAlloc)) rfl

theorem voteView_releaseEarly : voteView (releaseEarly s j e o) = voteView s := by
  unfold releaseEarly releaseEarlyIf
  rfl

theorem voteView_dropOverlapping : voteView (dropOverlapping s j e o) = voteView s := by
  rw [dropOverlapping_eq]
  refine foldl_keeps (fun s o => ?_) _ _
  unfold discardEarly
  extract_lets c n s1 s2
  refine voteView_ite rfl ?_
  have h1 : voteView s1 = voteView s := (foldl_keeps (fun _ _ => voteView_dropStaged) _ _ :).trans voteView_releaseEarly
  have h2 : voteView s2 = voteView s1 := voteView_setJob fun _ => ⟨rfl, rfl, rfl⟩
  exact h2.trans h1

theorem voteView_haltCallers : voteView (haltCallers s j e o) = voteView s := by
  unfold haltCallers
  refine foldl_keeps (fun s q => ?_) _ _
  extract_lets Q waits async
  refine voteView_ite (voteView_of_coreView (coreView_haltQueue.trans ?_)) rfl
  exact coreView_setQueue (fun _ => ⟨rfl, rfl, rfl, rfl, rfl, rfl⟩)

theorem voteView_squashJob : voteView (squashJob s j) = voteView s := by
  unfold squashJob
  exact foldl_keeps (fun _ _ => voteView_ite (voteView_of_coreView coreView_squash) rfl) _ _

/-- An abort keeps the votes of every job. -/
theorem voteView_abortColl {cause origin time : Nat} : voteView (abortColl s j e o cause origin time) = voteView s := by
  unfold abortColl
  extract_lets c
  split
  · rfl
  · split
    · rfl
    · extract_lets imgs fit s1 omitted s2 s3 s4 s5 s6 s7 s8 reg old s9
      have h8 : voteView s8 = voteView s7 := voteView_squashJob.trans voteView_dropSteps
      have h7 : voteView s7 = voteView s5 := voteView_haltCallers.trans voteView_dropOverlapping
      clear_value s8
      refine Eq.trans (b := voteView s8) (voteView_of_jobs rfl) ((h8.trans h7).trans ?_)
      calc voteView s5 = voteView s4 := voteView_dropOwn
        _ = voteView s3 := foldl_keeps (fun _ _ => voteView_freeOut) _ _
        _ = voteView s2 := foldl_keeps (fun _ _ => by split; exacts [rfl, voteView_dropStaged]) _ _
        _ = voteView s1 := voteView_releaseEarly
        _ = voteView s := foldl_keeps (fun _ _ => voteView_originate) _ _

theorem voteView_abortInputs {cause : Res} : voteView (abortInputs s cause) = voteView s := by
  unfold abortInputs
  refine foldl_keeps (fun s c => ?_) _ _
  split
  · exact voteView_ite voteView_abortColl rfl
  · rfl

/-- A job's record after every vote that runs was abandoned. -/
theorem jobAt_clearHolds : jobAt (clearHolds s) j = { jobAt s j with
    voteHold := false
    closed := (jobAt s j).closed ++ ((jobAt s j).formed.map (·.1)).filter (fun e => !(jobAt s j).closed.contains e) } := by
  unfold jobAt clearHolds
  dsimp only
  rw [List.find?_map]
  cases h : s.coll.jobs.find? (fun x => x.job == j) with
  | none => simp [h]
  | some x => simp [h]

/-- No vote that was formed runs after `clearHolds`. -/
theorem closed_clearHolds : ∀ f ∈ (voteView s j).1, f.1 ∈ (voteView (clearHolds s) j).2 := by
  intro f hf
  unfold voteView
  rw [jobAt_clearHolds]
  by_cases hc : f.1 ∈ (jobAt s j).closed
  · exact List.mem_append_left _ hc
  · refine List.mem_append_right _ (List.mem_filter.mpr ⟨List.mem_map_of_mem hf, ?_⟩)
    simpa using hc

theorem closed_toDetached (hst : s.fab.twin.st = .paired) : ∀ f ∈ (voteView s j).1, f.1 ∈ (voteView (toDetached s) j).2 := by
  unfold toDetached
  extract_lets was s1 s2 s3
  rw [if_pos (show was = .paired from hst)]
  have h1 : voteView s1 = voteView s := rfl
  have h2 : voteView s2 = voteView s1 := voteView_abortInputs
  have h3 : voteView s3 = voteView s2 :=
    foldl_keeps (fun s q => voteView_ite (voteView_of_coreView coreView_haltQueue) rfl) _ _
  have h : voteView s3 = voteView s := h3.trans (h2.trans h1)
  rw [← h]
  exact closed_clearHolds

theorem closed_toSolo : ∀ f ∈ (voteView s j).1, f.1 ∈ (voteView (toSolo s) j).2 := by
  unfold toSolo
  extract_lets s1 s2
  have h1 : voteView s1 = voteView s := rfl
  have h2 : ∀ f ∈ (voteView s1 j).1, f.1 ∈ (voteView s2 j).2 := closed_clearHolds
  rw [h1] at h2
  clear_value s2
  intro f hf
  refine Eq.subst (motive := fun v : Nat → List (Nat × List (List Byte)) × List Nat => f.1 ∈ (v j).2) (Eq.symm ?_) (h2 f hf)
  refine foldl_keeps (fun s t => foldl_keeps (fun s x => ?_) _ _) _ _
  dsimp only
  refine voteView_ite ?_ voteView_abortColl
  split
  · exact voteView_ite rfl rfl
  · rfl

theorem closed_leaveTwin {cause : Nat} (hst : s.fab.twin.st = .paired) :
    ∀ f ∈ (voteView s j).1, f.1 ∈ (voteView (leaveTwin s cause) j).2 := by
  unfold leaveTwin
  rw [if_neg (by rw [hst]; decide)]
  extract_lets s1
  have h1 : voteView s1 = voteView s ∧ s1.fab.twin.st = .paired := by
    obtain ⟨hcoll, -⟩ := sendTwin_keeps (s := s) (u := twinFrame 4 0 0x180 0 0 0 0 0 (padTo 256 (leBytes 1 cause)))
    refine ⟨voteView_of_jobs (congrArg CollSt.jobs hcoll), ?_⟩
    have hview : leaveView s1 = leaveView s := leaveView_ite rfl rfl
    exact (congrArg (·.2.2.2.2.2.2.2.1) hview :).trans hst
  obtain ⟨hv1, hst1⟩ := h1
  clear_value s1
  rw [if_neg (by rw [hst1]; simp)]
  set s2 := endServing (setTwin s1 (fun t => { t with lastLoss := 3, intact := false })) with hs2
  have hst2 : s2.fab.twin.st = .paired :=
    (congrArg (·.2.2.2.2.2.2.2.1) (leaveView_endServing (s := setTwin s1 (fun t => { t with lastLoss := 3, intact := false }))) :).trans hst1
  have hv2 : voteView s2 = voteView s1 := by
    rw [hs2]
    unfold endServing
    exact voteView_ite rfl rfl
  rw [← hv1, ← hv2]
  exact closed_toDetached hst2

end VoteView

/-! ### The window (R450) -/

section Window

variable {s : State} {job ep : Nat}

theorem nodup_eraseDups (l : List Nat) : l.eraseDups.Nodup := by
  induction hn : l.length using Nat.strong_induction_on generalizing l with
  | _ n ih =>
    cases l with
    | nil => exact List.nodup_nil
    | cons a as =>
      rw [List.eraseDups_cons, List.nodup_cons]
      refine ⟨by simp [List.mem_eraseDups], ih _ ?_ _ rfl⟩
      exact hn ▸ Nat.lt_succ_of_le (List.length_filter_le _ _)

theorem voteMissed_counts {r : Nat} : jobAt (voteMissed s job r) job = { jobAt s job with
    voteMiss := insertKey (jobAt s job).voteMiss r (satAdd (lookupD (jobAt s job).voteMiss r 0) 1) } :=
  jobAt_setJob_self (f := fun j => { j with voteMiss := insertKey j.voteMiss r (satAdd (lookupD j.voteMiss r 0) 1) }) jobAt_job

/-- Each of the ranks of a list without repeats is counted once, and no other. -/
theorem foldl_voteMissed (late : List Nat) (hnd : late.Nodup) (s : State) :
    ∃ m, jobAt (late.foldl (fun s r => voteMissed s job r) s) job = { jobAt s job with voteMiss := m } ∧
      (∀ r, lookupD m r 0 = if r ∈ late then satAdd (lookupD (jobAt s job).voteMiss r 0) 1 else lookupD (jobAt s job).voteMiss r 0) ∧
      late.foldl (fun s r => voteMissed s job r) s =
        { s with coll := { s.coll with jobs := (late.foldl (fun s r => voteMissed s job r) s).coll.jobs } } := by
  induction late generalizing s with
  | nil => exact ⟨(jobAt s job).voteMiss, rfl, fun r => (if_neg List.not_mem_nil).symm, rfl⟩
  | cons a as ih =>
    obtain ⟨hnot, hrest⟩ := List.nodup_cons.mp hnd
    obtain ⟨m, hm, hcount, hframe⟩ := ih hrest (voteMissed s job a)
    rw [voteMissed_counts] at hm hcount
    refine ⟨m, hm, fun r => ?_, hframe⟩
    have hr : lookupD (insertKey (jobAt s job).voteMiss a (satAdd (lookupD (jobAt s job).voteMiss a 0) 1)) r 0 =
        if a = r then satAdd (lookupD (jobAt s job).voteMiss a 0) 1 else lookupD (jobAt s job).voteMiss r 0 := lookupD_insertKey _ _ _ _ _
    refine (hcount r).trans ?_
    dsimp only
    rw [hr]
    by_cases har : a = r
    · subst har
      rw [if_neg hnot, if_pos rfl, if_pos List.mem_cons_self]
    · rw [if_neg har]
      simp [Ne.symm har]

theorem voteWindowExpiry_counts {top : Topiary} (ht : topOf s job = some top) (hopen : (jobAt s job).windowEnded.contains ep = false)
    (hover : bcastsOver s job ep = true) (hack : (jobAt s job).ackAt.any (fun a => a.1 == ep) = true)
    (hdue : lookupD (jobAt s job).ackAt ep 0 + 1000 * (top.voteWindowUs + 10) ≤ s.now) :
    ∃ t, exec (.voteWindowExpiry job ep) s = .next t ∧ (jobAt t job).windowEnded = (jobAt s job).windowEnded ++ [ep] ∧
      (∀ r, lookupD (jobAt t job).voteMiss r 0 =
        if r ∈ servedRanks s job ∧ (jobAt s job).votes.any (fun v => v.1 == ep && v.2.1 == r) = false then
          satAdd (lookupD (jobAt s job).voteMiss r 0) 1 else lookupD (jobAt s job).voteMiss r 0) ∧
      t.coll.colls = s.coll.colls ∧ t = { s with coll := t.coll, dbg := t.dbg } := by
  set late := (servedRanks s job).filter (fun r => !((jobAt s job).votes.any (fun v => v.1 == ep && v.2.1 == r))) with hlate
  have hnd : late.Nodup := by
    refine List.Nodup.filter _ ?_
    unfold servedRanks
    split
    · exact nodup_eraseDups _
    · exact List.nodup_nil
  obtain ⟨m, hm, hcount, hframe⟩ := foldl_voteMissed (job := job) late hnd s
  set s1 := late.foldl (fun s r => voteMissed s job r) s with hs1
  set s2 := setJob s1 job (fun j => { j with windowEnded := j.windowEnded ++ [ep] }) with hs2
  have hrun : doVoteWindowExpiry job ep s = s2 := by
    unfold doVoteWindowExpiry
    rw [ht]
    dsimp only
    rw [if_neg]
    simp only [Bool.or_eq_true, not_or, Bool.not_eq_true, hopen, hover, hack]
    simpa using hdue
  have hj2 : jobAt s2 job = { jobAt s job with voteMiss := m, windowEnded := (jobAt s job).windowEnded ++ [ep] } := by
    have h := jobAt_setJob_self (s := s1) (j := job) (f := fun j => { j with windowEnded := j.windowEnded ++ [ep] }) jobAt_job
    rw [hm] at h
    exact h
  clear_value s1
  refine ⟨traced s s2, congrArg (fun t => Host.Outcome.next (traced s t)) hrun, congrArg JobSt.windowEnded hj2, fun r => ?_, ?_, ?_⟩
  · refine (congrArg (fun J : JobSt => lookupD J.voteMiss r 0) hj2).trans ((hcount r).trans ?_)
    rw [hlate]
    simp only [List.mem_filter, Bool.not_eq_eq_eq_not, Bool.not_true]
  · exact (congrArg (fun r : State => r.coll.colls) hframe :)
  · exact (congrArg (fun r : State => { r with coll := s2.coll, dbg := (traced s s2).dbg }) hframe :)

end Window

/-! ### The outcome (R451) -/

section Close

variable {s : State} {job ep : Nat}

theorem voteDir_none {mH mR kH kR : List Byte} : voteDir mH mR kH kR none = .pass ∨ voteDir mH mR kH kR none = .undecided := by
  unfold voteDir
  split
  · exact .inl rfl
  · exact .inr rfl

/-- The record of a job whose vote of an epoch is closed, its hold as it was. -/
def closeVote (s : State) (job ep : Nat) : State := setJob s job (fun j => { j with closed := j.closed ++ [ep] })

/-- The record of a job whose vote of an epoch is closed, with no hold. -/
def passVote (s : State) (job ep : Nat) : State := setJob s job (fun j => { j with voteHold := false, closed := j.closed ++ [ep] })

theorem jobAt_closeVote : jobAt (closeVote s job ep) job = { jobAt s job with closed := (jobAt s job).closed ++ [ep] } :=
  jobAt_setJob_self (f := fun j => { j with closed := j.closed ++ [ep] }) jobAt_job

theorem jobAt_passVote :
    jobAt (passVote s job ep) job = { jobAt s job with voteHold := false, closed := (jobAt s job).closed ++ [ep] } :=
  jobAt_setJob_self (f := fun j => { j with voteHold := false, closed := j.closed ++ [ep] }) jobAt_job

/-- A vote that decides nothing is counted and reported (R451). -/
def undecide (s : State) : State := setAttn (setInteg (icnt s 13 1) (fun i => { i with undecided := true })) aInteg

theorem undecide_keeps : (undecide s).integ = { s.integ with undecided := true, cnt := bumpAt s.integ.cnt 13 1 } ∧
    (undecide s).attn = s.attn ||| aInteg ∧ (undecide s).fab = s.fab ∧ (undecide s).coll = s.coll ∧ dataView (undecide s) = dataView s :=
  ⟨rfl, rfl, rfl, rfl, rfl⟩

/-- An expelled module leaves its twin, and no vote of its jobs runs (R451, R480). -/
theorem expelSelf_leaves (hst : s.fab.twin.st = .paired) :
    let t := expelSelf s job
    t.integ.expelled = true ∧ t.fab.twin.st = .detached ∧ (∀ f ∈ (voteView s job).1, f.1 ∈ (voteView t job).2) ∧ dataView t = dataView s := by
  unfold expelSelf
  extract_lets s1 i s2
  have hst2 : s2.fab.twin.st = .paired := hst
  have hv2 : voteView s2 = voteView s := rfl
  have hex2 : s2.integ.expelled = true := rfl
  have hk2 : dataView s2 = dataView s := rfl
  clear_value s2
  have hview : leaveView (leaveTwin s2 4) = leaveView (setTwin s2 (fun t => { t with st := .detached, lastLoss := 3 })) := by
    unfold leaveTwin
    rw [if_neg (by rw [hst2]; decide)]
    extract_lets s4
    have h4 : leaveView s4 = leaveView s2 := leaveView_ite rfl rfl
    clear_value s4
    have hst4 : s4.fab.twin.st = .paired := (congrArg (·.2.2.2.2.2.2.2.1) h4 :).trans hst2
    rw [if_neg (by rw [hst4]; simp)]
    refine leaveView_toDetached.trans ?_
    have h5 := leaveView_endServing (s := setTwin s4 (fun t => { t with lastLoss := 3, intact := false }))
    generalize endServing (setTwin s4 (fun t => { t with lastLoss := 3, intact := false })) = s5 at h5
    rw [leaveView_setTwin]
    have h := (congrArg (fun v => (v.1, v.2.1, v.2.2.1, v.2.2.2.1, v.2.2.2.2.1, v.2.2.2.2.2.1, v.2.2.2.2.2.2.1, TwinSt.detached,
      v.2.2.2.2.2.2.2.2.1, v.2.2.2.2.2.2.2.2.2)) h5)
    have h' := (congrArg (fun v => (v.1, v.2.1, v.2.2.1, v.2.2.2.1, v.2.2.2.2.1, v.2.2.2.2.2.1, v.2.2.2.2.2.2.1, TwinSt.detached,
      3, v.2.2.2.2.2.2.2.2.2)) h4)
    exact (h.trans h' :)
  refine ⟨(congrArg (·.2.2.1.expelled) hview :).trans hex2, (congrArg (·.2.2.2.2.2.2.2.1) hview :), ?_, ?_⟩
  · rw [← hv2]
    exact closed_leaveTwin hst2
  · refine Eq.trans ?_ hk2
    exact (congrArg (fun v => (v.1, v.2.1, v.2.2.2.1, v.2.2.2.2.1)) hview :)

theorem toSolo_leaves : let t := toSolo s
    t.fab.twin.st = .solo ∧ (∀ f ∈ (voteView s job).1, f.1 ∈ (voteView t job).2) ∧ dataView t = dataView s := by
  intro t
  have hview : leaveView t = leaveView (setTwin s (fun t => { t with st := .solo })) := leaveView_toSolo
  have hclosed : ∀ f ∈ (voteView s job).1, f.1 ∈ (voteView t job).2 := closed_toSolo
  clear_value t
  exact ⟨(congrArg (·.2.2.2.2.2.2.2.1) hview :), hclosed,
    (congrArg (fun v => (v.1, v.2.1, v.2.2.2.1, v.2.2.2.2.1)) hview :)⟩

theorem voteClose_decides {own : List (List Byte)} (hformed : (jobAt s job).formed.find? (fun f => f.1 == ep) = some (ep, own))
    (hopen : (jobAt s job).closed.contains ep = false) (hst : s.fab.twin.st = .paired) :
    let J := jobAt s job
    let peer := (peerVote s job ep 0).getD []
    let o (i : Nat) := own.getD i []
    let p (i : Nat) := slice peer (64 * i) 64
    let E := endorsedOf s job ep
    let W := match topOf s job with | some t => t.voteWindowUs | none => 100
    ((o 0 = p 1 ∧ p 0 = o 1) ∨ (bcastsOver s job ep = true ∧ lookupD J.commitAt ep 0 + 1000 * (W + 50) ≤ s.now) ∨
      (peer ≠ [] ∧ E.isSome = true)) →
    let d1 := voteDir (o 0) (p 1) (o 2) (p 3) E
    let d2 := voteDir (p 0) (o 1) (p 2) (o 3) none
    ∃ t, exec (.voteClose job ep) s = .next t ∧
      (if d1 = .pass ∧ d2 = .pass then (jobAt t job).voteHold = false ∧ (jobAt t job).closed = J.closed ++ [ep] ∧
         t.fab.twin = s.fab.twin ∧ t.integ = { s.integ with cnt := bumpAt s.integ.cnt 12 1 }
       else if d1 = .oddH then t.integ.expelled = true ∧ t.fab.twin.st = .detached ∧
         (∀ f, f ∈ J.formed → f.1 ∈ (jobAt t job).closed)
       else if d1 = .oddR then t.fab.twin.st = .solo ∧ (∀ f, f ∈ J.formed → f.1 ∈ (jobAt t job).closed)
       else t.integ = { s.integ with undecided := true, cnt := bumpAt s.integ.cnt 13 1 } ∧ t.attn = s.attn ||| aInteg ∧
         t.fab = s.fab ∧ (jobAt t job).closed = J.closed ++ [ep] ∧ (jobAt t job).voteHold = J.voteHold ∧
         t.coll.colls = s.coll.colls ∧ t.coll.shards = s.coll.shards) ∧ KeepsData s t := by
  intro J peer o p E W hready d1 d2
  have hrun : doVoteClose job ep s =
      if d1 = .pass ∧ d2 = .pass then icnt (passVote s job ep) 12 1
      else if (decide (d1 = .oddH) || decide (d2 = .oddR)) && !(decide (d1 = .oddR) || decide (d2 = .oddH)) then
        expelSelf (closeVote s job ep) job
      else if (decide (d1 = .oddR) || decide (d2 = .oddH)) && !(decide (d1 = .oddH) || decide (d2 = .oddR)) then
        toSolo (passVote s job ep)
      else undecide (closeVote s job ep) := by
    have hgo : ((o 0 == p 1 && p 0 == o 1) || (bcastsOver s job ep && decide (lookupD J.commitAt ep 0 + 1000 * (W + 50) ≤ s.now)) ||
        (!peer.isEmpty && E.isSome)) = true := by
      simp only [Bool.or_eq_true, Bool.and_eq_true, beq_iff_eq, decide_eq_true_eq, Bool.not_eq_true', List.isEmpty_eq_false_iff,
        or_assoc]
      exact hready
    have hgate : (J.closed.contains ep || s.fab.twin.st != .paired || !((o 0 == p 1 && p 0 == o 1) ||
        (bcastsOver s job ep && decide (lookupD J.commitAt ep 0 + 1000 * (W + 50) ≤ s.now)) || (!peer.isEmpty && E.isSome))) = false := by
      rw [hgo, hst, show J.closed.contains ep = false from hopen]
      rfl
    unfold doVoteClose
    extract_lets W'
    rw [show J.formed.find? (fun f => f.1 == ep) = some (ep, own) from hformed]
    exact if_neg (Bool.eq_false_iff.mp hgate)
  have hd2 : d2 = .pass ∨ d2 = .undecided := voteDir_none
  clear_value d1 d2
  have hnotR : decide (d2 = .oddR) = false := by rcases hd2 with h | h <;> simp [h]
  have hnotH : decide (d2 = .oddH) = false := by rcases hd2 with h | h <;> simp [h]
  rw [hnotR, hnotH, Bool.or_false, Bool.or_false] at hrun
  by_cases hpass : d1 = .pass ∧ d2 = .pass
  · rw [if_pos hpass] at hrun
    simp only [if_pos hpass]
    have hj := jobAt_passVote (s := s) (job := job) (ep := ep)
    exact ⟨_, congrArg (fun t => Host.Outcome.next (traced s t)) hrun,
      ⟨congrArg JobSt.voteHold hj, congrArg JobSt.closed hj, rfl, rfl⟩, .of_dataView rfl⟩
  rw [if_neg hpass] at hrun
  simp only [if_neg hpass]
  by_cases hH : d1 = .oddH
  · rw [if_pos (by simp [hH])] at hrun
    simp only [if_pos hH]
    obtain ⟨hex, hdet, hall, hkeep⟩ := expelSelf_leaves (s := closeVote s job ep) (job := job) hst
    rw [show (voteView (closeVote s job ep) job).1 = J.formed from (congrArg JobSt.formed (jobAt_closeVote (s := s)) :)] at hall
    exact ⟨_, congrArg (fun t => Host.Outcome.next (traced s t)) hrun, ⟨hex, hdet, hall⟩, .of_dataView hkeep⟩
  rw [if_neg (by simp [hH])] at hrun
  simp only [if_neg hH]
  by_cases hR : d1 = .oddR
  · rw [if_pos (by simp [hR])] at hrun
    simp only [if_pos hR]
    obtain ⟨hsolo, hall, hkeep⟩ := toSolo_leaves (s := passVote s job ep) (job := job)
    rw [show (voteView (passVote s job ep) job).1 = J.formed from (congrArg JobSt.formed (jobAt_passVote (s := s)) :)] at hall
    exact ⟨_, congrArg (fun t => Host.Outcome.next (traced s t)) hrun, ⟨hsolo, hall⟩, .of_dataView hkeep⟩
  rw [if_neg (by simp [hR])] at hrun
  simp only [if_neg hR]
  have hj := jobAt_closeVote (s := s) (job := job) (ep := ep)
  obtain ⟨hinteg, hattn, hfab, hcoll, hdata⟩ := undecide_keeps (s := closeVote s job ep)
  have hdata' : dataView (undecide (closeVote s job ep)) = dataView s := hdata
  rw [← jobAt_of_jobs (congrArg CollSt.jobs hcoll)] at hj
  have hcolls : (undecide (closeVote s job ep)).coll.colls = s.coll.colls ∧ (undecide (closeVote s job ep)).coll.shards = s.coll.shards :=
    ⟨(congrArg CollSt.colls hcoll :), (congrArg CollSt.shards hcoll :)⟩
  have hhold : (jobAt (undecide (closeVote s job ep)) job).voteHold = J.voteHold := (congrArg JobSt.voteHold hj :)
  generalize undecide (closeVote s job ep) = t at *
  exact ⟨_, congrArg (fun t => Host.Outcome.next (traced s t)) hrun,
    ⟨hinteg, hattn, hfab, congrArg JobSt.closed hj, hhold, hcolls.1, hcolls.2⟩, .of_dataView hdata'⟩

end Close

/-- Settles O42: a window counts the silent ranks, and a vote passes, is left by the odd module, or stays undecided. -/
theorem votesAreClosed : Obligations.VotesAreClosed := by
  unfold Obligations.VotesAreClosed
  exact ⟨fun job ep s top ht hopen hover hack hdue => voteWindowExpiry_counts ht hopen hover hack hdue,
    fun job ep s own hformed hopen hst hready => voteClose_decides hformed hopen hst hready⟩

end Sys2Proof.Machine
end

section
/-! Swaps of gate lists and stretch requests (R310, R311, R317 to R324), and the obligation O45. -/

namespace Sys2Proof.Machine

/-! ### The bytes of a request (R318) -/

section Bytes

theorem length_leBytes (n v : Nat) : (leBytes n v).length = n := by
  induction n generalizing v with
  | zero => rfl
  | succ n ih => exact congrArg (· + 1) (ih _)

theorem leVal_leBytes {n v : Nat} (h : v < 256 ^ n) : leVal (leBytes n v) = v := by
  induction n generalizing v with
  | zero => exact (Nat.lt_one_iff.mp h).symm
  | succ n ih =>
    have hq : v / 256 < 256 ^ n := Nat.div_lt_of_lt_mul (by rw [Nat.pow_succ] at h; omega)
    show (BitVec.ofNat 8 v).toNat + 256 * leVal (leBytes n (v / 256)) = v
    rw [ih hq, BitVec.toNat_ofNat]
    exact Nat.mod_add_div v 256

theorem leVal_append (xs ys : List Byte) : leVal (xs ++ ys) = leVal xs + 256 ^ xs.length * leVal ys := by
  induction xs with
  | nil => simp [leVal]
  | cons x xs ih =>
    simp only [List.cons_append, leVal, ih, List.length_cons, Nat.pow_succ]
    ring

theorem slice_append_prefix {xs ys : List Byte} {n : Nat} (h : xs.length = n) : slice (xs ++ ys) 0 n = xs := by
  subst h
  simp [slice]

theorem slice_append_skip {xs ys : List Byte} {off n k : Nat} (h : xs.length + k = off) : slice (xs ++ ys) off n = slice ys k n := by
  subst h
  simp [slice, List.drop_append, List.drop_eq_nil_of_le]

/-- The cell of a request (R318): the schedule, the swap time, the send time, the module, its sequence number and the factor. -/
def requestBytes (sid swap send mod seq f : Nat) : List Byte :=
  padTo 40 (leBytes 8 sid ++ leBytes 8 swap ++ leBytes 8 send ++ leBytes 2 mod ++ leBytes 2 seq ++ leBytes 1 f)

/-- What the cell of a request says. -/
theorem requestBytes_reads {sid swap send mod seq f : Nat} (hsid : sid < 2 ^ 64) (hswap : swap < 2 ^ 64) (hsend : send < 2 ^ 64)
    (hmod : mod < 2 ^ 16) (hseq : seq < 2 ^ 16) (hf : f < 2 ^ 8) :
    leVal (slice (requestBytes sid swap send mod seq f) 0 8) = sid ∧ leVal (slice (requestBytes sid swap send mod seq f) 8 8) = swap ∧
    leVal (slice (requestBytes sid swap send mod seq f) 16 8) = send ∧
    leVal (slice (requestBytes sid swap send mod seq f) 24 4) = mod + seq * 2 ^ 16 ∧
    leVal (slice (requestBytes sid swap send mod seq f) 28 1) = f := by
  have hpair : leVal (leBytes 2 mod ++ leBytes 2 seq) = mod + seq * 2 ^ 16 := by
    rw [leVal_append, length_leBytes, leVal_leBytes (n := 2) hmod, leVal_leBytes (n := 2) hseq]
    omega
  unfold requestBytes padTo
  simp only [List.append_assoc]
  refine ⟨?_, ?_, ?_, ?_, ?_⟩
  · rw [slice_append_prefix (length_leBytes _ _), leVal_leBytes hsid]
  · rw [slice_append_skip (k := 0) (by rw [length_leBytes]), slice_append_prefix (length_leBytes _ _), leVal_leBytes hswap]
  · rw [slice_append_skip (k := 8) (by rw [length_leBytes]), slice_append_skip (k := 0) (by rw [length_leBytes]),
      slice_append_prefix (length_leBytes _ _), leVal_leBytes hsend]
  · rw [slice_append_skip (k := 16) (by rw [length_leBytes]), slice_append_skip (k := 8) (by rw [length_leBytes]),
      slice_append_skip (k := 0) (by rw [length_leBytes]), ← List.append_assoc,
      slice_append_prefix (by rw [List.length_append, length_leBytes, length_leBytes]), hpair]
  · rw [slice_append_skip (k := 20) (by rw [length_leBytes]), slice_append_skip (k := 12) (by rw [length_leBytes]),
      slice_append_skip (k := 4) (by rw [length_leBytes]), slice_append_skip (k := 2) (by rw [length_leBytes]),
      slice_append_skip (k := 0) (by rw [length_leBytes]), slice_append_prefix (length_leBytes _ _), leVal_leBytes hf]

end Bytes

/-! ### Swaps (R310, R311, R322) -/

section Swaps

variable {s : State}

/-- A FLAG_WAIT deadline under factor code `f` that was set under `old` (R269). -/
def scaleDeadline (old f d : Nat) : Nat := if f = old then d else d * (4 + f) / (4 + old)

/-- A queue whose deadline scales. -/
def scaleQueue (old f : Nat) (Q : Queue) : Queue := { Q with deadline := scaleDeadline old f Q.deadline }

theorem scaleQueue_unused {old f : Nat} : scaleQueue old f {} = {} := by
  have h : scaleDeadline old f 0 = 0 := by
    unfold scaleDeadline
    split
    · rfl
    · rw [Nat.zero_mul, Nat.zero_div]
  exact congrArg (fun d => ({ deadline := d } : Queue)) h

theorem queueAt_takeOver {b f q : Nat} : queueAt (takeOver s b f) q = scaleQueue s.fab.tim.sched.factor f (queueAt s q) := by
  have hget := List.getD_map (l := s.comp.queues) (d := {}) (n := q) (f := scaleQueue s.fab.tim.sched.factor f)
  rw [scaleQueue_unused] at hget
  exact hget

theorem takeOver_keepsData {b f : Nat} : dataView (takeOver s b f) = dataView s := by
  have hregs : regsOf (takeOver s b f) = regsOf s := by
    funext q
    unfold regsOf
    rw [queueAt_takeOver]
    rfl
  unfold dataView
  rw [hregs]
  rfl

/-- The state without its ports. -/
def portlessView (s : State) : State := { s with fab := { s.fab with ports := [] } }

theorem portlessView_retagAll : portlessView (retagAll s) = portlessView s := by
  have hretag (r : State) (p : Nat) : portlessView (retag r p) = portlessView r :=
    (foldl_keeps (v := portlessView) (f := fun r e => enqueue r p e) (fun _ _ => rfl) _ _ :)
  exact foldl_keeps hretag _ _

theorem gateSwap_swaps {b f : Nat} (hp : s.fab.tim.sched.pending = some (b, f)) (hl : s.fab.tim.sched.loaded = true)
    (hb : b ≤ s.fabricTime) :
    ∃ t, exec .gateSwap s = .next t ∧
      (let sc := s.fab.tim.sched
       t.fab.tim = { s.fab.tim with sched := { sc with
         pending := sc.queued, queued := none, active := true, oldFactor := sc.factor, factor := f, base := b, activeSince := b,
         expiry := if f = 0 then 0 else b + sc.hold * cycleLen sc.cycleNs f, expiryFactor := 0,
         held := sc.held.filter (fun h => s.fabricTime < h.2.1) } } ∧
       t.stretchQ = 4 + f ∧ (sc.active = true → t.fab.ports = s.fab.ports) ∧
       (∀ q, (queueAt t q).deadline = if f = sc.factor then (queueAt s q).deadline
         else (queueAt s q).deadline * (4 + f) / (4 + sc.factor))) ∧
      t.fab.lanes = s.fab.lanes ∧ t.coll = s.coll ∧ t.integ = s.integ ∧ KeepsData s t := by
  set s0 := setSched s (fun sc => { sc with pending := sc.queued, queued := none }) with hs0
  set s1 := takeOver s0 b f with hs1
  set t := if s.fab.tim.sched.active then s1 else retagAll s1 with ht
  have hrun : doGateSwap s = t := by
    unfold doGateSwap
    dsimp only
    rw [hp]
    exact if_pos (by simp [hl, hb])
  have hview : portlessView t = portlessView s1 := by
    rw [ht]
    split
    · rfl
    · exact portlessView_retagAll
  have hports : s.fab.tim.sched.active = true → t.fab.ports = s.fab.ports := by
    intro h
    rw [ht, if_pos h]
    rfl
  have hdata : dataView s1 = dataView s := takeOver_keepsData (s := s0)
  have hdeadline (q : Nat) : (queueAt s1 q).deadline = scaleDeadline s.fab.tim.sched.factor f (queueAt s q).deadline :=
    congrArg Queue.deadline (queueAt_takeOver (s := s0) (b := b) (f := f) (q := q))
  clear_value t
  refine ⟨_, congrArg (fun t => Host.Outcome.next (traced s t)) hrun, ⟨?_, ?_, hports, fun q => ?_⟩, ?_, ?_, ?_, ?_⟩
  · exact (congrArg (·.fab.tim) hview :)
  · exact (congrArg (·.stretchQ) hview :)
  · exact ((congrArg (fun r => (queueAt r q).deadline) hview :)).trans (hdeadline q)
  · exact (congrArg (·.fab.lanes) hview :)
  · exact (congrArg (·.coll) hview :)
  · exact (congrArg (·.integ) hview :)
  · exact .of_dataView ((congrArg dataView hview :).trans hdata)

theorem stretchExpiry_expires (ha : s.fab.tim.sched.active = true) (hf : s.fab.tim.sched.factor ≠ 0)
    (he : s.fab.tim.sched.expiry ≤ s.fabricTime) :
    let sc := s.fab.tim.sched
    ∃ t, exec .stretchExpiry s = .next t ∧
      t.fab = { s.fab with tim := { s.fab.tim with sched := { sc with
         oldFactor := sc.factor, factor := sc.expiryFactor, base := sc.expiry, activeSince := sc.expiry,
         expiry := if sc.expiryFactor = 0 then 0 else sc.expiry + sc.hold * cycleLen sc.cycleNs sc.expiryFactor, expiryFactor := 0,
         held := sc.held.filter (fun h => s.fabricTime < h.2.1) } } } ∧
      t.stretchQ = 4 + sc.expiryFactor ∧
      (∀ q, (queueAt t q).deadline = if sc.expiryFactor = sc.factor then (queueAt s q).deadline
         else (queueAt s q).deadline * (4 + sc.expiryFactor) / (4 + sc.factor)) ∧
      t.coll = s.coll ∧ KeepsData s t := by
  intro sc
  have hrun : doStretchExpiry s = takeOver s sc.expiry sc.expiryFactor := by
    unfold doStretchExpiry
    exact if_pos (by simp [ha, hf, he])
  have hact : sc = { sc with active := true } := by rw [← ha]
  refine ⟨_, congrArg (fun t => Host.Outcome.next (traced s t)) hrun, ?_, rfl, fun q => ?_, rfl, .of_dataView takeOver_keepsData⟩
  · exact (congrArg (fun c : Sched => ({ s.fab with tim := { s.fab.tim with sched := { c with
      oldFactor := sc.factor, factor := sc.expiryFactor, base := sc.expiry, activeSince := sc.expiry,
      expiry := if sc.expiryFactor = 0 then 0 else sc.expiry + sc.hold * cycleLen sc.cycleNs sc.expiryFactor, expiryFactor := 0,
      held := sc.held.filter (fun h => s.fabricTime < h.2.1) } } } : Fab)) hact).symm
  · exact congrArg Queue.deadline (queueAt_takeOver (s := s) (b := sc.expiry) (f := sc.expiryFactor) (q := q))

end Swaps

/-! ### Requests (R319 to R321) -/

section Requests

variable {s : State}

/-- What an accepted request leaves of the schedule: the renewed boundary, the module's own sequence and the requests held. -/
def askedView (sc : Sched) := (sc.renewed, sc.ownSeq, sc.held)

theorem askedView_ite {c : Prop} [Decidable c] {sc x y : Sched} (hx : askedView x = askedView sc) (hy : askedView y = askedView sc) :
    askedView (if c then x else y) = askedView sc := by
  split
  · exact hx
  · exact hy

theorem askedView_applyStretch {sc : Sched} {swap f : Nat} : askedView (applyStretch sc swap f) = askedView sc := by
  unfold applyStretch
  split
  · refine askedView_ite rfl ?_
    split
    · exact askedView_ite rfl (askedView_ite rfl rfl)
    · exact askedView_ite rfl (askedView_ite rfl (askedView_ite rfl rfl))
  · exact askedView_ite rfl (askedView_ite rfl rfl)

/-- A request for the expiry boundary raises the factor of the expiry (R322). -/
theorem applyStretch_expiry {sc : Sched} {swap f : Nat} (hp : sc.pending = none) (he : sc.expiry = swap) (hf : sc.factor ≠ 0) :
    applyStretch sc swap f = { sc with expiryFactor := max sc.expiryFactor f } := by
  unfold applyStretch
  rw [hp]
  exact if_pos (by simp [he, hf])

/-- Fabric time and the attention bits. -/
def timeView (s : State) := (s.fab.tim, s.attn, s.fabricTime)

theorem timeView_ite {c : Prop} [Decidable c] {x y : State} (hx : timeView x = timeView s) (hy : timeView y = timeView s) :
    timeView (if c then x else y) = timeView s := by
  split
  · exact hx
  · exact hy

theorem timeView_forwardStretch {a : Option Nat} {pl : List Byte} : timeView (forwardStretch s a pl) = timeView s := by
  have hone (r : State) (u : LinkUnit) : timeView (originate r u) = timeView r := by
    unfold originate originateFrom
    exact timeView_ite rfl rfl
  exact foldl_keeps (fun _ _ => (hone _ _).trans (hone _ _)) _ _

/-- The bits that a state reports: schedule errors and attention. -/
def Reports (s : State) : Prop := s.fab.tim.errBits &&& 32 = 32 ∧ s.attn &&& aSched = aSched

theorem reports_schedErr_unmet : Reports (schedErr s 32) := by
  refine ⟨?_, attn_setAttn_and⟩
  show (s.fab.tim.errBits ||| 32) &&& 32 = 32
  apply Nat.eq_of_testBit_eq
  intro i
  simp only [Nat.testBit_and, Nat.testBit_or]
  cases Nat.testBit 32 i <;> simp

theorem Reports.or_bit {x : Nat} {b : BitVec 16} {t : State} (h : Reports s) (he : t.fab.tim.errBits = s.fab.tim.errBits ||| x)
    (ha : t.attn = s.attn ||| b) : Reports t := by
  obtain ⟨herr, hattn⟩ := h
  refine ⟨?_, ?_⟩
  · rw [he, Nat.and_or_distrib_right, herr]
    apply Nat.eq_of_testBit_eq
    intro i
    simp only [Nat.testBit_and, Nat.testBit_or]
    cases Nat.testBit 32 i <;> simp
  · rw [ha]
    apply BitVec.eq_of_getLsbD_eq
    intro i hi
    have hbit := congrArg (fun v : BitVec 16 => v.getLsbD i) hattn
    simp only [BitVec.getLsbD_and, BitVec.getLsbD_or] at hbit ⊢
    revert hbit
    cases aSched.getLsbD i <;> simp +contextual

/-- A request leaves the module's own sequence and its renewals, and what was reported stays reported. -/
theorem recvStretch_keeps {a : Option Nat} {pl : List Byte} :
    (recvStretch s a pl).fab.tim.sched.renewed = s.fab.tim.sched.renewed ∧
    (recvStretch s a pl).fab.tim.sched.ownSeq = s.fab.tim.sched.ownSeq ∧ (Reports s → Reports (recvStretch s a pl)) := by
  unfold recvStretch
  extract_lets g sc key f swap s1
  split
  · exact ⟨rfl, rfl, id⟩
  split
  · exact ⟨rfl, rfl, fun h => h.or_bit rfl rfl⟩
  split
  · exact ⟨rfl, rfl, fun h => h.or_bit rfl rfl⟩
  · have hview : timeView (forwardStretch s1 a pl) = timeView s1 := timeView_forwardStretch
    have htim : (forwardStretch s1 a pl).fab.tim = s1.fab.tim := congrArg (·.1) hview
    have hattn : (forwardStretch s1 a pl).attn = s1.attn := congrArg (·.2.1) hview
    generalize forwardStretch s1 a pl = s2 at htim hattn
    have happly : askedView (applyStretch s2.fab.tim.sched swap f) = askedView s2.fab.tim.sched := askedView_applyStretch
    refine ⟨?_, ?_, ?_⟩
    · exact (congrArg (·.1) happly).trans (congrArg (fun x : Tim => x.sched.renewed) htim)
    · exact (congrArg (·.2.1) happly).trans (congrArg (fun x : Tim => x.sched.ownSeq) htim)
    · rintro ⟨herr, hat⟩
      exact ⟨(congrArg (fun x : Tim => x.errBits &&& 32) htim).trans herr, (congrArg (· &&& aSched) hattn).trans hat⟩

/-- A request of this module that no other holds and that is valid in time is held and applied (R320, R321). -/
theorem recvStretch_accepts {a : Option Nat} {sid swap send mod seq f : Nat} (hsid : sid < 2 ^ 64) (hswap : swap < 2 ^ 64)
    (hsend : send < 2 ^ 64) (hmod : mod < 2 ^ 16) (hseq : seq < 2 ^ 16) (hf : f < 3)
    (hheld : s.fab.tim.sched.held.any (fun h => h.1 == mod + seq * 2 ^ 16) = false)
    (hvalid : stretchValid s.fab.tim.sched sid swap send f = true) (hlead : s.fabricTime + 10000 ≤ swap) :
    (recvStretch s a (requestBytes sid swap send mod seq f)).fab.tim.sched = applyStretch { s.fab.tim.sched with
      held := s.fab.tim.sched.held ++ [(mod + seq * 2 ^ 16, swap, f)] } swap f := by
  obtain ⟨h0, h8, h16, h24, h28⟩ := requestBytes_reads hsid hswap hsend hmod hseq (Nat.lt_of_lt_of_le hf (by decide) : f < 2 ^ 8)
  unfold recvStretch
  extract_lets g sc key f' swap' s1
  have hkey : key = mod + seq * 2 ^ 16 := h24
  have hswap' : swap' = swap := h8
  have hf' : f' = f := by
    show leVal (slice (requestBytes sid swap send mod seq f) 28 1) % 4 = f
    rw [h28]
    omega
  have hg : g 0 8 = sid ∧ g 16 8 = send := ⟨h0, h16⟩
  have hs1 : s1 = setSched s (fun sc => { sc with held := sc.held ++ [(mod + seq * 2 ^ 16, swap, f)] }) := by
    rw [← hkey, ← hswap', ← hf']
  clear_value s1
  rw [hkey, hswap', hf']
  rw [if_neg (by rw [hheld]; simp), hg.1, hg.2, if_neg (by rw [hvalid]; simp),
    if_neg (Nat.not_lt.mpr hlead)]
  have hview : timeView (forwardStretch s1 a (requestBytes sid swap send mod seq f)) = timeView s1 := timeView_forwardStretch
  exact congrArg (fun x : Tim => applyStretch x.sched swap f) ((congrArg (·.1) hview).trans (congrArg (fun r : State => r.fab.tim) hs1))

/-- The report of a module that no factor meets (R316). -/
def noteUnmet (s : State) : State := if isUnmet s then schedErr s 32 else s

theorem noteUnmet_keeps : (noteUnmet s).fab.tim.sched = s.fab.tim.sched ∧ (noteUnmet s).fabricTime = s.fabricTime ∧
    (noteUnmet s).fab.moduleIndex = s.fab.moduleIndex ∧ beyondFabric (noteUnmet s) = beyondFabric s := by
  unfold noteUnmet
  split <;> exact ⟨rfl, rfl, rfl, rfl⟩

theorem reports_noteUnmet (h : isUnmet s = true) : Reports (noteUnmet s) := by
  rw [noteUnmet, if_pos h]
  exact reports_schedErr_unmet

/-- A request of this module is its own cell with its next sequence number. -/
theorem askStretch_eq {f swap : Nat} : askStretch s f swap =
    recvStretch (setSched s (fun x => { x with ownSeq := (s.fab.tim.sched.ownSeq + 1) % 2 ^ 16 })) none
      (requestBytes s.fab.tim.sched.schedId swap s.fabricTime (s.fab.moduleIndex % 2 ^ 15) ((s.fab.tim.sched.ownSeq + 1) % 2 ^ 16) f) :=
  rfl

/-- The schedule after a renewal is asked for at its expiry. -/
def renewing (sc : Sched) : Sched := { sc with renewed := sc.expiry, ownSeq := (sc.ownSeq + 1) % 2 ^ 16 }

theorem stretchRenew_runs (ha : s.fab.tim.sched.active = true) (hf : s.fab.tim.sched.factor ≠ 0)
    (hr : s.fab.tim.sched.renewed ≠ s.fab.tim.sched.expiry) (hneed : neededFactor s ≠ 0)
    (hnear : s.fab.tim.sched.expiry ≤ s.fabricTime + 2000 * s.fab.tim.sched.swapLeadUs)
    (hbefore : s.fabricTime < s.fab.tim.sched.expiry) :
    ∃ r, r.fab.tim.sched = renewing s.fab.tim.sched ∧ r.fabricTime = s.fabricTime ∧ beyondFabric r = beyondFabric s ∧
      (isUnmet s = true → Reports r) ∧
      doStretchRenew s = recvStretch r none (requestBytes s.fab.tim.sched.schedId s.fab.tim.sched.expiry s.fabricTime
        (s.fab.moduleIndex % 2 ^ 15) ((s.fab.tim.sched.ownSeq + 1) % 2 ^ 16) (neededFactor s)) := by
  have hrun : doStretchRenew s = askStretch (noteUnmet (setSched s (fun x => { x with renewed := s.fab.tim.sched.expiry })))
      (neededFactor s) s.fab.tim.sched.expiry := by
    unfold doStretchRenew
    exact if_pos (by simp [ha, hf, hr, hneed, hnear, hbefore])
  obtain ⟨hsc, htime, hmod, hrest⟩ := noteUnmet_keeps (s := setSched s (fun x => { x with renewed := s.fab.tim.sched.expiry }))
  have hrep := reports_noteUnmet (s := setSched s (fun x => { x with renewed := s.fab.tim.sched.expiry }))
  generalize noteUnmet (setSched s (fun x => { x with renewed := s.fab.tim.sched.expiry })) = s2 at hsc htime hmod hrest hrep hrun
  rw [askStretch_eq, hsc, htime, hmod] at hrun
  refine ⟨setSched s2 (fun x => { x with ownSeq := (s.fab.tim.sched.ownSeq + 1) % 2 ^ 16 }), ?_, htime, beyondFabric_setSched.trans hrest,
    fun hu => hrep hu, hrun⟩
  exact (congrArg (fun x : Sched => { x with ownSeq := (s.fab.tim.sched.ownSeq + 1) % 2 ^ 16 }) hsc :)

theorem stretchRenew_asks (ha : s.fab.tim.sched.active = true) (hf : s.fab.tim.sched.factor ≠ 0)
    (hr : s.fab.tim.sched.renewed ≠ s.fab.tim.sched.expiry) (hneed : neededFactor s ≠ 0)
    (hnear : s.fab.tim.sched.expiry ≤ s.fabricTime + 2000 * s.fab.tim.sched.swapLeadUs)
    (hbefore : s.fabricTime < s.fab.tim.sched.expiry) :
    let sc := s.fab.tim.sched
    ∃ t, exec .stretchRenew s = .next t ∧ t.fab.tim.sched.renewed = sc.expiry ∧
      t.fab.tim.sched.ownSeq = (sc.ownSeq + 1) % 2 ^ 16 ∧ (isUnmet s = true → t.fab.tim.errBits &&& 32 = 32 ∧ t.attn &&& aSched = aSched) ∧
      (let key := (s.fab.moduleIndex % 2 ^ 15) % 2 ^ 16 + ((sc.ownSeq + 1) % 2 ^ 16) * 2 ^ 16
       sc.held.any (fun h => h.1 == key) = false → sc.schedId < 2 ^ 64 → sc.expiry < 2 ^ 64 → neededFactor s < 3 →
       stretchValid sc sc.schedId sc.expiry s.fabricTime (neededFactor s) = true → s.fabricTime + 10000 ≤ sc.expiry →
       t.fab.tim.sched.held = sc.held ++ [(key, sc.expiry, neededFactor s)] ∧
       (sc.pending = none → t.fab.tim.sched.expiryFactor = max sc.expiryFactor (neededFactor s))) ∧
      t.coll = s.coll ∧ KeepsData s t := by
  intro sc
  obtain ⟨r, hsc, htime, hrest, hunmet, hrun⟩ := stretchRenew_runs ha hf hr hneed hnear hbefore
  obtain ⟨hren, hseq, hrep⟩ := recvStretch_keeps (s := r) (a := none) (pl := requestBytes sc.schedId sc.expiry s.fabricTime
    (s.fab.moduleIndex % 2 ^ 15) ((sc.ownSeq + 1) % 2 ^ 16) (neededFactor s))
  have hall := (beyondFabric_recvStretch (s := r) (a := none) (pl := requestBytes sc.schedId sc.expiry s.fabricTime
    (s.fab.moduleIndex % 2 ^ 15) ((sc.ownSeq + 1) % 2 ^ 16) (neededFactor s))).trans hrest
  rw [hsc] at hren hseq
  refine ⟨_, congrArg (fun t => Host.Outcome.next (traced s t)) hrun, hren, hseq, fun hu => hrep (hunmet hu), ?_,
    (congrArg (·.coll) hall :), .of_dataView (congrArg dataView hall :)⟩
  intro key hheld hsid hexp hthree hvalid hlead
  have hkey : s.fab.moduleIndex % 2 ^ 15 + (sc.ownSeq + 1) % 2 ^ 16 * 2 ^ 16 = key := by
    have hmod : s.fab.moduleIndex % 2 ^ 15 % 2 ^ 16 = s.fab.moduleIndex % 2 ^ 15 := Nat.mod_eq_of_lt (by omega)
    show _ = s.fab.moduleIndex % 2 ^ 15 % 2 ^ 16 + _
    rw [hmod]
  have haccept := recvStretch_accepts (s := r) (a := none) (mod := s.fab.moduleIndex % 2 ^ 15) (seq := (sc.ownSeq + 1) % 2 ^ 16)
    hsid hexp (Nat.lt_trans hbefore hexp) (by omega) (by omega) hthree (by rw [hsc, hkey]; exact hheld) (by rw [hsc]; exact hvalid)
    (by rw [htime]; exact hlead)
  rw [hsc, hkey] at haccept
  refine ⟨?_, fun hnone => ?_⟩
  · exact (congrArg Sched.held haccept).trans (congrArg (·.2.2) (askedView_applyStretch :))
  · refine (congrArg Sched.expiryFactor haccept).trans ?_
    have h := applyStretch_expiry (sc := { renewing sc with held := (renewing sc).held ++ [(key, sc.expiry, neededFactor s)] })
      (swap := sc.expiry) (f := neededFactor s) hnone rfl hf
    exact congrArg Sched.expiryFactor h

/-- A neighbour that differs past the later swap is reported (R324). -/
theorem schedMismatch_reports {p : Nat} (hp : isLanePort s p = true) (ha : s.fab.tim.sched.active = true)
    (hid : (portAt s p).peerSched.1 = s.fab.tim.sched.schedId)
    (hne : (portAt s p).peerSched.2.1 ≠ s.fab.tim.sched.factor ∨ (portAt s p).peerSched.2.2 ≠ s.fab.tim.sched.activeSince)
    (hlate : max (portAt s p).peerSched.2.2 s.fab.tim.sched.activeSince + 1000000 < s.fabricTime) :
    doSchedMismatch p s = schedErr s 16 := by
  unfold doSchedMismatch
  refine if_pos ?_
  simp only [hp, ha, hid, BEq.rfl, Bool.and_true, Bool.and_eq_true, Bool.or_eq_true, bne_iff_ne, decide_eq_true_eq, true_and]
  exact ⟨hne, hlate⟩

end Requests

/-- Settles O45: lists take over at their boundary with the deadlines scaled, a renewal is this module's own request, and a
neighbour that differs is reported. -/
theorem schedulesSwapAndStretch : Obligations.SchedulesSwapAndStretch := by
  unfold Obligations.SchedulesSwapAndStretch
  refine ⟨fun s b f hp hl hb => gateSwap_swaps hp hl hb, fun s ha hf he => stretchExpiry_expires ha hf he,
    fun s ha hf hr hneed hnear hbefore => stretchRenew_asks ha hf hr hneed hnear hbefore, ?_⟩
  intro p s sc n hp ha hid hne hlate
  exact ⟨_, congrArg (fun t => Host.Outcome.next (traced s t)) (schedMismatch_reports hp ha hid hne hlate), rfl⟩

end Sys2Proof.Machine
end

section
/-! Fabric time (R301 to R306, R509): TIME_SEND, parents, the master's start and the exchange with the parent, and the
obligation O44. -/

namespace Sys2Proof.Machine

/-! ### TIME_SEND (R303) -/

section Sending

variable {s : State}

/-- The TIME frame of a port, where the port is up. -/
def sendTimeOn (s : State) (p : Nat) : State := if portUp s p then sendLocal s p (timeUnit s p) else s

/-- What the sending of TIME frames reads: everything but the lanes' link-local queues. -/
structure SendsAlike (s t : State) : Prop where
  lane : ∀ p, { laneAt t p with locals := [] } = { laneAt s p with locals := [] }
  rest : t = { s with fab := { s.fab with lanes := t.fab.lanes } }

theorem SendsAlike.trans {t r : State} (h : SendsAlike s t) (h' : SendsAlike t r) : SendsAlike s r where
  lane p := (h'.lane p).trans (h.lane p)
  rest := h'.rest.trans (congrArg (fun x : State => { x with fab := { x.fab with lanes := r.fab.lanes } }) h.rest)

theorem SendsAlike.portUp_eq {t : State} (h : SendsAlike s t) (p : Nat) : portUp t p = portUp s p := by
  have hst (l : Nat) : (laneAt t l).st = (laneAt s l).st := (congrArg Lane.st (h.lane l) :)
  have hports : t.fab.ports = s.fab.ports := by rw [h.rest]
  unfold portUp isLanePort portLanes
  simp only [hst, portAt_of_ports hports, hports]

theorem SendsAlike.timeUnit_eq {t : State} (h : SendsAlike s t) (p : Nat) : timeUnit t p = timeUnit s p := by
  rw [h.rest]
  rfl

theorem sendTimeOn_alike {p : Nat} : SendsAlike s (sendTimeOn s p) := by
  unfold sendTimeOn
  split
  · refine ⟨fun l => ?_, rfl⟩
    rw [sendLocal, laneAt_setLane]
    split
    next h => rw [← h]
    next => rfl
  · exact ⟨fun _ => rfl, rfl⟩

theorem locals_sendTimeOn {p l : Nat} : (laneAt (sendTimeOn s p) l).locals = (laneAt s l).locals ++
    (if p = l ∧ portUp s p = true then [sealUnit (timeUnit s p)] else []) := by
  unfold sendTimeOn
  by_cases hup : portUp s p = true
  · rw [if_pos hup, sendLocal, laneAt_setLane]
    by_cases hl : p = l
    · subst hl
      simp [hup]
    · simp [hl]
  · rw [if_neg hup, if_neg (fun h => hup h.2), List.append_nil]

/-- Each port that is up gets its frame as often as it is listed. -/
theorem foldl_sendTimeOn (ps : List Nat) (s : State) : SendsAlike s (ps.foldl sendTimeOn s) ∧
    ∀ l, (laneAt (ps.foldl sendTimeOn s) l).locals = (laneAt s l).locals ++
      List.replicate (if portUp s l then ps.count l else 0) (sealUnit (timeUnit s l)) := by
  induction ps generalizing s with
  | nil => exact ⟨⟨fun _ => rfl, rfl⟩, fun l => by simp⟩
  | cons p ps ih =>
    obtain ⟨halike, hlocals⟩ := ih (sendTimeOn s p)
    have hone : SendsAlike s (sendTimeOn s p) := sendTimeOn_alike
    refine ⟨hone.trans halike, fun l => ?_⟩
    rw [List.foldl_cons, hlocals l, locals_sendTimeOn, hone.portUp_eq, hone.timeUnit_eq, List.append_assoc]
    congr 1
    by_cases hp : p = l
    · subst hp
      by_cases hup : portUp s p = true
      · simp [hup, List.replicate_succ]
      · simp [hup]
    · simp [hp]

theorem timeSend_eq (h : s.fab.tim.lastSend + 1000000 ≤ s.fabricTime) :
    doTimeSend s = (s.fab.ports.map (fun e => e.1)).foldl sendTimeOn (setTim s (fun t => { t with lastSend := s.fabricTime })) := if_pos h

theorem timeSend_sends (h : s.fab.tim.lastSend + 1000000 ≤ s.fabricTime) :
    ∃ t, exec .timeSend s = .next t ∧
      (∀ p, (laneAt t p).locals = (laneAt s p).locals ++
        List.replicate (if portUp s p then (s.fab.ports.map (·.1)).count p else 0) (sealUnit (timeUnit s p))) ∧
      (∀ p, { laneAt t p with locals := [] } = { laneAt s p with locals := [] }) ∧
      t = { s with fab := { s.fab with lanes := t.fab.lanes, tim := { s.fab.tim with lastSend := s.fabricTime } }, dbg := t.dbg } := by
  obtain ⟨halike, hlocals⟩ := foldl_sendTimeOn (s.fab.ports.map (fun e => e.1)) (setTim s (fun t => { t with lastSend := s.fabricTime }))
  have hrun := timeSend_eq h
  generalize (s.fab.ports.map (fun e => e.1)).foldl sendTimeOn (setTim s (fun t => { t with lastSend := s.fabricTime })) = t
    at halike hlocals hrun
  refine ⟨_, congrArg (fun t => Host.Outcome.next (traced s t)) hrun, fun p => hlocals p, fun p => halike.lane p, ?_⟩
  exact (congrArg (fun r : State => { r with dbg := (traced s t).dbg }) halike.rest :)

end Sending

/-! ### Parents (R302, R306) -/

section Parents

variable {s t : State} {p : Nat}

/-- The parent is chosen by the time base, the ports and which of them are up. -/
theorem chooseParent_congr (htim : t.fab.tim = s.fab.tim) (hports : t.fab.ports = s.fab.ports) (hnow : t.now = s.now)
    (hst : ∀ l, (laneAt t l).st = (laneAt s l).st) : chooseParent t = chooseParent s := by
  have hport : portAt t = portAt s := portAt_of_ports hports
  have hcarries : carriesTime t = carriesTime s := by
    funext p
    unfold carriesTime heardTime portUp isLanePort portLanes
    simp only [hst, hport, hports, hnow]
  unfold chooseParent
  rw [htim, hports, hcarries, hport]

theorem noParent_unlocked (h : s.fab.tim.state = 0) : noParent s =
    setTim s (fun t => { t with lastParent := s.now, parent := none, good := 0, slew := 0 }) := by
  unfold noParent
  exact if_pos h

theorem noParent_holdover (h : s.fab.tim.state ≠ 0) : noParent s =
    schedErr (setTim s (fun t => { t with state := 2, lastParent := s.now, parent := none, good := 0, slew := 0 })) 4 := by
  unfold noParent
  exact if_neg h

/-- The stratum below a parent's, once the module has one. -/
def below (peer : Nat) (t : Tim) : Tim := { t with stratum := if t.stratum = 0xFF then 0xFF else min 254 (peer + 1) }

theorem followStratum_eq : followStratum s p = setTim s (below (portAt s p).peerStratum) := by
  unfold followStratum
  refine congrArg (setTim s) (funext fun t => ?_)
  unfold below
  by_cases h : t.stratum = 0xFF
  · rw [if_pos h, if_pos h, ← h]
  · rw [if_neg h, if_neg h]

theorem takeParent_eq : takeParent s p = setTim s (fun t => { t with
    parent := some p, good := 0, lastParent := s.now
    stratum := if t.stratum = 0xFF then 0xFF else min 254 ((portAt s p).peerStratum + 1) }) := by
  unfold takeParent
  rw [followStratum_eq]
  rfl

theorem timeParentTimeout_turns (hk : keepsTime s = true) (hs : steersAlone s = false) (hd : s.fab.tim.lastParent + 3000000 ≤ s.now) :
    ∃ t, exec .timeParentTimeout s = .next t ∧ t = { s with fab := { s.fab with tim := t.fab.tim }, attn := t.attn, dbg := t.dbg } ∧
      (∀ p, chooseParent s = some p → t.attn = s.attn ∧
        t.fab.tim = { s.fab.tim with
          parent := some p, good := 0, lastParent := s.now
          stratum := if s.fab.tim.stratum = 0xFF then 0xFF else min 254 ((portAt s p).peerStratum + 1) }) ∧
      (chooseParent s = none → s.fab.tim.state ≠ 0 → t.attn = s.attn ||| aSched ∧
        t.fab.tim = { s.fab.tim with state := 2, parent := none, good := 0, slew := 0, lastParent := s.now,
                                     errBits := s.fab.tim.errBits ||| 4 }) ∧
      (chooseParent s = none → s.fab.tim.state = 0 → t.attn = s.attn ∧
        t.fab.tim = { s.fab.tim with parent := none, good := 0, slew := 0, lastParent := s.now }) := by
  have hgate : (keepsTime s && !steersAlone s && decide (s.fab.tim.lastParent + 3000000 ≤ s.now)) = true := by simp [hk, hs, hd]
  cases hc : chooseParent s with
  | some p =>
    have hrun : doTimeParentTimeout s = setTim s (fun t => { t with
        parent := some p, good := 0, lastParent := s.now
        stratum := if t.stratum = 0xFF then 0xFF else min 254 ((portAt s p).peerStratum + 1) }) := by
      unfold doTimeParentTimeout
      rw [if_pos hgate, hc]
      exact takeParent_eq
    refine ⟨_, congrArg (fun t => Host.Outcome.next (traced s t)) hrun, rfl, fun q hq => ⟨rfl, ?_⟩, nofun, nofun⟩
    obtain rfl : p = q := Option.some.inj hq
    rfl
  | none =>
    have hrun : doTimeParentTimeout s = noParent s := by
      unfold doTimeParentTimeout
      rw [if_pos hgate, hc]
    by_cases hst : s.fab.tim.state = 0
    · rw [noParent_unlocked hst] at hrun
      exact ⟨_, congrArg (fun t => Host.Outcome.next (traced s t)) hrun, rfl, nofun, fun _ h => absurd hst h,
        fun _ _ => ⟨rfl, rfl⟩⟩
    · rw [noParent_holdover hst] at hrun
      exact ⟨_, congrArg (fun t => Host.Outcome.next (traced s t)) hrun, rfl, nofun, fun _ _ => ⟨rfl, rfl⟩,
        fun _ h => absurd h hst⟩

theorem jumpTime_zero : jumpTime s 0 = { setTim s (fun m => { m with lastSend := 0 }) with fabricTime := 0 } := by
  unfold jumpTime
  simp only [Nat.zero_sub]

theorem masterTimeStart_starts (hm : s.fab.tim.master = true) (hs : s.fab.tim.started = false) (hst : s.mgt.st = .sync)
    (hd : s.mgt.syncAt + 3000000 ≤ s.now) (hc : chooseParent s = none) :
    ∃ t, exec .masterTimeStart s = .next t ∧ t = { s with
      fabricTime := 0, dbg := t.dbg
      fab := { s.fab with tim := { s.fab.tim with started := true, state := 1, stratum := 0, parent := none, lastSend := 0 } } } := by
  have hrun : doMasterTimeStart s = { s with
      fabricTime := 0
      fab := { s.fab with tim := { s.fab.tim with started := true, state := 1, stratum := 0, parent := none, lastSend := 0 } } } := by
    unfold doMasterTimeStart
    rw [if_pos (by simp [hm, hs, hst, hd, hc])]
    rw [jumpTime_zero]
    rfl
  exact ⟨_, congrArg (fun t => Host.Outcome.next (traced s t)) hrun, rfl⟩

theorem masterSyncElapsed_ends (hst : s.mgt.st = .sync) (hm : s.fab.tim.master = true) (hd : s.mgt.syncAt + 1000000000 ≤ s.now) :
    doMasterSyncElapsed s = endBoot s .ready := if_pos (by simp [hst, hm, hd])

theorem syncTimeout_reports (hst : s.mgt.st = .sync) (ht : s.fab.tim.state ≠ 1) (hd : s.mgt.syncAt + 10000000000 ≤ s.now) :
    doSyncTimeout s = setAttn s aSched := if_pos (by simp [hst, ht, hd])

end Parents

/-! ### The exchange (R304, R306) -/

section Exchange

variable {s : State} {off : Int} {stratum p l : Nat} {u : LinkUnit}

/-- The offset noted and the good exchanges counted (R304). -/
def noteOffset (s : State) (off : Int) : State :=
  setTim s (fun t => { t with offsetPs := off, good := if off.natAbs ≤ 2000 then t.good + 1 else 0 })

/-- The time base steered by an offset: in SYNC the time steps, after it the rate turns. -/
def steered (s : State) (off : Int) : State :=
  if s.mgt.st = .sync then jumpTime (noteOffset s off) ((s.fabricTime : Int) + (off + 500) / 1000).toNat
  else if 1000000 < off.natAbs then
    schedErr (setTim (noteOffset s off) (fun t => { t with slew := (off + 500) / 1000, slewAt := s.now, state := 3 })) 8
  else setTim (noteOffset s off) (fun t => { t with slew := (off + 500) / 1000, slewAt := s.now })

theorem exchange_eq : exchange s off stratum =
    if off.natAbs ≤ 2000 ∧ 2 ≤ s.fab.tim.good then lockTime (steered s off) stratum else steered s off := by
  have hgood : (3 ≤ if off.natAbs ≤ 2000 then s.fab.tim.good + 1 else 0) ↔ off.natAbs ≤ 2000 ∧ 2 ≤ s.fab.tim.good := by
    split <;> omega
  exact if_congr hgood rfl rfl

/-- What neither steering nor a lock changes. -/
def untimedView (s : State) := (s.coll, s.comp, s.tops, s.pwr, s.integ, s.fab.bpm, s.now)

/-- What steering leaves of the time base. -/
def baseView (t : Tim) := (t.lastParent, t.parent, t.master, t.started, t.stratum)

/-- What steering keeps, and what it notes of the exchange. -/
def steerView (s : State) := (untimedView s, baseView s.fab.tim, s.mgt, s.fab.tim.offsetPs, s.fab.tim.good)

theorem steerView_schedErr {b : Nat} : steerView (schedErr s b) = steerView s := rfl

theorem steerView_jumpTime {n : Nat} : steerView (jumpTime s n) = steerView s := rfl

theorem steerView_setTim {f : Tim → Tim} (h : ∀ t, (baseView (f t), (f t).offsetPs, (f t).good) = (baseView t, t.offsetPs, t.good)) :
    steerView (setTim s f) = steerView s :=
  (congrArg (fun x => (untimedView s, x.1, s.mgt, x.2.1, x.2.2)) (h s.fab.tim) :)

theorem steerView_steered : steerView (steered s off) = steerView (noteOffset s off) := by
  unfold steered
  split
  · exact steerView_jumpTime
  split
  · exact steerView_schedErr.trans (steerView_setTim fun _ => rfl)
  · exact steerView_setTim fun _ => rfl

theorem steered_keeps : let t := steered s off
    untimedView t = untimedView s ∧ baseView t.fab.tim = baseView s.fab.tim ∧ t.mgt = s.mgt ∧ t.fab.tim.offsetPs = off ∧
    t.fab.tim.good = if off.natAbs ≤ 2000 then s.fab.tim.good + 1 else 0 := by
  have h := steerView_steered (s := s) (off := off)
  exact ⟨(congrArg (·.1) h :), (congrArg (·.2.1) h :), (congrArg (·.2.2.1) h :), (congrArg (·.2.2.2.1) h :), (congrArg (·.2.2.2.2) h :)⟩

theorem steered_time : let t := steered s off
    t.fabricTime = (if s.mgt.st = .sync then ((s.fabricTime : Int) + (off + 500) / 1000).toNat else s.fabricTime) ∧
    (s.mgt.st ≠ .sync → t.fab.tim.slew = (off + 500) / 1000) ∧
    (s.mgt.st ≠ .sync → 1000000 < off.natAbs →
      t.fab.tim.state = 3 ∧ t.fab.tim.errBits = s.fab.tim.errBits ||| 8 ∧ t.attn = s.attn ||| aSched) ∧
    (off.natAbs ≤ 1000000 → t.attn = s.attn ∧ t.fab.tim.errBits = s.fab.tim.errBits) := by
  intro t
  have ht : t = steered s off := rfl
  clear_value t
  unfold steered at ht
  by_cases hst : s.mgt.st = .sync
  · rw [if_pos hst] at ht ⊢
    generalize ((s.fabricTime : Int) + (off + 500) / 1000).toNat = n at ht ⊢
    subst ht
    exact ⟨rfl, fun h => absurd hst h, fun h => absurd hst h, fun _ => ⟨rfl, rfl⟩⟩
  rw [if_neg hst] at ht ⊢
  by_cases hfar : 1000000 < off.natAbs
  · rw [if_pos hfar] at ht
    subst ht
    exact ⟨rfl, fun _ => rfl, fun _ _ => ⟨rfl, rfl, rfl⟩, fun h => absurd hfar (Nat.not_lt.mpr h)⟩
  · rw [if_neg hfar] at ht
    subst ht
    exact ⟨rfl, fun _ => rfl, fun _ h => absurd h hfar, fun _ => ⟨rfl, rfl⟩⟩

/-- The time base of a module that locks (R304, R306). -/
def lockedBase (stratum : Nat) (t : Tim) : Tim :=
  if t.master then { t with state := 1, stratum := 0, started := true, parent := none, slew := 0 }
  else { t with state := 1, stratum := min 254 (stratum + 1) }

/-- What a lock changes (R304, R306, R509). -/
theorem lockTime_locks : let t := lockTime s stratum
    untimedView t = untimedView s ∧ t.fabricTime = s.fabricTime ∧ t.attn = s.attn ∧
    (t.fab.tim.offsetPs, t.fab.tim.lastParent, t.fab.tim.good, t.fab.tim.errBits) =
      (s.fab.tim.offsetPs, s.fab.tim.lastParent, s.fab.tim.good, s.fab.tim.errBits) ∧
    t.fab.tim.state = 1 ∧
    (if s.fab.tim.master then t.fab.tim.stratum = 0 ∧ t.fab.tim.started = true ∧ t.fab.tim.parent = none ∧ t.fab.tim.slew = 0 ∧
        t.mgt = s.mgt
      else t.fab.tim.stratum = min 254 (stratum + 1) ∧ t.mgt = (if s.mgt.st = .sync then
        { s.mgt with st := .ready, bootMs := (s.now - s.mgt.bootAt) / 1000000 % 2 ^ 32 } else s.mgt)) := by
  intro t
  have ht : t = lockTime s stratum := rfl
  clear_value t
  unfold lockTime at ht
  cases hm : s.fab.tim.master with
  | true =>
    have htim : setTim s (lockedBase stratum) = setTim s (fun t => { t with state := 1, stratum := 0, started := true, parent := none, slew := 0 }) :=
      congrArg (fun x : Tim => ({ s with fab := { s.fab with tim := x } } : State)) (if_pos hm)
    change t = (if (decide ((setTim s (lockedBase stratum)).mgt.st = .sync) && !(setTim s (lockedBase stratum)).fab.tim.master) = true
      then endBoot (setTim s (lockedBase stratum)) .ready else setTim s (lockedBase stratum)) at ht
    rw [htim, if_neg (by simp [setTim, hm])] at ht
    subst ht
    exact ⟨rfl, rfl, rfl, rfl, rfl, rfl, rfl, rfl, rfl, rfl⟩
  | false =>
    have htim : setTim s (lockedBase stratum) = setTim s (fun t => { t with state := 1, stratum := min 254 (stratum + 1) }) :=
      congrArg (fun x : Tim => ({ s with fab := { s.fab with tim := x } } : State)) (if_neg (by rw [hm]; exact Bool.false_ne_true))
    change t = (if (decide ((setTim s (lockedBase stratum)).mgt.st = .sync) && !(setTim s (lockedBase stratum)).fab.tim.master) = true
      then endBoot (setTim s (lockedBase stratum)) .ready else setTim s (lockedBase stratum)) at ht
    rw [htim] at ht
    by_cases hst : s.mgt.st = .sync
    · rw [if_pos (by simp [setTim, hm, hst])] at ht
      subst ht
      exact ⟨rfl, rfl, rfl, rfl, rfl, rfl, (if_pos hst).symm⟩
    · rw [if_neg (by simp [setTim, hst])] at ht
      subst ht
      exact ⟨rfl, rfl, rfl, rfl, rfl, rfl, (if_neg hst).symm⟩

/-- One exchange: what it notes, how it steers, and what a lock on it changes (R304, R306, R509). -/
theorem exchange_acts : let t := exchange s off stratum
    let locks := off.natAbs ≤ 2000 ∧ 2 ≤ s.fab.tim.good
    untimedView t = untimedView s ∧ t.fab.tim.offsetPs = off ∧ t.fab.tim.lastParent = s.fab.tim.lastParent ∧
    t.fab.tim.good = (if off.natAbs ≤ 2000 then s.fab.tim.good + 1 else 0) ∧
    t.fabricTime = (if s.mgt.st = .sync then ((s.fabricTime : Int) + (off + 500) / 1000).toNat else s.fabricTime) ∧
    (¬ locks → s.mgt.st ≠ .sync → t.fab.tim.slew = (off + 500) / 1000) ∧
    (¬ locks → s.mgt.st ≠ .sync → 1000000 < off.natAbs →
      t.fab.tim.state = 3 ∧ t.fab.tim.errBits = s.fab.tim.errBits ||| 8 ∧ t.attn = s.attn ||| aSched) ∧
    (off.natAbs ≤ 1000000 → t.attn = s.attn ∧ t.fab.tim.errBits = s.fab.tim.errBits) ∧
    (¬ locks → t.mgt = s.mgt ∧ t.fab.tim.parent = s.fab.tim.parent ∧ t.fab.tim.stratum = s.fab.tim.stratum) ∧
    (locks → t.fab.tim.state = 1 ∧
      (if s.fab.tim.master then t.fab.tim.stratum = 0 ∧ t.fab.tim.started = true ∧ t.fab.tim.parent = none ∧ t.fab.tim.slew = 0 ∧
          t.mgt = s.mgt
        else t.fab.tim.stratum = min 254 (stratum + 1) ∧ t.mgt = (if s.mgt.st = .sync then
          { s.mgt with st := .ready, bootMs := (s.now - s.mgt.bootAt) / 1000000 % 2 ^ 32 } else s.mgt))) := by
  intro t locks
  have ht : t = if off.natAbs ≤ 2000 ∧ 2 ≤ s.fab.tim.good then lockTime (steered s off) stratum else steered s off := exchange_eq
  clear_value t
  obtain ⟨hview, hbase, hmgt, hoff, hgood⟩ := steered_keeps (s := s) (off := off)
  obtain ⟨htime, hslew, hfar, hnear⟩ := steered_time (s := s) (off := off)
  have hlast := congrArg (·.1) hbase
  have hparent := congrArg (·.2.1) hbase
  have hmaster := congrArg (·.2.2.1) hbase
  have hstratum := congrArg (·.2.2.2.2) hbase
  have hnow := congrArg (·.2.2.2.2.2.2) hview
  by_cases hlock : off.natAbs ≤ 2000 ∧ 2 ≤ s.fab.tim.good
  · rw [if_pos hlock] at ht
    obtain ⟨hlview, hltime, hlattn, hlbase, hlstate, hlrest⟩ := lockTime_locks (s := steered s off) (stratum := stratum)
    rw [← ht] at hlview hltime hlattn hlbase hlstate hlrest
    have hloff := congrArg (·.1) hlbase
    have hllast := congrArg (·.2.1) hlbase
    have hlgood := congrArg (·.2.2.1) hlbase
    have hlerr := congrArg (·.2.2.2) hlbase
    rw [show (steered s off).fab.tim.master = s.fab.tim.master from hmaster, hmgt, show (steered s off).now = s.now from hnow] at hlrest
    refine ⟨hlview.trans hview, hloff.trans hoff, hllast.trans hlast, hlgood.trans hgood, hltime.trans htime, fun h => absurd hlock h,
      fun h => absurd hlock h, fun h => ?_, fun h => absurd hlock h, fun _ => ⟨hlstate, hlrest⟩⟩
    obtain ⟨ha, he⟩ := hnear h
    exact ⟨hlattn.trans ha, hlerr.trans he⟩
  · rw [if_neg hlock] at ht
    subst ht
    exact ⟨hview, hoff, hlast, hgood, htime, fun _ => hslew, fun _ => hfar, hnear, fun _ => ⟨hmgt, hparent, hstratum⟩,
      fun h => absurd h hlock⟩

/-- A TIME frame of the parent that the module keeps is one exchange with it. -/
theorem recvTime_exchanges (hk : keepsTime s = true) (hs : steersAlone s = false) (hp : s.fab.tim.parent = some p)
    (hc : chooseParent (setPort s p (portTimed u s.fabricTime s.now)) = some p) (hg : leVal (slice u.payload 8 8) ≠ 0) :
    let g (off n : Nat) := leVal (slice u.payload off n)
    let off : Int := 1000 * ((g 0 8 : Nat) - (s.fabricTime : Int)) + 500 * (((s.fabricTime : Int) - (g 8 8 : Nat)) - ((g 0 8 : Nat) - (g 16 8 : Nat)))
    recvTime s p u = exchange (setTim (setPort s p (portTimed u s.fabricTime s.now)) (fun t => { below (g 40 1) t with lastParent := s.now }))
      off (g 40 1) := by
  intro g off
  have hport : portAt (setPort s p (portTimed u s.fabricTime s.now)) p = portTimed u s.fabricTime s.now (portAt s p) :=
    portAt_setPort.trans (if_pos rfl)
  have hretake : retakeParent (setPort s p (portTimed u s.fabricTime s.now)) =
      setTim (setPort s p (portTimed u s.fabricTime s.now)) (below (g 40 1)) := by
    unfold retakeParent
    rw [if_neg (by rw [show steersAlone (setPort s p _) = steersAlone s from rfl, hs]; exact Bool.false_ne_true), hc,
      show (setPort s p (portTimed u s.fabricTime s.now)).fab.tim.parent = some p from hp]
    dsimp only
    rw [if_pos rfl, followStratum_eq, hport]
    rfl
  unfold recvTime
  extract_lets t4 st s1 s2
  rw [if_neg (by rw [show keepsTime s1 = keepsTime s from rfl, hk]; simp)]
  have hs2 : s2 = setTim (setPort s p (portTimed u s.fabricTime s.now)) (below (g 40 1)) := hretake
  clear_value s2
  subst hs2
  have hparent : (setTim (setPort s p (portTimed u s.fabricTime s.now)) (below (g 40 1))).fab.tim.parent = some p := hp
  have halone : steersAlone (setTim (setPort s p (portTimed u s.fabricTime s.now)) (below (g 40 1))) = false := hs
  dsimp only
  rw [if_pos (by rw [hparent, halone]; simp)]
  exact if_neg hg

theorem timeFrame_steers (hport : portOf s l = some p) (hst : (laneAt s l).st = .up) (hh : unitHeaderOk (asType 10 u) = true)
    (hcrc : crc32c u.payload = u.crc) (ha : typeAllowed s l (asType 10 u) = true) (hk : keepsTime s = true)
    (hs : steersAlone s = false) (hp : s.fab.tim.parent = some p)
    (hc : chooseParent (setPort s p (portTimed u s.fabricTime s.now)) = some p) (hg : leVal (slice u.payload 8 8) ≠ 0) :
    let g (off n : Nat) := leVal (slice u.payload off n)
    let off : Int := 1000 * ((g 0 8 : Nat) - (s.fabricTime : Int)) + 500 * (((s.fabricTime : Int) - (g 8 8 : Nat)) - ((g 0 8 : Nat) - (g 16 8 : Nat)))
    ∃ r, exec (.timeFrame l u) s = .next (traced s (exchange r off (g 40 1))) ∧ untimedView r = untimedView s ∧
      r.fab.tim = { below (g 40 1) s.fab.tim with lastParent := s.now } ∧ r.mgt = s.mgt ∧ r.fabricTime = s.fabricTime ∧
      r.attn = s.attn := by
  intro g off
  obtain ⟨hports, htim, hbpm, hbeyond⟩ := noteAccepted_frame (s := s) (l := l)
  have hattn : (noteAccepted s l).attn = s.attn := by
    unfold noteAccepted
    dsimp only
    split <;> rfl
  have hlanes (j : Nat) : (laneAt (noteAccepted s l) j).st = (laneAt s j).st := by
    rw [laneAt_noteAccepted]
    split
    next h => rw [← h]; rfl
    next => rfl
  have hmgt : (noteAccepted s l).mgt = s.mgt := (congrArg State.mgt hbeyond :)
  have hnow : (noteAccepted s l).now = s.now := (congrArg State.now hbeyond :)
  have htime : (noteAccepted s l).fabricTime = s.fabricTime := (congrArg State.fabricTime hbeyond :)
  have hview : untimedView (noteAccepted s l) = untimedView s := by
    have h := congrArg (fun x : State => (x.coll, x.comp, x.tops, x.pwr, x.integ, s.fab.bpm, x.now)) hbeyond
    unfold untimedView
    rw [hbpm]
    exact h
  have hrun : receive s l (asType 10 u) = recvTime (noteAccepted s l) p (asType 10 u) := receive_linkLocal hport (.inl hst) hh hcrc rfl ha
  generalize noteAccepted s l = n at *
  have hchoose : chooseParent (setPort n p (portTimed u n.fabricTime n.now)) = some p := by
    rw [htime, hnow]
    refine (chooseParent_congr (s := setPort s p (portTimed u s.fabricTime s.now))
      (t := setPort n p (portTimed u s.fabricTime s.now)) ?_ ?_ hnow hlanes).trans hc
    · exact htim
    · show insertKey n.fab.ports p _ = insertKey s.fab.ports p _
      rw [hports, portAt_of_ports hports]
  have hex := recvTime_exchanges (s := n) (p := p) (u := asType 10 u) (by unfold keepsTime at hk ⊢; rw [hmgt]; exact hk)
    (by unfold steersAlone at hs ⊢; rw [htim]; exact hs) (by rw [htim]; exact hp) hchoose hg
  dsimp only at hex
  rw [htime] at hex
  refine ⟨setTim (setPort n p (portTimed u s.fabricTime n.now)) (fun t => { below (g 40 1) t with lastParent := n.now }), ?_, hview, ?_,
    hmgt, htime, hattn⟩
  · rw [exec_unitOf (c := .timeFrame l u) rfl, hrun, hex]
    rfl
  · show { below (g 40 1) n.fab.tim with lastParent := n.now } = _
    rw [htim, hnow]

end Exchange

/-- Settles O44: a time base follows a parent's exchanges, and without one holds over or, as the master, starts its time. -/
theorem fabricTimeIsKept : Obligations.FabricTimeIsKept := by
  unfold Obligations.FabricTimeIsKept
  refine ⟨fun s h => timeSend_sends h, fun s hk hs hd => timeParentTimeout_turns hk hs hd,
    fun s hm hs hst hd hc => masterTimeStart_starts hm hs hst hd hc,
    fun s hst hm hd => ⟨_, congrArg (fun t => Host.Outcome.next (traced s t)) (masterSyncElapsed_ends hst hm hd), rfl⟩,
    fun s hst ht hd => ⟨_, congrArg (fun t => Host.Outcome.next (traced s t)) (syncTimeout_reports hst ht hd), rfl⟩, ?_⟩
  intro l p u s v g heard off ns T hport hst hh hcrc ha hk hs hp hc hg
  obtain ⟨r, hexec, hview, htim, hmgt, htime, hattn⟩ := timeFrame_steers hport hst hh hcrc ha hk hs hp hc hg
  have hex := exchange_acts (s := r) (off := off) (stratum := g 40 1)
  have hnow : r.now = s.now := congrArg (·.2.2.2.2.2.2) hview
  have hbase : (r.fab.tim.good, r.fab.tim.errBits, r.fab.tim.master, r.fab.tim.parent, r.fab.tim.stratum, r.fab.tim.lastParent) =
      (T.good, T.errBits, T.master, T.parent, (if T.stratum = 0xFF then 0xFF else min 254 (g 40 1 + 1)), s.now) :=
    (congrArg (fun x : Tim => (x.good, x.errBits, x.master, x.parent, x.stratum, x.lastParent)) htim :)
  simp only [Prod.mk.injEq] at hbase
  obtain ⟨hgood, herr, hmaster, hparent, hstratum, hlast⟩ := hbase
  dsimp only at hex
  rw [hgood, herr, hmaster, hparent, hstratum, hlast, hmgt, htime, hattn, hnow] at hex
  generalize exchange r off (g 40 1) = t at hex hexec
  obtain ⟨huntimed, hoff, hlast, hgood, htime, hslew, hfar, hnear, hkeep, hlock⟩ := hex
  have hall := huntimed.trans hview
  exact ⟨_, hexec, hoff, hlast, hgood, htime, ⟨hslew, hfar, hnear, fun h => ⟨(hkeep h).1, (hkeep h).2.1.trans hp, (hkeep h).2.2⟩, hlock⟩,
    congrArg (·.1) hall, congrArg (·.2.1) hall, congrArg (·.2.2.1) hall, congrArg (·.2.2.2.1) hall, congrArg (·.2.2.2.2.1) hall,
    congrArg (·.2.2.2.2.2.1) hall⟩

end Sys2Proof.Machine
end

section
/-! What the image and the firmware set (R22, R509 to R517, R523): the state without it, and where Holly comes to. -/

namespace Sys2Proof.Machine

/-- The state without the fields that a configuration image sets (R22), without the fabric and without the debug block. -/
def imageless (s : State) : State := { s with
  fab := {}, dbg := {}
  integ := { s.integ with residue := ({} : Integ).residue, dup := 0, shortWaitUs := 0 }
  pwr := { s.pwr with capW := 0, windowUs := 0, vcompMax := 0, rails := [] }
  mgt := { s.mgt with stageMib := [], queueJobs := [], topiaryKeys := [], hostRoots := [], addrs := ({} : Mgt).addrs, udpPort := 0 } }

section Image

variable {s : State}

theorem imageless_ite {c : Prop} [Decidable c] {x y : State} (hx : imageless x = imageless s) (hy : imageless y = imageless s) :
    imageless (if c then x else y) = imageless s := by
  split
  · exact hx
  · exact hy

theorem imageless_setLane {l : Nat} {f : Lane → Lane} : imageless (setLane s l f) = imageless s := rfl

theorem imageless_setPort {p : Nat} {f : Port → Port} : imageless (setPort s p f) = imageless s := rfl

theorem imageless_cfgPort {p : Nat} {f : Port → Port} : imageless (cfgPort s p f) = imageless s := imageless_ite rfl imageless_setPort

theorem imageless_setRail {r : Nat} {f : Rail → Rail} : imageless (setRail s r f) = imageless s := rfl

/-- A record takes effect on the fields of the image and no other. -/
theorem imageless_applyRecord (r : CfgRecord) : imageless (applyRecord s r) = imageless s := by
  cases r with
  | domain | twin | time | link | sessions | early | integ | queues | topiaryKeys | hostRoots | mgmt => rfl
  | lanes ps =>
    exact foldl_keeps (fun _ _ => (foldl_keeps (fun _ _ => imageless_setLane) _ _).trans imageless_setPort) _ _
  | pools inst sized cells levels maxes mib => exact imageless_ite rfl rfl
  | policers ps ms => exact foldl_keeps (fun _ _ => imageless_cfgPort) _ _
  | sched cw jw oh ages =>
    exact (foldl_keeps (v := imageless) (fun _ _ => imageless_cfgPort) _ _).trans (foldl_keeps (fun _ _ => imageless_cfgPort) _ _)
  | power cap w v ls => exact foldl_keeps (fun _ _ => imageless_setRail) _ _
  | trace t m dest logs => exact foldl_keeps (fun _ _ => imageless_setPort) _ _

theorem imageless_takeImage : imageless (takeImage s) = imageless s := by
  unfold takeImage
  extract_lets recs rs fab ordered
  have hfold : imageless (ordered.foldl applyRecord (imageDefaults { s with fab := fab })) = imageless (imageDefaults { s with fab := fab }) :=
    foldl_keeps (fun _ r => imageless_applyRecord r) _ _
  exact (hfold.trans rfl : _ = imageless s)

/-! ### RECOVERY and CONFIG -/

/-- The management block in CONFIG with an image (R509). -/
def configMgt (bs : List Byte) (m : Mgt) : Mgt :=
  { m with st := .config, cfgBytes := imageOf bs, records := parseRecords (imageBody (imageOf bs)).length (imageBody (imageOf bs)) }

/-- The management block in RECOVERY (R517). -/
def recoveryMgt (c : Nat) (m : Mgt) : Mgt := { m with st := .recovery, cause := c }

theorem imageless_enterConfig {bs : List Byte} : imageless (enterConfig s bs) = imageless (setMgt s (configMgt bs)) := imageless_takeImage

theorem imageless_enterRecovery {c : Nat} : imageless (enterRecovery s c) = imageless (setMgt s (recoveryMgt c)) := by
  unfold enterRecovery
  refine imageless_ite (s := setMgt s (recoveryMgt c)) rfl ?_
  exact foldl_keeps (fun _ _ => imageless_setLane.trans imageless_setPort) _ _

theorem configCause_congr {t : State} {bs : List Byte} (h : t.mgt.custKey = s.mgt.custKey) : configCause t bs = configCause s bs := by
  unfold configCause
  rw [h]

theorem firmwareCause_congr {t : State} {bs : List Byte} (h : t.mgt.fuses = s.mgt.fuses) : firmwareCause t bs = firmwareCause s bs := by
  unfold firmwareCause
  rw [h]

/-- A NOR configuration image that verifies is entered. -/
theorem checkConfig_verified (h : configCause s s.mgt.nor.config = 0) : checkConfig s = enterConfig s s.mgt.nor.config := by
  unfold checkConfig
  rw [h]
  rfl

/-- Without a pushed image in reserve, a NOR image that does not verify leads to RECOVERY. -/
theorem checkConfig_fails (h : configCause s s.mgt.nor.config ≠ 0) (hs : s.mgt.stagedCfg = none) :
    checkConfig s = enterRecovery s (configCause s s.mgt.nor.config) := by
  unfold checkConfig
  rw [hs]
  split
  next h0 => exact absurd h0 h
  next => rfl

/-- Where a checked configuration leads (R509, R517): CONFIG with an image, or RECOVERY with the cause of the NOR's. -/
theorem checkConfig_ends : (∃ bs, imageless (checkConfig s) = imageless (setMgt s (configMgt bs))) ∨
    imageless (checkConfig s) = imageless (setMgt s (recoveryMgt (configCause s s.mgt.nor.config))) := by
  by_cases h : configCause s s.mgt.nor.config = 0
  · rw [checkConfig_verified h]
    exact .inl ⟨_, imageless_enterConfig⟩
  cases hs : s.mgt.stagedCfg with
  | none =>
    rw [checkConfig_fails h hs]
    exact .inr imageless_enterRecovery
  | some x =>
    have hcheck : checkConfig s = if x.verified then enterConfig s x.bytes else enterRecovery s (configCause s s.mgt.nor.config) := by
      unfold checkConfig
      rw [hs]
      split
      next h0 => exact absurd h0 h
      next => rfl
    rw [hcheck]
    split
    · exact .inl ⟨_, imageless_enterConfig⟩
    · exact .inr imageless_enterRecovery

/-! ### Remaps at BOOT (R49, R229) -/

/-- What a remap reads and changes of the integrity block. -/
def remapView (i : Integ) := (i.quar, i.spares, i.remaps, i.remapPending, i.remapReady)

theorem remapView_applyRemap {t : State} {unit die logical : Nat} (h : remapView t.integ = remapView s.integ) :
    remapView (applyRemap t unit die logical).integ = remapView (applyRemap s unit die logical).integ := by
  simp only [remapView, Prod.mk.injEq] at h
  obtain ⟨hq, hsp, hr, hpend, hready⟩ := h
  have hfree : spareFree t unit die logical = spareFree s unit die logical := by
    unfold spareFree
    rw [hsp]
  unfold applyRemap
  dsimp only
  rw [hfree]
  split
  · simp only [remapView, hq, hsp, hr, hpend, hready]
  · simp only [remapView, setInteg, hq, hsp, hr, hpend, hready]

theorem remapView_applyFused {t : State} (h : remapView t.integ = remapView s.integ) :
    remapView (applyFused t).integ = remapView (applyFused s).integ := by
  have hlists : t.integ.remapReady = s.integ.remapReady ∧ t.integ.remapPending = s.integ.remapPending := by
    simp only [remapView, Prod.mk.injEq] at h
    exact ⟨h.2.2.2.2, h.2.2.2.1⟩
  unfold applyFused
  rw [hlists.1, hlists.2]
  generalize s.integ.remapReady ++ s.integ.remapPending = rs
  induction rs generalizing s t with
  | nil => exact h
  | cons r rs ih =>
    exact ih (remapView_applyRemap h) ⟨by
      have h' := remapView_applyRemap (unit := r.unit) (die := r.die) (logical := r.logical) h
      simp only [remapView, Prod.mk.injEq] at h'
      exact h'.2.2.2.2, by
      have h' := remapView_applyRemap (unit := r.unit) (die := r.die) (logical := r.logical) h
      simp only [remapView, Prod.mk.injEq] at h'
      exact h'.2.2.2.1⟩

/-- Remaps change the integrity block and drop translations, no more. -/
def tlbless (s : State) : State := { s with integ := {}, comp := { s.comp with tlb := [] } }

theorem applyRemap_keeps {unit die logical : Nat} : tlbless (applyRemap s unit die logical) = tlbless s ∧
    (s.comp.tlb = [] → (applyRemap s unit die logical).comp.tlb = []) := by
  unfold applyRemap
  dsimp only
  split
  · exact ⟨rfl, id⟩
  · refine ⟨rfl, fun h => ?_⟩
    show List.map _ s.comp.tlb = []
    rw [h, List.map_nil]

theorem applyFused_keeps : tlbless (applyFused s) = tlbless s ∧ (s.comp.tlb = [] → (applyFused s).comp.tlb = []) := by
  unfold applyFused
  generalize s.integ.remapReady ++ s.integ.remapPending = rs
  induction rs generalizing s with
  | nil => exact ⟨rfl, id⟩
  | cons r rs ih =>
    obtain ⟨hone, htlb⟩ := applyRemap_keeps (s := s) (unit := r.unit) (die := r.die) (logical := r.logical)
    obtain ⟨hrest, hrestTlb⟩ := ih (s := applyRemap s r.unit r.die r.logical)
    exact ⟨hrest.trans hone, fun h => hrestTlb (htlb h)⟩

/-! ### Holly (R510, R511) -/

/-- The management block at BOOT step 2: the fuses read, no firmware and no pushed image. -/
def bootMgt (m : Mgt) : Mgt := { m with custKey := m.fuses.custHash, fwRunning := false, stagedFw := none, stagedCfg := none }

/-- The module as Holly finds it at BOOT step 2: the fused remaps applied, the straps and fuses read. -/
def hollyReads (s : State) : State :=
  let s := applyFused s
  let s := { s with fab := { s.fab with twin := { s.fab.twin with strap := s.pins.twinSide } } }
  setMgt s bootMgt

theorem holly_eq : holly s = if !(hollyReads s).mgt.nor.answers then enterRecovery (hollyReads s) 1
    else match firmwareCause (hollyReads s) (hollyReads s).mgt.nor.firmware with
      | 0 => runFirmware (hollyReads s) (hollyReads s).mgt.nor.firmware 0
      | c => enterRecovery (hollyReads s) c := by
  unfold holly
  extract_lets s1 fb tw s2 s3
  have h3 : s3 = hollyReads s := rfl
  clear_value s3
  subst h3
  rfl

theorem mgt_hollyReads : (hollyReads s).mgt = bootMgt s.mgt :=
  congrArg bootMgt (congrArg State.mgt (applyFused_keeps (s := s)).1 :)

/-- Firmware that runs, in the management block (R517). -/
def firmwareMgt (bs : List Byte) (src : Nat) (m : Mgt) : Mgt :=
  { m with fwRunning := true, fwBytes := imageOf bs, fwSvn := leAt (imageOf bs) 8 4, fwSource := src }

theorem runFirmware_eq {bs : List Byte} {src : Nat} : runFirmware s bs src = checkConfig (setMgt s (firmwareMgt bs src)) := rfl

/-- The fields of the management block that Holly keeps. -/
def hollyKeeps (m : Mgt) := (m.fuses, m.nor, m.resetCause, m.sessions, m.serial, m.replies, m.bootAt)

/-- Holly sets the management block and what the image sets, on the module as it was found. -/
theorem imageless_holly : ∃ f : Mgt → Mgt, imageless (holly s) = imageless (setMgt (hollyReads s) f) ∧
    ∀ m, hollyKeeps (f m) = hollyKeeps m := by
  rw [holly_eq]
  split
  · exact ⟨recoveryMgt 1, imageless_enterRecovery, fun _ => rfl⟩
  split
  · rw [runFirmware_eq]
    rcases checkConfig_ends (s := setMgt (hollyReads s) (firmwareMgt (hollyReads s).mgt.nor.firmware 0)) with ⟨bs, h⟩ | h
    · exact ⟨fun m => configMgt bs (firmwareMgt (hollyReads s).mgt.nor.firmware 0 m), h, fun _ => rfl⟩
    · exact ⟨fun m => recoveryMgt _ (firmwareMgt (hollyReads s).mgt.nor.firmware 0 m), h, fun _ => rfl⟩
  · exact ⟨recoveryMgt _, imageless_enterRecovery, fun _ => rfl⟩

/-- Firmware of the NOR that runs comes to CONFIG or RECOVERY by the NOR's configuration image. -/
theorem runFirmware_ends {nor : Nor} {bs : List Byte} {cause : Nat} (hnor : s.mgt.nor = nor) (hs : s.mgt.stagedCfg = none)
    (hc : configCause (setMgt s (firmwareMgt bs 0)) nor.config = cause) :
    let t := runFirmware s bs 0
    t.mgt.fwRunning = true ∧ t.mgt.fwSource = 0 ∧ t.mgt.fwBytes = imageOf bs ∧
    (if cause = 0 then t.mgt.st = .config ∧ t.mgt.cfgBytes = imageOf nor.config else t.mgt.st = .recovery ∧ t.mgt.cause = cause) := by
  subst hnor
  subst hc
  intro t
  by_cases h : configCause (setMgt s (firmwareMgt bs 0)) s.mgt.nor.config = 0
  · have ht : t = enterConfig (setMgt s (firmwareMgt bs 0)) s.mgt.nor.config := checkConfig_verified (s := setMgt s (firmwareMgt bs 0)) h
    have hview : imageless t = imageless (setMgt (setMgt s (firmwareMgt bs 0)) (configMgt s.mgt.nor.config)) := by
      rw [ht, imageless_enterConfig]
    clear_value t
    rw [if_pos h]
    exact ⟨(congrArg (·.mgt.fwRunning) hview :), (congrArg (·.mgt.fwSource) hview :), (congrArg (·.mgt.fwBytes) hview :),
      (congrArg (·.mgt.st) hview :), (congrArg (·.mgt.cfgBytes) hview :)⟩
  · have ht : t = enterRecovery (setMgt s (firmwareMgt bs 0)) _ := checkConfig_fails (s := setMgt s (firmwareMgt bs 0)) h hs
    have hview := imageless_enterRecovery (s := setMgt s (firmwareMgt bs 0)) (c := configCause (setMgt s (firmwareMgt bs 0)) s.mgt.nor.config)
    rw [show enterRecovery (setMgt s (firmwareMgt bs 0)) (configCause (setMgt s (firmwareMgt bs 0)) s.mgt.nor.config) = t from ht.symm] at hview
    clear_value t
    rw [if_neg h]
    exact ⟨(congrArg (·.mgt.fwRunning) hview :), (congrArg (·.mgt.fwSource) hview :), (congrArg (·.mgt.fwBytes) hview :),
      (congrArg (·.mgt.st) hview :), (congrArg (·.mgt.cause) hview :)⟩

theorem holly_ends : hollyEnds s (holly s) := by
  have hm := mgt_hollyReads (s := s)
  have hfw : firmwareCause (hollyReads s) s.mgt.nor.firmware = firmwareCause s s.mgt.nor.firmware := firmwareCause_congr (by rw [hm]; rfl)
  have hcfg : configCause (setMgt (hollyReads s) (firmwareMgt s.mgt.nor.firmware 0)) s.mgt.nor.config =
      configCause (setMgt s (fun m => { m with custKey := m.fuses.custHash })) s.mgt.nor.config :=
    configCause_congr (congrArg Mgt.custKey hm :)
  have hnor : (hollyReads s).mgt.nor = s.mgt.nor := (congrArg Mgt.nor hm :)
  rw [holly_eq, hnor, hfw]
  unfold hollyEnds
  cases hans : s.mgt.nor.answers with
  | false =>
    have h := imageless_enterRecovery (s := hollyReads s) (c := 1)
    refine ⟨(congrArg (·.mgt.st) h :), (congrArg (·.mgt.cause) h :), ?_⟩
    exact (congrArg (·.mgt.fwRunning) h :).trans (congrArg Mgt.fwRunning hm :)
  | true =>
    show ite _ _ _
    by_cases hf : firmwareCause s s.mgt.nor.firmware = 0
    · rw [hf, if_neg (not_not_intro rfl)]
      exact runFirmware_ends hnor (congrArg Mgt.stagedCfg hm :) hcfg
    · rw [if_pos hf]
      have hmatch : (match firmwareCause s s.mgt.nor.firmware with
          | 0 => runFirmware (hollyReads s) s.mgt.nor.firmware 0
          | c => enterRecovery (hollyReads s) c) = enterRecovery (hollyReads s) (firmwareCause s s.mgt.nor.firmware) := by
        split
        next h0 => exact absurd h0 hf
        next => rfl
      have h := imageless_enterRecovery (s := hollyReads s) (c := firmwareCause s s.mgt.nor.firmware)
      rw [← hmatch] at h
      refine ⟨(congrArg (·.mgt.st) h :), (congrArg (·.mgt.cause) h :), ?_⟩
      exact (congrArg (·.mgt.fwRunning) h :).trans (congrArg Mgt.fwRunning hm :)

end Image

end Sys2Proof.Machine
end

section
/-! A module reset and what Holly makes of it (R22, R509 to R511), CONFIG_APPLY (R523, R524), and the obligation O50. -/

namespace Sys2Proof.Machine

section Reset

variable {s r t : State}

theorem hollyEnds_congr (hn : r.mgt.nor = s.mgt.nor) (hf : r.mgt.fuses = s.mgt.fuses) (h : hollyEnds r t) : hollyEnds s t := by
  have hfw : firmwareCause r s.mgt.nor.firmware = firmwareCause s s.mgt.nor.firmware := firmwareCause_congr hf
  have hcfg : configCause (setMgt r (fun m => { m with custKey := m.fuses.custHash })) s.mgt.nor.config =
      configCause (setMgt s (fun m => { m with custKey := m.fuses.custHash })) s.mgt.nor.config :=
    configCause_congr (congrArg Fuses.custHash hf :)
  unfold hollyEnds at h ⊢
  rw [hn, hfw] at h
  dsimp only at h ⊢
  rw [hcfg] at h
  exact h

/-- What Holly keeps outside the compute dies, the fabric and the management block. -/
def outsideView (s : State) := (s.tops, s.coll, s.snap, s.attn, s.fabricTime, s.rings, s.now, s.grade, s.pwr.feeds, s.pins)

theorem outsideView_imageless : outsideView (imageless s) = outsideView s := rfl

theorem outsideView_tlbless : outsideView (tlbless s) = outsideView s := rfl

theorem outsideView_hollyReads {f : Mgt → Mgt} : outsideView (setMgt (hollyReads s) f) = outsideView (applyFused s) := by
  unfold hollyReads
  generalize applyFused s = t
  rfl

theorem noSession_reset {k c : Nat} : (sessAt (resetModule s c) k).valid = false := by
  have h : sessAt (resetModule s c) k = (List.replicate 8 ({} : Session)).getD k {} := rfl
  rw [h, List.getD_eq_getElem?_getD, List.getElem?_replicate]
  split <;> rfl

/-- What reset and the way on from it keep: everything but the fabric, the image's fields, the remaps and the boot state. -/
theorem holly_reset {c : Nat} (hp : s.pins.carrierReset = false) : HasReset s (holly (resetModule s c)) c := by
  obtain ⟨f, hview, hkeeps⟩ := imageless_holly (s := resetModule s c)
  have hmgt : hollyKeeps (holly (resetModule s c)).mgt = hollyKeeps (resetModule s c).mgt := by
    refine (congrArg (fun x : State => hollyKeeps x.mgt) hview :).trans ((hkeeps _).trans ?_)
    rw [mgt_hollyReads]
    rfl
  obtain ⟨hfused, htlb⟩ := applyFused_keeps (s := resetModule s c)
  have hint : remapView (holly (resetModule s c)).integ = remapView (applyFused s).integ :=
    (congrArg (fun x : State => remapView x.integ) hview :).trans (remapView_applyFused (t := resetModule s c) (s := s) rfl)
  have hcomp : (holly (resetModule s c)).comp = { mem := ddrOnly s.comp.mem } := by
    have h1 : (holly (resetModule s c)).comp = (applyFused (resetModule s c)).comp := (congrArg State.comp hview :)
    have h2 : ({ (applyFused (resetModule s c)).comp with tlb := [] } : Comp) = { mem := ddrOnly s.comp.mem } := (congrArg State.comp hfused :)
    have h3 := congrArg (fun x : Comp => { x with tlb := (applyFused (resetModule s c)).comp.tlb }) h2
    rw [htlb rfl] at h3
    exact h1.trans (((congrArg (fun ts => ({ (applyFused (resetModule s c)).comp with tlb := ts } : Comp)) (htlb rfl)).trans h2 :))
  have hrest : outsideView (holly (resetModule s c)) = outsideView (resetModule s c) := by
    have hholly := congrArg outsideView hview
    have hfuses := congrArg outsideView hfused
    rw [outsideView_imageless, outsideView_imageless, outsideView_hollyReads] at hholly
    rw [outsideView_tlbless, outsideView_tlbless] at hfuses
    exact hholly.trans hfuses
  simp only [outsideView, Prod.mk.injEq] at hrest
  obtain ⟨htops, hcoll, hsnap, hattn, htime, hrings, hnow, hgrade, hfeeds, hpins⟩ := hrest
  have hpin : (holly (resetModule s c)).pins.carrierReset = false := (congrArg (·.carrierReset) hpins).trans hp
  clear hview hfused
  generalize holly (resetModule s c) = t at *
  simp only [hollyKeeps, Prod.mk.injEq] at hmgt
  obtain ⟨hfuses, hnor, hcause, hsess, hserial, hreplies, -⟩ := hmgt
  simp only [remapView, Prod.mk.injEq] at hint
  obtain ⟨hquar, hspares, hremaps, -, -⟩ := hint
  refine ⟨hcause, ⟨fun k => ?_, htops, hcoll, hsnap, hattn, htime, hcomp⟩, hfuses, hnor, hfeeds, hrings, ?_, hserial, hnow, hreplies, hgrade⟩
  · unfold sessAt
    rw [hsess]
    exact noSession_reset
  · rw [hpin]
    exact ⟨hquar, hremaps, hspares⟩

/-- A reset that CARRIER_RESET_N holds (R588). -/
theorem resetModule_reset {c : Nat} (hp : s.pins.carrierReset = true) : HasReset s (resetModule s c) c where
  cause := rfl
  empty := ⟨fun _ => noSession_reset, rfl, rfl, rfl, rfl, rfl, rfl⟩
  kept := by
    refine ⟨rfl, rfl, rfl, rfl, ?_, rfl, rfl, rfl, rfl⟩
    rw [show (resetModule s c).pins.carrierReset = true from hp]
    exact ⟨rfl, rfl, rfl⟩

/-- What a reset reads of the module. -/
def resetView (s : State) := (s.mgt.fuses, s.mgt.nor, s.mgt.serial, s.mgt.replies, s.pwr.feeds, s.rings, s.now, s.grade, s.comp.mem,
  remapView s.integ)

theorem HasReset.congr {c : Nat} (h : HasReset r t c) (hv : resetView r = resetView s) : HasReset s t c := by
  simp only [resetView, Prod.mk.injEq] at hv
  obtain ⟨hfuses, hnor, hserial, hreplies, hfeeds, hrings, hnow, hgrade, hmem, hremap⟩ := hv
  have hfused : remapView (applyFused r).integ = remapView (applyFused s).integ := remapView_applyFused hremap
  simp only [remapView, Prod.mk.injEq] at hremap hfused
  obtain ⟨hquar, hspares, hremaps, -, -⟩ := hremap
  obtain ⟨hfquar, hfspares, hfremaps, -, -⟩ := hfused
  obtain ⟨hcause, hempty, hf, hn, hp, hr, hi, hs, hw, hy, hg⟩ := h
  refine ⟨hcause, hmem ▸ hempty, hf.trans hfuses, hn.trans hnor, hp.trans hfeeds, hr.trans hrings, ?_, hs.trans hserial, hw.trans hnow,
    hy.trans hreplies, hg.trans hgrade⟩
  by_cases hc : t.pins.carrierReset = true
  · simp only [if_pos hc] at hi ⊢
    exact ⟨hi.1.trans hquar, hi.2.1.trans hremaps, hi.2.2.trans hspares⟩
  · simp only [if_neg hc] at hi ⊢
    exact ⟨hi.1.trans hfquar, hi.2.1.trans hfremaps, hi.2.2.trans hfspares⟩

theorem HasReset.traced {c : Nat} (h : HasReset s t c) : HasReset s (traced r t) c := ⟨h.cause, h.empty, h.kept⟩

theorem hollyEnds_traced (h : hollyEnds s t) : hollyEnds s (traced r t) := h

theorem powerOn_resets {feed : Nat} {v : Int} (hfeed : feed < 2) (hlo : 4000 ≤ v) (hhi : v ≤ 6000)
    (hst : s.mgt.st = .off ∨ (s.mgt.st = .boot ∧ s.pwr.feeds.all (· == .absent) = true)) :
    ∃ t, exec (.powerOn feed v) s = .next t ∧
      HasReset (setPwr { s with rings := [], comp := {} } (fun p => { p with feeds := p.feeds.set feed .good })) t 0 ∧
      (if s.pins.carrierReset then t.mgt.st = .boot else hollyEnds s t) := by
  have hgood : feedState v = .good := by
    unfold feedState
    rw [if_neg (by omega), if_neg (by omega), if_neg (by omega), if_pos hhi]
  let p : Pwr := { s.pwr with feedV10 := s.pwr.feedV10.set feed v.toNat, feeds := s.pwr.feeds.set feed .good }
  let s1 : State := { s with pwr := { p with active := conducting p }, rings := [], comp := {} }
  have hrun : doPowerOn feed v s = resume (resetModule s1 0) := by
    unfold doPowerOn
    refine if_pos ?_
    rcases hst with h | ⟨h, hf⟩
    · simp [hfeed, hgood, h]
    · simp [hfeed, hgood, h, hf]
  refine ⟨_, congrArg (fun t => Host.Outcome.next (traced s t)) hrun, ?_⟩
  unfold resume
  cases hp : s.pins.carrierReset with
  | true =>
    rw [if_pos (show (resetModule s1 0).pins.carrierReset = true from hp)]
    refine ⟨((resetModule_reset (s := s1) hp).congr ?_).traced, rfl⟩
    rfl
  | false =>
    rw [if_neg (by rw [show (resetModule s1 0).pins.carrierReset = false from hp]; exact Bool.false_ne_true)]
    refine ⟨((holly_reset (s := s1) hp).congr ?_).traced, hollyEnds_traced (hollyEnds_congr (r := resetModule s1 0) rfl rfl holly_ends)⟩
    rfl

end Reset

/-! ### CONFIG_APPLY (R523, R524) -/

section Config

variable {s : State}

/-- Two records that may not stand twice do not stand together under one key. -/
def Apart (a b : CfgRecord) : Prop := ∀ k, onceKey a = some k → onceKey b ≠ some k

theorem acceptRecords_apart (own : Nat) (recs : List (Nat × List Byte)) (seen : List Nat) (i : Nat) :
    (∀ r ∈ (acceptRecords s own recs seen i).1, ∀ k, onceKey r = some k → k ∉ seen) ∧
    (acceptRecords s own recs seen i).1.Pairwise Apart := by
  induction recs generalizing seen i with
  | nil => exact ⟨nofun, .nil⟩
  | cons x recs ih =>
    obtain ⟨t, v⟩ := x
    unfold acceptRecords
    cases hd : decodeRecord t v with
    | none => exact ⟨nofun, .nil⟩
    | some r =>
      dsimp only
      by_cases hbad : (r.typ != t || !recordOk s own r || (onceKey r).any (fun k => seen.contains k)) = true
      · rw [if_pos hbad]
        exact ⟨nofun, .nil⟩
      · rw [if_neg hbad]
        obtain ⟨hseen, hpair⟩ := ih ((onceKey r).toList ++ seen) (i + 1)
        have hr : ∀ k, onceKey r = some k → k ∉ seen := by
          intro k hk hmem
          refine hbad ?_
          simp [hk, hmem]
        refine ⟨?_, List.pairwise_cons.mpr ⟨?_, hpair⟩⟩
        · intro y hy k hk
          rcases List.mem_cons.mp hy with rfl | hy
          · exact hr k hk
          · exact fun hmem => hseen y hy k hk (List.mem_append_right _ hmem)
        · intro y hy k hk hyk
          exact hseen y hy k hyk (List.mem_append_left _ (by simp [hk]))

/-- Under a key that may stand once there is one record. -/
theorem acceptRecords_unique {own i : Nat} {recs : List (Nat × List Byte)} {x y : CfgRecord} {k : Nat}
    (hx : x ∈ (acceptRecords s own recs [] i).1) (hy : y ∈ (acceptRecords s own recs [] i).1)
    (hkx : onceKey x = some k) (hky : onceKey y = some k) : x = y := by
  by_contra hne
  have hsymm : Std.Symm Apart := ⟨fun _ _ h k hb ha => h k ha hb⟩
  exact (acceptRecords_apart own recs [] i).2.forall hx hy hne k hkx hky

/-- What the records of one type each set. -/
def recordView (s : State) := ((s.fab.domain, s.fab.moduleIndex), s.mgt.queueJobs, s.mgt.topiaryKeys, s.mgt.hostRoots, s.mgt.addrs, s.mgt.udpPort)

theorem recordView_ite {c : Prop} [Decidable c] {x y : State} (hx : recordView x = recordView s) (hy : recordView y = recordView s) :
    recordView (if c then x else y) = recordView s := by
  split
  · exact hx
  · exact hy

theorem recordView_setLane {l : Nat} {f : Lane → Lane} : recordView (setLane s l f) = recordView s := rfl

theorem recordView_setPort {p : Nat} {f : Port → Port} : recordView (setPort s p f) = recordView s := rfl

theorem recordView_setRail {r : Nat} {f : Rail → Rail} : recordView (setRail s r f) = recordView s := rfl

theorem recordView_cfgPort {p : Nat} {f : Port → Port} : recordView (cfgPort s p f) = recordView s := recordView_ite rfl recordView_setPort

/-- What a record makes of that view. -/
theorem recordView_applyRecord (r : CfgRecord) : recordView (applyRecord s r) = match r with
    | .domain d i => ((d, i), (recordView s).2)
    | .queues js => ((recordView s).1, js, (recordView s).2.2)
    | .topiaryKeys ks => ((recordView s).1, (recordView s).2.1, ks, (recordView s).2.2.2)
    | .hostRoots ks => ((recordView s).1, (recordView s).2.1, (recordView s).2.2.1, ks, (recordView s).2.2.2.2)
    | .mgmt as n => ((recordView s).1, (recordView s).2.1, (recordView s).2.2.1, (recordView s).2.2.2.1, as, n)
    | _ => recordView s := by
  cases r with
  | domain | twin | time | link | sessions | early | integ | queues | topiaryKeys | hostRoots | mgmt => rfl
  | lanes ps =>
    exact foldl_keeps (fun _ _ => (foldl_keeps (fun _ _ => recordView_setLane) _ _).trans recordView_setPort) _ _
  | pools inst sized cells levels maxes mib => exact recordView_ite rfl rfl
  | policers ps ms => exact foldl_keeps (fun _ _ => recordView_cfgPort) _ _
  | sched cw jw oh ages =>
    exact (foldl_keeps (v := recordView) (fun _ _ => recordView_cfgPort) _ _).trans (foldl_keeps (fun _ _ => recordView_cfgPort) _ _)
  | power cap w v ls => exact foldl_keeps (fun _ _ => recordView_setRail) _ _
  | trace t m dest logs => exact foldl_keeps (fun _ _ => recordView_setPort) _ _

/-- What one record of a list sets and no other touches stands after all of them. -/
theorem foldl_applyRecord_sets {α : Type} {v : State → α} {x : CfgRecord} {a : α} {rs : List CfgRecord}
    (hset : ∀ s, v (applyRecord s x) = a) (hkeep : ∀ s, ∀ y ∈ rs, y ≠ x → v (applyRecord s y) = v s) (hx : x ∈ rs) :
    v (rs.foldl applyRecord s) = a := by
  induction rs using List.reverseRecOn with
  | nil => exact absurd hx List.not_mem_nil
  | append_singleton rs y ih =>
    rw [List.foldl_append, List.foldl_cons, List.foldl_nil]
    by_cases hy : y = x
    · rw [hy]
      exact hset _
    · rw [hkeep _ y (by simp) hy]
      refine ih (fun s z hz => hkeep s z (List.mem_append_left _ hz)) ?_
      rcases List.mem_append.mp hx with h | h
      · exact h
      · exact absurd (List.mem_singleton.mp h).symm hy

/-- The records of an image that are accepted. -/
def imageRecords (s : State) : List CfgRecord := (acceptRecords s (imageIndex s.mgt.records) s.mgt.records [] 0).1

/-- They take effect in the order of what builds on what. -/
def orderedRecords (s : State) : List CfgRecord :=
  (List.range 4).flatMap (fun k => (imageRecords s).filter (fun r => recordOrder r == k))

theorem mem_orderedRecords {r : CfgRecord} : r ∈ orderedRecords s ↔ r ∈ imageRecords s := by
  have hlt : recordOrder r < 4 := by
    unfold recordOrder
    split <;> decide
  unfold orderedRecords
  simp [List.mem_flatMap, List.mem_filter, hlt]

/-- What one type of record sets stands in force with the image. -/
theorem takeImage_sets {α : Type} {v : State → α} {x : CfgRecord} {a : α} {k : Nat} (hport : ∀ s, v (setTwinPort s) = v s)
    (hset : ∀ s, v (applyRecord s x) = a) (hkeep : ∀ s y, onceKey y ≠ some k → v (applyRecord s y) = v s) (hk : onceKey x = some k)
    (hx : x ∈ imageRecords s) : v (takeImage s) = a := by
  refine (hport _).trans (foldl_applyRecord_sets (rs := orderedRecords s) hset (fun r y hy hne => hkeep r y fun hky => ?_)
    (mem_orderedRecords.mpr hx))
  exact hne (acceptRecords_unique (mem_orderedRecords.mp hy) hx hky hk)

/-- The content of the records that set what one reads of them: each field and the type that sets it. -/
theorem recordView_takeImage :
    (∀ d i, .domain d i ∈ imageRecords s → (recordView (takeImage s)).1 = (d, i)) ∧
    (∀ js, .queues js ∈ imageRecords s → (recordView (takeImage s)).2.1 = js) ∧
    (∀ ks, .topiaryKeys ks ∈ imageRecords s → (recordView (takeImage s)).2.2.1 = ks) ∧
    (∀ ks, .hostRoots ks ∈ imageRecords s → (recordView (takeImage s)).2.2.2.1 = ks) ∧
    (∀ as n, .mgmt as n ∈ imageRecords s → (recordView (takeImage s)).2.2.2.2 = (as, n)) := by
  refine ⟨fun d i h => ?_, fun js h => ?_, fun ks h => ?_, fun ks h => ?_, fun as n h => ?_⟩
  · refine takeImage_sets (v := fun s => (recordView s).1) (k := 1) (fun _ => rfl) (fun _ => rfl) (fun r y hy => ?_) rfl h
    rw [recordView_applyRecord]
    cases y with
    | domain => exact absurd rfl hy
    | _ => rfl
  · refine takeImage_sets (v := fun s => (recordView s).2.1) (k := 0xE) (fun _ => rfl) (fun _ => rfl) (fun r y hy => ?_) rfl h
    rw [recordView_applyRecord]
    cases y with
    | queues => exact absurd rfl hy
    | _ => rfl
  · refine takeImage_sets (v := fun s => (recordView s).2.2.1) (k := 0xF) (fun _ => rfl) (fun _ => rfl) (fun r y hy => ?_) rfl h
    rw [recordView_applyRecord]
    cases y with
    | topiaryKeys => exact absurd rfl hy
    | _ => rfl
  · refine takeImage_sets (v := fun s => (recordView s).2.2.2.1) (k := 0x10) (fun _ => rfl) (fun _ => rfl) (fun r y hy => ?_) rfl h
    rw [recordView_applyRecord]
    cases y with
    | hostRoots => exact absurd rfl hy
    | _ => rfl
  · refine takeImage_sets (v := fun s => (recordView s).2.2.2.2) (k := 0x11) (fun _ => rfl) (fun _ => rfl) (fun r y hy => ?_) rfl h
    rw [recordView_applyRecord]
    cases y with
    | mgmt => exact absurd rfl hy
    | _ => rfl

/-- The number of rails. -/
def railCount (s : State) : Nat := s.pwr.rails.length

theorem railCount_setLane {l : Nat} {f : Lane → Lane} : railCount (setLane s l f) = railCount s := rfl

theorem railCount_setPort {p : Nat} {f : Port → Port} : railCount (setPort s p f) = railCount s := rfl

theorem railCount_setRail {r : Nat} {f : Rail → Rail} : railCount (setRail s r f) = railCount s := List.length_modify _ _ _

theorem railCount_ite {c : Prop} [Decidable c] {x y : State} (hx : railCount x = railCount s) (hy : railCount y = railCount s) :
    railCount (if c then x else y) = railCount s := by
  split
  · exact hx
  · exact hy

theorem railCount_cfgPort {p : Nat} {f : Port → Port} : railCount (cfgPort s p f) = railCount s := railCount_ite rfl railCount_setPort

/-- The number of rails stands through the records. -/
theorem railCount_applyRecord (r : CfgRecord) : railCount (applyRecord s r) = railCount s := by
  cases r with
  | domain | twin | time | link | sessions | early | integ | queues | topiaryKeys | hostRoots | mgmt => rfl
  | lanes ps =>
    exact foldl_keeps (fun _ _ => (foldl_keeps (fun _ _ => railCount_setLane) _ _).trans railCount_setPort) _ _
  | pools inst sized cells levels maxes mib => exact railCount_ite rfl rfl
  | policers ps ms => exact foldl_keeps (fun _ _ => railCount_cfgPort) _ _
  | sched cw jw oh ages =>
    exact (foldl_keeps (v := railCount) (fun _ _ => railCount_cfgPort) _ _).trans (foldl_keeps (fun _ _ => railCount_cfgPort) _ _)
  | power cap w v ls => exact foldl_keeps (fun _ _ => railCount_setRail) _ _
  | trace t m dest logs => exact foldl_keeps (fun _ _ => railCount_setPort) _ _

theorem railCount_takeImage : railCount (takeImage s) = min (railCount s) 8 := by
  refine (foldl_keeps (v := railCount) (fun _ r => railCount_applyRecord r) (orderedRecords s) _ :).trans ?_
  show ((s.pwr.rails.zip (bootRails s.grade)).map _).length = _
  rw [List.length_map, List.length_zip]
  rfl

theorem railAt_raiseRails {r : Nat} (hr : r < 7) (hl : r < railCount s) (h3 : r ≠ 3 ∨ s.grade = 0) : (railAt (raiseRails s) r).st = 1 := by
  have hraised : ¬(r = 7 ∨ r = 3 ∧ ¬s.grade = 0) := by omega
  unfold railAt raiseRails
  simp only [setPwr, List.getD_eq_getElem?_getD, List.getElem?_map, List.getElem?_zipIdx]
  rw [List.getElem?_eq_getElem hl]
  simp [if_neg hraised]

theorem configApply_refuses {i : Nat} (hst : s.mgt.st = .config) (hbad : (acceptRecords s (imageIndex s.mgt.records) s.mgt.records [] 0).2 = some i) :
    doConfigApply s = setAttn (setMgt s (fun m => { m with cfgRecord := i % 2 ^ 16 })) aFault := by
  unfold doConfigApply
  rw [if_neg (by simp [hst])]
  dsimp only
  rw [hbad]

theorem configApply_misses (hst : s.mgt.st = .config) (hbad : (acceptRecords s (imageIndex s.mgt.records) s.mgt.records [] 0).2 = none)
    (hmiss : ∃ k, k ∈ [1, 2, 4, 0xE, 0xF, 0x10, 0x11] ∧ ∀ r, r ∈ imageRecords s → r.typ ≠ k) :
    doConfigApply s = setAttn (setMgt s (fun m => { m with cfgRecord := s.mgt.records.length % 2 ^ 16 })) aFault := by
  have hall : (requiredTypes.all (fun t => (imageRecords s).any (·.typ == t))) = false := by
    obtain ⟨k, hk, hnone⟩ := hmiss
    refine List.all_eq_false.mpr ⟨k, hk, ?_⟩
    simpa using hnone
  unfold doConfigApply
  rw [if_neg (by simp [hst])]
  dsimp only
  rw [hbad]
  dsimp only
  rw [show (acceptRecords s (imageIndex s.mgt.records) s.mgt.records [] 0).1 = imageRecords s from rfl, hall]
  rfl

theorem configApply_trains (hst : s.mgt.st = .config) (hbad : (acceptRecords s (imageIndex s.mgt.records) s.mgt.records [] 0).2 = none)
    (hall : ∀ k, k ∈ [1, 2, 4, 0xE, 0xF, 0x10, 0x11] → ∃ r, r ∈ imageRecords s ∧ r.typ = k) :
    doConfigApply s = setMgt (raiseRails (takeImage s)) (fun m => { m with st := .train, trainAt := s.now }) := by
  have hall' : (requiredTypes.all (fun t => (imageRecords s).any (·.typ == t))) = true := by
    refine List.all_eq_true.mpr fun k hk => ?_
    simpa using hall k hk
  unfold doConfigApply
  rw [if_neg (by simp [hst])]
  dsimp only
  rw [hbad]
  dsimp only
  rw [show (acceptRecords s (imageIndex s.mgt.records) s.mgt.records [] 0).1 = imageRecords s from rfl, hall']
  rfl

end Config

/-- Settles O50: a reset and Holly's way on from it, and each end of CONFIG_APPLY. -/
theorem hollyStartsAndConfigures : Obligations.HollyStartsAndConfigures := by
  unfold Obligations.HollyStartsAndConfigures
  refine ⟨fun feed v s hfeed hlo hhi hst => powerOn_resets hfeed hlo hhi hst, fun s rs bad hst hacc => ?_⟩
  have hrs : imageRecords s = rs := congrArg Prod.fst hacc
  have hbad : (acceptRecords s (imageIndex s.mgt.records) s.mgt.records [] 0).2 = bad := congrArg Prod.snd hacc
  subst hrs
  refine ⟨fun i hi => ?_, fun hnone hmiss => ?_, fun hnone hall => ?_⟩
  · exact ⟨_, congrArg (fun t => Host.Outcome.next (traced s t)) (configApply_refuses hst (hbad.trans hi)), rfl⟩
  · exact ⟨_, congrArg (fun t => Host.Outcome.next (traced s t)) (configApply_misses hst (hbad.trans hnone) hmiss), hst, rfl, rfl, rfl⟩
  · obtain ⟨hdomain, hqueues, htops, hroots, hmgmt⟩ := recordView_takeImage (s := s)
    have hview : imageless (takeImage s) = imageless s := imageless_takeImage
    have hcount : railCount (takeImage s) = min (railCount s) 8 := railCount_takeImage
    have hrun := configApply_trains hst (hbad.trans hnone) hall
    have hgrade : (takeImage s).grade = s.grade := (congrArg State.grade hview :)
    refine ⟨_, congrArg (fun t => Host.Outcome.next (traced s t)) hrun, rfl, fun d i h => ?_, hqueues, htops, hroots, fun as n h => ?_,
      fun r hr hl h3 => ?_, (congrArg State.comp hview :), (congrArg State.coll hview :), (congrArg State.tops hview :),
      (congrArg State.attn hview :)⟩
    · exact ⟨congrArg Prod.fst (hdomain d i h), congrArg Prod.snd (hdomain d i h)⟩
    · exact ⟨congrArg Prod.fst (hmgmt as n h), congrArg Prod.snd (hmgmt as n h)⟩
    · have hfit : r ≠ 3 ∨ (takeImage s).grade = 0 := by rw [hgrade]; exact h3
      have hlt : r < railCount (takeImage s) := by rw [hcount]; exact Nat.lt_min.mpr ⟨hl, by omega⟩
      have hkeep (t u : State) (f : Mgt → Mgt) : railAt (traced t (setMgt u f)) r = railAt u r := rfl
      exact (congrArg Rail.st (hkeep s (raiseRails (takeImage s)) _)).trans (railAt_raiseRails hr hlt hfit)

end Sys2Proof.Machine
end

section
/-! The end of TRAIN, the twin's image and the verification of images (R43, R44, R510, R515 to R520), and the obligation O51. -/

namespace Sys2Proof.Machine

/-! ### TRAIN (R43, R44, R510) -/

section Training

variable {s : State} {hbm : List Bool} {ddr : List DimmRead}

/-- A stack as TRAIN leaves it. -/
def stackTrained (s : State) (hbm : List Bool) (k : Nat) : Nat × Nat :=
  if dieExists s (k / 3) then (if hbm.getD k false then 1 else 2, (s.mgt.hbm.getD k (0, 0)).2) else (0, 0)

theorem stackTrained_failed {k : Nat} : ((stackTrained s hbm k).1 == 2) = (dieExists s (k / 3) && !hbm.getD k false) := by
  unfold stackTrained
  cases dieExists s (k / 3)
  · rfl
  · cases hbm.getD k false <;> rfl

/-- The stacks and channels as TRAIN leaves them. -/
def trainedMgt (s : State) (hbm : List Bool) (ddr : List DimmRead) (m : Mgt) : Mgt := { m with
  hbm := (List.range 12).map (fun k => if dieExists s (k / 3) then (if hbm.getD k false then 1 else 2, (m.hbm.getD k (0, 0)).2) else (0, 0))
  ddr := (List.range 8).map (ddrTrained ddr) }

/-- TRAIN with its stacks and channels trained, and the population judged. -/
def trainedTiers (s : State) (hbm : List Bool) (ddr : List DimmRead) : State :=
  let spd := ((List.range 8).map (fun c => bitIn (dimmOf (ddr.getD c .empty)).isSome c)).sum
  let s := setMgt s (trainedMgt s hbm ddr)
  let s := { s with pins := { s.pins with ddrSpd := spd } }
  if populationOk ddr then s else setAttn s aFault

/-- A tier too small for the trace and mirror regions gives them up (R44). -/
def sizedTiers (s : State) : State :=
  if tierGib s = 0 || tierGib s < s.dbg.traceGib + s.fab.mirrorGib then
    setAttn { s with dbg := { s.dbg with traceGib := 0 }, fab := { s.fab with mirrorGib := 0 } } aFault
  else s

/-- Where TRAIN ends. -/
def trainEnds (s : State) : State :=
  if s.mgt.hbm.any (·.1 == 2) then setAttn (endBoot s .degraded) aFault
  else if s.integ.degraded then endBoot s .degraded
  else setTim (setMgt s (fun m => { m with st := .sync, syncAt := s.now })) (fun t => { t with lastParent := s.now })

theorem trainingComplete_eq (hst : s.mgt.st = .train) (hl : lanesTrained s = true) :
    doTrainingComplete hbm ddr s = trainEnds (sizedTiers (trainedTiers s hbm ddr)) := by
  unfold doTrainingComplete
  rw [if_neg (by simp [hst, hl])]
  rfl

/-- What TRAIN keeps. -/
def trainView (s : State) := (s.comp, s.coll, s.tops, s.pwr, s.fab.lanes, s.integ.degraded, s.now)

theorem trainedTiers_keeps : trainView (trainedTiers s hbm ddr) = trainView s ∧
    (trainedTiers s hbm ddr).mgt = trainedMgt s hbm ddr s.mgt ∧
    (populationOk ddr = false → (trainedTiers s hbm ddr).attn &&& aFault = aFault) ∧
    (trainedTiers s hbm ddr).dbg = s.dbg ∧ (trainedTiers s hbm ddr).fab = s.fab := by
  unfold trainedTiers
  dsimp only
  split
  next h => exact ⟨rfl, rfl, fun hp => absurd (hp.symm.trans h) Bool.false_ne_true, rfl, rfl⟩
  next => exact ⟨rfl, rfl, fun _ => attn_setAttn_and, rfl, rfl⟩

theorem sizedTiers_keeps : trainView (sizedTiers s) = trainView s ∧ (sizedTiers s).mgt = s.mgt ∧
    (s.attn &&& aFault = aFault → (sizedTiers s).attn &&& aFault = aFault) ∧
    (tierGib s < s.dbg.traceGib + s.fab.mirrorGib ∨ tierGib s = 0 →
      (sizedTiers s).dbg.traceGib = 0 ∧ (sizedTiers s).fab.mirrorGib = 0 ∧ (sizedTiers s).attn &&& aFault = aFault) := by
  unfold sizedTiers
  split
  next => exact ⟨rfl, rfl, fun _ => attn_setAttn_and, fun _ => ⟨rfl, rfl, attn_setAttn_and⟩⟩
  next h =>
    refine ⟨rfl, rfl, id, fun hs => absurd ?_ h⟩
    rcases hs with hs | hs <;> simp [hs]

/-- A bit that is set stays set as others are set. -/
theorem attn_setAttn_keeps {a b : BitVec 16} (h : s.attn &&& a = a) : (setAttn s b).attn &&& a = a := by
  show (s.attn ||| b) &&& a = a
  apply BitVec.eq_of_getLsbD_eq
  intro i hi
  have hbit := congrArg (fun v : BitVec 16 => v.getLsbD i) h
  simp only [BitVec.getLsbD_and, BitVec.getLsbD_or] at hbit ⊢
  revert hbit
  cases a.getLsbD i <;> simp +contextual

theorem trainEnds_keeps : trainView (trainEnds s) = trainView s ∧
    (trainEnds s).mgt.ddr = s.mgt.ddr ∧ (trainEnds s).mgt.hbm = s.mgt.hbm ∧
    (trainEnds s).mgt.st = (if s.mgt.hbm.any (·.1 == 2) || s.integ.degraded then MState.degraded else MState.sync) ∧
    ((trainEnds s).mgt.st = .sync → (trainEnds s).mgt.syncAt = s.now) ∧
    (s.attn &&& aFault = aFault → (trainEnds s).attn &&& aFault = aFault) ∧
    (trainEnds s).dbg = s.dbg ∧ (trainEnds s).fab.mirrorGib = s.fab.mirrorGib := by
  unfold trainEnds
  by_cases hh : s.mgt.hbm.any (·.1 == 2) = true
  · rw [if_pos hh, hh]
    exact ⟨rfl, rfl, rfl, rfl, nofun, fun h => attn_setAttn_keeps h, rfl, rfl⟩
  rw [if_neg hh, Bool.eq_false_iff.mpr hh]
  by_cases hd : s.integ.degraded = true
  · rw [if_pos hd, hd]
    exact ⟨rfl, rfl, rfl, rfl, nofun, id, rfl, rfl⟩
  · rw [if_neg hd, Bool.eq_false_iff.mpr hd]
    exact ⟨rfl, rfl, rfl, rfl, fun _ => rfl, id, rfl, rfl⟩

/-- Trace records queue or are dropped: the rest of the debug block stands. -/
theorem traced_dbg {r : State} : ∃ q n, (traced r s).dbg = { s.dbg with queue := q, drops := n } := by
  have hpush (g : Dbg) (x : TraceRec) : ∃ q n, pushTrace g x = { g with queue := q, drops := n } := by
    unfold pushTrace
    split
    · exact ⟨_, _, rfl⟩
    split <;> exact ⟨_, _, rfl⟩
  have hfold (xs : List TraceRec) (g : Dbg) : ∃ q n, xs.foldl pushTrace g = { g with queue := q, drops := n } := by
    induction xs generalizing g with
    | nil => exact ⟨_, _, rfl⟩
    | cons x xs ih =>
      obtain ⟨q, n, h⟩ := hpush g x
      obtain ⟨q', n', h'⟩ := ih (pushTrace g x)
      exact ⟨q', n', by rw [List.foldl_cons, h', h]⟩
  unfold traced
  dsimp only
  split
  · exact hfold _ _
  · exact ⟨_, _, rfl⟩

theorem trainingComplete_ends (hst : s.mgt.st = .train)
    (hl : s.mgt.trainAt + 500000000 ≤ s.now ∨ ∀ x, x ∈ s.fab.lanes → x.2.enable = true → x.2.st = .up) :
    ∃ t, exec (.trainingComplete hbm ddr) s = .next t ∧ t.mgt.ddr = (List.range 8).map (ddrTrained ddr) ∧
      (∀ k, k < 12 → dieExists s (k / 3) = true → (t.mgt.hbm.getD k (0, 0)).1 = if hbm.getD k false then 1 else 2) ∧
      t.mgt.st = (if (List.range 12).any (fun k => dieExists s (k / 3) && !hbm.getD k false) || s.integ.degraded then
        MState.degraded else MState.sync) ∧
      (t.mgt.st = .sync → t.mgt.syncAt = s.now) ∧ (populationOk ddr = false → t.attn &&& aFault = aFault) ∧
      (tierGib t < s.dbg.traceGib + s.fab.mirrorGib ∨ tierGib t = 0 → t.dbg.traceGib = 0 ∧ t.fab.mirrorGib = 0 ∧ t.attn &&& aFault = aFault) ∧
      t.comp = s.comp ∧ t.coll = s.coll ∧ t.tops = s.tops ∧ t.pwr = s.pwr ∧ t.fab.lanes = s.fab.lanes := by
  have htrained : lanesTrained s = true := by
    unfold lanesTrained
    rcases hl with h | h
    · simp [h]
    · refine Bool.or_eq_true_iff.mpr (.inr (List.all_eq_true.mpr fun x hx => ?_))
      cases he : x.2.enable with
      | false => rfl
      | true => simp [h x hx he]
  have hrun := trainingComplete_eq (hbm := hbm) (ddr := ddr) hst htrained
  obtain ⟨hview1, hmgt1, hpop1, hdbg1, hfab1⟩ := trainedTiers_keeps (s := s) (hbm := hbm) (ddr := ddr)
  generalize trainedTiers s hbm ddr = s1 at *
  obtain ⟨hview2, hmgt2, hattn2, hsize2⟩ := sizedTiers_keeps (s := s1)
  generalize sizedTiers s1 = s2 at *
  obtain ⟨hview3, hddr3, hhbm3, hst3, hsync3, hattn3, hdbg3, hmir3⟩ := trainEnds_keeps (s := s2)
  generalize trainEnds s2 = t at *
  have hview := hview3.trans (hview2.trans hview1)
  have hmgt : s2.mgt = trainedMgt s hbm ddr s.mgt := hmgt2.trans hmgt1
  have hddr : t.mgt.ddr = (List.range 8).map (ddrTrained ddr) := hddr3.trans (congrArg Mgt.ddr hmgt :)
  have hhbm : t.mgt.hbm = (List.range 12).map (stackTrained s hbm) := hhbm3.trans (congrArg Mgt.hbm hmgt :)
  have hany : s2.mgt.hbm.any (·.1 == 2) = (List.range 12).any (fun k => dieExists s (k / 3) && !hbm.getD k false) := by
    rw [← hhbm3, hhbm, List.any_map]
    refine congrArg (List.any _) (funext fun k => ?_)
    exact stackTrained_failed
  have hnow : s2.now = s.now := congrArg (·.2.2.2.2.2.2) (hview2.trans hview1)
  have hdegraded : s2.integ.degraded = s.integ.degraded := congrArg (·.2.2.2.2.2.1) (hview2.trans hview1)
  have htier : tierGib t = tierGib s1 := by
    unfold tierGib
    rw [hddr3, hmgt2]
  rw [hany, hdegraded] at hst3
  rw [hnow] at hsync3
  rw [hdbg1, hfab1] at hsize2
  obtain ⟨q, n, hdbg⟩ := traced_dbg (s := t) (r := s)
  refine ⟨_, congrArg (fun t => Host.Outcome.next (traced s t)) hrun, hddr, fun k hk hd => ?_, hst3, hsync3,
    fun hp => hattn3 (hattn2 (hpop1 hp)), fun hsmall => ?_, congrArg (·.1) hview, congrArg (·.2.1) hview, congrArg (·.2.2.1) hview,
    congrArg (·.2.2.2.1) hview, congrArg (·.2.2.2.2.1) hview⟩
  · have hget : t.mgt.hbm.getD k (0, 0) = stackTrained s hbm k := by
      rw [hhbm, List.getD_eq_getElem?_getD, List.getElem?_map, List.getElem?_range hk]
      rfl
    refine (congrArg Prod.fst hget).trans ?_
    unfold stackTrained
    rw [if_pos hd]
  · obtain ⟨htrace, hmirror, hattn⟩ := hsize2 (htier ▸ hsmall)
    refine ⟨?_, hmir3.trans hmirror, hattn3 hattn⟩
    rw [hdbg]
    exact (congrArg Dbg.traceGib hdbg3).trans htrace

end Training

/-! ### The twin's image (R518) -/

section Images

variable {s : State} {x : Staged} {bs : List Byte}

theorem imageRequestRepeat_asks (hst : s.mgt.st = .recovery) (hfw : s.mgt.fwRunning = false) (hi : imageComplete s.fab.twin = false)
    (hup : portUp s 0x100 = true) (hask : s.fab.twin.imageAskAt = 0 ∨ s.fab.twin.imageAskAt + 1000000000 ≤ s.now) :
    ∃ t, exec .imageRequestRepeat s = .next t ∧ t.fab.twin = { s.fab.twin with imageAskAt := s.now } ∧
      (portUp s s.fab.twin.port = true → ((portAt t s.fab.twin.port).out.getLast?).map (·.unit) =
        some (sealUnit (twinFrame 6 5 0x180 0 0 0xFFFFFFFF (firstMissing s.fab.twin) 0 (padTo 256 [])))) ∧
      t.coll = s.coll ∧ FabricOnly s t := by
  set u := twinFrame 6 5 0x180 0 0 0xFFFFFFFF (firstMissing s.fab.twin) 0 (padTo 256 []) with hu
  clear_value u
  have hrun : doImageRequestRepeat s = setTwin (sendTwin s u) (fun t => { t with imageAskAt := (sendTwin s u).now }) := by
    unfold doImageRequestRepeat
    rw [if_pos (by simp [hst, hfw, hi, hup, hask]), hu]
  have hbeyond : beyondFabric (sendTwin s u) = beyondFabric s := beyondFabric_ite beyondFabric_enqueue rfl
  have hnow : (sendTwin s u).now = s.now := (congrArg State.now hbeyond :)
  have htwin : (sendTwin s u).fab.twin = s.fab.twin := by
    unfold sendTwin
    dsimp only
    split <;> rfl
  refine ⟨_, congrArg (fun t => Host.Outcome.next (traced s t)) hrun, ?_, fun hport => ?_, (congrArg State.coll hbeyond :),
    FabricOnly.of_beyondFabric hbeyond⟩
  · show ({ (sendTwin s u).fab.twin with imageAskAt := (sendTwin s u).now } : Twin) = _
    rw [htwin, hnow]
  · have hout : (portAt (sendTwin s u) s.fab.twin.port).out = (portAt s s.fab.twin.port).out ++ [{ unit := sealUnit u, ready := s.fabricTime }] := by
      unfold sendTwin
      dsimp only
      rw [if_pos hport, out_enqueue, if_pos rfl]
    show ((portAt (sendTwin s u) s.fab.twin.port).out.getLast?).map (·.unit) = _
    rw [hout, List.getLast?_append_cons]
    rfl

/-! ### Verification (R515 to R520) -/

/-- The state without its sessions, its replies and its counters of requests. -/
def unanswered (s : State) : State := { s with mgt := { s.mgt with sessions := [], replies := [], fmdCnt := [] } }

theorem unanswered_replyPush {r : Res} : unanswered (replyPush s x r) = unanswered s := by
  unfold replyPush
  split
  · split
    · unfold finishReply
      dsimp only
      split <;> rfl
    · rfl
  · rfl

/-- The run that completed an image is answered with its result. -/
theorem replies_replyPush {r : Res} (hr : r ≠ .busy) {k tag crc : Nat} (ha : x.ask = some (k, tag, crc)) (hv : (sessAt s k).valid = true) :
    ((replyPush s x r).mgt.replies.head?).map (fun y => (y.session, y.tag, y.result)) = some (k, tag, r.code) := by
  have h : replyPush s x r = finishReply s k tag 0x40 crc r [] := by
    unfold replyPush
    rw [ha]
    exact if_pos hv
  rw [h]
  unfold finishReply
  rw [if_neg hr]
  rfl

/-- Firmware that verified runs; it comes to CONFIG, or to RECOVERY with the cause of the NOR's configuration image. -/
theorem runFirmware_runs {src : Nat} : let t := runFirmware s bs src
    t.mgt.fwRunning = true ∧ t.mgt.fwSource = src ∧ t.mgt.fwBytes = imageOf bs ∧ t.mgt.stagedFw = s.mgt.stagedFw ∧
    (t.mgt.st = .config ∨ (t.mgt.st = .recovery ∧ t.mgt.cause = configCause s s.mgt.nor.config)) ∧ t.comp = s.comp ∧ t.coll = s.coll ∧
    t.mgt.sessions = s.mgt.sessions := by
  intro t
  rcases checkConfig_ends (s := setMgt s (firmwareMgt bs src)) with ⟨cfg, h⟩ | h
  · have hview : imageless t = imageless (setMgt (setMgt s (firmwareMgt bs src)) (configMgt cfg)) := h
    clear_value t
    exact ⟨(congrArg (·.mgt.fwRunning) hview :), (congrArg (·.mgt.fwSource) hview :), (congrArg (·.mgt.fwBytes) hview :),
      (congrArg (·.mgt.stagedFw) hview :), .inl (congrArg (·.mgt.st) hview :), (congrArg State.comp hview :), (congrArg State.coll hview :),
      (congrArg (·.mgt.sessions) hview :)⟩
  · have hcause : configCause (setMgt s (firmwareMgt bs src)) s.mgt.nor.config = configCause s s.mgt.nor.config := configCause_congr rfl
    have hview : imageless t = imageless (setMgt (setMgt s (firmwareMgt bs src)) (recoveryMgt (configCause s s.mgt.nor.config))) := by
      rw [← hcause]
      exact h
    clear_value t
    exact ⟨(congrArg (·.mgt.fwRunning) hview :), (congrArg (·.mgt.fwSource) hview :), (congrArg (·.mgt.fwBytes) hview :),
      (congrArg (·.mgt.stagedFw) hview :), .inr ⟨(congrArg (·.mgt.st) hview :), (congrArg (·.mgt.cause) hview :)⟩,
      (congrArg State.comp hview :), (congrArg State.coll hview :), (congrArg (·.mgt.sessions) hview :)⟩

/-- The blocks of the twin's image. -/
def imageView (s : State) : List (Nat × List Byte) := s.fab.twin.image

theorem imageView_ite {c : Prop} [Decidable c] {x y : State} (hx : imageView x = imageView s) (hy : imageView y = imageView s) :
    imageView (if c then x else y) = imageView s := by
  split
  · exact hx
  · exact hy

theorem imageView_setLane {l : Nat} {f : Lane → Lane} : imageView (setLane s l f) = imageView s := rfl

theorem imageView_setPort {p : Nat} {f : Port → Port} : imageView (setPort s p f) = imageView s := rfl

theorem imageView_setRail {r : Nat} {f : Rail → Rail} : imageView (setRail s r f) = imageView s := rfl

theorem imageView_cfgPort {p : Nat} {f : Port → Port} : imageView (cfgPort s p f) = imageView s := imageView_ite rfl imageView_setPort

theorem imageView_applyRecord (r : CfgRecord) : imageView (applyRecord s r) = imageView s := by
  cases r with
  | domain | twin | time | link | sessions | early | integ | queues | topiaryKeys | hostRoots | mgmt => rfl
  | lanes ps =>
    exact foldl_keeps (fun _ _ => (foldl_keeps (fun _ _ => imageView_setLane) _ _).trans imageView_setPort) _ _
  | pools inst sized cells levels maxes mib => exact imageView_ite rfl rfl
  | policers ps ms => exact foldl_keeps (fun _ _ => imageView_cfgPort) _ _
  | sched cw jw oh ages =>
    exact (foldl_keeps (v := imageView) (fun _ _ => imageView_cfgPort) _ _).trans (foldl_keeps (fun _ _ => imageView_cfgPort) _ _)
  | power cap w v ls => exact foldl_keeps (fun _ _ => imageView_setRail) _ _
  | trace t m dest logs => exact foldl_keeps (fun _ _ => imageView_setPort) _ _

/-- An image takes effect on a fabric at its reset values: no block of the twin's image stands. -/
theorem imageView_takeImage : imageView (takeImage s) = [] :=
  (foldl_keeps (v := imageView) (fun _ r => imageView_applyRecord r) (orderedRecords s) _ :)

/-- Firmware that runs leaves no block of the twin's image where none stood. -/
theorem imageView_runFirmware {src : Nat} (h : imageView s = []) : imageView (runFirmware s bs src) = [] := by
  have hrec (c : Nat) : imageView (enterRecovery (setMgt s (firmwareMgt bs src)) c) = [] := by
    unfold enterRecovery
    exact (congrArg imageView (if_pos rfl)).trans h
  rw [runFirmware_eq]
  unfold checkConfig
  split
  · exact imageView_takeImage
  split
  · split
    · exact imageView_takeImage
    · exact hrec _
  · exact hrec _

theorem verifyTwin_ends (hst : s.mgt.st = .recovery) (hfw : s.mgt.fwRunning = false) (hi : imageComplete s.fab.twin = true) :
    let bs := twinImage s.fab.twin
    ∃ t, exec (.imageVerifyComplete .twin) s = .next t ∧ t.fab.twin.image = [] ∧
      (firmwareCause s bs ≠ 0 → t.mgt = s.mgt ∧ t.attn = s.attn ||| aSec) ∧
      (firmwareCause s bs = 0 → t.mgt.fwRunning = true ∧ t.mgt.fwSource = 1 ∧ t.mgt.fwBytes = imageOf bs ∧ t.mgt.stagedFw = none ∧
        (t.mgt.st = .config ∨ (t.mgt.st = .recovery ∧ t.mgt.cause = configCause s s.mgt.nor.config))) ∧
      t.comp = s.comp ∧ t.coll = s.coll := by
  intro bs
  set s1 := setTwin s (fun t => { t with image := [], imageBlocks := 0 }) with hs1
  have hrun : doImageVerifyComplete .twin s = if firmwareCause s bs = 0 then runFirmware (setStaged s1 1 none) bs 1 else setAttn s1 aSec := by
    show verifyTwin s = _
    unfold verifyTwin
    exact if_pos (by simp [hst, hfw, hi])
  by_cases hc : firmwareCause s bs = 0
  · rw [if_pos hc] at hrun
    have himage : imageView (runFirmware (setStaged s1 1 none) bs 1) = [] := imageView_runFirmware rfl
    obtain ⟨h1, h2, h3, h4, h5, h6, h7, -⟩ := runFirmware_runs (s := setStaged s1 1 none) (bs := bs) (src := 1)
    refine ⟨_, congrArg (fun t => Host.Outcome.next (traced s t)) hrun, himage, fun h => absurd hc h, fun _ => ⟨h1, h2, h3, h4, h5⟩, h6, h7⟩
  · rw [if_neg hc] at hrun
    exact ⟨_, congrArg (fun t => Host.Outcome.next (traced s t)) hrun, rfl, fun _ => ⟨rfl, rfl⟩, fun h => absurd h hc, rfl, rfl⟩

theorem verifyFirmware_ends (hx : s.mgt.stagedFw = some x) (hcomp : x.complete = true) (hv : x.verified = false) :
    ∃ t, exec (.imageVerifyComplete .firmware) s = .next t ∧
      (firmwareCause s x.bytes ≠ 0 → t.mgt.stagedFw = none ∧ t.mgt.st = s.mgt.st ∧ t.attn = s.attn ||| aSec ∧
        (∀ k tag crc, x.ask = some (k, tag, crc) → (sessAt s k).valid = true →
          (t.mgt.replies.head?).map (fun r => (r.session, r.tag, r.result)) = some (k, tag, Res.verify.code))) ∧
      (firmwareCause s x.bytes = 0 → s.mgt.st = .recovery → s.mgt.fwRunning = false →
        t.mgt.fwRunning = true ∧ t.mgt.fwSource = 2 ∧ t.mgt.fwBytes = imageOf x.bytes) ∧
      (firmwareCause s x.bytes = 0 → s.mgt.st ≠ .recovery → t.mgt.stagedFw = some { x with verified := true, ask := none } ∧
        (∀ k tag crc, x.ask = some (k, tag, crc) → (sessAt s k).valid = true →
          (t.mgt.replies.head?).map (fun r => (r.session, r.tag, r.result)) = some (k, tag, Res.ok.code))) ∧
      t.comp = s.comp ∧ t.coll = s.coll := by
  have hrun : doImageVerifyComplete .firmware s =
      if firmwareCause s x.bytes != 0 then pushFails s 1 x
      else if s.mgt.st == .recovery then
        if s.mgt.fwRunning then replyPush (setStaged s 1 none) x .state
        else replyPush (runFirmware (setTwin (setStaged s 1 none) (fun t => { t with image := [], imageBlocks := 0 })) x.bytes 2) x .ok
      else replyPush (setStaged s 1 (some { x with verified := true, ask := none })) x .ok := by
    show verifyFirmware s = _
    unfold verifyFirmware
    rw [hx]
    exact if_neg (by simp [hcomp, hv])
  by_cases hc : firmwareCause s x.bytes = 0
  · rw [if_neg (by simp [hc])] at hrun
    by_cases hst : s.mgt.st = .recovery
    · rw [if_pos (by simp [hst])] at hrun
      cases hfw : s.mgt.fwRunning with
      | true =>
        rw [hfw, if_pos rfl] at hrun
        have hview := unanswered_replyPush (s := setStaged s 1 none) (x := x) (r := .state)
        exact ⟨_, congrArg (fun t => Host.Outcome.next (traced s t)) hrun, fun h => absurd hc h, fun _ _ h => absurd h.symm Bool.false_ne_true,
          fun _ h => absurd hst h, (congrArg State.comp hview :), (congrArg State.coll hview :)⟩
      | false =>
        rw [hfw, if_neg Bool.false_ne_true] at hrun
        obtain ⟨h1, h2, h3, -, -, h6, h7, -⟩ := runFirmware_runs (s := setTwin (setStaged s 1 none) (fun t => { t with image := [], imageBlocks := 0 }))
          (bs := x.bytes) (src := 2)
        generalize runFirmware (setTwin (setStaged s 1 none) (fun t => { t with image := [], imageBlocks := 0 })) x.bytes 2 = r at *
        have hview := unanswered_replyPush (s := r) (x := x) (r := .ok)
        exact ⟨_, congrArg (fun t => Host.Outcome.next (traced s t)) hrun, fun h => absurd hc h,
          fun _ _ _ => ⟨(congrArg (·.mgt.fwRunning) hview :).trans h1, (congrArg (·.mgt.fwSource) hview :).trans h2,
            (congrArg (·.mgt.fwBytes) hview :).trans h3⟩,
          fun _ h => absurd hst h, (congrArg State.comp hview :).trans h6, (congrArg State.coll hview :).trans h7⟩
    · rw [if_neg (by simp [hst])] at hrun
      have hview := unanswered_replyPush (s := setStaged s 1 (some { x with verified := true, ask := none })) (x := x) (r := .ok)
      have hreply (k tag crc : Nat) (ha : x.ask = some (k, tag, crc)) (hs : (sessAt s k).valid = true) :=
        replies_replyPush (s := setStaged s 1 (some { x with verified := true, ask := none })) (r := .ok) nofun ha hs
      exact ⟨_, congrArg (fun t => Host.Outcome.next (traced s t)) hrun, fun h => absurd hc h, fun _ h => absurd h hst,
        fun _ _ => ⟨(congrArg (·.mgt.stagedFw) hview :), hreply⟩, (congrArg State.comp hview :), (congrArg State.coll hview :)⟩
  · rw [if_pos (by simp [hc])] at hrun
    have hview := unanswered_replyPush (s := setAttn (setStaged s 1 none) aSec) (x := x) (r := .verify)
    have hreply (k tag crc : Nat) (ha : x.ask = some (k, tag, crc)) (hs : (sessAt s k).valid = true) :=
      replies_replyPush (s := setAttn (setStaged s 1 none) aSec) (r := .verify) nofun ha hs
    exact ⟨_, congrArg (fun t => Host.Outcome.next (traced s t)) hrun,
      fun _ => ⟨(congrArg (·.mgt.stagedFw) hview :), (congrArg (·.mgt.st) hview :), (congrArg State.attn hview :), hreply⟩,
      fun h => absurd h hc, fun h => absurd h hc, (congrArg State.comp hview :), (congrArg State.coll hview :)⟩

theorem verifyConfig_ends (hx : s.mgt.stagedCfg = some x) (hcomp : x.complete = true) (hv : x.verified = false) :
    ∃ t, exec (.imageVerifyComplete .config) s = .next t ∧
      (configCause s x.bytes ≠ 0 → t.mgt.stagedCfg = none ∧ t.mgt.st = s.mgt.st ∧ t.attn = s.attn ||| aSec) ∧
      (configCause s x.bytes = 0 → t.mgt.stagedCfg = some { x with verified := true, ask := none } ∧ t.attn = s.attn ∧
        (if (s.mgt.st = .recovery ∧ s.mgt.fwRunning = true) ∨ s.mgt.st = .config then
          t.mgt.st = .config ∧ t.mgt.cfgBytes = imageOf x.bytes else t.mgt.st = s.mgt.st)) ∧
      t.comp = s.comp ∧ t.coll = s.coll := by
  set s1 := setStaged s 2 (some { x with verified := true, ask := none }) with hs1
  have hrun : doImageVerifyComplete .config s =
      if configCause s x.bytes != 0 then pushFails s 2 x
      else replyPush (if (s.mgt.st == .recovery && s.mgt.fwRunning) || s.mgt.st == .config then enterConfig s1 x.bytes else s1) x .ok := by
    show verifyConfig s = _
    unfold verifyConfig
    rw [hx]
    exact if_neg (by simp [hcomp, hv])
  by_cases hc : configCause s x.bytes = 0
  · rw [if_neg (by simp [hc])] at hrun
    by_cases hst : (s.mgt.st = .recovery ∧ s.mgt.fwRunning = true) ∨ s.mgt.st = .config
    · rw [if_pos (by simpa using hst)] at hrun
      have hview := imageless_enterConfig (s := s1) (bs := x.bytes)
      generalize enterConfig s1 x.bytes = r at *
      have hreply := unanswered_replyPush (s := r) (x := x) (r := .ok)
      simp only [if_pos hst]
      exact ⟨_, congrArg (fun t => Host.Outcome.next (traced s t)) hrun, fun h => absurd hc h,
        fun _ => ⟨(congrArg (·.mgt.stagedCfg) hreply :).trans (congrArg (·.mgt.stagedCfg) hview :),
          (congrArg State.attn hreply :).trans (congrArg State.attn hview :),
          (congrArg (·.mgt.st) hreply :).trans (congrArg (·.mgt.st) hview :),
          (congrArg (·.mgt.cfgBytes) hreply :).trans (congrArg (·.mgt.cfgBytes) hview :)⟩,
        (congrArg State.comp hreply :).trans (congrArg State.comp hview :), (congrArg State.coll hreply :).trans (congrArg State.coll hview :)⟩
    · rw [if_neg (by simpa using hst)] at hrun
      have hreply := unanswered_replyPush (s := s1) (x := x) (r := .ok)
      simp only [if_neg hst]
      exact ⟨_, congrArg (fun t => Host.Outcome.next (traced s t)) hrun, fun h => absurd hc h,
        fun _ => ⟨(congrArg (·.mgt.stagedCfg) hreply :), (congrArg State.attn hreply :), (congrArg (·.mgt.st) hreply :)⟩,
        (congrArg State.comp hreply :), (congrArg State.coll hreply :)⟩
  · rw [if_pos (by simp [hc])] at hrun
    have hview := unanswered_replyPush (s := setAttn (setStaged s 2 none) aSec) (x := x) (r := .verify)
    exact ⟨_, congrArg (fun t => Host.Outcome.next (traced s t)) hrun,
      fun _ => ⟨(congrArg (·.mgt.stagedCfg) hview :), (congrArg (·.mgt.st) hview :), (congrArg State.attn hview :)⟩,
      fun h => absurd h hc, (congrArg State.comp hview :), (congrArg State.coll hview :)⟩

end Images

/-- Settles O51: TRAIN ends with the tiers that trained, the twin is asked again, and each image's verification ends. -/
theorem trainingAndImagesEnd : Obligations.TrainingAndImagesEnd := by
  unfold Obligations.TrainingAndImagesEnd
  exact ⟨fun hbm ddr s hst hl => trainingComplete_ends hst hl, fun s hst hfw hi hup hask => imageRequestRepeat_asks hst hfw hi hup hask,
    fun s hst hfw hi => verifyTwin_ends hst hfw hi, fun s x hx hcomp hv => verifyFirmware_ends hx hcomp hv,
    fun s x hx hcomp hv => verifyConfig_ends hx hcomp hv⟩

end Sys2Proof.Machine
end

section
/-! Pins (R553, R588, R590, R596) and debug ports (R569, R587), and the obligation O52. -/

namespace Sys2Proof.Machine

/-! ### LSR_EN (R590) -/

section Lasers

variable {s : State} {l cause : Nat} {report : Bool}

/-- The other lanes of a lane that goes down stand but for their counters. -/
theorem countless_laneGoesDown_ne {j : Nat} (hj : j ≠ l) :
    countless (laneAt (laneGoesDown s l cause report) j) = countless (laneAt s j) := by
  unfold laneGoesDown
  extract_lets L lost s1 s2 s3 s4
  have h1 : laneAt s1 j = laneAt s j := by simp [s1, Ne.symm hj]
  have h2 : laneAt s2 j = laneAt s1 j := by
    unfold s2; split
    · exact congrFun (laneAt_of_stagingView stagingView_leaveAlloc) j
    · rfl
  have h3 : countless (laneAt s3 j) = countless (laneAt s2 j) := by
    unfold s3; split
    · rfl
    · exact countless_cntLane
  have h4 : countless (laneAt s4 j) = countless (laneAt s3 j) := by
    unfold s4; split
    · exact countless_flushPort j
    · rfl
  rw [← h1, ← h2, ← h3, ← h4]
  split <;> rfl

/-- A lane that carries nothing. -/
def LaneOff (s : State) (l : Nat) : Prop := (laneAt s l).st = .down ∨ (laneAt s l).st = .disabled

theorem laneOff_laneGoesDown {j : Nat} (h : j = l ∨ LaneOff s j) : LaneOff (laneGoesDown s l cause report) j := by
  unfold LaneOff at h ⊢
  by_cases hj : j = l
  · subst hj
    have hst : (laneAt (laneGoesDown s j cause report) j).st = if (laneAt s j).enable then .down else .disabled :=
      (congrArg Lane.st (countless_laneGoesDown (s := s) (l := j) (cause := cause) (report := report)) :)
    rw [hst]
    cases (laneAt s j).enable
    · exact .inr rfl
    · exact .inl rfl
  · have hst : (laneAt (laneGoesDown s l cause report) j).st = (laneAt s j).st :=
      (congrArg Lane.st (countless_laneGoesDown_ne (s := s) (cause := cause) (report := report) hj) :)
    rw [hst]
    exact h.resolve_left hj

theorem laneOff_loseLaser {j : Nat} (h : j = l ∨ LaneOff s j) : LaneOff (loseLaser s l) j := by
  have hset (r : State) (f : Lane → Lane) (hf : ∀ L, (f L).st = L.st) (hr : LaneOff r j) : LaneOff (setLane r l f) j := by
    unfold LaneOff at hr ⊢
    rw [laneAt_setLane]
    split
    next hl => rw [hf, hl]; exact hr
    next => exact hr
  unfold loseLaser
  refine hset _ _ (fun _ => rfl) ?_
  by_cases hd : (laneAt s l).st = .down ∨ (laneAt s l).st = .disabled
  · rw [if_pos hd]
    rcases h with rfl | h
    · exact hd
    · exact h
  · rw [if_neg hd]
    exact laneOff_laneGoesDown h

theorem beyondFabric_loseLaser : beyondFabric (loseLaser s l) = beyondFabric s := by
  unfold loseLaser
  rw [beyondFabric_setLane]
  exact beyondFabric_ite rfl beyondFabric_laneGoesDown

/-- The fabric lanes of a list lose their laser. -/
def loseLasers (ls : List Nat) (s : State) : State := ls.foldl (fun s l => if 256 ≤ l then s else loseLaser s l) s

theorem laneOff_loseLasers {j : Nat} (hj : j < 256) (ls : List Nat) (s : State) (h : j ∈ ls ∨ LaneOff s j) : LaneOff (loseLasers ls s) j := by
  induction ls generalizing s with
  | nil => exact h.resolve_left List.not_mem_nil
  | cons l ls ih =>
    refine ih _ ?_
    rw [List.mem_cons, or_assoc] at h
    dsimp only
    by_cases hl : 256 ≤ l
    · rw [if_pos hl]
      exact h.resolve_left (by omega)
    · rw [if_neg hl]
      rcases h with h | h | h
      · exact .inr (laneOff_loseLaser (.inl h))
      · exact .inl h
      · exact .inr (laneOff_loseLaser (.inr h))

theorem beyondFabric_loseLasers (ls : List Nat) : beyondFabric (loseLasers ls s) = beyondFabric s :=
  foldl_keeps (fun _ _ => beyondFabric_ite rfl beyondFabric_loseLaser) _ _

theorem setLsrEn_false : setLsrEn s false = loseLasers (s.fab.lanes.map (·.1)) { s with pins := { s.pins with lsrEn := false } } := rfl

/-- A lane without a record is down. -/
theorem laneOff_unlisted (h : l ∉ s.fab.lanes.map (·.1)) : LaneOff s l := by
  have hlookup : ∀ xs : List (Nat × Lane), l ∉ xs.map (·.1) → lookupD xs l {} = {} := by
    intro xs hxs
    induction xs with
    | nil => rfl
    | cons x xs ih =>
      simp only [List.map_cons, List.mem_cons, not_or] at hxs
      rw [lookupD, if_neg (fun hl => hxs.1 hl.symm)]
      exact ih hxs.2
  left
  unfold laneAt
  rw [hlookup _ h]

theorem lsrEnChange_false : ∃ t, exec (.lsrEnChange false) s = .next t ∧ t.pins = { s.pins with lsrEn := false } ∧
    (∀ l, l < 256 → (laneAt t l).st = .down ∨ (laneAt t l).st = .disabled) ∧ t.coll = s.coll ∧ KeepsData s t := by
  have hrun : doLsrEnChange false s = setLsrEn s false := if_pos (by simp)
  rw [setLsrEn_false] at hrun
  have hbeyond := beyondFabric_loseLasers (s := { s with pins := { s.pins with lsrEn := false } }) (s.fab.lanes.map (·.1))
  refine ⟨_, congrArg (fun t => Host.Outcome.next (traced s t)) hrun, (congrArg State.pins hbeyond :), fun l hl => ?_,
    (congrArg State.coll hbeyond :), .of_dataView (congrArg dataView hbeyond :)⟩
  refine laneOff_loseLasers hl _ _ ?_
  by_cases hmem : l ∈ s.fab.lanes.map (·.1)
  · exact .inl hmem
  · exact .inr (laneOff_unlisted hmem)

end Lasers

/-! ### Resets by a pin (R588, R596) -/

section Pins

variable {s : State}

theorem carrierResetAssert_resets (h : s.mgt.st ≠ .off) : ∃ t, exec .carrierResetAssert s = .next t ∧ HasReset s t 2 ∧ t.mgt.st = .boot ∧
    t.pins.carrierReset = true ∧ t.fab.ports = [] := by
  have hrun : doCarrierResetAssert s = resetModule { s with pins := { s.pins with carrierReset := true } } 2 := if_neg h
  refine ⟨_, congrArg (fun t => Host.Outcome.next (traced s t)) hrun, ((resetModule_reset rfl).congr ?_).traced, rfl, rfl, rfl⟩
  rfl

theorem carrierResetRelease_resumes (hp : s.pins.carrierReset = true) (hst : s.mgt.st = .boot)
    (hf : s.pwr.feeds.any (·.carries) = true) :
    ∃ t, exec .carrierResetRelease s = .next t ∧ hollyEnds s t ∧ t.pins.carrierReset = false ∧ t.comp = { s.comp with tlb := t.comp.tlb } := by
  set s1 : State := { s with pins := { s.pins with carrierReset := false, sideband := true } } with hs1
  have hrun : doCarrierResetRelease s = holly s1 := by
    unfold doCarrierResetRelease
    rw [if_neg (by simp [hp])]
    exact if_pos (by simp [hst, hf])
  obtain ⟨f, hview, -⟩ := imageless_holly (s := s1)
  obtain ⟨hfused, -⟩ := applyFused_keeps (s := s1)
  have hpins : (holly s1).pins = s1.pins := (congrArg State.pins hview :).trans (congrArg State.pins hfused :)
  have hcomp : (holly s1).comp = { s.comp with tlb := (holly s1).comp.tlb } := by
    have h1 : (holly s1).comp = (applyFused s1).comp := (congrArg State.comp hview :)
    rw [h1]
    exact (congrArg (fun x : State => { x.comp with tlb := (applyFused s1).comp.tlb }) hfused :)
  exact ⟨_, congrArg (fun t => Host.Outcome.next (traced s t)) hrun, hollyEnds_traced (hollyEnds_congr (r := s1) rfl rfl holly_ends),
    congrArg (·.carrierReset) hpins, hcomp⟩

theorem sb3v3Loss_resets (h : s.mgt.st ≠ .off) : ∃ t, exec .sb3v3Loss s = .next t ∧ t.mgt.st = .boot ∧ t.mgt.resetCause = 2 ∧
    t.pins = { s.pins with sideband := false, lsrEn := false, carrierReset := true, ddrSpd := 0 } ∧ t.tops = [] ∧
    (∀ k, (sessAt t k).valid = false) := by
  have hbeyond := beyondFabric_loseLasers (s := { s with pins := { s.pins with sideband := false, lsrEn := false } }) (s.fab.lanes.map (·.1))
  set r := loseLasers (s.fab.lanes.map (·.1)) { s with pins := { s.pins with sideband := false, lsrEn := false } } with hr
  have hmgt : r.mgt = s.mgt := (congrArg State.mgt hbeyond :)
  have hpins : r.pins = { s.pins with sideband := false, lsrEn := false } := (congrArg State.pins hbeyond :)
  have hrun : doSb3v3Loss s = resetModule { r with pins := { r.pins with carrierReset := true } } 2 := by
    show doCarrierResetAssert r = _
    exact if_neg (by rw [hmgt]; exact h)
  refine ⟨_, congrArg (fun t => Host.Outcome.next (traced s t)) hrun, rfl, rfl, ?_, rfl, fun k => noSession_reset⟩
  show ({ r.pins with carrierReset := true, ddrSpd := 0 } : Pins) = _
  rw [hpins]

theorem mgtPortLinkChange_sets {port st : Nat} {fec : Bool} (hp : port < 2) (hs : st < 3) (h : s.mgt.st ≠ .off) :
    doMgtPortLinkChange port st fec s = setMgt s (fun m => { m with ports := m.ports.set port (st, fec) }) :=
  if_pos (by simp [hp, hs, h])

end Pins

/-! ### Debug ports (R569, R587) -/

section Debug

variable {s t : State} {bits out : Nat}

/-- What JTAG shifts out, with the trace records of the command. -/
theorem shifts_traced {u : State} (h : t = { s with dbg := { s.dbg with jtagBits := bits, jtagOut := out } }) : Shifts s (traced u t) bits out := by
  obtain ⟨q, n, hdbg⟩ := traced_dbg (s := t) (r := u)
  unfold Shifts
  have ht : traced u t = { t with dbg := { t.dbg with queue := q, drops := n } } := congrArg (fun g => ({ t with dbg := g } : State)) hdbg
  rw [ht, h]

/-- An instruction that shifts out while the TAP is powered. -/
theorem jtagShift_shifts {c : Instr} {u : State} (hst : u.mgt.st ≠ .off) (h : exec c s = .next (traced s (jtagShift u bits out))) :
    ∃ t, exec c s = .next t ∧ Shifts u t bits out :=
  ⟨_, h, shifts_traced (if_neg hst)⟩

theorem boundary_shifts {c : Instr} (hst : s.mgt.st ≠ .off) (h : exec c s = .next (traced s (boundary s))) :
    ∃ t, exec c s = .next t ∧ Shifts { s with freeCtr := s.freeCtr + 1 } t Config.boundaryLength (Config.boundaryScan s.freeCtr) :=
  jtagShift_shifts (u := { s with freeCtr := s.freeCtr + 1 }) hst h

theorem extest_shifts (hst : s.mgt.st ≠ .off) :
    (∀ x, (s.mgt.st = .recovery ∨ s.mgt.st = .safe) → ∃ t, exec (.extest x) s = .next t ∧
      Shifts { s with freeCtr := s.freeCtr + 1 } t Config.boundaryLength (Config.boundaryScan s.freeCtr)) ∧
    (∀ x, s.mgt.st ≠ .recovery → s.mgt.st ≠ .safe → ∃ t, exec (.extest x) s = .next t ∧ Shifts s t 1 0) := by
  refine ⟨fun x h => boundary_shifts hst ?_, fun x h1 h2 => jtagShift_shifts hst ?_⟩
  · exact congrArg (fun t => Host.Outcome.next (traced s t)) (if_pos (by simpa using h))
  · exact congrArg (fun t => Host.Outcome.next (traced s t)) (if_neg (by simp [h1, h2]))

theorem ringSel_shifts (hst : s.mgt.st ≠ .off) (dr : BitVec 24) : ∃ t, exec (.ringSel dr) s = .next t ∧
    Shifts { s with dbg := { s.dbg with jtagRing := natField dr.toNat 23 8, jtagIndex := natField dr.toNat 5 0 } } t 24 dr.toNat := by
  refine jtagShift_shifts (u := { s with dbg := { s.dbg with jtagRing := natField dr.toNat 23 8, jtagIndex := natField dr.toNat 5 0 } }) hst ?_
  exact congrArg (fun t => Host.Outcome.next (traced s t)) (if_neg hst)

theorem ringData_shifts (hst : s.mgt.st ≠ .off) : ∃ t, exec .ringData s = .next t ∧
    Shifts s t 128 (if ringOk s.dbg.jtagRing = true ∧ (s.grade = 0 ∨ ringDie3 s.dbg.jtagRing = false) then
      leVal (ringBytes s s.dbg.jtagRing s.dbg.jtagIndex) else 0) := by
  refine jtagShift_shifts hst (congrArg (fun n => Host.Outcome.next (traced s (jtagShift s 128 n))) ?_)
  refine if_congr ?_ rfl rfl
  simp [or_iff_not_imp_left]

theorem bypass_shifts (hst : s.mgt.st ≠ .off) (code : BitVec 8) (hc : code.toNat ∉ [0x00, 0x01, 0x02, 0x20, 0x21, 0x22]) :
    ∃ t, exec (.bypass code) s = .next t ∧ Shifts s t 1 0 := by
  refine jtagShift_shifts hst (congrArg (fun t => Host.Outcome.next (traced s t)) (if_neg ?_))
  rwa [List.contains_iff_mem]

theorem i3cPrivateRead_reads (hoff : s.mgt.st ≠ .off) (hboot : s.mgt.st ≠ .boot) : ∃ t, exec .i3cPrivateRead s = .next t ∧
    t = { s with dbg := { s.dbg with queue := t.dbg.queue, drops := t.dbg.drops,
                                     i3cOut := leBytes 8 (stateReg s) ++ leBytes 8 (feedReg s) ++ leBytes 8 (thermReg s) ++
                                       leBytes 8 (twinStatus s) } } := by
  set r : State := { s with dbg := { s.dbg with
    i3cOut := leBytes 8 (stateReg s) ++ leBytes 8 (feedReg s) ++ leBytes 8 (thermReg s) ++ leBytes 8 (twinStatus s) } } with hr
  have hrun : doI3cPrivateRead s = r := if_neg (by simp [hoff, hboot])
  obtain ⟨q, n, hdbg⟩ := traced_dbg (s := r) (r := s)
  refine ⟨_, congrArg (fun t => Host.Outcome.next (traced s t)) hrun, ?_⟩
  have ht : traced s r = { r with dbg := { r.dbg with queue := q, drops := n } } := congrArg (fun g => ({ r with dbg := g } : State)) hdbg
  rw [ht]

theorem i3cWrite_ignored (bs : List Byte) : ∃ t, exec (.i3cWrite bs) s = .next t ∧
    t = { s with dbg := { s.dbg with queue := t.dbg.queue, drops := t.dbg.drops } } := by
  obtain ⟨q, n, hdbg⟩ := traced_dbg (s := s) (r := s)
  refine ⟨traced s s, rfl, ?_⟩
  have ht : traced s s = { s with dbg := { s.dbg with queue := q, drops := n } } := congrArg (fun g => ({ s with dbg := g } : State)) hdbg
  rw [ht]

end Debug

/-- Settles O52: pins reset the module or hold its lanes down, and the debug ports shift out and change no module state. -/
theorem pinsActAndDebugPortsRead : Obligations.PinsActAndDebugPortsRead := by
  unfold Obligations.PinsActAndDebugPortsRead
  refine ⟨fun s h => carrierResetAssert_resets h, fun s h => ?_, fun s hp hst hf => carrierResetRelease_resumes hp hst hf,
    fun s => lsrEnChange_false, fun s h => ?_, fun s h => sb3v3Loss_resets h, fun port st fec s hp hs h => ?_,
    fun s hoff hboot => i3cPrivateRead_reads hoff hboot, fun bs s => i3cWrite_ignored bs, fun s h => ?_⟩
  · exact ⟨_, congrArg (fun t => Host.Outcome.next (traced s t)) (if_pos h :), rfl⟩
  · have hrun : doLsrEnChange true s = { s with pins := { s.pins with lsrEn := true } } := if_pos (by simp [h])
    exact ⟨_, congrArg (fun t => Host.Outcome.next (traced s t)) hrun, rfl⟩
  · exact ⟨_, congrArg (fun t => Host.Outcome.next (traced s t)) (mgtPortLinkChange_sets hp hs h), rfl⟩
  · exact ⟨(extest_shifts h).1, (extest_shifts h).2, jtagShift_shifts h rfl, fun x => boundary_shifts h rfl, fun dr => ringSel_shifts h dr,
      ringData_shifts h, jtagShift_shifts h rfl, fun code hc => bypass_shifts h code hc⟩

end Sys2Proof.Machine
end

section
/-! Held tiles, self-tests, remaps and DEGRADED (R48, R49, R229, R436, R455, R456), and the obligation O43. -/

namespace Sys2Proof.Machine

/-! ### Held tiles (R436) -/

section Held

variable {s : State} {i : Nat} {d : DupWait} {v : DupVerdict}

/-- A held tile no longer waits. -/
def unheld (s : State) (i : Nat) : State := { s with integ := { s.integ with dups := s.integ.dups.eraseIdx i } }

/-- What comes of a held tile's duplicate with two alternates or more. -/
def dupSettled (r : State) (d : DupWait) (v : DupVerdict) (a b : Nat) : State :=
  match v with
  | .equal => commitHeld (noteHeld r d a none) d
  | .thirdFirst f => settleThird (dupLogged (noteHeld (faultHeld r d [a]) d b none) d a true f) d true b
  | .thirdDup f => settleThird (dupLogged (noteHeld (noteHeld (faultHeld r d [d.unit]) d a none) d b none) d d.unit false f) d false b
  | .allDiffer => failHeld (icnt (faultHeld r d [a, b]) 2 1) d

theorem duplicateExecution_none (hd : s.integ.dups[i]? = some d) (ha : dupAlts (unheld s i) d = []) :
    doDuplicateExecution i v s = failHeld (unheld s i) d := by
  unfold doDuplicateExecution
  rw [hd]
  dsimp only
  rw [show dupAlts (setInteg s (fun x => { x with dups := x.dups.eraseIdx i })) d = [] from ha]
  cases v <;> rfl

theorem duplicateExecution_one {a : Nat} (hd : s.integ.dups[i]? = some d) (ha : dupAlts (unheld s i) d = [a]) :
    doDuplicateExecution i v s = if v = .equal then commitHeld (noteHeld (icnt (unheld s i) 1 1) d a none) d
      else failHeld (icnt (faultHeld (icnt (unheld s i) 1 1) d [a]) 2 1) d := by
  unfold doDuplicateExecution
  rw [hd]
  dsimp only
  rw [show dupAlts (setInteg s (fun x => { x with dups := x.dups.eraseIdx i })) d = [a] from ha]
  cases v with
  | equal => exact (if_pos rfl).symm
  | thirdFirst | thirdDup | allDiffer => exact (if_neg nofun).symm

theorem duplicateExecution_two {a b : Nat} {rest : List Nat} (hd : s.integ.dups[i]? = some d) (ha : dupAlts (unheld s i) d = a :: b :: rest) :
    doDuplicateExecution i v s = dupSettled (icnt (unheld s i) 1 1) d v a b := by
  unfold doDuplicateExecution
  rw [hd]
  dsimp only
  rw [show dupAlts (setInteg s (fun x => { x with dups := x.dups.eraseIdx i })) d = a :: b :: rest from ha]
  cases v <;> rfl

theorem duplicateExecution_settles (hd : s.integ.dups[i]? = some d) :
    let u : State := { s with integ := { s.integ with dups := s.integ.dups.eraseIdx i } }
    let r : State := icnt u 1 1
    ∃ t, exec (.duplicateExecution i v) s = .next t ∧
      (dupAlts u d = [] → t = traced s (failHeld u d)) ∧
      (∀ a, dupAlts u d = [a] → t = traced s (if v = .equal then commitHeld (noteHeld r d a none) d
        else failHeld (icnt (faultHeld r d [a]) 2 1) d)) ∧
      (∀ a b rest, dupAlts u d = a :: b :: rest → t = traced s (match v with
        | .equal => commitHeld (noteHeld r d a none) d
        | .thirdFirst f => settleThird (dupLogged (noteHeld (faultHeld r d [a]) d b none) d a true f) d true b
        | .thirdDup f =>
          settleThird (dupLogged (noteHeld (noteHeld (faultHeld r d [d.unit]) d a none) d b none) d d.unit false f) d false b
        | .allDiffer => failHeld (icnt (faultHeld r d [a, b]) 2 1) d)) :=
  ⟨_, rfl, fun h => congrArg (traced s) (duplicateExecution_none hd h), fun _ h => congrArg (traced s) (duplicateExecution_one hd h),
    fun _ _ _ h => congrArg (traced s) (duplicateExecution_two hd h)⟩

end Held

/-! ### DEGRADED (R456, R507) -/

section Degraded

variable {s : State} {unit die logical : Nat}

theorem integ_leaveTwin {cause : Nat} : (leaveTwin s cause).integ = s.integ := by
  unfold leaveTwin
  split
  · rfl
  · extract_lets s1
    have h1 : leaveView s1 = leaveView s := leaveView_ite rfl rfl
    have hi1 : s1.integ = s.integ := (congrArg (·.2.2.1) h1 :)
    clear_value s1
    split
    · exact (congrArg (·.2.2.1) (leaveView_endServing (s := s1)) :).trans hi1
    · have h2 := leaveView_endServing (s := setTwin s1 (fun t => { t with lastLoss := 3, intact := false }))
      have h3 := leaveView_toDetached (s := endServing (setTwin s1 (fun t => { t with lastLoss := 3, intact := false })))
      exact (congrArg (·.2.2.1) h3 :).trans ((congrArg (·.2.2.1) h2 :).trans hi1)

/-- The records of the quarantine and the counters, and whether the module is DEGRADED. -/
def suspectView (i : Integ) := (i.quar, i.cnt)

theorem integ_foldl_floorDie {ds : List Nat} : (ds.foldl floorDie s).integ = s.integ :=
  foldl_keeps (v := State.integ) (f := floorDie) (fun _ _ => rfl) _ _

theorem expelByDegraded_keeps : (expelByDegraded s).integ.degraded = s.integ.degraded ∧
    suspectView (expelByDegraded s).integ = suspectView s.integ := by
  unfold expelByDegraded
  split
  · exact ⟨rfl, rfl⟩
  · exact ⟨rfl, rfl⟩

/-- The module is DEGRADED afterwards, with its quarantine and its counters as they were. -/
theorem enterDegraded_degrades : (enterDegraded s).integ.degraded = true ∧ suspectView (enterDegraded s).integ = suspectView s.integ := by
  unfold enterDegraded
  split
  next h => exact ⟨h, rfl⟩
  extract_lets s1 s2 s3 s4 m s5
  have h1 : s1.integ = s.integ := by
    refine foldl_keeps (v := State.integ) (fun r c => ?_) _ _
    dsimp only
    split
    · split
      · exact integ_of_abortView abortView_abortHere
      · rfl
    · rfl
  have h2 : s2.integ = s1.integ := by
    refine foldl_keeps (v := State.integ) (fun r q => ?_) _ _
    split
    · exact integ_of_abortView (abortView_of_coreView coreView_haltQueue)
    · rfl
  have h4 : s4.integ.degraded = true ∧ suspectView s4.integ = suspectView s2.integ := by
    clear h1 h2
    clear_value s1 s2
    have h3 : s3.integ = s2.integ := rfl
    clear_value s3
    obtain ⟨hd, hv⟩ := expelByDegraded_keeps (s := setInteg s3 (fun i => { i with degraded := true }))
    exact ⟨hd, hv.trans (congrArg suspectView h3 :)⟩
  clear_value s4
  have h5 : s5.integ = s4.integ := rfl
  clear_value s5
  generalize hr : ((List.range 4).filter (dieExists s5)).foldl floorDie s5 = r
  have hr5 : r.integ = s4.integ := hr ▸ integ_foldl_floorDie.trans h5
  have h6 := (integ_leaveTwin (s := r) (cause := 3)).trans hr5
  exact ⟨(congrArg Integ.degraded h6).trans h4.1, (congrArg suspectView h6).trans (h4.2.trans (congrArg suspectView (h2.trans h1)))⟩

end Degraded

/-! ### Self-tests and remaps (R229, R455) -/

section SelfTest

variable {s : State} {unit die logical : Nat} {r : QuarRec}

/-- Whether a quarantine record is of a unit that no spare has replaced. -/
def standsFor (unit die logical : Nat) (x : QuarRec) : Bool :=
  x.unit == unit && x.die == die && x.logical == logical && x.st != 2

theorem standsFor_iff {x : QuarRec} : standsFor unit die logical x = true ↔
    (x.unit = unit ∧ x.die = die ∧ x.logical = logical) ∧ x.st ≠ 2 := by
  simp [standsFor, and_assoc]

/-- The marks of a unit that fails its self-test (R455, R456). -/
def failedRecord (s : State) (unit die logical now : Nat) (x : QuarRec) : QuarRec :=
  if x.unit == unit && x.die == die && x.logical == logical && x.st != 2 then
    { x with testedAt := now, failed := true, st := if spareFree s unit die logical = 0 then 3 else x.st } else x

/-- A unit that stands in the quarantine is not put there again (R454). -/
theorem quarantine_of_standing {trigger bands : Nat} (h : s.integ.quar.any (standsFor unit die logical) = true) :
    quarantine s unit die logical trigger bands = s := if_pos h

theorem judgeUnit_of_standing (h : s.integ.quar.any (standsFor unit die logical) = true) : judgeUnit s unit die logical = s := by
  unfold judgeUnit
  dsimp only
  rw [quarantine_of_standing h, quarantine_of_standing h, ite_self, ite_self]

/-- A failed self-test of a standing unit is logged and changes nothing else. -/
theorem logError_of_standing {pattern : Nat} (h : s.integ.quar.any (standsFor unit die logical) = true) :
    ∃ log n, logError s 4 unit die logical 0 0 0 0 pattern = { s with integ := { s.integ with errlog := log, errCount := n } } := by
  unfold logError logErrorAt
  extract_lets D e i s1 s2
  have hs2 : s2 = s1 := judgeUnit_of_standing h
  refine ⟨(e :: s.integ.errlog).take 1024, (s.integ.errCount + 1) % 2 ^ 32, ?_⟩
  split
  · rfl
  · split
    next hk => simp at hk
    · exact hs2

/-- A standing unit is found by what its record is. -/
theorem any_standing_of_find (hr : s.integ.quar.find? (fun r => r.unit == unit && r.die == die && r.logical == logical &&
      r.st != 2 && !r.failed) = some r) : s.integ.quar.any (standsFor unit die logical) = true := by
  refine List.any_eq_true.mpr ⟨r, List.mem_of_find?_eq_some hr, ?_⟩
  have h := List.find?_some hr
  rw [Bool.and_eq_true] at h
  exact h.1

/-- A record keeps its unit when it is marked. -/
theorem failedRecord_unit {x : QuarRec} {now : Nat} : (failedRecord s unit die logical now x).unit = x.unit ∧
    (failedRecord s unit die logical now x).die = x.die ∧ (failedRecord s unit die logical now x).logical = x.logical := by
  unfold failedRecord
  split
  · exact ⟨rfl, rfl, rfl⟩
  · exact ⟨rfl, rfl, rfl⟩

theorem failedRecord_fails {x y : QuarRec} {now : Nat} (hx : x = failedRecord s unit die logical now y) (hu : x.unit = unit)
    (hd : x.die = die) (hl : x.logical = logical) :
    (x.st ≠ 2 → x.failed = true) ∧ (spareFree s unit die logical = 0 → x.st = 2 ∨ x.st = 3) := by
  obtain ⟨h1, h2, h3⟩ := failedRecord_unit (s := s) (unit := unit) (die := die) (logical := logical) (x := y) (now := now)
  rw [← hx] at h1 h2 h3
  by_cases hy : y.st = 2
  · have hxy : x = y := by simp [hx, failedRecord, hy]
    subst hxy
    exact ⟨fun h => absurd hy h, fun _ => .inl hy⟩
  · have hm : standsFor unit die logical y = true := standsFor_iff.mpr ⟨⟨h1.symm.trans hu, h2.symm.trans hd, h3.symm.trans hl⟩, hy⟩
    have hxy := hx.trans (if_pos hm)
    subst hxy
    exact ⟨fun _ => rfl, fun h0 => .inr (if_pos h0)⟩

/-- What a unit leaves that fails its self-test: before DEGRADED. -/
theorem selfTest_fails (hr : s.integ.quar.find? (fun r => r.unit == unit && r.die == die && r.logical == logical &&
      r.st != 2 && !r.failed) = some r) (hb : natBit r.bands (tempBand (s.pwr.dies.getD die {}).tmaxC) = true) :
    ∃ u now, doSelfTest unit die logical false s = (if spareFree s unit die logical = 0 then enterDegraded u else u) ∧
      suspectView u.integ = (s.integ.quar.map (failedRecord s unit die logical now), bumpAt (bumpAt s.integ.cnt 10 1) 11 1) := by
  obtain ⟨log, n, hlog⟩ := logError_of_standing (s := icnt (drawFree (icnt s 10 1)).2 11 1) (unit := unit) (die := die)
    (logical := logical) (pattern := (drawFree (icnt s 10 1)).1.toNat % 7) (any_standing_of_find (s := s) hr)
  unfold doSelfTest
  rw [hr]
  dsimp only
  rw [hb, hlog]
  exact ⟨_, s.now, rfl, rfl⟩

theorem selfTest_pass (hr : s.integ.quar.find? (fun r => r.unit == unit && r.die == die && r.logical == logical &&
      r.st != 2 && !r.failed) = some r) (hb : natBit r.bands (tempBand (s.pwr.dies.getD die {}).tmaxC) = true) :
    ∃ t, exec (.selfTest unit die logical true) s = .next t ∧ t = { s with
      integ := { s.integ with cnt := bumpAt s.integ.cnt 10 1
                              quar := s.integ.quar.map (fun x => if x == r then { x with testedAt := s.now } else x) }
      dbg := t.dbg } := by
  have hrun : doSelfTest unit die logical true s = { s with integ := { s.integ with
      cnt := bumpAt s.integ.cnt 10 1
      quar := s.integ.quar.map (fun x => if x == r then { x with testedAt := s.now } else x) } } := by
    unfold doSelfTest
    rw [hr]
    dsimp only
    rw [hb]
    rfl
  exact ⟨_, congrArg (fun t => Host.Outcome.next (traced s t)) hrun, rfl⟩

theorem selfTest_fail (hr : s.integ.quar.find? (fun r => r.unit == unit && r.die == die && r.logical == logical &&
      r.st != 2 && !r.failed) = some r) (hb : natBit r.bands (tempBand (s.pwr.dies.getD die {}).tmaxC) = true) :
    ∃ t, exec (.selfTest unit die logical false) s = .next t ∧
      (∀ x, x ∈ t.integ.quar → x.unit = unit → x.die = die → x.logical = logical → x.st ≠ 2 → x.failed = true) ∧
      t.integ.cnt = bumpAt (bumpAt s.integ.cnt 10 1) 11 1 ∧
      (spareFree s unit die logical = 0 → t.integ.degraded = true ∧
        ∀ x, x ∈ t.integ.quar → x.unit = unit → x.die = die → x.logical = logical → x.st = 2 ∨ x.st = 3) := by
  obtain ⟨u, now, hrun, hu⟩ := selfTest_fails hr hb
  have hview : suspectView (doSelfTest unit die logical false s).integ = suspectView u.integ := by
    rw [hrun]
    split
    · exact enterDegraded_degrades.2
    · rfl
  have hquar := (congrArg (·.1) (hview.trans hu) :)
  have hof : ∀ x, x ∈ (doSelfTest unit die logical false s).integ.quar → x.unit = unit → x.die = die → x.logical = logical →
      (x.st ≠ 2 → x.failed = true) ∧ (spareFree s unit die logical = 0 → x.st = 2 ∨ x.st = 3) := by
    intro x hx hxu hxd hxl
    rw [show (doSelfTest unit die logical false s).integ.quar = _ from hquar] at hx
    obtain ⟨y, -, hy⟩ := List.mem_map.mp hx
    exact failedRecord_fails hy.symm hxu hxd hxl
  refine ⟨_, rfl, fun x hx h1 h2 h3 => (hof x hx h1 h2 h3).1, (congrArg (·.2) (hview.trans hu) :),
    fun h0 => ⟨?_, fun x hx h1 h2 h3 => (hof x hx h1 h2 h3).2 h0⟩⟩
  have h := hrun.trans (if_pos h0)
  exact (congrArg (fun t : State => t.integ.degraded) h).trans enterDegraded_degrades.1

/-- REMAP_APPLY of an idle unit with a free spare (R48, R49, R229). -/
theorem remapApply_remaps (hready : s.integ.remapReady.any (fun r => r.unit == unit && r.die == die && r.logical == logical) = true)
    (hidle : unitBusy s unit die logical = false) (hfree : spareFree s unit die logical ≠ 0) :
    ∃ t, exec (.remapApply unit die logical) s = .next t ∧
      physOf t unit die logical = spareIndex (s.integ.spares.getD die {}) unit logical ∧
      t.integ.spares = s.integ.spares.modify die (fun p => takeSpare p unit logical) ∧
      (∀ x, x ∈ t.integ.quar → x.unit = unit → x.die = die → x.logical = logical → x.st = 2) ∧
      t.comp.mem = s.comp.mem ∧ (∀ q, regsOf t q = regsOf s q) ∧ t.coll = s.coll ∧ t.fab = s.fab ∧ t.tops = s.tops := by
  have hrun : doRemapApply unit die logical s = applyRemap s unit die logical := by
    unfold doRemapApply
    rw [hready, hidle]
    rfl
  refine ⟨_, congrArg (fun t => Host.Outcome.next (traced s t)) (hrun.trans (if_neg hfree)), ?_, rfl, ?_, rfl, fun _ => rfl, rfl, rfl, rfl⟩
  · have hfind : ∀ (rs : List Remap) (n : Remap), (n.unit == unit && n.die == die && n.logical == logical) = true →
        (rs.filter (fun r => !(r.unit == unit && r.die == die && r.logical == logical)) ++ [n]).find?
          (fun r => r.unit == unit && r.die == die && r.logical == logical) = some n := by
      intro rs n hn
      rw [List.find?_append, List.find?_eq_none.mpr, Option.none_or, List.find?_cons, hn]
      intro x hx hxn
      have := (List.mem_filter.mp hx).2
      rw [hxn] at this
      exact absurd this Bool.false_ne_true
    have h := hfind s.integ.remaps ⟨unit, die, logical, spareIndex (s.integ.spares.getD die {}) unit logical⟩ (by simp)
    unfold physOf
    exact (congrArg (fun o : Option Remap => match o with | some r => r.phys | none => logical) h :)
  · intro x hx hu hd hl
    obtain ⟨y, -, hy⟩ := List.mem_map.mp (show x ∈ s.integ.quar.map (fun r =>
      if r.unit == unit && r.die == die && r.logical == logical && r.st != 2 then { r with st := 2 } else r) from hx)
    split at hy
    next => exact (congrArg QuarRec.st hy).symm
    next hn =>
      subst hy
      by_contra h
      exact hn (standsFor_iff.mpr ⟨⟨hu, hd, hl⟩, h⟩)

end SelfTest

/-- Settles O43: a held tile is judged by its duplicate, a standing unit's failed self-test is logged and never quarantines
it again, and a remap takes the spare's place in the map, the pool and the record. -/
theorem suspectUnitsAreTestedAndReplaced : Obligations.SuspectUnitsAreTestedAndReplaced := by
  unfold Obligations.SuspectUnitsAreTestedAndReplaced
  exact ⟨fun _ _ _ _ hd => duplicateExecution_settles hd,
    fun _ _ _ _ _ hr hb => ⟨selfTest_pass hr hb, selfTest_fail hr hb⟩,
    fun _ _ _ _ hready hidle hfree => remapApply_remaps hready hidle hfree⟩

end Sys2Proof.Machine
end

section
/-! The blocks of a DMA copy and its run-ahead (R266, R419, R420), and the obligation O20. -/

namespace Sys2Proof.Machine

/-! ### A block's bytes and poison -/

section Block

variable {s t : State} {k : Copy}

theorem xlate_withMem (h : t.tops = s.tops) {job : Nat} {va : Int} : xlate (withMem t s) job va = xlate s job va := by
  unfold xlate topOf
  rw [← h]
  rfl

theorem readVAs_withMem (h : t.tops = s.tops) {job n : Nat} {va : Int} : readVAs (withMem t s) job va n = readVAs s job va n := by
  unfold readVAs readVA
  simp only [xlate_withMem h]
  rfl

theorem blockWrites_withMem (h : t.tops = s.tops) : blockWrites (withMem t s) k = blockWrites s k := by
  unfold blockWrites
  simp only [readVAs_withMem h]

/-- The poison of one byte of a run: `s0` is the state before the block. -/
def poisonByte (s0 : State) (job : Nat) (bad : Option Nat) (r : Int × Int × Nat) (s : State) (j : Nat) : State :=
  match xlate s0 job (r.1 + j), xlate s job (r.2.1 + j) with
  | some a, some b =>
    if s0.comp.mem.poisonedIn a 1 || bad.any (fun k => k / 64 == a / 64) then
      { s with comp := { s.comp with mem := s.comp.mem.setPoison b } }
    else s
  | _, _ => s

theorem poisonRun_eq (s0 s : State) (job : Nat) (bad : Option Nat) (r : Int × Int × Nat) :
    poisonRun s0 s job bad r = (List.range r.2.2).foldl (poisonByte s0 job bad r) s := rfl

theorem poisonByte_memOnly (s0 : State) (job : Nat) (bad : Option Nat) (r : Int × Int × Nat) (j : Nat) :
    MemOnly (fun s => poisonByte s0 job bad r s j) := by
  intro s t h
  unfold poisonByte
  dsimp only
  rw [xlate_withMem h]
  split
  · split <;> exact ⟨rfl, rfl⟩
  · exact ⟨rfl, rfl⟩

theorem poisonRun_memOnly (s0 : State) (job : Nat) (bad : Option Nat) (r : Int × Int × Nat) :
    MemOnly (fun s => poisonRun s0 s job bad r) := by
  have h := MemOnly.foldl (poisonByte_memOnly s0 job bad r) (List.range r.2.2)
  exact h

theorem poisonRun_withMem (h : t.tops = s.tops) {job : Nat} {bad : Option Nat} {r : Int × Int × Nat} (s' : State) :
    poisonRun (withMem t s) s' job bad r = poisonRun s s' job bad r := by
  unfold poisonRun
  simp only [xlate_withMem h]
  rfl

/-- A block's move changes memory and frames alone, and reads nothing but them and the Topiaries (R419). -/
theorem moveBlock_memOnly (k : Copy) (bad : Option Nat) : MemOnly (fun s => moveBlock s k bad) := by
  intro s t h
  have hmove : MemOnly (fun s' => (blockRuns k k.block).1.foldl (fun s' r => poisonRun s s' k.job bad r)
      (writeOps s' k.job (blockWrites s k))) :=
    (writeOps_memOnly k.job (blockWrites s k)).comp
      (MemOnly.foldl (poisonRun_memOnly s k.job bad) (blockRuns k k.block).1)
  have heq : moveBlock (withMem t s) k bad = (blockRuns k k.block).1.foldl (fun s' r => poisonRun s s' k.job bad r)
      (writeOps (withMem t s) k.job (blockWrites s k)) := by
    unfold moveBlock
    rw [blockWrites_withMem h]
    simp only [poisonRun_withMem h]
  dsimp only
  rw [heq]
  exact hmove s t h

end Block

/-! ### The end of a block (R419) -/

section Finish

variable {s : State} {i : Nat} {k : Copy} {ws : List WriteOp}

theorem updateFirst_congr {α : Type} {p : α → Bool} {f g : α → α} (h : ∀ x, p x = true → f x = g x) :
    ∀ xs, updateFirst p f xs = updateFirst p g xs
  | [] => rfl
  | x :: xs => by
    unfold updateFirst
    rw [updateFirst_congr h xs]
    split
    next hp => rw [h x hp]
    · rfl

theorem finishBlock_next (h : k.block + 1 < copyBlocks k.src) :
    finishBlock s i k ws = setChan s i { chanAt s i with
      waiting := false
      copies := updateFirst (fun x => x == k) (fun x => { x with block := x.block + 1, fed := k.fed ++ feedsOf ws }) (chanAt s i).copies } :=
  if_pos h

/-- The state in which a copy has left its channel and fed its digest. -/
def copyEnded (s : State) (i : Nat) (k : Copy) (ws : List WriteOp) : State :=
  feedHeld (setChan s i { chanAt s i with waiting := false, copies := (chanAt s i).copies.erase k }) k.queue k.feedId (k.fed ++ feedsOf ws)

theorem finishBlock_last (h : ¬ k.block + 1 < copyBlocks k.src) :
    finishBlock s i k ws = match k.flag with
      | some f => setJobFlag (copyEnded s i k ws) k.job f true
      | none => copyEnded s i k ws := if_neg h

/-- What the end of a block leaves: memory, the Laurel lists, vector flags and everything outside the compute dies. -/
def blockView (s : State) := (s.comp.mem, s.comp.laurel, s.comp.fpVec, s.tops, s.fab, s.coll, s.integ, s.pwr, s.mgt, s.snap, s.pins)

theorem copyEnded_eq : ∃ qs, copyEnded s i k ws = { setChan s i { chanAt s i with waiting := false, copies := (chanAt s i).copies.erase k } with
    comp := { (setChan s i { chanAt s i with waiting := false, copies := (chanAt s i).copies.erase k }).comp with queues := qs } } := by
  unfold copyEnded feedHeld
  split
  · exact ⟨_, rfl⟩
  · exact ⟨_, rfl⟩

theorem blockView_finishBlock : blockView (finishBlock s i k ws) = blockView s := by
  by_cases h : k.block + 1 < copyBlocks k.src
  · rw [finishBlock_next h]
    rfl
  · rw [finishBlock_last h]
    obtain ⟨qs, hq⟩ := copyEnded_eq (s := s) (i := i) (k := k) (ws := ws)
    rw [hq]
    split <;> rfl

theorem chanAt_finishBlock_ne {j : Nat} (hj : j ≠ i) : chanAt (finishBlock s i k ws) j = chanAt s j := by
  by_cases h : k.block + 1 < copyBlocks k.src
  · rw [finishBlock_next h, chanAt_setChan, if_neg (Ne.symm hj)]
  · rw [finishBlock_last h]
    obtain ⟨qs, hq⟩ := copyEnded_eq (s := s) (i := i) (k := k) (ws := ws)
    rw [hq]
    have hne : chanAt (setChan s i { chanAt s i with waiting := false, copies := (chanAt s i).copies.erase k }) j = chanAt s j := by
      rw [chanAt_setChan, if_neg (Ne.symm hj)]
    split <;> exact hne

theorem finishBlock_copies : if k.block + 1 < copyBlocks k.src then (chanAt (finishBlock s i k ws) i).copies =
      updateFirst (fun x => x == k) (fun x => { x with block := x.block + 1, fed := x.fed ++ feedsOf ws }) (chanAt s i).copies
    else (chanAt (finishBlock s i k ws) i).copies = (chanAt s i).copies.erase k ∧
      ∀ f, k.flag = some f → jobFlag (finishBlock s i k ws) k.job f = true := by
  split
  next h =>
    rw [finishBlock_next h, chanAt_setChan, if_pos rfl]
    exact updateFirst_congr (fun x hx => by rw [eq_of_beq hx]) _
  next h =>
    rw [finishBlock_last h]
    obtain ⟨qs, hq⟩ := copyEnded_eq (s := s) (i := i) (k := k) (ws := ws)
    rw [hq]
    have hcopies : (chanAt (setChan s i { chanAt s i with waiting := false, copies := (chanAt s i).copies.erase k }) i).copies =
        (chanAt s i).copies.erase k := by
      rw [chanAt_setChan, if_pos rfl]
    split
    next f hf =>
      refine ⟨hcopies, fun g hg => ?_⟩
      obtain rfl : f = g := Option.some.inj (hf.symm.trans hg)
      rw [jobFlag_setJobFlag, if_pos ⟨rfl, rfl⟩]
    next hf => exact ⟨hcopies, fun g hg => absurd (hf.symm.trans hg) nofun⟩

end Finish

/-! ### DMA_BLOCK and DMA_RUN_AHEAD -/

section Dma

variable {s : State} {die ch q : Nat} {k : Copy} {w : Word}

/-- A block with its translations done: a clean block that needs no bounce buffer. -/
theorem dmaBlock_moves (hk : nextCopy s (chanAt s (32 * die + ch)) = some k) (hf : isFrozen s (1 + die) (reqId 2 (32 * die + ch) k.job) = false)
    (hw : (bpmAt s (1 + die)).waiting.any (fun w => w.1 == reqId 2 (32 * die + ch) k.job) = false)
    (hpre : preCheck s k.job die .dma (blockAccs k k.block) = .ok) (hmv : (blockAccs k k.block).any (pageMoving s k.job) = false)
    (hb : ∀ n tlb cnt, bounces (withMmu s n tlb cnt) k = false) :
    ∃ n tlb cnt, doDmaBlock die ch .clean none s = finishBlock (moveBlock (withMmu s n tlb cnt) k none) (32 * die + ch) k
      (blockWrites (withMmu s n tlb cnt) k) := by
  obtain ⟨n, tlb, cnt, htlb⟩ := tlbTouch_eq die (512 + ch) 64 k.job (accPages s k.job (blockAccs k k.block)) s
  refine ⟨n, tlb, cnt, ?_⟩
  unfold doDmaBlock
  dsimp only
  rw [hk]
  dsimp only
  rw [hf, hw, Bool.or_false, if_neg Bool.false_ne_true, Option.bind_none]
  dsimp only
  rw [hpre]
  dsimp only
  rw [hmv, if_neg Bool.false_ne_true, htlb, hb, if_neg Bool.false_ne_true]

theorem dmaBlock_commits (hk : nextCopy s (chanAt s (32 * die + ch)) = some k) (hf : isFrozen s (1 + die) (reqId 2 (32 * die + ch) k.job) = false)
    (hw : (bpmAt s (1 + die)).waiting.any (fun w => w.1 == reqId 2 (32 * die + ch) k.job) = false)
    (hpre : preCheck s k.job die .dma (blockAccs k k.block) = .ok) (hmv : (blockAccs k k.block).any (pageMoving s k.job) = false)
    (hb : bounces s k = false) :
    ∃ t, exec (.dmaBlock die ch .clean none) s = .next t ∧ t.comp.mem = (moveBlock s k none).comp.mem ∧
      (if k.block + 1 < copyBlocks k.src then (chanAt t (32 * die + ch)).copies =
          updateFirst (fun x => x == k) (fun x => { x with block := x.block + 1, fed := x.fed ++ feedsOf (blockWrites s k) })
            (chanAt s (32 * die + ch)).copies
       else (chanAt t (32 * die + ch)).copies = (chanAt s (32 * die + ch)).copies.erase k ∧ (∀ f, k.flag = some f → jobFlag t k.job f = true)) ∧
      (∀ j, j ≠ 32 * die + ch → chanAt t j = chanAt s j) ∧ KeepsOutside s t ∧ t.comp.laurel = s.comp.laurel ∧
      t.comp.fpVec = s.comp.fpVec := by
  obtain ⟨n, tlb, cnt, hrun⟩ := dmaBlock_moves hk hf hw hpre hmv (fun _ _ _ => hb)
  have hmove : moveBlock (withMmu s n tlb cnt) k none = withMem (withMmu s n tlb cnt) (moveBlock s k none) :=
    (moveBlock_memOnly k none).congr (s := s) (t := withMmu s n tlb cnt) rfl rfl rfl
  have hws : blockWrites (withMmu s n tlb cnt) k = blockWrites s k := rfl
  rw [hmove, hws] at hrun
  have hview : blockView (doDmaBlock die ch .clean none s) = blockView (withMem (withMmu s n tlb cnt) (moveBlock s k none)) :=
    (congrArg blockView hrun).trans blockView_finishBlock
  simp only [blockView, Prod.mk.injEq] at hview
  obtain ⟨hmem, hlaurel, hfp, htops, hfab, hcoll, hinteg, hpwr, hmgt, hsnap, hpins⟩ := hview
  refine ⟨_, rfl, hmem, ?_, fun j hj => ?_, ⟨htops, hfab, hcoll, hinteg, hpwr, hmgt, hsnap, hpins⟩, hlaurel, hfp⟩
  · rw [show chanAt (traced s (doDmaBlock die ch .clean none s)) = chanAt (doDmaBlock die ch .clean none s) from rfl, hrun]
    exact finishBlock_copies
  · exact (congrArg (chanAt · j) hrun).trans (chanAt_finishBlock_ne hj)

/-- The queue after one more word has been prefetched. -/
def ranAhead (s : State) (q : Nat) : State := setQueue s q (fun Q => { Q with runAhead := Q.runAhead + 1 })

theorem dmaRunAhead_eq (hbd : (queueAt s q).bound = true) (ht : (queueAt s q).qtype = .dma) (hst : (queueAt s q).st = .run)
    (hlt : (queueAt s q).runAhead < 64) (hstop : ((wordsAhead s q).take ((queueAt s q).runAhead + 2)).any stopsRunAhead = false)
    (hw : (wordsAhead s q)[(queueAt s q).runAhead + 1]? = some w) :
    ∃ n tlb cnt, doDmaRunAhead q s = withMmu (ranAhead s q) n tlb cnt := by
  have hself : ∃ n tlb cnt, ranAhead s q = withMmu (ranAhead s q) n tlb cnt :=
    ⟨(ranAhead s q).freeCtr, (ranAhead s q).comp.tlb, (ranAhead s q).comp.mmuCnt, rfl⟩
  unfold doDmaRunAhead
  simp only [if_pos (show (queueAt s q).bound = true ∧ (queueAt s q).qtype = .dma ∧ (queueAt s q).st = .run ∧ (queueAt s q).runAhead < 64
    from ⟨hbd, ht, hst, hlt⟩)]
  rw [hstop, if_neg Bool.false_ne_true, hw]
  dsimp only
  split
  · split
    · exact tlbTouch_eq _ _ _ _ _ _
    · exact hself
  · exact hself

theorem dmaRunAhead_prefetches (hbd : (queueAt s q).bound = true) (ht : (queueAt s q).qtype = .dma) (hst : (queueAt s q).st = .run)
    (hlt : (queueAt s q).runAhead < 64) (hstop : ((wordsAhead s q).take ((queueAt s q).runAhead + 2)).any stopsRunAhead = false)
    (hw : (wordsAhead s q)[(queueAt s q).runAhead + 1]? = some w) :
    ∃ t, exec (.dmaRunAhead q) s = .next t ∧ (queueAt t q).runAhead = (queueAt s q).runAhead + 1 ∧ Stands s t q ∧
      regsOf t q = regsOf s q ∧ ScalarFrame s t q := by
  obtain ⟨n, tlb, cnt, hrun⟩ := dmaRunAhead_eq hbd ht hst hlt hstop hw
  have hq : q < s.comp.queues.length := bound_lt hbd
  have hcore : coreView (withMmu (ranAhead s q) n tlb cnt) = coreView s :=
    coreView_setQueue (f := fun Q => { Q with runAhead := Q.runAhead + 1 }) (fun _ => ⟨rfl, rfl, rfl, rfl, rfl, rfl⟩)
  have hpos : posView (withMmu (ranAhead s q) n tlb cnt) = posView s :=
    posView_setQueue (f := fun Q => { Q with runAhead := Q.runAhead + 1 }) (fun _ => ⟨rfl, rfl, rfl, rfl, rfl⟩)
  refine ⟨_, congrArg (fun t => Host.Outcome.next (traced s t)) hrun, ?_, (Stands.of_posView hpos), regsOf_of_coreView hcore q,
    (ScalarFrame.of_coreView hcore).traced⟩
  exact congrArg Queue.runAhead (queueAt_setQueue_self hq)

end Dma

/-- Settles O20: a block's move reads memory, frames and Topiaries alone, so its translations leave it as it is. -/
theorem dmaBlockMovesItsBytes : Obligations.DmaBlockMovesItsBytes := by
  unfold Obligations.DmaBlockMovesItsBytes
  exact ⟨fun _ _ _ _ hk hf hw hpre hmv hb => dmaBlock_commits hk hf hw hpre hmv hb,
    fun _ _ _ hbd ht hst hlt hstop hw => dmaRunAhead_prefetches hbd ht hst hlt hstop hw⟩

end Sys2Proof.Machine
end

section
/-! A block pass of a Laurel array that commits (R220, R233, R265), and the obligation O19. -/

namespace Sys2Proof.Machine

section Tile

variable {s : State}

/-- A first execution is not sampled while duplicates are off (R435, R437). -/
theorem sampleTile_off {kind die unit job : Nat} (h : sampleD s.integ = none) :
    ∃ cnts, sampleTile s kind die unit job = (setInteg s (fun i => { i with sampleCnt := cnts }), false) := by
  unfold sampleTile
  dsimp only
  rw [h]
  exact ⟨_, rfl⟩

theorem tileFailures_clean : tileFailures s .clean = [] := rfl

theorem noteAnomalies_eq {die job unit ord : Nat} : ∀ (as : List (Nat × Nat × Nat)) (s : State),
    ∃ cnt last, noteAnomalies s die job unit ord as = { s with comp := { s.comp with metaCnt := cnt, metaLast := last } }
  | [], s => ⟨s.comp.metaCnt, s.comp.metaLast, rfl⟩
  | a :: as, s => by
    unfold noteAnomalies
    rw [List.foldl_cons]
    obtain ⟨cnt, last, h⟩ := noteAnomalies_eq as _
    exact ⟨cnt, last, h⟩

end Tile

/-! ### The execution of a clean pass -/

section Pass

variable {s : State} {die i job : Nat} {wk : LaurelWork} {o : PassOut}

/-- What an execution leaves as it was: memory, frames, the Laurel lists, DMA channels, vector and job flags, and the units
outside the compute dies. -/
def passView (s : State) := (s.tops, s.comp.mem, s.comp.frames, s.comp.laurel, s.comp.chans, s.comp.fpVec, s.fab, s.coll, s.mgt, s.pwr)

/-- One execution counts its pass and leaves the rest (R233). -/
theorem notePass_counts : passView (notePass s die wk o) = passView s ∧
    (notePass s die wk o).comp.mtxPasses = insertKey s.comp.mtxPasses die ((lookupD s.comp.mtxPasses die 0 + 1) % 2 ^ 32) := by
  unfold notePass
  dsimp only
  obtain ⟨cnt, last, h⟩ := noteAnomalies_eq (die := die) (job := wk.job) (unit := 2) (ord := 0)
    (o.anomalies.map (fun a => (0, a.1, a.2))) (flagMtx s die o.flags wk.job)
  rw [h]
  unfold flagMtx
  split
  · exact ⟨rfl, rfl⟩
  · exact ⟨rfl, rfl⟩

theorem failedPasses_nil : failedPasses s die [] wk o = s := rfl

/-- A clean pass without sampling is its one execution and its commit. -/
theorem laurelBlockPass_executes (hn : nextLaurel s die = some (i, wk)) (hheld : passHeld s die = false) (hsample : sampleD s.integ = none)
    (hpre : preCheck s wk.job die .laurel (laurelPass s wk.job wk).accs = .ok) :
    ∃ n tlb cnt integ, doLaurelBlockPass die .clean s =
      commitPass (notePass { withMmu s n tlb cnt with integ := integ } die wk (laurelPass s wk.job wk)) die i wk (laurelPass s wk.job wk) := by
  obtain ⟨n, tlb, cnt, htlb⟩ := tlbTouch_eq die 256 64 wk.job (accPages s wk.job (laurelPass s wk.job wk).accs) s
  obtain ⟨cnts, hcnts⟩ := sampleTile_off (s := countTile (withMmu s n tlb cnt) 2 die) (kind := 2) (die := die) (unit := 0)
    (job := wk.job) hsample
  refine ⟨n, tlb, cnt, (setInteg (countTile (withMmu s n tlb cnt) 2 die) (fun i => { i with sampleCnt := cnts })).integ, ?_⟩
  unfold doLaurelBlockPass
  rw [hn]
  dsimp only
  rw [hheld, if_neg Bool.false_ne_true, hpre]
  dsimp only
  rw [htlb, hcnts]
  simp only [tileFailures_clean, List.take_nil, failedPasses_nil]
  rfl

end Pass

/-! ### The commit of a pass -/

section Commit

variable {s : State} {die i : Nat} {wk : LaurelWork} {o : PassOut}

/-- The passes that a work has run when a pass has been written. -/
def passesRun (wk : LaurelWork) (o : PassOut) : Nat := if o.last then wk.pass + 1 else wk.pass

theorem commitPass_goesOn (h : passesRun wk o < wk.total) : commitPass s die i wk o =
    setLaurel (writeOps s wk.job o.writes) die i (fun w => { w with
      pass := passesRun wk o, kLo := o.kLo, acc := o.acc, tileOff := o.tileOff
      fed := wk.fed ++ o.writes.filter (·.slot.isSome) }) := if_pos h

/-- The work has left its die's list and fed its digests. -/
def workLeft (s : State) (die i : Nat) (wk : LaurelWork) (o : PassOut) : State :=
  laurelFeeds (dropLaurel (writeOps s wk.job o.writes) die i) wk (wk.fed ++ o.writes.filter (·.slot.isSome))

/-- Its flag is set, where it has one (R265). -/
def workFlagged (s : State) (die i : Nat) (wk : LaurelWork) (o : PassOut) : State :=
  match wk.flag with
  | some f => setJobFlag (workLeft s die i wk o) wk.job f true
  | none => workLeft s die i wk o

theorem commitPass_ends (h : ¬ passesRun wk o < wk.total) : commitPass s die i wk o =
    if wk.fromMtx then advance (setQueue (workFlagged s die i wk o) wk.queue (fun Q => { Q with mtxBusy := false })) wk.queue
    else workFlagged s die i wk o := if_neg h

theorem laurelFeeds_eq {ws : List WriteOp} : ∃ f, laurelFeeds s wk ws = setQueue s wk.queue f := by
  unfold laurelFeeds
  dsimp only
  split
  · exact ⟨_, setQueue_id.symm⟩
  · exact ⟨_, rfl⟩

/-- Memory, the channels, the flags of the chain groups, the counted passes and the units outside the compute dies. -/
def engineView (s : State) := (s.comp.mem, s.comp.mtxPasses, s.comp.chans, s.comp.fpVec, s.tops, s.fab, s.coll, s.mgt, s.pwr)

/-- Those and the Laurel lists and job flags. -/
def workView (s : State) := (engineView s, s.comp.laurel, s.comp.jobFlags)

theorem workView_of_coreView {t : State} (h : coreView t = coreView s) : workView t = workView s := by
  simp only [coreView, Prod.mk.injEq] at h
  obtain ⟨-, hmem, hflags, hvec, -, -, hlaurel, hpasses, hchans, htops, hfab, hcoll, -, hpwr, hmgt, -⟩ := h
  simp only [workView, engineView, hmem, hflags, hvec, hlaurel, hpasses, hchans, htops, hfab, hcoll, hpwr, hmgt]

theorem workView_setQueue {q : Nat} {f : Queue → Queue} : workView (setQueue s q f) = workView s := rfl

theorem workView_commitPass (h : ¬ passesRun wk o < wk.total) :
    workView (commitPass s die i wk o) = workView (workFlagged s die i wk o) := by
  rw [commitPass_ends h]
  split
  · exact (workView_of_coreView coreView_advance).trans workView_setQueue
  · rfl

theorem workFlagged_leaves : engineView (workFlagged s die i wk o) = engineView (writeOps s wk.job o.writes) ∧
    (workFlagged s die i wk o).comp.laurel = (dropLaurel (writeOps s wk.job o.writes) die i).comp.laurel ∧
    ∀ f, wk.flag = some f → jobFlag (workFlagged s die i wk o) wk.job f = true := by
  unfold workFlagged workLeft
  obtain ⟨f, hf⟩ := laurelFeeds_eq (s := dropLaurel (writeOps s wk.job o.writes) die i) (wk := wk)
    (ws := wk.fed ++ o.writes.filter (·.slot.isSome))
  rw [hf]
  split
  next g hg =>
    refine ⟨rfl, rfl, fun g' hg' => ?_⟩
    obtain rfl : g = g' := Option.some.inj (hg.symm.trans hg')
    rw [jobFlag_setJobFlag, if_pos ⟨rfl, rfl⟩]
  next hg => exact ⟨rfl, rfl, fun g' hg' => absurd (hg.symm.trans hg') nofun⟩

theorem engineView_commitPass : engineView (commitPass s die i wk o) = engineView (writeOps s wk.job o.writes) := by
  by_cases h : passesRun wk o < wk.total
  · rw [commitPass_goesOn h]
    rfl
  · exact (congrArg Prod.fst (workView_commitPass h) :).trans workFlagged_leaves.1

/-- Where a written pass leaves its work. -/
theorem commitPass_laurel : if passesRun wk o < wk.total then (commitPass s die i wk o).comp.laurel =
      (writeOps s wk.job o.writes).comp.laurel.modify die (fun ws => ws.modify i (fun w => { w with
        pass := passesRun wk o, kLo := o.kLo, acc := o.acc, tileOff := o.tileOff
        fed := wk.fed ++ o.writes.filter (·.slot.isSome) }))
    else (commitPass s die i wk o).comp.laurel = (writeOps s wk.job o.writes).comp.laurel.modify die (fun ws => ws.eraseIdx i) ∧
      ∀ f, wk.flag = some f → jobFlag (commitPass s die i wk o) wk.job f = true := by
  split
  next h => rw [commitPass_goesOn h]; rfl
  next h =>
    have hview := workView_commitPass (s := s) (die := die) (i := i) h
    obtain ⟨-, hlaurel, hflag⟩ := workFlagged_leaves (s := s) (die := die) (i := i) (wk := wk) (o := o)
    refine ⟨(congrArg (·.2.1) hview :).trans hlaurel, fun f hf => ?_⟩
    rw [jobFlag_of_jobFlags (congrArg (·.2.2) hview :)]
    exact hflag f hf

end Commit

section Laurel

variable {s : State} {die i : Nat} {wk : LaurelWork}

theorem laurelBlockPass_commits (hn : nextLaurel s die = some (i, wk)) (hheld : passHeld s die = false) (hsample : sampleD s.integ = none)
    (hpre : preCheck s wk.job die .laurel (laurelPass s wk.job wk).accs = .ok) :
    let o := laurelPass s wk.job wk
    ∃ t, exec (.laurelBlockPass die .clean) s = .next t ∧
      t.comp.mem = (writeOps s wk.job o.writes).comp.mem ∧
      lookupD t.comp.mtxPasses die 0 = (lookupD s.comp.mtxPasses die 0 + 1) % 2 ^ 32 ∧
      (if (if o.last then wk.pass + 1 else wk.pass) < wk.total then t.comp.laurel =
          s.comp.laurel.modify die (fun ws => ws.modify i (fun w => { w with
            pass := if o.last then wk.pass + 1 else wk.pass, kLo := o.kLo, acc := o.acc, tileOff := o.tileOff
            fed := wk.fed ++ o.writes.filter (·.slot.isSome) }))
       else t.comp.laurel = s.comp.laurel.modify die (fun ws => ws.eraseIdx i) ∧
         (∀ f, wk.flag = some f → jobFlag t wk.job f = true)) ∧
      t.fab = s.fab ∧ t.coll = s.coll ∧ t.mgt = s.mgt ∧ t.pwr = s.pwr ∧ t.tops = s.tops ∧ t.comp.chans = s.comp.chans ∧
      t.comp.fpVec = s.comp.fpVec := by
  intro o
  obtain ⟨n, tlb, cnt, integ, hrun⟩ := laurelBlockPass_executes hn hheld hsample hpre
  obtain ⟨hnote, hcount⟩ := notePass_counts (s := { withMmu s n tlb cnt with integ := integ }) (die := die) (wk := wk) (o := o)
  change doLaurelBlockPass die .clean s = commitPass (notePass { withMmu s n tlb cnt with integ := integ } die wk o) die i wk o at hrun
  generalize notePass { withMmu s n tlb cnt with integ := integ } die wk o = u at hrun hnote hcount
  simp only [passView, Prod.mk.injEq] at hnote
  obtain ⟨htops, hmem, hframes, hlaurel, hchans, hvec, hfab, hcoll, hmgt, hpwr⟩ := hnote
  have hw : writeOps u wk.job o.writes = withMem u (writeOps s wk.job o.writes) := (writeOps_memOnly wk.job o.writes).congr htops hmem hframes
  have hview := engineView_commitPass (s := u) (die := die) (i := i) (wk := wk) (o := o)
  have hends := commitPass_laurel (s := u) (die := die) (i := i) (wk := wk) (o := o)
  rw [hw] at hview hends
  rw [← hrun] at hview hends
  simp only [engineView, Prod.mk.injEq] at hview
  obtain ⟨gmem, gpasses, gchans, gvec, gtops, gfab, gcoll, gmgt, gpwr⟩ := hview
  refine ⟨_, rfl, gmem, ?_, ?_, gfab.trans hfab, gcoll.trans hcoll, gmgt.trans hmgt, gpwr.trans hpwr, gtops.trans htops,
    gchans.trans hchans, gvec.trans hvec⟩
  · rw [show (traced s (doLaurelBlockPass die .clean s)).comp.mtxPasses = _ from gpasses.trans hcount, lookupD_insertKey, if_pos rfl]
    rfl
  · rw [show (withMem u (writeOps s wk.job o.writes)).comp.laurel = s.comp.laurel from hlaurel] at hends
    exact hends

end Laurel

/-- Settles O19: an execution leaves memory and frames, so its writes are those of the state before the pass. -/
theorem cleanBlockPassCommits : Obligations.CleanBlockPassCommits := by
  unfold Obligations.CleanBlockPassCommits
  exact fun _ _ _ _ hn hheld hsample hpre => laurelBlockPass_commits hn hheld hsample hpre

end Sys2Proof.Machine
end

section
/-! A batch of vector work that commits (R94, R228, R236, R255), and the obligation O18. -/

namespace Sys2Proof.Machine

/-! ### Who holds a frame does not change what is written (R417, R418) -/

section Tier

/-- A frame without those who hold it. -/
def unheldFrame (f : Frame) : Frame := { f with heldBy := [] }

variable {s t : State}

/-- The states agree on the Topiaries, memory and the frames but for those who hold them. -/
structure SameTier (s t : State) : Prop where
  tops : t.tops = s.tops
  mem : t.comp.mem = s.comp.mem
  frames : ∀ job die, (framesOf t job die).map unheldFrame = (framesOf s job die).map unheldFrame

theorem topOf_sameTier (h : SameTier s t) {job : Nat} : topOf t job = topOf s job := by
  unfold topOf
  rw [h.tops]

theorem find_unheld {p : Frame → Bool} (hp : ∀ f, p (unheldFrame f) = p f) (fs : List Frame) :
    (fs.find? p).map unheldFrame = (fs.map unheldFrame).find? p := by
  rw [List.find?_map, show p ∘ unheldFrame = p from funext hp]

theorem residentFrame_sameTier (h : SameTier s t) {job die page : Nat} :
    (residentFrame t job die page).map unheldFrame = (residentFrame s job die page).map unheldFrame := by
  unfold residentFrame
  rw [find_unheld (fun _ => rfl), find_unheld (fun _ => rfl), h.frames]

theorem physKey_sameTier (h : SameTier s t) {job va : Nat} {r : MapRec} : physKey t job r va = physKey s job r va := by
  have hf := residentFrame_sameTier h (job := job) (die := r.die) (page := va / 2 ^ 21)
  unfold physKey
  dsimp only
  split
  · rfl
  · rfl
  · revert hf
    generalize residentFrame t job r.die (va / 2 ^ 21) = a
    generalize residentFrame s job r.die (va / 2 ^ 21) = b
    intro hf
    match a, b, hf with
    | none, none, _ => rfl
    | some f, some g, hf =>
      have hfg : some (unheldFrame f) = some (unheldFrame g) := hf
      have hun : unheldFrame f = unheldFrame g := Option.some.inj hfg
      have hpage : f.hbmPage = g.hbmPage := (congrArg Frame.hbmPage hun :)
      simp only [hpage]

theorem xlate_sameTier (h : SameTier s t) {job : Nat} {va : Int} : xlate t job va = xlate s job va := by
  unfold xlate
  rw [topOf_sameTier h]
  simp only [physKey_sameTier h]

/-- States that agree so are led to states that agree so. -/
def TierBlind (F : State → State) : Prop := ∀ s t, SameTier s t → SameTier (F s) (F t)

theorem TierBlind.comp {F G : State → State} (hF : TierBlind F) (hG : TierBlind G) : TierBlind (fun s => G (F s)) :=
  fun _ _ h => hG _ _ (hF _ _ h)

theorem TierBlind.foldl {α : Type} {f : State → α → State} (hf : ∀ x, TierBlind (fun s => f s x)) :
    ∀ l : List α, TierBlind (fun s => l.foldl f s)
  | [] => fun _ _ h => h
  | x :: l => (hf x).comp (TierBlind.foldl hf l)

theorem writeVA_tierBlind (job : Nat) (va : Int) (b : Byte) : TierBlind (fun s => writeVA s job va b) := by
  intro s t h
  unfold writeVA
  dsimp only
  rw [xlate_sameTier h]
  split
  next k _ => exact ⟨h.tops, congrArg (Memory.put · k b) h.mem, h.frames⟩
  · exact h

theorem cleanVA_tierBlind (job : Nat) (va : Int) (n i : Nat) : TierBlind (fun s => cleanVA job va n s i) := by
  intro s t h
  unfold cleanVA
  dsimp only
  rw [xlate_sameTier h]
  split
  · split
    next k _ => exact ⟨h.tops, congrArg (Memory.cleanWords · k 64) h.mem, h.frames⟩
    · exact h
  · exact h

theorem framesOf_setFrames {job die j d : Nat} {fs : List Frame} :
    framesOf (setFrames s job die fs) j d = if 16 * die + job = 16 * d + j then fs else framesOf s j d := by
  unfold framesOf setFrames
  exact lookupD_insertKey _ _ _ _ _

/-- A frame after a write to page `page` (R417). -/
def soiled (page : Nat) (f : Frame) : Frame := if f.st == .resident page then { f with dirty := true } else f

theorem unheldFrame_soiled {page : Nat} {f : Frame} : unheldFrame (soiled page f) = soiled page (unheldFrame f) := by
  unfold soiled
  by_cases hf : (f.st == .resident page) = true
  · rw [if_pos hf, if_pos (show ((unheldFrame f).st == .resident page) = true from hf)]
    rfl
  · rw [if_neg hf, if_neg (show ¬ ((unheldFrame f).st == .resident page) = true from hf)]

theorem touchDirty_tierBlind (job : Nat) (va : Int) : TierBlind (fun s => touchDirty s job va) := by
  intro s t h
  unfold touchDirty
  dsimp only
  rw [topOf_sameTier h]
  split
  · exact h
  · split
    next r _ =>
      split
      · refine ⟨h.tops, h.mem, fun j d => ?_⟩
        rw [framesOf_setFrames, framesOf_setFrames]
        split
        · have hmap : ∀ u : State, ((framesOf u job r.die).map (soiled (va.toNat / 2 ^ 21))).map unheldFrame =
              ((framesOf u job r.die).map unheldFrame).map (soiled (va.toNat / 2 ^ 21)) := by
            intro u
            rw [List.map_map, List.map_map]
            exact List.map_congr_left fun f _ => unheldFrame_soiled
          change ((framesOf t job r.die).map (soiled _)).map unheldFrame = ((framesOf s job r.die).map (soiled _)).map unheldFrame
          rw [hmap, hmap, h.frames]
        · exact h.frames j d
      · exact h
    · exact h

theorem writeVAs_tierBlind (job : Nat) (va : Int) (bs : List Byte) : TierBlind (fun s => writeVAs s job va bs) := by
  have hbytes := TierBlind.foldl (fun p : Byte × Nat => writeVA_tierBlind job (va + p.2) p.1) bs.zipIdx
  have hclean := TierBlind.foldl (cleanVA_tierBlind job va bs.length) (List.range (bs.length / 64 + 1))
  have hall := ((hbytes.comp hclean).comp (touchDirty_tierBlind job va)).comp (touchDirty_tierBlind job (va + bs.length - 1))
  intro s t h
  simp only [writeVAs_eq]
  exact hall s t h

theorem writeOps_tierBlind (job : Nat) (ws : List WriteOp) : TierBlind (fun s => writeOps s job ws) :=
  TierBlind.foldl (f := fun s (w : WriteOp) => writeVAs s job w.va w.bytes) (fun w => writeVAs_tierBlind job w.va w.bytes) ws

theorem holdFrames_eq {q : Nat} {pages : List Nat} : ∃ fs, holdFrames s q pages = { s with comp := { s.comp with frames := fs } } := ⟨_, rfl⟩

theorem sameTier_holdFrames {q : Nat} {pages : List Nat} : SameTier s (holdFrames s q pages) := by
  refine ⟨rfl, rfl, fun j d => ?_⟩
  unfold holdFrames
  rw [framesOf_setFrames]
  split
  next hk =>
    have hsame : framesOf s j d = framesOf s (queueAt s q).job (queueAt s q).die := congrArg (lookupD s.comp.frames · []) hk.symm
    rw [hsame, List.map_map]
    refine List.map_congr_left fun f _ => ?_
    simp only [Function.comp_apply]
    split
    · split <;> rfl
    · rfl
  · rfl

end Tier

/-! ### A queue without work (R424) -/

section Workless

variable {s : State} {q r : Nat}

/-- Queue `q` has no vector work. -/
def Workless (q : Nat) (s : State) : Prop := (queueAt s q).work = none

theorem workless_foldl {α : Type} {f : State → α → State} (hf : ∀ s x, Workless q s → Workless q (f s x)) :
    ∀ (l : List α) (s : State), Workless q s → Workless q (l.foldl f s)
  | [], _, h => h
  | x :: l, s, h => workless_foldl hf l (f s x) (hf s x h)

theorem workless_setQueue {f : Queue → Queue} (hf : ∀ Q, Q.work = none → (f Q).work = none) (h : Workless q s) :
    Workless q (setQueue s r f) := by
  unfold Workless at *
  rw [queueAt_setQueue]
  split
  · exact hf _ h
  · exact h

theorem workless_enterRun (h : Workless q s) : Workless q (enterRun s r) := by
  unfold enterRun
  dsimp only
  split
  · exact workless_setQueue (s := haltRecord s r _ _ _ _ _ _) (fun _ _ => rfl) h
  · split
    · exact workless_setQueue (f := fun Q => { Q with st := .idle, stopAsked := false, ctxSaved := false }) (fun _ hw => hw) h
    · exact workless_setQueue (fun _ hw => hw) h

theorem workless_arbitrate (h : Workless q s) : Workless q (arbitrate s r) := by
  have hout : Workless q (setQueue s r (fun Q => { Q with st := .preempted })) := workless_setQueue (fun _ hw => hw) h
  unfold arbitrate
  dsimp only
  split
  · exact workless_enterRun h
  · split
    · exact workless_foldl (f := fun s r => setQueue s r (fun R => { R with stopAsked := true }))
        (fun _ _ => workless_setQueue (fun _ hw => hw)) _ _ hout
    · exact hout

theorem workless_schedule (h : Workless q s) : Workless q (schedule s) := by
  unfold schedule
  refine workless_foldl (fun s p hs => workless_foldl (fun u r hu => ?_) _ _ hs) _ _ h
  split
  · exact workless_arbitrate hu
  · exact hu

/-- A queue that leaves its word without work has none afterwards. -/
theorem workless_advance (h : Workless q s) : Workless q (advance s r) := by
  have hleave := workless_setQueue (r := r) (f := fun Q =>
    if Q.inSeg then { Q with pc := Q.pc + 1, runAhead := Q.runAhead - 1 }
    else { Q with ring := Q.ring.tail, head := (Q.head + 1) % 2 ^ 14, runAhead := Q.runAhead - 1 })
    (fun Q hw => by split <;> exact hw) h
  unfold advance
  dsimp only
  split
  · exact workless_schedule (workless_setQueue (f := fun Q => { Q with st := .idle, stopAsked := false }) (fun _ hw => hw) hleave)
  · exact hleave

end Workless

/-! ### The commit of a batch (R228, R255) -/

section Commit

variable {s : State} {q : Nat} {wk : VecWork} {o : BatchOut}

/-- The state in which a batch has written. -/
def batchWritten (s : State) (q : Nat) (wk : VecWork) (o : BatchOut) : State :=
  if wk.isChain || decide (batchCount wk ≤ wk.batch + 1) then commitWrites s q (queueAt s q).job (wk.held ++ o.writes) else s

/-- The work at its next batch. -/
def nextBatch (s : State) (q : Nat) (wk : VecWork) (o : BatchOut) : VecWork := { wk with
  batch := wk.batch + 1, tileOff := o.off, heldEls := o.rest, held := if wk.isChain then [] else wk.held ++ o.writes
  old := if wk.isChain && wk.clash.any id then oldBytes s (queueAt s q).job wk.old o.writes else wk.old }

theorem commitBatch_last (h : batchCount wk ≤ wk.batch + 1) : commitBatch s q wk o =
    releaseFrames (advance (setQueue (batchWritten s q wk o) q (fun Q => { Q with work := none })) q) q := if_pos h

theorem commitBatch_goesOn (h : ¬ batchCount wk ≤ wk.batch + 1) : commitBatch s q wk o =
    if wk.isChain then releaseFrames (setQueue (batchWritten s q wk o) q (fun Q => { Q with work := some (nextBatch s q wk o) })) q
    else setQueue (batchWritten s q wk o) q (fun Q => { Q with work := some (nextBatch s q wk o) }) := if_neg h

/-- What a commit leaves but for memory and its queue: every unit outside the compute dies, flags, lists and channels. -/
def flagView (s : State) := (s.comp.fpVec, s.fab, s.coll, s.mgt, s.pwr, s.tops, s.comp.jobFlags, s.comp.laurel, s.comp.chans)

theorem flagView_of_coreView {t : State} (h : coreView t = coreView s) : flagView t = flagView s := by
  simp only [coreView, Prod.mk.injEq] at h
  obtain ⟨-, -, hflags, hvec, -, -, hlaurel, -, hchans, htops, hfab, hcoll, -, hpwr, hmgt, -⟩ := h
  simp only [flagView, hflags, hvec, hlaurel, hchans, htops, hfab, hcoll, hpwr, hmgt]

theorem flagView_setQueue {r : Nat} {f : Queue → Queue} : flagView (setQueue s r f) = flagView s := rfl

/-- A batch's writes change memory, frames and the digests of its queue. -/
theorem batchWritten_keeps : flagView (batchWritten s q wk o) = flagView s ∧ posView (batchWritten s q wk o) = posView s ∧
    (batchWritten s q wk o).comp.queues.length = s.comp.queues.length ∧
    (∀ r, r ≠ q → queueAt (batchWritten s q wk o) r = queueAt s r) := by
  unfold batchWritten
  split
  · rw [commitWrites_eq, (writeOps_memOnly _ _).eq s]
    refine ⟨rfl, posView_setQueue (s := withMem s _) fun Q => ?_, setQueue_length, fun r hr => queueAt_setQueue_ne (s := withMem s _) hr⟩
    obtain ⟨ds, fs, n, h⟩ := feedWrites_eq (wk.held ++ o.writes) Q
    rw [h]
    exact ⟨rfl, rfl, rfl, rfl, rfl⟩
  · exact ⟨rfl, rfl, rfl, fun _ _ => rfl⟩

/-- A chain's batch writes, and the last of a single instruction. -/
theorem batchWritten_mem : (batchWritten s q wk o).comp.mem =
    if wk.isChain = true ∨ batchCount wk ≤ wk.batch + 1 then (writeOps s (queueAt s q).job (wk.held ++ o.writes)).comp.mem else s.comp.mem := by
  unfold batchWritten
  by_cases h : wk.isChain = true ∨ batchCount wk ≤ wk.batch + 1
  · rw [if_pos h, if_pos (by simpa using h), commitWrites_eq]
    rfl
  · rw [if_neg h, if_neg (by simpa using h)]

/-- What a commit leaves, and where its work and its queue stand. -/
theorem commitBatch_leaves (hq : q < s.comp.queues.length) :
    (commitBatch s q wk o).comp.mem = (batchWritten s q wk o).comp.mem ∧ flagView (commitBatch s q wk o) = flagView s ∧
    KeepsOthers s (commitBatch s q wk o) q ∧
    (if batchCount wk ≤ wk.batch + 1 then (queueAt (commitBatch s q wk o) q).work = none ∧ Moved s (commitBatch s q wk o) q
     else Stands s (commitBatch s q wk o) q ∧ (queueAt (commitBatch s q wk o) q).work = some (nextBatch s q wk o)) := by
  obtain ⟨hflags, hpos, hlen, hothers⟩ := batchWritten_keeps (s := s) (q := q) (wk := wk) (o := o)
  have hlt : q < (batchWritten s q wk o).comp.queues.length := hlen ▸ hq
  have hregs : ∀ (f : Queue → Queue) r, r ≠ q → regsOf (setQueue (batchWritten s q wk o) q f) r = regsOf s r := by
    intro f r hr
    unfold regsOf
    rw [queueAt_setQueue_ne hr, hothers r hr]
  by_cases hl : batchCount wk ≤ wk.batch + 1
  · have hpu : posView (setQueue (batchWritten s q wk o) q (fun Q => { Q with work := none })) = posView s :=
      (posView_setQueue (f := fun Q => { Q with work := none }) (fun _ => ⟨rfl, rfl, rfl, rfl, rfl⟩)).trans hpos
    have hlu : q < (setQueue (batchWritten s q wk o) q (fun Q => { Q with work := none })).comp.queues.length := by
      rw [setQueue_length]; exact hlt
    have hw : Workless q (setQueue (batchWritten s q wk o) q (fun Q => { Q with work := none })) :=
      congrArg Queue.work (queueAt_setQueue_self hlt)
    have hr := hregs (fun Q => { Q with work := none })
    have hv : flagView (setQueue (batchWritten s q wk o) q (fun Q => { Q with work := none })) = flagView s := hflags
    have hm : (setQueue (batchWritten s q wk o) q (fun Q => { Q with work := none })).comp.mem = (batchWritten s q wk o).comp.mem := rfl
    rw [if_pos hl, commitBatch_last hl]
    generalize setQueue (batchWritten s q wk o) q (fun Q => { Q with work := none }) = u at *
    have hadv : coreView (advance u q) = coreView u := coreView_advance
    exact ⟨(ScalarFrame.of_coreView (q := q) hadv).mem.trans hm, (flagView_of_coreView hadv).trans hv,
      fun r hne => (regsOf_of_coreView hadv r).trans (hr r hne), workless_advance hw, moved_of_advance hpu hlu⟩
  · rw [if_neg hl, commitBatch_goesOn hl]
    have hpu : posView (setQueue (batchWritten s q wk o) q (fun Q => { Q with work := some (nextBatch s q wk o) })) = posView s :=
      (posView_setQueue (f := fun Q => { Q with work := some (nextBatch s q wk o) }) (fun _ => ⟨rfl, rfl, rfl, rfl, rfl⟩)).trans hpos
    have hw := congrArg Queue.work (queueAt_setQueue_self (f := fun Q => { Q with work := some (nextBatch s q wk o) }) hlt)
    have hr := hregs (fun Q => { Q with work := some (nextBatch s q wk o) })
    split
    · exact ⟨rfl, hflags, hr, Stands.of_posView hpu, hw⟩
    · exact ⟨rfl, hflags, hr, Stands.of_posView hpu, hw⟩

end Commit

/-! ### The execution of a clean batch -/

section Batch

variable {s : State} {q : Nat} {wk : VecWork} {o : BatchOut}

/-- What an execution of a batch leaves: its queue, the units outside the compute dies, job flags, lists and channels. -/
def batchView (s : State) := (s.comp.queues, s.comp.mem, s.comp.frames, s.fab, s.coll, s.mgt, s.pwr, s.tops, s.comp.jobFlags,
  s.comp.laurel, s.comp.chans)

/-- One execution adds its flags to its group's register (R94). -/
theorem noteBatch_flags {g : Nat} : batchView (noteBatch s q g o) = batchView s ∧
    lookupD (noteBatch s q g o).comp.fpVec (128 * (queueAt s q).die + g) {} =
      (lookupD s.comp.fpVec (128 * (queueAt s q).die + g) {}).setFlags o.flags (queueAt s q).job := by
  unfold noteBatch
  dsimp only
  obtain ⟨cnt, last, h⟩ := noteAnomalies_eq (die := (queueAt s q).die) (job := (queueAt s q).job) (unit := 1) (ord := 0)
    (o.anomalies.map (fun a => (0, a.1, a.2))) (flagVec s (queueAt s q).die g o.flags (queueAt s q).job)
  rw [h]
  unfold flagVec FpReg.setFlags
  split
  · exact ⟨rfl, rfl⟩
  · refine ⟨rfl, ?_⟩
    rw [lookupD_insertKey, if_pos rfl]

theorem groupUnits_first {die g : Nat} (h : ∀ k, k < 8 → unitOut s 1 die (8 * g + k) = false) :
    ∃ gs, groupUnits s die g = g :: gs := by
  unfold groupUnits
  rw [List.any_eq_false.mpr fun k hk => by rw [h k (List.mem_range.mp hk)]; exact Bool.false_ne_true]
  exact ⟨_, rfl⟩

/-- A clean batch without sampling is its one execution and its commit. -/
theorem queueBatch_executes (hwk : (queueAt s q).work = some wk) (hb : (queueAt s q).bound = true) (hst : (queueAt s q).st = .run)
    (hheld : batchHeld s q (queueAt s q).job 0 = false) (hsample : sampleD s.integ = none)
    (hout : ∀ k, k < 8 → unitOut s 1 (queueAt s q).die (8 * batchGroup (queueAt s q) wk + k) = false)
    (hpre : preCheck s (queueAt s q).job (queueAt s q).die .group (workAccs s (queueAt s q) wk (workBatch s (queueAt s q) wk)) = .ok) :
    ∃ n tlb cnt pages integ, queueBatch s q .clean =
      commitBatch (noteBatch { holdFrames (withMmu s n tlb cnt) q pages with integ := integ } q (batchGroup (queueAt s q) wk)
        (workBatch s (queueAt s q) wk)) q wk (workBatch s (queueAt s q) wk) := by
  obtain ⟨n, tlb, cnt, htlb⟩ := tlbTouch_eq (queueAt s q).die (batchGroup (queueAt s q) wk) 32 (queueAt s q).job
    (accPages s (queueAt s q).job (workAccs s (queueAt s q) wk (workBatch s (queueAt s q) wk))) s
  obtain ⟨pages, hpages⟩ : ∃ pages, (workAccs s (queueAt s q) wk (workBatch s (queueAt s q) wk)).flatMap
    (tieredPages s (queueAt s q).job) = pages := ⟨_, rfl⟩
  obtain ⟨cnts, hcnts⟩ := sampleTile_off (s := countTile (holdFrames (withMmu s n tlb cnt) q pages) 1 (queueAt s q).die) (kind := 1)
    (die := (queueAt s q).die) (unit := batchGroup (queueAt s q) wk) (job := (queueAt s q).job) hsample
  obtain ⟨gs, hgs⟩ := groupUnits_first (s := setInteg (countTile (holdFrames (withMmu s n tlb cnt) q pages) 1 (queueAt s q).die)
    (fun i => { i with sampleCnt := cnts })) hout
  refine ⟨n, tlb, cnt, pages, (setInteg (countTile (holdFrames (withMmu s n tlb cnt) q pages) 1 (queueAt s q).die)
    (fun i => { i with sampleCnt := cnts })).integ, ?_⟩
  unfold queueBatch
  dsimp only
  rw [hwk]
  dsimp only
  rw [hb, hst, hheld, if_neg (by decide), hpre]
  dsimp only
  rw [hpages, htlb, hcnts]
  simp only [tileFailures_clean]
  rw [hgs]
  rfl

theorem hawthornBatch_commits (hwk : (queueAt s q).work = some wk) (hb : (queueAt s q).bound = true) (hst : (queueAt s q).st = .run)
    (hheld : batchHeld s q (queueAt s q).job 0 = false) (hsample : sampleD s.integ = none)
    (hout : ∀ k, k < 8 → unitOut s 1 (queueAt s q).die (8 * batchGroup (queueAt s q) wk + k) = false)
    (hpre : preCheck s (queueAt s q).job (queueAt s q).die .group (workAccs s (queueAt s q) wk (workBatch s (queueAt s q) wk)) = .ok) :
    let o := workBatch s (queueAt s q) wk
    let ws := wk.held ++ o.writes
    ∃ t, exec (.hawthornBatch (.queue q) .clean) s = .next t ∧
      t.comp.mem = (if wk.isChain = true ∨ batchCount wk ≤ wk.batch + 1 then (writeOps s (queueAt s q).job ws).comp.mem
        else s.comp.mem) ∧
      lookupD t.comp.fpVec (128 * (queueAt s q).die + batchGroup (queueAt s q) wk) {} =
        (lookupD s.comp.fpVec (128 * (queueAt s q).die + batchGroup (queueAt s q) wk) {}).setFlags o.flags (queueAt s q).job ∧
      (if batchCount wk ≤ wk.batch + 1 then (queueAt t q).work = none ∧ Moved s t q
       else Stands s t q ∧ ∃ k, (queueAt t q).work = some k ∧ k.batch = wk.batch + 1 ∧ k.word = wk.word ∧
         k.held = (if wk.isChain then [] else ws)) ∧
      KeepsOthers s t q ∧ t.fab = s.fab ∧ t.coll = s.coll ∧ t.mgt = s.mgt ∧ t.pwr = s.pwr ∧ t.tops = s.tops ∧
      t.comp.jobFlags = s.comp.jobFlags ∧ t.comp.laurel = s.comp.laurel ∧ t.comp.chans = s.comp.chans := by
  intro o ws
  obtain ⟨n, tlb, cnt, pages, integ, hrun⟩ := queueBatch_executes hwk hb hst hheld hsample hout hpre
  have htier : SameTier s (holdFrames (withMmu s n tlb cnt) q pages) := by
    obtain ⟨htops, hmem, hframes⟩ := sameTier_holdFrames (s := withMmu s n tlb cnt) (q := q) (pages := pages)
    exact ⟨htops, hmem, hframes⟩
  obtain ⟨hnote, hfp⟩ := noteBatch_flags (s := { holdFrames (withMmu s n tlb cnt) q pages with integ := integ }) (q := q) (o := o)
    (g := batchGroup (queueAt s q) wk)
  change queueBatch s q .clean = commitBatch (noteBatch { holdFrames (withMmu s n tlb cnt) q pages with integ := integ } q
    (batchGroup (queueAt s q) wk) o) q wk o at hrun
  generalize noteBatch { holdFrames (withMmu s n tlb cnt) q pages with integ := integ } q (batchGroup (queueAt s q) wk) o = u at hrun hnote hfp
  simp only [batchView, Prod.mk.injEq] at hnote
  obtain ⟨hqueues, hmem, hframes, hfab, hcoll, hmgt, hpwr, htops, hjob, hlaurel, hchans⟩ := hnote
  have hqs : u.comp.queues = s.comp.queues := hqueues
  have hat : ∀ r, queueAt u r = queueAt s r := fun r => congrArg (fun l : List Queue => l.getD r {}) hqs
  have hu : SameTier s u := ⟨htops.trans htier.tops, hmem.trans htier.mem, fun j d => by
    rw [← htier.frames j d]
    exact congrArg (fun fs => (lookupD fs (16 * d + j) []).map unheldFrame) hframes⟩
  have hq : q < u.comp.queues.length := hqs ▸ bound_lt hb
  obtain ⟨cmem, cflags, cothers, cwork⟩ := commitBatch_leaves (s := u) (wk := wk) (o := o) hq
  rw [← hrun] at cmem cflags cothers cwork
  simp only [flagView, Prod.mk.injEq] at cflags
  obtain ⟨cvec, cfab, ccoll, cmgt, cpwr, ctops, cjob, claurel, cchans⟩ := cflags
  refine ⟨_, rfl, ?_, ?_, ?_, fun r hr => (cothers r hr).trans (by unfold regsOf; rw [hat]), cfab.trans hfab, ccoll.trans hcoll,
    cmgt.trans hmgt, cpwr.trans hpwr, ctops.trans htops, cjob.trans hjob, claurel.trans hlaurel, cchans.trans hchans⟩
  · refine (cmem.trans batchWritten_mem).trans ?_
    rw [hat q, ((writeOps_tierBlind (queueAt s q).job ws) s u hu).mem, hu.mem]
  · exact (congrArg (fun fs => lookupD fs (128 * (queueAt s q).die + batchGroup (queueAt s q) wk) ({} : FpReg)) cvec).trans hfp
  · split
    next hl =>
      rw [if_pos hl] at cwork
      obtain ⟨hnone, hmoved⟩ := cwork
      unfold Moved at *
      rw [hat q] at hmoved
      exact ⟨hnone, hmoved⟩
    next hl =>
      rw [if_neg hl] at cwork
      obtain ⟨hstands, hwork⟩ := cwork
      unfold Stands at *
      rw [hat q] at hstands
      exact ⟨hstands, _, hwork, rfl, rfl, rfl⟩

end Batch

/-- Settles O18: the executions and the frames held leave what the batch reads and writes, so its results are those of the
state before it. -/
theorem cleanBatchCommits : Obligations.CleanBatchCommits := by
  unfold Obligations.CleanBatchCommits
  exact fun _ _ _ hwk hb hst hheld hsample hout hpre => hawthornBatch_commits hwk hb hst hheld hsample hout hpre

end Sys2Proof.Machine
end

section
/-! Attention bits are set and not cleared by an abort (R464, R550). -/

namespace Sys2Proof.Machine

/-- The attention bits `a` are set. -/
def Shows (a : BitVec 16) (s : State) : Prop := s.attn &&& a = a

section Shows

variable {a : BitVec 16} {s t : State} {q i : Nat}

theorem Shows.of_attn (h : t.attn = s.attn) (hs : Shows a s) : Shows a t := (congrArg (· &&& a) h).trans hs

theorem shows_foldl {α : Type} {f : State → α → State} (hf : ∀ s x, Shows a s → Shows a (f s x)) :
    ∀ (l : List α) (s : State), Shows a s → Shows a (l.foldl f s)
  | [], _, h => h
  | x :: l, s, h => shows_foldl hf l (f s x) (hf s x h)

theorem shows_ite {c : Prop} [Decidable c] (ht : Shows a t) (hs : Shows a s) : Shows a (if c then t else s) := by
  split
  · exact ht
  · exact hs

/-! #### Queues that halt (R296, R424) -/

theorem shows_haltRecord {d g pc : Nat} {c : Res} {n : Bool} {w : Word} (h : Shows a s) : Shows a (haltRecord s q c d n g pc w) :=
  attn_setAttn_keeps (s := ringLog s _ _ _) h

theorem shows_enterRun (h : Shows a s) : Shows a (enterRun s q) := by
  unfold enterRun
  dsimp only
  split
  · exact shows_haltRecord h
  · split <;> exact h

theorem shows_arbitrate (h : Shows a s) : Shows a (arbitrate s q) := by
  unfold arbitrate
  dsimp only
  split
  · exact shows_enterRun h
  · split
    · exact shows_foldl (f := fun s r => setQueue s r (fun R => { R with stopAsked := true })) (fun _ _ hs => hs) _ _ h
    · exact h

theorem shows_schedule (h : Shows a s) : Shows a (schedule s) := by
  unfold schedule
  exact shows_foldl (fun _ _ hs => shows_foldl (fun _ _ hu => shows_ite (shows_arbitrate hu) hu) _ _ hs) _ _ h

theorem attn_bumpQue {k : Nat} : (bumpQue s q k).attn = s.attn := by
  unfold bumpQue
  dsimp only
  split <;> rfl

theorem attn_squash : (squash s q).attn = s.attn := by
  unfold squash
  dsimp only
  split <;> rfl

theorem shows_haltQueue {c : Res} {d : Nat} (h : Shows a s) : Shows a (haltQueue s q c d) := by
  unfold haltQueue haltAt
  dsimp only
  split
  · exact h
  · exact h
  · exact h
  · refine shows_schedule ?_
    refine Shows.of_attn ?_ (shows_haltRecord (q := q) (c := c) (d := d) (n := (queueAt s q).inSeg) (g := (queueAt s q).seg)
      (pc := queuePc (queueAt s q)) (w := (currentWord s q).getD 0) h)
    exact attn_squash.trans attn_bumpQue

/-! #### Buffers that go back (R376, R378) -/

theorem attn_releaseWithheld {pool : Nat} : (releaseWithheld s i pool).attn = s.attn := by
  unfold releaseWithheld
  refine foldl_keeps (v := State.attn) (fun s e => foldl_keeps (v := State.attn) (fun s c => ?_) _ _) _ _
  dsimp only
  split <;> rfl

theorem shows_relevel {pool : Nat} (h : Shows a s) : Shows a (relevel s i pool) := by
  unfold relevel
  extract_lets B P l s1 s2 s3 s4
  have h2 : Shows a s2 := shows_ite h h
  have h3 : Shows a s3 := shows_ite h2 h2
  have h4 : Shows a s4 := shows_ite (attn_setAttn_keeps h3) h3
  exact shows_ite (Shows.of_attn attn_releaseWithheld h4) h4

theorem shows_dropAlloc {id : Nat} (h : Shows a s) : Shows a (dropAlloc s i id) := by
  unfold dropAlloc
  split
  · exact h
  · exact shows_relevel h

theorem shows_settleAlloc {id : Nat} (h : Shows a s) : Shows a (settleAlloc s i id) := by
  unfold settleAlloc
  split
  · exact h
  · exact shows_ite (shows_relevel h) h

theorem shows_freeAlloc {id : Nat} (h : Shows a s) : Shows a (freeAlloc s i id) := shows_settleAlloc h

theorem shows_leaveAlloc {o : Option Nat} {p cls job : Nat} (h : Shows a s) : Shows a (leaveAlloc s o p cls job) := by
  unfold leaveAlloc
  split
  · exact h
  · split
    · exact h
    · exact shows_ite (shows_dropAlloc h) (shows_settleAlloc h)

theorem shows_dropStaged {x : Inp} (h : Shows a s) : Shows a (dropStaged s x) := shows_foldl (fun _ _ hs => shows_dropAlloc hs) _ _ h

theorem shows_freeOut {j o : Nat} {x : Outp} (h : Shows a s) : Shows a (freeOut s j o x) := by
  have hbufs := shows_foldl (f := fun s b => freeAlloc s 0 b) (fun _ _ hs => shows_freeAlloc hs) x.bufs s h
  unfold freeOut
  dsimp only
  split
  · exact shows_dropAlloc hbufs
  · exact hbufs

theorem shows_dropOwn {f : LinkUnit → Bool} {port : Option Nat} (h : Shows a s) : Shows a (dropOwn s f port) := by
  unfold dropOwn
  refine shows_foldl (fun s e hs => ?_) _ _ h
  split
  · exact hs
  · exact shows_foldl (fun _ x hu => shows_ite (shows_leaveAlloc (o := x.alloc) hu) hu) _ _ hs

/-! #### The steps of an abort (R463, R464) -/

theorem attn_originate {x : LinkUnit} : (originate s x).attn = s.attn := by
  unfold originate originateFrom
  dsimp only
  split
  · split <;> rfl
  · split <;> rfl

theorem shows_haltCallers {j e o : Nat} (h : Shows a s) : Shows a (haltCallers s j e o) := by
  unfold haltCallers
  refine shows_foldl (fun s q hs => ?_) _ _ h
  extract_lets Q waits async
  exact shows_ite (shows_haltQueue (s := setQueue s q _) hs) hs

theorem attn_squashJob {j : Nat} : (squashJob s j).attn = s.attn := by
  unfold squashJob
  refine foldl_keeps (v := State.attn) (fun s q => ?_) _ _
  split
  · exact attn_squash
  · rfl

theorem shows_discardEarly {j e o : Nat} (h : Shows a s) : Shows a (discardEarly j e s o) := by
  unfold discardEarly
  dsimp only
  split
  · exact h
  · exact shows_foldl (fun _ _ hs => shows_dropStaged hs) _ _ (h : Shows a (releaseEarly s j e o))

theorem shows_dropOverlapping {j e o : Nat} (h : Shows a s) : Shows a (dropOverlapping s j e o) := by
  rw [dropOverlapping_eq]
  exact shows_foldl (fun _ _ hs => shows_discardEarly hs) _ _ h

/-- An abort clears no attention bit. -/
theorem shows_abortColl {j e o cause origin time : Nat} (h : Shows a s) : Shows a (abortColl s j e o cause origin time) := by
  unfold abortColl
  extract_lets c
  split
  · exact h
  · split
    · exact h
    · extract_lets imgs fit s1 omitted s2 s3 s4 s5 s6 s7 s8 reg old s9
      have h1 : Shows a s1 := Shows.of_attn (foldl_keeps (v := State.attn) (fun _ _ => attn_originate) _ _) h
      have h3 : Shows a s3 := shows_foldl (fun _ _ hs => shows_ite hs (shows_dropStaged hs)) _ s2 h1
      have h4 : Shows a s4 := shows_foldl (fun _ _ hs => shows_freeOut hs) _ _ h3
      have h5 : Shows a s5 := shows_dropOwn h4
      have h7 : Shows a s7 := shows_haltCallers (shows_dropOverlapping (s := s6) h5)
      clear_value s7
      have h8 : Shows a s8 := Shows.of_attn (attn_squashJob (s := dropSteps s7 j e o)) h7
      clear_value s8
      exact attn_setAttn_keeps (s := ringLog s9 4 0x05 [reg]) h8

theorem shows_abortHere {j e o : Nat} {cause : Res} (h : Shows a s) : Shows a (abortHere s j e o cause) := shows_abortColl h

end Shows

end Sys2Proof.Machine
end

section
/-! What a run of a chunk leaves (R94, R96, R211 to R214, R440, R441), and the obligation O39. -/

namespace Sys2Proof.Machine

/-! ### What a run of a chunk leaves of a module -/

section Kept

variable {s t : State} {j e o : Nat}

/-- What `KeepsData` names but for the flags of the engines. -/
def quietView (s : State) := (regsOf s, s.comp.mem, s.tops, s.pwr, s.mgt)

/-- What `KeepsData` names, and the integrity state. -/
def keptView (s : State) := (dataView s, s.integ)

/-- What an ordinal has formed: its outputs, its roots and its chunks. -/
def formView (c : Coll) := (c.outputs, c.roots, c.formed)

theorem quietView_of_dataView (h : dataView t = dataView s) : quietView t = quietView s :=
  congrArg (fun v => (v.1.1, v.1.2.1, v.2.1, v.2.2.1, v.2.2.2)) h

theorem keptView_of_abortView (h : abortView t = abortView s) : keptView t = keptView s :=
  Prod.ext (dataView_of_abortView h) (integ_of_abortView h)

theorem keptView_of_coreView (h : coreView t = coreView s) : keptView t = keptView s := keptView_of_abortView (abortView_of_coreView h)

theorem keptView_completeCallers : keptView (completeCallers s j e o) = keptView s := by
  unfold completeCallers
  refine foldl_keeps (fun s q => ?_) _ _
  extract_lets Q hit s1 s2
  have h1 : keptView s1 = keptView s := foldl_keeps (v := keptView) (f := fun s (a : Nat × Nat × Nat) => setJobFlag s j a.2.2 true)
    (fun _ _ => rfl) _ _
  have h2 : keptView s2 = keptView s1 := by
    refine keptView_of_coreView (coreView_setQueue ?_)
    exact fun _ => ⟨rfl, rfl, rfl, rfl, rfl, rfl⟩
  have hend : keptView (endWait s2 q) = keptView s := (keptView_of_coreView coreView_endWait).trans (h2.trans h1)
  have hs2 := h2.trans h1
  clear_value s2
  split
  · rfl
  · split
    · split
      · exact hend
      · exact hs2
    · exact hs2

/-- An ordinal that completes keeps what it has formed. -/
theorem settleColl_keeps : keptView (settleColl s j e o) = keptView s ∧
    formView (collAt (settleColl s j e o) j e o) = formView (collAt s j e o) := by
  unfold settleColl
  split
  · exact ⟨rfl, rfl⟩
  · extract_lets c s1 s2 s3
    split
    · have h1 : keptView s1 = keptView s := foldl_keeps (fun _ _ => keptView_of_abortView abortView_dropStaged) _ _
      have h2 : keptView s2 = keptView s1 := foldl_keeps (fun _ _ => keptView_of_abortView abortView_freeOut) _ _
      have o1 : ordView s1 = ordView s := foldl_keeps (fun _ _ => ordView_dropStaged) _ _
      have o2 : ordView s2 = ordView s1 := foldl_keeps (fun _ _ => ordView_freeOut) _ _
      have h3 : keptView s3 = keptView s2 := rfl
      have hf : formView (collAt s3 j e o) = formView (collAt s2 j e o) := by
        rw [show collAt s3 j e o = _ from collAt_setColl_self isKey_collAt]
        rfl
      exact ⟨keptView_completeCallers.trans (h3.trans (h2.trans h1)), by
        rw [collAt_of_ordView ordView_completeCallers, hf, collAt_of_ordView (o2.trans o1)]⟩
    · exact ⟨rfl, rfl⟩

/-- Inputs that are dropped leave what the ordinal has formed. -/
theorem releaseSpent_keeps {k : Nat} : keptView (releaseSpent s j e o k) = keptView s ∧
    formView (collAt (releaseSpent s j e o k) j e o) = formView (collAt s j e o) := by
  have key : (fun s => (keptView s, formView (collAt s j e o))) (releaseSpent s j e o k) = (keptView s, formView (collAt s j e o)) := by
    unfold releaseSpent
    split
    · rfl
    · refine foldl_keeps (v := fun s => (keptView s, formView (collAt s j e o))) (fun s r => ?_) _ _
      extract_lets c i
      split
      · refine Prod.ext (keptView_of_abortView abortView_dropStaged) ?_
        dsimp only
        rw [collAt_setColl_self (f := fun c => putInp c { i with frames := [], allocs := [] }) isKey_collAt,
          collAt_of_ordView ordView_dropStaged]
        rfl
      · rfl
  exact ⟨congrArg Prod.fst key, congrArg Prod.snd key⟩

/-- A run's last steps keep what the ordinal has formed. -/
theorem runSettles_keeps {k : Nat} : keptView (settleColl (releaseSpent s j e o k) j e o) = keptView s ∧
    formView (collAt (settleColl (releaseSpent s j e o k) j e o) j e o) = formView (collAt s j e o) :=
  ⟨settleColl_keeps.1.trans releaseSpent_keeps.1, settleColl_keeps.2.trans releaseSpent_keeps.2⟩

end Kept

/-! ### The conditions of a run -/

section Ready

variable {s : State} {job ep ord chunk g : Nat} {top : Topiary} {e : CollEntry} {u : Upset}

theorem entryOf_ordinal (h : entryOf s job ord = some e) : e.ordinal = ord := by
  unfold entryOf at h
  split at h
  · exact eq_of_beq (List.find?_some (p := fun e : CollEntry => e.ordinal == ord) h)
  · cases h

/-- A ready chunk is executed (R53, R211). -/
theorem privetChunk_executes (h : ChunkReady s job ep ord chunk top e g) :
    doPrivetChunk job ep ord chunk u none s = executeChunk s job ep e chunk u := by
  obtain ⟨hl, hc⟩ := h.live
  obtain ⟨hlo, hhi⟩ := h.window
  obtain ⟨hfree, -, -⟩ := h.engine
  obtain ⟨hin, hcount, hown⟩ := h.inside
  obtain ⟨hexp, hphase, hne⟩ := h.plain
  unfold doPrivetChunk
  rw [h.loaded, h.entry]
  dsimp only
  rw [if_neg hcount, h.eligible, hl, hc, hfree, decide_eq_true hlo, decide_eq_true hhi, if_neg (by decide), Option.bind_none]
  dsimp only
  rw [decide_eq_false hcount, hown, decide_eq_false (Nat.not_le.mpr hin), if_neg (by decide),
    List.isEmpty_eq_false_iff.mpr hne, if_neg (by decide), hexp, if_neg (by simp), hphase, if_neg (by simp)]
  by_cases hr : isReduction e.kind = true
  · rw [h.turn hr, hr, if_neg (by decide)]
  · rw [Bool.eq_false_iff.mpr hr, if_neg (by simp)]

/-- The run of a chunk on unit `g`, the first that may take it. -/
def cleanRun (job ep : Nat) (e : CollEntry) (chunk g : Nat) (dup : Bool) : PrivetRun :=
  { job := job, epoch := ep, e := e, chunk := chunk, engine := g, unit := g, failed := [], dup := dup }

/-- The state in which the run of a chunk begins (R231, R435). -/
def chunkBegun (s : State) (job ep ord : Nat) (e : CollEntry) (chunk g : Nat) : State :=
  noteEngine (if chunkFirst s job ep e chunk then sampleChunk s job ep ord chunk (entryDie e)
    (engineOf e chunk) g 0 else s) (entryDie e) g job ord chunk (e.fAcc == .pair)

/-- A run of a kind that is not a SELECT. -/
def kindRun (r : PrivetRun) (s : State) : State := if isReduction r.e.kind then r.reduce s else r.move s

theorem isSelect_of_isReduction (h : isReduction e.kind = true) : isSelect e.kind = false := by
  simp only [isReduction, isSelect, Bool.or_eq_true, beq_iff_eq, Bool.or_eq_false_iff, beq_eq_false_iff_ne] at *
  omega

/-- A clean run of a ready chunk of a reduction or of a moving kind. -/
theorem executeChunk_clean (h : ChunkReady s job ep ord chunk top e g) (hsel : isSelect e.kind = false) :
    ∃ dup, executeChunk s job ep e chunk .clean =
      settleColl (releaseSpent (kindRun (cleanRun job ep e chunk g dup) (chunkBegun s job ep ord e chunk g)) job ep ord chunk) job ep ord := by
  obtain ⟨-, hcount, -⟩ := h.inside
  obtain ⟨hexp, -, -⟩ := h.plain
  have hord := entryOf_ordinal h.entry
  have hfilter : filterWork e chunk = false := by
    unfold filterWork
    rw [show (e.kind == 11) = false from beq_eq_false_iff_ne.mpr fun hk => by simp [isSelect, hk] at hsel]
    rfl
  have hunits : (chunkUnits s job e chunk)[0]? = some g := by
    unfold chunkUnits
    dsimp only
    rw [hfilter, if_neg Bool.false_ne_true, if_neg hcount, ← List.head?_eq_getElem?]
    exact h.engine.2.2
  refine ⟨chunkDup (if chunkFirst s job ep e chunk then sampleChunk s job ep ord chunk (entryDie e) (engineOf e chunk) g 0 else s)
    job ep ord chunk, ?_⟩
  have hfs : (if computesNow s job ep e chunk then runFailures s e .clean else []) = [] := ite_self _
  have hrun : executeChunk s job ep e chunk .clean = runChunk s job ep e chunk (engineOf e chunk) g [] := by
    unfold executeChunk
    dsimp only
    rw [hfs, hexp]
    simp only [List.length_nil, hunits, if_neg hcount]
    rfl
  rw [hrun]
  unfold runChunk
  simp only [hfilter, if_neg hcount, hexp, hsel, hord, Bool.false_eq_true, if_false]
  rfl

end Ready

/-! ### What is noted of a run (R94, R96, R178) -/

section Noted

variable {s : State} {r : PrivetRun} {runs : List ChunkRun}

/-- The flags and anomaly counters of the engines. -/
def withNotes (s : State) (vec rde : List (Nat × FpReg)) (cnt last : List (Nat × Nat)) : State :=
  { s with comp := { s.comp with fpVec := vec, fpRde := rde, metaCnt := cnt, metaLast := last } }

theorem flagVec_notes {die g job : Nat} {f : FpFlags} :
    flagVec s die g f job = withNotes s (flagVec s die g f job).comp.fpVec s.comp.fpRde s.comp.metaCnt s.comp.metaLast := by
  unfold flagVec
  dsimp only
  split <;> rfl

theorem flagRde_notes {die g job : Nat} {f : FpFlags} :
    flagRde s die g f job = withNotes s s.comp.fpVec (flagRde s die g f job).comp.fpRde s.comp.metaCnt s.comp.metaLast := by
  unfold flagRde
  dsimp only
  split <;> rfl

theorem noteAnomalies_notes {die job ord : Nat} {as : List (Nat × Nat × Nat)} {t : State} {vec rde : List (Nat × FpReg)}
    {c l : List (Nat × Nat)} (ht : t = withNotes s vec rde c l) :
    ∃ cnt last, noteAnomalies t die job 0 ord as = withNotes s vec rde cnt last := by
  obtain ⟨cnt, last, h⟩ := noteAnomalies_eq (die := die) (job := job) (unit := 0) (ord := ord) as t
  subst ht
  exact ⟨cnt, last, h⟩

/-- One execution of a chunk changes flags and anomaly counters alone; without flags it changes none. -/
theorem noteRuns_eq {die g job ord : Nat} {filter : Bool} : ∃ vec rde cnt last,
    noteRuns s die g job ord filter runs = withNotes s vec rde cnt last ∧
    (runs.foldl (fun f r => f ||| r.flags) 0 = 0 → vec = s.comp.fpVec ∧ rde = s.comp.fpRde) := by
  unfold noteRuns
  dsimp only
  generalize runs.foldl (fun f r => f ||| r.flags) 0 = f
  by_cases hf : f = 0
  · rw [if_pos hf]
    obtain ⟨cnt, last, h⟩ := noteAnomalies_notes (die := die) (job := job) (ord := ord) (as := runs.flatMap (·.anomalies))
      (rfl : s = withNotes s s.comp.fpVec s.comp.fpRde s.comp.metaCnt s.comp.metaLast)
    exact ⟨_, _, cnt, last, h, fun _ => ⟨rfl, rfl⟩⟩
  · rw [if_neg hf]
    split
    · obtain ⟨cnt, last, h⟩ := noteAnomalies_notes (die := die) (job := job) (ord := ord) (as := runs.flatMap (·.anomalies))
        (flagVec_notes (s := s) (die := die) (g := g) (f := f) (job := job))
      exact ⟨_, _, cnt, last, h, fun h0 => absurd h0 hf⟩
    · obtain ⟨cnt, last, h⟩ := noteAnomalies_notes (die := die) (job := job) (ord := ord) (as := runs.flatMap (·.anomalies))
        (flagRde_notes (s := s) (die := die) (g := g) (f := f) (job := job))
      exact ⟨_, _, cnt, last, h, fun h0 => absurd h0 hf⟩

/-- What is noted joins what the chunk has raised, and changes flags and anomaly counters. -/
theorem noted_keeps (hr : r.failed = []) : quietView (r.noted s runs) = quietView s ∧ (r.noted s runs).integ = s.integ ∧
    (r.noted s runs).fab = s.fab ∧ (∃ ran, r.coll (r.noted s runs) = { r.coll s with ran := ran }) ∧
    (runs.foldl (fun f r => f ||| r.flags) 0 = 0 → dataView (r.noted s runs) = dataView s) := by
  unfold PrivetRun.noted
  split
  · exact ⟨rfl, rfl, rfl, ⟨_, rfl⟩, fun _ => rfl⟩
  · dsimp only
    rw [hr]
    obtain ⟨vec, rde, cnt, last, h, h0⟩ := noteRuns_eq (s := setColl s r.job r.epoch r.e.ordinal (fun c => { c with ran := c.ran ++ runs }))
      (runs := runs) (die := entryDie r.e) (g := r.unit) (job := r.job) (ord := r.e.ordinal) (filter := filterWork r.e r.chunk)
    rw [show faultFlags (setColl s r.job r.epoch r.e.ordinal (fun c => { c with ran := c.ran ++ runs })) _ [] =
      setColl s r.job r.epoch r.e.ordinal (fun c => { c with ran := c.ran ++ runs }) from rfl, h]
    refine ⟨rfl, rfl, rfl, ⟨(r.coll s).ran ++ runs, ?_⟩, fun hz => ?_⟩
    · exact collAt_setColl_self (f := fun c => { c with ran := c.ran ++ runs }) isKey_collAt
    · obtain ⟨hv, hd⟩ := h0 hz
      rw [hv, hd]
      rfl

end Noted

/-! ### The root of a chunk (R106, R598) -/

section Root

variable {s : State} {r : PrivetRun} {t : Topiary}

/-- The quiet part of a module and the records of its ordinals. -/
def rootView (s : State) := (quietView s, ordView s)

theorem sendGrad_keeps {job ep ord chunk die : Nat} {bs : List Byte} : rootView (sendGrad s job ep ord chunk die bs) = rootView s := by
  unfold sendGrad
  refine foldl_keeps (v := rootView) (fun s i => ?_) _ _
  have h := (sendTwin_keeps (s := s) (u := { twinFrame 0 1 (0x140 + 4 * die) job ep ord chunk i (padFrames (slice bs (i * 4096) 4096)) with
    res := checkOf s false <<< 14 })).2
  dsimp only
  rw [h]
  rfl

theorem gradRoot_keeps {job ep chunk : Nat} {e : CollEntry} {bs : List Byte} : rootView (gradRoot s job ep e chunk bs) = rootView s := by
  unfold gradRoot
  refine foldl_keeps (v := rootView) (fun s rep => ?_) _ _
  split
  · rfl
  · split
    · exact sendGrad_keeps
    · rfl

/-- A root without buffers joins the record of its ordinal (R106). -/
theorem placeRoot_joins {job ep chunk : Nat} {e : CollEntry} {bs : List Byte} {tiles : List (List Byte)} (hb : e.buffers = []) :
    quietView (placeRoot s job ep e chunk bs tiles) = quietView s ∧
    collAt (placeRoot s job ep e chunk bs tiles) job ep e.ordinal =
      { collAt s job ep e.ordinal with roots := (collAt s job ep e.ordinal).roots ++ [(chunk, bs)] } := by
  have hself := collAt_setColl_self (s := s) (j := job) (e := ep) (o := e.ordinal)
    (f := fun c => { c with roots := c.roots ++ [(chunk, bs)] }) isKey_collAt
  unfold placeRoot
  dsimp only
  rw [hb]
  simp only [List.isEmpty_nil, if_true]
  split
  · exact ⟨rfl, hself⟩
  · have h := gradRoot_keeps (s := setColl s job ep e.ordinal (fun c => { c with roots := c.roots ++ [(chunk, bs)] })) (job := job) (ep := ep)
      (chunk := chunk) (e := e) (bs := bs)
    exact ⟨congrArg Prod.fst h, (congrArg (fun f => f job ep e.ordinal) (collAt_of_ordView (congrArg Prod.snd h))).trans hself⟩

theorem outKeys_nil {e : CollEntry} (h : e.outputs = []) : outKeys e = [] := by
  unfold outKeys
  rw [h]
  rfl

/-- A chunk that is formed stands in its ordinal's record. -/
theorem markFormed_keeps {chunk : Nat} : keptView (r.markFormed s chunk) = keptView s ∧ r.coll (r.markFormed s chunk) =
    { r.coll s with formed := if (r.coll s).formed.contains chunk then (r.coll s).formed else (r.coll s).formed ++ [chunk] } :=
  ⟨rfl, collAt_setColl_self isKey_collAt⟩

/-- The node values of a run of a chunk of a reduction. -/
def reducedOf (r : PrivetRun) (t : Topiary) (s : State) : Reduced :=
  reduceChunk { s := s, job := r.job, top := t, e := r.e, coll := r.coll s, a := (chunkRange r.e r.chunk).1,
                n := (chunkRange r.e r.chunk).2 - (chunkRange r.e r.chunk).1 } r.chunk (rootWaits s r.job r.epoch r.e r.chunk)

theorem emitAll_nil {chunk : Nat} {value : OutRec → Option (Bool × List Byte)} (h : r.e.outputs = []) :
    r.emitAll s chunk value = s := by
  unfold PrivetRun.emitAll
  rw [outKeys_nil h]
  rfl

theorem leftOver_nil {chunk : Nat} {value : OutRec → Option (Bool × List Byte)} (h : r.e.outputs = []) :
    r.leftOver s chunk value = false := by
  unfold PrivetRun.leftOver
  rw [outKeys_nil h]
  rfl

theorem engineFree_of_fab {u : State} (h : u.fab = s.fab) {die g job : Nat} : engineFree u die g job = engineFree s die g job := by
  unfold engineFree isFrozen bpmAt
  rw [h]

/-- The end of a run of a chunk of a reduction that has nothing to send: `w` is the state once its root has been placed. -/
def reduceEnds (r : PrivetRun) (s w : State) : State :=
  if !(r.coll w).aborted && r.e.inputs.all (fun i => (inpAt (r.coll s) i.rank r.chunk).acked)
      && !false && (!rootHere r.e || (r.coll w).roots.any (fun y => y.1 == r.chunk)) then r.markFormed w r.chunk
  else w

/-- A run that has a root and nothing to send places the root, and forms the chunk when every input is ACKed. -/
theorem reduce_forms {bs : List Byte} {v : NodeVal} (ht : topOf s r.job = some t) (ho : r.e.outputs = []) (hb : r.e.buffers = [])
    (hf : r.failed = []) (ha : (r.coll s).aborted = false) (hfree : engineFree s (entryDie r.e) r.engine r.job = true)
    (hroot : (reducedOf r t s).root = some (bs, v)) (hnew : (r.coll s).roots.any (fun y => y.1 == r.chunk) = false) :
    quietView (r.reduce s) = quietView s ∧ (r.coll (r.reduce s)).outputs = (r.coll s).outputs ∧
    (r.coll (r.reduce s)).roots = (r.coll s).roots ++ [(r.chunk, bs)] ∧
    (r.e.inputs.all (fun i => (inpAt (r.coll s) i.rank r.chunk).acked) = true → (r.coll (r.reduce s)).formed.contains r.chunk = true) := by
  obtain ⟨u, hu⟩ : ∃ u, u = r.noted s ((reducedOf r t s).runs.filter (fun y => !hasRun (r.coll s) r.chunk (y.lo, y.hi))) := ⟨_, rfl⟩
  obtain ⟨hquiet, -, hfab, ⟨ran, hcoll⟩, -⟩ := noted_keeps (s := s)
    (runs := (reducedOf r t s).runs.filter (fun y => !hasRun (r.coll s) r.chunk (y.lo, y.hi))) hf
  rw [← hu] at hquiet hfab hcoll
  have hlive : r.live u = true := by
    unfold PrivetRun.live
    rw [hcoll, engineFree_of_fab hfab, hfree]
    simpa using ha
  have hplaced : (r.coll u).roots.any (fun y => y.1 == r.chunk) = false := by rw [hcoll]; exact hnew
  have hplace : (r.live u && !(r.coll u).roots.any (fun y => y.1 == r.chunk)) = true := by rw [hlive, hplaced]; rfl
  obtain ⟨wquiet, wcoll⟩ := placeRoot_joins (s := u) (job := r.job) (ep := r.epoch) (chunk := r.chunk) (e := r.e) (bs := bs)
    (tiles := rootTiles { s := s, job := r.job, top := t, e := r.e, coll := r.coll s, a := (chunkRange r.e r.chunk).1,
                          n := (chunkRange r.e r.chunk).2 - (chunkRange r.e r.chunk).1 } v) hb
  have hred : r.reduce s = reduceEnds r s (placeRoot u r.job r.epoch r.e r.chunk bs
      (rootTiles { s := s, job := r.job, top := t, e := r.e, coll := r.coll s, a := (chunkRange r.e r.chunk).1,
                   n := (chunkRange r.e r.chunk).2 - (chunkRange r.e r.chunk).1 } v)) := by
    unfold PrivetRun.reduce
    rw [ht]
    dsimp only
    rw [emitAll_nil ho, leftOver_nil ho]
    unfold reducedOf at hu hroot
    rw [← hu, hroot]
    dsimp only
    exact congrArg (reduceEnds r s) (if_pos hplace)
  rw [hred]
  generalize placeRoot u r.job r.epoch r.e r.chunk bs _ = w at wquiet wcoll
  have hw : r.coll w = { r.coll s with ran := ran, roots := (r.coll s).roots ++ [(r.chunk, bs)] } := by
    refine (wcoll : r.coll w = _).trans ?_
    rw [show collAt u r.job r.epoch r.e.ordinal = _ from hcoll]
  have hany : (r.coll w).roots.any (fun y => y.1 == r.chunk) = true := by
    rw [hw]
    simp
  unfold reduceEnds
  rw [hany, Bool.or_true, Bool.and_true, Bool.not_false, Bool.and_true, hw, ha]
  split
  · obtain ⟨mkept, mcoll⟩ := markFormed_keeps (s := w) (r := r) (chunk := r.chunk)
    rw [mcoll, hw]
    refine ⟨(quietView_of_dataView (congrArg Prod.fst mkept)).trans (wquiet.trans hquiet), rfl, rfl, fun _ => ?_⟩
    dsimp only
    split
    next h => exact h
    · simp
  next h =>
    rw [hw]
    refine ⟨wquiet.trans hquiet, rfl, rfl, fun hall => absurd ?_ h⟩
    rw [hall]
    rfl

end Root

/-! ### The output of a moving kind (R125, R128, R441) -/

section Move

variable {s u : State} {r : PrivetRun} {t : Topiary} {o : OutRec} {bs : List Byte} {chunk : Nat}

/-- An output without shared buffers is sent without a change of the ordinals' records. -/
theorem sendFrames_keeps {c : Coll} {x : Outp} {i : Nat} {again : Bool} (hb : x.bufs = []) :
    keptView (sendFrames s c x i again) = keptView s ∧ ordView (sendFrames s c x i again) = ordView s := by
  unfold sendFrames
  split
  · exact ⟨rfl, rfl⟩
  · dsimp only
    rw [hb]
    simp only [List.getElem?_nil]
    exact ⟨foldl_keeps (v := keptView) (f := fun s u => originate s u) (fun _ _ => keptView_of_abortView abortView_originate) _ _,
      foldl_keeps (v := ordView) (f := fun s u => originate s u) (fun _ _ => ordView_originate) _ _⟩

theorem sentFrames_keep {c : Coll} {x : Outp} (hb : x.bufs = []) (is : List Nat) :
    keptView (is.foldl (fun s i => sendFrames s c x i false) s) = keptView s ∧
    ordView (is.foldl (fun s i => sendFrames s c x i false) s) = ordView s :=
  ⟨foldl_keeps (fun _ _ => (sendFrames_keeps hb).1) _ _, foldl_keeps (fun _ _ => (sendFrames_keeps hb).2) _ _⟩

/-- An output recorded with its ordinal and sent to its consumers. -/
def outputSent (s : State) (job ep ord : Nat) (x : Outp) : State :=
  (List.range x.consumers.length).foldl
    (fun u i => sendFrames u (collAt (setColl s job ep ord (fun c => { c with outputs := c.outputs ++ [x] })) job ep ord) x i false)
    (setColl s job ep ord (fun c => { c with outputs := c.outputs ++ [x] }))

/-- A copied output of one consumer at most takes no buffer (R378, R441). -/
theorem placeOutput_copied {job ep ord die : Nat} {x : Outp} (hc : x.copied = true) (hb : x.bufs = []) (hs : x.stage = none)
    (hk : x.consumers.length ≤ 1) : placeOutput s job ep ord x die = .ok (outputSent s job ep ord x) := by
  have hx : ({ x with bufs := [], stage := none } : Outp) = x := by rw [← hb, ← hs]
  unfold placeOutput
  dsimp only
  rw [if_pos (show x.consumers.length < 2 by omega), if_pos hc, takeBufs]
  dsimp only
  rw [takeBufs]
  dsimp only
  rw [List.head?_nil, hx]
  rfl

theorem outputSent_keeps {job ep ord : Nat} {x : Outp} (hb : x.bufs = []) : keptView (outputSent s job ep ord x) = keptView s ∧
    collAt (outputSent s job ep ord x) job ep ord = { collAt s job ep ord with outputs := (collAt s job ep ord).outputs ++ [x] } := by
  have hself := collAt_setColl_self (s := s) (j := job) (e := ep) (o := ord)
    (f := fun c => { c with outputs := c.outputs ++ [x] }) isKey_collAt
  obtain ⟨hkept, hord⟩ := sentFrames_keep (s := setColl s job ep ord (fun c => { c with outputs := c.outputs ++ [x] }))
    (c := collAt (setColl s job ep ord (fun c => { c with outputs := c.outputs ++ [x] })) job ep ord) hb (List.range x.consumers.length)
  exact ⟨hkept, (congrArg (fun f => f job ep ord) (collAt_of_ordView hord)).trans hself⟩

theorem findOut_single (h : r.e.outputs = [o]) : r.e.outputs.find? (fun x => x.lo == o.lo && x.hi == o.hi) = some o := by
  rw [h]
  simp

theorem outKeys_single (h : r.e.outputs = [o]) : outKeys r.e = [(o.lo, o.hi)] := by
  unfold outKeys
  rw [h]
  rfl

/-- The output of a chunk of a moving kind. -/
def copiedOutput (r : PrivetRun) (o : OutRec) (chunk : Nat) (bs : List Byte) (ks : List Consumer) : Outp :=
  { lo := o.lo, hi := o.hi, chunk := chunk, bytes := padFrames bs, payload := 256 * max 1 o.p256, check := 0
    engine := r.engine, copied := true, consumers := ks }

theorem emit_copied (hlive : r.live s = true) (hnew : outAt (r.coll s) o.lo o.hi chunk = none) (ho : r.e.outputs = [o])
    (hfit : bs.length ≤ o.f * (256 * max 1 o.p256)) (hk : (consumersOf s r.job r.e o.lo o.hi chunk).length ≤ 1) :
    keptView (r.emit s o.lo o.hi chunk true bs) = keptView s ∧ r.coll (r.emit s o.lo o.hi chunk true bs) = { r.coll s with
      outputs := (r.coll s).outputs ++ [copiedOutput r o chunk bs (consumersOf s r.job r.e o.lo o.hi chunk)] } := by
  obtain ⟨hkept, hcoll⟩ := outputSent_keeps (s := s) (job := r.job) (ep := r.epoch) (ord := r.e.ordinal)
    (x := copiedOutput r o chunk bs (consumersOf s r.job r.e o.lo o.hi chunk)) rfl
  have hw : placeOutput s r.job r.epoch r.e.ordinal (copiedOutput r o chunk bs (consumersOf s r.job r.e o.lo o.hi chunk)) (entryDie r.e) =
      .ok (outputSent s r.job r.epoch r.e.ordinal (copiedOutput r o chunk bs (consumersOf s r.job r.e o.lo o.hi chunk))) :=
    placeOutput_copied rfl rfl rfl hk
  generalize outputSent s r.job r.epoch r.e.ordinal (copiedOutput r o chunk bs (consumersOf s r.job r.e o.lo o.hi chunk)) = w at hkept hcoll hw
  have hemit : emitOutput s r.job r.epoch r.e o.lo o.hi chunk bs r.engine true false none = .ok w := by
    unfold emitOutput
    rw [findOut_single ho]
    dsimp only
    rw [if_neg (Nat.not_lt.mpr hfit)]
    exact hw
  unfold PrivetRun.emit
  rw [hlive, hnew]
  simp only [Bool.not_true, Option.isSome_none, Bool.or_self, Bool.and_false, Bool.false_eq_true, if_false, hemit]
  refine ⟨hkept, ?_⟩
  refine (collAt_setColl_self isKey_collAt).trans ?_
  rw [show collAt (settleMade s (entryDie r.e) r.engine r.job (.ok w)) r.job r.epoch r.e.ordinal = _ from hcoll]
  simp only [List.map_id']
  rfl

/-- With one OUTPUT record whose value is there, a run emits it alone. -/
theorem emitAll_single {value : OutRec → Option (Bool × List Byte)} {copied : Bool} (ho : r.e.outputs = [o])
    (hv : value o = some (copied, bs)) : r.emitAll s chunk value = r.emit s o.lo o.hi chunk copied bs := by
  unfold PrivetRun.emitAll
  rw [outKeys_single ho, List.foldl_cons, List.foldl_nil]
  dsimp only
  rw [findOut_single ho]
  simp only [Option.map_some, hv]

theorem consumersOf_congr {e : CollEntry} {job lo hi : Nat} (ht : u.tops = s.tops) (hf : u.fab = s.fab) :
    consumersOf u job e lo hi chunk = consumersOf s job e lo hi chunk := by
  unfold consumersOf routeAt routeInForce topOf
  rw [ht, hf]

/-- Tiles that are moved raise no flag (R167). -/
theorem movedRuns_flags {job : Nat} {c : Coll} {e : CollEntry} :
    (movedRuns s job t c e chunk).foldl (fun f r => f ||| r.flags) 0 = 0 := by
  unfold movedRuns
  rw [List.foldl_map]
  exact List.foldl_fixed' (fun _ => BitVec.or_zero) _

theorem landMoved_nil {i : InRec} (hb : r.e.buffers = []) : r.landMoved s t i = s := by
  unfold PrivetRun.landMoved
  dsimp only
  rw [hb]
  rfl

/-- The end of a run of a moving kind without buffers: `w` is the state once its output has been emitted. -/
def moveEnds (r : PrivetRun) (s w : State) (value : OutRec → Option (Bool × List Byte)) : State :=
  if !(r.coll w).aborted && r.e.inputs.all (fun i => (inpAt (r.coll s) i.rank r.chunk).acked) && !r.leftOver w r.chunk value
      && !(r.coll s).formed.contains r.chunk then
    if (r.coll w).aborted then w else r.markFormed w r.chunk
  else w

theorem moveEnds_keeps {w : State} {value : OutRec → Option (Bool × List Byte)} :
    keptView (moveEnds r s w value) = keptView w ∧ (r.coll (moveEnds r s w value)).outputs = (r.coll w).outputs := by
  unfold moveEnds
  split
  · split
    · exact ⟨rfl, rfl⟩
    · exact ⟨markFormed_keeps.1, (congrArg Coll.outputs (markFormed_keeps (s := w) (r := r) (chunk := r.chunk)).2 :)⟩
  · exact ⟨rfl, rfl⟩

/-- A run of a moving kind with one OUTPUT record and no buffers makes its output. -/
theorem move_emits (ht : topOf s r.job = some t) (ho : r.e.outputs = [o]) (hb : r.e.buffers = []) (hf : r.failed = [])
    (ha : (r.coll s).aborted = false) (hfree : engineFree s (entryDie r.e) r.engine r.job = true)
    (hv : movedBytes t (r.coll s) r.e r.chunk o = some (true, bs)) (hnew : outAt (r.coll s) o.lo o.hi r.chunk = none)
    (hfit : bs.length ≤ o.f * (256 * max 1 o.p256)) (hk : (consumersOf s r.job r.e o.lo o.hi r.chunk).length ≤ 1) :
    keptView (r.move s) = keptView s ∧ (r.coll (r.move s)).outputs =
      (r.coll s).outputs ++ [copiedOutput r o r.chunk bs (consumersOf s r.job r.e o.lo o.hi r.chunk)] := by
  obtain ⟨u, hu⟩ : ∃ u, u = r.noted s (movedRuns s r.job t (r.coll s) r.e r.chunk) := ⟨_, rfl⟩
  obtain ⟨hquiet, hinteg, hfab, ⟨ran, hcoll⟩, hdata⟩ := noted_keeps (s := s) (runs := movedRuns s r.job t (r.coll s) r.e r.chunk) hf
  rw [← hu] at hquiet hfab hcoll hinteg hdata
  have hkept : keptView u = keptView s := Prod.ext (hdata movedRuns_flags) hinteg
  have hlive : r.live u = true := by
    unfold PrivetRun.live
    rw [hcoll, engineFree_of_fab hfab, hfree]
    simpa using ha
  have hks : consumersOf u r.job r.e o.lo o.hi r.chunk = consumersOf s r.job r.e o.lo o.hi r.chunk :=
    consumersOf_congr (congrArg (·.2.2.1) hquiet) hfab
  obtain ⟨wkept, wcoll⟩ := emit_copied (s := u) (r := r) (chunk := r.chunk) (bs := bs) hlive (by rw [hcoll]; exact hnew) ho hfit (by rw [hks]; exact hk)
  have hmove : r.move s = moveEnds r s (r.emit u o.lo o.hi r.chunk true bs) (movedBytes t (r.coll s) r.e r.chunk) := by
    unfold PrivetRun.move
    rw [ht]
    dsimp only
    rw [← hu, emitAll_single ho hv]
    simp only [landMoved_nil hb, List.foldl_fixed]
    rfl
  rw [hmove]
  obtain ⟨ekept, eout⟩ := moveEnds_keeps (r := r) (s := s) (w := r.emit u o.lo o.hi r.chunk true bs)
    (value := movedBytes t (r.coll s) r.e r.chunk)
  refine ⟨ekept.trans (wkept.trans hkept), eout.trans ?_⟩
  rw [wcoll, hks, hcoll]

end Move

/-! ### PRIVET_CHUNK -/

section Chunk

variable {s : State} {job ep ord chunk g : Nat} {top : Topiary} {e : CollEntry}

theorem sampleChunk_eq {die eng failures : Nat} :
    ∃ integ, sampleChunk s job ep ord chunk die eng g failures = { s with integ := integ } := by
  unfold sampleChunk
  dsimp only
  split
  · exact ⟨_, rfl⟩
  · exact ⟨_, rfl⟩

/-- A run begins with its engine noted and its sampling counted. -/
theorem chunkBegun_eq : ∃ integ last, chunkBegun s job ep ord e chunk g =
    { s with integ := integ, coll := { s.coll with engLast := last } } ∧ (chunkFirst s job ep e chunk = false → integ = s.integ) := by
  unfold chunkBegun
  split
  next h =>
    obtain ⟨integ, hs⟩ := sampleChunk_eq (s := s) (job := job) (ep := ep) (ord := ord) (chunk := chunk) (g := g) (die := entryDie e)
      (eng := engineOf e chunk) (failures := 0)
    rw [hs]
    exact ⟨integ, _, rfl, fun hn => absurd (h.symm.trans hn) nofun⟩
  · exact ⟨s.integ, _, rfl, fun _ => rfl⟩

theorem privetChunk_reduces (h : ChunkReady s job ep ord chunk top e g) (hk : isReduction e.kind = true) (ho : e.outputs = [])
    (hb : e.buffers = []) {bs : List Byte} {v : NodeVal}
    (hroot : (reduceChunk { s := chunkBegun s job ep ord e chunk g, job := job, top := top, e := e, coll := collAt s job ep ord
                            a := (chunkRange e chunk).1, n := (chunkRange e chunk).2 - (chunkRange e chunk).1 } chunk
      (rootWaits (chunkBegun s job ep ord e chunk g) job ep e chunk)).root = some (bs, v))
    (hnew : (collAt s job ep ord).roots.any (fun y => y.1 == chunk) = false) :
    let c := collAt s job ep ord
    ∃ t, exec (.privetChunk job ep ord chunk .clean none) s = .next t ∧
      (collAt t job ep ord).roots = c.roots ++ [(chunk, bs)] ∧
      (e.inputs.all (fun i => (inpAt c i.rank chunk).acked) = true → (collAt t job ep ord).formed.contains chunk = true) ∧
      (collAt t job ep ord).outputs = c.outputs ∧ t.comp.mem = s.comp.mem ∧ (∀ q, regsOf t q = regsOf s q) ∧
      t.tops = s.tops ∧ t.pwr = s.pwr ∧ t.mgt = s.mgt := by
  have hord := entryOf_ordinal h.entry
  obtain ⟨integ, last, hbegun, -⟩ := chunkBegun_eq (s := s) (job := job) (ep := ep) (ord := ord) (e := e) (chunk := chunk) (g := g)
  obtain ⟨dup, hexec⟩ := executeChunk_clean h (isSelect_of_isReduction hk)
  have hrun : doPrivetChunk job ep ord chunk .clean none s = _ := (privetChunk_executes h).trans hexec
  rw [show kindRun (cleanRun job ep e chunk g dup) (chunkBegun s job ep ord e chunk g) =
    (cleanRun job ep e chunk g dup).reduce (chunkBegun s job ep ord e chunk g) from if_pos hk] at hrun
  have hc : collAt (chunkBegun s job ep ord e chunk g) job ep ord = collAt s job ep ord := by rw [hbegun]; rfl
  have hcoll (u : State) : (cleanRun job ep e chunk g dup).coll u = collAt u job ep ord := congrArg (collAt u job ep) hord
  obtain ⟨hquiet, hout, hroots, hformed⟩ := reduce_forms (s := chunkBegun s job ep ord e chunk g) (r := cleanRun job ep e chunk g dup)
    (t := top) (bs := bs) (v := v) (by rw [hbegun]; exact h.loaded) ho hb rfl (by rw [hcoll, hc]; exact h.live.1)
    (by rw [hbegun]; exact h.engine.2.1) (by unfold reducedOf; rw [hcoll, hc]; exact hroot) (by rw [hcoll, hc]; exact hnew)
  simp only [hcoll, hc] at hout hroots hformed
  generalize (cleanRun job ep e chunk g dup).reduce (chunkBegun s job ep ord e chunk g) = w at hrun hquiet hout hroots hformed
  obtain ⟨skept, sform⟩ := runSettles_keeps (s := w) (j := job) (e := ep) (o := ord) (k := chunk)
  rw [← hrun] at skept sform
  simp only [formView, Prod.mk.injEq] at sform
  obtain ⟨souts, sroots, sformed⟩ := sform
  have hq : quietView (doPrivetChunk job ep ord chunk .clean none s) = quietView s := by
    refine (quietView_of_dataView (congrArg Prod.fst skept)).trans (hquiet.trans ?_)
    rw [hbegun]
    rfl
  simp only [quietView, Prod.mk.injEq] at hq
  obtain ⟨hregs, hmem, htops, hpwr, hmgt⟩ := hq
  exact ⟨_, rfl, sroots.trans hroots, fun hall => (congrArg (fun l => List.contains l chunk) sformed).trans (hformed hall), souts.trans hout, hmem,
    fun q => congrFun hregs q, htops, hpwr, hmgt⟩

theorem privetChunk_moves {o : OutRec} {bs : List Byte} (h : ChunkReady s job ep ord chunk top e g) (hred : isReduction e.kind = false)
    (hsel : isSelect e.kind = false) (ho : e.outputs = [o]) (hb : e.buffers = [])
    (hv : movedBytes top (collAt s job ep ord) e chunk o = some (true, bs)) (hnew : outAt (collAt s job ep ord) o.lo o.hi chunk = none)
    (hfit : bs.length ≤ o.f * (256 * max 1 o.p256)) (hk : (consumersOf s job e o.lo o.hi chunk).length ≤ 1) :
    ∃ t, exec (.privetChunk job ep ord chunk .clean none) s = .next t ∧
      (collAt t job ep ord).outputs = (collAt s job ep ord).outputs ++
        [{ lo := o.lo, hi := o.hi, chunk := chunk, bytes := padFrames bs, payload := 256 * max 1 o.p256, check := 0,
           engine := g, copied := true, consumers := consumersOf s job e o.lo o.hi chunk }] ∧
      t.integ = s.integ ∧ KeepsData s t := by
  have hord := entryOf_ordinal h.entry
  obtain ⟨integ, last, hbegun, hinteg⟩ := chunkBegun_eq (s := s) (job := job) (ep := ep) (ord := ord) (e := e) (chunk := chunk) (g := g)
  have hfirst : chunkFirst s job ep e chunk = false := by
    unfold chunkFirst computesNow
    rw [hred, hsel, h.plain.1, if_neg h.inside.2.1]
    rfl
  cases hinteg hfirst
  obtain ⟨dup, hexec⟩ := executeChunk_clean h hsel
  have hrun : doPrivetChunk job ep ord chunk .clean none s = _ := (privetChunk_executes h).trans hexec
  rw [show kindRun (cleanRun job ep e chunk g dup) (chunkBegun s job ep ord e chunk g) =
    (cleanRun job ep e chunk g dup).move (chunkBegun s job ep ord e chunk g) from if_neg (by
      rw [show isReduction (cleanRun job ep e chunk g dup).e.kind = false from hred]; decide)] at hrun
  have hc : collAt (chunkBegun s job ep ord e chunk g) job ep ord = collAt s job ep ord := by rw [hbegun]; rfl
  have hcoll (u : State) : (cleanRun job ep e chunk g dup).coll u = collAt u job ep ord := congrArg (collAt u job ep) hord
  have hks : consumersOf (chunkBegun s job ep ord e chunk g) job e o.lo o.hi chunk = consumersOf s job e o.lo o.hi chunk := by
    rw [hbegun]; rfl
  obtain ⟨hkept, hout⟩ := move_emits (s := chunkBegun s job ep ord e chunk g) (r := cleanRun job ep e chunk g dup) (t := top) (bs := bs)
    (by rw [hbegun]; exact h.loaded) ho hb rfl (by rw [hcoll, hc]; exact h.live.1) (by rw [hbegun]; exact h.engine.2.1)
    (by rw [hcoll, hc]; exact hv) (by rw [hcoll, hc]; exact hnew) hfit (hks ▸ hk)
  simp only [hcoll, hc] at hout
  generalize (cleanRun job ep e chunk g dup).move (chunkBegun s job ep ord e chunk g) = w at hrun hkept hout
  obtain ⟨skept, sform⟩ := runSettles_keeps (s := w) (j := job) (e := ep) (o := ord) (k := chunk)
  rw [← hrun] at skept sform
  have hk' : keptView (doPrivetChunk job ep ord chunk .clean none s) = keptView s := by
    refine skept.trans (hkept.trans ?_)
    rw [hbegun]
    rfl
  refine ⟨_, rfl, (congrArg Prod.fst sform).trans (hout.trans ?_), congrArg Prod.snd hk', KeepsData.of_dataView (congrArg Prod.fst hk')⟩
  exact congrArg (fun ks => (collAt s job ep ord).outputs ++ [copiedOutput (cleanRun job ep e chunk g dup) o chunk bs ks]) hks

/-- What a logged error changes: the integrity state, event rings, attention bits and free values drawn (R452, R459). -/
theorem quarantine_keeps {unit die logical trigger bands : Nat} :
    dataView (quarantine s unit die logical trigger bands) = dataView s ∧ ordView (quarantine s unit die logical trigger bands) = ordView s := by
  unfold quarantine quarNote
  dsimp only
  split
  · exact ⟨rfl, rfl⟩
  · split
    · exact ⟨rfl, rfl⟩
    · exact ⟨rfl, rfl⟩

theorem judgeUnit_keeps {unit die logical : Nat} :
    dataView (judgeUnit s unit die logical) = dataView s ∧ ordView (judgeUnit s unit die logical) = ordView s := by
  unfold judgeUnit
  dsimp only
  split
  · exact quarantine_keeps
  · split
    · exact quarantine_keeps
    · exact ⟨rfl, rfl⟩

theorem logError_keeps {kind unit die logical col j o k pattern : Nat} :
    dataView (logError s kind unit die logical col j o k pattern) = dataView s ∧
    ordView (logError s kind unit die logical col j o k pattern) = ordView s := by
  unfold logError logErrorAt
  extract_lets D e i s1 s2
  have h2 : dataView s2 = dataView s ∧ ordView s2 = ordView s := judgeUnit_keeps (s := s1)
  split
  · exact ⟨rfl, rfl⟩
  · split
    · exact ⟨judgeUnit_keeps.1.trans h2.1, judgeUnit_keeps.2.trans h2.2⟩
    · exact h2

theorem residueErrors_keeps {unit die j o k : Nat} {xs : List (Nat × FaultAt)} :
    dataView (residueErrors s unit die j o k xs) = dataView s ∧ ordView (residueErrors s unit die j o k xs) = ordView s := by
  unfold residueErrors
  exact ⟨foldl_keeps (v := dataView) (fun s _ => (logError_keeps (s := icnt s 0 1)).1) _ _,
    foldl_keeps (v := ordView) (fun s _ => (logError_keeps (s := icnt s 0 1)).2) _ _⟩

theorem privetErrors_keeps {failed : List (Nat × FaultAt)} {fs : List FaultAt} (hres : s.integ.residue = true) :
    dataView (privetErrors s e job chunk failed (.residue fs)) = dataView s ∧
    ordView (privetErrors s e job chunk failed (.residue fs)) = ordView s := by
  unfold privetErrors
  dsimp only
  rw [hres]
  split
  · exact ⟨rfl, rfl⟩
  · split
    · exact residueErrors_keeps
    · exact residueErrors_keeps

/-- An output that fails for good aborts its ordinal, with INTEG and FAULT set (R446). -/
theorem outputFails_aborts (hl : (collAt s job ep ord).aborted = false) (he : (entryOf s job ord).isSome = true) :
    (collAt (outputFails s job ep ord chunk) job ep ord).aborted = true ∧
    (outputFails s job ep ord chunk).attn &&& aInteg = aInteg ∧ (outputFails s job ep ord chunk).attn &&& aFault = aFault ∧
    dataView (outputFails s job ep ord chunk) = dataView s := by
  obtain ⟨hdata, hord⟩ := logError_keeps (s := s) (kind := 7) (unit := 5) (die := 0) (logical := 0) (col := 0) (j := job) (o := ord)
    (k := chunk) (pattern := 0)
  unfold outputFails
  generalize logError s 7 5 0 0 0 job ord chunk 0 = u at hdata hord
  have hl' : (collAt (setAttn u aInteg) job ep ord).aborted = false := by
    rw [collAt_of_ordView (show ordView (setAttn u aInteg) = ordView s from hord)]; exact hl
  have he' : (entryOf (setAttn u aInteg) job ord).isSome = true := by
    rw [entryOf_of_tops (show (setAttn u aInteg).tops = s.tops from congrArg Prod.fst hord)]; exact he
  obtain ⟨hab, hfault⟩ := abortColl_record (cause := Res.verify.code) (origin := ownOrigin (setAttn u aInteg))
    (time := (setAttn u aInteg).fabricTime) hl' he'
  exact ⟨hab, shows_abortHere (s := setAttn u aInteg) attn_setAttn_and, hfault, (dataView_of_abortView abortView_abortHere).trans hdata⟩

/-- Three executions that fail their residue check abort the ordinal (R434, R446). -/
theorem privetChunk_fails (h : ChunkReady s job ep ord chunk top e g) (hres : s.integ.residue = true)
    (hcomp : computesNow s job ep e chunk = true) (f1 f2 f3 : FaultAt) :
    ∃ t, exec (.privetChunk job ep ord chunk (.residue [f1, f2, f3]) none) s = .next t ∧ (collAt t job ep ord).aborted = true ∧
      t.attn &&& aInteg = aInteg ∧ t.attn &&& aFault = aFault ∧ KeepsData s t := by
  have hexp := h.plain.1
  have hord := entryOf_ordinal h.entry
  have hfs : (if computesNow s job ep e chunk then runFailures s e (.residue [f1, f2, f3]) else []) = [f1, f2, f3] := by
    rw [if_pos hcomp]
    unfold runFailures
    dsimp only
    rw [hres]
    rfl
  obtain ⟨u, hu⟩ : ∃ u, u = privetErrors s e job chunk (((chunkUnits s job e chunk).take 3).zip [f1, f2, f3]) (.residue [f1, f2, f3]) := ⟨_, rfl⟩
  obtain ⟨hdata, hords⟩ := privetErrors_keeps (s := s) (e := e) (job := job) (chunk := chunk)
    (failed := ((chunkUnits s job e chunk).take 3).zip [f1, f2, f3]) (fs := [f1, f2, f3]) hres
  rw [← hu] at hdata hords
  have hrun : doPrivetChunk job ep ord chunk (.residue [f1, f2, f3]) none s = outputFails u job ep ord chunk := by
    rw [privetChunk_executes h]
    unfold executeChunk
    dsimp only
    rw [hfs, hexp]
    unfold chunkFails
    rw [hexp, hord, hu]
    simp only [Bool.false_eq_true, if_false, List.length_cons, List.length_nil, Nat.zero_add, Nat.reduceAdd, le_refl, decide_true,
      Bool.or_true, if_true, min_self]
  obtain ⟨hab, hint, hfault, hd⟩ := outputFails_aborts (s := u) (job := job) (ep := ep) (ord := ord) (chunk := chunk)
    (by rw [collAt_of_ordView hords]; exact h.live.1)
    (by rw [entryOf_of_tops (congrArg Prod.fst hords), h.entry]; rfl)
  exact ⟨_, congrArg (fun t => Host.Outcome.next (traced s t)) hrun, hab, hint, hfault, KeepsData.of_dataView (hd.trans hdata)⟩

end Chunk

/-- Settles O39: a clean run notes its engine, places its root or sends its one copied output, and neither the inputs that it
drops nor the ordinal's completion changes what has been formed. -/
theorem enginesFormChunks : Obligations.EnginesFormChunks := by
  unfold Obligations.EnginesFormChunks
  exact ⟨fun _ _ _ _ _ _ _ _ h hk ho hb _ _ hroot hnew => privetChunk_reduces h hk ho hb hroot hnew,
    fun _ _ _ _ _ _ _ _ _ _ h hred hsel ho hb hv hnew hfit hk => privetChunk_moves h hred hsel ho hb hv hnew hfit hk,
    fun _ _ _ _ _ _ _ _ h hres hcomp f1 f2 f3 => privetChunk_fails h hres hcomp f1 f2 f3⟩

end Sys2Proof.Machine
end

section
/-! What saving a context does to the bytes outside its areas (R425, R427). On a list of cells that is not in canonical form a
write of the byte 0 can bring a lower byte to light, so what
`Obligations.PreemptionStopsAtARestartPoint` says of those bytes is a statement about the free values. -/

namespace Sys2Proof.Machine

/-! ### Writes to a list of cells in any form -/

section Cells

variable {K k a : Nat} {b : Byte}

/-- A write leaves what lies above it. -/
theorem cellGet_cellSet_above (h : k < a) : ∀ cs, cellGet (cellSet cs k b) a = cellGet cs a
  | [] => by
    unfold cellSet
    split
    · rfl
    · simp only [cellGet, if_neg h.ne, if_neg h.not_gt]
  | (j, c) :: rest => by
    have hb : ∀ x r, cellGet ((k, x) :: r) a = cellGet r a := fun x r => by rw [cellGet, if_neg h.ne, if_neg h.not_gt]
    unfold cellSet
    by_cases hkj : k < j
    · rw [if_pos hkj]
      split
      · rfl
      · exact hb _ _
    · rw [if_neg hkj]
      by_cases he : k = j
      · subst he
        rw [if_pos rfl, hb]
        split
        · rfl
        · exact hb _ _
      · rw [if_neg he]
        simp only [cellGet, cellGet_cellSet_above h rest]

/-- A read below `K` ends at or before the cell `K`: the cells before it are all below it. -/
def reaches (K : Nat) : List (Nat × Byte) → Prop
  | [] => False
  | (j, _) :: rest => j = K ∨ (j < K ∧ reaches K rest)

/-- A write of another byte than 0 to `K` lists it, and leaves what lies below. -/
theorem cellSet_reaches (hb : b ≠ unlistedByte) (ha : a < K) : ∀ cs, reaches K (cellSet cs K b) ∧ cellGet (cellSet cs K b) a = cellGet cs a
  | [] => by
    unfold cellSet
    rw [if_neg hb]
    exact ⟨.inl rfl, by simp only [cellGet, if_neg ha.ne', if_pos ha]⟩
  | (j, c) :: rest => by
    have hK : ∀ x r, cellGet ((K, x) :: r) a = unlistedByte := fun x r => by rw [cellGet, if_neg ha.ne', if_pos ha]
    unfold cellSet
    by_cases hkj : K < j
    · rw [if_pos hkj, if_neg hb, hK]
      exact ⟨.inl rfl, by rw [cellGet, if_neg (by omega), if_pos (by omega)]⟩
    · rw [if_neg hkj]
      by_cases he : K = j
      · subst he
        rw [if_pos rfl, if_neg hb, hK, hK]
        exact ⟨.inl rfl, rfl⟩
      · rw [if_neg he]
        obtain ⟨hr, hg⟩ := cellSet_reaches hb ha rest
        exact ⟨.inr ⟨by omega, hr⟩, by simp only [cellGet, hg]⟩

/-- Once `K` is listed so, a write above it leaves what lies below. -/
theorem cellSet_keeps_below (hk : K < k) (ha : a < K) : ∀ cs, reaches K cs →
    reaches K (cellSet cs k b) ∧ cellGet (cellSet cs k b) a = cellGet cs a
  | [], h => h.elim
  | (j, c) :: rest, h => by
    have hjk : j < k := by rcases h with h | ⟨h, -⟩ <;> omega
    unfold cellSet
    rw [if_neg hjk.not_gt, if_neg hjk.ne']
    rcases h with h | ⟨hj, hr⟩
    · exact ⟨.inl h, by rw [cellGet, cellGet, if_neg (by omega), if_pos (by omega), if_neg (by omega), if_pos (by omega)]⟩
    · obtain ⟨hr', hg⟩ := cellSet_keeps_below hk ha rest hr
      exact ⟨.inr ⟨hj, hr'⟩, by simp only [cellGet, hg]⟩

end Cells

/-! ### Runs of bytes -/

section Runs

variable {K k a : Nat} {m : Memory}

theorem putBytes_above : ∀ (bs : List Byte) (m : Memory) (k : Nat), k + bs.length ≤ a → (m.putBytes k bs).get a = m.get a
  | [], _, _, _ => rfl
  | b :: bs, m, k, h => by
    rw [List.length_cons] at h
    exact (putBytes_above bs (m.put k b) (k + 1) (by omega)).trans (cellGet_cellSet_above (by omega) m.cells)

theorem putBytes_below (ha : a < K) : ∀ (bs : List Byte) (m : Memory) (k : Nat), K < k → reaches K m.cells →
    reaches K (m.putBytes k bs).cells ∧ (m.putBytes k bs).get a = m.get a
  | [], _, _, _, h => ⟨h, rfl⟩
  | b :: bs, m, k, hk, h => by
    obtain ⟨hr, hg⟩ := cellSet_keeps_below (b := b) hk ha m.cells h
    obtain ⟨hr', hg'⟩ := putBytes_below ha bs (m.put k b) (k + 1) (by omega) hr
    exact ⟨hr', hg'.trans hg⟩

end Runs

/-! ### The context of a queue -/

section Context

variable {s : State} {q a : Nat}

/-- The lowest byte of a free value. -/
def lowByte (n : Nat) : Byte := BitVec.ofNat 8 (Config.freeWord n).toNat

/-- A context's word `i` from key `k` on is the next free value. -/
def saveWord (k : Nat) (s : State) (i : Nat) : State :=
  { s with freeCtr := s.freeCtr + 1
           comp := { s.comp with mem := s.comp.mem.putBytes (k + 8 * i) (leBytes 8 (Config.freeWord s.freeCtr).toNat) } }

/-- The words of a context area. -/
def saveArea (s : State) (x : Nat × Nat) : State := (List.range (x.2 / 8)).foldl (saveWord x.1) s

/-- The poison of a context area goes. -/
def cleanArea (s : State) (x : Nat × Nat) : State := { s with comp := { s.comp with mem := s.comp.mem.cleanWords x.1 x.2 } }

theorem saveContext_eq : saveContext s q = setQueue ((contextAreas ((contextAreas s q).foldl saveArea s) q).foldl cleanArea
    ((contextAreas s q).foldl saveArea s)) q (fun Q => { Q with ctxSaved := true }) := rfl

/-- `s` with another memory and count of drawn values. -/
def withDrawn (s : State) (n : Nat) (m : Memory) : State := { s with freeCtr := n, comp := { s.comp with mem := m } }

theorem withDrawn_foldl {α : Type} {f : State → α → State} (hf : ∀ s x, ∃ n m, f s x = withDrawn s n m) :
    ∀ (l : List α) (s : State), ∃ n m, l.foldl f s = withDrawn s n m
  | [], s => ⟨s.freeCtr, s.comp.mem, rfl⟩
  | x :: l, s => by
    obtain ⟨n, m, h⟩ := hf s x
    obtain ⟨n', m', h'⟩ := withDrawn_foldl hf l (f s x)
    exact ⟨n', m', by rw [List.foldl_cons, h', h]; rfl⟩

/-- A saved context is the mark of its queue and a change of memory. -/
theorem saveContext_drawn : ∃ n m, saveContext s q = setQueue (withDrawn s n m) q (fun Q => { Q with ctxSaved := true }) := by
  rw [saveContext_eq]
  obtain ⟨n, m, h⟩ := withDrawn_foldl (f := saveArea) (fun s x => withDrawn_foldl (fun _ _ => ⟨_, _, rfl⟩) _ s) (contextAreas s q) s
  obtain ⟨n', m', h'⟩ := withDrawn_foldl (f := cleanArea) (fun _ _ => ⟨_, _, rfl⟩)
    (contextAreas ((contextAreas s q).foldl saveArea s) q) ((contextAreas s q).foldl saveArea s)
  exact ⟨n', m', by rw [h', h]; rfl⟩

theorem cells_cleanAreas (xs : List (Nat × Nat)) : (xs.foldl cleanArea s).comp.mem.cells = s.comp.mem.cells :=
  foldl_keeps (v := fun s : State => s.comp.mem.cells) (f := cleanArea) (fun _ _ => rfl) xs s

/-- The bytes after a saved context are those of its words. -/
theorem cells_saveContext : (saveContext s q).comp.mem.cells = ((contextAreas s q).foldl saveArea s).comp.mem.cells :=
  cells_cleanAreas _

theorem length_leBytes_eight {n : Nat} : (leBytes 8 n).length = 8 := length_leBytes 8 n

theorem saveArea_above {x : Nat × Nat} (h : x.1 + x.2 ≤ a) : (saveArea s x).comp.mem.get a = s.comp.mem.get a := by
  have key : ∀ (l : List Nat), (∀ i ∈ l, i < x.2 / 8) → ∀ s : State, (l.foldl (saveWord x.1) s).comp.mem.get a = s.comp.mem.get a := by
    intro l
    induction l with
    | nil => exact fun _ _ => rfl
    | cons i l ih =>
      intro hl s
      have hi := hl i List.mem_cons_self
      have hword : (saveWord x.1 s i).comp.mem.get a = s.comp.mem.get a := by
        refine putBytes_above _ _ _ ?_
        rw [length_leBytes_eight]
        omega
      exact (ih (fun j hj => hl j (List.mem_cons_of_mem _ hj)) _).trans hword
  exact key _ (fun i hi => List.mem_range.mp hi) s

/-- Byte `K` is listed, and byte `a` below it reads `v`. -/
def HoldsBelow (K a : Nat) (v : Byte) (s : State) : Prop := reaches K s.comp.mem.cells ∧ s.comp.mem.get a = v

theorem holdsBelow_foldl {α : Type} {K : Nat} {v : Byte} {f : State → α → State} : ∀ (l : List α),
    (∀ x ∈ l, ∀ s, HoldsBelow K a v s → HoldsBelow K a v (f s x)) → ∀ s, HoldsBelow K a v s → HoldsBelow K a v (l.foldl f s)
  | [], _, _, h => h
  | x :: l, hf, s, h => holdsBelow_foldl l (fun y hy => hf y (List.mem_cons_of_mem _ hy)) _ (hf x List.mem_cons_self s h)

theorem saveWord_below {K k i : Nat} {v : Byte} (ha : a < K) (hk : K < k + 8 * i) (h : HoldsBelow K a v s) :
    HoldsBelow K a v (saveWord k s i) := by
  obtain ⟨hr, hg⟩ := putBytes_below ha (leBytes 8 (Config.freeWord s.freeCtr).toNat) s.comp.mem (k + 8 * i) hk h.1
  exact ⟨hr, hg.trans h.2⟩

theorem saveWord_first {K : Nat} (ha : a < K) (hb : lowByte s.freeCtr ≠ unlistedByte) : HoldsBelow K a (s.comp.mem.get a) (saveWord K s 0) := by
  obtain ⟨hr, hg⟩ := cellSet_reaches hb ha s.comp.mem.cells
  obtain ⟨hr', hg'⟩ := putBytes_below ha (leBytes 7 ((Config.freeWord s.freeCtr).toNat / 256)) (s.comp.mem.put K (lowByte s.freeCtr)) (K + 1)
    (Nat.lt_succ_self K) hr
  exact ⟨hr', hg'.trans hg⟩

theorem saveAreas_below {x : Nat × Nat} {xs : List (Nat × Nat)} (ha : a < x.1) (hx : 8 ≤ x.2) (hxs : ∀ y ∈ xs, x.1 < y.1)
    (hb : lowByte s.freeCtr ≠ unlistedByte) : ((x :: xs).foldl saveArea s).comp.mem.get a = s.comp.mem.get a := by
  have hone : HoldsBelow x.1 a (s.comp.mem.get a) (saveArea s x) := by
    obtain ⟨n, hn⟩ : ∃ n, x.2 / 8 = n + 1 := ⟨x.2 / 8 - 1, by omega⟩
    unfold saveArea
    rw [hn, List.range_succ_eq_map, List.foldl_cons]
    refine holdsBelow_foldl _ (fun i hi s hs => ?_) _ (saveWord_first ha hb)
    obtain ⟨j, -, rfl⟩ := List.mem_map.mp hi
    exact saveWord_below ha (by omega) hs
  refine (holdsBelow_foldl xs (fun y hy s hs => ?_) _ hone).2
  exact holdsBelow_foldl _ (fun i _ s hs => saveWord_below ha (by have := hxs y hy; omega) hs) _ hs

theorem saveAreas_above : ∀ (xs : List (Nat × Nat)) (s : State), (∀ y ∈ xs, y.1 + y.2 ≤ a) → (xs.foldl saveArea s).comp.mem.get a = s.comp.mem.get a
  | [], _, _ => rfl
  | x :: xs, s, h => (saveAreas_above xs (saveArea s x) (fun y hy => h y (List.mem_cons_of_mem _ hy))).trans
      (saveArea_above (h x List.mem_cons_self))

/-- A queue's context areas follow one another. -/
theorem contextAreas_run : contextAreas s q = [] ∨ ∃ K n g, 8 ≤ n ∧ contextAreas s q = (List.range (g + 1)).map (fun i => (K + n * i, n)) := by
  have one : ∀ K n, 8 ≤ n → ∃ K' n' g, 8 ≤ n' ∧ [(K, n)] = (List.range (g + 1)).map (fun i => (K' + n' * i, n')) :=
    fun K n h => ⟨K, n, 0, h, by rw [Nat.zero_add, List.range_one, List.map_singleton, Nat.mul_zero, Nat.add_zero]⟩
  unfold contextAreas
  dsimp only
  split
  · exact .inl rfl
  next r _ =>
    split
    · cases hg : (queueAt s q).gangSize with
      | zero => exact .inl rfl
      | succ g =>
        refine .inr ⟨memKey 1 r.die (r.phys * 2 ^ 21) + 256 * (queueAt s q).gangFirst, 256, g, by omega, List.map_congr_left fun i _ => ?_⟩
        rw [Nat.mul_add, Nat.add_assoc]
    · exact .inr (one _ _ (by omega))
    · exact .inr (one _ _ (by omega))
    · exact .inl rfl

/-- Where no free value ends in the byte 0, a saved context leaves the bytes outside its areas. -/
theorem saveContext_outside (hb : ∀ n, lowByte n ≠ unlistedByte) (h : ∀ x, x ∈ contextAreas s q → a < x.1 ∨ x.1 + x.2 ≤ a) :
    (saveContext s q).comp.mem.get a = s.comp.mem.get a := by
  have hcells : (saveContext s q).comp.mem.get a = ((contextAreas s q).foldl saveArea s).comp.mem.get a :=
    congrArg (cellGet · a) cells_saveContext
  rw [hcells]
  obtain hnil | ⟨K, n, g, hn, hrun⟩ := contextAreas_run (s := s) (q := q)
  · rw [hnil]
    rfl
  rw [hrun] at h ⊢
  by_cases ha : a < K
  · rw [List.range_succ_eq_map, List.map_cons]
    refine saveAreas_below (by simpa using ha) hn (fun y hy => ?_) (hb _)
    obtain ⟨i, hi, rfl⟩ := List.mem_map.mp hy
    obtain ⟨j, -, rfl⟩ := List.mem_map.mp hi
    have : 0 < n * (j + 1) := Nat.mul_pos (by omega) (by omega)
    simp only [Nat.mul_zero, Nat.add_zero, Nat.succ_eq_add_one]
    omega
  · have hall : ∀ i, i < g + 1 → K + n * i + n ≤ a := by
      intro i
      induction i with
      | zero => exact fun hi => (h (K + n * 0, n) (List.mem_map.mpr ⟨0, List.mem_range.mpr hi, rfl⟩)).resolve_left (by simpa using ha)
      | succ i ih =>
        intro hi
        have hprev := ih (by omega)
        refine (h (K + n * (i + 1), n) (List.mem_map.mpr ⟨i + 1, List.mem_range.mpr hi, rfl⟩)).resolve_left ?_
        rw [Nat.mul_add]
        omega
    refine saveAreas_above _ _ fun y hy => ?_
    obtain ⟨i, hi, rfl⟩ := List.mem_map.mp hy
    exact hall i (List.mem_range.mp hi)

end Context

end Sys2Proof.Machine
end

section
/-! PREEMPT_STOP at a restart point and the free values of a saved context (R421, R425, R427): `Obligations.PreemptionStopsAtARestartPoint`
is equivalent to a statement about `Config.freeWord` alone, of which the model says nothing. -/

namespace Sys2Proof.Machine

section Preempt

variable {s : State} {q : Nat}

/-- PREEMPT_STOP counts the stop and discards run-ahead. -/
def stopped (s : State) (q : Nat) : State := squash (bumpMmu s (queueAt s q).die 9 1) q

/-- A stopped queue with its context saved gives its executor up. -/
def givenUp (s : State) (q : Nat) : State :=
  setQueue (saveContext (stopped s q) q) q (fun Q =>
    { Q with st := .preempted, stopAsked := false
             work := match Q.work with
               | some wk => if wk.isChain then some wk else none
               | none => none })

theorem exec_preemptStop (hst : (queueAt s q).st = .run) (ha : (queueAt s q).stopAsked = true) (hp : atRestartPoint (queueAt s q) = true) :
    exec (.preemptStop q) s = .next (traced s (schedule (givenUp s q))) := by
  have h : doPreemptStop q s = schedule (givenUp s q) := by
    unfold doPreemptStop
    exact if_pos ⟨hst, ha, hp⟩
  calc exec (.preemptStop q) s = .next (traced s (doPreemptStop q s)) := rfl
    _ = _ := by rw [h]

theorem coreView_stopped : coreView (stopped s q) = coreView s := coreView_squash.trans coreView_bumpMmu

theorem posView_stopped : posView (stopped s q) = posView s := posView_squash.trans posView_bumpMmu

theorem queueAt_bumpMmu {d k n r : Nat} : queueAt (bumpMmu s d k n) r = queueAt s r := rfl

/-- Discarding run-ahead is that, and a count. -/
theorem queueAt_squash (h : q < s.comp.queues.length) : queueAt (squash s q) q = { queueAt s q with runAhead := 0 } := by
  unfold squash
  dsimp only
  split
  next h0 => rw [← h0]
  · exact queueAt_setQueue_self h

theorem queueAt_stopped (h : q < s.comp.queues.length) : queueAt (stopped s q) q = { queueAt s q with runAhead := 0 } :=
  queueAt_squash h

/-- Only MMU.CNT[8] of a die counts what discarding run-ahead discards. -/
theorem mmuCnt_squash {i : Nat} (h : i ≠ 16 * (queueAt s q).die + 8) : lookupD (squash s q).comp.mmuCnt i 0 = lookupD s.comp.mmuCnt i 0 := by
  unfold squash
  dsimp only
  split
  · rfl
  · exact (lookupD_insertKey ..).trans (if_neg (Ne.symm h))

theorem mmuCnt_stopped : lookupD (stopped s q).comp.mmuCnt (16 * (queueAt s q).die + 9) 0 =
    satAdd (lookupD s.comp.mmuCnt (16 * (queueAt s q).die + 9) 0) 1 :=
  (mmuCnt_squash (by rw [queueAt_bumpMmu]; omega)).trans ((lookupD_insertKey ..).trans (if_pos rfl))

theorem contextAreas_stopped (h : q < s.comp.queues.length) : contextAreas (stopped s q) q = contextAreas s q := by
  have ht : (stopped s q).tops = s.tops := by
    unfold stopped squash
    dsimp only
    split <;> rfl
  unfold contextAreas topOf
  rw [queueAt_stopped h, ht]

/-- What `givenUp` leaves of the queue and of the rest. -/
theorem givenUp_drawn : ∃ n m, givenUp s q = setQueue (setQueue (withDrawn (stopped s q) n m) q (fun Q => { Q with ctxSaved := true })) q
    (fun Q => { Q with st := .preempted, stopAsked := false
                       work := match Q.work with
                         | some wk => if wk.isChain then some wk else none
                         | none => none }) := by
  obtain ⟨n, m, h⟩ := saveContext_drawn (s := stopped s q) (q := q)
  exact ⟨n, m, by rw [givenUp, h]⟩

theorem length_stopped : (stopped s q).comp.queues.length = s.comp.queues.length := by
  have h := coreView_stopped (s := s) (q := q)
  simp only [coreView, Prod.mk.injEq] at h
  obtain ⟨-, -, -, -, -, -, -, -, -, -, -, -, -, -, -, -, -, hl⟩ := h
  exact hl

theorem queueAt_givenUp (h : q < s.comp.queues.length) : ∃ w, queueAt (givenUp s q) q =
    { queueAt s q with runAhead := 0, ctxSaved := true, st := .preempted, stopAsked := false, work := w } := by
  obtain ⟨n, m, hu⟩ := givenUp_drawn (s := s) (q := q)
  have hl : q < (withDrawn (stopped s q) n m).comp.queues.length := by
    rw [← length_stopped (s := s) (q := q)] at h
    exact h
  rw [hu, queueAt_setQueue_self (by rw [setQueue_length]; exact hl), queueAt_setQueue_self hl]
  exact ⟨_, by rw [show queueAt (withDrawn (stopped s q) n m) q = _ from queueAt_stopped h]⟩

theorem posView_givenUp : posView (givenUp s q) = posView s := by
  obtain ⟨n, m, hu⟩ := givenUp_drawn (s := s) (q := q)
  rw [hu]
  refine (posView_setQueue ?_).trans ((posView_setQueue ?_).trans posView_stopped)
  all_goals exact fun _ => ⟨rfl, rfl, rfl, rfl, rfl⟩

theorem regsOf_givenUp (r : Nat) : regsOf (givenUp s q) r = regsOf s r := by
  obtain ⟨n, m, hu⟩ := givenUp_drawn (s := s) (q := q)
  rw [hu]
  refine (regsOf_of_coreView (coreView_setQueue ?_) r).trans ((regsOf_of_coreView (coreView_setQueue ?_) r).trans
    (regsOf_of_coreView coreView_stopped r))
  all_goals exact fun _ => ⟨rfl, rfl, rfl, rfl, rfl, rfl⟩

theorem givenUp_outside : KeepsOutside s (givenUp s q) := by
  obtain ⟨n, m, hu⟩ := givenUp_drawn (s := s) (q := q)
  rw [hu]
  obtain ⟨h1, h2, h3, h4, h5, h6, h7, h8⟩ := (ScalarFrame.of_coreView (q := q) (coreView_stopped (s := s) (q := q))).outside
  exact ⟨h1, h2, h3, h4, h5, h6, h7, h8⟩

theorem mmuCnt_givenUp : (givenUp s q).comp.mmuCnt = (stopped s q).comp.mmuCnt := by
  obtain ⟨n, m, hu⟩ := givenUp_drawn (s := s) (q := q)
  rw [hu]
  rfl

theorem mem_stopped : (stopped s q).comp.mem = s.comp.mem := (ScalarFrame.of_coreView (q := q) coreView_stopped).mem

end Preempt

/-! ### A free value that ends in the byte 0 -/

/-- Queue 0, of a Laurel array, stops at a word with the free value `n` next. The cells are not in canonical form: the first
byte of the queue's context area stands before bytes 0 and 1, so that these read 0. -/
def coveredBytes (n : Nat) : State :=
  { State.reset with
      freeCtr := n
      tops := [{ job := 0, maps := [⟨0, 1, 4, 0, true, true, false, false, 0, 0⟩] }]
      comp := { State.reset.comp with
        queues := [{ qtype := .mtx, st := .run, stopAsked := true }]
        mem := ⟨[(memKey 1 0 0x8000, 1), (0, 1), (1, 1)], []⟩ } }

theorem get_coveredBytes (n : Nat) : (coveredBytes n).comp.mem.get 0 = 0 := rfl

theorem contextAreas_coveredBytes (n : Nat) : contextAreas (coveredBytes n) 0 = [(memKey 1 0 0x8000, 64)] := rfl

/-- A 0 written to the area uncovers byte 0. -/
theorem saveContext_uncovers {n : Nat} (h : lowByte n = unlistedByte) : (givenUp (coveredBytes n) 0).comp.mem.get 0 = 1 := by
  have hcells : (givenUp (coveredBytes n) 0).comp.mem.get 0 = (saveArea (stopped (coveredBytes n) 0) (memKey 1 0 0x8000, 64)).comp.mem.get 0 :=
    congrArg (cellGet · 0) cells_saveContext
  have hfirst : HoldsBelow 1 0 1 (saveWord (memKey 1 0 0x8000) (stopped (coveredBytes n) 0) 0) := by
    have hput : ((coveredBytes n).comp.mem.put (memKey 1 0 0x8000) (lowByte n)).cells = [(0, 1), (1, 1)] := by
      rw [h]
      rfl
    exact putBytes_below (K := 1) (a := 0) Nat.zero_lt_one (leBytes 7 ((Config.freeWord n).toNat / 256))
      ((coveredBytes n).comp.mem.put (memKey 1 0 0x8000) (lowByte n)) (memKey 1 0 0x8000 + 1) (by decide)
      (hput ▸ .inr ⟨Nat.zero_lt_one, .inl rfl⟩) |>.imp id (·.trans (congrArg (cellGet · 0) hput))
  rw [hcells]
  unfold saveArea
  rw [show 64 / 8 = 7 + 1 from rfl, List.range_succ_eq_map, List.foldl_cons]
  refine (holdsBelow_foldl _ (fun i _ s hs => ?_) _ hfirst).2
  exact saveWord_below Nat.zero_lt_one (Nat.lt_add_right _ (by decide)) hs

/-- All that the obligation claims holds, but for the bytes outside the context areas: over cells in any form these stand exactly when no
free value ends in the byte 0. `Config.freeWord` is opaque, so neither side of the equivalence nor its negation has a proof. -/
theorem preemptionStopsAtARestartPoint_iff : Obligations.PreemptionStopsAtARestartPoint ↔ ∀ n, lowByte n ≠ unlistedByte := by
  constructor
  · intro h n hn
    obtain ⟨u, he, -, -, -, -, -, -, -, -, hmem⟩ := h 0 (coveredBytes n) rfl rfl rfl Nat.zero_lt_one
    have heq : traced (coveredBytes n) (schedule (givenUp (coveredBytes n) 0)) = traced (coveredBytes n) (schedule u) :=
      Host.Outcome.next.inj ((exec_preemptStop rfl rfl rfl).symm.trans he)
    have hcore : coreView (givenUp (coveredBytes n) 0) = coreView u := by
      simpa only [coreView_traced, coreView_schedule] using congrArg coreView heq
    have hkept := hmem 0 (fun a ha => by
      rw [contextAreas_coveredBytes, List.mem_singleton] at ha
      subst ha
      exact .inl (by decide))
    rw [← (ScalarFrame.of_coreView (q := 0) hcore).mem, saveContext_uncovers hn, get_coveredBytes] at hkept
    exact absurd hkept (by decide)
  · intro hb q s hst ha hp hq
    obtain ⟨w, hQ⟩ := queueAt_givenUp hq
    refine ⟨givenUp s q, exec_preemptStop hst ha hp, by rw [hQ], by rw [hQ], by rw [hQ], by rw [hQ], ?_, regsOf_givenUp,
      .of_posView posView_givenUp, givenUp_outside, fun key hkey => ?_⟩
    · rw [mmuCnt_givenUp]
      exact mmuCnt_stopped
    · calc (givenUp s q).comp.mem.get key = (saveContext (stopped s q) q).comp.mem.get key := rfl
        _ = (stopped s q).comp.mem.get key := saveContext_outside hb (by rwa [contextAreas_stopped hq])
        _ = s.comp.mem.get key := by rw [mem_stopped]

end Sys2Proof.Machine
end
